-- ==== Sys2Proof/Word.lean ====
section
/-! DEFINITION. The two word types of the block: a byte of a frame or of memory, and a 64-bit register word (R4). -/

namespace Sys2Proof

/-- One byte of a frame, of a payload or of memory. -/
abbrev Byte := BitVec 8

/-- One register word; registers are 64 bits wide (R4). -/
abbrev Word := BitVec 64

/-- A 32-bit pattern: an FP32 value (R278), a tick number's low 32 bits, a hash. -/
abbrev Word32 := BitVec 32

end Sys2Proof
end

