-- ==== Sys2Proof/Syntax.lean ====
section
/-! DEFINITION. The commands of the block: one constructor per row of spec/opcode_table.json, in the table's order. The
table gives the rows no fields; an operand here is what the command brings from outside the block (a frame's bytes, a
written value, a sensor's reading, an engine's request) that the state does not already hold. -/

namespace Sys2Proof

/-- A reading of one temperature sensor (R651): sensor 0 to 95, value in 1/8 °C. -/
structure TempReading where
  sensor : Fin 96
  eighths : Int
  deriving DecidableEq, Repr

/-- What the supply and the sensors show at a tick boundary: the input energy measured over the tick that has just ended
(FP32, µJ; R410, R413) and the sensors' readings (R421, R651). -/
structure BoundaryEnv where
  energyUj : Word32
  temps : List TempReading
  deriving DecidableEq, Repr

/-- Where a data block lies: local address space (R472) or the core memory of a Lens core (R214), core number 16c + j. -/
inductive Place where
  | shared (addr : Nat)
  | core (core : Fin 256) (addr : Nat)
  deriving DecidableEq, Repr

/-- The form of a dense operation (Table 6.5); a Grating tile uses `grating`. -/
inductive Form where
  | facet | shared | wide8 | wide4 | gang | grating
  deriving DecidableEq, Repr

/-- One tile of an array pass, as a stage program issues it (R224, R231): the partition, its context, model and tier, the
pass's quantisation block (R309), the tile's rows and columns within the operand, its vectors, where the operand's activation
rows and weight rows lie and their row pitch in elements, and for INT16 and FP32 operands the part-product (Table 7.7, R292;
0 = none). `facet` is the Facet of the partition. `slots` names the sample slot of each vector; `reads` names the passes of the
stage program, by `CMD_ID`, of which the tile reads outputs (R244). -/
structure Tile where
  partition : Nat
  facet : Nat
  context : Fin 256
  model : Fin 15
  tier : Fin 3
  learning : Bool
  form : Form
  qblock : Nat
  kBase : Nat
  k : Nat
  kTotal : Nat
  nBase : Nat
  n : Nat
  nTotal : Nat
  mBase : Nat
  m : Nat
  mTotal : Nat
  part : Nat
  lastOfPass : Bool
  act : Place
  actPitch : Nat
  wgt : Place
  wgtPitch : Nat
  out : Place
  completion : BitVec 16
  slots : List Nat
  reads : List Word32
  cmdId : Word32
  deriving DecidableEq, Repr

/-- A fault of the arithmetic in a tile, which the checks of R220 to R222 may then find. A row band is the rows of one Facet (a Gang has
four, R233); a column block is the columns that share a checksum column. A `value` is the word that the fault leaves in place of what
the cells form. -/
inductive Upset where
  /-- The partial sum that leaves a row band in a column, for a vector. -/
  | sum (band column vector : Nat) (value : Word32)
  /-- The output of the checksum column of a row band and column block, for a vector. -/
  | check (band block vector : Nat) (value : Word32)
  /-- The check wavefront's result in a column. -/
  | wave (column : Nat) (value : Word32)
  /-- The check wavefront's result in the checksum column of a column block. -/
  | waveCheck (block : Nat) (value : Word32)
  /-- The side lane's own check of a vector does not match (R319). -/
  | side (vector : Nat)
  deriving DecidableEq, Repr

/-- The cycles of Table 6.4 that the Facets or Grating of a tile spent on it, as their clock domain saw them, and the waits: for
the core-memory ports of each core of the partition in turn, the side lane and cluster-memory banks (R247, R319). -/
structure FacetCycles where
  feed : Nat
  drain : Nat
  load : Nat
  portConflict : List Nat
  sideWait : Nat
  cmemConflict : Nat
  deriving DecidableEq, Repr

/-- A mover operation (Table 6.8) of a stage program, named by its partition, model and tier. `elemBits` is 4, 8, 16 or 32. -/
structure MoverOp where
  cluster : Fin 16
  partition : Nat := 0
  context : Fin 256
  model : Fin 15 := 0
  tier : Fin 3 := 0
  learning : Bool := false
  src : Place
  dst : Place
  rows : Nat
  cols : Nat
  elemBits : Nat
  srcPitch : Nat
  dstPitch : Nat
  transpose : Bool
  signal : BitVec 16
  cmdId : Word32
  deriving DecidableEq, Repr

/-- The operations of the elementwise unit (Table 7.6). -/
inductive EltOp where
  | add | sub | mul | fma | min | max | abs | neg | compare | select
  | recip | sqrt | rsqrt | exp | log | tanh | sigmoid
  | iadd | isub | imul | ishl | ishr | iand | ior | ixor
  | vsum | vmax | vmin
  deriving DecidableEq, Repr

/-- An elementwise operation of a Lens core for a stage program, named by its partition, model and tier: operand tensors by place and
format code, their element count, and the format and place of the result. -/
structure EltCmd where
  core : Fin 256
  partition : Nat := 0
  context : Fin 256
  model : Fin 15 := 0
  tier : Fin 3 := 0
  learning : Bool := false
  op : EltOp
  count : Nat
  a : Place
  aFmt : Fin 17
  b : Place
  bFmt : Fin 17
  c : Place
  cFmt : Fin 17
  out : Place
  outFmt : Fin 17
  cmdId : Word32
  deriving DecidableEq, Repr

/-- The three kinds of slack request (R417). -/
inductive SlackKind where
  | reissue | reevaluate | widen
  deriving DecidableEq, Repr

/-- A slack request: the partition (or sample slot of a re-evaluation) concerned and the remaining work of its pass in ns,
taken at the durations measured for the pass so far (R417). -/
structure SlackReq where
  kind : SlackKind
  subject : Nat
  remainingNs : Nat
  deriving DecidableEq, Repr

/-- Which gap a step concerns (R423): `DECIM_TICKS`, or a model's `GAP_TICKS`. -/
inductive Gap where
  | decim
  | model (m : Fin 15)
  deriving DecidableEq, Repr

/-- The busy cycles that an entry of `TKP_ENERGY` (a tier of a model, or its learning phase) spent on a region in a window (R414). -/
structure BusyShare where
  model : Fin 15
  entry : Fin 4
  cycles : Nat
  deriving DecidableEq, Repr

/-- What the second-stage regulators show of one region (a cluster, a Grating, the forest engines, the port and front pipeline) in
one window: its energy (FP32, µJ), and the entries that ran there (R414). -/
structure RegionEnergy where
  energyUj : Word32
  busy : List BusyShare
  deriving DecidableEq, Repr

/-- The mean span of a tier since the last recompute (R415), in ns: the sum over the windows and their number. -/
structure SpanMeasure where
  model : Fin 15
  tier : Fin 3
  spanSum : Nat
  windows : Nat
  deriving DecidableEq, Repr

/-- An engine of Table 12.2 as it issues an operation. -/
abbrev EngineId := BitVec 16

/-- A remote operation as a local engine issues it (R503): operation code, destination device, context, target, payload. -/
structure RemoteReq where
  opc : BitVec 8
  dest : BitVec 12
  context : Fin 256
  engine : EngineId
  release : Bool
  fenceAll : Bool
  len : Nat
  target : BitVec 64
  payload : List Byte
  deriving DecidableEq, Repr

/-- Why a push waits or not (Table 12.6). -/
structure PushReq where
  queue : Fin 4096
  engine : EngineId
  entry : List Byte
  soi : Bool
  eoi : Bool
  blocking : Bool
  deriving DecidableEq, Repr

/-- What a memory shows on one access (R477, R478, R482): a single error the code corrected, an uncorrectable error, a DRAM
read that succeeded after `n` CRC retries, a DRAM read whose retries were exhausted. -/
inductive MemKind where
  | corrected
  | uncorrectable
  | retried (n : Nat)
  | exhausted
  deriving DecidableEq, Repr

/-- An error on an access to the memory byte at an address (local address space, or a core memory's own addresses). -/
structure MemEvent where
  addr : Nat
  kind : MemKind
  deriving DecidableEq, Repr

/-- An error found by a scrub of control words: the control address and whether the code corrected it. -/
structure EccError where
  addr : Nat
  corrected : Bool
  deriving DecidableEq, Repr

/-- What the outside shows a start-up (R633): the ID straps, the channels that fail training, the channels that fail the wipe,
the sub-ports whose partner trains, and the ms the rows took from 12 V good to the first boundary. -/
structure StartEnv where
  straps : BitVec 3
  failTraining : List (Fin 512)
  failWipe : List (Fin 512)
  trained : List (Fin 8)
  startMs : Nat
  deriving DecidableEq, Repr

/-- The life-record measurements of a day (Table 14.9): entry kind 0x20 to 0x2E and the entry's source and body. -/
structure DailyMeasure where
  kind : BitVec 8
  source : BitVec 16
  body : List Byte
  deriving DecidableEq, Repr

/-- The rails and PLLs an event names (R620 to R622, R626). -/
inductive Pll where
  | domain (d : Fin 18)
  deriving DecidableEq, Repr

/-- The commands, one constructor per row of the table, in the table's order. -/
inductive Instr where
  -- port (02_port_and_frames.md)
  | receiveFrame (sp : Fin 8) (bytes : List Byte) (uncorrectable corrected : Nat)
  | pauseFrameReceive
  | pauseWindowEnd
  | pauseRepeat
  | txFcDisable (value : Word)
  | ptpDelayReqSend
  | portLaneFail (lane : Fin 8)
  | trainingViolation (lane : Fin 8)
  | subportModeWrite (n : Fin 8) (value : Word)
  | packetRelease (id : Nat)
  | packetTransmit (sp : Fin 8)
  | recordFrameTransmit
  -- Prism (03_prism_parse_graph.md)
  | parsePassEnter
  | parsePassEnd
  | searchResult (bad : List Nat)
  | recircWithdrawn
  -- rule memory (04_rule_memory.md)
  | ruleScrub (bad : List Nat)
  | parityRewrite (position : Nat)
  | ruleStage (payload : List Byte)
  | copySweepEnd
  | ruleCommit (payload : List Byte)
  | ruleAbort (payload : List Byte)
  | sweepEnd (slot : Fin 4)
  -- flows (05_flows_and_features.md)
  | bucketReadReturn (bad : List MemEvent)
  | ageingSweepVisit (table : Option (Fin 8)) (bucket : Nat)
  -- ticks and planner (01, 11)
  | tickBoundary (env : BoundaryEnv)
  | tickSyncEdge (env : BoundaryEnv)
  | syncLost
  | tickBlock (link : Fin 4) (ops : List Byte)
  | tickPeriodWrite (value : Word)
  | tierResultWritten (slot : Nat) (tier : Fin 3) (raw : List Word32)
  | admissionGroupTimeout
  | plannedEnd
  | admissionGroupDecide
  | learningAdmit (phases : List (Fin 15))
  | slackRequest (reqs : List SlackReq)
  | decimHalve (gap : Gap)
  | energyRecalibrate (telemetry : List RegionEnergy)
  | capRecompute (spans : List SpanMeasure)
  | softStep (temps : List TempReading)
  | budgetWrite (value : Word)
  | throttleEnter (temps : List TempReading)
  -- Lens cores (06 to 08)
  | tileIssue (t : Tile) (bad : List MemEvent)
  | tileDone (partition facet : Nat) (upsets : List Upset) (cycles : FacetCycles)
  | outputSwap (partition : Nat)
  | gratingTileIssue (t : Tile) (bad : List MemEvent)
  | gratingTileDone (grating : Fin 16) (upsets : List Upset) (cycles : FacetCycles)
  | moverOp (op : MoverOp)
  | moverComplete (cluster : Fin 16) (bad : List MemEvent)
  | elementwiseOp (op : EltCmd) (bad : List MemEvent)
  -- forest engines (09)
  | forestSampleEnter (model : Fin 15) (bad : List MemEvent) (stallCycles : Nat)
  | forestResult (model : Fin 15)
  | forestScrub (errors : List EccError)
  | forestWordRewrite (addr : Nat)
  | shadowLoadDone (model : Fin 15)
  -- sequences and learning (10)
  | stateReadEnd (slot : Nat) (bad : List MemEvent)
  | commitRequest (model : Fin 15) (request : Word)
  | stateSweepEnd (model : Fin 15)
  | modelStageOpen (payload : List Byte)
  | modelStageData (payload : List Byte)
  | modelStageClose (payload : List Byte)
  | modelStageLoadDone
  | modelStageAbort (payload : List Byte)
  | modelSwap (payload : List Byte)
  -- `states` and `masters` are the step's writes of optimiser state and of master copies, held back until it completes (R333, R395)
  | learningStepBegin (model : Fin 15)
  | learningStepEnd (model : Fin 15) (states masters : List (Nat × List Byte))
  | learningStepTimeout (model : Fin 15)
  -- synchronisation and queues (12)
  | counterSignal (context : Fin 256) (v : BitVec 16) (n : BitVec 16) (engine : EngineId)
  | counterWait (context : Fin 256) (v : BitVec 16) (n : BitVec 16) (engine : EngineId)
  | tryTake (context : Fin 256) (v : BitVec 16) (n : BitVec 16) (engine : EngineId)
  | counterRead (context : Fin 256) (v : BitVec 16) (engine : EngineId)
  | pinSet (context : Fin 256) (core : Fin 256) (pin : Fin 48) (engine : EngineId)
  | pinClear (context : Fin 256) (core : Fin 256) (pin : Fin 48) (engine : EngineId)
  | pinWait (context : Fin 256) (core : Fin 256) (pin : Fin 48) (engine : EngineId)
  | pinTest (context : Fin 256) (core : Fin 256) (pin : Fin 48) (engine : EngineId)
  | arrive (network : Fin 16) (engine : EngineId)
  | boardBarrierHigh
  | watchdogFire (context : Fin 256)
  | restart (context : Fin 256) (value : Word)
  | counterValueWrite (context : Fin 256) (v : BitVec 16) (value : Word)
  | queuePush (push : PushReq)
  | queueRead (queue : Fin 4096) (engine : EngineId)
  | queueTimeout (queue : Fin 4096)
  | clearNotice (queue : Fin 4096)
  | flush (queue : Fin 4096)
  | packetBoundaryFlush (queue : Fin 4096)
  | flushForced (queue : Fin 4096)
  -- memory and fabric (13)
  | remoteRequestIssue (req : RemoteReq)
  | load (bad : List MemEvent)
  | store
  | atomicAdd (bad : List MemEvent)
  | atomicCas (bad : List MemEvent)
  | atomicMax (bad : List MemEvent)
  | remoteSignal
  | writeCommit (src : BitVec 12) (hall : Bool) (pseq : BitVec 16) (bad : List MemEvent)
  | loadRsp
  | ack
  | atomicRsp
  | nack
  | remoteTimeout (dest : BitVec 12) (hall : Bool) (pseq : BitVec 16)
  | mirrorBlockReceive (link : Fin 4) (block : List Byte) (codewordBad : Bool)
  | replayRequest (link : Fin 4) (seq : BitVec 24)
  | replayTimeout (link : Fin 4)
  | idBlock (link : Fin 4) (device : BitVec 12) (peerLink : Fin 4) (roundTripNs : Nat)
  | peerSilent (link : Fin 4)
  | mirrorLaneFail (link : Fin 4) (lane : Fin 4)
  | hallFrameReceive
  | hallRetransmit (dest : BitVec 12) (frameSeq : Word32)
  | patrolScrub (errors : List MemEvent)
  | refreshDouble (tier : Fin 4) (temps : List TempReading)
  -- Loupe (14)
  | epoch
  | sampleCapture
  | watchFire (watch : Fin 64)
  | regionStop (region : Fin 28) (gated : Bool)
  | regionResumed (region : Fin 28)
  | ppsInEdge
  | holdover
  | timeSet (value : Word)
  | healthEntry (event : BitVec 8) (object : Word32)
  | lifeBatchClose
  | standingCopyWriteDone
  | exportFrameSend (stream : Fin 2)
  | tracePull (payload : List Byte)
  | counterPull (payload : List Byte)
  | stepMode (payload : List Byte)
  | stepCommand (payload : List Byte)
  -- `ended`, `blocked` and `lastCmd` are of the stepped programs' commands that no other command of this list shows (log entry 47)
  | stepDone (context : Fin 256) (ended blocked : Nat) (lastCmd : Option Word32) (done : Bool)
  -- configuration and control (15)
  | controlRequestReceive
  | read (addr : Nat)
  | write (addr : Nat) (value : Word)
  | readBlock (addr : Nat) (n : Nat)
  | writeBlock (addr : Nat) (values : List Word)
  | registerWrite (addr : Nat) (value : Word)
  | journalPull (payload : List Byte)
  | reset (payload : List Byte)
  | slotWinWrite (offset : Nat) (value : Word)
  | slotErase (slot : Fin 2)
  | slotVerify (slot : Fin 2)
  | slotOpDone
  | preferWrite (value : Word)
  | tokenRefill
  | summary
  | journalBatchClose
  -- security and life cycle (16)
  | quote (nonce : List Byte)
  | fetch (offset : Nat) (quoteSeq : Word)
  | cert (item : BitVec 16)
  | challenge
  | transition (target : Byte) (auth : Byte) (token : List Byte)
  | rekey (keys : Byte) (auth : Byte) (token : List Byte)
  | challengeLapse
  | endorseWrite (values : List Word)
  -- supply, clocks, reset, package (17)
  | startUp (env : StartEnv)
  | vinChange (millivolts : Int)
  | powerFail
  | powerLimit (limiting : Bool) (stretched : Nat)
  | phaseShed (rail : Nat)
  | computeSupplyFault
  | dramRailFault (tier : Fin 4)
  | thermalShutdown (temps : List TempReading)
  | pllUnlock (domain : Fin 18)
  | pllRelock (domain : Fin 18)
  | droop (region : Fin 28) (cycles : Nat)
  | resetNAssert
  | resetNRelease
  | ppsOutPulse
  | clkOutWrite (value : Word)
  | extest (cells : BitVec 8)
  | idcode
  | samplePreload (cells : BitVec 8)
  | clamp
  | highz
  | bypass (code : Byte)
  | stageRead
  | nvmRead (region : BitVec 2) (offset : BitVec 27)
  | nvmProgram (region : BitVec 2) (offset : BitVec 27) (data : Word)
  | nvmErase (region : BitVec 2) (offset : BitVec 27)
  | trstNAssert
  -- rows added at the table's end
  | pauseQuantaExpiry (sp : Fin 8) (cls : Fin 8)
  | pauseCeilingReached (sp : Fin 8) (cls : Fin 8)
  | subportLinkUp (sp : Fin 8)
  | subportGoesDown (sp : Fin 8)
  | mirrorRetrainAttempt (link : Fin 4) (trained : Bool)
  | dramRailReturn (tier : Fin 4)
  | watchReadEnd (watch : Fin 64)
  | nvmAccessDone
  | dailyLifeEntries (measures : List DailyMeasure)
  | retentionScan (margins : List (Fin 512 × Word32))
  deriving DecidableEq, Repr

end Sys2Proof
end

