-- ==== Sys2Proof/Decode.lean ====
section
/-! DEFINITION. The table gives its rows no bits (every row's `fields` is empty): a command reaches the block as an event or a
request, never as a word, and no word spells one (log entry 26, DESIGN CHOICE). -/

namespace Sys2Proof

/-- The command that a word spells by the table's bits: none. -/
def decodeTableWord (_nbits _w : Nat) : Option Instr := none

end Sys2Proof
end

