-- ==== Sys2Proof/Machine/Bits.lean ====
section
/-! DEFINITION. Bit fields, byte orders and wrap-round comparison: the plain helpers every other file of the machine uses. -/

namespace Sys2Proof.Machine

/-- The `w` bits of `n` that start at bit `lo` (bit 0 is the least significant, chapter 0, Notation). -/
def bitsOf (n lo w : Nat) : Nat := (n >>> lo) % 2 ^ w

/-- `n` with the `w` bits at `lo` replaced by the low `w` bits of `v`. -/
def setBits (n lo w v : Nat) : Nat :=
  n % 2 ^ lo + (v % 2 ^ w) * 2 ^ lo + (n / 2 ^ (lo + w)) * 2 ^ (lo + w)

/-- The number a little-endian byte string spells (R3). -/
def leNat : List Byte → Nat
  | [] => 0
  | b :: bs => b.toNat + 256 * leNat bs

/-- The number a most-significant-first byte string spells (R2). -/
def beNat (bs : List Byte) : Nat := bs.foldl (fun n b => 256 * n + b.toNat) 0

/-- `k` bytes of `n`, least significant first (R3). -/
def leBytes : Nat → Nat → List Byte
  | 0, _ => []
  | k + 1, n => BitVec.ofNat 8 n :: leBytes k (n / 256)

/-- `k` bytes of `n`, most significant first (R2). -/
def beBytes (k n : Nat) : List Byte := (leBytes k n).reverse

/-- `n` zero bytes. -/
def zeros (n : Nat) : List Byte := List.replicate n 0

/-- `bs` cut or filled with zeros to `n` bytes. -/
def padTo (n : Nat) (bs : List Byte) : List Byte := bs.take n ++ zeros (n - bs.length)

/-- `len` bytes of `bs` from `off`; bytes past the end are not given. -/
def sub (bs : List Byte) (off len : Nat) : List Byte := (bs.drop off).take len

/-- Byte `i` of `bs`, 0 past its end. -/
def byteAt (bs : List Byte) (i : Nat) : Byte := bs.getD i 0

/-- The most-significant-first number in `len` bytes of `bs` from `off`, bytes past the end read as 0. -/
def beAt (bs : List Byte) (off len : Nat) : Nat := beNat (padTo len (sub bs off len))

/-- The least-significant-first number in `len` bytes of `bs` from `off`, bytes past the end read as 0. -/
def leAt (bs : List Byte) (off len : Nat) : Nat := leNat (sub bs off len)

/-- `bs` with the bytes from `off` replaced by `new`. -/
def overlay (bs : List Byte) (off : Nat) (new : List Byte) : List Byte :=
  bs.take off ++ new ++ bs.drop (off + new.length)

/-- `a` stands before `b` in wrap-round order over `w` bits: the difference `b - a` lies in the lower half and is not 0. -/
def beforeMod (w a b : Nat) : Bool :=
  let d := (b + 2 ^ w - a % 2 ^ w) % 2 ^ w
  d != 0 && d < 2 ^ (w - 1)

/-- A Boolean as the bit 0 or 1. -/
def b2n (b : Bool) : Nat := if b then 1 else 0

/-- The two's complement value of the low `w` bits of `n`. -/
def toSigned (w n : Nat) : Int :=
  let m := n % 2 ^ w
  if m < 2 ^ (w - 1) then (m : Int) else (m : Int) - (2 ^ w : Nat)

/-- The low `w` bits of an integer in two's complement. -/
def ofSigned (w : Nat) (i : Int) : Nat := (i % ((2 ^ w : Nat) : Int)).toNat

/-- The number of 1 bits among the low `k` bits of `n`. -/
def popCount : Nat → Nat → Nat
  | 0, _ => 0
  | k + 1, n => n % 2 + popCount k (n / 2)

/-- The position of the lowest 1 bit among `k` bits of `n`, counted from `i`. -/
def lowestOne : Nat → Nat → Nat → Option Nat
  | 0, _, _ => none
  | k + 1, n, i => if n % 2 = 1 then some i else lowestOne k (n / 2) (i + 1)

/-- The whole part of the base-2 logarithm, 0 for 0. -/
def log2 (n : Nat) : Nat := Nat.log2 n

/-- Ceiling division. -/
def cdiv (a b : Nat) : Nat := (a + b - 1) / b

/-- The list with element `i` replaced by `f` of it. -/
def modifyNth {α : Type} (i : Nat) (f : α → α) : List α → List α
  | [] => []
  | x :: xs => match i with
    | 0 => f x :: xs
    | j + 1 => x :: modifyNth j f xs

/-- The numbers `from`, `from+1`, …, `k` of them. -/
def range (start k : Nat) : List Nat := (List.range k).map (start + ·)

/-- Whether a value lies in a range. -/
def within (lo hi n : Nat) : Bool := decide (lo ≤ n ∧ n ≤ hi)

/-- The first element that satisfies `p`, with the list without it. -/
def takeFirst {α : Type} (p : α → Bool) : List α → Option (α × List α)
  | [] => none
  | x :: xs => if p x then some (x, xs) else (takeFirst p xs).map fun r => (r.1, x :: r.2)

end Sys2Proof.Machine
end

