-- ==== Sys2Proof/Machine/Crc.lean ====
section
/-! DEFINITION. The check codes and the digest the spec names: the frame check sequence (CRC-32, IEEE 802.3), CRC-32C
(Castagnoli) and SHAKE256 (FIPS 202). -/

namespace Sys2Proof.Machine

/-- One bit of a reflected CRC with polynomial `p`. -/
def crcBit (p c : BitVec 32) : BitVec 32 := if c.getLsbD 0 then (c >>> 1) ^^^ p else c >>> 1

/-- One byte of a reflected CRC. -/
def crcByte (p c : BitVec 32) (b : Byte) : BitVec 32 :=
  let x := c ^^^ b.setWidth 32
  crcBit p (crcBit p (crcBit p (crcBit p (crcBit p (crcBit p (crcBit p (crcBit p x)))))))

/-- A reflected CRC with all-ones start and inversion at the end. -/
def crcOf (p : BitVec 32) (bs : List Byte) : BitVec 32 := ~~~(bs.foldl (crcByte p) 0xFFFFFFFF#32)

/-- CRC-32 of IEEE 802.3, the frame check sequence. -/
def crc32 (bs : List Byte) : BitVec 32 := crcOf 0xEDB88320#32 bs

/-- CRC-32C (Castagnoli). -/
def crc32c (bs : List Byte) : BitVec 32 := crcOf 0x82F63B78#32 bs

/-- The frame check sequence bytes in the order they stand on the wire. -/
def fcsBytes (bs : List Byte) : List Byte := leBytes 4 (crc32 bs).toNat

/-- The round constants of Keccak-f[1600]. -/
def keccakRC : List (BitVec 64) :=
  [0x0000000000000001#64, 0x0000000000008082#64, 0x800000000000808A#64, 0x8000000080008000#64,
   0x000000000000808B#64, 0x0000000080000001#64, 0x8000000080008081#64, 0x8000000000008009#64,
   0x000000000000008A#64, 0x0000000000000088#64, 0x0000000080008009#64, 0x000000008000000A#64] ++
  [0x000000008000808B#64, 0x800000000000008B#64, 0x8000000000008089#64, 0x8000000000008003#64,
   0x8000000000008002#64, 0x8000000000000080#64, 0x000000000000800A#64, 0x800000008000000A#64,
   0x8000000080008081#64, 0x8000000000008080#64, 0x0000000080000001#64, 0x8000000080008008#64]

/-- The rotations of the ρ step, lane x + 5y. -/
def keccakRot : List Nat :=
  [0, 1, 62, 28, 27, 36, 44, 6, 55, 20, 3, 10, 43, 25, 39, 41, 45, 15, 21, 8, 18, 2, 61, 56, 14]

/-- One round of Keccak-f[1600] on 25 lanes. -/
def keccakRound (a : List (BitVec 64)) (rc : BitVec 64) : List (BitVec 64) :=
  let l (i : Nat) : BitVec 64 := a.getD i 0
  let c := (List.range 5).map fun x => l x ^^^ l (x + 5) ^^^ l (x + 10) ^^^ l (x + 15) ^^^ l (x + 20)
  let d := (List.range 5).map fun x => c.getD ((x + 4) % 5) 0 ^^^ (c.getD ((x + 1) % 5) 0).rotateLeft 1
  let e := (List.range 25).map fun i => (l i ^^^ d.getD (i % 5) 0).rotateLeft (keccakRot.getD i 0)
  -- π: lane (y, 2x + 3y) takes lane (x, y)
  let b := (List.range 25).map fun i =>
    let x' := i % 5
    let y' := i / 5
    -- inverse of π: x = x' + 3y', y = x'
    e.getD ((x' + 3 * y') % 5 + 5 * x') 0
  let f := (List.range 25).map fun i =>
    let y := 5 * (i / 5)
    b.getD i 0 ^^^ (~~~(b.getD ((i % 5 + 1) % 5 + y) 0) &&& b.getD ((i % 5 + 2) % 5 + y) 0)
  match f with
  | [] => []
  | x :: xs => (x ^^^ rc) :: xs

/-- Keccak-f[1600]. -/
def keccakF (a : List (BitVec 64)) : List (BitVec 64) := keccakRC.foldl keccakRound a

/-- Lanes of a block. -/
def keccakLanes : Nat → List Byte → List (BitVec 64)
  | 0, _ => []
  | n + 1, bs => BitVec.ofNat 64 (leNat (bs.take 8)) :: keccakLanes n (bs.drop 8)

/-- The state with one block of 136 bytes absorbed. -/
def keccakAbsorb : Nat → List (BitVec 64) → List Byte → List (BitVec 64)
  | 0, a, _ => a
  | k + 1, a, bs =>
    keccakAbsorb k (keccakF (List.zipWith (· ^^^ ·) a (keccakLanes 17 bs ++ List.replicate 8 0))) (bs.drop 136)

/-- SHAKE256's padding to whole blocks of 136 bytes. -/
def shakePad (bs : List Byte) : List Byte :=
  let r := 136 - bs.length % 136
  if r = 1 then bs ++ [0x9F#8] else bs ++ [0x1F#8] ++ zeros (r - 2) ++ [0x80#8]

/-- The first 32 bytes of SHAKE256, the digest of every measurement (Table 0.1). -/
def shake256 (bs : List Byte) : List Byte :=
  let p := shakePad bs
  let a := keccakAbsorb (p.length / 136) (List.replicate 25 0) p
  (a.take 4).flatMap fun w => leBytes 8 w.toNat

end Sys2Proof.Machine
end

