-- ==== Sys2Proof/Config.lean ====
section
/-! DEFINITION. What one implementation fixes, and the free values: constants without a body, so that nothing in Lean
can evaluate them. A statement about a free value holds whatever it is. Each is named in notes/assumptions. -/

namespace Sys2Proof.Config

/-- The fused silicon stepping (Table 16.17); the spec gives no number. Log entry 9 (DESIGN CHOICE). -/
opaque stepping : BitVec 8

/-- The bank of a DRAM channel that holds an address (R477); the spec gives none (log entry 52). -/
opaque bankOf : Nat → Nat → BitVec 5

/-- The fused serial number `DEV_SERIAL` (Table 16.17). Log entry 9 (DESIGN CHOICE). -/
opaque serial : Word

/-- The 32-byte device secret of R589; no path reads it. Log entry 10 (DESIGN CHOICE). -/
opaque deviceSecret : BitVec 256

/-- The label that names a device key (R589): the spec gives no bytes. Log entry 10 (DESIGN CHOICE). -/
opaque keyLabel : Nat → List Byte

/-- The digest of the vendor root key that the boot ROM holds (R597). Log entry 10 (DESIGN CHOICE). -/
opaque romRootDigest : List Byte

/-- A fresh challenge (R605): 32 bytes chosen by the device, free; the argument is the count of free values drawn. Log entry 10 (DESIGN CHOICE). -/
opaque challenge : Nat → List Byte

/-- The signature of a device key over a digest: key number (0 identity, 1 attestation, 2 journal), the key's secret (R589), signature index,
digest (R590). Log entry 10 (DESIGN CHOICE). -/
opaque signature : Nat → List Byte → Nat → List Byte → List Byte

/-- The root of a device key's public key: key number, the key's secret (R590). Log entry 10 (DESIGN CHOICE). -/
opaque keyRoot : Nat → List Byte → List Byte

/-- The public seed of a device key: key number, the key's secret (R590). Log entry 10 (DESIGN CHOICE). -/
opaque keySeed : Nat → List Byte → List Byte

/-- The frame bytes (without FCS) of the device's next `Delay_Req` (R63); IEEE 1588 and the servo's own counters decide
them, the spec does not give them. Log entry 11 (DESIGN CHOICE). -/
opaque delayReq : Nat → List Byte

/-- An FP32 result where no exact real result exists and the spec states none (a pole, the logarithm of a value that is not
positive, an infinite operand): operation code, operand, and the count of free values drawn. Log entry 12 (DESIGN CHOICE). -/
opaque fpFree : Nat → Word32 → Nat → Word32

/-- Whether an element-wise `compare` of two operands, neither a NaN, holds: Table 7.6 names no relation. Log entry 14 (DESIGN CHOICE). -/
opaque compareHolds : Word32 → Word32 → Bool

/-- The FP32 value of a compare's outcome, for which Table 7.6 gives no representation. Log entry 14 (DESIGN CHOICE). -/
opaque truth : Bool → Word32

/-- Whether the first operand of an element-wise `select` chooses the second; the spec names no condition. Log entry 14 (DESIGN CHOICE). -/
opaque selects : Word32 → Bool

/-- A choice among the results the spec allows: within one unit in the last place (Table 7.6), or the place of the next
term in a sum whose order R297 and R351 leave open. The argument is the count of free values drawn. Log entry 12 (DESIGN CHOICE). -/
opaque pick : Nat → Nat

/-- Bytes of which the spec states no content: the stage graph's own data, the seed of a generated key. Log entry 13 (DESIGN CHOICE). -/
opaque freeByte : Nat → Byte

/-- `LAYER_ID` (low 16 bits) and `OPERATOR_ID` (high 16 bits) that the stage program of a model gives a command (R521). Log
entry 13 (DESIGN CHOICE). -/
opaque cmdLabel : Nat → Word32 → Word32

/-- The `CMD_ID` of a command that a model's stage program gives an engine of classes 2, 4, 5, 6 (R521). Log entry 13 (DESIGN CHOICE). -/
opaque cmdOf : Nat → Nat → Word32

/-- The FP32 scale of a weight tensor's wide copy, by its address `WIDE_ADDR` (R325): the spec gives it a scale of its own and no
place for it. Log entry 13 (DESIGN CHOICE). -/
opaque wideScale : Nat → Word32

/-- The integer that a code of a float format enters the INT16 row of Table 6.2 as: format, code. R217 has that row apply and states no
conversion. Log entry 65 (DESIGN CHOICE). -/
opaque intEntry : Nat → Nat → BitVec 16

/-- Whether a staged section's stage graph has the shape of the current generation's (Table 10.6 check 4). Log entry 13 (DESIGN CHOICE). -/
opaque stageGraphSameShape : Nat → List Byte → Bool

/-- What a model section's stage graph holds, by its body (log entry 13, DESIGN CHOICE). The forest shape: stages E and replicas R (R340). -/
opaque sectionForestShape : List Byte → Nat × Nat

/-- The forest words of a stage, by the control address they have in engine 0 (R339). -/
opaque sectionForest : List Byte → Nat → List (Nat × Word)

/-- The feature map, by feature number (R344). -/
opaque sectionFeatures : List Byte → List (Nat × Word)

/-- The 256-byte output block of a tier (R356). -/
opaque sectionOutput : List Byte → Nat → List Byte

/-- The initial state h₀ (R373). -/
opaque sectionInitial : List Byte → List Byte

/-- Dense weights, descriptors and quantisation blocks, by local address (R388). -/
opaque sectionMemory : List Byte → List (Nat × List Byte)

/-- Rescale registers, by control address (R337). -/
opaque sectionRescale : List Byte → List (Nat × Word)

/-- Trainable tensors: descriptor, weights, master copy, elements, optimiser state and its bytes; as a seventh number, where the section has
them, its master weights, as an eighth its optimiser state. -/
opaque sectionTrainable : List Byte → List (List Nat)

/-- The label table of target kind 0 (Table 10.9). -/
opaque sectionLabels : List Byte → List Nat

/-- Where the firmware places the dense and bit-serial stage programs of a model on the units left (R22): rows of kind, partition
or Grating, context, tier, learning, then the units; the second argument lists the units that are fenced or taken. -/
opaque sectionPlacement : List Byte → List Nat → List (List Nat)

/-- The other resources that the firmware binds to a stage program of a model, by its place among the rows of `sectionPlacement`
(Table 1.3): kind, first byte or number, how many. Kind 1, in cluster memory, is what R426 moves with a Grating stage. -/
opaque sectionBindings : List Byte → Nat → List (Nat × Nat × Nat)

/-- Which of a model's tiers are placed on another device (bit 0 T1, bit 1 T2), and whether every carrier is a T2 candidate (bit
2), as its section says. -/
opaque sectionRemote : List Byte → BitVec 3

/-- The local addresses of a section's tensor descriptors (R307). -/
opaque sectionDescriptors : List Byte → List Nat

/-- A section's dense operations: the address of the quantisation block, K, N, and whether it runs on a Grating (R309, R310). -/
opaque sectionBlocks : List Byte → List (Nat × Nat × Nat × Bool)

/-- The descriptor of a section's state tensor, if its T2 tier has one (R372). -/
opaque sectionStateTensor : List Byte → Option Nat

/-- The operation bytes of an ID block with a device's ID and a link number (R489): their layout is open. -/
opaque idBytes : Nat → Nat → List Byte

/-- What the power controller measures: the input power in W and the intermediate rail in mV, at a time-base value (Table 17.14). -/
opaque measured : Nat → BitVec 16 × BitVec 16

/-- The context of a model's forest stages. -/
opaque sectionContext : List Byte → BitVec 8

/-- The state-ready counter of a model's sequence tier (R376), a virtual counter of its context. -/
opaque stateReadyCtr : Nat → BitVec 16

/-- The window counter of a context (R447), a virtual counter of it. -/
opaque windowCtr : Nat → BitVec 16

/-- The input row of a carrier in a slot, for a model's sequence tier: local address and bytes (Table 10.8). -/
opaque tokenRow : Nat → Nat → Nat × Nat

end Sys2Proof.Config
end

