-- ==== Sys2Proof/Machine/Float.lean ====
section
/-! DEFINITION. The 17 number formats, their conversions and the FP32 and INT32 arithmetic (chapter 7). A code is a natural
number of the format's bits; a value is exact: a signed fraction, an infinity or a NaN. -/

namespace Sys2Proof.Machine

/-- An exact value: ± num / den (den > 0, a zero keeps its sign), an infinity, a NaN with its sign. -/
inductive Num where
  | fin (neg : Bool) (num den : Nat)
  | inf (neg : Bool)
  | nan (neg : Bool)
  deriving DecidableEq, Repr

/-- `x · 2^e` as a numerator and a denominator. -/
def scale2 (x : Nat) (e : Int) : Nat × Nat :=
  if 0 ≤ e then (x * 2 ^ e.toNat, 1) else (x, 2 ^ (-e).toNat)

/-- An integer as an exact value. -/
def Num.ofInt (i : Int) : Num := .fin (decide (i < 0)) i.natAbs 1

/-- ± x · 2^e. -/
def Num.dyadic (neg : Bool) (x : Nat) (e : Int) : Num := let p := scale2 x e; .fin neg p.1 p.2

/-- A float format's parameters (Table 7.3): exponent bits, mantissa bits, bias, largest finite code, whether the code above
it is an infinity. -/
structure FloatFmt where
  ebits : Nat
  mbits : Nat
  bias : Nat
  maxCode : Nat
  hasInf : Bool
  deriving DecidableEq, Repr

/-- E4M3 (R278). -/
def fE4M3 : FloatFmt := ⟨4, 3, 7, 0x7E, false⟩
/-- E5M2 (R278). -/
def fE5M2 : FloatFmt := ⟨5, 2, 15, 0x7B, true⟩
/-- FP16 (R278). -/
def fFP16 : FloatFmt := ⟨5, 10, 15, 0x7BFF, true⟩
/-- BF16 (R278). -/
def fBF16 : FloatFmt := ⟨8, 7, 127, 0x7F7F, true⟩
/-- FP32 (R278). -/
def fFP32 : FloatFmt := ⟨8, 23, 127, 0x7F7FFFFF, true⟩

/-- Bits of a code. -/
def FloatFmt.bits (f : FloatFmt) : Nat := 1 + f.ebits + f.mbits

/-- The sign bit's weight. -/
def FloatFmt.signW (f : FloatFmt) : Nat := 2 ^ (f.ebits + f.mbits)

/-- The positive canonical NaN (R280). -/
def FloatFmt.qnan (f : FloatFmt) : Nat :=
  if f.hasInf then (2 ^ f.ebits - 1) * 2 ^ f.mbits + 2 ^ (f.mbits - 1) else 0x7F

/-- The value of a magnitude code, taken as if the exponent had no upper bound (R281). -/
def FloatFmt.magnitude (f : FloatFmt) (neg : Bool) (c : Nat) : Num :=
  let e := c / 2 ^ f.mbits
  let m := c % 2 ^ f.mbits
  if e = 0 then .dyadic neg m (1 - (f.bias : Int) - f.mbits)
  else .dyadic neg (2 ^ f.mbits + m) ((e : Int) - f.bias - f.mbits)

/-- The value of a code (R278, R279). -/
def FloatFmt.decode (f : FloatFmt) (code : Nat) : Num :=
  let neg := code / f.signW % 2 = 1
  let c := code % f.signW
  if c ≤ f.maxCode then f.magnitude neg c
  else if f.hasInf && c = f.maxCode + 1 then .inf neg
  else .nan neg

/-- The whole part of log2 (num / den), for num > 0. -/
def floorLog2 (num den : Nat) : Int :=
  let l : Int := (Nat.log2 num : Int) - Nat.log2 den
  let p := scale2 den l
  if num * p.2 < p.1 then l - 1 else l

/-- num / den rounded to the nearest whole number, a half going up (R281: the larger magnitude). -/
def roundHalfUp (num den : Nat) : Nat := (2 * num + den) / (2 * den)

/-- The exponent of the quantum of FP format `f` at num / den. -/
def FloatFmt.quantumExp (f : FloatFmt) (num den : Nat) : Int :=
  max (floorLog2 num den) (1 - (f.bias : Int)) - f.mbits

/-- The magnitude code nearest to num / den, ties to the larger magnitude, as if the exponent had no upper bound (R281). -/
def FloatFmt.roundMag (f : FloatFmt) (num den : Nat) : Nat :=
  if num = 0 then 0
  else
    let q := f.quantumExp num den
    let p := scale2 den q
    let m := roundHalfUp (num * p.2) p.1
    (q + f.mbits - (1 - (f.bias : Int))).toNat * 2 ^ f.mbits + m

/-- Sign and magnitude code joined. -/
def FloatFmt.join (f : FloatFmt) (neg : Bool) (c : Nat) : Nat := b2n neg * f.signW + c

/-- An FP32 result (R287): the exact value rounded, an overflow an infinity, a NaN the canonical one. -/
def toFp32 : Num → Nat
  | .fin neg num den =>
    let c := fFP32.roundMag num den
    fFP32.join neg (if fFP32.maxCode < c then fFP32.maxCode + 1 else c)
  | .inf neg => fFP32.join neg (fFP32.maxCode + 1)
  | .nan _ => fFP32.qnan

/-- The value of an FP32 code. -/
def fp32 (c : Nat) : Num := fFP32.decode c

/-- Whether an FP32 code is a NaN. -/
def fpIsNan (c : Nat) : Bool := match fp32 c with | .nan _ => true | _ => false

/-- Whether an FP32 code is finite. -/
def fpIsFinite (c : Nat) : Bool := match fp32 c with | .fin .. => true | _ => false

/-- The exact product, with IEEE 754 specials (R287). -/
def Num.mul : Num → Num → Num
  | .nan _, _ => .nan false
  | _, .nan _ => .nan false
  | .fin a n d, .fin b m e => .fin (a != b) (n * m) (d * e)
  | .inf a, .inf b => .inf (a != b)
  | .inf a, .fin b n _ => if n = 0 then .nan false else .inf (a != b)
  | .fin a n _, .inf b => if n = 0 then .nan false else .inf (a != b)

/-- The signed numerator of a finite value. -/
def signedOf (neg : Bool) (n : Nat) : Int := if neg then -(n : Int) else n

/-- The exact sum; a zero sum is +0 unless both operands are −0 (R287). -/
def Num.add : Num → Num → Num
  | .nan _, _ => .nan false
  | _, .nan _ => .nan false
  | .inf a, .inf b => if a = b then .inf a else .nan false
  | .inf a, .fin .. => .inf a
  | .fin .., .inf b => .inf b
  | .fin a n d, .fin b m e =>
    let s := signedOf a (n * e) + signedOf b (m * d)
    if s = 0 then .fin (a && b && n == 0 && m == 0) 0 1
    else .fin (decide (s < 0)) s.natAbs (d * e)

/-- The value with its sign turned. -/
def Num.neg : Num → Num
  | .fin a n d => .fin (!a) n d
  | .inf a => .inf (!a)
  | .nan a => .nan (!a)

/-- The exact quotient; a division by zero has no exact result and is an infinity of the operands' sign here, which every
use guards against. -/
def Num.div : Num → Num → Num
  | .nan _, _ => .nan false
  | _, .nan _ => .nan false
  | .inf _, .inf _ => .nan false
  | .inf a, .fin b .. => .inf (a != b)
  | .fin a .., .inf b => .fin (a != b) 0 1
  | .fin a n d, .fin b m e =>
    if m = 0 then (if n = 0 then .nan false else .inf (a != b)) else .fin (a != b) (n * e) (d * m)

/-- Order of two values, NaN not less than anything. -/
def Num.lt : Num → Num → Bool
  | .nan _, _ => false
  | _, .nan _ => false
  | .inf a, .inf b => a && !b
  | .inf a, .fin .. => a
  | .fin .., .inf b => !b
  | .fin a n d, .fin b m e => decide (signedOf a (n * e) < signedOf b (m * d))

/-- Equality of two values as numbers: −0 equals +0, NaN equals nothing. -/
def Num.eqv : Num → Num → Bool
  | .inf a, .inf b => a == b
  | .fin a n d, .fin b m e => decide (signedOf a (n * e) = signedOf b (m * d))
  | _, _ => false

/-- FP32 addition (R287). -/
def fpAdd (a b : Nat) : Nat := toFp32 ((fp32 a).add (fp32 b))
/-- FP32 subtraction (R287). -/
def fpSub (a b : Nat) : Nat := toFp32 ((fp32 a).add (fp32 b).neg)
/-- FP32 multiplication (R287). -/
def fpMul (a b : Nat) : Nat := toFp32 ((fp32 a).mul (fp32 b))
/-- FP32 fused multiply-add: the exact result rounded once (Table 7.6). -/
def fpFma (a b c : Nat) : Nat := toFp32 (((fp32 a).mul (fp32 b)).add (fp32 c))
/-- The FP32 value of an exact quotient of two FP32 values, rounded once (R281). -/
def fpDiv (a b : Nat) : Nat := toFp32 ((fp32 a).div (fp32 b))
/-- An integer in FP32 (R284). -/
def fpOfInt (i : Int) : Nat := toFp32 (.ofInt i)
/-- A natural number in FP32 (R284). -/
def fpOfNat (n : Nat) : Nat := toFp32 (.fin false n 1)
/-- FP32 less-than; false with a NaN (Table 7.6). -/
def fpLt (a b : Nat) : Bool := (fp32 a).lt (fp32 b)
/-- FP32 equality; false with a NaN. -/
def fpEq (a b : Nat) : Bool := (fp32 a).eqv (fp32 b)
/-- FP32 at-most; false with a NaN. -/
def fpLe (a b : Nat) : Bool := fpLt a b || fpEq a b
/-- Whether the sign bit of an FP32 code is set. -/
def fpNeg? (a : Nat) : Bool := a / 2 ^ 31 % 2 = 1
/-- FP32 minimum: NaN if either operand is NaN; min(+0, −0) is −0 (Table 7.6). -/
def fpMin (a b : Nat) : Nat :=
  if fpIsNan a || fpIsNan b then fFP32.qnan
  else if fpEq a b then (if fpNeg? a then a else b) else if fpLt a b then a else b
/-- FP32 maximum: NaN if either operand is NaN; max(+0, −0) is +0 (Table 7.6). -/
def fpMax (a b : Nat) : Nat :=
  if fpIsNan a || fpIsNan b then fFP32.qnan
  else if fpEq a b then (if fpNeg? a then b else a) else if fpLt a b then b else a
/-- FP32 absolute value. -/
def fpAbs (a : Nat) : Nat := a % 2 ^ 31
/-- FP32 negation. -/
def fpNegate (a : Nat) : Nat := if fpNeg? a then a - 2 ^ 31 else a + 2 ^ 31

/-- An integer held to the INT32 range, and whether it was outside (R289). -/
def sat32 (i : Int) : Int × Bool :=
  if 2147483647 < i then (2147483647, true) else if i < -2147483648 then (-2147483648, true) else (i, false)

/-! The formats of Table 7.1, by `FMT` code. -/

/-- The storage container's bits (Table 7.1). -/
def fmtContainer : Nat → Nat
  | 0 => 1 | 1 => 2 | 2 => 2 | 3 => 4 | 4 => 4 | 5 => 4 | 6 => 8 | 7 => 8 | 8 => 16 | 9 => 4 | 10 => 4
  | 11 => 8 | 12 => 8 | 13 => 16 | 14 => 16 | _ => 32

/-- The float format of an `FMT` code. -/
def fmtFloat : Nat → Option FloatFmt
  | 11 => some fE4M3 | 12 => some fE5M2 | 13 => some fFP16 | 14 => some fBF16 | 15 => some fFP32 | _ => none

/-- Signed bits of a two's complement format (R273). -/
def fmtSigned : Nat → Option Nat
  | 2 => some 2 | 3 => some 3 | 4 => some 4 | 6 => some 8 | 8 => some 16 | 16 => some 32 | _ => none

/-- Bits of an unsigned format (R273). -/
def fmtUnsigned : Nat → Option Nat
  | 5 => some 4 | 7 => some 8 | _ => none

/-- N4 and N3 (Table 7.2). -/
def nqLevels : Nat → List Nat
  | 9 => [11, 33, 55, 80, 107, 139, 181, 256]
  | 10 => [26, 82, 148, 256]
  | _ => []

/-- The sign bit's position of an NQ code (R276). -/
def nqSign (fmt : Nat) : Nat := if fmt = 9 then 3 else 2

/-- The integer a code of an integer, BIN1, TERN2 or NQ format enters the integer path as (R274 to R277). -/
def fmtInt (fmt code : Nat) : Int :=
  match fmt with
  | 0 => if code % 2 = 1 then 1 else -1
  | 1 => match code % 4 with | 1 => 1 | 3 => -1 | _ => 0
  | _ =>
    match fmtSigned fmt, fmtUnsigned fmt with
    | some w, _ => toSigned w code
    | _, some w => (code % 2 ^ w : Nat)
    | _, _ =>
      let s := nqSign fmt
      signedOf (code.testBit s) ((nqLevels fmt).getD (code % 2 ^ s) 0)

/-- The value of a code in a format (R271 to R279). -/
def fmtValue (fmt code : Nat) : Num :=
  match fmtFloat fmt with
  | some f => f.decode (code % 2 ^ f.bits)
  | none =>
    if fmt = 9 || fmt = 10 then
      let i := fmtInt fmt code
      .fin (decide (i < 0)) i.natAbs 256
    else .ofInt (fmtInt fmt code)

/-- The result of a narrow conversion: the code, and whether the value is clipped, a squashed NaN, in the underflow share,
counted at most once (R282, R283). -/
structure Conv where
  code : Nat
  clipped : Bool := false
  squashed : Bool := false
  underflow : Bool := false
  deriving DecidableEq, Repr

/-- Conversion of a finite value to a float format (R281, R282). -/
def convFloat (f : FloatFmt) (neg : Bool) (n d : Nat) : Conv :=
  let c := f.roundMag n d
  if f.maxCode < c then
    if f = fFP32 then { code := f.join neg (f.maxCode + 1) } else { code := f.join neg f.maxCode, clipped := true }
  else { code := f.join neg c, underflow := c == 0 && n != 0 }

/-- Conversion of a finite value to a two's complement format with values `lo` to `hi` (R281, R282). -/
def convInt (w : Nat) (lo hi : Int) (neg : Bool) (n d : Nat) : Conv :=
  let i := signedOf neg (roundHalfUp n d)
  if hi < i then { code := ofSigned w hi, clipped := true }
  else if i < lo then { code := ofSigned w lo, clipped := true }
  else { code := ofSigned w i, underflow := i == 0 && n != 0 }

/-- The level index nearest to n / d · 256 among levels, ties to the larger (R281). -/
def nqNearest (n d : Nat) : Nat → List Nat → Nat
  | i, a :: b :: rest => if (a + b) * d ≤ 512 * n then nqNearest n d (i + 1) (b :: rest) else i
  | i, _ => i

/-- Conversion of a finite value to NQ4 or NQ3 (R281 to R283). -/
def convNq (fmt : Nat) (neg : Bool) (n d : Nat) : Conv :=
  let ls := nqLevels fmt
  let top := ls.length - 1
  let edge := 3 * ls.getD top 0 - ls.getD (top - 1) 0
  let s := if neg && n != 0 then 2 ^ nqSign fmt else 0
  if edge * d ≤ 512 * n then { code := s + top, clipped := true } else { code := s + nqNearest n d 0 ls }

/-- Conversion to BIN1 (R281 to R283). -/
def convBin (neg : Bool) (n d : Nat) : Conv :=
  { code := if neg && n != 0 then 0 else 1, clipped := decide (2 * d ≤ n) }

/-- Conversion of a value to a format (R281 to R284, Table 7.5). An unsigned target takes a negative value to 0, in the
underflow share. -/
def convert (fmt : Nat) (x : Num) : Conv :=
  match fmtFloat fmt with
  | some f =>
    match x with
    | .fin neg n d => convFloat f neg n d
    | .inf neg => if f.hasInf then { code := f.join neg (f.maxCode + 1) } else { code := f.join neg f.maxCode, clipped := true }
    | .nan neg => { code := f.join neg f.qnan }
  | none =>
    match fmtSigned fmt, fmtUnsigned fmt, x with
    | _, _, .nan _ => { code := if fmt = 0 then 1 else 0, squashed := true }
    | some w, _, .fin neg n d => convInt (if w = 3 then 4 else w) (-(2 ^ (w - 1) : Nat)) ((2 ^ (w - 1) : Nat) - 1) neg n d
    | some w, _, .inf neg =>
      { code := ofSigned (if w = 3 then 4 else w) (if neg then -(2 ^ (w - 1) : Nat) else (2 ^ (w - 1) : Nat) - 1), clipped := true }
    | none, some w, .fin neg n d =>
      if neg then { code := 0, underflow := n != 0 } else convInt w 0 ((2 ^ w : Nat) - 1) false n d
    | none, some w, .inf neg => { code := if neg then 0 else 2 ^ w - 1, clipped := true }
    | none, none, .fin neg n d =>
      if fmt = 0 then convBin neg n d
      else if fmt = 1 then convInt 2 (-1) 1 neg n d
      else convNq fmt neg n d
    | none, none, .inf neg =>
      if fmt = 0 then { code := if neg then 0 else 1, clipped := true }
      else if fmt = 1 then { code := if neg then 3 else 1, clipped := true }
      else { code := (if neg then 2 ^ nqSign fmt else 0) + ((nqLevels fmt).length - 1), clipped := true }

/-- Conversion of an FP32 code to a format. -/
def convertFp (fmt code : Nat) : Conv := convert fmt (fp32 code)

/-! Elements of a packed tensor (R271, R272). -/

/-- The code of element `i` of a tensor whose bytes are `bs`. -/
def elemAt (fmt : Nat) (bs : List Byte) (i : Nat) : Nat :=
  let b := fmtContainer fmt
  if b < 8 then ((byteAt bs (i * b / 8)).toNat >>> (i * b % 8)) % 2 ^ b
  else leAt bs (i * b / 8) (b / 8)

/-- The bytes of a tensor of `codes` (R271); the last byte's unused bits are 0. -/
def packElems (fmt : Nat) (codes : List Nat) : List Byte :=
  let b := fmtContainer fmt
  if b < 8 then
    let n := codes.foldr (fun c acc => acc * 2 ^ b + c % 2 ^ b) 0
    leBytes (cdiv (codes.length * b) 8) n
  else codes.flatMap (leBytes (b / 8))

/-- Bytes that `n` elements of a format take. -/
def fmtBytes (fmt n : Nat) : Nat := cdiv (n * fmtContainer fmt) 8

/-! Functions with an error bound (Table 7.6): the exact result enclosed in fixed point with 2⁻¹²⁰ steps, then any FP32 value
within the bound, chosen by `Config.pick`. -/

/-- The fixed-point scale: 2¹²⁰. -/
def fxOne : Nat := 2 ^ 120

/-- ln 2 in fixed point. -/
def fxLn2 : Int := 921350637599661305226344307672478454

/-- e^r for |r| < 1 in fixed point, by its series. -/
def fxExpSeries (r : Int) : Nat → Nat → Int → Int → Int
  | 0, _, _, acc => acc
  | fuel + 1, k, term, acc =>
    let t := term * r / ((k : Int) * fxOne)
    fxExpSeries r fuel (k + 1) t (acc + t)

/-- e^x for an exact x = num/den as a signed fraction: (mantissa in fixed point, power of two). -/
def fxExp (num : Int) (den : Nat) : Nat × Int :=
  let x : Int := num * fxOne / den
  let k := x / fxLn2
  let r := x - k * fxLn2
  ((fxExpSeries r 40 1 fxOne fxOne).toNat, k)

/-- e^x as a numerator and a denominator. -/
def expFrac (num : Int) (den : Nat) : Nat × Nat :=
  let p := fxExp num den
  let q := scale2 p.1 p.2
  (q.1, q.2 * fxOne)

/-- atanh z = z + z³/3 + … in fixed point, |z| ≤ 1/3. -/
def fxAtanhSeries (z2 : Int) : Nat → Nat → Int → Int → Int
  | 0, _, _, acc => acc
  | fuel + 1, k, p, acc =>
    let p' := p * z2 / fxOne
    fxAtanhSeries z2 fuel (k + 2) p' (acc + p' / ((k : Int) + 2))

/-- ln (num/den) in fixed point, for num > 0. -/
def fxLog (num den : Nat) : Int :=
  let k := floorLog2 num den
  let p := scale2 den k
  let m : Int := (num * p.2 * fxOne : Nat) / (p.1 : Nat)
  let z := (m - fxOne) * fxOne / (m + fxOne)
  k * fxLn2 + 2 * fxAtanhSeries (z * z / fxOne) 80 1 z z

/-- The FP32 codes within `k` ulp of ± num/den, an ulp the spacing of FP32 values there (R290): below a power of two the codes stand
half as far apart, and around zero the bound takes in codes of the other sign. A result that rounds to 2¹²⁸ or more is an infinity, and a
smaller one finite (R287). -/
def ulpCandidates (k : Nat) (neg : Bool) (num den : Nat) : List Nat :=
  let c := fFP32.roundMag num den
  let q := if num = 0 then (-149 : Int) else fFP32.quantumExp num den
  let u := scale2 k q
  let off (other : Bool) (c' : Nat) : Option (Nat × Nat) :=
    match fFP32.magnitude false c' with
    | .fin _ n d => some ((((if other then -1 else 1) * ((n * den : Nat) : Int)) - ((num * d : Nat) : Int)).natAbs, d * den)
    | _ => none
  -- |±n/d − num/den| ≤ k·2^q
  let ok (other : Bool) (c' : Nat) : Bool := match off other c' with | some e => decide (e.1 * u.2 ≤ u.1 * e.2) | none => false
  if fFP32.maxCode < c then [fFP32.join neg (fFP32.maxCode + 1)]
  else ((range (c - 2 * k) (3 * k + 1)).filter fun c' => c' ≤ fFP32.maxCode && ok false c').map (fFP32.join neg)
    ++ ((List.range (k + 1)).filter (ok true)).map fun c' => fFP32.join (!neg) c'

/-- One of the candidates, the choice left open. -/
def pickOf (draw : Nat) (cs : List Nat) : Nat := cs.getD (Config.pick draw % max cs.length 1) 0

/-- The codes within `k` ulp of the square root of num/den: those whose distance to the exact root is at most the bound,
decided on squares. -/
def sqrtCandidates (k : Nat) (num den : Nat) : List Nat :=
  -- root of num/den to 2⁻²⁰⁰ of its size
  let s := Nat.sqrt (num * den * 2 ^ 400)
  ulpCandidates k false s (den * 2 ^ 200)

/-- Functions of one FP32 operand for which Table 7.6 gives a bound and not a value. -/
inductive BoundedFn where
  | recip | sqrt | rsqrt | exp | log | tanh | sigmoid
  deriving DecidableEq, Repr

/-- The number by which a function is told apart among the free values. -/
def BoundedFn.tag : BoundedFn → Nat
  | .recip => 1 | .sqrt => 2 | .rsqrt => 3 | .exp => 4 | .log => 5 | .tanh => 6 | .sigmoid => 7

/-- A positive or negative infinity, a positive or negative zero, in FP32. -/
def fpInf (neg : Bool) : Nat := fFP32.join neg (fFP32.maxCode + 1)
def fpZero (neg : Bool) : Nat := fFP32.join neg 0

/-- A bounded function of an infinity as IEEE 754 has it (R287); `tanh` and `sigmoid` within their bound of the limit, and `exp` of −∞
within its bound of 0. -/
def boundedInf (fn : BoundedFn) (draw : Nat) (neg : Bool) : Nat :=
  match fn with
  | .recip => fpZero neg
  | .sqrt => if neg then fFP32.qnan else fpInf false
  | .rsqrt => if neg then fFP32.qnan else fpZero false
  | .exp => if neg then pickOf draw (ulpCandidates 2 false 0 1) else fpInf false
  | .log => if neg then fFP32.qnan else fpInf false
  | .tanh => pickOf draw (ulpCandidates 2 neg 1 1)
  | .sigmoid => pickOf draw (ulpCandidates 2 false (if neg then 0 else 1) 1)

/-- A bounded function (Table 7.6): a NaN operand gives the canonical NaN (R287); a finite one any FP32 value within the bound of the
exact result (log entry 12, DESIGN CHOICE); a pole, a root or logarithm of a negative number and the root of ±0 are as IEEE 754 has them
(R287). -/
def boundedFn (fn : BoundedFn) (draw : Nat) (x : Nat) : Nat :=
  match fp32 x with
  | .nan _ => fFP32.qnan
  | .inf neg => boundedInf fn draw neg
  | .fin neg n d =>
    let sn := signedOf neg n
    match fn with
    | .recip => if n = 0 then fpInf neg else pickOf draw (ulpCandidates 1 neg d n)
    | .sqrt => if n = 0 then x else if neg then fFP32.qnan else pickOf draw (sqrtCandidates 1 n d)
    | .rsqrt => if n = 0 then fpInf neg else if neg then fFP32.qnan else pickOf draw (sqrtCandidates 1 d n)
    | .exp => let e := expFrac (max (-400) (min 400 (sn / d)) * d + sn % d) d
              pickOf draw (ulpCandidates 2 false e.1 e.2)
    | .log => if n = 0 then fpInf true
              else if neg then fFP32.qnan
              else let l := fxLog n d
                   pickOf draw (ulpCandidates 2 (decide (l < 0)) l.natAbs fxOne)
    | .tanh =>
      -- (e^2|x| − 1) / (e^2|x| + 1)
      if n * 2 ^ 40 < d then pickOf draw (ulpCandidates 2 neg n d)
      else
        let e := expFrac (2 * min (n : Int) (100 * d)) d
        pickOf draw (ulpCandidates 2 neg (e.1 - e.2) (e.1 + e.2))
    | .sigmoid =>
      -- 1 / (1 + e^(−x))
      let e := expFrac (max (-400) (min 400 (-sn / d)) * d + (-sn) % d) d
      pickOf draw (ulpCandidates 2 false e.2 (e.1 + e.2))

end Sys2Proof.Machine
end

