-- ==== Sys2Proof/Machine/Sparse.lean ====
section
/-! DEFINITION. Sparse stores: a list of (key, value) pairs in ONE canonical form, keys strictly rising and no entry equal to
what an unlisted key reads as. Registers, memories and tables by number are such stores, so equal stores are equal data. -/

namespace Sys2Proof.Machine

/-- A sparse store. -/
abbrev Sparse (α : Type) := List (Nat × α)

/-- What the store lists under `k`. -/
def Sparse.find {α : Type} : Sparse α → Nat → Option α
  | [], _ => none
  | (k, v) :: rest, a => if a = k then some v else Sparse.find rest a

/-- The store without `a`. -/
def Sparse.drop {α : Type} (s : Sparse α) (a : Nat) : Sparse α := s.filter fun e => e.1 != a

/-- The store with `v` under `a`. -/
def Sparse.put {α : Type} : Sparse α → Nat → α → Sparse α
  | [], a, v => [(a, v)]
  | (k, w) :: rest, a, v =>
    if a = k then (k, v) :: rest
    else if a < k then (a, v) :: (k, w) :: rest
    else (k, w) :: Sparse.put rest a v

/-- Read with a default for unlisted keys. -/
def Sparse.read {α : Type} (dflt : Nat → α) (s : Sparse α) (a : Nat) : α := (s.find a).getD (dflt a)

/-- Write, keeping the canonical form: writing what an unlisted key reads as removes the entry. -/
def Sparse.write {α : Type} [DecidableEq α] (dflt : Nat → α) (s : Sparse α) (a : Nat) (v : α) : Sparse α :=
  if v = dflt a then s.drop a else s.put a v

/-- The canonical form, above a bound: keys strictly rising from at least `lo`, no entry equal to its default. -/
def Sparse.wfFrom {α : Type} [DecidableEq α] (dflt : Nat → α) : Nat → Sparse α → Bool
  | _, [] => true
  | lo, (k, v) :: rest => decide (lo ≤ k) && decide (v ≠ dflt k) && Sparse.wfFrom dflt (k + 1) rest

/-- The canonical form. -/
def Sparse.wf {α : Type} [DecidableEq α] (dflt : Nat → α) (s : Sparse α) : Bool := Sparse.wfFrom dflt 0 s

/-- The store without the keys from `lo` up to, not including, `hi`. -/
def Sparse.clear {α : Type} (s : Sparse α) (lo hi : Nat) : Sparse α := s.filter fun e => e.1 < lo || hi ≤ e.1

/-! Memory: bytes by address, an unlisted address reads 0 (the wipe of R509 leaves zeros). -/

/-- What an unlisted byte reads as: a wipe leaves zeros (R509), and every start-up wipes (Table 17.5). -/
def Memory.dflt (_ : Nat) : Byte := 0

/-- One byte of memory. -/
def Memory.byte (m : List Host.Cell) (a : Nat) : Byte := Sparse.read Memory.dflt m a

/-- One byte written. -/
def Memory.setByte (m : List Host.Cell) (a : Nat) (b : Byte) : List Host.Cell := Sparse.write Memory.dflt m a b

/-- `n` bytes from `a`. -/
def Memory.read (m : List Host.Cell) (a : Nat) : Nat → List Byte
  | 0 => []
  | n + 1 => Memory.byte m a :: Memory.read m (a + 1) n

/-- Bytes written from `a` upward. -/
def Memory.write (m : List Host.Cell) (a : Nat) : List Byte → List Host.Cell
  | [] => m
  | b :: bs => Memory.write (Memory.setByte m a b) (a + 1) bs

/-- The canonical form of a memory. -/
def Memory.wf (m : List Host.Cell) : Bool := Sparse.wf Memory.dflt m

/-- The memory with `n` bytes from `a` made zero. -/
def Memory.zero (m : List Host.Cell) (a n : Nat) : List Host.Cell := Sparse.clear m a (a + n)

end Sys2Proof.Machine
end

