-- ==== Sys2Proof/Machine/RegMap.lean ====
section
/-! DEFINITION. The register map (R4, R7, R8): every register and counter of the spec's register tables as a descriptor (its
control address, its array dimensions, its words, and its fields with bits, access code and reset value), and one name per
field and per counter for the rest of the machine to use. A field the spec resets to a strap, a fuse or an NVM value has
reset 0 here; the start-up sets it (log entry 9, DESIGN CHOICE). -/

namespace Sys2Proof.Machine

/-- The access codes of Table 0.4 (R8). -/
inductive Access where
  | ro | rw | w1c | w1s | rc | wo
  deriving DecidableEq, Repr

/-- A field of a register: bit position counted through the register's words, width, number of equal elements and the
distance between them in bits, access code, reset value. -/
structure RegField where
  lo : Nat
  width : Nat
  count : Nat
  stride : Nat
  acc : Access
  reset : Nat
  deriving DecidableEq, Repr

/-- A register or an array of registers: base control address, dimensions (count, stride in bytes), words, fields. -/
structure RegDesc where
  base : Nat
  dims : List (Nat × Nat)
  words : Nat
  fields : List RegField
  deriving DecidableEq, Repr

/-- A field's place in the register store: the control address of its word, its lowest bit there, its width. -/
structure Fld where
  addr : Nat
  lo : Nat
  width : Nat
  deriving DecidableEq, Repr

/-- Where an index that no instance of a register array has leads: to no register, which reads 0 (log entry 9). -/
@[simp] def RegMap.nowhere : Nat := 0x1000000000000

/-- `TKP_TICK_CFG` (R49). -/
def RegMap.dTKP_TICK_CFG : RegDesc := ⟨0x900000000, [], 1,
  [⟨0, 14, 1, 0, .rw, 0x7D0⟩]⟩

def R.TKP_TICK_CFG_PERIOD_NS : Fld := ⟨0x900000000, 0, 14⟩

/-- `TKP_TICK_ORIGIN` (R49). -/
def RegMap.dTKP_TICK_ORIGIN : RegDesc := ⟨0x900000008, [], 1,
  [⟨0, 64, 1, 0, .ro, 0x0⟩]⟩

def R.TKP_TICK_ORIGIN_ORIGIN : Fld := ⟨0x900000008, 0, 64⟩

/-- `TKP_TICK_NOW` (R49). -/
def RegMap.dTKP_TICK_NOW : RegDesc := ⟨0x900000010, [], 1,
  [⟨0, 32, 1, 0, .ro, 0x0⟩]⟩

def R.TKP_TICK_NOW_TICK : Fld := ⟨0x900000010, 0, 32⟩

/-- `TKP_MODE` (R49). -/
def RegMap.dTKP_MODE : RegDesc := ⟨0x900000018, [], 1,
  [⟨0, 1, 1, 0, .rw, 0x0⟩, ⟨1, 1, 1, 0, .rw, 0x0⟩, ⟨2, 2, 1, 0, .rw, 0x0⟩, ⟨4, 1, 1, 0, .ro, 0x0⟩, ⟨5, 1, 1, 0, .ro, 0x0⟩, ⟨6, 1, 1, 0, .ro, 0x0⟩]⟩

def R.TKP_MODE_LEARNING : Fld := ⟨0x900000018, 0, 1⟩
def R.TKP_MODE_CASCADE : Fld := ⟨0x900000018, 1, 1⟩
def R.TKP_MODE_FIXED_TIER : Fld := ⟨0x900000018, 2, 2⟩
def R.TKP_MODE_FLUSH_COMPAT : Fld := ⟨0x900000018, 4, 1⟩
def R.TKP_MODE_FABRIC_BOARD : Fld := ⟨0x900000018, 5, 1⟩
def R.TKP_MODE_FABRIC_HALL : Fld := ⟨0x900000018, 6, 1⟩

/-- `TKP_TICK_STAT` (R49). -/
def RegMap.dTKP_TICK_STAT : RegDesc := ⟨0x900000020, [], 1,
  [⟨0, 1, 1, 0, .ro, 0x0⟩, ⟨1, 1, 1, 0, .ro, 0x0⟩, ⟨2, 1, 1, 0, .w1c, 0x0⟩, ⟨3, 1, 1, 0, .ro, 0x0⟩, ⟨4, 1, 1, 0, .w1c, 0x0⟩]⟩

def R.TKP_TICK_STAT_FOLLOWER : Fld := ⟨0x900000020, 0, 1⟩
def R.TKP_TICK_STAT_DRIVER : Fld := ⟨0x900000020, 1, 1⟩
def R.TKP_TICK_STAT_SYNC_LOST : Fld := ⟨0x900000020, 2, 1⟩
def R.TKP_TICK_STAT_PERIOD_PENDING : Fld := ⟨0x900000020, 3, 1⟩
def R.TKP_TICK_STAT_RENUMBERED : Fld := ⟨0x900000020, 4, 1⟩

/-- `PORT_CFG` (R94). -/
def RegMap.dPORT_CFG : RegDesc := ⟨0x100000000, [], 1,
  [⟨0, 2, 1, 0, .ro, 0x0⟩, ⟨4, 3, 1, 0, .ro, 0x0⟩, ⟨8, 3, 1, 0, .rw, 0x0⟩, ⟨11, 1, 1, 0, .rw, 0x0⟩, ⟨12, 8, 1, 0, .rw, 0x0⟩, ⟨20, 1, 1, 0, .rw, 0x0⟩, ⟨21, 1, 1, 0, .rw, 0x0⟩, ⟨22, 3, 1, 0, .rw, 0x0⟩, ⟨25, 12, 1, 0, .rw, 0x0⟩]⟩

def R.PORT_CFG_BREAKOUT : Fld := ⟨0x100000000, 0, 2⟩
def R.PORT_CFG_HALL_SUBPORT : Fld := ⟨0x100000000, 4, 3⟩
def R.PORT_CFG_PTP_SUBPORT : Fld := ⟨0x100000000, 8, 3⟩
def R.PORT_CFG_PTP_EN : Fld := ⟨0x100000000, 11, 1⟩
def R.PORT_CFG_PTP_DOMAIN : Fld := ⟨0x100000000, 12, 8⟩
def R.PORT_CFG_TX_FC_EN : Fld := ⟨0x100000000, 20, 1⟩
def R.PORT_CFG_TX_FC_PFC : Fld := ⟨0x100000000, 21, 1⟩
def R.PORT_CFG_OWN_CLASS : Fld := ⟨0x100000000, 22, 3⟩
def R.PORT_CFG_OWN_VID : Fld := ⟨0x100000000, 25, 12⟩

/-- `PORT_MAC_ADDR` (R94). -/
def RegMap.dPORT_MAC_ADDR : RegDesc := ⟨0x100000008, [], 1,
  [⟨0, 48, 1, 0, .ro, 0x0⟩]⟩

def R.PORT_MAC_ADDR_MAC : Fld := ⟨0x100000008, 0, 48⟩

/-- `PORT_LANE_POL` (R94). -/
def RegMap.dPORT_LANE_POL : RegDesc := ⟨0x100000010, [], 1,
  [⟨0, 8, 1, 0, .rw, 0x0⟩, ⟨8, 8, 1, 0, .rw, 0x0⟩]⟩

def R.PORT_LANE_POL_RX_INV : Fld := ⟨0x100000010, 0, 8⟩
def R.PORT_LANE_POL_TX_INV : Fld := ⟨0x100000010, 8, 8⟩

/-- `PORT_INLINE_BUF` (R94). -/
def RegMap.dPORT_INLINE_BUF : RegDesc := ⟨0x100000018, [], 1,
  [⟨0, 14, 1, 0, .rw, 0x1A00⟩, ⟨16, 14, 1, 0, .rw, 0x1600⟩, ⟨32, 14, 1, 0, .ro, 0x0⟩, ⟨48, 14, 1, 0, .rc, 0x0⟩]⟩

def R.PORT_INLINE_BUF_XOFF_KIB : Fld := ⟨0x100000018, 0, 14⟩
def R.PORT_INLINE_BUF_XON_KIB : Fld := ⟨0x100000018, 16, 14⟩
def R.PORT_INLINE_BUF_OCC_KIB : Fld := ⟨0x100000018, 32, 14⟩
def R.PORT_INLINE_BUF_PEAK_KIB : Fld := ⟨0x100000018, 48, 14⟩

/-- `PORT_SUBPORT_CFG` (R94). -/
def RegMap.dPORT_SUBPORT_CFG : RegDesc := ⟨0x100000100, [(8, 0x8)], 1,
  [⟨0, 2, 1, 0, .rw, 0x2⟩, ⟨2, 1, 1, 0, .rw, 0x0⟩, ⟨3, 3, 1, 0, .rw, 0x0⟩, ⟨6, 7, 1, 0, .rw, 0x50⟩, ⟨14, 14, 1, 0, .rw, 0x0⟩]⟩

def R.PORT_SUBPORT_CFG_MODE (i : Nat) : Fld := ⟨if i < 8 then 0x100000100 + 0x8 * i else RegMap.nowhere, 0, 2⟩
def R.PORT_SUBPORT_CFG_PFC_EN (i : Nat) : Fld := ⟨if i < 8 then 0x100000100 + 0x8 * i else RegMap.nowhere, 2, 1⟩
def R.PORT_SUBPORT_CFG_PFC_DEFAULT_CLASS (i : Nat) : Fld := ⟨if i < 8 then 0x100000100 + 0x8 * i else RegMap.nowhere, 3, 3⟩
def R.PORT_SUBPORT_CFG_PAUSE_CEIL_PCT (i : Nat) : Fld := ⟨if i < 8 then 0x100000100 + 0x8 * i else RegMap.nowhere, 6, 7⟩
def R.PORT_SUBPORT_CFG_SLOT_CAP (i : Nat) : Fld := ⟨if i < 8 then 0x100000100 + 0x8 * i else RegMap.nowhere, 14, 14⟩

/-- `PORT_SUBPORT_STAT` (R94). -/
def RegMap.dPORT_SUBPORT_STAT : RegDesc := ⟨0x100000140, [(8, 0x8)], 1,
  [⟨0, 1, 1, 0, .ro, 0x0⟩, ⟨1, 1, 1, 0, .ro, 0x0⟩, ⟨2, 1, 1, 0, .ro, 0x0⟩, ⟨3, 8, 1, 0, .ro, 0x0⟩, ⟨11, 8, 1, 0, .w1c, 0x0⟩, ⟨19, 1, 1, 0, .ro, 0x0⟩, ⟨20, 2, 1, 0, .ro, 0x2⟩]⟩

def R.PORT_SUBPORT_STAT_LINK_UP (i : Nat) : Fld := ⟨if i < 8 then 0x100000140 + 0x8 * i else RegMap.nowhere, 0, 1⟩
def R.PORT_SUBPORT_STAT_DOWN_BY_LANE (i : Nat) : Fld := ⟨if i < 8 then 0x100000140 + 0x8 * i else RegMap.nowhere, 1, 1⟩
def R.PORT_SUBPORT_STAT_TRAINING (i : Nat) : Fld := ⟨if i < 8 then 0x100000140 + 0x8 * i else RegMap.nowhere, 2, 1⟩
def R.PORT_SUBPORT_STAT_PAUSED (i : Nat) : Fld := ⟨if i < 8 then 0x100000140 + 0x8 * i else RegMap.nowhere, 3, 8⟩
def R.PORT_SUBPORT_STAT_STORM (i : Nat) : Fld := ⟨if i < 8 then 0x100000140 + 0x8 * i else RegMap.nowhere, 11, 8⟩
def R.PORT_SUBPORT_STAT_MODE_PENDING (i : Nat) : Fld := ⟨if i < 8 then 0x100000140 + 0x8 * i else RegMap.nowhere, 19, 1⟩
def R.PORT_SUBPORT_STAT_MODE_ACTIVE (i : Nat) : Fld := ⟨if i < 8 then 0x100000140 + 0x8 * i else RegMap.nowhere, 20, 2⟩

/-- `PORT_SIDECAR_DA` (R94). -/
def RegMap.dPORT_SIDECAR_DA : RegDesc := ⟨0x100000180, [(8, 0x8)], 1,
  [⟨0, 48, 1, 0, .rw, 0xFFFFFFFFFFFF⟩]⟩

def R.PORT_SIDECAR_DA_DA (i : Nat) : Fld := ⟨if i < 8 then 0x100000180 + 0x8 * i else RegMap.nowhere, 0, 48⟩

/-- `PORT_LANE_STAT` (R94). -/
def RegMap.dPORT_LANE_STAT : RegDesc := ⟨0x100000200, [(8, 0x8)], 1,
  [⟨0, 1, 1, 0, .ro, 0x0⟩, ⟨1, 1, 1, 0, .ro, 0x0⟩, ⟨8, 8, 1, 0, .ro, 0x0⟩]⟩

def R.PORT_LANE_STAT_FAILED (i : Nat) : Fld := ⟨if i < 8 then 0x100000200 + 0x8 * i else RegMap.nowhere, 0, 1⟩
def R.PORT_LANE_STAT_TRAINED (i : Nat) : Fld := ⟨if i < 8 then 0x100000200 + 0x8 * i else RegMap.nowhere, 1, 1⟩
def R.PORT_LANE_STAT_TRAIN_FAILS (i : Nat) : Fld := ⟨if i < 8 then 0x100000200 + 0x8 * i else RegMap.nowhere, 8, 8⟩

/-- `PRS_CFG` (R133). -/
def RegMap.dPRS_CFG : RegDesc := ⟨0x200000000, [], 1,
  [⟨0, 5, 1, 0, .rw, 0x10⟩, ⟨5, 2, 1, 0, .rw, 0x0⟩, ⟨7, 2, 1, 0, .rw, 0x2⟩]⟩

def R.PRS_CFG_STEP_LIMIT : Fld := ⟨0x200000000, 0, 5⟩
def R.PRS_CFG_DEPTH_ACTION : Fld := ⟨0x200000000, 5, 2⟩
def R.PRS_CFG_MAX_PASSES : Fld := ⟨0x200000000, 7, 2⟩

/-- `PRS_MAL_VERDICT` (R133). -/
def RegMap.dPRS_MAL_VERDICT : RegDesc := ⟨0x200000008, [], 1,
  [⟨0, 16, 1, 0, .rw, 0x0⟩, ⟨16, 16, 1, 0, .rw, 0x0⟩]⟩

def R.PRS_MAL_VERDICT_MAL_ACTION : Fld := ⟨0x200000008, 0, 16⟩
def R.PRS_MAL_VERDICT_MAL_CLASS : Fld := ⟨0x200000008, 16, 16⟩

/-- `PRS_ENTRY` (R133). -/
def RegMap.dPRS_ENTRY : RegDesc := ⟨0x200000010, [], 1,
  [⟨0, 8, 8, 8, .ro, 0x0⟩]⟩

def R.PRS_ENTRY_NODE (n : Nat) : Fld := ⟨if n < 8 then 0x200000010 else RegMap.nowhere, 8 * n, 8⟩

/-- `PRS_INNER_MASK` (R133). -/
def RegMap.dPRS_INNER_MASK : RegDesc := ⟨0x200000018, [], 1,
  [⟨0, 26, 1, 0, .ro, 0x0⟩]⟩

def R.PRS_INNER_MASK_INNER : Fld := ⟨0x200000018, 0, 26⟩

/-- `PRS_GRAPH_INFO` (R133). -/
def RegMap.dPRS_GRAPH_INFO : RegDesc := ⟨0x200000020, [], 1,
  [⟨0, 9, 1, 0, .ro, 0x0⟩, ⟨16, 13, 1, 0, .ro, 0x0⟩]⟩

def R.PRS_GRAPH_INFO_NODE_COUNT : Fld := ⟨0x200000020, 0, 9⟩
def R.PRS_GRAPH_INFO_TRANS_USED : Fld := ⟨0x200000020, 16, 13⟩

/-- `PRS_RECIRC_STAT` (R133). -/
def RegMap.dPRS_RECIRC_STAT : RegDesc := ⟨0x200000028, [], 1,
  [⟨0, 9, 1, 0, .ro, 0x0⟩, ⟨16, 9, 1, 0, .rc, 0x0⟩]⟩

def R.PRS_RECIRC_STAT_OCC : Fld := ⟨0x200000028, 0, 9⟩
def R.PRS_RECIRC_STAT_PEAK : Fld := ⟨0x200000028, 16, 9⟩

/-- `PRS_NODE` (R133). -/
def RegMap.dPRS_NODE : RegDesc := ⟨0x200010000, [(256, 0x20)], 4,
  [⟨0, 6, 1, 0, .ro, 0x0⟩, ⟨6, 3, 1, 0, .ro, 0x0⟩, ⟨9, 8, 1, 0, .ro, 0x0⟩, ⟨17, 2, 1, 0, .ro, 0x0⟩, ⟨19, 8, 1, 0, .ro, 0x0⟩, ⟨27, 8, 1, 0, .ro, 0x0⟩, ⟨35, 1, 1, 0, .ro, 0x0⟩, ⟨36, 6, 1, 0, .ro, 0x0⟩, ⟨42, 8, 1, 0, .ro, 0x0⟩, ⟨50, 2, 1, 0, .ro, 0x0⟩, ⟨52, 6, 1, 0, .ro, 0x0⟩, ⟨58, 1, 1, 0, .ro, 0x0⟩, ⟨59, 1, 1, 0, .ro, 0x0⟩, ⟨60, 1, 1, 0, .ro, 0x0⟩, ⟨61, 2, 1, 0, .ro, 0x0⟩, ⟨64, 16, 1, 0, .ro, 0x0⟩, ⟨80, 2, 1, 0, .ro, 0x0⟩, ⟨82, 6, 1, 0, .ro, 0x0⟩, ⟨88, 16, 1, 0, .ro, 0x0⟩, ⟨104, 12, 1, 0, .ro, 0x0⟩, ⟨116, 5, 1, 0, .ro, 0x0⟩, ⟨128, 9, 1, 0, .ro, 0x0⟩, ⟨137, 4, 1, 0, .ro, 0x0⟩, ⟨141, 3, 1, 0, .ro, 0x0⟩, ⟨144, 18, 1, 0, .ro, 0x0⟩, ⟨162, 18, 1, 0, .ro, 0x0⟩, ⟨192, 18, 1, 0, .ro, 0x0⟩, ⟨210, 18, 1, 0, .ro, 0x0⟩]⟩

def R.PRS_NODE_HLEN_OFF (i : Nat) : Fld := ⟨if i < 256 then 0x200010000 + 0x20 * i else RegMap.nowhere, 0, 6⟩
def R.PRS_NODE_HLEN_SHIFT (i : Nat) : Fld := ⟨if i < 256 then 0x200010000 + 0x20 * i else RegMap.nowhere, 6, 3⟩
def R.PRS_NODE_HLEN_MASK (i : Nat) : Fld := ⟨if i < 256 then 0x200010000 + 0x20 * i else RegMap.nowhere, 9, 8⟩
def R.PRS_NODE_HLEN_MUL (i : Nat) : Fld := ⟨if i < 256 then 0x200010000 + 0x20 * i else RegMap.nowhere, 17, 2⟩
def R.PRS_NODE_HLEN_ADD (i : Nat) : Fld := ⟨if i < 256 then 0x200010000 + 0x20 * i else RegMap.nowhere, 19, 8⟩
def R.PRS_NODE_MIN_LEN (i : Nat) : Fld := ⟨if i < 256 then 0x200010000 + 0x20 * i else RegMap.nowhere, 27, 8⟩
def R.PRS_NODE_PLEN_EN (i : Nat) : Fld := ⟨if i < 256 then 0x200010000 + 0x20 * i else RegMap.nowhere, 35, 1⟩
def R.PRS_NODE_PLEN_OFF (i : Nat) : Fld := ⟨if i < 256 then 0x200010000 + 0x20 * i else RegMap.nowhere, 36, 6⟩
def R.PRS_NODE_PLEN_ADD (i : Nat) : Fld := ⟨if i < 256 then 0x200010000 + 0x20 * i else RegMap.nowhere, 42, 8⟩
def R.PRS_NODE_FRAG_MODE (i : Nat) : Fld := ⟨if i < 256 then 0x200010000 + 0x20 * i else RegMap.nowhere, 50, 2⟩
def R.PRS_NODE_FRAG_OFF (i : Nat) : Fld := ⟨if i < 256 then 0x200010000 + 0x20 * i else RegMap.nowhere, 52, 6⟩
def R.PRS_NODE_TAG (i : Nat) : Fld := ⟨if i < 256 then 0x200010000 + 0x20 * i else RegMap.nowhere, 58, 1⟩
def R.PRS_NODE_TUNNEL (i : Nat) : Fld := ⟨if i < 256 then 0x200010000 + 0x20 * i else RegMap.nowhere, 59, 1⟩
def R.PRS_NODE_MARK_EN (i : Nat) : Fld := ⟨if i < 256 then 0x200010000 + 0x20 * i else RegMap.nowhere, 60, 1⟩
def R.PRS_NODE_MARK_SLOT (i : Nat) : Fld := ⟨if i < 256 then 0x200010000 + 0x20 * i else RegMap.nowhere, 61, 2⟩
def R.PRS_NODE_FRAG_MASK (i : Nat) : Fld := ⟨if i < 256 then 0x200010000 + 0x20 * i + 8 else RegMap.nowhere, 0, 16⟩
def R.PRS_NODE_SEL_W (i : Nat) : Fld := ⟨if i < 256 then 0x200010000 + 0x20 * i + 8 else RegMap.nowhere, 16, 2⟩
def R.PRS_NODE_SEL_OFF (i : Nat) : Fld := ⟨if i < 256 then 0x200010000 + 0x20 * i + 8 else RegMap.nowhere, 18, 6⟩
def R.PRS_NODE_SEL_MASK (i : Nat) : Fld := ⟨if i < 256 then 0x200010000 + 0x20 * i + 8 else RegMap.nowhere, 24, 16⟩
def R.PRS_NODE_TRANS_BASE (i : Nat) : Fld := ⟨if i < 256 then 0x200010000 + 0x20 * i + 8 else RegMap.nowhere, 40, 12⟩
def R.PRS_NODE_TRANS_COUNT (i : Nat) : Fld := ⟨if i < 256 then 0x200010000 + 0x20 * i + 8 else RegMap.nowhere, 52, 5⟩
def R.PRS_NODE_DEFAULT_NEXT (i : Nat) : Fld := ⟨if i < 256 then 0x200010000 + 0x20 * i + 16 else RegMap.nowhere, 0, 9⟩
def R.PRS_NODE_REP_STRIDE (i : Nat) : Fld := ⟨if i < 256 then 0x200010000 + 0x20 * i + 16 else RegMap.nowhere, 9, 4⟩
def R.PRS_NODE_REP_MAX (i : Nat) : Fld := ⟨if i < 256 then 0x200010000 + 0x20 * i + 16 else RegMap.nowhere, 13, 3⟩
def R.PRS_NODE_EXTRACT0 (i : Nat) : Fld := ⟨if i < 256 then 0x200010000 + 0x20 * i + 16 else RegMap.nowhere, 16, 18⟩
def R.PRS_NODE_EXTRACT1 (i : Nat) : Fld := ⟨if i < 256 then 0x200010000 + 0x20 * i + 16 else RegMap.nowhere, 34, 18⟩
def R.PRS_NODE_EXTRACT2 (i : Nat) : Fld := ⟨if i < 256 then 0x200010000 + 0x20 * i + 24 else RegMap.nowhere, 0, 18⟩
def R.PRS_NODE_EXTRACT3 (i : Nat) : Fld := ⟨if i < 256 then 0x200010000 + 0x20 * i + 24 else RegMap.nowhere, 18, 18⟩

/-- `PRS_TRANS` (R133). -/
def RegMap.dPRS_TRANS : RegDesc := ⟨0x200020000, [(4096, 0x8)], 1,
  [⟨0, 16, 1, 0, .ro, 0x0⟩, ⟨16, 9, 1, 0, .ro, 0x0⟩]⟩

def R.PRS_TRANS_VALUE (i : Nat) : Fld := ⟨if i < 4096 then 0x200020000 + 0x8 * i else RegMap.nowhere, 0, 16⟩
def R.PRS_TRANS_NEXT (i : Nat) : Fld := ⟨if i < 4096 then 0x200020000 + 0x8 * i else RegMap.nowhere, 16, 9⟩

/-- `CLS_STATE` (R170). -/
def RegMap.dCLS_STATE : RegDesc := ⟨0x300000000, [], 1,
  [⟨0, 8, 1, 0, .ro, 0x0⟩, ⟨8, 2, 1, 0, .ro, 0x0⟩, ⟨10, 1, 1, 0, .ro, 0x0⟩, ⟨11, 2, 1, 0, .ro, 0x0⟩, ⟨13, 1, 1, 0, .ro, 0x0⟩]⟩

def R.CLS_STATE_CUR_VER : Fld := ⟨0x300000000, 0, 8⟩
def R.CLS_STATE_CUR_SLOT : Fld := ⟨0x300000000, 8, 2⟩
def R.CLS_STATE_STAGE_OPEN : Fld := ⟨0x300000000, 10, 1⟩
def R.CLS_STATE_STAGE_SLOT : Fld := ⟨0x300000000, 11, 2⟩
def R.CLS_STATE_SWEEP_BUSY : Fld := ⟨0x300000000, 13, 1⟩

/-- `CLS_ENTRY_PROFILE` (R170). -/
def RegMap.dCLS_ENTRY_PROFILE : RegDesc := ⟨0x300000008, [], 1,
  [⟨0, 4, 8, 4, .ro, 0x0⟩]⟩

def R.CLS_ENTRY_PROFILE_PROFILE (n : Nat) : Fld := ⟨if n < 8 then 0x300000008 else RegMap.nowhere, 4 * n, 4⟩

/-- `CLS_FREE` (R170). -/
def RegMap.dCLS_FREE : RegDesc := ⟨0x300000010, [], 1,
  [⟨0, 20, 1, 0, .ro, 0x80000⟩]⟩

def R.CLS_FREE_FREE : Fld := ⟨0x300000010, 0, 20⟩

/-- `CLS_COMMIT_SEQ` (R170). -/
def RegMap.dCLS_COMMIT_SEQ : RegDesc := ⟨0x300000018, [], 1,
  [⟨0, 64, 1, 0, .ro, 0x0⟩]⟩

def R.CLS_COMMIT_SEQ_SEQ : Fld := ⟨0x300000018, 0, 64⟩

/-- `CLS_VER` (R170). -/
def RegMap.dCLS_VER : RegDesc := ⟨0x300000020, [(4, 0x10)], 2,
  [⟨0, 8, 1, 0, .ro, 0x0⟩, ⟨8, 3, 1, 0, .ro, 0x0⟩, ⟨16, 20, 1, 0, .ro, 0x0⟩, ⟨36, 20, 1, 0, .ro, 0x0⟩, ⟨64, 64, 1, 0, .ro, 0x0⟩]⟩

def R.CLS_VER_VER (i : Nat) : Fld := ⟨if i < 4 then 0x300000020 + 0x10 * i else RegMap.nowhere, 0, 8⟩
def R.CLS_VER_STATE (i : Nat) : Fld := ⟨if i < 4 then 0x300000020 + 0x10 * i else RegMap.nowhere, 8, 3⟩
def R.CLS_VER_REFCOUNT (i : Nat) : Fld := ⟨if i < 4 then 0x300000020 + 0x10 * i else RegMap.nowhere, 16, 20⟩
def R.CLS_VER_ENTRIES (i : Nat) : Fld := ⟨if i < 4 then 0x300000020 + 0x10 * i else RegMap.nowhere, 36, 20⟩
def R.CLS_VER_COMMIT_SEQ (i : Nat) : Fld := ⟨if i < 4 then 0x300000020 + 0x10 * i + 8 else RegMap.nowhere, 0, 64⟩

/-- `CLS_PROFILE` (R170). -/
def RegMap.dCLS_PROFILE : RegDesc := ⟨0x300010000, [(16, 0x40)], 6,
  [⟨0, 8, 40, 8, .ro, 0x0⟩, ⟨320, 5, 1, 0, .ro, 0x0⟩, ⟨328, 5, 1, 0, .ro, 0x0⟩, ⟨336, 5, 1, 0, .ro, 0x0⟩, ⟨344, 5, 1, 0, .ro, 0x0⟩, ⟨352, 3, 1, 0, .ro, 0x0⟩]⟩

def R.CLS_PROFILE_SEL (i : Nat) (n : Nat) : Fld := ⟨if i < 16 ∧ n < 40 then 0x300010000 + 0x40 * i + 8 * ((0 + 8 * n) / 64) else RegMap.nowhere, (0 + 8 * n) % 64, 8⟩
def R.CLS_PROFILE_BANK0 (i : Nat) : Fld := ⟨if i < 16 then 0x300010000 + 0x40 * i + 40 else RegMap.nowhere, 0, 5⟩
def R.CLS_PROFILE_BANK1 (i : Nat) : Fld := ⟨if i < 16 then 0x300010000 + 0x40 * i + 40 else RegMap.nowhere, 8, 5⟩
def R.CLS_PROFILE_BANK2 (i : Nat) : Fld := ⟨if i < 16 then 0x300010000 + 0x40 * i + 40 else RegMap.nowhere, 16, 5⟩
def R.CLS_PROFILE_BANK3 (i : Nat) : Fld := ⟨if i < 16 then 0x300010000 + 0x40 * i + 40 else RegMap.nowhere, 24, 5⟩
def R.CLS_PROFILE_BANK_COUNT (i : Nat) : Fld := ⟨if i < 16 then 0x300010000 + 0x40 * i + 40 else RegMap.nowhere, 32, 3⟩

/-- `CLS_DEFAULT` (R171). -/
def RegMap.dCLS_DEFAULT : RegDesc := ⟨0x300020000, [(4, 0x80), (16, 0x8)], 1,
  [⟨0, 64, 1, 0, .ro, 0x0⟩]⟩

def R.CLS_DEFAULT_ACTION_WORD (i : Nat) (j : Nat) : Fld := ⟨if i < 4 ∧ j < 16 then 0x300020000 + 0x80 * i + 0x8 * j else RegMap.nowhere, 0, 64⟩

/-- `CLS_ENTRY` (R170). -/
def RegMap.dCLS_ENTRY : RegDesc := ⟨0x310000000, [(32, 0x200000), (16384, 0x80)], 12,
  [⟨0, 64, 5, 64, .ro, 0x0⟩, ⟨320, 64, 5, 64, .ro, 0x0⟩, ⟨640, 64, 1, 0, .ro, 0x0⟩, ⟨704, 4, 1, 0, .ro, 0x0⟩, ⟨708, 1, 1, 0, .ro, 0x0⟩]⟩

def R.CLS_ENTRY_VALUE (i : Nat) (j : Nat) (n : Nat) : Fld := ⟨if i < 32 ∧ j < 16384 ∧ n < 5 then 0x310000000 + 0x200000 * i + 0x80 * j + 8 * n else RegMap.nowhere, 0, 64⟩
def R.CLS_ENTRY_MASK (i : Nat) (j : Nat) (n : Nat) : Fld := ⟨if i < 32 ∧ j < 16384 ∧ n < 5 then 0x310000000 + 0x200000 * i + 0x80 * j + 40 + 8 * n else RegMap.nowhere, 0, 64⟩
def R.CLS_ENTRY_ACTION_WORD (i : Nat) (j : Nat) : Fld := ⟨if i < 32 ∧ j < 16384 then 0x310000000 + 0x200000 * i + 0x80 * j + 80 else RegMap.nowhere, 0, 64⟩
def R.CLS_ENTRY_SLOTS (i : Nat) (j : Nat) : Fld := ⟨if i < 32 ∧ j < 16384 then 0x310000000 + 0x200000 * i + 0x80 * j + 88 else RegMap.nowhere, 0, 4⟩
def R.CLS_ENTRY_PARITY_BAD (i : Nat) (j : Nat) : Fld := ⟨if i < 32 ∧ j < 16384 then 0x310000000 + 0x200000 * i + 0x80 * j + 88 else RegMap.nowhere, 4, 1⟩

/-- `FLW_CFG` (R211). -/
def RegMap.dFLW_CFG : RegDesc := ⟨0x400000000, [], 1,
  [⟨0, 16, 1, 0, .rw, 0x3E8⟩, ⟨16, 16, 1, 0, .rw, 0x3E8⟩]⟩

def R.FLW_CFG_AGE_SWEEP_MS : Fld := ⟨0x400000000, 0, 16⟩
def R.FLW_CFG_EVICT_IDLE_US : Fld := ⟨0x400000000, 16, 16⟩

/-- `FLW_TABLE_INFO` (R211). -/
def RegMap.dFLW_TABLE_INFO : RegDesc := ⟨0x400000008, [], 1,
  [⟨0, 52, 1, 0, .ro, 0x0⟩]⟩

def R.FLW_TABLE_INFO_BASE : Fld := ⟨0x400000008, 0, 52⟩

/-- `FLW_SAMPLE_CTL` (R211). -/
def RegMap.dFLW_SAMPLE_CTL : RegDesc := ⟨0x400000010, [], 1,
  [⟨0, 16, 1, 0, .ro, 0x0⟩]⟩

def R.FLW_SAMPLE_CTL_DECIM_TICKS : Fld := ⟨0x400000010, 0, 16⟩

/-- `FLW_OCC` (R211). -/
def RegMap.dFLW_OCC : RegDesc := ⟨0x400000018, [], 1,
  [⟨0, 26, 1, 0, .ro, 0x0⟩, ⟨32, 24, 1, 0, .ro, 0x0⟩]⟩

def R.FLW_OCC_LIVE_FLOWS : Fld := ⟨0x400000018, 0, 26⟩
def R.FLW_OCC_RETIRED_BUCKETS : Fld := ⟨0x400000018, 32, 24⟩

/-- `FLW_VRF` (R211). -/
def RegMap.dFLW_VRF : RegDesc := ⟨0x400000020, [(2, 0x8)], 1,
  [⟨0, 16, 4, 16, .rw, 0x0⟩]⟩

def R.FLW_VRF_VRF (i : Nat) (n : Nat) : Fld := ⟨if i < 2 ∧ n < 4 then 0x400000020 + 0x8 * i else RegMap.nowhere, 16 * n, 16⟩

/-- `FLW_KEY_PROFILE` (R211). -/
def RegMap.dFLW_KEY_PROFILE : RegDesc := ⟨0x400000100, [(8, 0x10)], 2,
  [⟨0, 7, 1, 0, .ro, 0x0⟩, ⟨7, 1, 1, 0, .ro, 0x0⟩, ⟨8, 7, 1, 0, .ro, 0x0⟩, ⟨16, 5, 1, 0, .ro, 0x0⟩, ⟨24, 7, 1, 0, .ro, 0x0⟩, ⟨31, 1, 1, 0, .ro, 0x0⟩, ⟨32, 7, 1, 0, .ro, 0x0⟩, ⟨40, 7, 1, 0, .ro, 0x0⟩, ⟨47, 1, 1, 0, .ro, 0x0⟩, ⟨48, 7, 1, 0, .ro, 0x0⟩, ⟨56, 2, 1, 0, .ro, 0x0⟩, ⟨58, 1, 1, 0, .ro, 0x0⟩, ⟨64, 7, 1, 0, .ro, 0x0⟩, ⟨72, 24, 1, 0, .ro, 0x0⟩]⟩

def R.FLW_KEY_PROFILE_SRC_ADDR_OFF (i : Nat) : Fld := ⟨if i < 8 then 0x400000100 + 0x10 * i else RegMap.nowhere, 0, 7⟩
def R.FLW_KEY_PROFILE_ADDR_EN (i : Nat) : Fld := ⟨if i < 8 then 0x400000100 + 0x10 * i else RegMap.nowhere, 7, 1⟩
def R.FLW_KEY_PROFILE_DST_ADDR_OFF (i : Nat) : Fld := ⟨if i < 8 then 0x400000100 + 0x10 * i else RegMap.nowhere, 8, 7⟩
def R.FLW_KEY_PROFILE_ADDR_LEN (i : Nat) : Fld := ⟨if i < 8 then 0x400000100 + 0x10 * i else RegMap.nowhere, 16, 5⟩
def R.FLW_KEY_PROFILE_SRC_PORT_OFF (i : Nat) : Fld := ⟨if i < 8 then 0x400000100 + 0x10 * i else RegMap.nowhere, 24, 7⟩
def R.FLW_KEY_PROFILE_PORT_EN (i : Nat) : Fld := ⟨if i < 8 then 0x400000100 + 0x10 * i else RegMap.nowhere, 31, 1⟩
def R.FLW_KEY_PROFILE_DST_PORT_OFF (i : Nat) : Fld := ⟨if i < 8 then 0x400000100 + 0x10 * i else RegMap.nowhere, 32, 7⟩
def R.FLW_KEY_PROFILE_PROTO_OFF (i : Nat) : Fld := ⟨if i < 8 then 0x400000100 + 0x10 * i else RegMap.nowhere, 40, 7⟩
def R.FLW_KEY_PROFILE_PROTO_EN (i : Nat) : Fld := ⟨if i < 8 then 0x400000100 + 0x10 * i else RegMap.nowhere, 47, 1⟩
def R.FLW_KEY_PROFILE_SEG_OFF (i : Nat) : Fld := ⟨if i < 8 then 0x400000100 + 0x10 * i else RegMap.nowhere, 48, 7⟩
def R.FLW_KEY_PROFILE_SEG_LEN (i : Nat) : Fld := ⟨if i < 8 then 0x400000100 + 0x10 * i else RegMap.nowhere, 56, 2⟩
def R.FLW_KEY_PROFILE_VRF_MODE (i : Nat) : Fld := ⟨if i < 8 then 0x400000100 + 0x10 * i else RegMap.nowhere, 58, 1⟩
def R.FLW_KEY_PROFILE_VRF_OFF (i : Nat) : Fld := ⟨if i < 8 then 0x400000100 + 0x10 * i + 8 else RegMap.nowhere, 0, 7⟩
def R.FLW_KEY_PROFILE_SEG_MASK (i : Nat) : Fld := ⟨if i < 8 then 0x400000100 + 0x10 * i + 8 else RegMap.nowhere, 8, 24⟩

/-- `FLW_POLICY` (R211). -/
def RegMap.dFLW_POLICY : RegDesc := ⟨0x400000200, [(16, 0x10)], 2,
  [⟨0, 3, 1, 0, .rw, 0x0⟩, ⟨4, 16, 1, 0, .rw, 0x0⟩, ⟨20, 16, 1, 0, .rw, 0x0⟩, ⟨36, 24, 1, 0, .rw, 0x0⟩, ⟨60, 4, 1, 0, .rw, 0x0⟩, ⟨64, 3, 1, 0, .ro, 0x0⟩, ⟨68, 3, 1, 0, .ro, 0x0⟩, ⟨72, 1, 1, 0, .ro, 0x0⟩, ⟨73, 3, 1, 0, .ro, 0x0⟩, ⟨76, 1, 1, 0, .ro, 0x0⟩, ⟨77, 3, 1, 0, .ro, 0x0⟩, ⟨80, 7, 1, 0, .ro, 0x0⟩, ⟨87, 1, 1, 0, .ro, 0x0⟩]⟩

def R.FLW_POLICY_MODE (i : Nat) : Fld := ⟨if i < 16 then 0x400000200 + 0x10 * i else RegMap.nowhere, 0, 3⟩
def R.FLW_POLICY_PARAM_A (i : Nat) : Fld := ⟨if i < 16 then 0x400000200 + 0x10 * i else RegMap.nowhere, 4, 16⟩
def R.FLW_POLICY_PARAM_B (i : Nat) : Fld := ⟨if i < 16 then 0x400000200 + 0x10 * i else RegMap.nowhere, 20, 16⟩
def R.FLW_POLICY_IDLE_MS (i : Nat) : Fld := ⟨if i < 16 then 0x400000200 + 0x10 * i else RegMap.nowhere, 36, 24⟩
def R.FLW_POLICY_IAT_SHIFT (i : Nat) : Fld := ⟨if i < 16 then 0x400000200 + 0x10 * i else RegMap.nowhere, 60, 4⟩
def R.FLW_POLICY_KEY_PROFILE (i : Nat) : Fld := ⟨if i < 16 then 0x400000200 + 0x10 * i + 8 else RegMap.nowhere, 0, 3⟩
def R.FLW_POLICY_FEATURE_SET (i : Nat) : Fld := ⟨if i < 16 then 0x400000200 + 0x10 * i + 8 else RegMap.nowhere, 4, 3⟩
def R.FLW_POLICY_ENT0_EN (i : Nat) : Fld := ⟨if i < 16 then 0x400000200 + 0x10 * i + 8 else RegMap.nowhere, 8, 1⟩
def R.FLW_POLICY_ENT0_TABLE (i : Nat) : Fld := ⟨if i < 16 then 0x400000200 + 0x10 * i + 8 else RegMap.nowhere, 9, 3⟩
def R.FLW_POLICY_ENT1_EN (i : Nat) : Fld := ⟨if i < 16 then 0x400000200 + 0x10 * i + 8 else RegMap.nowhere, 12, 1⟩
def R.FLW_POLICY_ENT1_TABLE (i : Nat) : Fld := ⟨if i < 16 then 0x400000200 + 0x10 * i + 8 else RegMap.nowhere, 13, 3⟩
def R.FLW_POLICY_FLAGS_OFF (i : Nat) : Fld := ⟨if i < 16 then 0x400000200 + 0x10 * i + 8 else RegMap.nowhere, 16, 7⟩
def R.FLW_POLICY_FLAGS_EN (i : Nat) : Fld := ⟨if i < 16 then 0x400000200 + 0x10 * i + 8 else RegMap.nowhere, 23, 1⟩

/-- `FLW_FEATURE_SET` (R211). -/
def RegMap.dFLW_FEATURE_SET : RegDesc := ⟨0x400000400, [(8, 0x10)], 2,
  [⟨0, 7, 8, 16, .ro, 0x0⟩, ⟨7, 2, 8, 16, .ro, 0x0⟩, ⟨9, 3, 8, 16, .ro, 0x0⟩, ⟨12, 2, 8, 16, .ro, 0x0⟩]⟩

def R.FLW_FEATURE_SET_SRC_OFF (i : Nat) (n : Nat) : Fld := ⟨if i < 8 ∧ n < 8 then 0x400000400 + 0x10 * i + 8 * ((0 + 16 * n) / 64) else RegMap.nowhere, (0 + 16 * n) % 64, 7⟩
def R.FLW_FEATURE_SET_WIDTH (i : Nat) (n : Nat) : Fld := ⟨if i < 8 ∧ n < 8 then 0x400000400 + 0x10 * i + 8 * ((7 + 16 * n) / 64) else RegMap.nowhere, (7 + 16 * n) % 64, 2⟩
def R.FLW_FEATURE_SET_OP (i : Nat) (n : Nat) : Fld := ⟨if i < 8 ∧ n < 8 then 0x400000400 + 0x10 * i + 8 * ((9 + 16 * n) / 64) else RegMap.nowhere, (9 + 16 * n) % 64, 3⟩
def R.FLW_FEATURE_SET_DIR (i : Nat) (n : Nat) : Fld := ⟨if i < 8 ∧ n < 8 then 0x400000400 + 0x10 * i + 8 * ((12 + 16 * n) / 64) else RegMap.nowhere, (12 + 16 * n) % 64, 2⟩

/-- `FLW_ENT_TABLE` (R211). -/
def RegMap.dFLW_ENT_TABLE : RegDesc := ⟨0x400000600, [(8, 0x20)], 4,
  [⟨0, 5, 1, 0, .ro, 0x0⟩, ⟨8, 24, 1, 0, .ro, 0x0⟩, ⟨64, 52, 1, 0, .ro, 0x0⟩, ⟨128, 8, 16, 8, .ro, 0x0⟩]⟩

def R.FLW_ENT_TABLE_LOG2_SIZE (i : Nat) : Fld := ⟨if i < 8 then 0x400000600 + 0x20 * i else RegMap.nowhere, 0, 5⟩
def R.FLW_ENT_TABLE_IDLE_MS (i : Nat) : Fld := ⟨if i < 8 then 0x400000600 + 0x20 * i else RegMap.nowhere, 8, 24⟩
def R.FLW_ENT_TABLE_BASE (i : Nat) : Fld := ⟨if i < 8 then 0x400000600 + 0x20 * i + 8 else RegMap.nowhere, 0, 52⟩
def R.FLW_ENT_TABLE_SEL (i : Nat) (n : Nat) : Fld := ⟨if i < 8 ∧ n < 16 then 0x400000600 + 0x20 * i + 8 * ((128 + 8 * n) / 64) else RegMap.nowhere, (128 + 8 * n) % 64, 8⟩

/-- `LNS_CFG` (R265). -/
def RegMap.dLNS_CFG : RegDesc := ⟨0x5F0000000, [], 1,
  [⟨0, 5, 1, 0, .rw, 0xE⟩]⟩

def R.LNS_CFG_FP_CHK_SHIFT : Fld := ⟨0x5F0000000, 0, 5⟩

/-- `LNS_FENCE_SUMMARY` (R265). -/
def RegMap.dLNS_FENCE_SUMMARY : RegDesc := ⟨0x5F0000008, [], 1,
  [⟨0, 11, 1, 0, .ro, 0x0⟩, ⟨16, 9, 1, 0, .ro, 0x0⟩, ⟨32, 5, 1, 0, .ro, 0x0⟩]⟩

def R.LNS_FENCE_SUMMARY_FACETS : Fld := ⟨0x5F0000008, 0, 11⟩
def R.LNS_FENCE_SUMMARY_CORES : Fld := ⟨0x5F0000008, 16, 9⟩
def R.LNS_FENCE_SUMMARY_CLUSTERS : Fld := ⟨0x5F0000008, 32, 5⟩

/-- `LNS_CLUSTER_STAT` (R265). -/
def RegMap.dLNS_CLUSTER_STAT : RegDesc := ⟨0x500000000, [(16, 0x1000000)], 1,
  [⟨0, 1, 1, 0, .ro, 0x0⟩, ⟨1, 3, 1, 0, .ro, 0x0⟩]⟩

def R.LNS_CLUSTER_STAT_FENCED (i : Nat) : Fld := ⟨if i < 16 then 0x500000000 + 0x1000000 * i else RegMap.nowhere, 0, 1⟩
def R.LNS_CLUSTER_STAT_GANGS (i : Nat) : Fld := ⟨if i < 16 then 0x500000000 + 0x1000000 * i else RegMap.nowhere, 1, 3⟩

/-- `LNS_CHK_LOG` (R265). -/
def RegMap.dLNS_CHK_LOG : RegDesc := ⟨0x500000008, [(16, 0x1000000)], 1,
  [⟨0, 1, 1, 0, .w1c, 0x0⟩, ⟨1, 4, 1, 0, .ro, 0x0⟩, ⟨5, 2, 1, 0, .ro, 0x0⟩, ⟨7, 1, 1, 0, .ro, 0x0⟩, ⟨8, 8, 1, 0, .ro, 0x0⟩, ⟨16, 6, 1, 0, .ro, 0x0⟩, ⟨24, 8, 1, 0, .ro, 0x0⟩, ⟨32, 32, 1, 0, .ro, 0x0⟩]⟩

def R.LNS_CHK_LOG_VALID (i : Nat) : Fld := ⟨if i < 16 then 0x500000008 + 0x1000000 * i else RegMap.nowhere, 0, 1⟩
def R.LNS_CHK_LOG_CORE (i : Nat) : Fld := ⟨if i < 16 then 0x500000008 + 0x1000000 * i else RegMap.nowhere, 1, 4⟩
def R.LNS_CHK_LOG_FACET (i : Nat) : Fld := ⟨if i < 16 then 0x500000008 + 0x1000000 * i else RegMap.nowhere, 5, 2⟩
def R.LNS_CHK_LOG_KIND (i : Nat) : Fld := ⟨if i < 16 then 0x500000008 + 0x1000000 * i else RegMap.nowhere, 7, 1⟩
def R.LNS_CHK_LOG_VECTOR (i : Nat) : Fld := ⟨if i < 16 then 0x500000008 + 0x1000000 * i else RegMap.nowhere, 8, 8⟩
def R.LNS_CHK_LOG_COLUMN (i : Nat) : Fld := ⟨if i < 16 then 0x500000008 + 0x1000000 * i else RegMap.nowhere, 16, 6⟩
def R.LNS_CHK_LOG_CONTEXT (i : Nat) : Fld := ⟨if i < 16 then 0x500000008 + 0x1000000 * i else RegMap.nowhere, 24, 8⟩
def R.LNS_CHK_LOG_TICK (i : Nat) : Fld := ⟨if i < 16 then 0x500000008 + 0x1000000 * i else RegMap.nowhere, 32, 32⟩

/-- `LNS_CORE_STAT` (R265). -/
def RegMap.dLNS_CORE_STAT : RegDesc := ⟨0x500010400, [(16, 0x1000000), (16, 0x1000)], 1,
  [⟨0, 1, 1, 0, .ro, 0x0⟩, ⟨1, 1, 1, 0, .ro, 0x0⟩, ⟨2, 3, 1, 0, .ro, 0x0⟩]⟩

def R.LNS_CORE_STAT_FENCED (i : Nat) (j : Nat) : Fld := ⟨if i < 16 ∧ j < 16 then 0x500010400 + 0x1000000 * i + 0x1000 * j else RegMap.nowhere, 0, 1⟩
def R.LNS_CORE_STAT_GANGED (i : Nat) (j : Nat) : Fld := ⟨if i < 16 ∧ j < 16 then 0x500010400 + 0x1000000 * i + 0x1000 * j else RegMap.nowhere, 1, 1⟩
def R.LNS_CORE_STAT_PARTITIONS (i : Nat) (j : Nat) : Fld := ⟨if i < 16 ∧ j < 16 then 0x500010400 + 0x1000000 * i + 0x1000 * j else RegMap.nowhere, 2, 3⟩

/-- `LNS_FACET_STAT` (R265). -/
def RegMap.dLNS_FACET_STAT : RegDesc := ⟨0x500010000, [(16, 0x1000000), (16, 0x1000), (4, 0x100)], 1,
  [⟨0, 2, 1, 0, .ro, 0x0⟩, ⟨2, 1, 1, 0, .ro, 0x0⟩, ⟨3, 1, 1, 0, .ro, 0x0⟩, ⟨4, 2, 1, 0, .ro, 0x0⟩, ⟨8, 8, 1, 0, .ro, 0x0⟩, ⟨16, 10, 1, 0, .ro, 0x0⟩]⟩

def R.LNS_FACET_STAT_STATE (i : Nat) (j : Nat) (k : Nat) : Fld := ⟨if i < 16 ∧ j < 16 ∧ k < 4 then 0x500010000 + 0x1000000 * i + 0x1000 * j + 0x100 * k else RegMap.nowhere, 0, 2⟩
def R.LNS_FACET_STAT_SHARED (i : Nat) (j : Nat) (k : Nat) : Fld := ⟨if i < 16 ∧ j < 16 ∧ k < 4 then 0x500010000 + 0x1000000 * i + 0x1000 * j + 0x100 * k else RegMap.nowhere, 2, 1⟩
def R.LNS_FACET_STAT_GANG (i : Nat) (j : Nat) (k : Nat) : Fld := ⟨if i < 16 ∧ j < 16 ∧ k < 4 then 0x500010000 + 0x1000000 * i + 0x1000 * j + 0x100 * k else RegMap.nowhere, 3, 1⟩
def R.LNS_FACET_STAT_BANDS (i : Nat) (j : Nat) (k : Nat) : Fld := ⟨if i < 16 ∧ j < 16 ∧ k < 4 then 0x500010000 + 0x1000000 * i + 0x1000 * j + 0x100 * k else RegMap.nowhere, 4, 2⟩
def R.LNS_FACET_STAT_CONTEXT (i : Nat) (j : Nat) (k : Nat) : Fld := ⟨if i < 16 ∧ j < 16 ∧ k < 4 then 0x500010000 + 0x1000000 * i + 0x1000 * j + 0x100 * k else RegMap.nowhere, 8, 8⟩
def R.LNS_FACET_STAT_PARTITION (i : Nat) (j : Nat) (k : Nat) : Fld := ⟨if i < 16 ∧ j < 16 ∧ k < 4 then 0x500010000 + 0x1000000 * i + 0x1000 * j + 0x100 * k else RegMap.nowhere, 16, 10⟩

/-- `LNS_RESCALE` (R337). -/
def RegMap.dLNS_RESCALE : RegDesc := ⟨0x500100000, [(16, 0x1000000), (16, 0x8000), (4096, 0x8)], 1,
  [⟨0, 32, 1, 0, .ro, 0x0⟩, ⟨32, 6, 1, 0, .ro, 0x0⟩]⟩

def R.LNS_RESCALE_MULT (i : Nat) (j : Nat) (k : Nat) : Fld := ⟨if i < 16 ∧ j < 16 ∧ k < 4096 then 0x500100000 + 0x1000000 * i + 0x8000 * j + 0x8 * k else RegMap.nowhere, 0, 32⟩
def R.LNS_RESCALE_SHIFT (i : Nat) (j : Nat) (k : Nat) : Fld := ⟨if i < 16 ∧ j < 16 ∧ k < 4096 then 0x500100000 + 0x1000000 * i + 0x8000 * j + 0x8 * k else RegMap.nowhere, 32, 6⟩

/-- `GRT_STAT` (R267). -/
def RegMap.dGRT_STAT : RegDesc := ⟨0x600000000, [(16, 0x100)], 1,
  [⟨0, 2, 1, 0, .ro, 0x0⟩, ⟨8, 8, 1, 0, .ro, 0x0⟩, ⟨16, 4, 1, 0, .ro, 0x0⟩, ⟨20, 4, 1, 0, .ro, 0x0⟩]⟩

def R.GRT_STAT_STATE (i : Nat) : Fld := ⟨if i < 16 then 0x600000000 + 0x100 * i else RegMap.nowhere, 0, 2⟩
def R.GRT_STAT_CONTEXT (i : Nat) : Fld := ⟨if i < 16 then 0x600000000 + 0x100 * i else RegMap.nowhere, 8, 8⟩
def R.GRT_STAT_A_BITS (i : Nat) : Fld := ⟨if i < 16 then 0x600000000 + 0x100 * i else RegMap.nowhere, 16, 4⟩
def R.GRT_STAT_W_BITS (i : Nat) : Fld := ⟨if i < 16 then 0x600000000 + 0x100 * i else RegMap.nowhere, 20, 4⟩

/-- `GRT_CHK_LOG` (R267). -/
def RegMap.dGRT_CHK_LOG : RegDesc := ⟨0x600000008, [(16, 0x100)], 1,
  [⟨0, 1, 1, 0, .w1c, 0x0⟩, ⟨1, 10, 1, 0, .ro, 0x0⟩, ⟨16, 8, 1, 0, .ro, 0x0⟩, ⟨32, 32, 1, 0, .ro, 0x0⟩]⟩

def R.GRT_CHK_LOG_VALID (i : Nat) : Fld := ⟨if i < 16 then 0x600000008 + 0x100 * i else RegMap.nowhere, 0, 1⟩
def R.GRT_CHK_LOG_VECTOR (i : Nat) : Fld := ⟨if i < 16 then 0x600000008 + 0x100 * i else RegMap.nowhere, 1, 10⟩
def R.GRT_CHK_LOG_CONTEXT (i : Nat) : Fld := ⟨if i < 16 then 0x600000008 + 0x100 * i else RegMap.nowhere, 16, 8⟩
def R.GRT_CHK_LOG_TICK (i : Nat) : Fld := ⟨if i < 16 then 0x600000008 + 0x100 * i else RegMap.nowhere, 32, 32⟩

/-- `GRT_RESCALE` (R337). -/
def RegMap.dGRT_RESCALE : RegDesc := ⟨0x600010000, [(16, 0x2000), (1024, 0x8)], 1,
  [⟨0, 32, 1, 0, .ro, 0x0⟩, ⟨32, 6, 1, 0, .ro, 0x0⟩]⟩

def R.GRT_RESCALE_MULT (i : Nat) (j : Nat) : Fld := ⟨if i < 16 ∧ j < 1024 then 0x600010000 + 0x2000 * i + 0x8 * j else RegMap.nowhere, 0, 32⟩
def R.GRT_RESCALE_SHIFT (i : Nat) (j : Nat) : Fld := ⟨if i < 16 ∧ j < 1024 then 0x600010000 + 0x2000 * i + 0x8 * j else RegMap.nowhere, 32, 6⟩

/-- `FOR_MODEL` (R366). -/
def RegMap.dFOR_MODEL : RegDesc := ⟨0x700000000, [(15, 0x10)], 2,
  [⟨0, 6, 1, 0, .ro, 0x0⟩, ⟨6, 6, 1, 0, .ro, 0x0⟩, ⟨12, 6, 1, 0, .ro, 0x0⟩, ⟨18, 9, 1, 0, .ro, 0x0⟩, ⟨27, 1, 1, 0, .ro, 0x0⟩, ⟨32, 16, 1, 0, .ro, 0x0⟩, ⟨48, 16, 1, 0, .ro, 0x0⟩, ⟨64, 52, 1, 0, .ro, 0x0⟩]⟩

def R.FOR_MODEL_STAGES (i : Nat) : Fld := ⟨if i < 15 then 0x700000000 + 0x10 * i else RegMap.nowhere, 0, 6⟩
def R.FOR_MODEL_REPLICAS (i : Nat) : Fld := ⟨if i < 15 then 0x700000000 + 0x10 * i else RegMap.nowhere, 6, 6⟩
def R.FOR_MODEL_REPLICAS_IMAGE (i : Nat) : Fld := ⟨if i < 15 then 0x700000000 + 0x10 * i else RegMap.nowhere, 12, 6⟩
def R.FOR_MODEL_FEATURES (i : Nat) : Fld := ⟨if i < 15 then 0x700000000 + 0x10 * i else RegMap.nowhere, 18, 9⟩
def R.FOR_MODEL_SHADOW_READY (i : Nat) : Fld := ⟨if i < 15 then 0x700000000 + 0x10 * i else RegMap.nowhere, 27, 1⟩
def R.FOR_MODEL_GEN_ACTIVE (i : Nat) : Fld := ⟨if i < 15 then 0x700000000 + 0x10 * i else RegMap.nowhere, 32, 16⟩
def R.FOR_MODEL_GEN_SHADOW (i : Nat) : Fld := ⟨if i < 15 then 0x700000000 + 0x10 * i else RegMap.nowhere, 48, 16⟩
def R.FOR_MODEL_OUT_BLOCK (i : Nat) : Fld := ⟨if i < 15 then 0x700000000 + 0x10 * i + 8 else RegMap.nowhere, 0, 52⟩

/-- `FOR_ENGINE_STAT` (R366). -/
def RegMap.dFOR_ENGINE_STAT : RegDesc := ⟨0x700001000, [(32, 0x100)], 1,
  [⟨0, 2, 1, 0, .ro, 0x0⟩, ⟨2, 1, 1, 0, .ro, 0x0⟩, ⟨3, 1, 1, 0, .ro, 0x0⟩, ⟨4, 4, 1, 0, .ro, 0xF⟩, ⟨8, 5, 1, 0, .ro, 0x0⟩, ⟨13, 5, 1, 0, .ro, 0x0⟩, ⟨18, 14, 1, 0, .ro, 0x0⟩, ⟨32, 11, 1, 0, .ro, 0x0⟩]⟩

def R.FOR_ENGINE_STAT_STATE (i : Nat) : Fld := ⟨if i < 32 then 0x700001000 + 0x100 * i else RegMap.nowhere, 0, 2⟩
def R.FOR_ENGINE_STAT_SHADOW_LOADING (i : Nat) : Fld := ⟨if i < 32 then 0x700001000 + 0x100 * i else RegMap.nowhere, 2, 1⟩
def R.FOR_ENGINE_STAT_WORD_BAD (i : Nat) : Fld := ⟨if i < 32 then 0x700001000 + 0x100 * i else RegMap.nowhere, 3, 1⟩
def R.FOR_ENGINE_STAT_MODEL (i : Nat) : Fld := ⟨if i < 32 then 0x700001000 + 0x100 * i else RegMap.nowhere, 4, 4⟩
def R.FOR_ENGINE_STAT_STAGE (i : Nat) : Fld := ⟨if i < 32 then 0x700001000 + 0x100 * i else RegMap.nowhere, 8, 5⟩
def R.FOR_ENGINE_STAT_REPLICA (i : Nat) : Fld := ⟨if i < 32 then 0x700001000 + 0x100 * i else RegMap.nowhere, 13, 5⟩
def R.FOR_ENGINE_STAT_NODES (i : Nat) : Fld := ⟨if i < 32 then 0x700001000 + 0x100 * i else RegMap.nowhere, 18, 14⟩
def R.FOR_ENGINE_STAT_TREES (i : Nat) : Fld := ⟨if i < 32 then 0x700001000 + 0x100 * i else RegMap.nowhere, 32, 11⟩

/-- `FOR_FEATURE` (R366). -/
def RegMap.dFOR_FEATURE : RegDesc := ⟨0x700100000, [(15, 0x800), (256, 0x8)], 1,
  [⟨0, 9, 1, 0, .ro, 0x0⟩, ⟨9, 3, 1, 0, .ro, 0x0⟩, ⟨12, 2, 1, 0, .ro, 0x0⟩, ⟨14, 1, 1, 0, .ro, 0x0⟩, ⟨15, 5, 1, 0, .ro, 0x0⟩, ⟨20, 1, 1, 0, .ro, 0x0⟩, ⟨21, 1, 1, 0, .ro, 0x0⟩, ⟨32, 32, 1, 0, .ro, 0x0⟩]⟩

def R.FOR_FEATURE_SRC_OFF (i : Nat) (j : Nat) : Fld := ⟨if i < 15 ∧ j < 256 then 0x700100000 + 0x800 * i + 0x8 * j else RegMap.nowhere, 0, 9⟩
def R.FOR_FEATURE_TYPE (i : Nat) (j : Nat) : Fld := ⟨if i < 15 ∧ j < 256 then 0x700100000 + 0x800 * i + 0x8 * j else RegMap.nowhere, 9, 3⟩
def R.FOR_FEATURE_WIDTH (i : Nat) (j : Nat) : Fld := ⟨if i < 15 ∧ j < 256 then 0x700100000 + 0x800 * i + 0x8 * j else RegMap.nowhere, 12, 2⟩
def R.FOR_FEATURE_ORDER (i : Nat) (j : Nat) : Fld := ⟨if i < 15 ∧ j < 256 then 0x700100000 + 0x800 * i + 0x8 * j else RegMap.nowhere, 14, 1⟩
def R.FOR_FEATURE_VALID_BIT (i : Nat) (j : Nat) : Fld := ⟨if i < 15 ∧ j < 256 then 0x700100000 + 0x800 * i + 0x8 * j else RegMap.nowhere, 15, 5⟩
def R.FOR_FEATURE_VALID_EN (i : Nat) (j : Nat) : Fld := ⟨if i < 15 ∧ j < 256 then 0x700100000 + 0x800 * i + 0x8 * j else RegMap.nowhere, 20, 1⟩
def R.FOR_FEATURE_SENT_EN (i : Nat) (j : Nat) : Fld := ⟨if i < 15 ∧ j < 256 then 0x700100000 + 0x800 * i + 0x8 * j else RegMap.nowhere, 21, 1⟩
def R.FOR_FEATURE_SENTINEL (i : Nat) (j : Nat) : Fld := ⟨if i < 15 ∧ j < 256 then 0x700100000 + 0x800 * i + 0x8 * j else RegMap.nowhere, 32, 32⟩

/-- `FOR_NODE` (R366). -/
def RegMap.dFOR_NODE : RegDesc := ⟨0x710000000, [(32, 0x10000), (8192, 0x8)], 1,
  [⟨0, 32, 1, 0, .ro, 0x0⟩, ⟨32, 8, 1, 0, .ro, 0x0⟩, ⟨40, 1, 1, 0, .ro, 0x0⟩, ⟨41, 1, 1, 0, .ro, 0x0⟩, ⟨42, 1, 1, 0, .ro, 0x0⟩, ⟨43, 8, 1, 0, .ro, 0x0⟩, ⟨51, 8, 1, 0, .ro, 0x0⟩]⟩

def R.FOR_NODE_THRESHOLD (i : Nat) (j : Nat) : Fld := ⟨if i < 32 ∧ j < 8192 then 0x710000000 + 0x10000 * i + 0x8 * j else RegMap.nowhere, 0, 32⟩
def R.FOR_NODE_FEATURE (i : Nat) (j : Nat) : Fld := ⟨if i < 32 ∧ j < 8192 then 0x710000000 + 0x10000 * i + 0x8 * j else RegMap.nowhere, 32, 8⟩
def R.FOR_NODE_DEFAULT_LEFT (i : Nat) (j : Nat) : Fld := ⟨if i < 32 ∧ j < 8192 then 0x710000000 + 0x10000 * i + 0x8 * j else RegMap.nowhere, 40, 1⟩
def R.FOR_NODE_CAT (i : Nat) (j : Nat) : Fld := ⟨if i < 32 ∧ j < 8192 then 0x710000000 + 0x10000 * i + 0x8 * j else RegMap.nowhere, 41, 1⟩
def R.FOR_NODE_VALID_NODE (i : Nat) (j : Nat) : Fld := ⟨if i < 32 ∧ j < 8192 then 0x710000000 + 0x10000 * i + 0x8 * j else RegMap.nowhere, 42, 1⟩
def R.FOR_NODE_LEAF_LO (i : Nat) (j : Nat) : Fld := ⟨if i < 32 ∧ j < 8192 then 0x710000000 + 0x10000 * i + 0x8 * j else RegMap.nowhere, 43, 8⟩
def R.FOR_NODE_LEAF_HI (i : Nat) (j : Nat) : Fld := ⟨if i < 32 ∧ j < 8192 then 0x710000000 + 0x10000 * i + 0x8 * j else RegMap.nowhere, 51, 8⟩

/-- `FOR_TREE` (R366). -/
def RegMap.dFOR_TREE : RegDesc := ⟨0x720000000, [(32, 0x2000), (1024, 0x8)], 1,
  [⟨0, 13, 1, 0, .ro, 0x0⟩, ⟨13, 8, 1, 0, .ro, 0x0⟩, ⟨21, 14, 1, 0, .ro, 0x0⟩, ⟨35, 9, 1, 0, .ro, 0x0⟩, ⟨44, 4, 1, 0, .ro, 0x0⟩, ⟨48, 1, 1, 0, .ro, 0x0⟩, ⟨49, 1, 1, 0, .ro, 0x0⟩]⟩

def R.FOR_TREE_NODE_BASE (i : Nat) (j : Nat) : Fld := ⟨if i < 32 ∧ j < 1024 then 0x720000000 + 0x2000 * i + 0x8 * j else RegMap.nowhere, 0, 13⟩
def R.FOR_TREE_NODE_COUNT (i : Nat) (j : Nat) : Fld := ⟨if i < 32 ∧ j < 1024 then 0x720000000 + 0x2000 * i + 0x8 * j else RegMap.nowhere, 13, 8⟩
def R.FOR_TREE_LEAF_BASE (i : Nat) (j : Nat) : Fld := ⟨if i < 32 ∧ j < 1024 then 0x720000000 + 0x2000 * i + 0x8 * j else RegMap.nowhere, 21, 14⟩
def R.FOR_TREE_LEAF_COUNT (i : Nat) (j : Nat) : Fld := ⟨if i < 32 ∧ j < 1024 then 0x720000000 + 0x2000 * i + 0x8 * j else RegMap.nowhere, 35, 9⟩
def R.FOR_TREE_LANE (i : Nat) (j : Nat) : Fld := ⟨if i < 32 ∧ j < 1024 then 0x720000000 + 0x2000 * i + 0x8 * j else RegMap.nowhere, 44, 4⟩
def R.FOR_TREE_ROOT (i : Nat) (j : Nat) : Fld := ⟨if i < 32 ∧ j < 1024 then 0x720000000 + 0x2000 * i + 0x8 * j else RegMap.nowhere, 48, 1⟩
def R.FOR_TREE_VALID (i : Nat) (j : Nat) : Fld := ⟨if i < 32 ∧ j < 1024 then 0x720000000 + 0x2000 * i + 0x8 * j else RegMap.nowhere, 49, 1⟩

/-- `FOR_LEAF` (R366). -/
def RegMap.dFOR_LEAF : RegDesc := ⟨0x730000000, [(32, 0x20000), (16384, 0x8)], 1,
  [⟨0, 32, 1, 0, .ro, 0x0⟩, ⟨32, 1, 1, 0, .ro, 0x0⟩, ⟨33, 10, 1, 0, .ro, 0x0⟩]⟩

def R.FOR_LEAF_VALUE (i : Nat) (j : Nat) : Fld := ⟨if i < 32 ∧ j < 16384 then 0x730000000 + 0x20000 * i + 0x8 * j else RegMap.nowhere, 0, 32⟩
def R.FOR_LEAF_CONT (i : Nat) (j : Nat) : Fld := ⟨if i < 32 ∧ j < 16384 then 0x730000000 + 0x20000 * i + 0x8 * j else RegMap.nowhere, 32, 1⟩
def R.FOR_LEAF_NEXT_TREE (i : Nat) (j : Nat) : Fld := ⟨if i < 32 ∧ j < 16384 then 0x730000000 + 0x20000 * i + 0x8 * j else RegMap.nowhere, 33, 10⟩

/-- `FOR_CATSET` (R366). -/
def RegMap.dFOR_CATSET : RegDesc := ⟨0x740000000, [(32, 0x8000), (1024, 0x20)], 4,
  [⟨0, 64, 4, 64, .ro, 0x0⟩]⟩

def R.FOR_CATSET_SET (i : Nat) (j : Nat) (n : Nat) : Fld := ⟨if i < 32 ∧ j < 1024 ∧ n < 4 then 0x740000000 + 0x8000 * i + 0x20 * j + 8 * n else RegMap.nowhere, 0, 64⟩

/-- `SEQ_MODEL` (R400). -/
def RegMap.dSEQ_MODEL : RegDesc := ⟨0x800000000, [(15, 0x10)], 2,
  [⟨0, 3, 1, 0, .ro, 0x0⟩, ⟨3, 1, 1, 0, .ro, 0x0⟩, ⟨4, 1, 1, 0, .ro, 0x0⟩, ⟨5, 1, 1, 0, .ro, 0x0⟩, ⟨8, 8, 1, 0, .ro, 0x0⟩, ⟨16, 16, 1, 0, .ro, 0x0⟩, ⟨32, 16, 1, 0, .ro, 0x0⟩, ⟨64, 32, 1, 0, .ro, 0x0⟩, ⟨96, 32, 1, 0, .ro, 0x0⟩]⟩

def R.SEQ_MODEL_GSTATE (i : Nat) : Fld := ⟨if i < 15 then 0x800000000 + 0x10 * i else RegMap.nowhere, 0, 3⟩
def R.SEQ_MODEL_SEQ_TIER (i : Nat) : Fld := ⟨if i < 15 then 0x800000000 + 0x10 * i else RegMap.nowhere, 3, 1⟩
def R.SEQ_MODEL_SWEEP_BUSY (i : Nat) : Fld := ⟨if i < 15 then 0x800000000 + 0x10 * i else RegMap.nowhere, 4, 1⟩
def R.SEQ_MODEL_PUBLISH_PENDING (i : Nat) : Fld := ⟨if i < 15 then 0x800000000 + 0x10 * i else RegMap.nowhere, 5, 1⟩
def R.SEQ_MODEL_LINEAGE (i : Nat) : Fld := ⟨if i < 15 then 0x800000000 + 0x10 * i else RegMap.nowhere, 8, 8⟩
def R.SEQ_MODEL_GEN_CURRENT (i : Nat) : Fld := ⟨if i < 15 then 0x800000000 + 0x10 * i else RegMap.nowhere, 16, 16⟩
def R.SEQ_MODEL_GEN_RETIRING (i : Nat) : Fld := ⟨if i < 15 then 0x800000000 + 0x10 * i else RegMap.nowhere, 32, 16⟩
def R.SEQ_MODEL_SWAP_TICK (i : Nat) : Fld := ⟨if i < 15 then 0x800000000 + 0x10 * i + 8 else RegMap.nowhere, 0, 32⟩
def R.SEQ_MODEL_STATE_SIG (i : Nat) : Fld := ⟨if i < 15 then 0x800000000 + 0x10 * i + 8 else RegMap.nowhere, 32, 32⟩

/-- `SEQ_DECIM` (R400). -/
def RegMap.dSEQ_DECIM : RegDesc := ⟨0x800000100, [(15, 0x8)], 1,
  [⟨0, 16, 1, 0, .ro, 0x0⟩]⟩

def R.SEQ_DECIM_GAP_TICKS (i : Nat) : Fld := ⟨if i < 15 then 0x800000100 + 0x8 * i else RegMap.nowhere, 0, 16⟩

/-- `SEQ_LEARN_CFG` (R400). -/
def RegMap.dSEQ_LEARN_CFG : RegDesc := ⟨0x800000200, [(15, 0x8)], 1,
  [⟨0, 1, 1, 0, .rw, 0x0⟩, ⟨1, 2, 1, 0, .ro, 0x0⟩, ⟨4, 4, 1, 0, .rw, 0x8⟩, ⟨8, 8, 1, 0, .rw, 0x40⟩, ⟨16, 16, 1, 0, .rw, 0x100⟩, ⟨32, 32, 1, 0, .rw, 0x3A83126F⟩]⟩

def R.SEQ_LEARN_CFG_LEARN_EN (i : Nat) : Fld := ⟨if i < 15 then 0x800000200 + 0x8 * i else RegMap.nowhere, 0, 1⟩
def R.SEQ_LEARN_CFG_TARGET_KIND (i : Nat) : Fld := ⟨if i < 15 then 0x800000200 + 0x8 * i else RegMap.nowhere, 1, 2⟩
def R.SEQ_LEARN_CFG_STEP_LOG2 (i : Nat) : Fld := ⟨if i < 15 then 0x800000200 + 0x8 * i else RegMap.nowhere, 4, 4⟩
def R.SEQ_LEARN_CFG_STEP_MAX_TICKS (i : Nat) : Fld := ⟨if i < 15 then 0x800000200 + 0x8 * i else RegMap.nowhere, 8, 8⟩
def R.SEQ_LEARN_CFG_PUBLISH_STEPS (i : Nat) : Fld := ⟨if i < 15 then 0x800000200 + 0x8 * i else RegMap.nowhere, 16, 16⟩
def R.SEQ_LEARN_CFG_LR (i : Nat) : Fld := ⟨if i < 15 then 0x800000200 + 0x8 * i else RegMap.nowhere, 32, 32⟩

/-- `SEQ_STAGE_STAT` (R400). -/
def RegMap.dSEQ_STAGE_STAT : RegDesc := ⟨0x800000300, [], 1,
  [⟨0, 1, 1, 0, .ro, 0x0⟩, ⟨1, 4, 1, 0, .ro, 0x0⟩, ⟨8, 8, 1, 0, .w1c, 0x0⟩, ⟨16, 22, 1, 0, .ro, 0x0⟩]⟩

def R.SEQ_STAGE_STAT_OPEN : Fld := ⟨0x800000300, 0, 1⟩
def R.SEQ_STAGE_STAT_MODEL : Fld := ⟨0x800000300, 1, 4⟩
def R.SEQ_STAGE_STAT_FAIL_CODE : Fld := ⟨0x800000300, 8, 8⟩
def R.SEQ_STAGE_STAT_KIB_RECEIVED : Fld := ⟨0x800000300, 16, 22⟩

/-- `SEQ_RING_STAT` (R400). -/
def RegMap.dSEQ_RING_STAT : RegDesc := ⟨0x800000310, [], 1,
  [⟨0, 19, 1, 0, .ro, 0x0⟩, ⟨32, 19, 1, 0, .rc, 0x0⟩]⟩

def R.SEQ_RING_STAT_OCC : Fld := ⟨0x800000310, 0, 19⟩
def R.SEQ_RING_STAT_PEAK : Fld := ⟨0x800000310, 32, 19⟩

/-- `TKP_PLAN_CFG` (R430). -/
def RegMap.dTKP_PLAN_CFG : RegDesc := ⟨0x900000100, [], 1,
  [⟨0, 10, 1, 0, .rw, 0x200⟩, ⟨16, 8, 1, 0, .rw, 0x80⟩, ⟨24, 8, 1, 0, .rw, 0x28⟩, ⟨32, 16, 1, 0, .rw, 0x3E8⟩]⟩

def R.TKP_PLAN_CFG_GROUP_MAX : Fld := ⟨0x900000100, 0, 10⟩
def R.TKP_PLAN_CFG_GROUP_NS : Fld := ⟨0x900000100, 16, 8⟩
def R.TKP_PLAN_CFG_GUARD_NS : Fld := ⟨0x900000100, 24, 8⟩
def R.TKP_PLAN_CFG_DECIM_HOLD : Fld := ⟨0x900000100, 32, 16⟩

/-- `TKP_ESC` (R430). -/
def RegMap.dTKP_ESC : RegDesc := ⟨0x900001000, [(15, 0x20)], 3,
  [⟨0, 32, 1, 0, .rw, 0x0⟩, ⟨32, 32, 1, 0, .rw, 0x0⟩, ⟨64, 32, 1, 0, .rw, 0x0⟩, ⟨96, 32, 1, 0, .rw, 0x0⟩, ⟨128, 4, 1, 0, .rw, 0x0⟩, ⟨132, 1, 1, 0, .ro, 0x0⟩, ⟨133, 1, 1, 0, .ro, 0x0⟩, ⟨134, 1, 1, 0, .ro, 0x0⟩, ⟨135, 1, 1, 0, .ro, 0x0⟩, ⟨136, 1, 1, 0, .ro, 0x0⟩]⟩

def R.TKP_ESC_B1_LO (i : Nat) : Fld := ⟨if i < 15 then 0x900001000 + 0x20 * i else RegMap.nowhere, 0, 32⟩
def R.TKP_ESC_B1_HI (i : Nat) : Fld := ⟨if i < 15 then 0x900001000 + 0x20 * i else RegMap.nowhere, 32, 32⟩
def R.TKP_ESC_B2_LO (i : Nat) : Fld := ⟨if i < 15 then 0x900001000 + 0x20 * i + 8 else RegMap.nowhere, 0, 32⟩
def R.TKP_ESC_B2_HI (i : Nat) : Fld := ⟨if i < 15 then 0x900001000 + 0x20 * i + 8 else RegMap.nowhere, 32, 32⟩
def R.TKP_ESC_PRIO (i : Nat) : Fld := ⟨if i < 15 then 0x900001000 + 0x20 * i + 16 else RegMap.nowhere, 0, 4⟩
def R.TKP_ESC_T1_PRESENT (i : Nat) : Fld := ⟨if i < 15 then 0x900001000 + 0x20 * i + 16 else RegMap.nowhere, 4, 1⟩
def R.TKP_ESC_T2_PRESENT (i : Nat) : Fld := ⟨if i < 15 then 0x900001000 + 0x20 * i + 16 else RegMap.nowhere, 5, 1⟩
def R.TKP_ESC_T2_EVERY (i : Nat) : Fld := ⟨if i < 15 then 0x900001000 + 0x20 * i + 16 else RegMap.nowhere, 6, 1⟩
def R.TKP_ESC_T1_REMOTE (i : Nat) : Fld := ⟨if i < 15 then 0x900001000 + 0x20 * i + 16 else RegMap.nowhere, 7, 1⟩
def R.TKP_ESC_T2_REMOTE (i : Nat) : Fld := ⟨if i < 15 then 0x900001000 + 0x20 * i + 16 else RegMap.nowhere, 8, 1⟩

/-- `TKP_ENERGY` (R430). -/
def RegMap.dTKP_ENERGY : RegDesc := ⟨0x900002000, [(15, 0x20), (4, 0x8)], 1,
  [⟨0, 32, 1, 0, .ro, 0x0⟩, ⟨32, 24, 1, 0, .ro, 0x0⟩]⟩

def R.TKP_ENERGY_E_UJ (i : Nat) (j : Nat) : Fld := ⟨if i < 15 ∧ j < 4 then 0x900002000 + 0x20 * i + 0x8 * j else RegMap.nowhere, 0, 32⟩
def R.TKP_ENERGY_CAP (i : Nat) (j : Nat) : Fld := ⟨if i < 15 ∧ j < 4 then 0x900002000 + 0x20 * i + 0x8 * j else RegMap.nowhere, 32, 24⟩

/-- `APR_CFG` (R430). -/
def RegMap.dAPR_CFG : RegDesc := ⟨0x900010000, [], 1,
  [⟨0, 10, 1, 0, .rw, 0x230⟩, ⟨16, 7, 1, 0, .rw, 0x5F⟩, ⟨24, 7, 1, 0, .rw, 0x55⟩]⟩

def R.APR_CFG_BUDGET_W : Fld := ⟨0x900010000, 0, 10⟩
def R.APR_CFG_SOFT_COMPUTE_C : Fld := ⟨0x900010000, 16, 7⟩
def R.APR_CFG_SOFT_DRAM_C : Fld := ⟨0x900010000, 24, 7⟩

/-- `APR_STAT` (R430). -/
def RegMap.dAPR_STAT : RegDesc := ⟨0x900010008, [], 1,
  [⟨0, 10, 1, 0, .ro, 0x230⟩, ⟨10, 1, 1, 0, .ro, 0x0⟩, ⟨11, 1, 1, 0, .ro, 0x0⟩, ⟨12, 1, 1, 0, .w1c, 0x0⟩, ⟨13, 1, 1, 0, .w1c, 0x0⟩]⟩

def R.APR_STAT_TARGET_W : Fld := ⟨0x900010008, 0, 10⟩
def R.APR_STAT_SOFT_ACTIVE : Fld := ⟨0x900010008, 10, 1⟩
def R.APR_STAT_THROTTLE : Fld := ⟨0x900010008, 11, 1⟩
def R.APR_STAT_THROTTLE_SEEN : Fld := ⟨0x900010008, 12, 1⟩
def R.APR_STAT_SOFT_SEEN : Fld := ⟨0x900010008, 13, 1⟩

/-- `APR_CREDIT` (R430). -/
def RegMap.dAPR_CREDIT : RegDesc := ⟨0x900010010, [], 1,
  [⟨0, 32, 1, 0, .ro, 0x0⟩, ⟨32, 32, 1, 0, .ro, 0x0⟩]⟩

def R.APR_CREDIT_CREDIT_UJ : Fld := ⟨0x900010010, 0, 32⟩
def R.APR_CREDIT_FIXED_W : Fld := ⟨0x900010010, 32, 32⟩

/-- `APR_WINDOW` (R430). -/
def RegMap.dAPR_WINDOW : RegDesc := ⟨0x900010018, [], 1,
  [⟨0, 32, 1, 0, .ro, 0x0⟩, ⟨32, 32, 1, 0, .ro, 0x0⟩]⟩

def R.APR_WINDOW_LEFT_UJ : Fld := ⟨0x900010018, 0, 32⟩
def R.APR_WINDOW_DEBT_UJ : Fld := ⟨0x900010018, 32, 32⟩

/-- `APR_TEMP` (R430). -/
def RegMap.dAPR_TEMP : RegDesc := ⟨0x900010020, [], 1,
  [⟨0, 8, 1, 0, .ro, 0x0⟩, ⟨8, 8, 1, 0, .ro, 0x0⟩, ⟨16, 8, 1, 0, .rc, 0x0⟩, ⟨24, 8, 1, 0, .rc, 0x0⟩]⟩

def R.APR_TEMP_COMPUTE_MAX_C : Fld := ⟨0x900010020, 0, 8⟩
def R.APR_TEMP_DRAM_MAX_C : Fld := ⟨0x900010020, 8, 8⟩
def R.APR_TEMP_COMPUTE_PEAK_C : Fld := ⟨0x900010020, 16, 8⟩
def R.APR_TEMP_DRAM_PEAK_C : Fld := ⟨0x900010020, 24, 8⟩

/-- `SYN_CTX_CFG` (R469). -/
def RegMap.dSYN_CTX_CFG : RegDesc := ⟨0xA00000000, [(256, 0x8)], 1,
  [⟨0, 13, 1, 0, .rw, 0x4⟩]⟩

def R.SYN_CTX_CFG_WDOG_TICKS (i : Nat) : Fld := ⟨if i < 256 then 0xA00000000 + 0x8 * i else RegMap.nowhere, 0, 13⟩

/-- `SYN_CTX_CTL` (R469). -/
def RegMap.dSYN_CTX_CTL : RegDesc := ⟨0xA00001000, [(256, 0x8)], 1,
  [⟨0, 1, 1, 0, .wo, 0x0⟩]⟩

def R.SYN_CTX_CTL_RESTART (i : Nat) : Fld := ⟨if i < 256 then 0xA00001000 + 0x8 * i else RegMap.nowhere, 0, 1⟩

/-- `SYN_CTX_STAT` (R469). -/
def RegMap.dSYN_CTX_STAT : RegDesc := ⟨0xA00000800, [(256, 0x8)], 1,
  [⟨0, 2, 1, 0, .ro, 0x0⟩, ⟨2, 4, 1, 0, .ro, 0x0⟩, ⟨6, 1, 1, 0, .ro, 0x0⟩, ⟨8, 5, 1, 0, .ro, 0x0⟩, ⟨16, 16, 1, 0, .ro, 0x0⟩, ⟨32, 32, 1, 0, .ro, 0x0⟩]⟩

def R.SYN_CTX_STAT_STATE (i : Nat) : Fld := ⟨if i < 256 then 0xA00000800 + 0x8 * i else RegMap.nowhere, 0, 2⟩
def R.SYN_CTX_STAT_CAUSE (i : Nat) : Fld := ⟨if i < 256 then 0xA00000800 + 0x8 * i else RegMap.nowhere, 2, 4⟩
def R.SYN_CTX_STAT_STEPPING (i : Nat) : Fld := ⟨if i < 256 then 0xA00000800 + 0x8 * i else RegMap.nowhere, 6, 1⟩
def R.SYN_CTX_STAT_SNAP_COUNT (i : Nat) : Fld := ⟨if i < 256 then 0xA00000800 + 0x8 * i else RegMap.nowhere, 8, 5⟩
def R.SYN_CTX_STAT_FAULTS (i : Nat) : Fld := ⟨if i < 256 then 0xA00000800 + 0x8 * i else RegMap.nowhere, 16, 16⟩
def R.SYN_CTX_STAT_FAULT_TICK (i : Nat) : Fld := ⟨if i < 256 then 0xA00000800 + 0x8 * i else RegMap.nowhere, 32, 32⟩

/-- `SYN_MAP` (R469). -/
def RegMap.dSYN_MAP : RegDesc := ⟨0xA00010000, [(256, 0x800), (256, 0x8)], 1,
  [⟨0, 10, 1, 0, .ro, 0x0⟩, ⟨10, 1, 1, 0, .ro, 0x0⟩]⟩

def R.SYN_MAP_PAGE (i : Nat) (j : Nat) : Fld := ⟨if i < 256 ∧ j < 256 then 0xA00010000 + 0x800 * i + 0x8 * j else RegMap.nowhere, 0, 10⟩
def R.SYN_MAP_VALID (i : Nat) (j : Nat) : Fld := ⟨if i < 256 ∧ j < 256 then 0xA00010000 + 0x800 * i + 0x8 * j else RegMap.nowhere, 10, 1⟩

/-- `SYN_CTR` (R469). -/
def RegMap.dSYN_CTR : RegDesc := ⟨0xA10000000, [(256, 0x80000), (65536, 0x8)], 1,
  [⟨0, 16, 1, 0, .rw, 0x0⟩, ⟨16, 8, 1, 0, .ro, 0x0⟩, ⟨24, 1, 1, 0, .ro, 0x0⟩, ⟨32, 16, 1, 0, .ro, 0xFFFF⟩]⟩

def R.SYN_CTR_VALUE (i : Nat) (j : Nat) : Fld := ⟨if i < 256 ∧ j < 65536 then 0xA10000000 + 0x80000 * i + 0x8 * j else RegMap.nowhere, 0, 16⟩
def R.SYN_CTR_WAITERS (i : Nat) (j : Nat) : Fld := ⟨if i < 256 ∧ j < 65536 then 0xA10000000 + 0x80000 * i + 0x8 * j else RegMap.nowhere, 16, 8⟩
def R.SYN_CTR_MAPPED (i : Nat) (j : Nat) : Fld := ⟨if i < 256 ∧ j < 65536 then 0xA10000000 + 0x80000 * i + 0x8 * j else RegMap.nowhere, 24, 1⟩
def R.SYN_CTR_LAST_SIGNALLER (i : Nat) (j : Nat) : Fld := ⟨if i < 256 ∧ j < 65536 then 0xA10000000 + 0x80000 * i + 0x8 * j else RegMap.nowhere, 32, 16⟩

/-- `SYN_PIN` (R469). -/
def RegMap.dSYN_PIN : RegDesc := ⟨0xA20000000, [(256, 0x200), (48, 0x8)], 1,
  [⟨0, 1, 1, 0, .ro, 0x0⟩, ⟨1, 1, 1, 0, .ro, 0x0⟩, ⟨2, 8, 1, 0, .ro, 0x0⟩, ⟨10, 1, 1, 0, .ro, 0x0⟩, ⟨16, 16, 1, 0, .ro, 0xFFFF⟩]⟩

def R.SYN_PIN_SET (i : Nat) (j : Nat) : Fld := ⟨if i < 256 ∧ j < 48 then 0xA20000000 + 0x200 * i + 0x8 * j else RegMap.nowhere, 0, 1⟩
def R.SYN_PIN_ALLOCATED (i : Nat) (j : Nat) : Fld := ⟨if i < 256 ∧ j < 48 then 0xA20000000 + 0x200 * i + 0x8 * j else RegMap.nowhere, 1, 1⟩
def R.SYN_PIN_CONTEXT (i : Nat) (j : Nat) : Fld := ⟨if i < 256 ∧ j < 48 then 0xA20000000 + 0x200 * i + 0x8 * j else RegMap.nowhere, 2, 8⟩
def R.SYN_PIN_WAITING (i : Nat) (j : Nat) : Fld := ⟨if i < 256 ∧ j < 48 then 0xA20000000 + 0x200 * i + 0x8 * j else RegMap.nowhere, 10, 1⟩
def R.SYN_PIN_LAST_SIGNALLER (i : Nat) (j : Nat) : Fld := ⟨if i < 256 ∧ j < 48 then 0xA20000000 + 0x200 * i + 0x8 * j else RegMap.nowhere, 16, 16⟩

/-- `SYN_BAR` (R469). -/
def RegMap.dSYN_BAR : RegDesc := ⟨0xA30000000, [(16, 0x40)], 6,
  [⟨0, 1, 1, 0, .ro, 0x0⟩, ⟨1, 8, 1, 0, .ro, 0x0⟩, ⟨9, 1, 1, 0, .ro, 0x0⟩, ⟨10, 9, 1, 0, .ro, 0x0⟩, ⟨19, 9, 1, 0, .ro, 0x0⟩, ⟨32, 32, 1, 0, .ro, 0x0⟩, ⟨64, 64, 4, 64, .ro, 0x0⟩, ⟨320, 16, 1, 0, .ro, 0x0⟩]⟩

def R.SYN_BAR_ALLOCATED (i : Nat) : Fld := ⟨if i < 16 then 0xA30000000 + 0x40 * i else RegMap.nowhere, 0, 1⟩
def R.SYN_BAR_CONTEXT (i : Nat) : Fld := ⟨if i < 16 then 0xA30000000 + 0x40 * i else RegMap.nowhere, 1, 8⟩
def R.SYN_BAR_BOARD (i : Nat) : Fld := ⟨if i < 16 then 0xA30000000 + 0x40 * i else RegMap.nowhere, 9, 1⟩
def R.SYN_BAR_MEMBERS (i : Nat) : Fld := ⟨if i < 16 then 0xA30000000 + 0x40 * i else RegMap.nowhere, 10, 9⟩
def R.SYN_BAR_ARRIVED (i : Nat) : Fld := ⟨if i < 16 then 0xA30000000 + 0x40 * i else RegMap.nowhere, 19, 9⟩
def R.SYN_BAR_GENERATION (i : Nat) : Fld := ⟨if i < 16 then 0xA30000000 + 0x40 * i else RegMap.nowhere, 32, 32⟩
def R.SYN_BAR_MASK_CORES (i : Nat) (n : Nat) : Fld := ⟨if i < 16 ∧ n < 4 then 0xA30000000 + 0x40 * i + 8 + 8 * n else RegMap.nowhere, 0, 64⟩
def R.SYN_BAR_MASK_GRT (i : Nat) : Fld := ⟨if i < 16 then 0xA30000000 + 0x40 * i + 40 else RegMap.nowhere, 0, 16⟩

/-- `SYN_SNAP` (R469). -/
def RegMap.dSYN_SNAP : RegDesc := ⟨0xA40000000, [(256, 0x200), (16, 0x20)], 4,
  [⟨0, 64, 4, 64, .ro, 0x0⟩]⟩

def R.SYN_SNAP_ENTRY (i : Nat) (j : Nat) (n : Nat) : Fld := ⟨if i < 256 ∧ j < 16 ∧ n < 4 then 0xA40000000 + 0x200 * i + 0x20 * j + 8 * n else RegMap.nowhere, 0, 64⟩

/-- `QUE_DESC` (R470). -/
def RegMap.dQUE_DESC : RegDesc := ⟨0xB00000000, [(4096, 0x20)], 3,
  [⟨0, 1, 1, 0, .ro, 0x0⟩, ⟨1, 8, 1, 0, .ro, 0x0⟩, ⟨9, 5, 1, 0, .ro, 0x0⟩, ⟨14, 1, 1, 0, .ro, 0x0⟩, ⟨15, 1, 1, 0, .ro, 0x0⟩, ⟨16, 16, 1, 0, .ro, 0x0⟩, ⟨32, 16, 1, 0, .ro, 0x0⟩, ⟨64, 16, 1, 0, .rw, 0x0⟩, ⟨80, 15, 1, 0, .rw, 0x0⟩, ⟨128, 52, 1, 0, .ro, 0x0⟩]⟩

def R.QUE_DESC_ENABLE (i : Nat) : Fld := ⟨if i < 4096 then 0xB00000000 + 0x20 * i else RegMap.nowhere, 0, 1⟩
def R.QUE_DESC_CONTEXT (i : Nat) : Fld := ⟨if i < 4096 then 0xB00000000 + 0x20 * i else RegMap.nowhere, 1, 8⟩
def R.QUE_DESC_SPILL_64K (i : Nat) : Fld := ⟨if i < 4096 then 0xB00000000 + 0x20 * i else RegMap.nowhere, 9, 5⟩
def R.QUE_DESC_ITEM_NOTICE (i : Nat) : Fld := ⟨if i < 4096 then 0xB00000000 + 0x20 * i else RegMap.nowhere, 14, 1⟩
def R.QUE_DESC_EVENT_EN (i : Nat) : Fld := ⟨if i < 4096 then 0xB00000000 + 0x20 * i else RegMap.nowhere, 15, 1⟩
def R.QUE_DESC_NOTICE_CTR (i : Nat) : Fld := ⟨if i < 4096 then 0xB00000000 + 0x20 * i else RegMap.nowhere, 16, 16⟩
def R.QUE_DESC_EVENT_CTR (i : Nat) : Fld := ⟨if i < 4096 then 0xB00000000 + 0x20 * i else RegMap.nowhere, 32, 16⟩
def R.QUE_DESC_TIMEOUT_NS (i : Nat) : Fld := ⟨if i < 4096 then 0xB00000000 + 0x20 * i + 8 else RegMap.nowhere, 0, 16⟩
def R.QUE_DESC_WM_LEVEL (i : Nat) : Fld := ⟨if i < 4096 then 0xB00000000 + 0x20 * i + 8 else RegMap.nowhere, 16, 15⟩
def R.QUE_DESC_SPILL_BASE (i : Nat) : Fld := ⟨if i < 4096 then 0xB00000000 + 0x20 * i + 16 else RegMap.nowhere, 0, 52⟩

/-- `QUE_STAT` (R470). -/
def RegMap.dQUE_STAT : RegDesc := ⟨0xB00020000, [(4096, 0x8)], 1,
  [⟨0, 15, 1, 0, .ro, 0x0⟩, ⟨15, 1, 1, 0, .ro, 0x1⟩, ⟨16, 1, 1, 0, .ro, 0x0⟩, ⟨17, 1, 1, 0, .w1c, 0x0⟩, ⟨18, 1, 1, 0, .w1c, 0x0⟩, ⟨19, 1, 1, 0, .w1c, 0x0⟩, ⟨20, 1, 1, 0, .ro, 0x0⟩, ⟨21, 1, 1, 0, .ro, 0x0⟩, ⟨22, 1, 1, 0, .ro, 0x0⟩, ⟨23, 1, 1, 0, .ro, 0x0⟩, ⟨24, 16, 1, 0, .ro, 0x0⟩, ⟨40, 15, 1, 0, .ro, 0x0⟩]⟩

def R.QUE_STAT_LEVEL (i : Nat) : Fld := ⟨if i < 4096 then 0xB00020000 + 0x8 * i else RegMap.nowhere, 0, 15⟩
def R.QUE_STAT_EMPTY (i : Nat) : Fld := ⟨if i < 4096 then 0xB00020000 + 0x8 * i else RegMap.nowhere, 15, 1⟩
def R.QUE_STAT_FULL (i : Nat) : Fld := ⟨if i < 4096 then 0xB00020000 + 0x8 * i else RegMap.nowhere, 16, 1⟩
def R.QUE_STAT_UNDERRUN (i : Nat) : Fld := ⟨if i < 4096 then 0xB00020000 + 0x8 * i else RegMap.nowhere, 17, 1⟩
def R.QUE_STAT_WM_HIT (i : Nat) : Fld := ⟨if i < 4096 then 0xB00020000 + 0x8 * i else RegMap.nowhere, 18, 1⟩
def R.QUE_STAT_TIMEOUT_HIT (i : Nat) : Fld := ⟨if i < 4096 then 0xB00020000 + 0x8 * i else RegMap.nowhere, 19, 1⟩
def R.QUE_STAT_ITEM_OPEN (i : Nat) : Fld := ⟨if i < 4096 then 0xB00020000 + 0x8 * i else RegMap.nowhere, 20, 1⟩
def R.QUE_STAT_DISCARDING (i : Nat) : Fld := ⟨if i < 4096 then 0xB00020000 + 0x8 * i else RegMap.nowhere, 21, 1⟩
def R.QUE_STAT_FLUSH_PENDING (i : Nat) : Fld := ⟨if i < 4096 then 0xB00020000 + 0x8 * i else RegMap.nowhere, 22, 1⟩
def R.QUE_STAT_CONS_MID_ITEM (i : Nat) : Fld := ⟨if i < 4096 then 0xB00020000 + 0x8 * i else RegMap.nowhere, 23, 1⟩
def R.QUE_STAT_WM_CROSSINGS (i : Nat) : Fld := ⟨if i < 4096 then 0xB00020000 + 0x8 * i else RegMap.nowhere, 24, 16⟩
def R.QUE_STAT_WM_MAX (i : Nat) : Fld := ⟨if i < 4096 then 0xB00020000 + 0x8 * i else RegMap.nowhere, 40, 15⟩

/-- `QUE_CTL` (R470). -/
def RegMap.dQUE_CTL : RegDesc := ⟨0xB00030000, [(4096, 0x8)], 1,
  [⟨0, 1, 1, 0, .wo, 0x0⟩]⟩

def R.QUE_CTL_FLUSH (i : Nat) : Fld := ⟨if i < 4096 then 0xB00030000 + 0x8 * i else RegMap.nowhere, 0, 1⟩

/-- `MEM_CFG` (R512). -/
def RegMap.dMEM_CFG : RegDesc := ⟨0xC00000000, [], 1,
  [⟨0, 12, 1, 0, .ro, 0x0⟩, ⟨12, 1, 1, 0, .rw, 0x0⟩, ⟨16, 14, 1, 0, .rw, 0x64⟩]⟩

def R.MEM_CFG_DEVICE_ID : Fld := ⟨0xC00000000, 0, 12⟩
def R.MEM_CFG_REMOTE_EN : Fld := ⟨0xC00000000, 12, 1⟩
def R.MEM_CFG_RMT_TIMEOUT_US : Fld := ⟨0xC00000000, 16, 14⟩

/-- `MEM_MAP_INFO` (R512). -/
def RegMap.dMEM_MAP_INFO : RegDesc := ⟨0xC00000008, [], 1,
  [⟨0, 10, 1, 0, .ro, 0x0⟩, ⟨10, 10, 1, 0, .ro, 0x0⟩, ⟨20, 1, 1, 0, .ro, 0x0⟩, ⟨24, 16, 1, 0, .ro, 0x0⟩]⟩

def R.MEM_MAP_INFO_LIVE_CHANNELS : Fld := ⟨0xC00000008, 0, 10⟩
def R.MEM_MAP_INFO_RETIRED : Fld := ⟨0xC00000008, 10, 10⟩
def R.MEM_MAP_INFO_RESET_ADVISED : Fld := ⟨0xC00000008, 20, 1⟩
def R.MEM_MAP_INFO_GENERAL_MIB : Fld := ⟨0xC00000008, 24, 16⟩

/-- `MEM_HALL_CFG` (R512). -/
def RegMap.dMEM_HALL_CFG : RegDesc := ⟨0xC00000010, [], 1,
  [⟨0, 24, 1, 0, .ro, 0x0⟩, ⟨24, 14, 1, 0, .ro, 0x2400⟩, ⟨40, 8, 1, 0, .rw, 0xA⟩]⟩

def R.MEM_HALL_CFG_HALL_PREFIX : Fld := ⟨0xC00000010, 0, 24⟩
def R.MEM_HALL_CFG_HALL_MTU : Fld := ⟨0xC00000010, 24, 14⟩
def R.MEM_HALL_CFG_RETX_US : Fld := ⟨0xC00000010, 40, 8⟩

/-- `MEM_WIPE_STAT` (R512). -/
def RegMap.dMEM_WIPE_STAT : RegDesc := ⟨0xC00000018, [], 1,
  [⟨0, 1, 1, 0, .ro, 0x0⟩, ⟨1, 1, 1, 0, .ro, 0x0⟩, ⟨2, 1, 1, 0, .ro, 0x0⟩, ⟨16, 16, 1, 0, .ro, 0x0⟩]⟩

def R.MEM_WIPE_STAT_DRAM_DONE : Fld := ⟨0xC00000018, 0, 1⟩
def R.MEM_WIPE_STAT_SRAM_DONE : Fld := ⟨0xC00000018, 1, 1⟩
def R.MEM_WIPE_STAT_WIPE_SLOW : Fld := ⟨0xC00000018, 2, 1⟩
def R.MEM_WIPE_STAT_WIPE_US : Fld := ⟨0xC00000018, 16, 16⟩

/-- `MIR_ROUTE` (R512). -/
def RegMap.dMIR_ROUTE : RegDesc := ⟨0xC00000020, [], 1,
  [⟨0, 2, 8, 4, .ro, 0x0⟩, ⟨2, 1, 8, 4, .ro, 0x0⟩, ⟨3, 1, 8, 4, .ro, 0x0⟩]⟩

def R.MIR_ROUTE_LINK (n : Nat) : Fld := ⟨if n < 8 then 0xC00000020 else RegMap.nowhere, 4 * n, 2⟩
def R.MIR_ROUTE_VIA (n : Nat) : Fld := ⟨if n < 8 then 0xC00000020 else RegMap.nowhere, 2 + 4 * n, 1⟩
def R.MIR_ROUTE_VALID (n : Nat) : Fld := ⟨if n < 8 then 0xC00000020 else RegMap.nowhere, 3 + 4 * n, 1⟩

/-- `MEM_REFRESH` (R512). -/
def RegMap.dMEM_REFRESH : RegDesc := ⟨0xC00000040, [(4, 0x8)], 1,
  [⟨0, 1, 1, 0, .ro, 0x0⟩, ⟨1, 8, 1, 0, .ro, 0x0⟩]⟩

def R.MEM_REFRESH_DOUBLE (i : Nat) : Fld := ⟨if i < 4 then 0xC00000040 + 0x8 * i else RegMap.nowhere, 0, 1⟩
def R.MEM_REFRESH_HOT_C (i : Nat) : Fld := ⟨if i < 4 then 0xC00000040 + 0x8 * i else RegMap.nowhere, 1, 8⟩

/-- `MEM_CHAN_STAT` (R512). -/
def RegMap.dMEM_CHAN_STAT : RegDesc := ⟨0xC00010000, [(512, 0x8)], 1,
  [⟨0, 2, 1, 0, .ro, 0x0⟩, ⟨2, 2, 1, 0, .ro, 0x0⟩]⟩

def R.MEM_CHAN_STAT_STATE (i : Nat) : Fld := ⟨if i < 512 then 0xC00010000 + 0x8 * i else RegMap.nowhere, 0, 2⟩
def R.MEM_CHAN_STAT_CAUSE (i : Nat) : Fld := ⟨if i < 512 then 0xC00010000 + 0x8 * i else RegMap.nowhere, 2, 2⟩

/-- `MIR_CFG` (R512). -/
def RegMap.dMIR_CFG : RegDesc := ⟨0xC00020000, [(4, 0x100)], 1,
  [⟨0, 1, 1, 0, .ro, 0x0⟩, ⟨1, 12, 1, 0, .ro, 0x0⟩, ⟨13, 4, 1, 0, .ro, 0x0⟩, ⟨17, 4, 1, 0, .ro, 0x0⟩]⟩

def R.MIR_CFG_EN (i : Nat) : Fld := ⟨if i < 4 then 0xC00020000 + 0x100 * i else RegMap.nowhere, 0, 1⟩
def R.MIR_CFG_PEER_ID (i : Nat) : Fld := ⟨if i < 4 then 0xC00020000 + 0x100 * i else RegMap.nowhere, 1, 12⟩
def R.MIR_CFG_RX_INV (i : Nat) : Fld := ⟨if i < 4 then 0xC00020000 + 0x100 * i else RegMap.nowhere, 13, 4⟩
def R.MIR_CFG_TX_INV (i : Nat) : Fld := ⟨if i < 4 then 0xC00020000 + 0x100 * i else RegMap.nowhere, 17, 4⟩

/-- `MIR_STAT` (R512). -/
def RegMap.dMIR_STAT : RegDesc := ⟨0xC00020008, [(4, 0x100)], 1,
  [⟨0, 1, 1, 0, .ro, 0x0⟩, ⟨1, 1, 1, 0, .ro, 0x0⟩, ⟨2, 1, 1, 0, .w1c, 0x0⟩, ⟨4, 4, 1, 0, .ro, 0x0⟩, ⟨8, 8, 1, 0, .ro, 0x0⟩, ⟨16, 12, 1, 0, .ro, 0x0⟩, ⟨28, 12, 1, 0, .ro, 0x0⟩]⟩

def R.MIR_STAT_UP (i : Nat) : Fld := ⟨if i < 4 then 0xC00020008 + 0x100 * i else RegMap.nowhere, 0, 1⟩
def R.MIR_STAT_TRAINING (i : Nat) : Fld := ⟨if i < 4 then 0xC00020008 + 0x100 * i else RegMap.nowhere, 1, 1⟩
def R.MIR_STAT_PEER_MISMATCH (i : Nat) : Fld := ⟨if i < 4 then 0xC00020008 + 0x100 * i else RegMap.nowhere, 2, 1⟩
def R.MIR_STAT_LANE_FAILED (i : Nat) : Fld := ⟨if i < 4 then 0xC00020008 + 0x100 * i else RegMap.nowhere, 4, 4⟩
def R.MIR_STAT_TRAIN_FAILS (i : Nat) : Fld := ⟨if i < 4 then 0xC00020008 + 0x100 * i else RegMap.nowhere, 8, 8⟩
def R.MIR_STAT_PEER_SEEN (i : Nat) : Fld := ⟨if i < 4 then 0xC00020008 + 0x100 * i else RegMap.nowhere, 16, 12⟩
def R.MIR_STAT_LATENCY_NS (i : Nat) : Fld := ⟨if i < 4 then 0xC00020008 + 0x100 * i else RegMap.nowhere, 28, 12⟩

/-- `LPE_CFG` (R554). -/
def RegMap.dLPE_CFG : RegDesc := ⟨0xD00000000, [], 1,
  [⟨0, 20, 1, 0, .rw, 0x3E8⟩, ⟨20, 1, 1, 0, .rw, 0x0⟩, ⟨21, 1, 1, 0, .rw, 0x0⟩, ⟨22, 1, 1, 0, .rw, 0x0⟩, ⟨23, 3, 1, 0, .rw, 0x0⟩, ⟨26, 4, 1, 0, .rw, 0x8⟩, ⟨30, 5, 1, 0, .rw, 0x8⟩]⟩

def R.LPE_CFG_SAMPLE_US : Fld := ⟨0xD00000000, 0, 20⟩
def R.LPE_CFG_SAMPLE_EN : Fld := ⟨0xD00000000, 20, 1⟩
def R.LPE_CFG_TRACE_EN : Fld := ⟨0xD00000000, 21, 1⟩
def R.LPE_CFG_EXPORT_EN : Fld := ⟨0xD00000000, 22, 1⟩
def R.LPE_CFG_EXPORT_SUBPORT : Fld := ⟨0xD00000000, 23, 3⟩
def R.LPE_CFG_HEALTH_SHARE : Fld := ⟨0xD00000000, 26, 4⟩
def R.LPE_CFG_ALIGN_SHIFT : Fld := ⟨0xD00000000, 30, 5⟩

/-- `LPE_EXPORT_DA` (R554). -/
def RegMap.dLPE_EXPORT_DA : RegDesc := ⟨0xD00000008, [], 1,
  [⟨0, 48, 1, 0, .rw, 0xFFFFFFFFFFFF⟩]⟩

def R.LPE_EXPORT_DA_DA : Fld := ⟨0xD00000008, 0, 48⟩

/-- `LPE_STAT` (R554). -/
def RegMap.dLPE_STAT : RegDesc := ⟨0xD00000010, [], 1,
  [⟨0, 8, 1, 0, .ro, 0x0⟩, ⟨8, 1, 1, 0, .w1c, 0x0⟩, ⟨9, 1, 1, 0, .w1c, 0x0⟩, ⟨16, 15, 1, 0, .ro, 0x0⟩]⟩

def R.LPE_STAT_TRACE_STATUS : Fld := ⟨0xD00000010, 0, 8⟩
def R.LPE_STAT_DROPPING : Fld := ⟨0xD00000010, 8, 1⟩
def R.LPE_STAT_EXPORT_BEHIND : Fld := ⟨0xD00000010, 9, 1⟩
def R.LPE_STAT_SEL_COUNT : Fld := ⟨0xD00000010, 16, 15⟩

/-- `LPE_TIME_CFG` (R554). -/
def RegMap.dLPE_TIME_CFG : RegDesc := ⟨0xD00000020, [], 1,
  [⟨0, 2, 1, 0, .rw, 0x0⟩, ⟨32, 16, 1, 0, .rw, 0x0⟩]⟩

def R.LPE_TIME_CFG_SOURCE : Fld := ⟨0xD00000020, 0, 2⟩
def R.LPE_TIME_CFG_PPS_DELAY_NS : Fld := ⟨0xD00000020, 32, 16⟩

/-- `LPE_TIME_NOW` (R554). -/
def RegMap.dLPE_TIME_NOW : RegDesc := ⟨0xD00000028, [], 1,
  [⟨0, 64, 1, 0, .ro, 0x0⟩]⟩

def R.LPE_TIME_NOW_NOW : Fld := ⟨0xD00000028, 0, 64⟩

/-- `LPE_TIME_SET` (R554). -/
def RegMap.dLPE_TIME_SET : RegDesc := ⟨0xD00000030, [], 1,
  [⟨0, 64, 1, 0, .wo, 0x0⟩]⟩

def R.LPE_TIME_SET_SET : Fld := ⟨0xD00000030, 0, 64⟩

/-- `LPE_TIME_STAT` (R554). -/
def RegMap.dLPE_TIME_STAT : RegDesc := ⟨0xD00000038, [], 1,
  [⟨0, 1, 1, 0, .ro, 0x0⟩, ⟨1, 1, 1, 0, .ro, 0x0⟩, ⟨2, 1, 1, 0, .ro, 0x0⟩, ⟨8, 32, 1, 0, .ro, 0x0⟩, ⟨40, 24, 1, 0, .ro, 0x0⟩]⟩

def R.LPE_TIME_STAT_LOCKED : Fld := ⟨0xD00000038, 0, 1⟩
def R.LPE_TIME_STAT_HOLDOVER : Fld := ⟨0xD00000038, 1, 1⟩
def R.LPE_TIME_STAT_STEPPED : Fld := ⟨0xD00000038, 2, 1⟩
def R.LPE_TIME_STAT_OFFSET_NS : Fld := ⟨0xD00000038, 8, 32⟩
def R.LPE_TIME_STAT_ADJ_PPB : Fld := ⟨0xD00000038, 40, 24⟩

/-- `LPE_RING_TRACE` (R554). -/
def RegMap.dLPE_RING_TRACE : RegDesc := ⟨0xD00000040, [], 4,
  [⟨0, 52, 1, 0, .ro, 0x0⟩, ⟨64, 11, 1, 0, .ro, 0x0⟩, ⟨128, 64, 1, 0, .ro, 0x0⟩, ⟨192, 64, 1, 0, .ro, 0x0⟩]⟩

def R.LPE_RING_TRACE_BASE : Fld := ⟨0xD00000040, 0, 52⟩
def R.LPE_RING_TRACE_SIZE_MIB : Fld := ⟨0xD00000040 + 8, 0, 11⟩
def R.LPE_RING_TRACE_HEAD : Fld := ⟨0xD00000040 + 16, 0, 64⟩
def R.LPE_RING_TRACE_OLDEST : Fld := ⟨0xD00000040 + 24, 0, 64⟩

/-- `LPE_RING_COUNTER` (R554). -/
def RegMap.dLPE_RING_COUNTER : RegDesc := ⟨0xD00000060, [], 4,
  [⟨0, 52, 1, 0, .ro, 0x0⟩, ⟨64, 11, 1, 0, .ro, 0x0⟩, ⟨128, 64, 1, 0, .ro, 0x0⟩, ⟨192, 64, 1, 0, .ro, 0x0⟩]⟩

def R.LPE_RING_COUNTER_BASE : Fld := ⟨0xD00000060, 0, 52⟩
def R.LPE_RING_COUNTER_SIZE_MIB : Fld := ⟨0xD00000060 + 8, 0, 11⟩
def R.LPE_RING_COUNTER_HEAD : Fld := ⟨0xD00000060 + 16, 0, 64⟩
def R.LPE_RING_COUNTER_OLDEST : Fld := ⟨0xD00000060 + 24, 0, 64⟩

/-- `LPE_SEL` (R554). -/
def RegMap.dLPE_SEL : RegDesc := ⟨0xD00100000, [(16384, 0x8)], 1,
  [⟨0, 48, 1, 0, .rw, 0x0⟩, ⟨48, 1, 1, 0, .rw, 0x0⟩]⟩

def R.LPE_SEL_ADDR (i : Nat) : Fld := ⟨if i < 16384 then 0xD00100000 + 0x8 * i else RegMap.nowhere, 0, 48⟩
def R.LPE_SEL_EN (i : Nat) : Fld := ⟨if i < 16384 then 0xD00100000 + 0x8 * i else RegMap.nowhere, 48, 1⟩

/-- `LPE_WATCH` (R554). -/
def RegMap.dLPE_WATCH : RegDesc := ⟨0xD00020000, [(64, 0x20)], 4,
  [⟨0, 52, 1, 0, .rw, 0x0⟩, ⟨52, 1, 1, 0, .rw, 0x0⟩, ⟨53, 1, 1, 0, .rw, 0x0⟩, ⟨64, 32, 1, 0, .rw, 0x0⟩, ⟨96, 16, 1, 0, .rw, 0x1⟩, ⟨112, 8, 1, 0, .rw, 0x0⟩, ⟨128, 64, 1, 0, .ro, 0x0⟩]⟩

def R.LPE_WATCH_ADDR (i : Nat) : Fld := ⟨if i < 64 then 0xD00020000 + 0x20 * i else RegMap.nowhere, 0, 52⟩
def R.LPE_WATCH_MODE (i : Nat) : Fld := ⟨if i < 64 then 0xD00020000 + 0x20 * i else RegMap.nowhere, 52, 1⟩
def R.LPE_WATCH_EN (i : Nat) : Fld := ⟨if i < 64 then 0xD00020000 + 0x20 * i else RegMap.nowhere, 53, 1⟩
def R.LPE_WATCH_BYTES (i : Nat) : Fld := ⟨if i < 64 then 0xD00020000 + 0x20 * i + 8 else RegMap.nowhere, 0, 32⟩
def R.LPE_WATCH_EVERY (i : Nat) : Fld := ⟨if i < 64 then 0xD00020000 + 0x20 * i + 8 else RegMap.nowhere, 32, 16⟩
def R.LPE_WATCH_CONTEXT (i : Nat) : Fld := ⟨if i < 64 then 0xD00020000 + 0x20 * i + 8 else RegMap.nowhere, 48, 8⟩
def R.LPE_WATCH_REPORTS (i : Nat) : Fld := ⟨if i < 64 then 0xD00020000 + 0x20 * i + 16 else RegMap.nowhere, 0, 64⟩

/-- `LPE_REGION_STAT` (R554). -/
def RegMap.dLPE_REGION_STAT : RegDesc := ⟨0xD00030000, [(28, 0x8)], 1,
  [⟨0, 1, 1, 0, .ro, 0x0⟩, ⟨1, 1, 1, 0, .ro, 0x0⟩]⟩

def R.LPE_REGION_STAT_STOPPED (i : Nat) : Fld := ⟨if i < 28 then 0xD00030000 + 0x8 * i else RegMap.nowhere, 0, 1⟩
def R.LPE_REGION_STAT_GATED (i : Nat) : Fld := ⟨if i < 28 then 0xD00030000 + 0x8 * i else RegMap.nowhere, 1, 1⟩

/-- `LPE_LIFE_STAT` (R554). -/
def RegMap.dLPE_LIFE_STAT : RegDesc := ⟨0xD00000080, [], 1,
  [⟨0, 1, 1, 0, .ro, 0x0⟩, ⟨1, 1, 1, 0, .ro, 0x0⟩, ⟨2, 1, 1, 0, .ro, 0x0⟩, ⟨32, 32, 1, 0, .ro, 0x0⟩]⟩

def R.LPE_LIFE_STAT_RESTORED : Fld := ⟨0xD00000080, 0, 1⟩
def R.LPE_LIFE_STAT_NONE_VALID : Fld := ⟨0xD00000080, 1, 1⟩
def R.LPE_LIFE_STAT_COPY_VALID : Fld := ⟨0xD00000080, 2, 1⟩
def R.LPE_LIFE_STAT_LAST_SEQ : Fld := ⟨0xD00000080, 32, 32⟩

/-- `LPE_CMD_CTR0` (R554). -/
def RegMap.dLPE_CMD_CTR0 : RegDesc := ⟨0xD01000000, [(256, 0x20), (4, 0x8)], 1,
  [⟨0, 64, 1, 0, .ro, 0x0⟩]⟩

def R.LPE_CMD_CTR0_COUNT (i : Nat) (j : Nat) : Fld := ⟨if i < 256 ∧ j < 4 then 0xD01000000 + 0x20 * i + 0x8 * j else RegMap.nowhere, 0, 64⟩

/-- `LPE_CMD_CTR1` (R554). -/
def RegMap.dLPE_CMD_CTR1 : RegDesc := ⟨0xD01020000, [(16, 0x20), (4, 0x8)], 1,
  [⟨0, 64, 1, 0, .ro, 0x0⟩]⟩

def R.LPE_CMD_CTR1_COUNT (i : Nat) (j : Nat) : Fld := ⟨if i < 16 ∧ j < 4 then 0xD01020000 + 0x20 * i + 0x8 * j else RegMap.nowhere, 0, 64⟩

/-- `LPE_CMD_CTR2` (R554). -/
def RegMap.dLPE_CMD_CTR2 : RegDesc := ⟨0xD01040000, [(32, 0x20), (4, 0x8)], 1,
  [⟨0, 64, 1, 0, .ro, 0x0⟩]⟩

def R.LPE_CMD_CTR2_COUNT (i : Nat) (j : Nat) : Fld := ⟨if i < 32 ∧ j < 4 then 0xD01040000 + 0x20 * i + 0x8 * j else RegMap.nowhere, 0, 64⟩

/-- `LPE_CMD_CTR3` (R554). -/
def RegMap.dLPE_CMD_CTR3 : RegDesc := ⟨0xD01060000, [(16, 0x20), (4, 0x8)], 1,
  [⟨0, 64, 1, 0, .ro, 0x0⟩]⟩

def R.LPE_CMD_CTR3_COUNT (i : Nat) (j : Nat) : Fld := ⟨if i < 16 ∧ j < 4 then 0xD01060000 + 0x20 * i + 0x8 * j else RegMap.nowhere, 0, 64⟩

/-- `LPE_CMD_CTR4` (R554). -/
def RegMap.dLPE_CMD_CTR4 : RegDesc := ⟨0xD01080000, [(1, 0x20), (4, 0x8)], 1,
  [⟨0, 64, 1, 0, .ro, 0x0⟩]⟩

def R.LPE_CMD_CTR4_COUNT (i : Nat) (j : Nat) : Fld := ⟨if i < 1 ∧ j < 4 then 0xD01080000 + 0x20 * i + 0x8 * j else RegMap.nowhere, 0, 64⟩

/-- `LPE_CMD_CTR5` (R554). -/
def RegMap.dLPE_CMD_CTR5 : RegDesc := ⟨0xD010A0000, [(1, 0x20), (4, 0x8)], 1,
  [⟨0, 64, 1, 0, .ro, 0x0⟩]⟩

def R.LPE_CMD_CTR5_COUNT (i : Nat) (j : Nat) : Fld := ⟨if i < 1 ∧ j < 4 then 0xD010A0000 + 0x20 * i + 0x8 * j else RegMap.nowhere, 0, 64⟩

/-- `LPE_CMD_CTR6` (R554). -/
def RegMap.dLPE_CMD_CTR6 : RegDesc := ⟨0xD010C0000, [(1, 0x20), (4, 0x8)], 1,
  [⟨0, 64, 1, 0, .ro, 0x0⟩]⟩

def R.LPE_CMD_CTR6_COUNT (i : Nat) (j : Nat) : Fld := ⟨if i < 1 ∧ j < 4 then 0xD010C0000 + 0x20 * i + 0x8 * j else RegMap.nowhere, 0, 64⟩

/-- `CFG_BOOT` (R587). -/
def RegMap.dCFG_BOOT : RegDesc := ⟨0xE00000000, [], 1,
  [⟨0, 2, 1, 0, .ro, 0x3⟩, ⟨2, 1, 1, 0, .rw, 0x0⟩, ⟨3, 1, 1, 0, .ro, 0x0⟩, ⟨4, 1, 1, 0, .ro, 0x0⟩, ⟨8, 16, 1, 0, .ro, 0x0⟩, ⟨24, 16, 1, 0, .ro, 0x0⟩]⟩

def R.CFG_BOOT_RUN_SLOT : Fld := ⟨0xE00000000, 0, 2⟩
def R.CFG_BOOT_PREFER : Fld := ⟨0xE00000000, 2, 1⟩
def R.CFG_BOOT_FALLBACK : Fld := ⟨0xE00000000, 3, 1⟩
def R.CFG_BOOT_NO_IMAGE : Fld := ⟨0xE00000000, 4, 1⟩
def R.CFG_BOOT_FAIL_A : Fld := ⟨0xE00000000, 8, 16⟩
def R.CFG_BOOT_FAIL_B : Fld := ⟨0xE00000000, 24, 16⟩

/-- `CFG_IMAGE_INFO` (R587). -/
def RegMap.dCFG_IMAGE_INFO : RegDesc := ⟨0xE00000008, [], 1,
  [⟨0, 64, 1, 0, .ro, 0x0⟩]⟩

def R.CFG_IMAGE_INFO_BUILD_ID : Fld := ⟨0xE00000008, 0, 64⟩

/-- `CFG_IMAGE_DIGEST` (R587). -/
def RegMap.dCFG_IMAGE_DIGEST : RegDesc := ⟨0xE00000020, [(4, 0x8)], 1,
  [⟨0, 64, 1, 0, .ro, 0x0⟩]⟩

def R.CFG_IMAGE_DIGEST_DIGEST (i : Nat) : Fld := ⟨if i < 4 then 0xE00000020 + 0x8 * i else RegMap.nowhere, 0, 64⟩

/-- `CFG_CTL_CFG` (R587). -/
def RegMap.dCFG_CTL_CFG : RegDesc := ⟨0xE00000040, [], 1,
  [⟨0, 16, 1, 0, .rw, 0x64⟩, ⟨16, 16, 1, 0, .rw, 0x100⟩, ⟨32, 9, 1, 0, .ro, 0x0⟩]⟩

def R.CFG_CTL_CFG_RATE_PER_MS : Fld := ⟨0xE00000040, 0, 16⟩
def R.CFG_CTL_CFG_BURST : Fld := ⟨0xE00000040, 16, 16⟩
def R.CFG_CTL_CFG_QUEUE_OCC : Fld := ⟨0xE00000040, 32, 9⟩

/-- `CFG_SRC_VLAN` (R587). -/
def RegMap.dCFG_SRC_VLAN : RegDesc := ⟨0xE00000048, [], 1,
  [⟨0, 12, 1, 0, .ro, 0x0⟩, ⟨12, 1, 1, 0, .ro, 0x0⟩]⟩

def R.CFG_SRC_VLAN_VID : Fld := ⟨0xE00000048, 0, 12⟩
def R.CFG_SRC_VLAN_EN : Fld := ⟨0xE00000048, 12, 1⟩

/-- `CFG_SRC_MAC` (R587). -/
def RegMap.dCFG_SRC_MAC : RegDesc := ⟨0xE00000080, [(16, 0x8)], 1,
  [⟨0, 48, 1, 0, .ro, 0x0⟩, ⟨48, 1, 1, 0, .ro, 0x0⟩]⟩

def R.CFG_SRC_MAC_MAC (i : Nat) : Fld := ⟨if i < 16 then 0xE00000080 + 0x8 * i else RegMap.nowhere, 0, 48⟩
def R.CFG_SRC_MAC_EN (i : Nat) : Fld := ⟨if i < 16 then 0xE00000080 + 0x8 * i else RegMap.nowhere, 48, 1⟩

/-- `CFG_SLOT_CTL` (R587). -/
def RegMap.dCFG_SLOT_CTL : RegDesc := ⟨0xE00000100, [], 1,
  [⟨0, 2, 1, 0, .wo, 0x0⟩, ⟨2, 1, 1, 0, .wo, 0x0⟩]⟩

def R.CFG_SLOT_CTL_OP : Fld := ⟨0xE00000100, 0, 2⟩
def R.CFG_SLOT_CTL_SLOT : Fld := ⟨0xE00000100, 2, 1⟩

/-- `CFG_SLOT_STAT` (R587). -/
def RegMap.dCFG_SLOT_STAT : RegDesc := ⟨0xE00000108, [(2, 0x8)], 1,
  [⟨0, 3, 1, 0, .ro, 0x0⟩, ⟨3, 16, 1, 0, .ro, 0x0⟩, ⟨19, 20, 1, 0, .ro, 0x0⟩]⟩

def R.CFG_SLOT_STAT_STATE (i : Nat) : Fld := ⟨if i < 2 then 0xE00000108 + 0x8 * i else RegMap.nowhere, 0, 3⟩
def R.CFG_SLOT_STAT_FAIL_CODE (i : Nat) : Fld := ⟨if i < 2 then 0xE00000108 + 0x8 * i else RegMap.nowhere, 3, 16⟩
def R.CFG_SLOT_STAT_WRITTEN_KIB (i : Nat) : Fld := ⟨if i < 2 then 0xE00000108 + 0x8 * i else RegMap.nowhere, 19, 20⟩

/-- `CFG_SLOT_WIN` (R587). -/
def RegMap.dCFG_SLOT_WIN : RegDesc := ⟨0xE40000000, [(100663296, 0x8)], 1,
  [⟨0, 64, 1, 0, .wo, 0x0⟩]⟩

def R.CFG_SLOT_WIN_DATA (i : Nat) : Fld := ⟨if i < 100663296 then 0xE40000000 + 0x8 * i else RegMap.nowhere, 0, 64⟩

/-- `CFG_REPORT_INFO` (R587). -/
def RegMap.dCFG_REPORT_INFO : RegDesc := ⟨0xE00000200, [], 1,
  [⟨0, 13, 1, 0, .ro, 0x0⟩, ⟨13, 1, 1, 0, .ro, 0x0⟩, ⟨14, 16, 1, 0, .ro, 0x0⟩]⟩

def R.CFG_REPORT_INFO_COUNT : Fld := ⟨0xE00000200, 0, 13⟩
def R.CFG_REPORT_INFO_OVERFLOW : Fld := ⟨0xE00000200, 13, 1⟩
def R.CFG_REPORT_INFO_FIRST_FATAL : Fld := ⟨0xE00000200, 14, 16⟩

/-- `CFG_REPORT` (R587). -/
def RegMap.dCFG_REPORT : RegDesc := ⟨0xE00010000, [(4096, 0x20)], 4,
  [⟨0, 64, 4, 64, .ro, 0x0⟩]⟩

def R.CFG_REPORT_ENTRY (i : Nat) (n : Nat) : Fld := ⟨if i < 4096 ∧ n < 4 then 0xE00010000 + 0x20 * i + 8 * n else RegMap.nowhere, 0, 64⟩

/-- `JRN_CFG` (R587). -/
def RegMap.dJRN_CFG : RegDesc := ⟨0xE00000300, [], 1,
  [⟨0, 1, 1, 0, .rw, 0x0⟩, ⟨1, 3, 1, 0, .rw, 0x0⟩, ⟨4, 9, 1, 0, .ro, 0x80⟩]⟩

def R.JRN_CFG_EXPORT_EN : Fld := ⟨0xE00000300, 0, 1⟩
def R.JRN_CFG_EXPORT_SUBPORT : Fld := ⟨0xE00000300, 1, 3⟩
def R.JRN_CFG_RING_MIB : Fld := ⟨0xE00000300, 4, 9⟩

/-- `JRN_EXPORT_DA` (R587). -/
def RegMap.dJRN_EXPORT_DA : RegDesc := ⟨0xE00000308, [], 1,
  [⟨0, 48, 1, 0, .rw, 0xFFFFFFFFFFFF⟩]⟩

def R.JRN_EXPORT_DA_DA : Fld := ⟨0xE00000308, 0, 48⟩

/-- `JRN_STAT` (R587). -/
def RegMap.dJRN_STAT : RegDesc := ⟨0xE00000310, [], 4,
  [⟨0, 64, 1, 0, .ro, 0x0⟩, ⟨64, 64, 1, 0, .ro, 0x0⟩, ⟨128, 64, 1, 0, .ro, 0x0⟩, ⟨192, 64, 1, 0, .ro, 0x0⟩]⟩

def R.JRN_STAT_NEXT_JSEQ : Fld := ⟨0xE00000310, 0, 64⟩
def R.JRN_STAT_LAST_BATCH : Fld := ⟨0xE00000310 + 8, 0, 64⟩
def R.JRN_STAT_HEAD : Fld := ⟨0xE00000310 + 16, 0, 64⟩
def R.JRN_STAT_OLDEST : Fld := ⟨0xE00000310 + 24, 0, 64⟩

/-- `JRN_ROOT` (R587). -/
def RegMap.dJRN_ROOT : RegDesc := ⟨0xE00000340, [(4, 0x8)], 1,
  [⟨0, 64, 1, 0, .ro, 0x0⟩]⟩

def R.JRN_ROOT_ROOT (i : Nat) : Fld := ⟨if i < 4 then 0xE00000340 + 0x8 * i else RegMap.nowhere, 0, 64⟩

/-- `LCS_LOG` (R613). -/
def RegMap.dLCS_LOG : RegDesc := ⟨0xF00010000, [(64, 0x20)], 4,
  [⟨0, 32, 1, 0, .ro, 0x0⟩, ⟨32, 3, 1, 0, .ro, 0x0⟩, ⟨35, 3, 1, 0, .ro, 0x0⟩, ⟨38, 2, 1, 0, .ro, 0x0⟩, ⟨64, 64, 1, 0, .ro, 0x0⟩, ⟨128, 48, 1, 0, .ro, 0x0⟩, ⟨192, 64, 1, 0, .ro, 0x0⟩]⟩

def R.LCS_LOG_LCS_SEQ (i : Nat) : Fld := ⟨if i < 64 then 0xF00010000 + 0x20 * i else RegMap.nowhere, 0, 32⟩
def R.LCS_LOG_FROM (i : Nat) : Fld := ⟨if i < 64 then 0xF00010000 + 0x20 * i else RegMap.nowhere, 32, 3⟩
def R.LCS_LOG_TO (i : Nat) : Fld := ⟨if i < 64 then 0xF00010000 + 0x20 * i else RegMap.nowhere, 35, 3⟩
def R.LCS_LOG_AUTH (i : Nat) : Fld := ⟨if i < 64 then 0xF00010000 + 0x20 * i else RegMap.nowhere, 38, 2⟩
def R.LCS_LOG_TIME (i : Nat) : Fld := ⟨if i < 64 then 0xF00010000 + 0x20 * i + 8 else RegMap.nowhere, 0, 64⟩
def R.LCS_LOG_SRC_MAC (i : Nat) : Fld := ⟨if i < 64 then 0xF00010000 + 0x20 * i + 16 else RegMap.nowhere, 0, 48⟩
def R.LCS_LOG_JRN_BATCH (i : Nat) : Fld := ⟨if i < 64 then 0xF00010000 + 0x20 * i + 24 else RegMap.nowhere, 0, 64⟩

/-- `LCS_STAT` (R613). -/
def RegMap.dLCS_STAT : RegDesc := ⟨0xF00000000, [], 1,
  [⟨0, 3, 1, 0, .ro, 0x0⟩, ⟨3, 3, 1, 0, .ro, 0x0⟩, ⟨6, 1, 1, 0, .ro, 0x0⟩, ⟨8, 3, 1, 0, .ro, 0x0⟩, ⟨16, 16, 1, 0, .ro, 0x0⟩, ⟨32, 32, 1, 0, .ro, 0x0⟩]⟩

def R.LCS_STAT_STATE : Fld := ⟨0xF00000000, 0, 3⟩
def R.LCS_STAT_STORED : Fld := ⟨0xF00000000, 3, 3⟩
def R.LCS_STAT_CHALLENGE_LIVE : Fld := ⟨0xF00000000, 6, 1⟩
def R.LCS_STAT_ERASE_PENDING : Fld := ⟨0xF00000000, 8, 3⟩
def R.LCS_STAT_MIN_SVN : Fld := ⟨0xF00000000, 16, 16⟩
def R.LCS_STAT_JTAG_WRITES : Fld := ⟨0xF00000000, 32, 32⟩

/-- `SEC_STAT` (R613). -/
def RegMap.dSEC_STAT : RegDesc := ⟨0xF00000008, [], 1,
  [⟨0, 1, 1, 0, .ro, 0x0⟩, ⟨1, 1, 1, 0, .ro, 0x0⟩, ⟨2, 1, 1, 0, .ro, 0x0⟩, ⟨16, 16, 1, 0, .ro, 0x0⟩, ⟨32, 32, 1, 0, .ro, 0x0⟩]⟩

def R.SEC_STAT_KEYS_READY : Fld := ⟨0xF00000008, 0, 1⟩
def R.SEC_STAT_JRN_UNSIGNED : Fld := ⟨0xF00000008, 1, 1⟩
def R.SEC_STAT_BOOT_COPY : Fld := ⟨0xF00000008, 2, 1⟩
def R.SEC_STAT_SVN : Fld := ⟨0xF00000008, 16, 16⟩
def R.SEC_STAT_FW_VER : Fld := ⟨0xF00000008, 32, 32⟩

/-- `SEC_OWNER_IDX` (R613). -/
def RegMap.dSEC_OWNER_IDX : RegDesc := ⟨0xF00000010, [], 1,
  [⟨0, 32, 1, 0, .ro, 0x0⟩]⟩

def R.SEC_OWNER_IDX_INDEX : Fld := ⟨0xF00000010, 0, 32⟩

/-- `SEC_KEY` (R613). -/
def RegMap.dSEC_KEY : RegDesc := ⟨0xF00000100, [(3, 0x10)], 2,
  [⟨0, 41, 1, 0, .ro, 0x0⟩, ⟨64, 41, 1, 0, .ro, 0x0⟩, ⟨105, 23, 1, 0, .ro, 0x0⟩]⟩

def R.SEC_KEY_NEXT (i : Nat) : Fld := ⟨if i < 3 then 0xF00000100 + 0x10 * i else RegMap.nowhere, 0, 41⟩
def R.SEC_KEY_RESERVED_TO (i : Nat) : Fld := ⟨if i < 3 then 0xF00000100 + 0x10 * i + 8 else RegMap.nowhere, 0, 41⟩
def R.SEC_KEY_CERT_SEQ (i : Nat) : Fld := ⟨if i < 3 then 0xF00000100 + 0x10 * i + 8 else RegMap.nowhere, 41, 23⟩

/-- `SEC_BOOT_DIGEST` (R613). -/
def RegMap.dSEC_BOOT_DIGEST : RegDesc := ⟨0xF00000040, [(4, 0x8)], 1,
  [⟨0, 64, 1, 0, .ro, 0x0⟩]⟩

def R.SEC_BOOT_DIGEST_DIGEST (i : Nat) : Fld := ⟨if i < 4 then 0xF00000040 + 0x8 * i else RegMap.nowhere, 0, 64⟩

/-- `DEV_INFO` (R613). -/
def RegMap.dDEV_INFO : RegDesc := ⟨0x0, [], 1,
  [⟨0, 16, 1, 0, .ro, 0xCA05⟩, ⟨16, 16, 1, 0, .ro, 0x1600⟩, ⟨32, 8, 1, 0, .ro, 0x0⟩]⟩

def R.DEV_INFO_VENDOR : Fld := ⟨0x0, 0, 16⟩
def R.DEV_INFO_PART : Fld := ⟨0x0, 16, 16⟩
def R.DEV_INFO_STEPPING : Fld := ⟨0x0, 32, 8⟩

/-- `DEV_SERIAL` (R613). -/
def RegMap.dDEV_SERIAL : RegDesc := ⟨0x8, [], 1,
  [⟨0, 64, 1, 0, .ro, 0x0⟩]⟩

def R.DEV_SERIAL_SERIAL : Fld := ⟨0x8, 0, 64⟩

/-- `DEV_ID_DIGEST` (R613). -/
def RegMap.dDEV_ID_DIGEST : RegDesc := ⟨0x20, [(4, 0x8)], 1,
  [⟨0, 64, 1, 0, .ro, 0x0⟩]⟩

def R.DEV_ID_DIGEST_DIGEST (i : Nat) : Fld := ⟨if i < 4 then 0x20 + 0x8 * i else RegMap.nowhere, 0, 64⟩

/-- `DEV_ENDORSE` (R613). -/
def RegMap.dDEV_ENDORSE : RegDesc := ⟨0x10000, [(1024, 0x8)], 1,
  [⟨0, 64, 1, 0, .rw, 0x0⟩]⟩

def R.DEV_ENDORSE_DATA (i : Nat) : Fld := ⟨if i < 1024 then 0x10000 + 0x8 * i else RegMap.nowhere, 0, 64⟩

/-- `CLK_STAT` (R653). -/
def RegMap.dCLK_STAT : RegDesc := ⟨0x1000000000, [(18, 0x8)], 1,
  [⟨0, 1, 1, 0, .ro, 0x0⟩, ⟨1, 1, 1, 0, .ro, 0x0⟩, ⟨16, 16, 1, 0, .ro, 0x0⟩]⟩

def R.CLK_STAT_LOCKED (i : Nat) : Fld := ⟨if i < 18 then 0x1000000000 + 0x8 * i else RegMap.nowhere, 0, 1⟩
def R.CLK_STAT_STRETCHING (i : Nat) : Fld := ⟨if i < 18 then 0x1000000000 + 0x8 * i else RegMap.nowhere, 1, 1⟩
def R.CLK_STAT_FREQ_MHZ (i : Nat) : Fld := ⟨if i < 18 then 0x1000000000 + 0x8 * i else RegMap.nowhere, 16, 16⟩

/-- `CLK_OUT_CFG` (R653). -/
def RegMap.dCLK_OUT_CFG : RegDesc := ⟨0x1000000100, [], 1,
  [⟨0, 1, 1, 0, .rw, 0x0⟩, ⟨1, 1, 1, 0, .rw, 0x0⟩, ⟨8, 8, 1, 0, .ro, 0x0⟩]⟩

def R.CLK_OUT_CFG_PPS_OUT_EN : Fld := ⟨0x1000000100, 0, 1⟩
def R.CLK_OUT_CFG_TICK_OUT_EN : Fld := ⟨0x1000000100, 1, 1⟩
def R.CLK_OUT_CFG_TICK_SYNC_DELAY_NS : Fld := ⟨0x1000000100, 8, 8⟩

/-- `CLK_OUT_STAT` (R653). -/
def RegMap.dCLK_OUT_STAT : RegDesc := ⟨0x1000000108, [], 1,
  [⟨0, 2, 1, 0, .ro, 0x0⟩, ⟨8, 8, 1, 0, .ro, 0x0⟩, ⟨16, 8, 1, 0, .ro, 0x0⟩]⟩

def R.CLK_OUT_STAT_LAND_FN : Fld := ⟨0x1000000108, 0, 2⟩
def R.CLK_OUT_STAT_PPS_OUT_STATUS : Fld := ⟨0x1000000108, 8, 8⟩
def R.CLK_OUT_STAT_TICK_OUT_STATUS : Fld := ⟨0x1000000108, 16, 8⟩

/-- `RST_STAT` (R653). -/
def RegMap.dRST_STAT : RegDesc := ⟨0x1000010000, [], 1,
  [⟨0, 4, 1, 0, .ro, 0x0⟩, ⟨4, 8, 1, 0, .ro, 0x0⟩, ⟨32, 32, 1, 0, .ro, 0x0⟩]⟩

def R.RST_STAT_CAUSE : Fld := ⟨0x1000010000, 0, 4⟩
def R.RST_STAT_STAGE : Fld := ⟨0x1000010000, 4, 8⟩
def R.RST_STAT_START_MS : Fld := ⟨0x1000010000, 32, 32⟩

/-- `PWR_STAT` (R653). -/
def RegMap.dPWR_STAT : RegDesc := ⟨0x1000020000, [], 1,
  [⟨0, 16, 1, 0, .ro, 0x0⟩, ⟨16, 16, 1, 0, .ro, 0x0⟩, ⟨32, 16, 1, 0, .ro, 0x0⟩, ⟨48, 1, 1, 0, .ro, 0x0⟩, ⟨49, 1, 1, 0, .ro, 0x0⟩, ⟨50, 1, 1, 0, .ro, 0x0⟩, ⟨51, 1, 1, 0, .w1c, 0x0⟩]⟩

def R.PWR_STAT_VIN_MV : Fld := ⟨0x1000020000, 0, 16⟩
def R.PWR_STAT_PIN_W : Fld := ⟨0x1000020000, 16, 16⟩
def R.PWR_STAT_V1P8_MV : Fld := ⟨0x1000020000, 32, 16⟩
def R.PWR_STAT_VIN_LOW : Fld := ⟨0x1000020000, 48, 1⟩
def R.PWR_STAT_VIN_HIGH : Fld := ⟨0x1000020000, 49, 1⟩
def R.PWR_STAT_LIMITING : Fld := ⟨0x1000020000, 50, 1⟩
def R.PWR_STAT_VIN_EXCURSION : Fld := ⟨0x1000020000, 51, 1⟩

/-- `PWR_TEMP` (R653). -/
def RegMap.dPWR_TEMP : RegDesc := ⟨0x1000020100, [(96, 0x8)], 1,
  [⟨0, 16, 1, 0, .ro, 0x0⟩, ⟨16, 3, 1, 0, .ro, 0x0⟩]⟩

def R.PWR_TEMP_TEMP (i : Nat) : Fld := ⟨if i < 96 then 0x1000020100 + 0x8 * i else RegMap.nowhere, 0, 16⟩
def R.PWR_TEMP_DIE (i : Nat) : Fld := ⟨if i < 96 then 0x1000020100 + 0x8 * i else RegMap.nowhere, 16, 3⟩

/-! Counters: 64-bit registers of access RO that wrap modulo 2⁶⁴. -/

/-- Counter (R51). -/
def C.TKP_BATCHES : Nat := 0x900000040
/-- Counter (R51). -/
def C.TKP_SAMPLES : Nat := 0x900000048
/-- Counter (R51). -/
def C.TKP_SLOTS_FULL : Nat := 0x900000050
/-- Counter (R51). -/
def C.TKP_LATE : Nat := 0x900000058
/-- Counter (R51). -/
def C.TKP_NO_TIER : Nat := 0x900000060
/-- Counter (R51). -/
def C.TKP_RENUMBERED : Nat := 0x900000038
/-- Counter (R95). -/
def C.PORT_RX_FRAMES (i : Nat) : Nat := if i < 8 then 0x100010000 + 0x100 * i else RegMap.nowhere
/-- Counter (R95). -/
def C.PORT_RX_BYTES (i : Nat) : Nat := if i < 8 then 0x100010008 + 0x100 * i else RegMap.nowhere
/-- Counter (R95). -/
def C.PORT_TX_FRAMES (i : Nat) : Nat := if i < 8 then 0x100010010 + 0x100 * i else RegMap.nowhere
/-- Counter (R95). -/
def C.PORT_TX_BYTES (i : Nat) : Nat := if i < 8 then 0x100010018 + 0x100 * i else RegMap.nowhere
/-- Counter (R95). -/
def C.PORT_RX_FCS_ERR (i : Nat) : Nat := if i < 8 then 0x100010020 + 0x100 * i else RegMap.nowhere
/-- Counter (R95). -/
def C.PORT_RX_RUNT (i : Nat) : Nat := if i < 8 then 0x100010028 + 0x100 * i else RegMap.nowhere
/-- Counter (R95). -/
def C.PORT_RX_OVERSIZE (i : Nat) : Nat := if i < 8 then 0x100010030 + 0x100 * i else RegMap.nowhere
/-- Counter (R95). -/
def C.PORT_RX_BUF_FULL (i : Nat) : Nat := if i < 8 then 0x100010038 + 0x100 * i else RegMap.nowhere
/-- Counter (R95). -/
def C.PORT_TX_DROP_ACTION (i : Nat) : Nat := if i < 8 then 0x100010040 + 0x100 * i else RegMap.nowhere
/-- Counter (R95). -/
def C.PORT_RX_PAUSE (i : Nat) : Nat := if i < 8 then 0x100010048 + 0x100 * i else RegMap.nowhere
/-- Counter (R95). -/
def C.PORT_PAUSE_STORM (i : Nat) : Nat := if i < 8 then 0x100010050 + 0x100 * i else RegMap.nowhere
/-- Counter (R95). -/
def C.PORT_RX_MACCTL_BAD (i : Nat) : Nat := if i < 8 then 0x100010058 + 0x100 * i else RegMap.nowhere
/-- Counter (R95). -/
def C.PORT_TRAIN_VIOL (i : Nat) : Nat := if i < 8 then 0x100010060 + 0x100 * i else RegMap.nowhere
/-- Counter (R95). -/
def C.PORT_FEC_CORR (i : Nat) : Nat := if i < 8 then 0x100010068 + 0x100 * i else RegMap.nowhere
/-- Counter (R95). -/
def C.PORT_FEC_UNCORR (i : Nat) : Nat := if i < 8 then 0x100010070 + 0x100 * i else RegMap.nowhere
/-- Counter (R95). -/
def C.PORT_FAB_FOREIGN (i : Nat) : Nat := if i < 8 then 0x100010078 + 0x100 * i else RegMap.nowhere
/-- Counter (R95). -/
def C.PORT_CTL_MALFORMED (i : Nat) : Nat := if i < 8 then 0x100010080 + 0x100 * i else RegMap.nowhere
/-- Counter (R95). -/
def C.PORT_CTL_STALE (i : Nat) : Nat := if i < 8 then 0x100010088 + 0x100 * i else RegMap.nowhere
/-- Counter (R95). -/
def C.PORT_RECORDS_TX (i : Nat) : Nat := if i < 8 then 0x100010090 + 0x100 * i else RegMap.nowhere
/-- Counter (R95). -/
def C.PORT_RECORD_FRAMES_TX (i : Nat) : Nat := if i < 8 then 0x100010098 + 0x100 * i else RegMap.nowhere
/-- Counter (R95). -/
def C.PORT_RECORD_DROP (i : Nat) : Nat := if i < 8 then 0x1000100A0 + 0x100 * i else RegMap.nowhere
/-- Counter (R95). -/
def C.PORT_TX_PAUSE (i : Nat) : Nat := if i < 8 then 0x1000100A8 + 0x100 * i else RegMap.nowhere
/-- Counter (R95). -/
def C.PORT_PTP_RX (i : Nat) : Nat := if i < 8 then 0x1000100B0 + 0x100 * i else RegMap.nowhere
/-- Counter (R95). -/
def C.PORT_TX_LINK_DOWN (i : Nat) : Nat := if i < 8 then 0x1000100B8 + 0x100 * i else RegMap.nowhere
/-- Counter (R135). -/
def C.PRS_PACKETS : Nat := 0x200040000
/-- Counter (R135). -/
def C.PRS_PASSES : Nat := 0x200040008
/-- Counter (R135). -/
def C.PRS_STEPS : Nat := 0x200040010
/-- Counter (R135). -/
def C.PRS_NORMAL : Nat := 0x200040018
/-- Counter (R135). -/
def C.PRS_DEPTH_EXCEEDED : Nat := 0x200040020
/-- Counter (R135). -/
def C.PRS_WINDOW_END : Nat := 0x200040028
/-- Counter (R135). -/
def C.PRS_DEPTH_DROP : Nat := 0x200040030
/-- Counter (R135). -/
def C.PRS_MALFORMED_LENGTH : Nat := 0x200040038
/-- Counter (R135). -/
def C.PRS_FRAGMENTS : Nat := 0x200040040
/-- Counter (R135). -/
def C.PRS_RECIRC_PASSES : Nat := 0x200040048
/-- Counter (R135). -/
def C.PRS_RECIRC_LIMIT : Nat := 0x200040050
/-- Counter (R135). -/
def C.PRS_RECIRC_UNMARKED : Nat := 0x200040058
/-- Counter (R135). -/
def C.PRS_RECIRC_FULL : Nat := 0x200040060
/-- Counter (R135). -/
def C.PRS_RECIRC_WITHDRAWN : Nat := 0x200040068
/-- Counter (R172). -/
def C.CLS_SEARCHES : Nat := 0x300040000
/-- Counter (R172). -/
def C.CLS_HITS : Nat := 0x300040008
/-- Counter (R172). -/
def C.CLS_MISSES : Nat := 0x300040010
/-- Counter (R172). -/
def C.CLS_RECIRC_REQ : Nat := 0x300040018
/-- Counter (R172). -/
def C.CLS_STAGE_RECORDS : Nat := 0x300040020
/-- Counter (R172). -/
def C.CLS_STAGE_REFUSED : Nat := 0x300040028
/-- Counter (R172). -/
def C.CLS_COMMITS : Nat := 0x300040030
/-- Counter (R172). -/
def C.CLS_ABORTS : Nat := 0x300040038
/-- Counter (R172). -/
def C.CLS_VERSION_LIMIT : Nat := 0x300040040
/-- Counter (R172). -/
def C.CLS_PARITY_ERR : Nat := 0x300040048
/-- Counter (R172). -/
def C.CLS_PROFILE_HITS (i : Nat) : Nat := if i < 16 then 0x300040100 + 0x8 * i else RegMap.nowhere
/-- Counter (R172). -/
def C.CLS_PROFILE_MISSES (i : Nat) : Nat := if i < 16 then 0x300040180 + 0x8 * i else RegMap.nowhere
/-- Counter (R212). -/
def C.FLW_LOOKUPS : Nat := 0x400040000
/-- Counter (R212). -/
def C.FLW_CACHE_HITS : Nat := 0x400040008
/-- Counter (R212). -/
def C.FLW_CACHE_MISSES : Nat := 0x400040010
/-- Counter (R212). -/
def C.FLW_CREATED : Nat := 0x400040018
/-- Counter (R212). -/
def C.FLW_CREATE_FAIL : Nat := 0x400040020
/-- Counter (R212). -/
def C.FLW_EVICTED : Nat := 0x400040028
/-- Counter (R212). -/
def C.FLW_AGED : Nat := 0x400040030
/-- Counter (R212). -/
def C.FLW_RETIRED_REDIRECT : Nat := 0x400040038
/-- Counter (R212). -/
def C.FLW_FRAG_PACKETS : Nat := 0x400040040
/-- Counter (R212). -/
def C.FLW_SELECTED : Nat := 0x400040048
/-- Counter (R212). -/
def C.FLW_DECIMATED : Nat := 0x400040050
/-- Counter (R212). -/
def C.FLW_VERDICT_WRITES : Nat := 0x400040058
/-- Counter (R212). -/
def C.FLW_VERDICT_STALE : Nat := 0x400040060
/-- Counter (R212). -/
def C.FLW_VERDICT_SUPERSEDED : Nat := 0x400040068
/-- Counter (R212). -/
def C.FLW_ENT_LOOKUPS : Nat := 0x400040070
/-- Counter (R212). -/
def C.FLW_ENT_HITS : Nat := 0x400040078
/-- Counter (R212). -/
def C.FLW_ENT_CREATED : Nat := 0x400040080
/-- Counter (R212). -/
def C.FLW_ENT_CREATE_FAIL : Nat := 0x400040088
/-- Counter (R212). -/
def C.FLW_ENT_AGED : Nat := 0x400040090
/-- Counter (R212). -/
def C.FLW_HIST_HALVINGS : Nat := 0x400040098
/-- Counter (R266). -/
def C.LNS_TILES (i : Nat) (j : Nat) (k : Nat) : Nat := if i < 16 ∧ j < 16 ∧ k < 4 then 0x500010040 + 0x1000000 * i + 0x1000 * j + 0x100 * k else RegMap.nowhere
/-- Counter (R266). -/
def C.LNS_MACS (i : Nat) (j : Nat) (k : Nat) : Nat := if i < 16 ∧ j < 16 ∧ k < 4 then 0x500010048 + 0x1000000 * i + 0x1000 * j + 0x100 * k else RegMap.nowhere
/-- Counter (R266). -/
def C.LNS_BUSY_CYCLES (i : Nat) (j : Nat) (k : Nat) : Nat := if i < 16 ∧ j < 16 ∧ k < 4 then 0x500010050 + 0x1000000 * i + 0x1000 * j + 0x100 * k else RegMap.nowhere
/-- Counter (R266). -/
def C.LNS_STALL_LOAD (i : Nat) (j : Nat) (k : Nat) : Nat := if i < 16 ∧ j < 16 ∧ k < 4 then 0x500010058 + 0x1000000 * i + 0x1000 * j + 0x100 * k else RegMap.nowhere
/-- Counter (R266). -/
def C.LNS_STALL_FEED (i : Nat) (j : Nat) (k : Nat) : Nat := if i < 16 ∧ j < 16 ∧ k < 4 then 0x500010060 + 0x1000000 * i + 0x1000 * j + 0x100 * k else RegMap.nowhere
/-- Counter (R266). -/
def C.LNS_STALL_DRAIN (i : Nat) (j : Nat) (k : Nat) : Nat := if i < 16 ∧ j < 16 ∧ k < 4 then 0x500010068 + 0x1000000 * i + 0x1000 * j + 0x100 * k else RegMap.nowhere
/-- Counter (R266). -/
def C.LNS_IDLE_CYCLES (i : Nat) (j : Nat) (k : Nat) : Nat := if i < 16 ∧ j < 16 ∧ k < 4 then 0x500010070 + 0x1000000 * i + 0x1000 * j + 0x100 * k else RegMap.nowhere
/-- Counter (R266). -/
def C.LNS_CHK_MISMATCH (i : Nat) (j : Nat) (k : Nat) : Nat := if i < 16 ∧ j < 16 ∧ k < 4 then 0x500010078 + 0x1000000 * i + 0x1000 * j + 0x100 * k else RegMap.nowhere
/-- Counter (R266). -/
def C.LNS_TILES_ABANDONED (i : Nat) (j : Nat) (k : Nat) : Nat := if i < 16 ∧ j < 16 ∧ k < 4 then 0x500010080 + 0x1000000 * i + 0x1000 * j + 0x100 * k else RegMap.nowhere
/-- Counter (R266). -/
def C.LNS_TILES_REISSUED (i : Nat) (j : Nat) (k : Nat) : Nat := if i < 16 ∧ j < 16 ∧ k < 4 then 0x500010088 + 0x1000000 * i + 0x1000 * j + 0x100 * k else RegMap.nowhere
/-- Counter (R266). -/
def C.LNS_PORT_CONFLICT (i : Nat) (j : Nat) : Nat := if i < 16 ∧ j < 16 then 0x500010440 + 0x1000000 * i + 0x1000 * j else RegMap.nowhere
/-- Counter (R266). -/
def C.LNS_MEM_CORRECTED_CORE (i : Nat) (j : Nat) : Nat := if i < 16 ∧ j < 16 then 0x500010448 + 0x1000000 * i + 0x1000 * j else RegMap.nowhere
/-- Counter (R266). -/
def C.LNS_MEM_UNCORR_CORE (i : Nat) (j : Nat) : Nat := if i < 16 ∧ j < 16 then 0x500010450 + 0x1000000 * i + 0x1000 * j else RegMap.nowhere
/-- Counter (R266). -/
def C.LNS_MOVER_OPS (i : Nat) : Nat := if i < 16 then 0x500000040 + 0x1000000 * i else RegMap.nowhere
/-- Counter (R266). -/
def C.LNS_MOVER_BYTES (i : Nat) : Nat := if i < 16 then 0x500000048 + 0x1000000 * i else RegMap.nowhere
/-- Counter (R266). -/
def C.LNS_MOVER_TRANSPOSED_BYTES (i : Nat) : Nat := if i < 16 then 0x500000050 + 0x1000000 * i else RegMap.nowhere
/-- Counter (R266). -/
def C.LNS_CMEM_CONFLICT (i : Nat) : Nat := if i < 16 then 0x500000058 + 0x1000000 * i else RegMap.nowhere
/-- Counter (R266). -/
def C.LNS_MEM_CORRECTED_CLUSTER (i : Nat) : Nat := if i < 16 then 0x500000060 + 0x1000000 * i else RegMap.nowhere
/-- Counter (R266). -/
def C.LNS_MEM_UNCORR_CLUSTER (i : Nat) : Nat := if i < 16 then 0x500000068 + 0x1000000 * i else RegMap.nowhere
/-- Counter (R266). -/
def C.LNS_CHK_LOG_LOST (i : Nat) : Nat := if i < 16 then 0x500000070 + 0x1000000 * i else RegMap.nowhere
/-- Counter (R267). -/
def C.GRT_VECTORS (i : Nat) : Nat := if i < 16 then 0x600000040 + 0x100 * i else RegMap.nowhere
/-- Counter (R267). -/
def C.GRT_BUSY_CYCLES (i : Nat) : Nat := if i < 16 then 0x600000048 + 0x100 * i else RegMap.nowhere
/-- Counter (R267). -/
def C.GRT_STALL_LOAD (i : Nat) : Nat := if i < 16 then 0x600000050 + 0x100 * i else RegMap.nowhere
/-- Counter (R267). -/
def C.GRT_STALL_FEED (i : Nat) : Nat := if i < 16 then 0x600000058 + 0x100 * i else RegMap.nowhere
/-- Counter (R267). -/
def C.GRT_STALL_DRAIN (i : Nat) : Nat := if i < 16 then 0x600000060 + 0x100 * i else RegMap.nowhere
/-- Counter (R267). -/
def C.GRT_IDLE_CYCLES (i : Nat) : Nat := if i < 16 then 0x600000068 + 0x100 * i else RegMap.nowhere
/-- Counter (R267). -/
def C.GRT_CHK_MISMATCH (i : Nat) : Nat := if i < 16 then 0x600000070 + 0x100 * i else RegMap.nowhere
/-- Counter (R267). -/
def C.GRT_TILES_ABANDONED (i : Nat) : Nat := if i < 16 then 0x600000078 + 0x100 * i else RegMap.nowhere
/-- Counter (R267). -/
def C.GRT_TILES_REISSUED (i : Nat) : Nat := if i < 16 then 0x600000080 + 0x100 * i else RegMap.nowhere
/-- Counter (R267). -/
def C.GRT_CHK_LOG_LOST (i : Nat) : Nat := if i < 16 then 0x6000000B8 + 0x100 * i else RegMap.nowhere
/-- Counter (R299). -/
def C.LNS_CLIPPED (i : Nat) (j : Nat) : Nat := if i < 16 ∧ j < 16 then 0x500010458 + 0x1000000 * i + 0x1000 * j else RegMap.nowhere
/-- Counter (R299). -/
def C.LNS_NAN_SQUASHED (i : Nat) (j : Nat) : Nat := if i < 16 ∧ j < 16 then 0x500010460 + 0x1000000 * i + 0x1000 * j else RegMap.nowhere
/-- Counter (R299). -/
def C.LNS_INT32_SATURATED (i : Nat) (j : Nat) : Nat := if i < 16 ∧ j < 16 then 0x500010468 + 0x1000000 * i + 0x1000 * j else RegMap.nowhere
/-- Counter (R299). -/
def C.GRT_ACC_SATURATED (i : Nat) : Nat := if i < 16 then 0x600000088 + 0x100 * i else RegMap.nowhere
/-- Counter (R299). -/
def C.GRT_CLIPPED (i : Nat) : Nat := if i < 16 then 0x600000090 + 0x100 * i else RegMap.nowhere
/-- Counter (R300). -/
def C.LNS_MACS_BY_FMT (i : Nat) : Nat := if i < 17 then 0x5F0000100 + 0x8 * i else RegMap.nowhere
/-- Counter (R338). -/
def C.LNS_QPASSES (i : Nat) (j : Nat) : Nat := if i < 16 ∧ j < 16 then 0x500010470 + 0x1000000 * i + 0x1000 * j else RegMap.nowhere
/-- Counter (R338). -/
def C.LNS_WIDEN_REQ (i : Nat) (j : Nat) : Nat := if i < 16 ∧ j < 16 then 0x500010478 + 0x1000000 * i + 0x1000 * j else RegMap.nowhere
/-- Counter (R338). -/
def C.LNS_WIDENED (i : Nat) (j : Nat) : Nat := if i < 16 ∧ j < 16 then 0x500010480 + 0x1000000 * i + 0x1000 * j else RegMap.nowhere
/-- Counter (R338). -/
def C.LNS_WIDEN_REFUSED (i : Nat) (j : Nat) : Nat := if i < 16 ∧ j < 16 then 0x500010488 + 0x1000000 * i + 0x1000 * j else RegMap.nowhere
/-- Counter (R338). -/
def C.LNS_WIDE_CLIP_STANDS (i : Nat) (j : Nat) : Nat := if i < 16 ∧ j < 16 then 0x500010490 + 0x1000000 * i + 0x1000 * j else RegMap.nowhere
/-- Counter (R338). -/
def C.LNS_SCALE_RECOMPUTED (i : Nat) (j : Nat) : Nat := if i < 16 ∧ j < 16 then 0x500010498 + 0x1000000 * i + 0x1000 * j else RegMap.nowhere
/-- Counter (R338). -/
def C.LNS_UNDERFLOW_RESCALE (i : Nat) (j : Nat) : Nat := if i < 16 ∧ j < 16 then 0x5000104A0 + 0x1000000 * i + 0x1000 * j else RegMap.nowhere
/-- Counter (R338). -/
def C.LNS_UNDERFLOW_NOFIX (i : Nat) (j : Nat) : Nat := if i < 16 ∧ j < 16 then 0x5000104A8 + 0x1000000 * i + 0x1000 * j else RegMap.nowhere
/-- Counter (R338). -/
def C.LNS_RESCALE_SATURATED (i : Nat) (j : Nat) : Nat := if i < 16 ∧ j < 16 then 0x5000104B0 + 0x1000000 * i + 0x1000 * j else RegMap.nowhere
/-- Counter (R338). -/
def C.LNS_SIDE_WAIT (i : Nat) (j : Nat) : Nat := if i < 16 ∧ j < 16 then 0x5000104B8 + 0x1000000 * i + 0x1000 * j else RegMap.nowhere
/-- Counter (R338). -/
def C.LNS_STEP_SKIPS (i : Nat) (j : Nat) : Nat := if i < 16 ∧ j < 16 then 0x5000104C0 + 0x1000000 * i + 0x1000 * j else RegMap.nowhere
/-- Counter (R338). -/
def C.LNS_FP16_FALLBACKS (i : Nat) (j : Nat) : Nat := if i < 16 ∧ j < 16 then 0x5000104C8 + 0x1000000 * i + 0x1000 * j else RegMap.nowhere
/-- Counter (R338). -/
def C.GRT_WIDEN_REQ (i : Nat) : Nat := if i < 16 then 0x600000098 + 0x100 * i else RegMap.nowhere
/-- Counter (R338). -/
def C.GRT_WIDENED (i : Nat) : Nat := if i < 16 then 0x6000000A0 + 0x100 * i else RegMap.nowhere
/-- Counter (R338). -/
def C.GRT_WIDEN_REFUSED (i : Nat) : Nat := if i < 16 then 0x6000000A8 + 0x100 * i else RegMap.nowhere
/-- Counter (R338). -/
def C.GRT_RESCALE_SATURATED (i : Nat) : Nat := if i < 16 then 0x6000000B0 + 0x100 * i else RegMap.nowhere
/-- Counter (R367). -/
def C.FOR_SAMPLES (i : Nat) : Nat := if i < 32 then 0x700001040 + 0x100 * i else RegMap.nowhere
/-- Counter (R367). -/
def C.FOR_BUSY_CYCLES (i : Nat) : Nat := if i < 32 then 0x700001048 + 0x100 * i else RegMap.nowhere
/-- Counter (R367). -/
def C.FOR_STALL_FEED (i : Nat) : Nat := if i < 32 then 0x700001050 + 0x100 * i else RegMap.nowhere
/-- Counter (R367). -/
def C.FOR_IDLE_CYCLES (i : Nat) : Nat := if i < 32 then 0x700001058 + 0x100 * i else RegMap.nowhere
/-- Counter (R367). -/
def C.FOR_MEM_CORRECTED (i : Nat) : Nat := if i < 32 then 0x700001060 + 0x100 * i else RegMap.nowhere
/-- Counter (R367). -/
def C.FOR_MEM_UNCORR (i : Nat) : Nat := if i < 32 then 0x700001068 + 0x100 * i else RegMap.nowhere
/-- Counter (R367). -/
def C.FOR_SAMPLES_FAILED (i : Nat) : Nat := if i < 32 then 0x700001070 + 0x100 * i else RegMap.nowhere
/-- Counter (R367). -/
def C.FOR_RESULTS : Nat := 0x700000800
/-- Counter (R367). -/
def C.FOR_MISSING : Nat := 0x700000808
/-- Counter (R367). -/
def C.FOR_NAN : Nat := 0x700000810
/-- Counter (R367). -/
def C.FOR_CAT_RANGE : Nat := 0x700000818
/-- Counter (R367). -/
def C.FOR_SCORE_NONFINITE : Nat := 0x700000820
/-- Counter (R367). -/
def C.FOR_ABANDONED : Nat := 0x700000828
/-- Counter (R367). -/
def C.FOR_BANK_FLIPS : Nat := 0x700000830
/-- Counter (R367). -/
def C.FOR_REEVALUATED : Nat := 0x700000838
/-- Counter (R401). -/
def C.SEQ_TOKENS (i : Nat) : Nat := if i < 15 then 0x800040000 + 0x100 * i else RegMap.nowhere
/-- Counter (R401). -/
def C.SEQ_MERGED (i : Nat) : Nat := if i < 15 then 0x800040008 + 0x100 * i else RegMap.nowhere
/-- Counter (R401). -/
def C.SEQ_DECIMATED (i : Nat) : Nat := if i < 15 then 0x800040010 + 0x100 * i else RegMap.nowhere
/-- Counter (R401). -/
def C.SEQ_INITIAL (i : Nat) : Nat := if i < 15 then 0x800040018 + 0x100 * i else RegMap.nowhere
/-- Counter (R401). -/
def C.SEQ_COMMIT_STALE (i : Nat) : Nat := if i < 15 then 0x800040020 + 0x100 * i else RegMap.nowhere
/-- Counter (R401). -/
def C.SEQ_COMMIT_LATE (i : Nat) : Nat := if i < 15 then 0x800040028 + 0x100 * i else RegMap.nowhere
/-- Counter (R401). -/
def C.SEQ_SWAPS (i : Nat) : Nat := if i < 15 then 0x800040030 + 0x100 * i else RegMap.nowhere
/-- Counter (R401). -/
def C.SEQ_SWEEP_RESETS (i : Nat) : Nat := if i < 15 then 0x800040038 + 0x100 * i else RegMap.nowhere
/-- Counter (R401). -/
def C.SEQ_STAGE_REFUSED (i : Nat) : Nat := if i < 15 then 0x800040040 + 0x100 * i else RegMap.nowhere
/-- Counter (R401). -/
def C.SEQ_LEARN_RECORDS (i : Nat) : Nat := if i < 15 then 0x800040048 + 0x100 * i else RegMap.nowhere
/-- Counter (R401). -/
def C.SEQ_RING_OVERWRITTEN (i : Nat) : Nat := if i < 15 then 0x800040050 + 0x100 * i else RegMap.nowhere
/-- Counter (R401). -/
def C.SEQ_STEPS (i : Nat) : Nat := if i < 15 then 0x800040058 + 0x100 * i else RegMap.nowhere
/-- Counter (R401). -/
def C.SEQ_STEPS_DEFERRED (i : Nat) : Nat := if i < 15 then 0x800040060 + 0x100 * i else RegMap.nowhere
/-- Counter (R401). -/
def C.SEQ_STEPS_DROPPED (i : Nat) : Nat := if i < 15 then 0x800040068 + 0x100 * i else RegMap.nowhere
/-- Counter (R401). -/
def C.SEQ_PUBLISHES (i : Nat) : Nat := if i < 15 then 0x800040070 + 0x100 * i else RegMap.nowhere
/-- Counter (R401). -/
def C.SEQ_LEARN_DISCARDED (i : Nat) : Nat := if i < 15 then 0x800040078 + 0x100 * i else RegMap.nowhere
/-- Counter (R431). -/
def C.TKP_CANDIDATES : Nat := 0x900000068
/-- Counter (R431). -/
def C.TKP_ADMITTED_T1 : Nat := 0x900000070
/-- Counter (R431). -/
def C.TKP_ADMITTED_T2 : Nat := 0x900000078
/-- Counter (R431). -/
def C.TKP_REFUSED_CREDIT : Nat := 0x900000080
/-- Counter (R431). -/
def C.TKP_REFUSED_CAP : Nat := 0x900000088
/-- Counter (R431). -/
def C.TKP_REISSUE_GRANTED : Nat := 0x900000090
/-- Counter (R431). -/
def C.TKP_REISSUE_REFUSED : Nat := 0x900000098
/-- Counter (R431). -/
def C.TKP_WIDEN_GRANTED : Nat := 0x9000000A0
/-- Counter (R431). -/
def C.TKP_WIDEN_REFUSED : Nat := 0x9000000A8
/-- Counter (R431). -/
def C.TKP_UNPLACED : Nat := 0x9000000B0
/-- Counter (R431). -/
def C.TKP_REMOTE_MISSED : Nat := 0x9000000B8
/-- Counter (R431). -/
def C.TKP_REPLACEMENTS : Nat := 0x9000000C0
/-- Counter (R431). -/
def C.TKP_FENCES : Nat := 0x9000000C8
/-- Counter (R431). -/
def C.TKP_DECIM_STEPS : Nat := 0x9000000D0
/-- Counter (R431). -/
def C.TKP_VERDICTS : Nat := 0x9000000D8
/-- Counter (R431). -/
def C.TKP_VERDICTS_TAP : Nat := 0x9000000E0
/-- Counter (R431). -/
def C.TKP_VERDICTS_STEPPING : Nat := 0x9000000E8
/-- Counter (R431). -/
def C.TKP_VERDICTS_FALLBACK : Nat := 0x9000000F0
/-- Counter (R431). -/
def C.TKP_VERDICTS_RULE : Nat := 0x9000000F8
/-- Counter (R431). -/
def C.APR_SOFT_DOWN : Nat := 0x900010100
/-- Counter (R431). -/
def C.APR_SOFT_UP : Nat := 0x900010108
/-- Counter (R431). -/
def C.APR_THROTTLES : Nat := 0x900010110
/-- Counter (R431). -/
def C.APR_THROTTLE_TICKS : Nat := 0x900010118
/-- Counter (R431). -/
def C.APR_DEBT_TICKS : Nat := 0x900010120
/-- Counter (R431). -/
def C.APR_RECALS : Nat := 0x900010128
/-- Counter (R431). -/
def C.APR_CREDIT_EXHAUSTED : Nat := 0x900010130
/-- Counter (R471). -/
def C.QUE_ITEMS_IN (i : Nat) : Nat := if i < 4096 then 0xB00100000 + 0x20 * i else RegMap.nowhere
/-- Counter (R471). -/
def C.QUE_ITEMS_OUT (i : Nat) : Nat := if i < 4096 then 0xB00100008 + 0x20 * i else RegMap.nowhere
/-- Counter (R471). -/
def C.QUE_TORN_ITEMS (i : Nat) : Nat := if i < 4096 then 0xB00100010 + 0x20 * i else RegMap.nowhere
/-- Counter (R471). -/
def C.QUE_UNDERRUNS (i : Nat) : Nat := if i < 4096 then 0xB00100018 + 0x20 * i else RegMap.nowhere
/-- Counter (R471). -/
def C.QUE_FLUSHES : Nat := 0xB00200000
/-- Counter (R471). -/
def C.QUE_FLUSHED_ITEMS : Nat := 0xB00200008
/-- Counter (R471). -/
def C.QUE_FLUSH_FORCED : Nat := 0xB00200010
/-- Counter (R471). -/
def C.QUE_DISCARDED_ENTRIES : Nat := 0xB00200018
/-- Counter (R471). -/
def C.QUE_ITEM_TOO_LONG : Nat := 0xB00200020
/-- Counter (R471). -/
def C.QUE_PUSH_REFUSED : Nat := 0xB00200028
/-- Counter (R471). -/
def C.QUE_DROPPED_FAULTED : Nat := 0xB00200030
/-- Counter (R471). -/
def C.QUE_TIMEOUT_NOTICES : Nat := 0xB00200038
/-- Counter (R471). -/
def C.QUE_WM_NOTICES : Nat := 0xB00200040
/-- Counter (R471). -/
def C.QUE_SPILL_ENTRIES : Nat := 0xB00200048
/-- Counter (R471). -/
def C.SYN_SIGNALS : Nat := 0xA50000000
/-- Counter (R471). -/
def C.SYN_WAITS_BLOCKED : Nat := 0xA50000008
/-- Counter (R471). -/
def C.SYN_OVERFLOW : Nat := 0xA50000010
/-- Counter (R471). -/
def C.SYN_UNDERFLOW : Nat := 0xA50000018
/-- Counter (R471). -/
def C.SYN_STORE_FULL : Nat := 0xA50000020
/-- Counter (R471). -/
def C.SYN_WDOG_FIRES : Nat := 0xA50000028
/-- Counter (R471). -/
def C.SYN_CTX_FAULTS : Nat := 0xA50000030
/-- Counter (R471). -/
def C.SYN_CTX_RESTARTS : Nat := 0xA50000038
/-- Counter (R471). -/
def C.SYN_SNAP_LOST : Nat := 0xA50000040
/-- Counter (R471). -/
def C.SYN_BAR_RELEASES : Nat := 0xA50000048
/-- Counter (R513). -/
def C.MIR_BLOCKS_TX (i : Nat) : Nat := if i < 4 then 0xC00020040 + 0x100 * i else RegMap.nowhere
/-- Counter (R513). -/
def C.MIR_BLOCKS_RX (i : Nat) : Nat := if i < 4 then 0xC00020048 + 0x100 * i else RegMap.nowhere
/-- Counter (R513). -/
def C.MIR_BLOCK_ERR (i : Nat) : Nat := if i < 4 then 0xC00020050 + 0x100 * i else RegMap.nowhere
/-- Counter (R513). -/
def C.MIR_CREDIT_OVERRUN (i : Nat) : Nat := if i < 4 then 0xC00020058 + 0x100 * i else RegMap.nowhere
/-- Counter (R513). -/
def C.MIR_SEQ_GAP (i : Nat) : Nat := if i < 4 then 0xC00020060 + 0x100 * i else RegMap.nowhere
/-- Counter (R513). -/
def C.MIR_REPLAYS (i : Nat) : Nat := if i < 4 then 0xC00020068 + 0x100 * i else RegMap.nowhere
/-- Counter (R513). -/
def C.MIR_RETRAINS (i : Nat) : Nat := if i < 4 then 0xC00020070 + 0x100 * i else RegMap.nowhere
/-- Counter (R513). -/
def C.MIR_PEER_SILENT (i : Nat) : Nat := if i < 4 then 0xC00020078 + 0x100 * i else RegMap.nowhere
/-- Counter (R513). -/
def C.MIR_FORWARDED (i : Nat) : Nat := if i < 4 then 0xC00020080 + 0x100 * i else RegMap.nowhere
/-- Counter (R513). -/
def C.MIR_FOREIGN (i : Nat) : Nat := if i < 4 then 0xC00020088 + 0x100 * i else RegMap.nowhere
/-- Counter (R513). -/
def C.MIR_PARKED (i : Nat) : Nat := if i < 4 then 0xC00020090 + 0x100 * i else RegMap.nowhere
/-- Counter (R513). -/
def C.MIR_PARK_OVERFLOW (i : Nat) : Nat := if i < 4 then 0xC00020098 + 0x100 * i else RegMap.nowhere
/-- Counter (R513). -/
def C.MEM_ECC_CORRECTED : Nat := 0xC00030000
/-- Counter (R513). -/
def C.MEM_ECC_UNCORR : Nat := 0xC00030008
/-- Counter (R513). -/
def C.MEM_CRC_RETRIES : Nat := 0xC00030010
/-- Counter (R513). -/
def C.MEM_POISON_READS : Nat := 0xC00030018
/-- Counter (R513). -/
def C.MEM_UNMAPPED : Nat := 0xC00030020
/-- Counter (R513). -/
def C.MEM_RETIREMENTS : Nat := 0xC00030028
/-- Counter (R513). -/
def C.MEM_RETIRED_WRITES : Nat := 0xC00030030
/-- Counter (R513). -/
def C.MEM_NO_ROUTE : Nat := 0xC00030038
/-- Counter (R513). -/
def C.MEM_RMT_OPS_TX : Nat := 0xC00030040
/-- Counter (R513). -/
def C.MEM_RMT_OPS_RX : Nat := 0xC00030048
/-- Counter (R513). -/
def C.MEM_RMT_NACK : Nat := 0xC00030050
/-- Counter (R513). -/
def C.MEM_RMT_TIMEOUT : Nat := 0xC00030058
/-- Counter (R513). -/
def C.MEM_HALL_RETX : Nat := 0xC00030060
/-- Counter (R513). -/
def C.MEM_HALL_BAD : Nat := 0xC00030068
/-- Counter (R513). -/
def C.MEM_HALL_PARK_OVERFLOW : Nat := 0xC00030070
/-- Counter (R513). -/
def C.MEM_RELEASE_WAITS : Nat := 0xC00030078
/-- Counter (R513). -/
def C.MEM_FENCE_WAITS : Nat := 0xC00030080
/-- Counter (R513). -/
def C.MEM_WIPE_FAILED : Nat := 0xC00030088
/-- Counter (R555). -/
def C.LPE_RECORDS : Nat := 0xD00040000
/-- Counter (R555). -/
def C.LPE_SAMPLES : Nat := 0xD00040008
/-- Counter (R555). -/
def C.LPE_EPOCHS : Nat := 0xD00040010
/-- Counter (R555). -/
def C.LPE_DROPPED_CMD : Nat := 0xD00040018
/-- Counter (R555). -/
def C.LPE_DROPPED_FAB : Nat := 0xD00040020
/-- Counter (R555). -/
def C.LPE_DROPPED_WATCH : Nat := 0xD00040028
/-- Counter (R555). -/
def C.LPE_DROPPED_SNAP : Nat := 0xD00040030
/-- Counter (R555). -/
def C.LPE_DROPPED_SAMPLE : Nat := 0xD00040038
/-- Counter (R555). -/
def C.LPE_TRACE_DENIED : Nat := 0xD00040040
/-- Counter (R555). -/
def C.LPE_HEALTH_ENTRIES : Nat := 0xD00040048
/-- Counter (R555). -/
def C.LPE_HEALTH_MERGED : Nat := 0xD00040050
/-- Counter (R555). -/
def C.LPE_WATCH_TORN : Nat := 0xD00040058
/-- Counter (R555). -/
def C.LPE_REGION_RESUMES : Nat := 0xD00040060
/-- Counter (R555). -/
def C.LPE_EXPORT_FRAMES : Nat := 0xD00040068
/-- Counter (R555). -/
def C.LPE_EXPORT_SKIPPED : Nat := 0xD00040070
/-- Counter (R555). -/
def C.LPE_STEPS : Nat := 0xD00040078
/-- Counter (R555). -/
def C.LPE_STEP_CMDS : Nat := 0xD00040080
/-- Counter (R555). -/
def C.LPE_LIFE_BATCHES : Nat := 0xD00040088
/-- Counter (R555). -/
def C.LPE_LIFE_ENTRIES : Nat := 0xD00040090
/-- Counter (R555). -/
def C.LPE_TIME_STEPS : Nat := 0xD00040098
/-- Counter (R555). -/
def C.LPE_TIME_HOLDOVERS : Nat := 0xD000400A0
/-- Counter (R555). -/
def C.LPE_CMDS (i : Nat) : Nat := if i < 7 then 0xD00040100 + 0x8 * i else RegMap.nowhere
/-- Counter (R588). -/
def C.CFG_CTL_REQUESTS : Nat := 0xE00040000
/-- Counter (R588). -/
def C.CFG_CTL_OK : Nat := 0xE00040008
/-- Counter (R588). -/
def C.CFG_CTL_REFUSED : Nat := 0xE00040010
/-- Counter (R588). -/
def C.CFG_CTL_SRC_REFUSED : Nat := 0xE00040018
/-- Counter (R588). -/
def C.CFG_CTL_RATE_LIMITED : Nat := 0xE00040020
/-- Counter (R588). -/
def C.CFG_CTL_QUEUE_FULL : Nat := 0xE00040028
/-- Counter (R588). -/
def C.CFG_SEQ_EVICTED : Nat := 0xE00040030
/-- Counter (R588). -/
def C.JRN_ENTRIES : Nat := 0xE00040038
/-- Counter (R588). -/
def C.JRN_SUMMARY : Nat := 0xE00040040
/-- Counter (R588). -/
def C.JRN_BATCHES : Nat := 0xE00040048
/-- Counter (R588). -/
def C.JRN_LOST_NUMBERS : Nat := 0xE00040050
/-- Counter (R588). -/
def C.JRN_EXPORT_FRAMES : Nat := 0xE00040058
/-- Counter (R588). -/
def C.JRN_EXPORT_SKIPPED : Nat := 0xE00040060
/-- Counter (R614). -/
def C.SEC_QUOTES : Nat := 0xF00040000
/-- Counter (R614). -/
def C.SEC_SIGNATURES : Nat := 0xF00040008
/-- Counter (R614). -/
def C.SEC_VERIFY_FAIL : Nat := 0xF00040010
/-- Counter (R614). -/
def C.SEC_BLOCKS_ABANDONED : Nat := 0xF00040018
/-- Counter (R614). -/
def C.SEC_LCS_REFUSED : Nat := 0xF00040020
/-- Counter (R654). -/
def C.PWR_LIMIT_EVENTS : Nat := 0x1000040000
/-- Counter (R654). -/
def C.PWR_PHASE_SHED : Nat := 0x1000040008
/-- Counter (R654). -/
def C.PWR_VIN_EXCURSIONS : Nat := 0x1000040010
/-- Counter (R654). -/
def C.CLK_DROOP_EVENTS : Nat := 0x1000040018
/-- Counter (R654). -/
def C.CLK_STRETCHED_CYCLES : Nat := 0x1000040020
/-- Counter (R654). -/
def C.CLK_UNLOCKS : Nat := 0x1000040028
/-- Counter (R654). -/
def C.CLK_OUT_DENIED : Nat := 0x1000040030

/-- Part of `RegMap.regs`. -/
def RegMap.regs0 : List RegDesc :=
  [RegMap.dTKP_TICK_CFG, RegMap.dTKP_TICK_ORIGIN, RegMap.dTKP_TICK_NOW, RegMap.dTKP_MODE, RegMap.dTKP_TICK_STAT, RegMap.dPORT_CFG, RegMap.dPORT_MAC_ADDR, RegMap.dPORT_LANE_POL, RegMap.dPORT_INLINE_BUF, RegMap.dPORT_SUBPORT_CFG, RegMap.dPORT_SUBPORT_STAT, RegMap.dPORT_SIDECAR_DA, RegMap.dPORT_LANE_STAT, RegMap.dPRS_CFG, RegMap.dPRS_MAL_VERDICT, RegMap.dPRS_ENTRY]

/-- Part of `RegMap.regs`. -/
def RegMap.regs1 : List RegDesc :=
  [RegMap.dPRS_INNER_MASK, RegMap.dPRS_GRAPH_INFO, RegMap.dPRS_RECIRC_STAT, RegMap.dPRS_NODE, RegMap.dPRS_TRANS, RegMap.dCLS_STATE, RegMap.dCLS_ENTRY_PROFILE, RegMap.dCLS_FREE, RegMap.dCLS_COMMIT_SEQ, RegMap.dCLS_VER, RegMap.dCLS_PROFILE, RegMap.dCLS_DEFAULT, RegMap.dCLS_ENTRY, RegMap.dFLW_CFG, RegMap.dFLW_TABLE_INFO, RegMap.dFLW_SAMPLE_CTL]

/-- Part of `RegMap.regs`. -/
def RegMap.regs2 : List RegDesc :=
  [RegMap.dFLW_OCC, RegMap.dFLW_VRF, RegMap.dFLW_KEY_PROFILE, RegMap.dFLW_POLICY, RegMap.dFLW_FEATURE_SET, RegMap.dFLW_ENT_TABLE, RegMap.dLNS_CFG, RegMap.dLNS_FENCE_SUMMARY, RegMap.dLNS_CLUSTER_STAT, RegMap.dLNS_CHK_LOG, RegMap.dLNS_CORE_STAT, RegMap.dLNS_FACET_STAT, RegMap.dLNS_RESCALE, RegMap.dGRT_STAT, RegMap.dGRT_CHK_LOG, RegMap.dGRT_RESCALE]

/-- Part of `RegMap.regs`. -/
def RegMap.regs3 : List RegDesc :=
  [RegMap.dFOR_MODEL, RegMap.dFOR_ENGINE_STAT, RegMap.dFOR_FEATURE, RegMap.dFOR_NODE, RegMap.dFOR_TREE, RegMap.dFOR_LEAF, RegMap.dFOR_CATSET, RegMap.dSEQ_MODEL, RegMap.dSEQ_DECIM, RegMap.dSEQ_LEARN_CFG, RegMap.dSEQ_STAGE_STAT, RegMap.dSEQ_RING_STAT, RegMap.dTKP_PLAN_CFG, RegMap.dTKP_ESC, RegMap.dTKP_ENERGY, RegMap.dAPR_CFG]

/-- Part of `RegMap.regs`. -/
def RegMap.regs4 : List RegDesc :=
  [RegMap.dAPR_STAT, RegMap.dAPR_CREDIT, RegMap.dAPR_WINDOW, RegMap.dAPR_TEMP, RegMap.dSYN_CTX_CFG, RegMap.dSYN_CTX_CTL, RegMap.dSYN_CTX_STAT, RegMap.dSYN_MAP, RegMap.dSYN_CTR, RegMap.dSYN_PIN, RegMap.dSYN_BAR, RegMap.dSYN_SNAP, RegMap.dQUE_DESC, RegMap.dQUE_STAT, RegMap.dQUE_CTL, RegMap.dMEM_CFG]

/-- Part of `RegMap.regs`. -/
def RegMap.regs5 : List RegDesc :=
  [RegMap.dMEM_MAP_INFO, RegMap.dMEM_HALL_CFG, RegMap.dMEM_WIPE_STAT, RegMap.dMIR_ROUTE, RegMap.dMEM_REFRESH, RegMap.dMEM_CHAN_STAT, RegMap.dMIR_CFG, RegMap.dMIR_STAT, RegMap.dLPE_CFG, RegMap.dLPE_EXPORT_DA, RegMap.dLPE_STAT, RegMap.dLPE_TIME_CFG, RegMap.dLPE_TIME_NOW, RegMap.dLPE_TIME_SET, RegMap.dLPE_TIME_STAT, RegMap.dLPE_RING_TRACE]

/-- Part of `RegMap.regs`. -/
def RegMap.regs6 : List RegDesc :=
  [RegMap.dLPE_RING_COUNTER, RegMap.dLPE_SEL, RegMap.dLPE_WATCH, RegMap.dLPE_REGION_STAT, RegMap.dLPE_LIFE_STAT, RegMap.dLPE_CMD_CTR0, RegMap.dLPE_CMD_CTR1, RegMap.dLPE_CMD_CTR2, RegMap.dLPE_CMD_CTR3, RegMap.dLPE_CMD_CTR4, RegMap.dLPE_CMD_CTR5, RegMap.dLPE_CMD_CTR6, RegMap.dCFG_BOOT, RegMap.dCFG_IMAGE_INFO, RegMap.dCFG_IMAGE_DIGEST, RegMap.dCFG_CTL_CFG]

/-- Part of `RegMap.regs`. -/
def RegMap.regs7 : List RegDesc :=
  [RegMap.dCFG_SRC_VLAN, RegMap.dCFG_SRC_MAC, RegMap.dCFG_SLOT_CTL, RegMap.dCFG_SLOT_STAT, RegMap.dCFG_SLOT_WIN, RegMap.dCFG_REPORT_INFO, RegMap.dCFG_REPORT, RegMap.dJRN_CFG, RegMap.dJRN_EXPORT_DA, RegMap.dJRN_STAT, RegMap.dJRN_ROOT, RegMap.dLCS_LOG, RegMap.dLCS_STAT, RegMap.dSEC_STAT, RegMap.dSEC_OWNER_IDX, RegMap.dSEC_KEY]

/-- Part of `RegMap.regs`. -/
def RegMap.regs8 : List RegDesc :=
  [RegMap.dSEC_BOOT_DIGEST, RegMap.dDEV_INFO, RegMap.dDEV_SERIAL, RegMap.dDEV_ID_DIGEST, RegMap.dDEV_ENDORSE, RegMap.dCLK_STAT, RegMap.dCLK_OUT_CFG, RegMap.dCLK_OUT_STAT, RegMap.dRST_STAT, RegMap.dPWR_STAT, RegMap.dPWR_TEMP]

/-- Every register of the map. -/
def RegMap.regs : List RegDesc :=
  RegMap.regs0 ++ RegMap.regs1 ++ RegMap.regs2 ++ RegMap.regs3 ++ RegMap.regs4 ++ RegMap.regs5 ++ RegMap.regs6 ++ RegMap.regs7 ++ RegMap.regs8

/-- Part of `RegMap.resets`. -/
def RegMap.resets0 : List RegDesc :=
  [RegMap.dTKP_TICK_CFG, RegMap.dPORT_INLINE_BUF, RegMap.dPORT_SUBPORT_CFG, RegMap.dPORT_SUBPORT_STAT, RegMap.dPORT_SIDECAR_DA, RegMap.dPRS_CFG, RegMap.dCLS_FREE, RegMap.dFLW_CFG, RegMap.dLNS_CFG, RegMap.dFOR_ENGINE_STAT, RegMap.dSEQ_LEARN_CFG, RegMap.dTKP_PLAN_CFG, RegMap.dAPR_CFG, RegMap.dAPR_STAT, RegMap.dSYN_CTX_CFG, RegMap.dSYN_CTR]

/-- Part of `RegMap.resets`. -/
def RegMap.resets1 : List RegDesc :=
  [RegMap.dSYN_PIN, RegMap.dQUE_STAT, RegMap.dMEM_CFG, RegMap.dMEM_HALL_CFG, RegMap.dLPE_CFG, RegMap.dLPE_EXPORT_DA, RegMap.dLPE_WATCH, RegMap.dCFG_BOOT, RegMap.dCFG_CTL_CFG, RegMap.dJRN_CFG, RegMap.dJRN_EXPORT_DA, RegMap.dDEV_INFO]

/-- The registers with a reset value other than 0. -/
def RegMap.resets : List RegDesc :=
  RegMap.resets0 ++ RegMap.resets1

/-- Part of `RegMap.counters`. -/
def RegMap.counters0 : List (Nat × List (Nat × Nat)) :=
  [(0x900000040, []), (0x900000048, []), (0x900000050, []), (0x900000058, []), (0x900000060, []), (0x900000038, []), (0x100010000, [(8, 0x100)]), (0x100010008, [(8, 0x100)]), (0x100010010, [(8, 0x100)]), (0x100010018, [(8, 0x100)]), (0x100010020, [(8, 0x100)]), (0x100010028, [(8, 0x100)]), (0x100010030, [(8, 0x100)]), (0x100010038, [(8, 0x100)]), (0x100010040, [(8, 0x100)]), (0x100010048, [(8, 0x100)])]

/-- Part of `RegMap.counters`. -/
def RegMap.counters1 : List (Nat × List (Nat × Nat)) :=
  [(0x100010050, [(8, 0x100)]), (0x100010058, [(8, 0x100)]), (0x100010060, [(8, 0x100)]), (0x100010068, [(8, 0x100)]), (0x100010070, [(8, 0x100)]), (0x100010078, [(8, 0x100)]), (0x100010080, [(8, 0x100)]), (0x100010088, [(8, 0x100)]), (0x100010090, [(8, 0x100)]), (0x100010098, [(8, 0x100)]), (0x1000100A0, [(8, 0x100)]), (0x1000100A8, [(8, 0x100)]), (0x1000100B0, [(8, 0x100)]), (0x1000100B8, [(8, 0x100)]), (0x200040000, []), (0x200040008, [])]

/-- Part of `RegMap.counters`. -/
def RegMap.counters2 : List (Nat × List (Nat × Nat)) :=
  [(0x200040010, []), (0x200040018, []), (0x200040020, []), (0x200040028, []), (0x200040030, []), (0x200040038, []), (0x200040040, []), (0x200040048, []), (0x200040050, []), (0x200040058, []), (0x200040060, []), (0x200040068, []), (0x300040000, []), (0x300040008, []), (0x300040010, []), (0x300040018, [])]

/-- Part of `RegMap.counters`. -/
def RegMap.counters3 : List (Nat × List (Nat × Nat)) :=
  [(0x300040020, []), (0x300040028, []), (0x300040030, []), (0x300040038, []), (0x300040040, []), (0x300040048, []), (0x300040100, [(16, 0x8)]), (0x300040180, [(16, 0x8)]), (0x400040000, []), (0x400040008, []), (0x400040010, []), (0x400040018, []), (0x400040020, []), (0x400040028, []), (0x400040030, []), (0x400040038, [])]

/-- Part of `RegMap.counters`. -/
def RegMap.counters4 : List (Nat × List (Nat × Nat)) :=
  [(0x400040040, []), (0x400040048, []), (0x400040050, []), (0x400040058, []), (0x400040060, []), (0x400040068, []), (0x400040070, []), (0x400040078, []), (0x400040080, []), (0x400040088, []), (0x400040090, []), (0x400040098, []), (0x500010040, [(16, 0x1000000), (16, 0x1000), (4, 0x100)]), (0x500010048, [(16, 0x1000000), (16, 0x1000), (4, 0x100)]), (0x500010050, [(16, 0x1000000), (16, 0x1000), (4, 0x100)]), (0x500010058, [(16, 0x1000000), (16, 0x1000), (4, 0x100)])]

/-- Part of `RegMap.counters`. -/
def RegMap.counters5 : List (Nat × List (Nat × Nat)) :=
  [(0x500010060, [(16, 0x1000000), (16, 0x1000), (4, 0x100)]), (0x500010068, [(16, 0x1000000), (16, 0x1000), (4, 0x100)]), (0x500010070, [(16, 0x1000000), (16, 0x1000), (4, 0x100)]), (0x500010078, [(16, 0x1000000), (16, 0x1000), (4, 0x100)]), (0x500010080, [(16, 0x1000000), (16, 0x1000), (4, 0x100)]), (0x500010088, [(16, 0x1000000), (16, 0x1000), (4, 0x100)]), (0x500010440, [(16, 0x1000000), (16, 0x1000)]), (0x500010448, [(16, 0x1000000), (16, 0x1000)]), (0x500010450, [(16, 0x1000000), (16, 0x1000)]), (0x500000040, [(16, 0x1000000)]), (0x500000048, [(16, 0x1000000)]), (0x500000050, [(16, 0x1000000)]), (0x500000058, [(16, 0x1000000)]), (0x500000060, [(16, 0x1000000)]), (0x500000068, [(16, 0x1000000)]), (0x500000070, [(16, 0x1000000)])]

/-- Part of `RegMap.counters`. -/
def RegMap.counters6 : List (Nat × List (Nat × Nat)) :=
  [(0x600000040, [(16, 0x100)]), (0x600000048, [(16, 0x100)]), (0x600000050, [(16, 0x100)]), (0x600000058, [(16, 0x100)]), (0x600000060, [(16, 0x100)]), (0x600000068, [(16, 0x100)]), (0x600000070, [(16, 0x100)]), (0x600000078, [(16, 0x100)]), (0x600000080, [(16, 0x100)]), (0x6000000B8, [(16, 0x100)]), (0x500010458, [(16, 0x1000000), (16, 0x1000)]), (0x500010460, [(16, 0x1000000), (16, 0x1000)]), (0x500010468, [(16, 0x1000000), (16, 0x1000)]), (0x600000088, [(16, 0x100)]), (0x600000090, [(16, 0x100)]), (0x5F0000100, [(17, 0x8)])]

/-- Part of `RegMap.counters`. -/
def RegMap.counters7 : List (Nat × List (Nat × Nat)) :=
  [(0x500010470, [(16, 0x1000000), (16, 0x1000)]), (0x500010478, [(16, 0x1000000), (16, 0x1000)]), (0x500010480, [(16, 0x1000000), (16, 0x1000)]), (0x500010488, [(16, 0x1000000), (16, 0x1000)]), (0x500010490, [(16, 0x1000000), (16, 0x1000)]), (0x500010498, [(16, 0x1000000), (16, 0x1000)]), (0x5000104A0, [(16, 0x1000000), (16, 0x1000)]), (0x5000104A8, [(16, 0x1000000), (16, 0x1000)]), (0x5000104B0, [(16, 0x1000000), (16, 0x1000)]), (0x5000104B8, [(16, 0x1000000), (16, 0x1000)]), (0x5000104C0, [(16, 0x1000000), (16, 0x1000)]), (0x5000104C8, [(16, 0x1000000), (16, 0x1000)]), (0x600000098, [(16, 0x100)]), (0x6000000A0, [(16, 0x100)]), (0x6000000A8, [(16, 0x100)]), (0x6000000B0, [(16, 0x100)])]

/-- Part of `RegMap.counters`. -/
def RegMap.counters8 : List (Nat × List (Nat × Nat)) :=
  [(0x700001040, [(32, 0x100)]), (0x700001048, [(32, 0x100)]), (0x700001050, [(32, 0x100)]), (0x700001058, [(32, 0x100)]), (0x700001060, [(32, 0x100)]), (0x700001068, [(32, 0x100)]), (0x700001070, [(32, 0x100)]), (0x700000800, []), (0x700000808, []), (0x700000810, []), (0x700000818, []), (0x700000820, []), (0x700000828, []), (0x700000830, []), (0x700000838, []), (0x800040000, [(15, 0x100)])]

/-- Part of `RegMap.counters`. -/
def RegMap.counters9 : List (Nat × List (Nat × Nat)) :=
  [(0x800040008, [(15, 0x100)]), (0x800040010, [(15, 0x100)]), (0x800040018, [(15, 0x100)]), (0x800040020, [(15, 0x100)]), (0x800040028, [(15, 0x100)]), (0x800040030, [(15, 0x100)]), (0x800040038, [(15, 0x100)]), (0x800040040, [(15, 0x100)]), (0x800040048, [(15, 0x100)]), (0x800040050, [(15, 0x100)]), (0x800040058, [(15, 0x100)]), (0x800040060, [(15, 0x100)]), (0x800040068, [(15, 0x100)]), (0x800040070, [(15, 0x100)]), (0x800040078, [(15, 0x100)]), (0x900000068, [])]

/-- Part of `RegMap.counters`. -/
def RegMap.counters10 : List (Nat × List (Nat × Nat)) :=
  [(0x900000070, []), (0x900000078, []), (0x900000080, []), (0x900000088, []), (0x900000090, []), (0x900000098, []), (0x9000000A0, []), (0x9000000A8, []), (0x9000000B0, []), (0x9000000B8, []), (0x9000000C0, []), (0x9000000C8, []), (0x9000000D0, []), (0x9000000D8, []), (0x9000000E0, []), (0x9000000E8, [])]

/-- Part of `RegMap.counters`. -/
def RegMap.counters11 : List (Nat × List (Nat × Nat)) :=
  [(0x9000000F0, []), (0x9000000F8, []), (0x900010100, []), (0x900010108, []), (0x900010110, []), (0x900010118, []), (0x900010120, []), (0x900010128, []), (0x900010130, []), (0xB00100000, [(4096, 0x20)]), (0xB00100008, [(4096, 0x20)]), (0xB00100010, [(4096, 0x20)]), (0xB00100018, [(4096, 0x20)]), (0xB00200000, []), (0xB00200008, []), (0xB00200010, [])]

/-- Part of `RegMap.counters`. -/
def RegMap.counters12 : List (Nat × List (Nat × Nat)) :=
  [(0xB00200018, []), (0xB00200020, []), (0xB00200028, []), (0xB00200030, []), (0xB00200038, []), (0xB00200040, []), (0xB00200048, []), (0xA50000000, []), (0xA50000008, []), (0xA50000010, []), (0xA50000018, []), (0xA50000020, []), (0xA50000028, []), (0xA50000030, []), (0xA50000038, []), (0xA50000040, [])]

/-- Part of `RegMap.counters`. -/
def RegMap.counters13 : List (Nat × List (Nat × Nat)) :=
  [(0xA50000048, []), (0xC00020040, [(4, 0x100)]), (0xC00020048, [(4, 0x100)]), (0xC00020050, [(4, 0x100)]), (0xC00020058, [(4, 0x100)]), (0xC00020060, [(4, 0x100)]), (0xC00020068, [(4, 0x100)]), (0xC00020070, [(4, 0x100)]), (0xC00020078, [(4, 0x100)]), (0xC00020080, [(4, 0x100)]), (0xC00020088, [(4, 0x100)]), (0xC00020090, [(4, 0x100)]), (0xC00020098, [(4, 0x100)]), (0xC00030000, []), (0xC00030008, []), (0xC00030010, [])]

/-- Part of `RegMap.counters`. -/
def RegMap.counters14 : List (Nat × List (Nat × Nat)) :=
  [(0xC00030018, []), (0xC00030020, []), (0xC00030028, []), (0xC00030030, []), (0xC00030038, []), (0xC00030040, []), (0xC00030048, []), (0xC00030050, []), (0xC00030058, []), (0xC00030060, []), (0xC00030068, []), (0xC00030070, []), (0xC00030078, []), (0xC00030080, []), (0xC00030088, []), (0xD00040000, [])]

/-- Part of `RegMap.counters`. -/
def RegMap.counters15 : List (Nat × List (Nat × Nat)) :=
  [(0xD00040008, []), (0xD00040010, []), (0xD00040018, []), (0xD00040020, []), (0xD00040028, []), (0xD00040030, []), (0xD00040038, []), (0xD00040040, []), (0xD00040048, []), (0xD00040050, []), (0xD00040058, []), (0xD00040060, []), (0xD00040068, []), (0xD00040070, []), (0xD00040078, []), (0xD00040080, [])]

/-- Part of `RegMap.counters`. -/
def RegMap.counters16 : List (Nat × List (Nat × Nat)) :=
  [(0xD00040088, []), (0xD00040090, []), (0xD00040098, []), (0xD000400A0, []), (0xD00040100, [(7, 0x8)]), (0xE00040000, []), (0xE00040008, []), (0xE00040010, []), (0xE00040018, []), (0xE00040020, []), (0xE00040028, []), (0xE00040030, []), (0xE00040038, []), (0xE00040040, []), (0xE00040048, []), (0xE00040050, [])]

/-- Part of `RegMap.counters`. -/
def RegMap.counters17 : List (Nat × List (Nat × Nat)) :=
  [(0xE00040058, []), (0xE00040060, []), (0xF00040000, []), (0xF00040008, []), (0xF00040010, []), (0xF00040018, []), (0xF00040020, []), (0x1000040000, []), (0x1000040008, []), (0x1000040010, []), (0x1000040018, []), (0x1000040020, []), (0x1000040028, []), (0x1000040030, [])]

/-- Every counter of the map: base address and dimensions. -/
def RegMap.counters : List (Nat × List (Nat × Nat)) :=
  RegMap.counters0 ++ RegMap.counters1 ++ RegMap.counters2 ++ RegMap.counters3 ++ RegMap.counters4 ++ RegMap.counters5 ++ RegMap.counters6 ++ RegMap.counters7 ++ RegMap.counters8 ++ RegMap.counters9 ++ RegMap.counters10 ++ RegMap.counters11 ++ RegMap.counters12 ++ RegMap.counters13 ++ RegMap.counters14 ++ RegMap.counters15 ++ RegMap.counters16 ++ RegMap.counters17

/-- The offset of control address `a` within one element of an array at `base` with dimensions `dims`. -/
def RegMap.offset (base : Nat) (dims : List (Nat × Nat)) (a : Nat) : Option Nat :=
  if a < base then none
  else dims.foldl (fun o d => o.bind fun x => if x / d.2 < d.1 then some (x % d.2) else none) (some (a - base))

/-- The word of `r` at control address `a`, if `a` is one of its addresses. -/
def RegDesc.wordIx (r : RegDesc) (a : Nat) : Option Nat :=
  (RegMap.offset r.base r.dims a).bind fun o => if o % 8 = 0 && o / 8 < r.words then some (o / 8) else none

/-- The register and word that control address `a` reaches. -/
def RegMap.lookup (rs : List RegDesc) (a : Nat) : Option (RegDesc × Nat) :=
  rs.findSome? fun r => (r.wordIx a).map fun i => (r, i)

/-- Whether control address `a` is a counter. -/
def RegMap.isCounter (a : Nat) : Bool :=
  RegMap.counters.any fun c => RegMap.offset c.1 c.2 a == some 0

/-- The elements of the field as (bit, width) within word `i`. -/
def RegField.inWord (f : RegField) (i : Nat) : List Nat :=
  ((List.range f.count).map fun n => f.lo + n * f.stride).filter fun b => b / 64 = i

/-- The bits of word `i` whose fields satisfy `p`. -/
def RegDesc.mask (r : RegDesc) (i : Nat) (p : RegField → Bool) : Nat :=
  r.fields.foldl (fun m f => if p f then (f.inWord i).foldl (fun m b => setBits m (b % 64) f.width (2 ^ f.width - 1)) m else m) 0

/-- The reset value of word `i` (R7). -/
def RegDesc.resetOf (r : RegDesc) (i : Nat) : Nat :=
  r.fields.foldl (fun m f => (f.inWord i).foldl (fun m b => setBits m (b % 64) f.width f.reset) m) 0

/-- What an unlisted register word reads as: its reset value (R7); counters reset to 0. -/
def resetWord (a : Nat) : Word :=
  match RegMap.lookup RegMap.resets a with
  | some (r, i) => BitVec.ofNat 64 (r.resetOf i)
  | none => 0

end Sys2Proof.Machine
end

