-- ==== Sys2Proof/Machine/State.lean ====
section
/-! DEFINITION. The state of the device: its registers in one store, and beside them every buffer, queue, table, pin and
flash region the spec gives it, with the command queue; the state right after reset; the faults and refusals. Numbers that
the spec treats as bits of a register are words of the register store; the parts below hold what lies outside it. -/

namespace Sys2Proof.Machine

/-! ### The port (chapter 2) -/

/-- Pause of one class of a sub-port (R65, R66): when the present hold began and until when it lasts, time held in the present
1 ms window before that, whether further pause is ignored until the window ends. -/
structure ClassPause where
  since : Nat
  until_ : Nat
  held : Nat
  ignoring : Bool
  deriving DecidableEq, Repr

/-- No pause. -/
def ClassPause.none_ : ClassPause := ⟨0, 0, 0, false⟩

/-- An entry of a sub-port's egress queue (R44): a released packet with its shim, its own packet number, its class and the bytes
it holds of the inline buffer; whether its action drops it. -/
structure EgressItem where
  packet : Nat
  cls : Nat
  bytes : List Byte
  held : Nat
  dropped : Bool
  /-- Flow index and incarnation, by which R20 keeps the packets of a flow in order. -/
  flow : Option (Nat × Nat)
  deriving DecidableEq, Repr

/-- A record frame that is open or closed (R42, R74, R76): sub-port, batch, records (32 bytes each). -/
structure RecordFrame where
  sp : Nat
  batch : Nat
  records : List (List Byte)
  /-- `FRAME_SEQ`, given when it closes. -/
  seq : Nat
  deriving DecidableEq, Repr

/-- What the device has sent. -/
inductive Sent where
  /-- A frame without its FCS on a sub-port. -/
  | frame (sp : Nat) (bytes : List Byte)
  /-- A 256-byte block on a Mirror link. -/
  | block (link : Nat) (bytes : List Byte)
  /-- A pulse on `PPS_OUT/TICK_OUT` (R642, R643) or an edge on `TICK_SYNC` (R638), at a time-base value. -/
  | pulse (line : Nat) (ns : Nat)
  /-- JTAG data shifted out (R644, R645). -/
  | jtag (bits : Nat)
  deriving DecidableEq, Repr

/-- What a frame of the device's own brings when it leaves (R63, R64): an export raises its counter, a `Delay_Req` gives the servo its
sequence number and its send stamp. -/
inductive OwnKind where
  | plain
  | journalExport
  | loupeExport
  | delayReq (seq : Nat)
  deriving DecidableEq, Repr

/-- A frame of the device's own that waits for its class (R64). -/
structure OwnFrame where
  bytes : List Byte
  kind : OwnKind
  deriving DecidableEq, Repr

/-- A sub-port's state beyond its registers. -/
structure SubPort where
  pause : List ClassPause
  egress : List EgressItem
  frameSeq : Nat
  /-- The device has paused this sub-port's partner (R68). -/
  partnerPaused : Bool
  /-- The configuration fields a breakout change carries over are registers; the link's training failures since the last
  success restart after 8 with 100 ms spacing: when the next attempt may begin. -/
  retrainNs : Nat
  /-- Frames of the device's own held by a pause of `OWN_CLASS`, oldest first (R64, R65). -/
  own : List OwnFrame
  deriving DecidableEq, Repr

/-- A sub-port with nothing queued. -/
def SubPort.empty : SubPort := ⟨List.replicate 8 ClassPause.none_, [], 0, false, 0, []⟩

/-- A received control, Hall or MAC Control frame with its sub-port and receive stamp. -/
structure RxFrame where
  sp : Nat
  bytes : List Byte
  rxTime : Nat
  deriving DecidableEq, Repr

/-- The port's state beyond its registers. -/
structure Port where
  subs : List SubPort
  /-- Received frames not yet taken by the MAC Control sublayer, the management processors, the fabric engine. -/
  macCtl : List RxFrame
  ctlRx : List RxFrame
  hallRx : List RxFrame
  /-- The next packet number. -/
  nextPacket : Nat
  /-- Closed record frames (R76) and the open ones. -/
  records : List RecordFrame
  openRecords : List RecordFrame
  /-- When the pause was last sent to the paused partners (R68). -/
  pauseSentNs : Nat
  /-- The start of the 1 ms pause window in force (R66). -/
  pauseWindow : Nat
  /-- Lane polarity in force, laid out as `PORT_LANE_POL`: each lane takes its bits at its link training (R54). -/
  polarity : Nat
  sent : List Sent
  deriving DecidableEq, Repr

/-- Nothing received, nothing sent. -/
def Port.reset : Port :=
  { subs := List.replicate 8 SubPort.empty, macCtl := [], ctlRx := [], hallRx := [], nextPacket := 0, records := [],
    openRecords := [], pauseSentNs := 0, pauseWindow := 0, polarity := 0, sent := [] }

/-! ### Packets on their way: Prism, classifier, flow engine (chapters 1, 3, 4, 5) -/

/-- The result of a pass: its outcome (Table 3.5), the shim flags that are the packet's own (Table 2.6), the 128-byte field
vector (Table 3.7). -/
structure PassResult where
  outcome : Nat
  flags : Nat
  fv : List Byte
  deriving DecidableEq, Repr

/-- Where a packet stands. -/
inductive Stage where
  /-- Received; its first pass has not entered. -/
  | arrived
  /-- A pass is in a pipe: the `PRS_CFG` value it latched, its start offset and node, its key profile. -/
  | parsing (cfg start node profile : Nat)
  /-- Its pass is delivered and being searched under a key profile; the `PRS_CFG` value of the pass. -/
  | searching (cfg profile : Nat)
  /-- Its recirculation request is queued: node, slot, profile. -/
  | recirc (node slot profile : Nat)
  /-- The flow engine has it: its primary bucket and entities are being read. -/
  | flow
  /-- Front latency over: held until its release (inline only). -/
  | held
  deriving DecidableEq, Repr

/-- Why a packet is not sampled (R89): decimation, want of a slot, another cause. -/
inductive NotSampled where
  | decimated | noSlot | other
  deriving DecidableEq, Repr

/-- The flow a packet belongs to. -/
structure FlowRef where
  index : Nat
  incarnation : Nat
  hash : Nat
  deriving DecidableEq, Repr

/-- A packet's flow key: key string, lower endpoint is the source, endpoints equal, hash, key profile, fragment bit (R175 to R178). -/
structure FlowKey where
  key : List Byte
  srcLow : Bool
  equal : Bool
  hash : Nat
  profile : Nat
  frag : Bool
  deriving DecidableEq, Repr

/-- A packet between its reception and its release. -/
structure Packet where
  id : Nat
  sp : Nat
  /-- The frame without its FCS. -/
  frame : List Byte
  rxTime : Nat
  /-- Mode in effect when its last bit arrived (R78). -/
  mode : Nat
  cls : Nat
  stage : Stage
  /-- Passes that have entered a pipe, and when the first entered. -/
  passes : Nat
  firstEntry : Nat
  pass : PassResult
  /-- Version slot and number it was stamped with, and whether it still holds its reference (R153, R155). -/
  slot : Nat
  ver : Nat
  refHeld : Bool
  action : Nat
  flow : Option FlowRef
  /-- Its flow key, formed when the flow engine took it (R185, Table 5.2). -/
  key : Option FlowKey := none
  /-- Batch number and slot of its sample. -/
  sample : Option (Nat × Nat)
  why : NotSampled
  /-- On the malformed path: reason code (R120, R121). -/
  malformed : Option Nat
  /-- The verdict written for its sample, as a shim word of 16 bytes. -/
  verdict : Option (List Byte)
  /-- Its buffered copy was discarded when its sub-port went down (R57). -/
  gone : Bool
  deriving DecidableEq, Repr

/-- A line of the flow cache (R182): flow index, bytes 0 to 191, dirty. Lines of a set stand least recently used first. -/
structure CacheLine where
  index : Nat
  data : List Byte
  dirty : Bool
  deriving DecidableEq, Repr

/-- A sweep of a version slot (R146), and whether it copies the Current version (R157). -/
structure Sweep where
  slot : Nat
  copying : Bool
  deriving DecidableEq, Repr

/-- Prism, classifier and flow engine beyond their registers. -/
structure Front where
  /-- Packets in the order of arrival. -/
  packets : List Packet
  /-- Passes in the pipes, searches, recirculation requests and flow lookups in flight: packet numbers, oldest first. -/
  parsing : List Nat
  searching : List Nat
  recircs : List Nat
  lookups : List Nat
  /-- The flow cache, by set. -/
  cache : Sparse (List CacheLine)
  sweeps : List Sweep
  /-- The RULE_STAGE request that opened the staging, waiting for the copy sweep: its records. -/
  opening : Option (List Byte)
  /-- RULE_STAGE, RULE_COMMIT and RULE_ABORT requests that wait for it: opcode and payload, oldest first (R574). -/
  ruleWaits : List (Nat × List Byte)
  /-- The parity bit of each rule position; an unlisted one is 0 (R136). -/
  parity : Sparse Bool
  /-- The firmware's DRAM copy of rule positions, by register word (R167). -/
  ruleCopy : Sparse Word
  /-- The ageing sweep's present period: when it began by the oscillator, its length in ms, and the buckets it has visited (R190). -/
  ageStartNs : Nat
  agePeriodMs : Nat
  ageVisited : Nat
  deriving DecidableEq, Repr

/-- Nothing on its way. -/
def Front.reset : Front :=
  { packets := [], parsing := [], searching := [], recircs := [], lookups := [], cache := [], sweeps := [], opening := none,
    ruleWaits := [], parity := [], ruleCopy := [], ageStartNs := 0, agePeriodMs := 1000, ageVisited := 0 }

/-! ### Lens cores, Gratings and forest engines (chapters 6, 8, 9) -/

/-- A running array pass of a partition (R240): the tensors and registers it latched at its first tile (R322), its accumulators
(R218), its group sums (R311) and what its publication will need. -/
structure Pass where
  partition : Nat
  /-- The partitions that hold its program: its own, and after a re-placement those of the pieces (R25, R426). -/
  homes : List Nat
  context : Nat
  model : Nat
  tier : Nat
  learning : Bool
  cmdId : Nat
  /-- Quantisation block address, its bytes, the three tensor descriptors' bytes. -/
  qaddr : Nat
  qblock : List Byte
  actDesc : List Byte
  wgtDesc : List Byte
  outDesc : List Byte
  biases : List Nat
  rescale : List Nat
  /-- The outlier indices, side activations and side weights (R317). -/
  side : List Byte
  /-- The format of the activations: their descriptor's, or the one their record names (R327, R334). -/
  actCode : Nat
  /-- Runs on a Gang (R233). -/
  gang : Bool
  /-- A widening re-run (R327). -/
  wide : Bool
  nTotal : Nat
  mTotal : Nat
  kTotal : Nat
  out : Place
  completion : Nat
  slots : List Nat
  /-- FP32 accumulators by vector × nTotal + column. -/
  acc : Sparse Nat
  /-- The accumulators its outputs hold (R218), by the same numbers: the Facet in whose drain, and the rows and parts added so far. -/
  held : Sparse (Nat × Nat) := []
  /-- Cycles of a vector: of a Facet by Table 6.2, on a Grating the product of the operand widths (R260). -/
  vectorCycles : Nat := 1
  /-- Group sums by (part × groups + group) × mTotal × nTotal + vector × nTotal + column: rows done, sum, weight sum. -/
  groups : Sparse (Nat × Int × Int)
  /-- The last tile of the pass is done; tiles of it that are stopped and may be re-issued keep it open. -/
  lastDone : Bool
  /-- Its command was begun at this time. -/
  beganNs : Nat
  reissues : Nat
  deriving DecidableEq, Repr

/-- A tile on a partition: as issued, whether it runs again after a checksum failure in this window (R250), from which cycle of its
region on, and the operand codes it streams, activations by vector × K and weights by row × N. -/
structure RunTile where
  tile : Tile
  again : Bool
  issued : Nat
  act : List Nat
  wgt : List Nat
  deriving DecidableEq, Repr

/-- A tile that stopped and may be re-issued (Table 6.6): the tile, its cause (order of Table 6.6, 0 to 6, 8 more once its re-issue
has been refused), re-issue granted, the tick of the stop, and the products of it that no re-issue covers yet. -/
structure StoppedTile where
  tile : Tile
  cause : Nat
  granted : Bool
  tick : Nat
  left : Nat
  deriving DecidableEq, Repr

/-- The weight banks of the cells of a Facet or Grating, row by row (R216, R259). -/
structure Bank where
  active : List Nat
  shadow : List Nat
  deriving DecidableEq, Repr

/-- A weight block that the Facets of a Lens core take from one read in the shared-weight form (R232): the tile that read it, its
weights unless the read was lost, and the Facets that have taken it. -/
structure SharedBlock where
  tile : Tile
  wgt : Option (List Nat)
  taken : List Nat
  deriving DecidableEq, Repr

/-- A pass that has swapped: its stage program's context, model and tier, and its `CMD_ID`. -/
structure Swap where
  context : Nat
  model : Nat
  tier : Nat
  learning : Bool
  cmdId : Nat
  deriving DecidableEq, Repr

/-- A feature of a sample (R345). -/
inductive Feat where
  | missing
  | nan
  | uint (v : Nat)
  | int (v : Int)
  | float (fp32 : Nat)
  | cat (v : Nat)
  deriving DecidableEq, Repr

/-- A sample in a replica (R343, R353). -/
structure ForestJob where
  model : Nat
  slot : Nat
  replica : Nat
  feats : List Feat
  /-- The `FOREST` cycle in which its gather began; each cycle for which its replica has frozen since makes it one later (R354). -/
  issued : Nat
  /-- The stages it had reached before a word of them went bad, and the stage at which it failed (R360). -/
  past : List Nat
  failed : Option Nat
  deriving DecidableEq, Repr

/-- Lens cores, Gratings and forest engines beyond their registers. -/
structure Lens where
  passes : List Pass
  running : List RunTile
  stopped : List StoppedTile
  /-- Weight banks by Facet index, 1,024 + g for Grating g. -/
  banks : Sparse Bank
  /-- Cycles of a Facet or Grating, numbered as its banks, that a counter of Table 6.4 has. -/
  settled : Sparse Nat
  /-- The weight block in use in the shared-weight form, by Lens core (R232). -/
  shared : Sparse SharedBlock
  /-- The passes that have swapped since their program began its graph (R244). -/
  swapped : List Swap
  /-- Outputs published in another format than their descriptor's (R327), or with a scale that the device may since have replaced (R331):
  descriptor address, format and scale they were written with. -/
  published : Sparse (Nat × Nat)
  /-- Published passes that ask to be re-run wider (R325), and those granted whose re-run has not begun (R327). -/
  widen : List Pass
  granted : List Pass
  /-- Mover operations issued and not complete, oldest first. -/
  movers : List MoverOp
  /-- The forest samples in flight, oldest first. -/
  jobs : List ForestJob
  /-- Samples of each model entered in this window, and slots granted a re-evaluation (R361). -/
  entered : Sparse Nat
  reeval : List (Nat × Nat)
  /-- Samples that failed in a replica and wait for the planner: model, slot. -/
  failed : List (Nat × Nat)
  /-- Control addresses of forest words found bad (R360). -/
  badWords : List Nat
  /-- Shadow banks and feature maps, by the control address of the word's active place (R362). -/
  shadow : Sparse Word
  /-- Features in the map that a model's shadow has (R362). -/
  shadowFeatures : Sparse Nat
  /-- The firmware's DRAM copy of the forest words (R360). -/
  forestCopy : Sparse Word
  deriving DecidableEq, Repr

/-- Nothing runs. -/
def Lens.reset : Lens :=
  { passes := [], running := [], stopped := [], banks := [], settled := [], shared := [], swapped := [], published := [], widen := [], granted := [], movers := [], jobs := [], entered := [], reeval := [],
    failed := [], badWords := [], shadow := [], shadowFeatures := [], forestCopy := [] }

/-! ### Generations, state and learning (chapter 10) -/

/-- A trainable tensor of a model (R397): its descriptor, its weights in use, its master copy in FP32, its elements, its optimiser state
and the bytes of it, and the section's master weights and optimiser state where the section has them. -/
structure Trainable where
  desc : Nat
  wgt : Nat
  master : Nat
  elems : Nat
  optimiser : Nat
  optBytes : Nat
  own : Option Nat
  ownOpt : Option Nat
  deriving DecidableEq, Repr

/-- The shadow copy of a generation beside the forest banks (R380, R388): its state layout signature, and what the flip puts in
place: initial state, bytes of shared memory (dense weights, descriptors, output blocks), rescale registers, trainable tensors,
label table. What a publish leaves as it is has no value here. -/
structure ShadowGen where
  sig : Nat
  h0 : Option (List Byte)
  memory : List (Nat × List Byte)
  rescale : List (Nat × Word)
  trainable : Option (List Trainable)
  labels : Option (List Nat)
  deriving DecidableEq, Repr

/-- The staging of a model section (R383 to R385): model, section length, KiB blocks written, and what a section that passed its
checks is loading. -/
structure Staging where
  model : Nat
  length : Nat
  blocks : List Nat
  gen : Option ShadowGen
  deriving DecidableEq, Repr

/-- A swap accepted and not yet flipped (R387, R397). -/
structure SwapPend where
  model : Nat
  reset : Bool
  publish : Bool
  gen : Nat
  tick : Nat
  deriving DecidableEq, Repr

/-- A learning step of a model (R393, R395, R396): the tick its first phase began in, attempts skipped, the ring positions of its
records, and the configuration it began with. -/
structure LearnStep where
  startTick : Option Nat
  attempt : Nat
  records : List Nat
  maxTicks : Nat
  publishSteps : Nat
  deriving DecidableEq, Repr

/-- A tensor that a pass of a training step's attempt overflowed (R332): its descriptor, the pass's `AMAX`, and whether every value before
conversion was finite. -/
structure Overflow where
  desc : Nat
  amax : Nat
  finite : Bool
  /-- The Lens core whose counters the pass counts in (R338). -/
  core : Option Nat
  deriving DecidableEq, Repr

/-- What a pass of an attempt has overwritten (R333): the place and its bytes, the tensor's descriptor address, and what its codes were
published as. -/
structure Undo where
  place : Place
  bytes : List Byte
  desc : Nat
  was : Option (Nat × Nat)
  deriving DecidableEq, Repr

/-- A model's learner (R395 to R398): its step, the steps completed since the last publish, descriptors of tensors whose `SKIPS`
is not 0 (R333), the overflows of the attempt, and what the attempt's passes have overwritten of weights and optimiser state, newest
first. -/
structure Learner where
  step : Option LearnStep
  sincePublish : Nat
  skips : List Nat
  overflows : List Overflow
  undo : List Undo
  deriving DecidableEq, Repr

/-- A learner with nothing begun. -/
def Learner.idle : Learner := ⟨none, 0, [], [], []⟩

/-- Sequences and learning beyond their registers. -/
structure Seq where
  staging : Option Staging
  /-- Shadow copies ready to swap, by model. -/
  staged : Sparse ShadowGen
  swaps : List SwapPend
  /-- Named tick at which a carry-over's old generation ends (R389), by model. -/
  retire : Sparse Nat
  learners : Sparse Learner
  /-- Tensors in FP16 fallback, by descriptor: model, latest `AMAX` (R334). -/
  fallback : Sparse (Nat × Nat)
  /-- The learning ring (R392): positions that hold a record, oldest first, and the position the next record tries. -/
  ringLive : List Nat
  ringHead : Nat
  /-- The slots of the computing batch whose place in the new-state block has been written (R377). -/
  newStates : List Nat
  /-- The state-ready counters of the computing batch have been signalled (R376). -/
  readySent : Bool
  /-- Addresses the load report gives: slot sets, state blocks, new-state blocks, staging region, learning ring. -/
  slotSets : List Nat
  stateBlocks : List Nat
  newBlocks : List Nat
  stagingBase : Nat
  ringBase : Nat
  /-- Output blocks by model × 4 + tier (R356), step areas by context (R534), and the initial state h₀ of each model (R373). -/
  outBlocks : Sparse Nat
  stepAreas : Sparse Nat
  h0 : Sparse (List Byte)
  trainable : Sparse (List Trainable)
  labels : Sparse (List Nat)
  deriving DecidableEq, Repr

/-- Nothing staged, nothing learnt. -/
def Seq.reset : Seq :=
  { staging := none, staged := [], swaps := [], retire := [], learners := [], fallback := [], ringLive := [], ringHead := 0,
    newStates := [], readySent := false, slotSets := [0, 0], stateBlocks := [0, 0], newBlocks := [0, 0], stagingBase := 0, ringBase := 0,
    outBlocks := [], stepAreas := [], h0 := [], trainable := [], labels := [] }

/-! ### Ticks, samples, tick planner, Aperture (chapters 1 and 11) -/

/-- A tier result (R357, R403): the raw scores, FP32 patterns by lane. -/
abbrev Raw := List Nat

/-- What the planner knows of a sample of a batch. Its record lies in its slot in the shared memory (R206). -/
structure Sample where
  slot : Nat
  packet : Nat
  sp : Nat
  /-- What its record and its packet give the verdict engine: mode of arrival (R45), entry version, action word, the packet's own
  shim flags (Table 2.6), ingress stamp, flow. -/
  mode : Nat
  ver : Nat
  action : Nat
  own : Nat
  rxTime : Nat
  flow : FlowRef
  model : Nat
  context : Nat
  /-- Results of T0, T1, T2, and the y formed from each (R357). -/
  raw : List (Option Raw)
  ys : List (Option Raw)
  /-- Tiers it has been admitted to. -/
  admitted : List Nat
  /-- Waits in an admission group. -/
  candidate : Bool
  refused : Bool
  merged : Bool
  decimated : Bool
  rerun : Bool
  widened : Bool
  /-- Its T0 cannot complete: poisoned record, bad word (Table 13.2, R360). -/
  dead : Bool
  /-- A state read of its flow is wanted (1), under way for a commit (2) or ended (3) (R375). -/
  stateRead : Nat
  /-- Its update's new state has been committed. -/
  committed : Bool
  /-- Its update starts from h₀ (R373). -/
  initial : Bool
  /-- Its final verdict is written. -/
  done : Bool
  deriving DecidableEq, Repr

/-- A batch: its number, its slot set (0 or 1), its samples in slot order (R33, R34). -/
structure Batch where
  number : Nat
  set : Nat
  samples : List Sample
  deriving DecidableEq, Repr

/-- A candidate in a group (R405): slot, tiers asked for, distance as a fraction. -/
structure Cand where
  slot : Nat
  tiers : List Nat
  dist : Nat × Nat
  deriving DecidableEq, Repr

/-- The quiet count and the last step up of a gap (R423), and whether the window just ended held an event. -/
structure GapState where
  quiet : Nat
  lastUp : Option Nat
  event : Bool
  deriving DecidableEq, Repr

/-- A unit to be fenced at the next boundary (R425): kind (Table 11.4 row: 0 Facet, 1 Lens core, 2 cluster, 3 Grating,
4 forest engine), index. -/
structure FenceReq where
  kind : Nat
  index : Nat
  deriving DecidableEq, Repr

/-- What a tier of a model did in the windows since the last CAP recompute (R415). -/
structure TierUse where
  admitted : Nat
  windows : Nat
  /-- Admitted and left to admit in this window. -/
  left : Nat
  /-- A sample admitted to the tier missed the planned end. -/
  overran : Bool
  deriving DecidableEq, Repr

/-- A logical resource of a stage program bound to a physical one (Table 1.3): its kind (0 local memory, 1 cluster memory, 2 DRAM,
3 counter, 4 signal, 5 barrier, 6 queue), the first byte or number, and how many. -/
structure Binding where
  kind : Nat
  base : Nat
  size : Nat
  deriving DecidableEq, Repr

/-- A stage program as placement put it (R22, R426): its kind (0 Facet partition, 1 Gang partition, 2 Grating stage, 3 forest
replica), context, model, tier, its units (Facet indexes, Grating, engines), running. -/
structure Placed where
  kind : Nat
  id : Nat
  context : Nat
  model : Nat
  tier : Nat
  learning : Bool
  units : List Nat
  running : Bool
  /-- The logical resources bound to it beside its units (Table 1.3). -/
  bindings : List Binding
  deriving DecidableEq, Repr

/-- Ticks, batches, planner and Aperture beyond their registers. -/
structure Plan where
  ticking : Bool
  /-- The number of the present tick, and when it began. -/
  tick : Nat
  tickNs : Nat
  /-- When the next boundary is due. -/
  nextNs : Nat
  /-- The period in force, and the deadline of the compute window. -/
  period : Nat
  /-- First boundary made (R516): tick and soft-step counts run from it. -/
  firstTick : Option Nat
  /-- `TKP_MODE` in force for the compute window (R50), `TKP_ESC` and `TKP_PLAN_CFG` likewise (R430). -/
  mode : Nat
  esc : Sparse Word
  planCfg : Nat
  /-- The follower's edges: time of each recent edge with the number given to it; whether one has been numbered (R497). -/
  edges : List (Nat × Nat)
  numbered : Bool
  /-- Periods gone by without an edge (R31). -/
  missed : Nat
  collecting : Option Batch
  computing : Option Batch
  /-- The batch whose verdict deadline fell last (R378). -/
  past : Option Batch
  /-- The window has passed its planned end. -/
  plannedEnd : Bool
  openGroup : List Cand
  openSince : Nat
  closedGroups : List (List Cand)
  /-- A candidate has been refused for credit in this window. -/
  exhausted : Bool
  /-- Credit left in the window as FP32. -/
  left : Nat
  /-- Energy charged in this tick, and input and charged energy of the last 64 ticks, newest first, as FP32. -/
  charged : Nat
  history : List (Nat × Nat)
  imageFixed : Nat
  imageEnergy : Sparse Nat
  recalsTick : Nat
  /-- Recalibrated `E_UJ` values of the next window (R414): model × 4 + entry, FP32. -/
  energyNext : List (Nat × Nat)
  /-- Tier-samples and learning phases completed since the last recalibration (R414): model × 4 + entry. -/
  completed : Sparse Nat
  /-- The tick of the latest soft-step comparison (R420). -/
  softTick : Option Nat
  /-- A BUDGET_W written and not yet in effect (R419). -/
  budgetPending : Bool
  use : Sparse TierUse
  decim : GapState
  gaps : List GapState
  /-- Sensor readings in 1/8 °C, by sensor: 0 to 63 compute die, 64 to 95 DRAM tiers. -/
  temps : Sparse Int
  fences : List FenceReq
  /-- Ticks of the failures that count towards a fence: (kind, index), tick. -/
  failures : List (Nat × Nat × Nat)
  placed : List Placed
  /-- Tiers of which a stage program has found no place: model, tier (R427). -/
  lost : List (Nat × Nat)
  /-- Tiles re-issued in this window. -/
  reissued : List Tile
  /-- Learning phases admitted in this window. -/
  phases : List Nat
  deriving DecidableEq, Repr

/-- Before the first start-up: no ticks. -/
def Plan.reset : Plan :=
  { ticking := false, tick := 0, tickNs := 0, nextNs := 0, period := 2000, firstTick := none, mode := 0, esc := [],
    planCfg := 0, edges := [], numbered := false, missed := 0, collecting := none, computing := none, past := none, plannedEnd := false,
    openGroup := [], openSince := 0, closedGroups := [], exhausted := false, left := 0, charged := 0, history := [],
    imageFixed := 0, imageEnergy := [], recalsTick := 0, energyNext := [], completed := [], softTick := none, budgetPending := false, use := [], decim := ⟨0, none, false⟩,
    gaps := List.replicate 15 ⟨0, none, false⟩, temps := [], fences := [], failures := [], placed := [], lost := [], reissued := [],
    phases := [] }

/-! ### Synchronisation and queues (chapter 12) -/

/-- A physical counter (R432, R435): its count, its initial value and the engine of its last signal. -/
structure Ctr where
  value : Nat
  init : Nat
  signaller : Nat
  deriving DecidableEq, Repr

/-- What a wait is blocked on (R448). -/
inductive WaitOn where
  /-- `WAIT` of n on a virtual counter. -/
  | counter (v n : Nat)
  /-- `WAIT` on a pinned signal: core, signal. -/
  | pin (core pin : Nat)
  /-- `ARRIVE` at a barrier network. -/
  | barrier (network : Nat)
  /-- A blocking push to a full queue: the entry with its SOI and EOI bits. -/
  | push (queue : Nat) (entry : List Byte) (soi eoi : Bool)
  deriving DecidableEq, Repr

/-- A blocked wait, with the tick boundaries that its context's watchdog has counted and whether it holds a place in the
waiter store (R439). -/
structure Wait where
  on : WaitOn
  context : Nat
  engine : Nat
  ticks : Nat
  stored : Bool
  deriving DecidableEq, Repr

/-- An entry of a queue with its tag bits, and the address of the spill region it went through (R455, R456). -/
structure QEntry where
  data : List Byte
  soi : Bool
  eoi : Bool
  spilledAt : Option Nat
  deriving DecidableEq, Repr

/-- A queue's contents beyond its registers: entries oldest first, how many of them are visible, how many are in the head and
in the middle, the entry last read, times for R462, the next spill index, the last pusher, boundaries since a pending flush. -/
structure Queue where
  entries : List QEntry
  visible : Nat
  headN : Nat
  midN : Nat
  lastRead : Option (List Byte)
  lastReadNs : Nat
  firstVisibleNs : Nat
  timedOut : Bool
  spillNext : Nat
  pusher : Nat
  flushTicks : Nat
  deriving DecidableEq, Repr

/-- A queue with nothing in it. -/
def Queue.empty : Queue :=
  { entries := [], visible := 0, headN := 0, midN := 0, lastRead := none, lastReadNs := 0, firstVisibleNs := 0,
    timedOut := false, spillNext := 0, pusher := 0xFFFF, flushTicks := 0 }

/-- The answer an engine got to its latest TRY_TAKE, READ or TEST, or to its latest queue read or push. -/
inductive SyncAnswer where
  | taken (ok : Bool)
  | count (n : Nat)
  | bit (b : Bool)
  | entry (data : List Byte) (soi eoi : Bool)
  | pushed (ok : Bool)
  | released
  deriving DecidableEq, Repr

/-- Synchronisation objects and queues beyond their registers. -/
structure Sync where
  ctrs : Sparse Ctr
  waits : List Wait
  /-- Members that have arrived at each network: bits 0 to 255 Lens cores, 256 to 271 Gratings. -/
  arrived : Sparse Nat
  queues : Sparse Queue
  /-- By engine ID. -/
  answers : Sparse SyncAnswer
  /-- Engine of the latest arrival at each network (Table 12.5). -/
  lastArrive : Sparse Nat
  /-- The device has released BOARD_BARRIER for its local members, who wait for the line to go high (R444). -/
  boardReleased : Bool
  /-- The counter that the host wrote last, by physical number, and when (Table 12.7). -/
  written : Option (Nat × Nat)
  deriving DecidableEq, Repr

/-- Nothing waits and nothing is queued. -/
def Sync.reset : Sync :=
  { ctrs := [], waits := [], arrived := [], queues := [], answers := [], lastArrive := [], boardReleased := false, written := none }

/-! ### Memory, Mirror links and the Hall path (chapter 13) -/

/-- A remote operation as received and not yet carried out (Tables 13.5 and 13.6). -/
structure InOp where
  src : Nat
  hall : Bool
  link : Nat
  opc : Nat
  flags : Nat
  len : Nat
  pseq : Nat
  tag : Nat
  target : Nat
  payload : List Byte
  /-- Blocks of the link's receive buffer that it frees when it is taken (R491). -/
  frees : Nat
  deriving DecidableEq, Repr

/-- A request of this device that has no answer yet (R502, R503). -/
structure OutOp where
  dest : Nat
  hall : Bool
  opc : Nat
  pseq : Nat
  context : Nat
  engine : Nat
  target : Nat
  len : Nat
  issuedNs : Nat
  deriving DecidableEq, Repr

/-- A request that waits at the source: for a free sequence number (R503), or as a held FENCE_ALL signal (R507). -/
structure HeldOp where
  /-- For a held FENCE_ALL signal, the unacknowledged writes it waits for: destination, Hall path, number. -/
  waitsFor : List (Nat × Bool × Nat)
  opc : Nat
  dest : Nat
  context : Nat
  engine : Nat
  release : Bool
  fence : Bool
  len : Nat
  target : Nat
  payload : List Byte
  deriving DecidableEq, Repr

/-- The answer to a remote request, as the requester sees it: none is poison (Table 13.7). -/
structure RmtAnswer where
  engine : Nat
  tag : Nat
  data : Option (List Byte)
  deriving DecidableEq, Repr

/-- The source end of a pair path (R503, R531). -/
structure PairTx where
  dest : Nat
  hall : Bool
  next : Nat
  wraps : Nat
  deriving DecidableEq, Repr

/-- A request received on a pair path at or above its commit mark: its number, whether it is a write not yet committed. -/
structure PairSeen where
  pseq : Nat
  open_ : Bool
  deriving DecidableEq, Repr

/-- A release that waits (R505): its number, context, counter, amount, tag. -/
structure Release where
  pseq : Nat
  context : Nat
  counter : Nat
  amount : Nat
  tag : Nat
  deriving DecidableEq, Repr

/-- The destination end of a pair path (R505, R506). -/
structure PairRx where
  src : Nat
  hall : Bool
  /-- The link the path's requests arrive on. -/
  link : Nat
  mark : Nat
  seen : List PairSeen
  wraps : Nat
  lastPseq : Nat
  releases : List Release
  deriving DecidableEq, Repr

/-- A remote write taken and not yet committed (R504). -/
structure OpenWrite where
  src : Nat
  hall : Bool
  link : Nat
  pseq : Nat
  tag : Nat
  addr : Nat
  data : List Byte
  deriving DecidableEq, Repr

/-- A block of operations kept until acknowledged (R492): sequence number, class, the 256 bytes. -/
structure SentBlock where
  seq : Nat
  cls : Nat
  bytes : List Byte
  deriving DecidableEq, Repr

/-- Operation bytes that wait for a credit or a frame: class, bytes, and, where they start a request of this device, the engine
ID of the issuer and the wrap count its `FAB_TX` shows (R530, R531). -/
structure WaitBlock where
  cls : Nat
  bytes : List Byte
  mark : Option (Nat × Nat)
  deriving DecidableEq, Repr

/-- One end of a Mirror link beyond its registers (R490 to R494). -/
structure Link where
  /-- Last sequence number sent; the next one expected. -/
  txSeq : Nat
  rxNext : Nat
  /-- Credits held, request and response class. -/
  creditReq : Nat
  creditRsp : Nat
  /-- Credits the peer holds of this end's buffer. -/
  peerReq : Nat
  peerRsp : Nat
  unacked : List SentBlock
  /-- Blocks of operations waiting for a credit. -/
  waiting : List WaitBlock
  /-- Bytes of an operation that continues in later blocks, by class. -/
  partReq : List Byte
  partRsp : List Byte
  /-- A gap: first missing number, when its last replay request was sent, failed replays. -/
  gap : Option (Nat × Nat × Nat)
  /-- The highest number dropped behind a gap and not yet accepted: blocks up to it have been asked for again (R530). -/
  dropped : Option Nat
  /-- Times of the credit overruns of the last second. -/
  overruns : List Nat
  lastValidNs : Nat
  /-- When the next training attempt is due. -/
  retryNs : Option Nat
  /-- Its electrical training has succeeded and it waits for the peer's ID block, or is up (R489). -/
  trained : Bool
  deriving DecidableEq, Repr

/-- A link before its training. -/
def Link.down : Link :=
  { txSeq := 0, rxNext := 1, creditReq := 64, creditRsp := 64, peerReq := 64, peerRsp := 64, unacked := [], waiting := [],
    partReq := [], partRsp := [], gap := none, dropped := none, overruns := [], lastValidNs := 0, retryNs := none, trained := false }

/-- A Hall frame kept until acknowledged (R500). -/
structure HallSent where
  seq : Nat
  /-- Its operations. -/
  ops : List Byte
  sentNs : Nat
  resends : Nat
  deriving DecidableEq, Repr

/-- The Hall state of one pair of devices (R500). -/
structure HallPair where
  dev : Nat
  next : Nat
  unacked : List HallSent
  /-- Operations that wait for a place among the 64 unacknowledged frames. -/
  waiting : List WaitBlock
  /-- Highest number received with all earlier ones; numbers received beyond it. -/
  ack : Nat
  beyond : List Nat
  deriving DecidableEq, Repr

/-- Errors of a channel, by the tick in which they fell (R482). -/
structure ChanErrs where
  crc : List Nat
  uncorr : List Nat
  deriving DecidableEq, Repr

/-- Memories and fabric beyond their registers. -/
structure Fabric where
  /-- Shared memory by local address: DRAM and cluster memories (Table 13.1). -/
  mem : List Host.Cell
  /-- Core memories: core number × 512 KiB + address (R214). -/
  core : List Host.Cell
  /-- Granules of shared memory whose code is uncorrectable (R478), by local address / 64. -/
  poison : Sparse Bool
  chanErrs : Sparse ChanErrs
  /-- Channels to retire at the next boundary, with the cause (R482). -/
  retiring : List (Nat × Nat)
  inOps : List InOp
  openWrites : List OpenWrite
  out : List OutOp
  held : List HeldOp
  answers : List RmtAnswer
  pairTx : List PairTx
  pairRx : List PairRx
  links : List Link
  hall : List HallPair
  deriving DecidableEq, Repr

/-- Memories wiped (R509), links down, nothing sent. -/
def Fabric.reset : Fabric :=
  { mem := [], core := [], poison := [], chanErrs := [], retiring := [], inOps := [], openWrites := [], out := [],
    held := [], answers := [], pairTx := [], pairRx := [], links := List.replicate 4 Link.down, hall := [] }

/-! ### Loupe (chapter 14) -/

/-- Events of one kind and instance counted since the previous HEALTH entry of the pair (R548). -/
structure HealthAcc where
  event : Nat
  inst : Nat
  count : Nat
  detail : Nat
  /-- When the pair's latest entry was written. -/
  lastNs : Option Nat
  deriving DecidableEq, Repr

/-- A publication that a watch reads (R528): statistics record address, tensor, writing command, the scale it was written with. -/
structure Published where
  stat : Nat
  place : Place
  cmdId : Nat
  scale : Nat
  deriving DecidableEq, Repr

/-- A watch's read under way (R528): tensor, writing command, format, descriptor, clipped and NaN counts of the statistics record, when
it began by the oscillator. -/
structure WatchRead where
  place : Place
  cmdId : Nat
  fmt : Nat
  desc : List Byte
  clipped : Nat
  nanSq : Nat
  beganNs : Nat
  deriving DecidableEq, Repr

/-- One tensor watch at work (R527 to R529). -/
structure WatchRun where
  /-- Publications since the last firing. -/
  pubs : Nat
  /-- The publication that made the watch due. -/
  due : Option Published
  /-- The read under way. -/
  reading : Option WatchRead
  deriving DecidableEq, Repr

/-- A command that an engine runs (R521): its engine, the unit of it that runs the command (the partition of a stage program, else the
engine), its identity, bytes 10 to 23 of its records, whether a `STEP` let it begin, when it began, and its counts of Table 14.5. -/
structure EngineCmd where
  engine : Nat
  unit : Nat
  context : Nat
  model : Nat
  cmdId : Nat
  head : List Byte
  stepped : Bool
  beganNs : Nat
  counts : List Nat
  deriving DecidableEq, Repr

/-- The command that an engine ended last (R525): when, its `CMD_ID` and its final counts. -/
structure EndedCmd where
  ns : Nat
  cmdId : Nat
  counts : List Nat
  deriving DecidableEq, Repr

/-- A STEP request that has not been answered (R535). -/
structure StepRun where
  context : Nat
  commands : Nat
  engine : Nat
  /-- Commands that its programs have begun and ended, by the number of the program's partition; the `CMD_ID` of the last that ended. -/
  begun : Sparse Nat
  ended : Sparse Nat
  lastCmd : Nat
  deriving DecidableEq, Repr

/-- The step batch of a context in Step (R534). -/
structure StepBatch where
  samples : List Sample
  finished : Bool
  deriving DecidableEq, Repr

/-- The servo of the time base (R515, R516). -/
structure Servo where
  /-- Consecutive measured offsets within ±100 ns. -/
  good : Nat
  /-- When the source was last heard. -/
  heardNs : Option Nat
  /-- The latest PTP `Sync` received: its sequence number, its receive stamp, its origin stamp when it came in the message. -/
  sync : Option (Nat × Nat × Option Nat)
  /-- The `Sync` whose origin stamp is known: receive stamp less origin stamp in ns. -/
  syncDiff : Option Int
  /-- `Delay_Req` sent: its sequence number and its send stamp. -/
  delayReq : Option (Nat × Nat)
  /-- Path delay in ns, from the latest `Delay_Resp`. -/
  pathDelay : Int
  /-- `Delay_Req` messages sent. -/
  delaySent : Nat
  deriving DecidableEq, Repr

/-- Loupe's state beyond its registers. -/
structure Loupe where
  servo : Servo
  /-- Trace records staged for the trace ring, oldest first (R539). -/
  staging : List (List Byte)
  /-- Health entries staged, oldest first (R539, R540), and the stream position of the oldest. -/
  health : List (List Byte)
  healthPos : Nat
  healthAcc : List HealthAcc
  /-- The µs window of R542 and the DRAM bytes used in it. -/
  dramWindow : Nat
  dramUsed : Nat
  /-- By sub-port, a 100 µs window of R542 and the frame bytes used in it. -/
  frames : Sparse (Nat × Nat)
  /-- Drops since the previous LOST record, in the order of R543: command, fabric, watch, snapshot, sample. -/
  lost : List Nat
  /-- The number of the next sample block. -/
  sampleNo : Nat
  watches : Sparse WatchRun
  /-- The commands that run, oldest first, and the last that ended by engine. -/
  cmds : List EngineCmd
  ended : Sparse EndedCmd
  /-- Export position and frame number of streams 0 and 1 (R545, R546). -/
  exportPos : List Nat
  exportSeq : List Nat
  /-- STEP_MODE requests accepted and not yet in effect: context and ON (R533). -/
  stepPend : Sparse Bool
  steps : List StepRun
  stepBatches : Sparse StepBatch
  /-- STOP_TIME of stopped regions (R519). -/
  stopTime : Sparse Nat
  /-- Pending life-record entries, oldest first, the open time of the batch and the time of its first decision entry. -/
  lifePend : List (List Byte)
  lifeOpen : Nat
  lifeDecision : Option Nat
  /-- The first minute after the start-up has passed at a batch close (R550). -/
  lifeFirst : Bool
  /-- When, by the oscillator, the write of the newest life-record batch ends (Table 14.11; log entry 74, DEDUCED). -/
  lifeWritten : Nat
  /-- A standing-copy write under way and the one queued behind it (R552). -/
  copyBusy : Bool
  copyData : List Byte
  copyQueued : Bool
  /-- Since the last daily entries: events of Table 14.8 by event × 2^32 + instance, DRAM corrections by 2^40 + channel × 32 + bank
  (Table 14.9). -/
  dayCounts : Sparse Nat
  deriving DecidableEq, Repr

/-- Loupe after a reset: nothing staged, nothing counted. -/
def Loupe.reset : Loupe :=
  { servo := ⟨0, none, none, none, none, 0, 0⟩, staging := [], health := [], healthPos := 0, healthAcc := [],
    dramWindow := 0, dramUsed := 0, frames := [], lost := [0, 0, 0, 0, 0], sampleNo := 0,
    watches := [], cmds := [], ended := [], exportPos := [0, 0], exportSeq := [0, 0], stepPend := [], steps := [],
    stepBatches := [], stopTime := [], lifePend := [], lifeOpen := 0, lifeDecision := none, lifeFirst := false, lifeWritten := 0,
    copyBusy := false, copyData := [], copyQueued := false, dayCounts := [] }

/-! ### Control frames and the change journal (chapter 15) -/

/-- A control request that passed its checks and holds a place in the queue (Table 15.8, R574). -/
structure Req where
  sp : Nat
  /-- The 4 bytes of its tag, or none. -/
  tag : List Byte
  sa : Nat
  vid : Option Nat
  opcode : Nat
  seq : Nat
  addr : Nat
  len : Nat
  context : Nat
  /-- The 32 header bytes from offset 16. -/
  header : List Byte
  payload : List Byte
  /-- Its execution has begun and its response waits for an event (a sweep, a step, a load). -/
  begun : Bool
  deriving DecidableEq, Repr

/-- An entry of the sequence table (R571): source, last accepted SEQ, that request's final status, none while it runs. -/
structure SeqEntry where
  mac : Nat
  last : Nat
  status : Option Nat
  deriving DecidableEq, Repr

/-- Refusals of one source in the present second (R581): for ACCESS, for RATE_LIMITED. -/
structure Refused where
  mac : Nat
  access : Nat
  rate : Nat
  deriving DecidableEq, Repr

/-- A slot operation under way (Table 15.5): operation, slot. -/
structure SlotOp where
  op : Nat
  slot : Nat
  deriving DecidableEq, Repr

/-- What a request is answered: status, response payload, the DETAIL of its journal entry where it is not the payload's first
16 bytes, and the kind of that entry (Table 15.14). -/
structure Answer where
  status : Nat
  payload : List Byte := []
  detail : Option (List Byte) := none
  kind : Nat := 1
  deriving DecidableEq, Repr

/-- Control frames beyond their registers. -/
structure Ctl where
  /-- Least recently used first. -/
  seqs : List SeqEntry
  tokens : Nat
  queue : List Req
  /-- The CLOSE whose load runs in the background (R574). -/
  background : Option Req
  /-- Status and response payload of the opcode executed last. -/
  last : Nat × List Byte
  refused : List Refused
  surplus : Refused
  slotOp : Option SlotOp
  deriving DecidableEq, Repr

/-- No source known; the bucket is full at reset (R573). -/
def Ctl.reset : Ctl :=
  { seqs := [], tokens := 256, queue := [], background := none, last := (0, []), refused := [], surplus := ⟨0, 0, 0⟩,
    slotOp := none }

/-- The change journal beyond its registers (R581 to R585). -/
structure Journal where
  /-- The open batch: its entries, oldest first, and when the first was staged. -/
  entries : List (List Byte)
  openNs : Nat
  /-- The same instant by the oscillator. -/
  openClock : Nat
  exportPos : Nat
  exportSeq : Nat
  deriving DecidableEq, Repr

/-- No batch open. -/
def Journal.reset : Journal := { entries := [], openNs := 0, openClock := 0, exportPos := 0, exportSeq := 0 }

/-! ### Flash, keys and life cycle (chapters 14 to 16) -/

/-- A batch in a flash ring: stream position, bytes. -/
structure RingBatch where
  pos : Nat
  bytes : List Byte
  deriving DecidableEq, Repr

/-- The signature state of a device key in the identity region (R594, R595). `used` is the index that its next signature would
take: no part of the flash, it tells the next start-up whether indices of the last block were skipped. -/
structure KeyState where
  reservedTo : Nat
  exact_ : Option Nat
  certSeq : Nat
  used : Nat
  deriving DecidableEq, Repr

/-- A certificate kept in the identity region (R592). -/
structure Cert where
  seq : Nat
  kind : Nat
  bytes : List Byte
  deriving DecidableEq, Repr

/-- The flash (NVM): boot region, slots, user region, life-record region and the identity region's records other than those
of `Life`. Flash words are listed when something has programmed them since their block's last erase. -/
structure Nvm where
  /-- Boot firmware copies 0 and 1 by word offset from the region's start (copy 1 at 7 MiB). -/
  boot : Sparse Word
  /-- The settings of R562 as (control address, value), and whether any are stored. -/
  settings : List (Nat × Word)
  prefer : Nat
  slotA : Sparse Word
  slotB : Sparse Word
  /-- Journal ring (R584) and life record (R549), oldest batch first. -/
  journal : List RingBatch
  life : List RingBatch
  /-- The stream positions of life-record batches that a power loss has left half written (Table 14.11). -/
  lifeTorn : List Nat
  lifePos : Nat
  lifeSeq : Nat
  /-- The standing copy of R552: block and digest; empty when none has been written. -/
  standing : List Byte
  /-- DRAM training values are stored (R635). -/
  trained : Bool
  mac : Nat
  idKey : Bool
  keys : List KeyState
  certs : List Cert
  certNext : Nat
  endorsement : List Byte
  quotes : Nat
  nextJseq : Nat
  lastBatch : Nat
  jrnHead : Nat
  jrnOldest : Nat
  jrnRoot : List Byte
  prevHdr : List Byte
  /-- The open marker of R584: BATCH_SEQ, FIRST_JSEQ. -/
  marker : Option (Nat × Nat)
  deriving DecidableEq, Repr

/-- A flash in which nothing has been written. -/
def Nvm.blank : Nvm :=
  { boot := [], settings := [], prefer := 0, slotA := [], slotB := [], journal := [], life := [], lifeTorn := [], lifePos := 0, lifeSeq := 0,
    standing := [], trained := false, mac := 0, idKey := false, keys := List.replicate 3 ⟨0, none, 0, 0⟩, certs := [],
    certNext := 1, endorsement := [], quotes := 0, nextJseq := 0, lastBatch := 0, jrnHead := 0, jrnOldest := 0,
    jrnRoot := [], prevHdr := [], marker := none }

/-- A transition record (Table 16.13). -/
structure LcsRecord where
  seq : Nat
  from_ : Nat
  to_ : Nat
  auth : Nat
  time : Nat
  mac : Nat
  batch : Nat
  deriving DecidableEq, Repr

/-- The life-cycle records of the identity region (R603 to R611): stored state, pending erasures (bit 0 user region, 1 slot A,
2 slot B), least security version, JTAG write sessions, transition records newest first, transitions made. -/
structure Life where
  stored : Nat
  erase : Nat
  minSvn : Nat
  jtagWrites : Nat
  log : List LcsRecord
  seq : Nat
  deriving DecidableEq, Repr

/-- A die that nothing has moved out of MANUFACTURE: no value held reads 0 (R613). -/
def Life.fresh : Life := { stored := 0, erase := 0, minSvn := 0, jtagWrites := 0, log := [], seq := 0 }

/-- A signed quote (R602). -/
structure Quote where
  seq : Nat
  signature : List Byte
  deriving DecidableEq, Repr

/-- The security unit beyond its registers and the flash. -/
structure Sec where
  /-- The live challenge and when it was issued (R606). -/
  challenge : Option (List Byte × Nat)
  /-- Newest first, at most 4. -/
  quotes : List Quote
  /-- `ROOT_KEY` of the running boot copy (R598); owner section key of the running image (R559). -/
  rootKey : List Byte
  /-- `SVN` of the running boot copy, from which `MIN_SVN` rises (R599). -/
  svn : Nat
  ownerKey : Option (List Byte)
  imageLoaded : Bool
  deriving DecidableEq, Repr

/-- Nothing issued, nothing loaded. -/
def Sec.reset : Sec := { challenge := none, quotes := [], rootKey := [], svn := 0, ownerKey := none, imageLoaded := false }

/-! ### Supply, clocks, reset and JTAG (chapter 17) -/

/-- Where the device stands between power and running (R617 to R636). -/
inductive Phase where
  /-- No good input, or off after a fault until the rails return. -/
  | off
  /-- Off until `RESET_N` is asserted or the input is removed and restored (R623). -/
  | shutDown
  /-- The input is good and the start-up has not run; the next start-up's cause is recorded. -/
  | starting
  /-- `BOOT_HALT` (Table 17.5). -/
  | halted
  /-- `RESET_N` held low (R631). -/
  | held
  /-- Stage 0x0B to 0x0D. -/
  | running
  deriving DecidableEq, Repr

/-- An `NVM_ACCESS` operation under way (R645). -/
structure NvmOp where
  op : Nat
  region : Nat
  offset : Nat
  data : Word
  deriving DecidableEq, Repr

/-- The cycles a region's clock has run: up to an instant of the oscillator, in MHz × ns (log entry 71, DESIGN CHOICE). -/
structure Meter where
  fromNs : Nat
  sum : Nat
  deriving DecidableEq, Repr

/-- Supply, clocks, reset and the JTAG port beyond their registers. -/
structure Supply where
  phase : Phase
  /-- Row of Table 17.1, 0 (above 13.8 V) to 4 (below 10.2 V). -/
  vinRow : Nat
  /-- The input voltage last seen, in mV. -/
  vinMv : Nat
  /-- `RESET_N` is low (R631). -/
  resetLow : Bool
  /-- The input is between 10.8 V and 13.2 V or has come so since the last start: cause the next start-up records. -/
  cause : Nat
  /-- The ms from 12 V good, or from the 20 ms row plus 20, to the end of the start-up (R633). -/
  startMs : Nat
  /-- The slot a RESET request named for the next start-up: 0 PREFER, 1 A, 2 B (R580). -/
  nextSlot : Nat
  /-- This `RESET_N` session has programmed or erased (R645). -/
  session : Bool
  /-- JTAG: instruction register, boundary cells, last read data, status, operation under way. -/
  ir : Nat
  cells : Nat
  /-- Low-speed lands are driven by the boundary cells or released: 0 none, 1 driven, 2 high impedance. -/
  lands : Nat
  nvmData : Word
  nvmStatus : Nat
  nvmOp : Option NvmOp
  /-- DRAM tiers held by a rail (R622) and domains whose PLL has lost lock (R626). -/
  heldTiers : List Nat
  unlocked : List Nat
  /-- Last accepted edge of `PPS_IN` (R641). -/
  ppsIn : Option Nat
  /-- `BOARD_BARRIER` is held low from the reset to the first generation (R640). -/
  barrierLow : Bool
  /-- `PPS_OUT` takes the land at the next whole second (R643). -/
  ppsTakes : Bool
  /-- The steps the time base has taken, which no clock takes with it, in ns; clock cycles by region (Table 14.1). -/
  skewNs : Int
  meters : Sparse Meter
  deriving DecidableEq, Repr

/-- The input good, the start-up about to run with cause 1 (Table 17.3). -/
def Supply.reset : Supply :=
  { phase := .starting, vinRow := 2, vinMv := 12000, resetLow := false, cause := 1, startMs := 0, nextSlot := 0, session := false, ir := 0x01, cells := 0, lands := 0,
    nvmData := 0, nvmStatus := 0, nvmOp := none, heldTiers := [], unlocked := [], ppsIn := none, barrierLow := true,
    ppsTakes := false, skewNs := 0, meters := [] }

/-! ### The device -/

/-- The device: everything the spec gives it but the queue of waiting commands. -/
structure Dev where
  /-- Register words by control address, counters among them; an unlisted word reads its reset value (R4, R7). -/
  regs : Sparse Word
  /-- Free values drawn so far (the model's own counter, log entry 12, DESIGN CHOICE). -/
  draws : Nat
  /-- Time base in ns (R514) and its fraction in 10⁻⁹ ns. -/
  ns : Nat
  frac : Nat
  port : Port
  front : Front
  plan : Plan
  lens : Lens
  seq : Seq
  sync : Sync
  fab : Fabric
  lpe : Loupe
  ctl : Ctl
  jrn : Journal
  nvm : Nvm
  life : Life
  sec : Sec
  sup : Supply
  deriving DecidableEq, Repr

/-- The device before its start-up: registers at their reset values, memories wiped, nothing on its way. -/
def Dev.reset : Dev :=
  { regs := [], draws := 0, ns := 0, frac := 0, port := Port.reset, front := Front.reset, plan := Plan.reset,
    lens := Lens.reset, seq := Seq.reset, sync := Sync.reset, fab := Fabric.reset, lpe := Loupe.reset, ctl := Ctl.reset,
    jrn := Journal.reset, nvm := Nvm.blank, life := Life.fresh, sec := Sec.reset, sup := Supply.reset }

/-- The machine: the device and the queue of the commands that wait, first in, first out. -/
structure State where
  dev : Dev
  pending : List Instr
  deriving DecidableEq, Repr

/-- The machine right after reset: the device before its start-up, no command waiting. -/
def State.reset : State := { dev := Dev.reset, pending := [] }

/-- The reasons a command can stop the machine. -/
inductive Fault where
  /-- Raised by VIN_CHANGE for an input voltage at or beyond the absolute maximum ratings, where R648 defines no behaviour
  (`VIN_12V` below −0.3 V or above 14.0 V). Safe: the model stops where the spec gives no effect. -/
  | absoluteMaximum
  deriving DecidableEq, Repr

/-- The reasons the model gives a command no meaning. -/
inductive Refusal where
  /-- Answered by `exec` for a command without a meaning, by its mnemonic in the table. Safe: nothing is claimed of it. -/
  | notModelled (mnemonic : String)
  deriving DecidableEq, Repr

end Sys2Proof.Machine
end

