-- ==== Sys2Proof/Machine/Ops.lean ====
section
/-! DEFINITION. The named operations every command is written with: register fields and counters (R4, R7, R8), the time base
(R514), the shared and core memories, free values, the fault log of Loupe (R539 to R548: records, health events, life-record
entries) and the standing copy (R552). -/

namespace Sys2Proof.Machine

/-! ### How a command meets the state -/

/-- The device with life-cycle records of its own. -/
def Dev.withLife (d : Dev) (l : Life) : Dev := { d with life := l }

/-- A command that only a running device takes: anything else leaves the state as it was (log entry 4, DESIGN CHOICE). The queue is not
touched, and the life-cycle records of the identity region are kept (R603 to R611 name what moves them). -/
def State.live (s : State) (f : Dev → Dev) : Host.Outcome State Fault Refusal :=
  .next { s with dev := if s.dev.sup.phase = .running then (f s.dev).withLife s.dev.life else s.dev }

/-- As `State.live`, for the commands that may write the life-cycle records: `g` says what becomes of them, from the device before
and after. -/
def State.liveLife (s : State) (f : Dev → Dev) (g : Dev → Dev → Life) : Host.Outcome State Fault Refusal :=
  .next { s with dev := if s.dev.sup.phase = .running then (f s.dev).withLife (g s.dev (f s.dev)) else s.dev }

/-- A command of a running device's unit, which its clock's stop holds: until the restart it changes nothing (R519, R626). -/
def State.clocked (halted : Dev → Bool) (s : State) (f : Dev → Dev) : Host.Outcome State Fault Refusal :=
  s.live fun d => if halted d then d else f d

/-- As `State.clocked`, for the commands that may write the life-cycle records. -/
def State.clockedLife (halted : Dev → Bool) (s : State) (f : Dev → Dev) (g : Dev → Dev → Life) : Host.Outcome State Fault Refusal :=
  s.liveLife (fun d => if halted d then d else f d) fun d e => if halted d then d.life else g d e

/-- A command of the supply, the reset line or the JTAG port, taken in every phase; the life-cycle records are kept. -/
def State.always (s : State) (f : Dev → Dev) : Host.Outcome State Fault Refusal :=
  .next { s with dev := (f s.dev).withLife s.dev.life }

/-- As `State.always`, for the commands that may write the life-cycle records. -/
def State.alwaysLife (s : State) (f : Dev → Dev) (g : Dev → Life) : Host.Outcome State Fault Refusal :=
  .next { s with dev := (f s.dev).withLife (g s.dev) }

/-! ### Registers -/

/-- The register word at a control address. -/
def Dev.word (d : Dev) (a : Nat) : Nat := (Sparse.read resetWord d.regs a).toNat

/-- The register word at a control address replaced. -/
def Dev.setWord (d : Dev) (a v : Nat) : Dev :=
  { d with regs := Sparse.write resetWord d.regs a (BitVec.ofNat 64 v) }

/-- A field's value. -/
def Dev.get (d : Dev) (f : Fld) : Nat := bitsOf (d.word f.addr) f.lo f.width

/-- A field set; the value is cut to the field's width. -/
def Dev.put (d : Dev) (f : Fld) (v : Nat) : Dev := d.setWord f.addr (setBits (d.word f.addr) f.lo f.width v)

/-- A one-bit field as a Boolean. -/
def Dev.on (d : Dev) (f : Fld) : Bool := d.get f != 0

/-- A 64-bit counter raised by `n`, modulo 2⁶⁴. -/
def Dev.bump (d : Dev) (a : Nat) (n : Nat := 1) : Dev := if n = 0 then d else d.setWord a (d.word a + n)

/-- A field that holds the greatest value seen since it was last read (`RC`, R8). -/
def Dev.peak (d : Dev) (f : Fld) (v : Nat) : Dev := if d.get f < v then d.put f v else d

/-- A list of elements folded into the device. -/
def Dev.each {α : Type} (xs : List α) (f : Dev → α → Dev) (d : Dev) : Dev := xs.foldl f d

/-- A free value drawn (log entry 12, DESIGN CHOICE): a number no statement can know, and the count of draws advanced. -/
def Dev.draw (d : Dev) : Nat × Dev := (Config.pick d.draws, { d with draws := d.draws + 1 })

/-! ### Time -/

/-- The time base brought forward to the instant of a timed event (log entry 3, DESIGN CHOICE); it never runs backward (R514). -/
def Dev.advance (d : Dev) (t : Nat) : Dev := if d.ns < t then { d with ns := t, frac := 0 } else d

/-- The time base stepped to another value (R515, R516); the clocks take no step with it. -/
def Dev.stepTime (d : Dev) (t : Nat) : Dev :=
  { d with ns := t, sup := { d.sup with skewNs := d.sup.skewNs + ((t : Int) - d.ns) } }

/-! ### Clock cycles (R230, R367) -/

/-- The oscillator's time since the reset: the time base less its steps. -/
def Dev.clockNs (d : Dev) : Nat := ((d.ns : Int) - d.sup.skewNs).toNat

/-- The device brought forward to an instant of the oscillator, by which what lasts a time is measured: a step of the time base
neither shortens nor lengthens it (log entry 3, DESIGN CHOICE). -/
def Dev.advanceClock (d : Dev) (t : Nat) : Dev := d.advance ((t : Int) + d.sup.skewNs).toNat

/-- Whether a region's clock has stopped (R519). -/
def Dev.regionStopped (d : Dev) (r : Nat) : Bool := d.on (R.LPE_REGION_STAT_STOPPED r)

/-- The regions of Table 14.1 whose clock comes from a domain of Table 17.2 (log entry 24, DEDUCED). -/
def domainRegions (c : Nat) : List Nat :=
  if c = 0 then List.range 16 else if c = 1 then [16] else if c = 2 then [20] else if c = 3 || c = 4 then [17]
  else if c = 5 then [24, 25, 26, 27] else if c = 6 then [18] else if c = 8 then [19] else if c = 10 then [21]
  else if c = 11 then [22] else if c = 12 then [23] else []

/-- Whether a region's clock has lost its PLL (R626). -/
def Dev.clockLost (d : Dev) (r : Nat) : Bool := d.sup.unlocked.any fun c => (domainRegions c).contains r

/-- The cluster in which a partition, or the Grating of one numbered from 1024, lies. -/
def clusterOf (partition : Nat) : Nat := if partition < 1024 then partition / 64 else partition - 1024

/-- Whether the clock of a cluster has stopped. -/
def Dev.clusterStopped (d : Dev) (c : Nat) : Bool := decide (c < 16) && d.regionStopped c

/-- Whether the security unit, or the management processors that hand it its requests, have stopped. -/
def Dev.secStopped (d : Dev) : Bool := d.regionStopped 21 || d.regionStopped 22

/-- Whether the `NVM` domain, or the management processors that write the flash, have stopped. -/
def Dev.nvmStopped (d : Dev) : Bool := d.regionStopped 21 || d.sup.unlocked.contains 15

/-- The rate of a region's clock in MHz: `ARITH` in clusters 0 to 15, `FOREST` in region 16; none while it is stopped. -/
def Dev.regionMhz (d : Dev) (r : Nat) : Nat :=
  if d.regionStopped r then 0 else d.get (R.CLK_STAT_FREQ_MHZ (if r = 16 then 1 else 0))

/-- What a region's clock has run, in MHz × ns. -/
def Dev.regionRun (d : Dev) (r : Nat) : Nat :=
  let m := (d.sup.meters.find r).getD ⟨0, 0⟩
  m.sum + d.regionMhz r * (d.clockNs - m.fromNs)

/-- The cycles of a region's clock since the reset. -/
def Dev.regionCycles (d : Dev) (r : Nat) : Nat := d.regionRun r / 1000

/-- A region's clock is about to change its rate. -/
def Dev.settleClock (d : Dev) (r : Nat) : Dev :=
  { d with sup := { d.sup with meters := Sparse.put d.sup.meters r ⟨d.clockNs, d.regionRun r⟩ } }

/-- The frequency of clock domain `c` of Table 17.2 becomes another. -/
def Dev.setMhz (d : Dev) (c mhz : Nat) : Dev :=
  (d.each (if c = 0 then List.range 16 else if c = 1 then [16] else []) Dev.settleClock).put (R.CLK_STAT_FREQ_MHZ c) mhz

/-- The first whole multiple of `unit` ns later than the present. -/
def Dev.nextMultiple (d : Dev) (unit : Nat) : Nat := (d.ns / unit + 1) * unit

/-- The present tick number, its low 32 bits (R517). -/
def Dev.tick32 (d : Dev) : Nat := if d.plan.firstTick.isSome then d.plan.tick % 2 ^ 32 else 0

/-- The device ID: Hall configuration or straps, in the field the start-up sets. -/
def Dev.devId (d : Dev) : Nat := d.get R.MEM_CFG_DEVICE_ID

/-! ### Memory -/

/-- `n` bytes of the shared memory. -/
def Dev.memRead (d : Dev) (a n : Nat) : List Byte := Memory.read d.fab.mem a n

/-- Bytes written to the shared memory; a write of a whole granule replaces its code and so ends its poison (R478). -/
def Dev.memWrite (d : Dev) (a : Nat) (bs : List Byte) : Dev :=
  { d with fab := { d.fab with mem := Memory.write d.fab.mem a bs } }

/-- `n` bytes of a core memory (R214). -/
def Dev.coreRead (d : Dev) (core a n : Nat) : List Byte := Memory.read d.fab.core (core * 0x80000 + a) n

/-- Bytes written to a core memory. -/
def Dev.coreWrite (d : Dev) (core a : Nat) (bs : List Byte) : Dev :=
  { d with fab := { d.fab with core := Memory.write d.fab.core (core * 0x80000 + a) bs } }

/-- Bytes at a place. -/
def Dev.placeRead (d : Dev) (p : Place) (off n : Nat) : List Byte :=
  match p with
  | .shared a => d.memRead (a + off) n
  | .core c a => d.coreRead c.val (a + off) n

/-! ### Records of Loupe (R520), health events and life-record entries (R548 to R550) -/

/-- A record: header of Table 14.2 and 22 body bytes. -/
def record (kind flags source time : Nat) (body : List Byte) : List Byte :=
  leBytes 1 kind ++ leBytes 1 flags ++ leBytes 2 source ++ leBytes 6 time ++ padTo 22 body

/-- The drop class of a staged record in the order of R543: 0 command, 1 fabric, 2 watch, 3 snapshot; 4 is never dropped. -/
def dropClass (kind : Nat) : Nat :=
  if kind = 1 || kind = 2 then 0
  else if kind = 8 || kind = 9 then 1
  else if kind = 5 || kind = 6 || kind = 7 then 2
  else if kind = 0xA || kind = 0xB then 3
  else 4

/-- The unit number a health event is of (Table 14.8), from its code and instance. -/
def healthUnit (event inst : Nat) : Nat :=
  if event ≤ 0x0C then (if 0x0A ≤ event then 0x000C else 0x0001)
  else if event = 0x10 then 0x0003
  else if event = 0x11 then (if inst < 1024 then 0x0005 else 0x0006)
  else if event = 0x12 then
    (match inst >>> 28 with | 3 => 0x0006 | 4 => 0x0007 | _ => 0x0005)
  else if event = 0x13 || event = 0x15 then 0x000C
  else if event = 0x14 then 0x0001
  else if event = 0x16 then 0x0009
  else if event = 0x17 then 0x000A
  else inst

/-- The day's counts with an event more (Table 14.9). -/
def raised (counts : Sparse Nat) (key : Nat) : Sparse Nat := Sparse.put counts key ((counts.find key).getD 0 + 1)

/-- An event of the day counted for the life record (Table 14.9). -/
def Dev.dayCount (d : Dev) (key : Nat) : Dev := { d with lpe := { d.lpe with dayCounts := raised d.lpe.dayCounts key } }

/-- One event counted towards the next `HEALTH` entry of its pair (R548); violations and checksum failures count towards the daily
entries of the life record as well. -/
def Dev.health (d : Dev) (event inst : Nat) (detail : Nat := 0) : Dev :=
  let accs := d.lpe.healthAcc
  let accs :=
    if accs.any fun a => a.event = event && a.inst = inst then
      accs.map fun a => if a.event = event && a.inst = inst then { a with count := a.count + 1, detail := detail } else a
    else accs ++ [{ event := event, inst := inst, count := 1, detail := detail, lastNs := none }]
  let days := if event ≤ 0x0C || event = 0x11 then raised d.lpe.dayCounts (event * 2 ^ 32 + inst) else d.lpe.dayCounts
  { d with lpe := { d.lpe with healthAcc := accs, dayCounts := days } }

/-- A pending life-record entry (Table 14.9); `decision` starts the 1 s of R550. -/
def Dev.lifeEntry (d : Dev) (kind source : Nat) (body : List Byte) (decision : Bool) : Dev :=
  let e := record kind 0 source d.ns body
  let l := d.lpe
  let opened := if l.lifePend.isEmpty then d.ns else l.lifeOpen
  let dec := if decision && l.lifeDecision.isNone then some d.clockNs else l.lifeDecision
  { d with lpe := { l with lifePend := l.lifePend ++ [e], lifeOpen := opened, lifeDecision := dec } }

/-! ### Fences and the standing copy (R425, R552) -/

/-- Whether Facet `f` (0 to 1,023) is fenced. -/
def Dev.facetFenced (d : Dev) (f : Nat) : Bool :=
  d.get (R.LNS_FACET_STAT_STATE (f / 64) (f / 4 % 16) (f % 4)) = 3

/-- Whether Lens core `c` (0 to 255) is fenced. -/
def Dev.coreFenced (d : Dev) (c : Nat) : Bool := d.on (R.LNS_CORE_STAT_FENCED (c / 16) (c % 16))

/-- Whether cluster `c` is fenced. -/
def Dev.clusterFenced (d : Dev) (c : Nat) : Bool := d.on (R.LNS_CLUSTER_STAT_FENCED c)

/-- Whether Grating `g` is fenced. -/
def Dev.gratingFenced (d : Dev) (g : Nat) : Bool := d.get (R.GRT_STAT_STATE g) = 3

/-- Whether forest engine `e` is fenced. -/
def Dev.engineFenced (d : Dev) (e : Nat) : Bool := d.get (R.FOR_ENGINE_STAT_STATE e) = 3

/-- Bits as bytes, bit 0 of the first byte first. -/
def packBits (n : Nat) (p : Nat → Bool) : List Byte :=
  (List.range ((n + 7) / 8)).map fun i =>
    BitVec.ofNat 8 ((List.range 8).foldl (fun v b => v + b2n (decide (8 * i + b < n) && p (8 * i + b)) * 2 ^ b) 0)

/-- A fence decided and not yet in effect. -/
def Dev.fencePending (d : Dev) (kind index : Nat) : Bool :=
  d.plan.fences.any fun f => f.kind = kind && f.index = index

/-- The retirement cause decided or in effect for a channel. -/
def Dev.retireCause (d : Dev) (c : Nat) : Option Nat :=
  match d.fab.retiring.find? fun p => p.1 = c with
  | some p => some p.2
  | none => if d.get (R.MEM_CHAN_STAT_STATE c) != 0 then some (d.get (R.MEM_CHAN_STAT_CAUSE c)) else none

/-- The standing block of Table 14.10: every fence, retirement and lane failure decided so far. -/
def Dev.standingBlock (d : Dev) : List Byte :=
  packBits 1024 (fun i => d.facetFenced i || d.fencePending 0 i)
    ++ packBits 256 (fun i => d.coreFenced i || d.fencePending 1 i)
    ++ packBits 16 (fun i => d.clusterFenced i || d.fencePending 2 i)
    ++ packBits 16 (fun i => d.gratingFenced i || d.fencePending 3 i)
    ++ packBits 32 (fun i => d.engineFenced i || d.fencePending 4 i)
    ++ packBits 512 (fun i => (d.retireCause i).isSome)
    ++ packBits 1024 (fun i => (((d.retireCause (i / 2)).getD 0) >>> (i % 2)) % 2 = 1)
    ++ packBits 8 (fun i => d.on (R.PORT_LANE_STAT_FAILED i))
    ++ packBits 16 (fun i => ((d.get (R.MIR_STAT_LANE_FAILED (i / 4))) >>> (i % 4)) % 2 = 1)
    ++ [0]

/-- A decision updates the standing copy: its write starts at once, or is queued behind the one under way (R552). -/
def Dev.standingWrite (d : Dev) : Dev :=
  if d.lpe.copyBusy then { d with lpe := { d.lpe with copyQueued := true } }
  else { d with lpe := { d.lpe with copyBusy := true, copyData := d.standingBlock } }

end Sys2Proof.Machine
end

