-- ==== Sys2Proof/Machine/Port.lean ====
section
/-! DEFINITION. The host port (chapter 2): sending, classes, pause received and sent, the inline buffer, record frames, PTP
messages and the servo they feed (R515, R516), lanes and breakouts, and the port's commands but RECEIVE_FRAME's packet path
and PACKET_RELEASE, which stand with the packet path. -/

namespace Sys2Proof.Machine

/-! ### Sending -/

/-- Whether a sub-port is up. -/
def Dev.up (d : Dev) (sp : Nat) : Bool := d.on (R.PORT_SUBPORT_STAT_LINK_UP sp)

/-- The number of sub-ports of the breakout in force (Table 2.2). -/
def Dev.subPorts (d : Dev) : Nat := 2 ^ d.get R.PORT_CFG_BREAKOUT

/-- The mode in effect on a sub-port: 0 Inline, 1 Sidecar, 2 Tap (R78). -/
def Dev.mode (d : Dev) (sp : Nat) : Nat := d.get (R.PORT_SUBPORT_STAT_MODE_ACTIVE sp)

/-- A frame (without its FCS) sent on a sub-port, filled to the least frame length; nothing leaves on one that is down. -/
def Dev.send (d : Dev) (sp : Nat) (frame : List Byte) : Dev :=
  if d.up sp then
    let f := padTo (max 60 frame.length) frame
    let d := { d with port := { d.port with sent := d.port.sent ++ [Sent.frame sp f] } }
    (d.bump (C.PORT_TX_FRAMES sp)).bump (C.PORT_TX_BYTES sp) (f.length + 4)
  else d

/-- A frame of the device's own leaves (R64): its counter rises, and a `Delay_Req` gets its send stamp. -/
def Dev.ownLeaves (sp : Nat) (d : Dev) (f : OwnFrame) : Dev :=
  let d := match f.kind with
    | .plain => d
    | .journalExport => d.bump C.JRN_EXPORT_FRAMES
    | .loupeExport => d.bump C.LPE_EXPORT_FRAMES
    | .delayReq q => { d with lpe := { d.lpe with servo := { d.lpe.servo with delayReq := some (q, d.ns) } } }
  d.send sp f.bytes

/-- A sub-port's own state changed. -/
def Dev.modSub (d : Dev) (sp : Nat) (f : SubPort → SubPort) : Dev :=
  { d with port := { d.port with subs := modifyNth sp f d.port.subs } }

/-- Whether a class of a sub-port is held. -/
def Dev.classPaused (d : Dev) (sp c : Nat) : Bool := bitsOf (d.get (R.PORT_SUBPORT_STAT_PAUSED sp)) c 1 = 1

/-- The frames of the device's own that wait on a sub-port. -/
def Dev.ownQueue (d : Dev) (sp : Nat) : List OwnFrame := (d.port.subs.getD sp SubPort.empty).own

/-- The waiting frames of the device's own leave in order while `OWN_CLASS` is not held (R64, R65). -/
def Dev.drainOwn (d : Dev) (sp : Nat) : Dev :=
  if d.classPaused sp (d.get R.PORT_CFG_OWN_CLASS) then d
  else (d.modSub sp fun s => { s with own := [] }).each (d.ownQueue sp) (Dev.ownLeaves sp)

/-- A frame of the device's own (control responses, exports, Hall frames, `Delay_Req`): it leaves in class `OWN_CLASS`, or waits
while that class is held (R64, R65); nothing leaves on a sub-port that is down. -/
def Dev.sendOwn (d : Dev) (sp : Nat) (f : OwnFrame) : Dev :=
  if d.up sp then (d.modSub sp fun s => { s with own := s.own ++ [f] }).drainOwn sp else d

/-- The device's MAC address as 6 bytes. -/
def Dev.macBytes (d : Dev) : List Byte := beBytes 6 (d.get R.PORT_MAC_ADDR_MAC)

/-- The 802.1Q tag of the device's own frames (R83). -/
def Dev.ownTag (d : Dev) : List Byte :=
  if d.get R.PORT_CFG_OWN_VID = 0 then []
  else beBytes 2 0x8100 ++ beBytes 2 (d.get R.PORT_CFG_OWN_CLASS * 0x2000 + d.get R.PORT_CFG_OWN_VID)

/-- A frame of the device's own: destination, its address, its tag, Ethertype `0x88B5`, the rest from the subtype on. -/
def Dev.ownFrame (d : Dev) (da : Nat) (rest : List Byte) : List Byte :=
  beBytes 6 da ++ d.macBytes ++ d.ownTag ++ beBytes 2 0x88B5 ++ rest

/-! ### Received pause (R65 to R67) -/

/-- The pause state of a class of a sub-port. -/
def Dev.pause (d : Dev) (sp c : Nat) : ClassPause :=
  ((d.port.subs.getD sp SubPort.empty).pause).getD c ClassPause.none_

/-- The pause state of a class set, with its `PAUSED` bit. -/
def Dev.setPause (d : Dev) (sp c : Nat) (p : ClassPause) (paused : Bool) : Dev :=
  let d := d.modSub sp fun s => { s with pause := s.pause.set c p }
  let f := R.PORT_SUBPORT_STAT_PAUSED sp
  d.put f (setBits (d.get f) c 1 (b2n paused))

/-- A hold of a class ends: the device's own frames of that class leave (R64, R65). -/
def Dev.endPause (d : Dev) (sp c : Nat) (p : ClassPause) : Dev := (d.setPause sp c p false).drainOwn sp

/-- The ns that `q` pause quanta of 512 bit times last at the sub-port rate of the breakout (Table 2.2). -/
def Dev.quantaNs (d : Dev) (q : Nat) : Nat := q * 512 * d.subPorts / 1600

/-- A class's pause time set to `q` quanta; `none` when it ignores pause in this window (R66). -/
def Dev.honour (d : Dev) (sp c q : Nat) : Option Dev :=
  let p := d.pause sp c
  if p.ignoring then none
  else if q = 0 then
    some (d.endPause sp c { p with held := p.held + (if d.classPaused sp c then d.clockNs - p.since else 0) })
  else
    let since := if d.classPaused sp c then p.since else d.clockNs
    some (d.setPause sp c { p with since := since, until_ := d.clockNs + d.quantaNs q } true)

/-- Pause times set for several classes; whether any was honoured. -/
def Dev.honourAll (d : Dev) (sp : Nat) (cqs : List (Nat × Nat)) : Dev × Bool :=
  cqs.foldl (fun p cq => match p.1.honour sp cq.1 cq.2 with | some d => (d, true) | none => p) (d, false)

/-- A MAC Control frame ignored as of the other kind, malformed or of an unknown opcode. -/
def Dev.macCtlBad (d : Dev) (sp : Nat) : Dev := (d.bump (C.PORT_RX_MACCTL_BAD sp)).health 4 sp

/-- A MAC Control frame taken by its sublayer (R65). -/
def Dev.macControl (d : Dev) (f : RxFrame) : Dev :=
  let sp := f.sp
  let da := beAt f.bytes 0 6
  let op := beAt f.bytes 14 2
  let pfc := d.on (R.PORT_SUBPORT_CFG_PFC_EN sp)
  let vec := beAt f.bytes 16 2
  let addrOk := da = 0x0180C2000001 || da = d.get R.PORT_MAC_ADDR_MAC
  if !addrOk then d.macCtlBad sp
  else if op = 0x0001 && !pfc then
    let (d, any) := d.honourAll sp ((List.range 8).map fun c => (c, beAt f.bytes 16 2))
    if any then d.bump (C.PORT_RX_PAUSE sp) else d
  else if op = 0x0101 && pfc && vec < 256 then
    let cs := (List.range 8).filter fun c => bitsOf vec c 1 = 1
    let (d, any) := d.honourAll sp (cs.map fun c => (c, beAt f.bytes (18 + 2 * c) 2))
    if any then d.bump (C.PORT_RX_PAUSE sp) else d
  else d.macCtlBad sp

/-- PAUSE_FRAME_RECEIVE: the MAC Control sublayer takes the oldest MAC Control frame (R60, R65). -/
def Dev.pauseFrameReceive (d : Dev) : Dev :=
  match d.port.macCtl with
  | [] => d
  | f :: rest => ({ d with port := { d.port with macCtl := rest } }).macControl f

/-- PAUSE_WINDOW_END: at a whole multiple of 1,000,000 ns every class starts honouring afresh (R66). -/
def Dev.pauseWindowEnd (d : Dev) : Dev :=
  let t := (max d.port.pauseWindow (d.ns / 1000000) + (if d.port.pauseWindow < d.ns / 1000000 then 0 else 1)) * 1000000
  let d := d.advance t
  let fresh (p : ClassPause) : ClassPause := { p with since := max p.since ((t : Int) - d.sup.skewNs).toNat, held := 0, ignoring := false }
  { d with port := { d.port with pauseWindow := t / 1000000,
                                 subs := d.port.subs.map fun s => { s with pause := s.pause.map fresh } } }

/-- The held time of a class in the present window that makes its ceiling, in ns (R66, R67). -/
def Dev.ceilNs (d : Dev) (sp : Nat) : Nat := d.get (R.PORT_SUBPORT_CFG_PAUSE_CEIL_PCT sp) * 10000

/-- PAUSE_CEILING_REACHED: a held class reaches its ceiling of the window; at 100 per cent it always honours (R66, R67). -/
def Dev.pauseCeiling (d : Dev) (sp c : Nat) : Dev :=
  let p := d.pause sp c
  if d.classPaused sp c && d.get (R.PORT_SUBPORT_CFG_PAUSE_CEIL_PCT sp) < 100 then
    let d := d.advanceClock (p.since + (d.ceilNs sp - p.held))
    let d := d.endPause sp c { p with held := d.ceilNs sp, ignoring := true }
    let f := R.PORT_SUBPORT_STAT_STORM sp
    let d := d.put f (setBits (d.get f) c 1 1)
    (d.bump (C.PORT_PAUSE_STORM sp)).health 3 sp
  else d

/-- PAUSE_QUANTA_EXPIRY: a class's pause time runs out (R65). -/
def Dev.quantaExpiry (d : Dev) (sp c : Nat) : Dev :=
  let p := d.pause sp c
  if d.classPaused sp c then
    let d := d.advanceClock p.until_
    d.endPause sp c { p with held := p.held + (p.until_ - p.since) }
  else d

/-! ### The inline buffer and pause sent (R43, R44, R68) -/

/-- Bytes a frame of `n` bytes without FCS holds of the inline buffer: the whole frame and its shim tag (R44). -/
def heldBytes (n : Nat) : Nat := n + 4 + 20

/-- Occupancy of the inline buffer in bytes: packets held or on their way on inline sub-ports, and egress queues. -/
def Dev.inlineBytes (d : Dev) : Nat :=
  ((d.front.packets.filter fun p => p.mode = 0 && !p.gone).map fun p => heldBytes p.frame.length).sum
    + (d.port.subs.map fun s => (s.egress.map fun e => e.held).sum).sum

/-- The inline sub-ports that are up. -/
def Dev.inlineUp (d : Dev) : List Nat := (List.range d.subPorts).filter fun sp => d.up sp && d.mode sp = 0

/-- A pause of `q` quanta sent on a sub-port: PAUSE, or PFC for all 8 classes (R68). -/
def Dev.sendPause (d : Dev) (sp q : Nat) : Dev :=
  let head := beBytes 6 0x0180C2000001 ++ d.macBytes ++ beBytes 2 0x8808
  let body := if d.on R.PORT_CFG_TX_FC_PFC
    then beBytes 2 0x0101 ++ beBytes 2 0x00FF ++ (List.replicate 8 (beBytes 2 q)).flatten
    else beBytes 2 0x0001 ++ beBytes 2 q
  if d.up sp then (d.send sp (head ++ body)).bump (C.PORT_TX_PAUSE sp) else d

/-- The sub-ports whose partners the device holds paused. -/
def Dev.pausedPartners (d : Dev) : List Nat :=
  (List.range 8).filter fun sp => (d.port.subs.getD sp SubPort.empty).partnerPaused

/-- Partners released: one pause of quanta 0 on each sub-port the device has paused (R68). -/
def Dev.releasePartners (d : Dev) : Dev :=
  d.each d.pausedPartners fun d sp => (d.sendPause sp 0).modSub sp fun s => { s with partnerPaused := false }

/-- Partners paused on every inline sub-port that is up (R68). -/
def Dev.pausePartners (d : Dev) : Dev :=
  let d := d.each d.inlineUp fun d sp => (d.sendPause sp 0xFFFF).modSub sp fun s => { s with partnerPaused := true }
  { d with port := { d.port with pauseSentNs := d.clockNs } }

/-- What a change of occupancy brings: the peak, a pause at `XOFF_KIB`, its release at `XON_KIB` (R68, Table 2.15). -/
def Dev.flowControl (d : Dev) : Dev :=
  let occ := d.inlineBytes
  let d := d.peak R.PORT_INLINE_BUF_PEAK_KIB (cdiv occ 1024)
  if d.on R.PORT_CFG_TX_FC_EN then
    if d.pausedPartners.isEmpty then
      if d.get R.PORT_INLINE_BUF_XOFF_KIB * 1024 ≤ occ then d.pausePartners else d
    else if occ ≤ d.get R.PORT_INLINE_BUF_XON_KIB * 1024 then d.releasePartners
    else d
  else d

/-- PAUSE_REPEAT: while partners are paused, the pause is repeated when half the quanta duration has elapsed (R68). -/
def Dev.pauseRepeat (d : Dev) : Dev :=
  if d.on R.PORT_CFG_TX_FC_EN && !d.pausedPartners.isEmpty then
    (d.advanceClock (d.port.pauseSentNs + d.quantaNs 0xFFFF / 2)).pausePartners
  else d

/-! ### Egress (R44, R72, R73, R57) -/

/-- The oldest item of an egress queue that may leave: dropped by its action, or of a class that is not held, with no earlier
item of its flow still queued (R20, R44). -/
def nextEgress (held : Nat → Bool) (seen : List (Nat × Nat)) : List EgressItem → Option (EgressItem × List EgressItem)
  | [] => none
  | e :: es =>
    let blocked := match e.flow with | some f => seen.contains f | none => false
    if !blocked && (e.dropped || !held e.cls) then some (e, es)
    else (nextEgress held (match e.flow with | some f => f :: seen | none => seen) es).map fun r => (r.1, e :: r.2)

/-- PACKET_TRANSMIT: the next packet of a sub-port's egress queue leaves, or is not sent because of `DROP` (R44, R72). -/
def Dev.packetTransmit (d : Dev) (sp : Nat) : Dev :=
  let q := (d.port.subs.getD sp SubPort.empty).egress
  if !d.up sp then d
  else match nextEgress (d.classPaused sp) [] q with
    | none => d
    | some (e, rest) =>
      let d := d.modSub sp fun s => { s with egress := rest }
      let d := if e.dropped then d.bump (C.PORT_TX_DROP_ACTION sp) else d.send sp e.bytes
      d.flowControl

/-! ### Record frames (R74 to R76, R90) -/

/-- The bytes of a record frame (Table 2.9). -/
def Dev.recordFrame (d : Dev) (f : RecordFrame) : List Byte :=
  d.ownFrame (d.get (R.PORT_SIDECAR_DA_DA f.sp))
    ([0x03, 0x01] ++ beBytes 2 d.devId ++ beBytes 1 f.records.length ++ [32] ++ beBytes 4 f.batch ++ beBytes 4 f.seq
      ++ zeros 2 ++ f.records.flatten)

/-- A record frame dropped whole (R76). -/
def Dev.dropRecords (d : Dev) (f : RecordFrame) : Dev := d.bump (C.PORT_RECORD_DROP (f.sp % 8)) f.records.length

/-- A record frame closes: it takes the next `FRAME_SEQ` and joins the device-wide queue of 512, or is dropped (R75, R76). -/
def Dev.closeRecords (d : Dev) (f : RecordFrame) : Dev :=
  let f := { f with seq := (d.port.subs.getD f.sp SubPort.empty).frameSeq }
  let d := d.modSub f.sp fun s => { s with frameSeq := (s.frameSeq + 1) % 2 ^ 32 }
  if d.up f.sp && d.port.records.length < 512 then { d with port := { d.port with records := d.port.records ++ [f] } }
  else d.dropRecords f

/-- A verdict record joins the open frame of its sub-port and batch, which closes at 64 records (R42). -/
def Dev.addRecord (d : Dev) (sp batch : Nat) (rec : List Byte) : Dev :=
  let mine (f : RecordFrame) : Bool := f.sp = sp && f.batch = batch
  let f := (d.port.openRecords.find? mine).getD ⟨sp, batch, [], 0⟩
  let f := { f with records := f.records ++ [rec] }
  let others := d.port.openRecords.filter fun g => !mine g
  if f.records.length = 64 then ({ d with port := { d.port with openRecords := others } }).closeRecords f
  else { d with port := { d.port with openRecords := others ++ [f] } }

/-- The part-filled frames of a batch close at its verdict deadline (R42). -/
def Dev.closeBatchRecords (d : Dev) (batch : Nat) : Dev :=
  let mine := d.port.openRecords.filter fun f => f.batch = batch
  let d := { d with port := { d.port with openRecords := d.port.openRecords.filter fun f => f.batch != batch } }
  d.each mine Dev.closeRecords

/-- RECORD_FRAME_TRANSMIT: the oldest closed frame whose class is not held leaves. A queued frame is dropped when its turn comes with
its sub-port down, and leaves when the link is up again by then: the spec does not say when such a frame is dropped (R76; log entry
22, DESIGN CHOICE). -/
def Dev.recordTransmit (d : Dev) : Dev :=
  let ready (f : RecordFrame) : Bool := !(d.up f.sp && d.classPaused f.sp (d.get R.PORT_CFG_OWN_CLASS))
  match takeFirst ready d.port.records with
  | none => d
  | some (f, rest) =>
    let d := { d with port := { d.port with records := rest } }
    if d.up f.sp then
      let d := d.send f.sp (d.recordFrame f)
      (d.bump (C.PORT_RECORDS_TX f.sp) f.records.length).bump (C.PORT_RECORD_FRAMES_TX f.sp)
    else d.dropRecords f

/-! ### The servo and PTP (R61 to R63, R515, R516) -/

/-- The source is heard: holdover ends. -/
def Dev.servoHeard (d : Dev) : Dev :=
  ({ d with lpe := { d.lpe with servo := { d.lpe.servo with heardNs := some d.clockNs } } }).put R.LPE_TIME_STAT_HOLDOVER 0

/-- A measured offset in ns of the time base from its source (R515, R516): a step before the first boundary when it is beyond
1 µs, else a rate within ±100,000 ppb, whose value the spec leaves open (log entry 12, DESIGN CHOICE). A step leaves the planned first
boundary where step 6 put it: R27 places it once, when ticking starts (log entry 27, DESIGN CHOICE). -/
def Dev.servoOffset (d : Dev) (off : Int) : Dev :=
  let d := d.servoHeard
  let d := d.put R.LPE_TIME_STAT_OFFSET_NS (ofSigned 32 off)
  let good := if off.natAbs ≤ 100 then d.lpe.servo.good + 1 else 0
  let d := { d with lpe := { d.lpe with servo := { d.lpe.servo with good := good } } }
  let d := if 16 ≤ good then d.put R.LPE_TIME_STAT_LOCKED 1
    else if 1000 < off.natAbs then d.put R.LPE_TIME_STAT_LOCKED 0 else d
  if d.plan.firstTick.isNone && 1000 < off.natAbs then
    let d := { d.stepTime ((d.ns : Int) - off).toNat with frac := d.frac }
    (d.put R.LPE_TIME_STAT_STEPPED 1).bump C.LPE_TIME_STEPS
  else
    let (x, d) := d.draw
    d.put R.LPE_TIME_STAT_ADJ_PPB (ofSigned 24 ((x % 200001 : Nat) - 100000 : Int))

/-- The offset in bytes of a PTP message in a frame without FCS: Ethernet, UDP/IPv4 or UDP/IPv6 to port 319 or 320, behind at
most two tags (Table 2.1; the layouts are those of IEEE 1588-2019). -/
def ptpOffset (f : List Byte) : Option Nat :=
  let tagged (o : Nat) : Bool := beAt f o 2 = 0x8100 || beAt f o 2 = 0x88A8
  let o := if tagged 12 then (if tagged 16 then 20 else 16) else 12
  let port (u : Nat) : Option Nat := if beAt f (u + 2) 2 = 319 || beAt f (u + 2) 2 = 320 then some (u + 8) else none
  let t := beAt f o 2
  if t = 0x88F7 then some (o + 2)
  else if t = 0x0800 && (byteAt f (o + 11)).toNat = 17 then port (o + 2 + (byteAt f (o + 2)).toNat % 16 * 4)
  else if t = 0x86DD && (byteAt f (o + 8)).toNat = 17 then port (o + 42)
  else none

/-- A timestamp of a PTP message in ns: 6 bytes of seconds, 4 of ns. -/
def ptpStamp (m : List Byte) (off : Nat) : Nat := beAt m off 6 * 1000000000 + beAt m (off + 6) 4

/-- The correction field of a PTP message in whole ns. -/
def ptpCorrection (m : List Byte) : Int := toSigned 64 (beAt m 8 8) / 65536

/-- The offset follows once a `Sync` difference is known; with source 3 PTP gives the seconds only (R515). -/
def Dev.ptpMeasured (d : Dev) (diff : Int) : Dev :=
  let d := { d with lpe := { d.lpe with servo := { d.lpe.servo with syncDiff := some diff, sync := none } } }
  let off := diff - d.lpe.servo.pathDelay
  if d.get R.LPE_TIME_CFG_SOURCE = 3 then
    let secs := (off + 500000000) / 1000000000
    if secs = 0 then d.servoHeard else d.servoOffset (secs * 1000000000)
  else d.servoOffset off

/-- A PTP message copied to the time base with its stamp (R62): Sync, Follow_Up and Delay_Resp of IEEE 1588-2019. -/
def Dev.ptpMessage (d : Dev) (m : List Byte) (stamp : Nat) : Dev :=
  let kind := (byteAt m 0).toNat % 16
  let seq := beAt m 30 2
  let sv := d.lpe.servo
  let source := d.get R.LPE_TIME_CFG_SOURCE
  if source = 0 || source = 2 then d
  else if kind = 0 then
    if bitsOf (byteAt m 6).toNat 1 1 = 1 then
      ({ d with lpe := { d.lpe with servo := { sv with sync := some (seq, stamp, none) } } }).servoHeard
    else d.ptpMeasured ((stamp : Int) - ptpStamp m 34 - ptpCorrection m)
  else if kind = 8 then
    match sv.sync with
    | some (s, st, _) => if s = seq then d.ptpMeasured ((st : Int) - ptpStamp m 34 - ptpCorrection m) else d
    | none => d
  else if kind = 9 then
    match sv.delayReq, sv.syncDiff with
    | some (s, sent), some diff =>
      if s = seq then
        let back : Int := (ptpStamp m 34 : Int) - sent - ptpCorrection m
        { d with lpe := { d.lpe with servo := { sv with pathDelay := (diff + back) / 2, delayReq := none } } }
      else d
    | _, _ => d
  else d

/-- A received frame's copy to the time base when it is a PTP message of the PTP domain on the PTP sub-port (R62); without an image the
port carries none (R563). -/
def Dev.ptpCopy (d : Dev) (sp : Nat) (f : List Byte) (stamp : Nat) : Dev :=
  if d.on R.PORT_CFG_PTP_EN && !d.on R.CFG_BOOT_NO_IMAGE && sp = d.get R.PORT_CFG_PTP_SUBPORT then
    match ptpOffset f with
    | some o =>
      if (byteAt f (o + 4)).toNat = d.get R.PORT_CFG_PTP_DOMAIN then
        (d.bump (C.PORT_PTP_RX sp)).ptpMessage (f.drop o) stamp
      else d
    | none => d
  else d

/-- PTP_DELAY_REQ_SEND: with `PTP_EN` set the device sends a `Delay_Req`, in every port mode (R63), but not without an image (R563). Its bytes are free (log
entry 11, DESIGN CHOICE). -/
def Dev.delayReqSend (d : Dev) : Dev :=
  let sp := d.get R.PORT_CFG_PTP_SUBPORT
  if d.on R.PORT_CFG_PTP_EN && d.up sp && !d.on R.CFG_BOOT_NO_IMAGE then
    let f := Config.delayReq d.lpe.servo.delaySent
    let seq := match ptpOffset f with | some o => beAt f (o + 30) 2 | none => 0
    let d := { d with lpe := { d.lpe with servo :=
      { d.lpe.servo with delaySent := d.lpe.servo.delaySent + 1 } } }
    d.sendOwn sp ⟨f, .delayReq seq⟩
  else d

/-! ### Lanes, links and breakouts (R53 to R57) -/

/-- The lanes of a sub-port (Table 2.2). -/
def Dev.lanesOf (d : Dev) (sp : Nat) : List Nat := range (sp * (8 / d.subPorts)) (8 / d.subPorts)

/-- The sub-port of a lane. -/
def Dev.laneSub (d : Dev) (lane : Nat) : Nat := lane / (8 / d.subPorts)

/-- Packets held in the inline buffer for a sub-port that goes down are discarded (R57); those still on their way through the
front lose their buffered copy. -/
def Dev.discardHeld (d : Dev) (sp : Nat) : Dev :=
  let mine (p : Packet) : Bool := p.sp = sp && p.mode = 0 && !p.gone
  let n := (d.port.subs.getD sp SubPort.empty).egress.length + (d.front.packets.filter mine).length
  let held (p : Packet) : Bool := mine p && decide (p.stage = .held)
  let d := { d with front := { d.front with
    packets := (d.front.packets.filter fun p => !held p).map fun p => if mine p then { p with gone := true } else p } }
  let d := d.modSub sp fun s => { s with egress := [] }
  (d.bump (C.PORT_TX_LINK_DOWN sp) n).flowControl

/-- Link training of a sub-port begins: each of its lanes takes the polarity that `PORT_LANE_POL` gives it (R54). -/
def Dev.startTraining (d : Dev) (sp : Nat) : Dev :=
  let reg := d.word R.PORT_LANE_POL_RX_INV.addr
  let take (v l : Nat) : Nat := setBits (setBits v l 1 (bitsOf reg l 1)) (8 + l) 1 (bitsOf reg (8 + l) 1)
  let d := { d with port := { d.port with polarity := (d.lanesOf sp).foldl take d.port.polarity } }
  d.put (R.PORT_SUBPORT_STAT_TRAINING sp) 1

/-- A sub-port loses its link: its held packets are discarded, and its lanes train again unless it is held down. The spec is
silent on its pauses and its own waiting frames: no class stays held, the hold under way is not added to the window's held time,
a partner held paused is forgotten, and the waiting frames are dropped (log entry 22, DESIGN CHOICE). -/
def Dev.linkDown (d : Dev) (sp : Nat) (train : Bool) : Dev :=
  let d := (d.put (R.PORT_SUBPORT_STAT_LINK_UP sp) 0).put (R.PORT_SUBPORT_STAT_TRAINING sp) 0
  let d := d.each (d.lanesOf sp) fun d l => d.put (R.PORT_LANE_STAT_TRAINED l) 0
  let d := (d.put (R.PORT_SUBPORT_STAT_PAUSED sp) 0).modSub sp fun s =>
    { s with pause := s.pause.map fun p => { p with until_ := 0 }, partnerPaused := false, own := [] }
  (if train then d.startTraining sp else d).discardHeld sp

/-- SUBPORT_GOES_DOWN: a sub-port loses its link (R57) and its training starts again. -/
def Dev.subportDown (d : Dev) (sp : Nat) : Dev := if d.up sp then d.linkDown sp true else d

/-- SUBPORT_LINK_UP: link training of a sub-port completes, in an attempt that begins no earlier than R92 lets it. -/
def Dev.subportUp (d : Dev) (sp : Nat) : Dev :=
  if sp < d.subPorts && d.on (R.PORT_SUBPORT_STAT_TRAINING sp) && !d.on (R.PORT_SUBPORT_STAT_DOWN_BY_LANE sp) then
    let d := (d.advanceClock (d.port.subs.getD sp SubPort.empty).retrainNs).modSub sp fun s => { s with retrainNs := 0 }
    let d := (d.put (R.PORT_SUBPORT_STAT_LINK_UP sp) 1).put (R.PORT_SUBPORT_STAT_TRAINING sp) 0
    d.each (d.lanesOf sp) fun d l => (d.put (R.PORT_LANE_STAT_TRAINED l) 1).put (R.PORT_LANE_STAT_TRAIN_FAILS l) 0
  else d

/-- The configuration of each new sub-port of the next breakout: that of the one whose lanes it holds (R56): `PORT_SUBPORT_CFG` and
`PORT_SIDECAR_DA`, with the mode in effect and pending. `FLW_VRF[n]`, `PRS_ENTRY` and `CLS_ENTRY_PROFILE` stay by number (log entry
28, DESIGN CHOICE). -/
def Dev.inheritConfig (d : Dev) : Dev :=
  let old := d
  let from_ (f : Nat → Fld) (d : Dev) (n : Nat) : Dev := d.setWord (f n).addr (old.word (f (n / 2)).addr)
  d.each (List.range (2 * d.subPorts)) fun d n =>
    let d := from_ R.PORT_SUBPORT_CFG_MODE d n
    let d := from_ R.PORT_SIDECAR_DA_DA d n
    let d := d.put (R.PORT_SUBPORT_STAT_MODE_ACTIVE n) (old.mode (n / 2))
    d.put (R.PORT_SUBPORT_STAT_MODE_PENDING n) (old.get (R.PORT_SUBPORT_STAT_MODE_PENDING (n / 2)))

/-- Whether a lane of a sub-port has failed 8 consecutive trainings (R92). -/
def Dev.failedOften (d : Dev) (sp : Nat) : Bool := (d.lanesOf sp).any fun l => 8 ≤ d.get (R.PORT_LANE_STAT_TRAIN_FAILS l)

/-- The wait before the next attempt goes with the lanes whose failures asked for it, from the sub-ports of the breakout before (R56,
R92). -/
def Dev.inheritRetrain (d : Dev) (old : List SubPort) : Dev :=
  d.each (List.range 8) fun d n =>
    let t := if n < d.subPorts && d.failedOften n then (old.getD (n / 2) SubPort.empty).retrainNs else 0
    d.modSub n fun s => { s with retrainNs := t }

/-- Whether a sub-port holds a failed lane. -/
def Dev.hasFailedLane (d : Dev) (sp : Nat) : Bool := (d.lanesOf sp).any fun l => d.on (R.PORT_LANE_STAT_FAILED l)

/-- PORT_LANE_FAIL: the lane is marked, recorded and reported, and the port moves to the next breakout; every sub-port without
a failed lane trains again, the others are held down (R55, R56, R552). In breakout 3 only the lane's sub-port goes down. -/
def Dev.laneFail (d : Dev) (lane : Nat) : Dev :=
  if d.on (R.PORT_LANE_STAT_FAILED lane) then d
  else
    let d := (d.put (R.PORT_LANE_STAT_FAILED lane) 1).put (R.PORT_LANE_STAT_TRAINED lane) 0
    let d := (d.health 0x14 lane).lifeEntry 0x2C lane [] true
    let d := d.standingWrite
    let b := d.get R.PORT_CFG_BREAKOUT
    if b = 3 then (d.linkDown lane false).put (R.PORT_SUBPORT_STAT_DOWN_BY_LANE lane) 1
    else
      let d := d.each (List.range d.subPorts) fun d sp => d.linkDown sp true
      let d := d.inheritConfig
      let old := d.port.subs
      let d := (d.put R.PORT_CFG_BREAKOUT (b + 1)).inheritRetrain old
      d.each (List.range d.subPorts) fun d sp =>
        let bad := d.hasFailedLane sp
        let d := (d.put (R.PORT_SUBPORT_STAT_DOWN_BY_LANE sp) (b2n bad)).put (R.PORT_SUBPORT_STAT_TRAINING sp) 0
        if bad then d else d.startTraining sp

/-- TRAINING_VIOLATION: training of the lane's sub-port restarts; after a lane of it has failed 8 consecutive times, attempts
stand 100 ms apart (R92, Table 2.11). -/
def Dev.trainingViolation (d : Dev) (lane : Nat) : Dev :=
  let sp := d.laneSub lane
  if d.on (R.PORT_SUBPORT_STAT_TRAINING sp) then
    let d := d.advanceClock (d.port.subs.getD sp SubPort.empty).retrainNs
    let fails := min 255 (d.get (R.PORT_LANE_STAT_TRAIN_FAILS lane) + 1)
    let d := d.put (R.PORT_LANE_STAT_TRAIN_FAILS lane) fails
    let d := if d.failedOften sp then d.modSub sp fun s => { s with retrainNs := d.clockNs + 100000000 } else d
    ((d.startTraining sp).bump (C.PORT_TRAIN_VIOL sp)).health 9 sp
  else d

/-! ### Writes of the port's registers that do more than store (R67 to R69, R78, R80) -/

/-- What follows a write of `PORT_CFG`: own frames of a class that is not held leave (R64); with `TX_FC_EN` cleared while partners
are paused they are released (R68). -/
def Dev.portCfgWritten (d : Dev) : Dev :=
  let d := d.each (List.range 8) Dev.drainOwn
  if d.on R.PORT_CFG_TX_FC_EN then d.flowControl else d.releasePartners

/-- What follows a write of `PORT_SUBPORT_CFG[n]` (R78). -/
def Dev.subportCfgWritten (d : Dev) (n : Nat) : Dev :=
  d.put (R.PORT_SUBPORT_STAT_MODE_PENDING n) (b2n (d.get (R.PORT_SUBPORT_CFG_MODE n) != d.mode n))

/-- Pending port modes take effect at a tick boundary (R78). -/
def Dev.modesTakeEffect (d : Dev) : Dev :=
  d.each (List.range 8) fun d n =>
    if d.on (R.PORT_SUBPORT_STAT_MODE_PENDING n) then
      (d.put (R.PORT_SUBPORT_STAT_MODE_ACTIVE n) (d.get (R.PORT_SUBPORT_CFG_MODE n))).put (R.PORT_SUBPORT_STAT_MODE_PENDING n) 0
    else d

/-! ### Reception (R17, R58 to R62) -/

/-- The Ethertype of a frame and where it stands: at 12, or at 16 behind one C-tag or S-tag (R568). -/
def etherOf (f : List Byte) : Nat × Nat :=
  if beAt f 12 2 = 0x8100 || beAt f 12 2 = 0x88A8 then (beAt f 16 2, 16) else (beAt f 12 2, 12)

/-- The class of a received data frame: the PCP of its outermost tag, or the sub-port's default (R64). -/
def Dev.classOf (d : Dev) (sp : Nat) (f : List Byte) : Nat :=
  if beAt f 12 2 = 0x8100 || beAt f 12 2 = 0x88A8 then bitsOf (byteAt f 14).toNat 5 3
  else d.get (R.PORT_SUBPORT_CFG_PFC_DEFAULT_CLASS sp)

/-- A packet as it enters the packet path. -/
def Dev.newPacket (d : Dev) (sp : Nat) (f : List Byte) (stamp : Nat) : Packet :=
  { id := d.port.nextPacket, sp := sp, frame := f, rxTime := stamp, mode := d.mode sp, cls := d.classOf sp f, stage := .arrived,
    passes := 0, firstEntry := 0, pass := ⟨0, 0, []⟩, slot := 0, ver := 0, refHeld := false, action := 0, flow := none,
    sample := none, why := .other, malformed := none, verdict := none, gone := false }

/-- A data frame joins the packet path, unless its inline sub-port's buffer has no room (R17, R44); only OPERATIONAL has a data
path (Table 16.6). -/
def Dev.dataFrame (d : Dev) (sp : Nat) (f : List Byte) (stamp : Nat) : Dev :=
  if d.get R.LCS_STAT_STATE != 2 then d
  else if d.mode sp = 0 && decide (8 * 2 ^ 20 < d.inlineBytes + heldBytes f.length) then d.bump (C.PORT_RX_BUF_FULL sp)
  else
    let p := d.newPacket sp f stamp
    let d := { d with port := { d.port with nextPacket := d.port.nextPacket + 1 },
                      front := { d.front with packets := d.front.packets ++ [p] } }
    d.flowControl

/-- The stamp of a reception of `n` bytes with its FCS whose last bit has just come: the time-base value at the end of its
start-of-frame delimiter, the frame's bits earlier at the sub-port rate (R61). DEDUCED, log entry 27. -/
def Dev.rxStamp (d : Dev) (n : Nat) : Nat := d.ns - cdiv (8 * n * d.subPorts) 1600

/-- A frame with a correct FCS goes where R17 sends it, with its stamp. -/
def Dev.routeFrame (d : Dev) (sp : Nat) (f : List Byte) (stamp : Nat) : Dev :=
  let rx : RxFrame := ⟨sp, f, stamp⟩
  let (ty, o) := etherOf f
  if beAt f 12 2 = 0x8808 then { d with port := { d.port with macCtl := d.port.macCtl ++ [rx] } }
  else if ty = 0x88B5 && (byteAt f (o + 2)).toNat = 1 then { d with port := { d.port with ctlRx := d.port.ctlRx ++ [rx] } }
  else if ty = 0x88B6 && d.on R.TKP_MODE_FABRIC_HALL && sp = d.get R.PORT_CFG_HALL_SUBPORT then
    { d with port := { d.port with hallRx := d.port.hallRx ++ [rx] } }
  else d.dataFrame sp f stamp

/-- RECEIVE_FRAME: a reception on a sub-port that is up (its bytes with the FCS, the codewords the FEC could not or could
correct): runts, oversize receptions and bad frames are discarded and counted, the others stamped and routed. -/
def Dev.receive (d : Dev) (sp : Nat) (bytes : List Byte) (uncorrectable corrected : Nat) : Dev :=
  if !d.up sp then d
  else
    let d := (d.bump (C.PORT_FEC_CORR sp) corrected).bump (C.PORT_FEC_UNCORR sp) uncorrectable
    if bytes.length < 64 then (d.bump (C.PORT_RX_RUNT sp)).health 1 sp
    else if 9216 < bytes.length then (d.bump (C.PORT_RX_OVERSIZE sp)).health 1 sp
    else
      let f := bytes.take (bytes.length - 4)
      if uncorrectable != 0 || bytes.drop (bytes.length - 4) != fcsBytes f then
        (d.bump (C.PORT_RX_FCS_ERR sp)).health 2 sp
      else
        let d := (d.bump (C.PORT_RX_FRAMES sp)).bump (C.PORT_RX_BYTES sp) bytes.length
        let stamp := d.rxStamp bytes.length
        (d.ptpCopy sp f stamp).routeFrame sp f stamp

/-! ### The commands -/

/-- RECEIVE_FRAME (R17). -/
def execReceiveFrame (sp : Fin 8) (bytes : List Byte) (uncorrectable corrected : Nat) (s : State) :=
  s.clocked (·.regionStopped 18) fun d => d.receive sp.val bytes uncorrectable corrected

/-- PAUSE_FRAME_RECEIVE (R65). -/
def execPauseFrameReceive (s : State) := s.clocked (·.regionStopped 18) Dev.pauseFrameReceive

/-- PAUSE_WINDOW_END (R66). -/
def execPauseWindowEnd (s : State) := s.clocked (·.regionStopped 18) Dev.pauseWindowEnd

/-- PAUSE_REPEAT (R68). -/
def execPauseRepeat (s : State) := s.clocked (·.regionStopped 18) Dev.pauseRepeat

/-- PTP_DELAY_REQ_SEND (R63). -/
def execPtpDelayReqSend (s : State) := s.clocked (·.regionStopped 18) Dev.delayReqSend

/-- PORT_LANE_FAIL (R55). -/
def execPortLaneFail (lane : Fin 8) (s : State) := s.live fun d => d.laneFail lane.val

/-- TRAINING_VIOLATION (R92). -/
def execTrainingViolation (lane : Fin 8) (s : State) := s.live fun d => d.trainingViolation lane.val

/-- PACKET_TRANSMIT (R44). -/
def execPacketTransmit (sp : Fin 8) (s : State) := s.clocked (·.regionStopped 18) fun d => d.packetTransmit sp.val

/-- RECORD_FRAME_TRANSMIT (R76). -/
def execRecordFrameTransmit (s : State) := s.clocked (·.regionStopped 18) Dev.recordTransmit

/-- PAUSE_QUANTA_EXPIRY (R65). -/
def execPauseQuantaExpiry (sp cls : Fin 8) (s : State) := s.clocked (·.regionStopped 18) fun d => d.quantaExpiry sp.val cls.val

/-- PAUSE_CEILING_REACHED (R66). -/
def execPauseCeilingReached (sp cls : Fin 8) (s : State) := s.clocked (·.regionStopped 18) fun d => d.pauseCeiling sp.val cls.val

/-- SUBPORT_LINK_UP (R55). -/
def execSubportLinkUp (sp : Fin 8) (s : State) := s.clocked (·.regionStopped 18) fun d => d.subportUp sp.val

/-- SUBPORT_GOES_DOWN (R57). -/
def execSubportGoesDown (sp : Fin 8) (s : State) := s.clocked (·.regionStopped 18) fun d => d.subportDown sp.val

end Sys2Proof.Machine
end

