-- ==== Sys2Proof/Machine/Xmss.lean ====
section
/-! DEFINITION. Verification of XMSS and XMSS^MT signatures (R590): the algorithms of RFC 8391 with the SHAKE256 functions of NIST SP
800-208 (n = 32, w = 16), taken from those texts, which R590 names (log entry 10, PRESUMED). -/

namespace Sys2Proof.Machine

/-! ### The keyed hash functions -/

/-- A keyed hash of 32 bytes: 0 chains, 1 nodes, 2 the message, 3 the pseudorandom function. -/
def xmssHash (fn : Nat) (key m : List Byte) : List Byte := shake256 (beBytes 32 fn ++ key ++ m)

/-- Two byte strings, bit by bit. -/
def xorBytes (a b : List Byte) : List Byte := List.zipWith (· ^^^ ·) a b

/-- A tree of the hypertree: the public seed, its layer, its place in the layer. -/
structure XmssTree where
  seed : List Byte
  layer : Nat
  tree : Nat

/-- The pseudorandom value of a hash address: its type (0 chain, 1 L-tree, 2 hash tree), its three words and which of a hash's values. -/
def XmssTree.prf (t : XmssTree) (kind a b c which : Nat) : List Byte :=
  xmssHash 3 t.seed (beBytes 4 t.layer ++ beBytes 8 t.tree ++ beBytes 4 kind ++ beBytes 4 a ++ beBytes 4 b ++ beBytes 4 c ++ beBytes 4 which)

/-- Two nodes made one: key and masks come from the address. -/
def XmssTree.node (t : XmssTree) (kind a b c : Nat) (l r : List Byte) : List Byte :=
  xmssHash 1 (t.prf kind a b c 0) (xorBytes l (t.prf kind a b c 1) ++ xorBytes r (t.prf kind a b c 2))

/-! ### One-time keys -/

/-- `n` steps of chain `chain` of one-time key `ots`, from step `j`. -/
def XmssTree.chain (t : XmssTree) (ots chain : Nat) : Nat → Nat → List Byte → List Byte
  | 0, _, x => x
  | n + 1, j, x => t.chain ots chain n (j + 1) (xmssHash 0 (t.prf 0 ots chain j 0) (xorBytes x (t.prf 0 ots chain j 1)))

/-- The digits of base 16 of a byte string, high digits first. -/
def hexDigits (bs : List Byte) : List Nat := bs.flatMap fun b => [b.toNat / 16, b.toNat % 16]

/-- The 67 chain positions of a digest: its digits, then those of their checksum. -/
def wotsDigits (digest : List Byte) : List Nat :=
  let ds := hexDigits digest
  ds ++ (hexDigits (beBytes 2 (16 * (ds.map (15 - ·)).sum))).take 3

/-- One level of an L-tree: `i` the index of its first pair; a last node without a partner rises as it is. -/
def XmssTree.lLevel (t : XmssTree) (leaf height : Nat) : Nat → List (List Byte) → List (List Byte)
  | i, l :: r :: rest => t.node 1 leaf height i l r :: t.lLevel leaf height (i + 1) rest
  | _, rest => rest

/-- The root of an L-tree over 67 nodes: seven levels. -/
def XmssTree.lRoot (t : XmssTree) (leaf : Nat) (ns : List (List Byte)) : List Byte :=
  ((List.range 7).foldl (fun ns height => t.lLevel leaf height 0 ns) ns).headD []

/-- The leaf that a one-time signature of a digest gives. -/
def XmssTree.leafOf (t : XmssTree) (leaf : Nat) (sig digest : List Byte) : List Byte :=
  let ds := wotsDigits digest
  t.lRoot leaf (((List.range ds.length).zip ds).map fun x => t.chain leaf x.1 (15 - x.2) x.2 (sub sig (32 * x.1) 32))

/-! ### Trees -/

/-- The root that a leaf and its authentication path of `height` nodes give. -/
def XmssTree.rootOf (t : XmssTree) (leaf height : Nat) (auth node : List Byte) : List Byte :=
  (List.range height).foldl (fun node k =>
    let other := sub auth (32 * k) 32
    if leaf / 2 ^ k % 2 = 0 then t.node 2 0 k (leaf / 2 ^ (k + 1)) node other
    else t.node 2 0 k (leaf / 2 ^ (k + 1)) other node) node

/-- The topmost root over `layers` trees of `height` levels, from the layer numbered `layer` and the index left for it; each tree takes a
one-time signature and a path of the signature's bytes. -/
def xmssTop (seed : List Byte) (height : Nat) : Nat → Nat → Nat → List Byte → List Byte → List Byte
  | 0, _, _, _, node => node
  | layers + 1, layer, index, sig, node =>
    let t : XmssTree := ⟨seed, layer, index / 2 ^ height⟩
    let leaf := index % 2 ^ height
    let root := t.rootOf leaf height (sub sig 2144 (32 * height)) (t.leafOf leaf sig node)
    xmssTop seed height layers (layer + 1) (index / 2 ^ height) (sig.drop (2144 + 32 * height)) root

/-- A parameter set: its OID in the IANA registry, layers, levels of one tree, bytes of an index. -/
structure XmssSet where
  oid : Nat
  layers : Nat
  height : Nat
  indexBytes : Nat

/-- XMSS-SHAKE256_20_256 and XMSSMT-SHAKE256_40/4_256 (Table 16.1). -/
def XmssSet.single : XmssSet := ⟨0x12, 1, 20, 4⟩
def XmssSet.multi : XmssSet := ⟨0x2C, 4, 10, 5⟩

/-- Bytes of a signature: 2,820 and 9,893. -/
def XmssSet.sigBytes (p : XmssSet) : Nat := p.indexBytes + 32 + p.layers * (2144 + 32 * p.height)

/-- Whether a signature over a 32-byte digest verifies under a 68-byte public key: OID, root, seed. -/
def XmssSet.verifies (p : XmssSet) (key digest sig : List Byte) : Bool :=
  let root := sub key 4 32
  let index := beAt sig 0 p.indexBytes
  let msg := xmssHash 2 (sub sig p.indexBytes 32 ++ root ++ beBytes 32 index) digest
  key.length = 68 && beAt key 0 4 = p.oid && sig.length = p.sigBytes && decide (index < 2 ^ (p.layers * p.height))
    && xmssTop (sub key 36 32) p.height p.layers 0 index (sig.drop (p.indexBytes + 32)) msg = root

end Sys2Proof.Machine
end

