-- ==== Sys2Proof/Machine/Journal.lean ====
section
/-! DEFINITION. Device keys and signatures (R590, R594, R596), the change journal (R581 to R585), and how a control request is
executed and answered (R570, R574, R575, R581). -/

namespace Sys2Proof.Machine

/-! ### Signatures of the device's keys -/

/-- Signatures a key can make (Table 16.1). -/
def keyLimit (k : Nat) : Nat := if k = 0 then 2 ^ 20 else 2 ^ 40

/-- The parameter set of a device key (Table 16.1). -/
def keySet (k : Nat) : XmssSet := if k = 0 then .single else .multi

/-- Bytes of a key's signature (R590). -/
def sigLen (k : Nat) : Nat := (keySet k).sigBytes

/-- The secret seed and PRF key of a device key: key number, `CERT_SEQ` in the four bytes of Table 16.2 (R589). -/
def keySecret (k certSeq : Nat) : List Byte := shake256 (leBytes 32 Config.deviceSecret.toNat ++ Config.keyLabel k ++ leBytes 4 certSeq)

/-- The 68-byte public key of a device key: OID, root, seed (R590). -/
def publicKey (k certSeq : Nat) : List Byte :=
  beBytes 4 (keySet k).oid ++ padTo 32 (Config.keyRoot k (keySecret k certSeq)) ++ padTo 32 (Config.keySeed k (keySecret k certSeq))

/-- The signature state of a key in the flash changed. -/
def Dev.modKey (d : Dev) (k : Nat) (f : KeyState → KeyState) : Dev :=
  { d with nvm := { d.nvm with keys := modifyNth k f d.nvm.keys } }

/-- A signature under key `k` over a digest; a key whose next index has reached its limit signs nothing (R594, R596). The
signature's bytes are the key's secret (log entry 10, DESIGN CHOICE). -/
def Dev.sign (d : Dev) (k : Nat) (digest : List Byte) : Option (List Byte × Dev) :=
  let next := d.get (R.SEC_KEY_NEXT k)
  if keyLimit k ≤ next then none
  else
    let top := d.get (R.SEC_KEY_RESERVED_TO k)
    let d := if next < top then d
      else
        let top := min (top + 1024) (keyLimit k)
        (d.put (R.SEC_KEY_RESERVED_TO k) top).modKey k fun s => { s with reservedTo := top }
    let sig := padTo (sigLen k) (Config.signature k (keySecret k (d.get (R.SEC_KEY_CERT_SEQ k))) next digest)
    let d := d.modKey k fun s => { s with used := next + 1 }
    some (sig, (d.put (R.SEC_KEY_NEXT k) (next + 1)).bump C.SEC_SIGNATURES)

/-- The exact next index of each key recorded (R595). -/
def Dev.recordIndices (d : Dev) : Dev :=
  d.each [0, 1, 2] fun d k => let next := d.get (R.SEC_KEY_NEXT k); d.modKey k fun s => { s with exact_ := some next }

/-! ### The journal -/

/-- The Merkle root of R583: one level up. -/
def merkleUp : List (List Byte) → List (List Byte)
  | a :: b :: rest => shake256 (1 :: (a ++ b)) :: merkleUp rest
  | rest => rest

/-- The Merkle root of a level of at most 2^`fuel` digests (R583). -/
def merkle : Nat → List (List Byte) → List Byte
  | 0, level => level.headD []
  | fuel + 1, level => if level.length ≤ 1 then level.headD [] else merkle fuel (merkleUp level)

/-- The root of a batch's entries (R583). -/
def batchRoot (entries : List (List Byte)) : List Byte := merkle 13 (entries.map fun e => shake256 (0 :: e))

/-- The units of 32 bytes of a flash ring from a stream position to another. -/
def ringSlice (bs : List RingBatch) (from_ to_ : Nat) : List Byte :=
  (bs.map fun b => if b.pos + b.bytes.length ≤ from_ || to_ ≤ b.pos then []
    else (b.bytes.drop (from_ - b.pos)).take (to_ - max from_ b.pos)).flatten

/-- Bytes of export and pull frames that a 100 µs window of a sub-port allows: 3 % of its rate (R542). -/
def Dev.frameCeiling (d : Dev) (sp : Nat) : Nat := (d.lanesOf sp).length * 200 * 375

/-- Bytes of a sub-port's ceiling used in the present window. -/
def Dev.frameUsed (d : Dev) (sp : Nat) : Nat :=
  match d.lpe.frames.find sp with | some (w, n) => if w = d.ns / 100000 then n else 0 | none => 0

/-- Bytes left to such frames in the present window of a sub-port. -/
def Dev.frameLeft (d : Dev) (sp : Nat) : Nat := d.frameCeiling sp - d.frameUsed sp

/-- Bytes of a sub-port's ceiling used. -/
def Dev.frameUse (d : Dev) (sp n : Nat) : Dev :=
  { d with lpe := { d.lpe with frames := Sparse.put d.lpe.frames sp (d.ns / 100000, d.frameUsed sp + n) } }

/-- Up to `k` export frames of the journal ring sent from the export position on, of at most 256 units each (Table 14.7), as the ceiling
allows. -/
def Dev.journalSend (sp : Nat) : Nat → Dev → Dev
  | 0, d => d
  | k + 1, d =>
    let at_ := d.jrn.exportPos
    let bs := (ringSlice d.nvm.journal at_ (d.get R.JRN_STAT_HEAD)).take 8192
    let frame := d.ownFrame (d.get R.JRN_EXPORT_DA_DA) ([0x05, 0x01] ++ beBytes 2 d.devId ++ [4] ++ beBytes 1 (bs.length / 32 - 1)
      ++ beBytes 4 d.jrn.exportSeq ++ beBytes 8 at_ ++ bs)
    if bs.isEmpty || d.frameLeft sp < frame.length + 4 then d
    else
      let d := (d.frameUse sp (frame.length + 4)).sendOwn sp ⟨frame, .journalExport⟩
      Dev.journalSend sp k { d with jrn := { d.jrn with exportPos := at_ + bs.length, exportSeq := (d.jrn.exportSeq + 1) % 2 ^ 32 } }

/-- Journal export: each batch not yet sent goes out in export frames of subtype `0x05`, stream 4, as the ceiling that they share with
Loupe's frames allows; what it holds back goes at a later boundary, or before the next of Loupe's frames (R585). -/
def Dev.journalExport (d : Dev) : Dev :=
  let head := d.get R.JRN_STAT_HEAD
  let oldest := d.get R.JRN_STAT_OLDEST
  let sp := d.get R.JRN_CFG_EXPORT_SUBPORT
  let at_ := d.jrn.exportPos
  let d := d.bump C.JRN_EXPORT_SKIPPED (oldest - at_)
  let at_ := max at_ oldest
  if !d.on R.JRN_CFG_EXPORT_EN then { d with jrn := { d.jrn with exportPos := head } }
  else
    let d := { d with jrn := { d.jrn with exportPos := at_ } }
    if d.up sp then Dev.journalSend sp ((head - at_) / 32) d else d

/-- The oldest whole batches dropped until `n` more bytes fit a ring of `size` bytes whose next position is `head`. -/
def ringMakeRoom (head n size : Nat) : List RingBatch → List RingBatch
  | [] => []
  | b :: bs => if head + n - b.pos ≤ size then b :: bs else ringMakeRoom head n size bs

/-- The open batch closes and is written to the journal ring (R582 to R584); no batch is ever empty. -/
def Dev.closeBatch (d : Dev) (cause : Nat) : Dev :=
  match d.jrn.entries with
  | [] => d
  | e :: es =>
    let entries := e :: es
    let seq := d.nvm.lastBatch + 1
    let root := batchRoot entries
    let hdr := leBytes 4 0xCA057A11 ++ [1] ++ leBytes 1 cause ++ zeros 2 ++ leBytes 8 seq ++ sub e 8 8
      ++ leBytes 4 entries.length ++ leBytes 4 (d.get (R.SEC_KEY_CERT_SEQ 2)) ++ leBytes 8 d.jrn.openNs ++ leBytes 8 d.ns
      ++ padTo 32 d.nvm.prevHdr ++ root ++ leBytes 2 d.devId ++ zeros 14
    let (sig, d) := match d.sign 2 (shake256 hdr) with
      | some r => r
      | none => (zeros 9893, d.put R.SEC_STAT_JRN_UNSIGNED 1)
    let body := hdr ++ entries.flatten ++ sig
    let bytes := padTo (cdiv body.length 4096 * 4096) body
    let head := d.nvm.jrnHead
    let kept := ringMakeRoom head bytes.length (d.get R.JRN_CFG_RING_MIB * 2 ^ 20) d.nvm.journal
    let ring := kept ++ [⟨head, bytes⟩]
    let oldest := (ring.head?.map fun b => b.pos).getD head
    let d := { d with jrn := { d.jrn with entries := [] },
                      nvm := { d.nvm with journal := ring, lastBatch := seq, jrnHead := head + bytes.length, jrnOldest := oldest,
                                          jrnRoot := root, prevHdr := shake256 hdr, marker := none } }
    let d := ((d.put R.JRN_STAT_LAST_BATCH seq).put R.JRN_STAT_HEAD (head + bytes.length)).put R.JRN_STAT_OLDEST oldest
    let d := d.each [0, 1, 2, 3] fun d w => d.put (R.JRN_ROOT_ROOT w) (leAt root (8 * w) 8)
    (d.bump C.JRN_BATCHES).journalExport

/-- A journal entry's fields before its number, time and tick (Table 15.13). -/
structure JEntry where
  kind : Nat
  status : Nat := 0
  opcode : Nat := 0
  context : Nat := 0
  seq : Nat := 0
  sp : Nat := 0
  vid : Option Nat := none
  mac : Nat := 0
  len : Nat := 0
  addr : Nat := 0
  digest : List Byte := []
  detail : List Byte := []
  /-- The `CLOSE_CAUSE` recorded when the entry is the batch's 4,096th: 0 where its own request closes the batch, 1 for `BOOT`, the lower
  number of two causes (R582). -/
  close : Nat := 2

/-- A journal entry staged; the first of a batch opens it and sets the open marker, the 4,096th closes it (R581, R582, R584). -/
def Dev.journal (d : Dev) (e : JEntry) : Dev :=
  let n := d.nvm.nextJseq
  let bytes := leBytes 1 e.kind ++ leBytes 1 e.status ++ leBytes 1 e.opcode ++ leBytes 1 e.context ++ leBytes 4 e.seq
    ++ leBytes 8 n ++ leBytes 8 d.ns ++ leBytes 4 d.tick32 ++ leBytes 1 e.sp ++ [0] ++ leBytes 2 (e.vid.getD 0xFFFF)
    ++ leBytes 6 e.mac ++ leBytes 2 e.len ++ leBytes 6 e.addr ++ zeros 2 ++ padTo 32 e.digest ++ padTo 16 e.detail
  let first := d.jrn.entries.isEmpty
  let d := { d with jrn := { d.jrn with entries := d.jrn.entries ++ [bytes], openNs := if first then d.ns else d.jrn.openNs,
                                        openClock := if first then d.clockNs else d.jrn.openClock },
                    nvm := { d.nvm with nextJseq := n + 1,
                                        marker := if first then some (d.nvm.lastBatch + 1, n) else d.nvm.marker } }
  let d := (d.put R.JRN_STAT_NEXT_JSEQ (n + 1)).bump C.JRN_ENTRIES
  if d.jrn.entries.length = 4096 then d.closeBatch e.close else d

/-- JOURNAL_BATCH_CLOSE: 1 s after its first entry was staged the open batch closes (R582). -/
def Dev.journalBatchClose (d : Dev) : Dev :=
  if d.jrn.entries.isEmpty then d else (d.advanceClock (d.jrn.openClock + 1000000000)).closeBatch 3

/-! ### Status codes (Table 15.11) -/

namespace St
def ok : Nat := 0x00
def badOpcode : Nat := 0x01
def badAddress : Nat := 0x02
def access : Nat := 0x03
def busy : Nat := 0x04
def versionLimit : Nat := 0x05
def malformed : Nat := 0x06
def lifecycle : Nat := 0x07
def signature : Nat := 0x08
def tooLarge : Nat := 0x09
def rateLimited : Nat := 0x0A
def denied : Nat := 0x0B
def stale : Nat := 0x0C
end St

/-! ### Opcodes (Table 15.10) -/

/-- Whether an opcode is one of Table 15.10. -/
def opcodeKnown (op : Nat) : Bool :=
  [0x01, 0x02, 0x03, 0x04, 0x10, 0x11, 0x12, 0x20, 0x21, 0x30, 0x31, 0x40, 0x41, 0x50, 0x60, 0x70, 0x7F].contains op

/-- Whether an opcode is marked as changing. -/
def opcodeChanging (op : Nat) : Bool :=
  [0x02, 0x04, 0x10, 0x11, 0x12, 0x20, 0x21, 0x30, 0x31, 0x70, 0x7F].contains op

/-- Whether an opcode is accepted in an effective life-cycle state. -/
def opcodeAccepted (op state : Nat) : Bool :=
  if op = 0x01 || op = 0x03 || op = 0x50 || op = 0x60 || op = 0x70 || op = 0x7F then true
  else if op = 0x02 || op = 0x04 || op = 0x40 || op = 0x41 then decide (state < 4)
  else decide (state = 2)

/-! ### Answering -/

/-- The bytes of a response (R575, Table 15.8). -/
def Dev.response (d : Dev) (r : Req) (status : Nat) (payload : List Byte) : List Byte :=
  let hdr (crc : List Byte) : List Byte :=
    beBytes 2 0xCA05 ++ [1] ++ beBytes 1 r.opcode ++ beBytes 4 r.seq ++ beBytes 6 r.addr ++ beBytes 2 payload.length
      ++ beBytes 1 r.context ++ beBytes 1 status ++ crc ++ zeros 10
  let crc := beBytes 4 (crc32c (hdr (zeros 4) ++ payload)).toNat
  beBytes 6 r.sa ++ d.macBytes ++ r.tag ++ beBytes 2 0x88B5 ++ [0x02, 0x00] ++ hdr crc ++ payload

/-- The final status of a source's last accepted request recorded (R571). -/
def Dev.seqStatus (d : Dev) (r : Req) (status : Nat) : Dev :=
  { d with ctl := { d.ctl with
    seqs := d.ctl.seqs.map fun e => if e.mac = r.sa && e.last = r.seq then { e with status := some status } else e } }

/-- The DETAIL of a kind 5 entry (R609). -/
def lifecycleDetail (stored to_ auth seq : Nat) : List Byte :=
  leBytes 1 stored ++ leBytes 1 to_ ++ leBytes 1 auth ++ [0] ++ leBytes 4 seq ++ zeros 8

/-- The kind and `DETAIL` of an answered request's entry (Table 15.14, R609): a `TRANSITION`, a `REKEY` and a `WRITE` have theirs whatever
check refuses them; a `WRITE` that is refused leaves the register as it was. -/
def Dev.entryOf (d : Dev) (r : Req) (a : Answer) : Nat × List Byte :=
  let p := r.payload
  match a.detail with
  | some x => (a.kind, x)
  | none =>
    if r.opcode = 0x70 && beAt p 0 1 = 2 then (5, lifecycleDetail d.life.stored (beAt p 1 1) (beAt p 2 1) 0)
    else if r.opcode = 0x70 && beAt p 0 1 = 3 then (5, lifecycleDetail d.life.stored ((0x80 + beAt p 1 1) % 256) (beAt p 2 1) 0)
    else if r.opcode = 0x02 then (a.kind, leBytes 8 (d.word r.addr) ++ leBytes 8 (d.word r.addr))
    else (a.kind, a.payload)

/-- A request answered: its response sent, its entry staged when its opcode is changing, the answer counted (R575, R581,
R588). -/
def Dev.reply (d : Dev) (r : Req) (a : Answer) : Dev :=
  let d := d.sendOwn r.sp ⟨d.response r a.status a.payload, .plain⟩
  let d := if a.status = St.ok then d.bump C.CFG_CTL_OK else d.bump C.CFG_CTL_REFUSED
  let d := if a.status = St.malformed then (d.bump (C.PORT_CTL_MALFORMED r.sp)).health 5 r.sp else d
  if opcodeChanging r.opcode then
    let e := d.entryOf r a
    d.journal { kind := e.1, status := a.status, opcode := r.opcode, context := r.context, seq := r.seq, sp := r.sp,
                vid := r.vid, mac := r.sa, len := r.len, addr := r.addr, digest := shake256 (r.header ++ r.payload),
                detail := e.2, close := if a.status = St.ok && (r.opcode = 0x70 || r.opcode = 0x7F) then 0 else 2 }
  else d

/-- A request that passed check 5 answered: its source's last accepted `SEQ` takes its final status. -/
def Dev.respond (d : Dev) (r : Req) (a : Answer) : Dev := (d.reply r a).seqStatus r a.status

/-- `QUEUE_OCC` shows the requests that hold places (R574). -/
def Dev.setQueue (d : Dev) (q : List Req) : Dev :=
  ({ d with ctl := { d.ctl with queue := q } }).put R.CFG_CTL_CFG_QUEUE_OCC q.length

/-- The oldest request of the queue answered, which frees its place. -/
def Dev.finishHead (d : Dev) (a : Answer) : Dev :=
  match d.ctl.queue with
  | [] => d
  | r :: rest => (d.respond r a).setQueue rest

/-- `CLS_STAGE_REFUSED` counts the `RULE_STAGE` requests refused, of every status (R172). -/
def Dev.countStage (d : Dev) (opcode status : Nat) : Dev :=
  if opcode = 0x10 && status != St.ok then d.bump C.CLS_STAGE_REFUSED else d

/-- The model that a `MODEL_STAGE` or `MODEL_SWAP` payload names; 15, no model, where it is too short to name one. -/
def stageModel (opcode : Nat) (payload : List Byte) : Nat :=
  match payload[if opcode = 0x20 then 1 else 0]? with | some b => b.toNat | none => 15

/-- The counters of a request refused before it executes: `CLS_STAGE_REFUSED` (R172), `SEQ_STAGE_REFUSED` of the model that the request
names (R384), `LPE_STEPS` (R555). -/
def Dev.countRefused (d : Dev) (opcode : Nat) (payload : List Byte) : Dev :=
  if opcode = 0x10 then d.bump C.CLS_STAGE_REFUSED
  else if (opcode = 0x20 || opcode = 0x21) && decide (stageModel opcode payload < 15) then
    d.bump (C.SEQ_STAGE_REFUSED (stageModel opcode payload))
  else if opcode = 0x30 then d.bump C.LPE_STEPS
  else d

/-- The answer of an opcode noted as the latest. -/
def Dev.noteAnswer (d : Dev) (opcode : Nat) (a : Answer) : Dev :=
  ({ d with ctl := { d.ctl with last := (a.status, a.payload) } }).countStage opcode a.status

/-- Whether the oldest request is this opcode's with this payload, not begun; of the opcodes of Table 15.10 only the register
accesses, `0x01` to `0x04`, take an address. -/
def Dev.headIs (d : Dev) (opcode addr : Nat) (payload : List Byte) : Bool :=
  match d.ctl.queue with
  | [] => false
  | r :: _ => !r.begun && r.opcode = opcode && (4 < opcode || r.addr = addr) && r.payload = payload

/-- Whether it is the turn of a request that a test takes: it is the oldest and has not begun, or none is queued (R574). -/
def Dev.isTurn (d : Dev) (opcode : Nat) (mine : Req → Bool) : Bool :=
  match d.ctl.queue with | [] => true | r :: _ => !r.begun && r.opcode = opcode && mine r

/-- An opcode's execution, or its refusal in a life-cycle state that does not accept it (Table 15.9 check 7). -/
def Dev.ifAccepted (d : Dev) (opcode : Nat) (payload : List Byte) (run : Dev → Dev × Option Answer) : Dev × Option Answer :=
  if opcodeAccepted opcode (d.get R.LCS_STAT_STATE) then run d
  else (if opcode = 0x10 then d else d.countRefused opcode payload, some { status := St.lifecycle })

/-- An opcode executed: `run` gives its answer, or none when the answer waits for a later event. When it is the oldest request
of the queue, that request is begun, and answered with it (R570 check 9, R574); with an empty queue the command stands for a request
whose frame and response the model does not see (log entry 5, DESIGN CHOICE); while another request is the oldest, it is not this one's
turn. An opcode that the life-cycle state does not accept is refused (R576). -/
def Dev.request (d : Dev) (opcode addr : Nat) (payload : List Byte) (run : Dev → Dev × Option Answer) : Dev :=
  let own := d.headIs opcode addr payload
  if !own && !d.ctl.queue.isEmpty then d else
  let d := if own then d.setQueue (modifyNth 0 (fun r => { r with begun := true }) d.ctl.queue) else d
  match d.ifAccepted opcode payload run with
  | (d, some a) => if own then (d.noteAnswer opcode a).finishHead a else d.noteAnswer opcode a
  | (d, none) => d

/-- The late answer of an opcode whose execution has waited for an event. -/
def Dev.answerLate (d : Dev) (opcode : Nat) (a : Answer) : Dev :=
  let d := d.noteAnswer opcode a
  match d.ctl.queue with
  | [] => d
  | r :: _ => if r.begun && r.opcode = opcode then d.finishHead a else d

end Sys2Proof.Machine
end

