-- ==== Sys2Proof/Machine/Prism.lean ====
section
/-! DEFINITION. Prism (chapter 3): the parse-graph walk, its outcomes and field vector, recirculation; the verdict shim
(R85 to R88) and the malformed path (R120 to R123); rule version references (R153, R155). -/

namespace Sys2Proof.Machine

/-! ### The walk (R102 to R117) -/

/-- What a pass has gathered so far. -/
structure Walk where
  node : Nat
  start : Nat
  limit : Nat
  steps : Nat
  tag : Nat
  tunnel : Nat
  hdr : List Nat
  area : List Byte
  /-- Container-area bytes that an extraction has written. -/
  written : List Nat
  /-- Nodes stepped, for the visits of R114 and R115. -/
  visited : List Nat

/-- How a pass stopped (Table 3.5). -/
structure Stopped where
  walk : Walk
  outcome : Nat
  windowEnd : Bool
  stopNode : Nat
  stopOffset : Nat

/-- The extraction entries of a node (Table 3.18). -/
def Dev.extracts (d : Dev) (k : Nat) : List Nat :=
  [d.get (R.PRS_NODE_EXTRACT0 k), d.get (R.PRS_NODE_EXTRACT1 k), d.get (R.PRS_NODE_EXTRACT2 k), d.get (R.PRS_NODE_EXTRACT3 k)]

/-- One extraction (R114): enabled bit, source, length less 1, destination of the first visit. -/
def extractOne (frame : List Byte) (start visit stride : Nat) (w : Walk) (e : Nat) : Walk :=
  if bitsOf e 0 1 = 0 then w
  else
    let len := bitsOf e 7 4 + 1
    let dst := bitsOf e 11 7 + visit * stride
    { w with area := overlay w.area dst (padTo len (sub frame (start + bitsOf e 1 6) len)), written := w.written ++ range dst len }

/-- The header length of a node at offset `s` (R105). -/
def Dev.headerLen (d : Dev) (f : List Byte) (k s : Nat) : Nat :=
  let b := (byteAt f (s + d.get (R.PRS_NODE_HLEN_OFF k))).toNat
  ((b >>> d.get (R.PRS_NODE_HLEN_SHIFT k)) &&& d.get (R.PRS_NODE_HLEN_MASK k)) <<< d.get (R.PRS_NODE_HLEN_MUL k)
    + d.get (R.PRS_NODE_HLEN_ADD k)

/-- The next node of node `k` at offset `s` (R107). -/
def Dev.nextNode (d : Dev) (f : List Byte) (k s : Nat) : Nat :=
  let dflt := d.get (R.PRS_NODE_DEFAULT_NEXT k)
  let selW := d.get (R.PRS_NODE_SEL_W k)
  if selW = 0 then dflt
  else
    let v := beAt f (s + d.get (R.PRS_NODE_SEL_OFF k)) selW &&& d.get (R.PRS_NODE_SEL_MASK k)
    let entries := range (d.get (R.PRS_NODE_TRANS_BASE k)) (d.get (R.PRS_NODE_TRANS_COUNT k))
    match entries.find? fun i => d.get (R.PRS_TRANS_VALUE i) = v with
    | some i => d.get (R.PRS_TRANS_NEXT i)
    | none => dflt

/-- Whether a header of node `k` at offset `s` is a fragment (R113). -/
def Dev.fragTest (d : Dev) (f : List Byte) (k s : Nat) : Bool :=
  let m := d.get (R.PRS_NODE_FRAG_MODE k)
  m = 1 || (m = 2 && beAt f (s + d.get (R.PRS_NODE_FRAG_OFF k)) 2 &&& d.get (R.PRS_NODE_FRAG_MASK k) != 0)

/-- What a step whose checks passed gathers (R111 steps 2 and 3). -/
def Dev.gather (d : Dev) (f : List Byte) (w : Walk) : Walk :=
  let k := w.node
  let visit := (w.visited.filter (· = k)).length
  let w := if visit ≤ d.get (R.PRS_NODE_REP_MAX k)
    then (d.extracts k).foldl (extractOne f w.start visit (d.get (R.PRS_NODE_REP_STRIDE k))) w else w
  let w := { w with visited := k :: w.visited, tag := min 15 (w.tag + d.get (R.PRS_NODE_TAG k)),
                    tunnel := min 15 (w.tunnel + d.get (R.PRS_NODE_TUNNEL k)) }
  if d.on (R.PRS_NODE_MARK_EN k) then { w with hdr := w.hdr.set (d.get (R.PRS_NODE_MARK_SLOT k)) w.start } else w

/-- One step (R110 to R112): how the pass stopped, or the walk at the next node. `we` is the window end. -/
def Dev.parseStep (d : Dev) (f : List Byte) (we limitSteps : Nat) (w : Walk) : Stopped ⊕ Walk :=
  let k := w.node
  let s := w.start
  let minLen := d.get (R.PRS_NODE_MIN_LEN k)
  let fail (outcome : Nat) (window : Bool) : Stopped ⊕ Walk := .inl ⟨w, outcome, window, k, s⟩
  if w.limit < s + minLen then fail 2 false
  else if we < s + minLen then fail 1 true
  else
    let h := d.headerLen f k s
    let plenEn := d.on (R.PRS_NODE_PLEN_EN k)
    let p := beAt f (s + d.get (R.PRS_NODE_PLEN_OFF k)) 2 + d.get (R.PRS_NODE_PLEN_ADD k)
    if h < minLen || w.limit < s + h then fail 2 false
    else if plenEn && (p < h || w.limit < s + p) then fail 2 false
    else if we < s + h then fail 1 true
    else
      let frag := d.fragTest f k s
      let w := d.gather f w
      let w := { w with limit := if plenEn then s + p else w.limit, steps := w.steps + 1, start := s + h }
      let next := d.nextNode f k s
      if frag then .inl ⟨w, 3, false, k, s + h⟩
      else if 0x100 ≤ next then .inl ⟨w, 0, false, k, s + h⟩
      else if w.steps = limitSteps then .inl ⟨w, 1, false, next, s + h⟩
      else .inr { w with node := next }

/-- The walk, at most `fuel` steps. -/
def Dev.parseWalk (d : Dev) (f : List Byte) (we limitSteps : Nat) : Nat → Walk → Stopped
  | 0, w => ⟨w, 1, false, w.node, w.start⟩
  | fuel + 1, w =>
    match d.parseStep f we limitSteps w with
    | .inl s => s
    | .inr w => d.parseWalk f we limitSteps fuel w

/-- A pass over a frame without FCS from an offset and a node (R102, R118). R134 refuses a write of `STEP_LIMIT` 0 or above 24 only; an
image may load one, and the walk then ends as depth-exceeded after at most 25 steps (log entry 72, DESIGN CHOICE). -/
def Dev.parsePass (d : Dev) (f : List Byte) (cfg start node : Nat) : Stopped :=
  let w : Walk := ⟨node, start, f.length, 0, 0, 0, List.replicate 4 0xFFFF, zeros 104, [], []⟩
  d.parseWalk f (min (start + 512) f.length) (bitsOf cfg 0 5) 25 w

/-- The containers that are valid: written, and not cleared for a fragment (R124, R127). -/
def Dev.validMask (d : Dev) (s : Stopped) : Nat :=
  let inner := d.get R.PRS_INNER_MASK_INNER
  (List.range 26).foldl (fun m c =>
    if s.walk.written.any (fun b => b / 4 = c) && !(s.outcome = 3 && bitsOf inner c 1 = 1) then m + 2 ^ c else m) 0

/-- The field vector (Table 3.7, R124, R126). -/
def Dev.fieldVector (d : Dev) (s : Stopped) (passNo sp frameEnd : Nat) : List Byte :=
  let w := s.walk
  let inner := d.get R.PRS_INNER_MASK_INNER
  let area := (List.range 26).foldl (fun (a : List Byte) c =>
    if s.outcome = 3 && bitsOf inner c 1 = 1 then overlay a (4 * c) (zeros 4) else a) w.area
  leBytes 1 (s.outcome + 4 * passNo + 16 * sp + 128 * b2n s.windowEnd) ++ leBytes 1 w.steps ++ leBytes 1 s.stopNode
    ++ leBytes 1 (w.tag + 16 * w.tunnel) ++ leBytes 2 frameEnd ++ leBytes 2 s.stopOffset ++ leBytes 4 (d.validMask s)
    ++ (w.hdr.map (leBytes 2)).flatten ++ zeros 4 ++ area

/-! ### Packets -/

/-- A packet by its number. -/
def Dev.packet? (d : Dev) (id : Nat) : Option Packet := d.front.packets.find? fun p => p.id = id

/-- A packet replaced. -/
def Dev.setPacket (d : Dev) (p : Packet) : Dev :=
  { d with front := { d.front with packets := d.front.packets.map fun q => if q.id = p.id then p else q } }

/-- A packet leaves the packet path. -/
def Dev.dropPacket (d : Dev) (id : Nat) : Dev :=
  ({ d with front := { d.front with packets := d.front.packets.filter fun q => q.id != id } }).flowControl

/-! ### The verdict shim (R85 to R88) -/

/-- The fields of a verdict shim. -/
structure Shim where
  flags : Nat
  ruleVer : Nat
  tier : Nat
  reason : Nat
  gen : Nat
  cls : Nat
  score : Nat
  action : Nat
  tick : Nat
  deriving DecidableEq, Repr

/-- Version 2 of the shim (Table 2.5). -/
def Shim.v2 (s : Shim) : List Byte :=
  beBytes 2 (2 * 4096 + s.flags % 4096) ++ beBytes 1 s.ruleVer ++ beBytes 1 (s.tier * 16 + s.reason) ++ beBytes 2 s.gen
    ++ beBytes 2 s.cls ++ beBytes 2 s.score ++ beBytes 2 s.action ++ beBytes 4 s.tick

/-- Version 1 of the shim (Table 2.8). -/
def Shim.v1 (s : Shim) : List Byte :=
  let reason := if s.reason = 1 || s.reason = 2 || s.reason = 7 then 0 else s.reason
  beBytes 2 (1 * 4096 + s.flags % 64) ++ beBytes 1 s.ruleVer ++ beBytes 1 (s.tier * 16 + reason) ++ beBytes 2 s.cls
    ++ beBytes 2 s.score ++ beBytes 2 s.action ++ beBytes 4 s.tick ++ zeros 2

/-- The shim that version 2 bytes spell. -/
def Shim.ofBytes (b : List Byte) : Shim :=
  { flags := beAt b 0 2 % 4096, ruleVer := beAt b 2 1, tier := beAt b 3 1 / 16, reason := beAt b 3 1 % 16, gen := beAt b 4 2,
    cls := beAt b 6 2, score := beAt b 8 2, action := beAt b 10 2, tick := beAt b 12 4 }

/-- The 20-byte shim tag, in the version the flush semantics select (R70, R88). -/
def Dev.shimTag (d : Dev) (s : Shim) : List Byte :=
  beBytes 2 0x88B5 ++ [0x10, 0x00] ++ (if d.on R.TKP_MODE_FLUSH_COMPAT then s.v1 else s.v2)

/-- A packet is released: its frame with the shim tag joins the egress queue of its sub-port (R41, R70, R72); on a sub-port
that is down it is discarded (R57). -/
def Dev.release (d : Dev) (p : Packet) (s : Shim) : Dev :=
  let d := { d with front := { d.front with packets := d.front.packets.filter fun q => q.id != p.id } }
  if p.gone then d
  else if !d.up p.sp then (d.bump (C.PORT_TX_LINK_DOWN p.sp)).flowControl
  else
    let item : EgressItem :=
      { packet := p.id, cls := p.cls, bytes := p.frame.take 12 ++ d.shimTag s ++ p.frame.drop 12,
        held := heldBytes p.frame.length, dropped := bitsOf s.action 15 1 = 1,
        flow := p.flow.map fun f => (f.index, f.incarnation) }
    (d.modSub p.sp fun sub => { sub with egress := sub.egress ++ [item] }).flowControl

/-- The malformed path (R120 to R122): `flags` and `reason` say why. -/
def Dev.malformedPath (d : Dev) (p : Packet) (flags reason : Nat) : Dev :=
  if p.mode = 0 then
    d.release { p with flow := none }
      { flags := flags, ruleVer := d.get R.CLS_STATE_CUR_VER, tier := 0xF, reason := reason, gen := 0,
        cls := d.get R.PRS_MAL_VERDICT_MAL_CLASS, score := 0x7E00, action := d.get R.PRS_MAL_VERDICT_MAL_ACTION,
        tick := d.tick32 }
  else d.dropPacket p.id

/-! ### Rule version references (R153, R155) -/

/-- A slot becomes Sweeping. -/
def Dev.startSweep (d : Dev) (slot : Nat) : Dev :=
  let d := d.put (R.CLS_VER_STATE slot) 4
  ({ d with front := { d.front with sweeps := d.front.sweeps ++ [(⟨slot, false⟩ : Sweep)] } }).put R.CLS_STATE_SWEEP_BUSY 1

/-- A packet's first search stamps it with the Current version, whose reference count rises. -/
def Dev.stamp (d : Dev) (p : Packet) : Dev × Packet :=
  let slot := d.get R.CLS_STATE_CUR_SLOT
  (d.put (R.CLS_VER_REFCOUNT slot) (d.get (R.CLS_VER_REFCOUNT slot) + 1),
   { p with slot := slot, ver := d.get (R.CLS_VER_VER slot), refHeld := true })

/-- A packet that can make no further search drops its reference; a Draining version without references is swept. -/
def Dev.unref (d : Dev) (p : Packet) : Dev × Packet :=
  if p.refHeld then
    let n := d.get (R.CLS_VER_REFCOUNT p.slot) - 1
    let d := d.put (R.CLS_VER_REFCOUNT p.slot) n
    let d := if n = 0 && d.get (R.CLS_VER_STATE p.slot) = 3 then d.startSweep p.slot else d
    (d, { p with refHeld := false })
  else (d, p)

/-! ### Passes -/

/-- The recirculation queue's occupancy shown (Table 3.16). -/
def Dev.recircOcc (d : Dev) : Dev :=
  (d.put R.PRS_RECIRC_STAT_OCC d.front.recircs.length).peak R.PRS_RECIRC_STAT_PEAK d.front.recircs.length

/-- A pass enters a pipe. -/
def Dev.enterPass (d : Dev) (p : Packet) (start node profile : Nat) : Dev :=
  let first := p.passes = 0
  let p := { p with stage := .parsing (d.word R.PRS_CFG_STEP_LIMIT.addr) start node profile, passes := p.passes + 1,
                    firstEntry := if first then d.clockNs else p.firstEntry }
  let d := (d.setPacket p).bump C.PRS_PASSES
  let d := if first then d.bump C.PRS_PACKETS else d.bump C.PRS_RECIRC_PASSES
  { d with front := { d.front with parsing := d.front.parsing ++ [p.id] } }

/-- PARSE_PASS_ENTER: the next pass enters a pipe: the oldest first pass, else the oldest recirculation request (R97, R99 to
R101, R103, R131). A request whose 400 ns are over waits to be withdrawn (R129). -/
def Dev.passEnter (d : Dev) : Dev :=
  match d.front.packets.find? fun p => decide (p.stage = .arrived) with
  | some p => d.enterPass p 0 (d.get (R.PRS_ENTRY_NODE p.sp)) (d.get (R.CLS_ENTRY_PROFILE_PROFILE p.sp))
  | none =>
    match d.front.recircs with
    | [] => d
    | id :: rest =>
      match d.packet? id with
      | none => d
      | some p =>
        match p.stage with
        | .recirc node slot profile =>
          if d.clockNs < p.firstEntry + 400 then
            let d := ({ d with front := { d.front with recircs := rest } }).recircOcc
            d.enterPass p (leAt p.pass.fv (12 + 2 * slot) 2) node profile
          else d
        | _ => d

/-- The counters of an outcome (Table 3.5). -/
def Dev.countOutcome (d : Dev) (s : Stopped) : Dev :=
  let d := d.bump C.PRS_STEPS s.walk.steps
  match s.outcome with
  | 0 => d.bump C.PRS_NORMAL
  | 1 => let d := d.bump C.PRS_DEPTH_EXCEEDED; if s.windowEnd then d.bump C.PRS_WINDOW_END else d
  | 2 => d.bump C.PRS_MALFORMED_LENGTH
  | _ => d.bump C.PRS_FRAGMENTS

/-- PARSE_PASS_END: the oldest pass delivers its field vector and outcome to the classifier, or its packet takes the malformed
path or is dropped by its depth action (R118 to R123, R153). -/
def Dev.passEnd (d : Dev) : Dev :=
  match d.front.parsing with
  | [] => d
  | id :: rest =>
    let d := { d with front := { d.front with parsing := rest } }
    match d.packet? id with
    | none => d
    | some p =>
      match p.stage with
      | .parsing cfg start node profile =>
        let s := d.parsePass p.frame cfg start node
        let d := d.countOutcome s
        let depth := bitsOf cfg 5 2
        if s.outcome = 2 then let (d, p) := d.unref p; d.malformedPath p 0x008 4
        else if s.outcome = 1 && depth = 1 then let (d, p) := d.unref p; (d.bump C.PRS_DEPTH_DROP).dropPacket p.id
        else if s.outcome = 1 && depth = 2 then let (d, p) := d.unref p; d.malformedPath p 0x004 3
        else
          let flags := if s.outcome = 1 && depth = 0 then 0x004 else if s.outcome = 3 then 0x010 else 0
          let (d, p) := if p.passes = 1 then d.stamp p else (d, p)
          let p := { p with pass := ⟨s.outcome, flags, d.fieldVector s (p.passes - 1) p.sp p.frame.length⟩,
                            stage := .searching cfg profile }
          let d := d.setPacket p
          { d with front := { d.front with searching := d.front.searching ++ [p.id] } }
      | _ => d

/-! ### The commands -/

/-- PARSE_PASS_ENTER (R97). -/
def execParsePassEnter (s : State) := s.clocked (·.regionStopped 17) Dev.passEnter

/-- PARSE_PASS_END (R118). -/
def execParsePassEnd (s : State) := s.clocked (·.regionStopped 17) Dev.passEnd

end Sys2Proof.Machine
end

