-- ==== Sys2Proof/Machine/Rules.lean ====
section
/-! DEFINITION. The rule memory (chapter 4): positions, search, parity, staging, commit, abort and sweeps. A position is
numbered bank × 16,384 + index. -/

namespace Sys2Proof.Machine

/-! ### Positions (R136, Table 4.12) -/

/-- The control address of a position's word 0. -/
def posAddr (p : Nat) : Nat := 0x310000000 + 128 * p

/-- The slot mask of a position (R137). -/
def Dev.posSlots (d : Dev) (p : Nat) : Nat := bitsOf (d.word (posAddr p + 88)) 0 4

/-- The number that `k` register words from an address spell, the first the least significant. -/
def Dev.wideWord (d : Dev) (a : Nat) : Nat → Nat
  | 0 => 0
  | k + 1 => d.word a + 2 ^ 64 * d.wideWord (a + 8) k

/-- `k` register words from an address set from a number. -/
def Dev.setWide (d : Dev) (a : Nat) : Nat → Nat → Dev
  | 0, _ => d
  | k + 1, v => (d.setWord a v).setWide (a + 8) k (v / 2 ^ 64)

/-- The listed positions of a bank with any bit of their last word set, in rising order. -/
def Dev.bankPositions (d : Dev) (b : Nat) : List Nat :=
  let lo := posAddr (b * 16384)
  let hi := posAddr ((b + 1) * 16384)
  d.regs.filterMap fun e => if lo ≤ e.1 && e.1 < hi && (e.1 - lo) % 128 = 88 then some (b * 16384 + (e.1 - lo) / 128) else none

/-- Every position with any word listed. -/
def Dev.contentPositions (d : Dev) : List Nat :=
  ((d.regs.filterMap fun e => if posAddr 0 ≤ e.1 && e.1 < posAddr 0x80000 then some ((e.1 - posAddr 0) / 128) else none)).eraseDups

/-- Every listed position. -/
def Dev.positions (d : Dev) : List Nat := ((List.range 32).map d.bankPositions).flatten

/-- The parity of a position's value, mask, action word and slot mask: even parity (R136; log entry 29, DESIGN CHOICE). -/
def Dev.contentParity (d : Dev) (p : Nat) : Bool :=
  let words := (List.range 11).foldl (fun x w => x ^^^ d.word (posAddr p + 8 * w)) (d.posSlots p)
  popCount 64 words % 2 = 1

/-- The parity bit that a position holds. -/
def Dev.parityBit (d : Dev) (p : Nat) : Bool := (d.front.parity.find p).getD false

/-- Whether a position's parity bit is that of its contents. -/
def Dev.parityOk (d : Dev) (p : Nat) : Bool := d.parityBit p = d.contentParity p

/-- A position's parity bit set. -/
def Dev.setParity (d : Dev) (p : Nat) (b : Bool) : Dev :=
  { d with front := { d.front with parity := Sparse.write (fun _ => false) d.front.parity p b } }

/-- The firmware's DRAM copy of a position follows its contents (R167). -/
def Dev.copyRule (d : Dev) (p : Nat) : Dev :=
  d.each (List.range 12) fun d w =>
    let a := posAddr p + 8 * w
    { d with front := { d.front with ruleCopy := Sparse.write (fun _ => 0) d.front.ruleCopy a (BitVec.ofNat 64 (d.word a)) } }

/-- A position's slot mask set; the count of each slot's entries, its parity bit and its copy follow. A parity error of the position
stays one. -/
def Dev.setPosSlots (d : Dev) (p m : Nat) : Dev :=
  let old := d.posSlots p
  let ok := d.parityOk p
  let d := d.setWord (posAddr p + 88) (setBits (d.word (posAddr p + 88)) 0 4 m)
  let d := d.each [0, 1, 2, 3] fun d s =>
    let f := R.CLS_VER_ENTRIES s
    d.put f (d.get f + bitsOf m s 1 - bitsOf old s 1)
  (d.setParity p (d.contentParity p != !ok)).copyRule p

/-- `CLS_FREE` follows the positions whose slot mask is 0; a position that a sweep clears keeps its bit until that sweep ends
(log entry 21, DEDUCED). -/
def Dev.countFree (d : Dev) : Dev := d.put R.CLS_FREE_FREE (0x80000 - (d.positions.filter fun p => d.posSlots p != 0).length)

/-! ### Search (R140 to R143, R168, R171) -/

/-- The 320-bit key of a field vector under a profile (R140). -/
def Dev.key (d : Dev) (profile : Nat) (fv : List Byte) : Nat :=
  beNat ((List.range 40).map fun j =>
    let s := d.get (R.CLS_PROFILE_SEL profile j)
    if 128 ≤ s then byteAt fv (s % 128) else 0)

/-- The bank list of a profile, each bank once (R142, R171); a `BANK_COUNT` of 5 to 7, which only an image record can load, takes all four
(log entry 72, DESIGN CHOICE). -/
def Dev.bankList (d : Dev) (profile : Nat) : List Nat :=
  ([d.get (R.CLS_PROFILE_BANK0 profile), d.get (R.CLS_PROFILE_BANK1 profile), d.get (R.CLS_PROFILE_BANK2 profile),
    d.get (R.CLS_PROFILE_BANK3 profile)].take (d.get (R.CLS_PROFILE_BANK_COUNT profile))).eraseDups

/-- Whether a position matches a key in a slot; one with a parity error matches in no slot (R137, R168). -/
def Dev.posMatches (d : Dev) (key slot : Nat) (bad : List Nat) (p : Nat) : Bool :=
  bitsOf (d.posSlots p) slot 1 = 1 && bitsOf (d.word (posAddr p + 88)) 4 1 = 0 && d.parityOk p && !bad.contains p
    && (key ^^^ d.wideWord (posAddr p) 5) &&& d.wideWord (posAddr p + 40) 5 = 0

/-- The winning position of a search (R142). -/
def Dev.search (d : Dev) (profile slot : Nat) (fv : List Byte) (bad : List Nat) : Option Nat :=
  let key := d.key profile fv
  (d.bankList profile).findSome? fun b => (d.bankPositions b).find? (d.posMatches key slot bad)

/-- A parity error found at a position, whose parity bit no longer agrees with its contents (R168). -/
def Dev.parityError (d : Dev) (p : Nat) : Dev :=
  let a := posAddr p + 88
  let d := d.setParity p !(d.contentParity p)
  ((d.setWord a (setBits (d.word a) 4 1 1)).bump C.CLS_PARITY_ERR).health 0x10 p

/-- The action word a search gives, with its counters: `bad` lists the positions the search read with a parity error. -/
def Dev.searchAction (d : Dev) (profile slot : Nat) (fv : List Byte) (bad : List Nat) : Dev × Nat :=
  let banks := d.bankList profile
  let d := d.each (bad.filter fun p => banks.contains (p / 16384)) Dev.parityError
  let d := d.bump C.CLS_SEARCHES
  match d.search profile slot fv bad with
  | some p => ((d.bump C.CLS_HITS).bump (C.CLS_PROFILE_HITS profile), d.word (posAddr p + 80))
  | none => ((d.bump C.CLS_MISSES).bump (C.CLS_PROFILE_MISSES profile), d.word (R.CLS_DEFAULT_ACTION_WORD slot profile).addr)

/-- RULE_SCRUB: the positions found with a parity error (R169). -/
def Dev.ruleScrub (d : Dev) (bad : List Nat) : Dev := d.each (bad.filter fun p => p < 0x80000) Dev.parityError

/-- PARITY_REWRITE: a position with `PARITY_BAD` set is rewritten from its copy (R169). -/
def Dev.parityRewrite (d : Dev) (p : Nat) : Dev :=
  let a := posAddr p
  if p < 0x80000 && bitsOf (d.word (a + 88)) 4 1 = 1 then
    let d := d.each (List.range 12) fun d w =>
      d.setWord (a + 8 * w) (Sparse.read (fun _ => 0) d.front.ruleCopy (a + 8 * w)).toNat
    let d := d.setWord (a + 88) (setBits (d.word (a + 88)) 4 1 0)
    d.setParity p (d.contentParity p)
  else d

/-! ### Staging (R157 to R160) -/

/-- Whether an action word may be staged or loaded (R152, Table 4.5). -/
def Dev.actionOk (d : Dev) (aw : Nat) : Bool :=
  bitsOf aw 48 1 = 0 && (bitsOf aw 49 1 = 0 || bitsOf aw 50 8 < d.get R.PRS_GRAPH_INFO_NODE_COUNT)

/-- The position a stage record names (Table 4.4). -/
def recordPos (r : List Byte) : Nat := beAt r 1 1 * 16384 + beAt r 2 2

/-- Whether a stage record has a reserved field that is not zero (R158, Table 4.4). -/
def recordReserved (r : List Byte) : Bool :=
  let op := beAt r 0 1
  beAt r 92 4 != 0 || ((op = 2 || op = 3) && (beAt r 4 40 != 0 || beAt r 44 40 != 0)) || (op = 2 && beAt r 84 8 != 0)
    || (op = 3 && beAt r 2 2 != 0)

/-- The status with which one stage record of staging slot `s` is refused (Tables 4.4 and 4.5, R159), none where it may be applied;
`added` lists the positions that earlier `ADD` records of the request write. -/
def Dev.recordRefusal (d : Dev) (s : Nat) (added : List Nat) (r : List Byte) : Option Nat :=
  let op := beAt r 0 1
  let value := beAt r 4 40
  let mask := beAt r 44 40
  let aw := beAt r 84 8
  if op = 0 || 3 < op then some St.malformed
  else if (if op = 3 then 15 else 31) < beAt r 1 1 || (op != 3 && 16383 < beAt r 2 2) then some St.badAddress
  else if recordReserved r || value &&& mask != value || !d.actionOk aw then some St.malformed
  else if op = 1 && (d.posSlots (recordPos r) != 0 || added.contains (recordPos r)) then some St.busy
  else if op = 2 && bitsOf (d.posSlots (recordPos r)) s 1 = 0 then some St.badAddress
  else none

/-- The first refused record among `n`, as its status and number: every record is checked before any is applied, so on the staging as
it stood before the request (R160). -/
def Dev.stageRefusal (d : Dev) (s : Nat) : Nat → List Nat → List Byte → Nat → Option (Nat × Nat)
  | 0, _, _, _ => none
  | n + 1, added, bs, i =>
    match d.recordRefusal s added (bs.take 96) with
    | some st => some (st, i)
    | none => d.stageRefusal s n (if beAt bs 0 1 = 1 then recordPos bs :: added else added) (bs.drop 96) (i + 1)

/-- The effect of one stage record in staging slot `s` (Table 4.5). -/
def Dev.applyRecord (s : Nat) (d : Dev) (r : List Byte) : Dev :=
  let p := recordPos r
  let aw := beAt r 84 8
  match beAt r 0 1 with
  | 1 =>
    let a := posAddr p
    let d := ((d.setWide a 5 (beAt r 4 40)).setWide (a + 40) 5 (beAt r 44 40)).setWord (a + 80) aw
    let d := d.setParity p (d.contentParity p)
    d.setPosSlots p (2 ^ s)
  | 2 => d.setPosSlots p (setBits (d.posSlots p) s 1 0)
  | _ => d.setWord (R.CLS_DEFAULT_ACTION_WORD s (beAt r 1 1)).addr aw

/-- The records of a request, 96 bytes each. -/
def recordsOf : Nat → List Byte → List (List Byte)
  | 0, _ => []
  | n + 1, bs => bs.take 96 :: recordsOf n (bs.drop 96)

/-- The records of a request: the first refused one's status and number, or all their effects in order (R159, R160). -/
def Dev.stageRecords (d : Dev) (s n : Nat) (bs : List Byte) : (Nat × Nat) ⊕ Dev :=
  match d.stageRefusal s n [] bs 0 with
  | some x => .inl x
  | none => .inr (d.each (recordsOf n bs) (Dev.applyRecord s))

/-- A RULE_STAGE request refused; `Dev.noteAnswer` counts it (R172). -/
def Dev.stageRefused (d : Dev) (status : Nat) (payload : List Byte) : Dev × Option Answer :=
  (d, some { status := status, payload := payload })

/-- The records applied to the open staging, all or none (R160). -/
def Dev.applyStage (d : Dev) (payload : List Byte) : Dev × Option Answer :=
  let n := payload.length / 96
  match d.stageRecords (d.get R.CLS_STATE_STAGE_SLOT) n payload with
  | .inl (st, i) => d.stageRefused st (beBytes 2 i)
  | .inr d => ((d.bump C.CLS_STAGE_RECORDS n).countFree, some { status := St.ok })

/-- RULE_STAGE (R157, R158). A request that R158 refuses, for its `LEN` or for a reserved field of a record, opens no staging; its answer
names the first refused record, on the copy of the Current version that it would have opened (R160; log entry 21, DEDUCED). -/
def Dev.ruleStage (d : Dev) (payload : List Byte) : Dev × Option Answer :=
  if 9120 < payload.length then d.stageRefused St.tooLarge []
  else if payload.length = 0 || payload.length % 96 != 0 then d.stageRefused St.malformed []
  else if d.on R.CLS_STATE_STAGE_OPEN then d.applyStage payload
  else if (recordsOf (payload.length / 96) payload).any recordReserved then
    match d.stageRefusal (d.get R.CLS_STATE_CUR_SLOT) (payload.length / 96) [] payload 0 with
    | some (st, i) => d.stageRefused st (beBytes 2 i)
    | none => d.stageRefused St.malformed []
  else
    match (List.range 4).find? fun s => d.get (R.CLS_VER_STATE s) = 0 with
    | none => d.stageRefused St.busy []
    | some s =>
      let d := (d.put (R.CLS_VER_STATE s) 1).put R.CLS_STATE_STAGE_OPEN 1
      let d := (d.put R.CLS_STATE_STAGE_SLOT s).put R.CLS_STATE_SWEEP_BUSY 1
      ({ d with front := { d.front with opening := some payload, sweeps := d.front.sweeps ++ [(⟨s, true⟩ : Sweep)] } }, none)

/-- The sweep of a slot is over. -/
def Dev.dropSweep (d : Dev) (slot : Nat) : Dev :=
  let left := d.front.sweeps.filter fun w => w.slot != slot
  ({ d with front := { d.front with sweeps := left } }).put R.CLS_STATE_SWEEP_BUSY (b2n !left.isEmpty)

/-- The Current version copied into slot `s`: the bit of every position it holds, and the 16 default action words (R157). -/
def Dev.copyCurrent (d : Dev) (s : Nat) : Dev :=
  let cur := d.get R.CLS_STATE_CUR_SLOT
  let d := d.each (d.positions.filter fun p => bitsOf (d.posSlots p) cur 1 = 1) fun d p =>
    d.setPosSlots p (setBits (d.posSlots p) s 1 1)
  d.each (List.range 16) fun d p =>
    d.setWord (R.CLS_DEFAULT_ACTION_WORD s p).addr (d.word (R.CLS_DEFAULT_ACTION_WORD cur p).addr)

/-! ### Commit, abort, sweeps (R161 to R165, R146) -/

/-- The distance modulo 256 from the oldest live version to a new number; the oldest is the one of least commit number. -/
def Dev.versionSpan (d : Dev) (newVer : Nat) : Nat :=
  let live := (List.range 4).filter fun s => d.get (R.CLS_VER_STATE s) = 2 || d.get (R.CLS_VER_STATE s) = 3
  let span (s : Nat) : Nat := (newVer + 256 - d.get (R.CLS_VER_VER s)) % 256
  live.foldl (fun m s => max m (span s)) 0

/-- RULE_COMMIT (R162 to R165). -/
def Dev.ruleCommit (d : Dev) (payload : List Byte) : Dev × Option Answer :=
  let cur := d.get R.CLS_STATE_CUR_SLOT
  let newVer := (d.get R.CLS_STATE_CUR_VER + 1) % 256
  if !payload.isEmpty then (d, some { status := St.malformed })
  else if !d.on R.CLS_STATE_STAGE_OPEN then (d, some { status := St.malformed })
  else if 128 ≤ d.versionSpan newVer then (d.bump C.CLS_VERSION_LIMIT, some { status := St.versionLimit })
  else
    let s := d.get R.CLS_STATE_STAGE_SLOT
    let seq := d.get R.CLS_COMMIT_SEQ_SEQ + 1
    let d := (d.put R.CLS_STATE_STAGE_OPEN 0).put R.CLS_COMMIT_SEQ_SEQ seq
    let d := ((d.put (R.CLS_VER_VER s) newVer).put (R.CLS_VER_STATE s) 2).put (R.CLS_VER_COMMIT_SEQ s) seq
    let d := (d.put R.CLS_STATE_CUR_SLOT s).put R.CLS_STATE_CUR_VER newVer
    let d := d.put (R.CLS_VER_STATE cur) 3
    let d := if d.get (R.CLS_VER_REFCOUNT cur) = 0 then d.startSweep cur else d
    (d.bump C.CLS_COMMITS, some { status := St.ok, payload := beBytes 1 newVer ++ zeros 7 ++ beBytes 8 seq })

/-- RULE_ABORT (R161). -/
def Dev.ruleAbort (d : Dev) (payload : List Byte) : Dev × Option Answer :=
  if !payload.isEmpty then (d, some { status := St.malformed })
  else if !d.on R.CLS_STATE_STAGE_OPEN then (d, some { status := St.malformed })
  else
    let s := d.get R.CLS_STATE_STAGE_SLOT
    (((d.put R.CLS_STATE_STAGE_OPEN 0).startSweep s).bump C.CLS_ABORTS, some { status := St.ok })

/-- A request on the staging: requests begin and end one at a time, so it waits while the copy sweep of an accepted RULE_STAGE runs
(R157, R164, R574). -/
def Dev.ruleRequest (d : Dev) (opcode : Nat) (payload : List Byte) : Dev :=
  if d.front.opening.isSome then { d with front := { d.front with ruleWaits := d.front.ruleWaits ++ [(opcode, payload)] } }
  else d.request opcode 0 payload fun d =>
    if opcode = 0x10 then d.ruleStage payload else if opcode = 0x11 then d.ruleCommit payload else d.ruleAbort payload

/-- The requests that waited for a copy sweep, in order, until one of them opens a staging of its own. -/
def Dev.runRuleWaits : Nat → Dev → Dev
  | 0, d => d
  | n + 1, d =>
    match d.front.opening, d.front.ruleWaits with
    | none, w :: rest => Dev.runRuleWaits n (({ d with front := { d.front with ruleWaits := rest } }).ruleRequest w.1 w.2)
    | _, _ => d

/-- COPY_SWEEP_END: the copy sweep ends, the opening request's records are applied, and the requests that waited go on (R157, R574). -/
def Dev.copySweepEnd (d : Dev) : Dev :=
  match d.front.opening with
  | none => d
  | some payload =>
    let s := d.get R.CLS_STATE_STAGE_SLOT
    let d := (d.dropSweep s).copyCurrent s
    let (d, a) := ({ d with front := { d.front with opening := none } }).applyStage payload
    let d := match a with | some a => d.answerLate 0x10 a | none => d
    Dev.runRuleWaits d.front.ruleWaits.length d

/-- SWEEP_END: the sweep of a slot ends: its bit is clear in every position and the slot is Free (R146, R155, R161). -/
def Dev.sweepEnd (d : Dev) (slot : Nat) : Dev :=
  if d.front.sweeps.any fun w => w.slot = slot && !w.copying then
    let d := d.each (d.positions.filter fun p => bitsOf (d.posSlots p) slot 1 = 1) fun d p =>
      d.setPosSlots p (setBits (d.posSlots p) slot 1 0)
    ((d.dropSweep slot).put (R.CLS_VER_STATE slot) 0).countFree
  else d

/-! ### The commands -/

/-- RULE_SCRUB (R169). -/
def execRuleScrub (bad : List Nat) (s : State) := s.clocked (·.regionStopped 17) fun d => d.ruleScrub bad

/-- PARITY_REWRITE (R169). -/
def execParityRewrite (position : Nat) (s : State) := s.clocked (·.regionStopped 17) fun d => d.parityRewrite position

/-- RULE_STAGE (R157). -/
def execRuleStage (payload : List Byte) (s : State) := s.clocked (·.regionStopped 21) fun d => d.ruleRequest 0x10 payload

/-- COPY_SWEEP_END (R157). -/
def execCopySweepEnd (s : State) := s.clocked (·.regionStopped 17) Dev.copySweepEnd

/-- RULE_COMMIT (R162). -/
def execRuleCommit (payload : List Byte) (s : State) := s.clocked (·.regionStopped 21) fun d => d.ruleRequest 0x11 payload

/-- RULE_ABORT (R161). -/
def execRuleAbort (payload : List Byte) (s : State) := s.clocked (·.regionStopped 21) fun d => d.ruleRequest 0x12 payload

/-- SWEEP_END (R146). -/
def execSweepEnd (slot : Fin 4) (s : State) := s.clocked (·.regionStopped 17) fun d => d.sweepEnd slot.val

end Sys2Proof.Machine
end

