-- ==== Sys2Proof/Machine/Mem.lean ====
section
/-! DEFINITION. The local address space (R472 to R485): regions, channels, reads that may return poison, writes that may be
discarded, errors and the retirement of channels, temperatures and refresh. A reader names the errors its access meets as
`MemEvent`s. -/

namespace Sys2Proof.Machine

/-! ### The address map -/

/-- Where a local address lies (Table 13.1). -/
inductive Region where
  | general | table | cluster (c : Nat) | unmapped
  deriving DecidableEq, Repr

/-- The local address of a cluster's memory (Table 13.1). -/
def clusterBase (c : Nat) : Nat := 0xF000000000000 + 0x1000000 * c

/-- Live channels at start-up, L (R472). -/
def Dev.liveChannels (d : Dev) : Nat := d.get R.MEM_MAP_INFO_LIVE_CHANNELS

/-- The region of a local address. -/
def Dev.region (d : Dev) (a : Nat) : Region :=
  if a < 110 * 2 ^ 20 * d.liveChannels then .general
  else if 0xDC0000000 ≤ a && a < 0x1000000000 then .table
  else if 0xF000000000000 ≤ a && a < 0xF000000000000 + 16 * 0x1000000 && (a % 0x1000000) < 12 * 2 ^ 20 then
    .cluster ((a - 0xF000000000000) / 0x1000000)
  else .unmapped

/-- Whether the `n` bytes from `a` all lie in one region of the map. -/
def Dev.mapped (d : Dev) (a n : Nat) : Bool :=
  d.region a != .unmapped && d.region a == d.region (a + n - 1)

/-- The channels live at start-up, in ascending order. -/
def Dev.liveList (d : Dev) : List Nat := (List.range 512).filter fun c => d.get (R.MEM_CHAN_STAT_STATE c) != 1

/-- The DRAM channel of a local address (R475, R476). -/
def Dev.channelOf (d : Dev) (a : Nat) : Option Nat :=
  match d.region a with
  | .general => d.liveList[(a / 1024) % max 1 d.liveChannels]?
  | .table => some ((a - 0xDC0000000) / 1024 % 512)
  | _ => none

/-- Whether a channel is retired. -/
def Dev.chanRetired (d : Dev) (c : Nat) : Bool := d.get (R.MEM_CHAN_STAT_STATE c) != 0

/-- The granules of 64 bytes that `n` bytes from `a` touch. -/
def granules (a n : Nat) : List Nat := if n = 0 then [] else range (a / 64) ((a + n - 1) / 64 - a / 64 + 1)

/-- Whether an address lies in a channel that is retired. -/
def Dev.inRetired (d : Dev) (a : Nat) : Bool := match d.channelOf a with | some c => d.chanRetired c | none => false

/-- Whether an address lies in a DRAM tier that a rail holds (R622). -/
def Dev.inHeldTier (d : Dev) (a : Nat) : Bool :=
  match d.channelOf a with | some c => d.sup.heldTiers.contains (c / 128) | none => false

/-! ### Errors and retirement (R477, R478, R482) -/

/-- A channel is to be retired at the next boundary; the decision is recorded at once (R482, R550, R552). -/
def Dev.retire (d : Dev) (c cause : Nat) : Dev :=
  if d.chanRetired c || d.fab.retiring.any (fun p => p.1 = c) then d
  else
    let d := { d with fab := { d.fab with retiring := d.fab.retiring ++ [(c, cause)] } }
    ((d.health 0x13 c).lifeEntry 0x2B c (zeros 6 ++ leBytes 1 cause) true).standingWrite

/-- An error of a channel noted in the present tick; the third within 1,000 ticks retires it. `crc` tells exhausted retries
from uncorrectable reads. -/
def Dev.channelError (d : Dev) (c : Nat) (crc : Bool) : Dev :=
  let now := d.plan.tick
  let e := (d.fab.chanErrs.find c).getD ⟨[], []⟩
  let recent (ts : List Nat) : List Nat := now :: ts.filter fun t => now < t + 1000
  let e := if crc then { e with crc := recent e.crc } else { e with uncorr := recent e.uncorr }
  let d := { d with fab := { d.fab with chanErrs := Sparse.put d.fab.chanErrs c e } }
  if 3 ≤ (if crc then e.crc else e.uncorr).length then d.retire c (if crc then 2 else 3) else d

/-! ### Fence decisions (R425) -/

/-- Whether a unit of Table 11.4 (kind 0 Facet, 1 Lens core, 2 cluster, 3 Grating, 4 forest engine) is fenced or about to be. -/
def Dev.fenceDecided (d : Dev) (kind index : Nat) : Bool :=
  d.fencePending kind index
    || (if kind = 0 then d.facetFenced index else if kind = 1 then d.coreFenced index
        else if kind = 2 then d.clusterFenced index else if kind = 3 then d.gratingFenced index else d.engineFenced index)

/-- A fence decided: recorded at once in the life record and the standing copy, in effect at the next boundary (R254, R425). -/
def Dev.fenceOne (d : Dev) (kind index : Nat) : Dev :=
  if d.fenceDecided kind index then d
  else
    let d := { d with plan := { d.plan with fences := d.plan.fences ++ [FenceReq.mk kind index] } }
    ((d.health 0x12 (kind * 2 ^ 28 + index)).lifeEntry 0x2A kind (zeros 2 ++ leBytes 4 index ++ leBytes 1 (kind + 1)) true).standingWrite

/-- A fence and those that follow from it: a Lens core with 2 fenced Facets, a cluster with 8 fenced Lens cores (Table 11.4). -/
def Dev.fence (d : Dev) (kind index : Nat) : Dev :=
  let d := d.fenceOne kind index
  let core := if kind = 0 then index / 4 else index
  let d :=
    if kind = 0 && 2 ≤ ((range (4 * core) 4).filter fun f => d.fenceDecided 0 f).length then d.fenceOne 1 core else d
  let cl := core / 16
  if kind ≤ 1 && 8 ≤ ((range (16 * cl) 16).filter fun c => d.fenceDecided 1 c).length then d.fenceOne 2 cl else d

/-- A failure of a unit noted in the present tick; the third within 1,000 ticks fences it (Table 11.4). -/
def Dev.failure (d : Dev) (kind index : Nat) : Dev :=
  let now := d.plan.tick
  let kept := d.plan.failures.filter fun f => now < f.2.2 + 1000
  let d : Dev := { d with plan := { d.plan with failures := kept ++ [(kind, index, now)] } }
  if 3 ≤ (d.plan.failures.filter fun (f : Nat × Nat × Nat) => f.1 = kind && f.2.1 = index).length then d.fence kind index else d

/-- One error met on an access, counted; whether the data is lost. -/
def Dev.memEvent (d : Dev) (e : MemEvent) : Dev × Bool :=
  match d.region e.addr with
  | .cluster c =>
    match e.kind with
    | .corrected => (d.bump (C.LNS_MEM_CORRECTED_CLUSTER c), false)
    | _ => (((d.bump (C.LNS_MEM_UNCORR_CLUSTER c)).health 0x18 0x0005).failure 2 c, true)
  | _ =>
    let chan (d : Dev) (crc : Bool) : Dev := match d.channelOf e.addr with | some c => d.channelError c crc | none => d
    match e.kind with
    | .corrected =>
      let d := d.bump C.MEM_ECC_CORRECTED
      (match d.channelOf e.addr with
       | some c => d.dayCount (2 ^ 40 + 32 * c + (Config.bankOf c e.addr).toNat)
       | none => d, false)
    | .uncorrectable => (chan ((d.bump C.MEM_ECC_UNCORR).health 0x18 0x000C) false, true)
    | .retried n => (d.bump C.MEM_CRC_RETRIES (min n 4), false)
    | .exhausted => (chan (((d.bump C.MEM_CRC_RETRIES 4).bump C.MEM_ECC_UNCORR).health 0x18 0x000C) true, true)

/-- The errors among `bad` that fall on the `n` bytes from `a`. -/
def eventsOn (bad : List MemEvent) (a n : Nat) : List MemEvent := bad.filter fun e => a ≤ e.addr && e.addr < a + n

/-- The errors of an access counted; whether any loses the data. -/
def Dev.memEvents (d : Dev) (es : List MemEvent) : Dev × Bool :=
  es.foldl (fun p e => let (d, l) := p.1.memEvent e; (d, p.2 || l)) (d, false)

/-! ### Accesses (R473, R474, R478, R480, R483) -/

/-- Whether a granule's code is one that the memory reports as uncorrectable (R478). -/
def Dev.granuleBad (d : Dev) (g : Nat) : Bool := (d.fab.poison.find g).isSome

/-- A granule left with an uncorrectable code, or with a good one again. -/
def Dev.setGranuleBad (d : Dev) (g : Nat) (bad : Bool) : Dev :=
  { d with fab := { d.fab with poison := if bad then Sparse.put d.fab.poison g true else Sparse.drop d.fab.poison g } }

/-- Whether the `n` bytes from `a` can be read: mapped, of no retired channel and no held tier, of a good code (R473, R478, R483, R622). -/
def Dev.readable (d : Dev) (a n : Nat) : Bool :=
  d.mapped a n && (granules a n).all fun g => !(d.granuleBad g || d.inRetired (64 * g) || d.inHeldTier (64 * g))

/-- What a granule itself brings to a read of it: in a held tier exhausted CRC retries (R622), with an uncorrectable code an uncorrectable
read (R478), unless one of `met` loses its data already. -/
def Dev.granuleEvent (d : Dev) (met : List MemEvent) (g : Nat) : List MemEvent :=
  if met.any fun e => e.addr / 64 = g && (e.kind = .uncorrectable || e.kind = .exhausted) then []
  else if d.inRetired (64 * g) then []
  else if d.inHeldTier (64 * g) then [⟨64 * g, .exhausted⟩]
  else if d.granuleBad g then [⟨64 * g, .uncorrectable⟩]
  else []

/-- A read of `n` bytes of the shared memory: none is poison. -/
def Dev.fetch (d : Dev) (a n : Nat) (bad : List MemEvent) : Dev × Option (List Byte) :=
  if !d.mapped a n then ((d.bump C.MEM_UNMAPPED).bump C.MEM_POISON_READS, none)
  else
    let gs := granules a n
    let met := (eventsOn bad a n).filter fun e => !d.inRetired e.addr
    let (d', lost) := d.memEvents (met ++ gs.flatMap (d.granuleEvent met))
    if lost || gs.any fun g => d.inRetired (64 * g) then (d'.bump C.MEM_POISON_READS, none) else (d', some (d.memRead a n))

/-- One error met on a write: exhausted CRC retries count as retries and against the channel; the loss shows at the reads to come
(R478, R482). -/
def Dev.writeEvent (d : Dev) (e : MemEvent) : Dev :=
  match e.kind, d.channelOf e.addr with
  | .exhausted, some c => (d.bump C.MEM_CRC_RETRIES 4).channelError c true
  | _, _ => (d.memEvent e).1

/-- Whether the entry of an entity table that a granule is has `VALID` and `STATIC` set (R201, Table 5.5). -/
def Dev.staticEntity (d : Dev) (g : Nat) : Bool :=
  ((List.range 8).any fun t =>
      let l := d.get (R.FLW_ENT_TABLE_LOG2_SIZE t)
      let base := d.get (R.FLW_ENT_TABLE_BASE t)
      l != 0 && base ≤ 64 * g && 64 * g < base + 64 * 2 ^ l)
    && leAt (d.memRead (64 * g + 16) 1) 0 1 % 4 = 3

/-- The bytes `bs` for one granule, from the address `a` in it. Bytes for a retired channel are discarded (R483). A write of less than
the granule reads it first (R474): where that read is uncorrectable, it is counted as a read that gives poison, and the granule keeps
an uncorrectable code. A write of the whole granule gives it a good code; one whose CRC retries are exhausted, as in a held tier, an
uncorrectable one (R478, R622; log entry 73, DEDUCED). -/
def Dev.storeGranule (d : Dev) (a : Nat) (bs : List Byte) (bad : List MemEvent) : Dev :=
  let g := a / 64
  let dram := (d.channelOf a).isSome
  if d.inRetired a then d.bump C.MEM_RETIRED_WRITES
  else
    let part := bs.length < 64
    let es := bad.filter fun e => e.addr / 64 = g && (part || !(e.kind = .corrected || e.kind = .uncorrectable))
    let held := d.inHeldTier a
    let failed := held || es.any fun e => e.kind = .exhausted && dram
    let stale := part && !failed && d.granuleBad g && !es.any fun e => e.kind = .uncorrectable
    let lost := stale || es.any fun e => e.kind = .uncorrectable
    let d := d.each (es ++ (if held then [⟨64 * g, .exhausted⟩] else []) ++ (if stale then [⟨64 * g, .uncorrectable⟩] else [])) Dev.writeEvent
    let d := if lost then d.bump C.MEM_POISON_READS else d
    let d := d.setGranuleBad g (failed || lost)
    if failed then d else d.memWrite a bs

/-- The parts of `bs` from `a` on, granule by granule, with their addresses. -/
def granuleParts (a : Nat) (bs : List Byte) : List (Nat × List Byte) :=
  (granules a bs.length).map fun g =>
    let lo := max a (64 * g)
    (lo, sub bs (lo - a) (min (a + bs.length) (64 * g + 64) - lo))

/-- A write of bytes to the shared memory, granule by granule (R473, R474); an entity entry with `STATIC` takes a write from the flow
engine only (`own`), for it cannot be written at runtime (R201). -/
def Dev.storeBy (own : Bool) (d : Dev) (a : Nat) (bs : List Byte) (bad : List MemEvent := []) : Dev :=
  if bs.isEmpty then d
  else if !d.mapped a bs.length then d.bump C.MEM_UNMAPPED
  else d.each (granuleParts a bs) fun d x => if !own && d.staticEntity (x.1 / 64) then d else d.storeGranule x.1 x.2 bad

/-- A write of bytes to the shared memory by anything but the flow engine. -/
def Dev.store (d : Dev) (a : Nat) (bs : List Byte) (bad : List MemEvent := []) : Dev := d.storeBy false a bs bad

/-- `n` bytes copied from one place of the shared memory to another: what a copy of poison writes is poison (log entry 73, DESIGN CHOICE). -/
def Dev.copy (d : Dev) (src dst n : Nat) : Dev :=
  match d.fetch src n [] with
  | (d, some bs) => d.store dst bs
  | (d, none) => d.each (granules dst n) fun d g => d.setGranuleBad g true

/-- A read at a place: a core memory has its own error counters (R215), and nothing beyond its 512 KiB (R214): a read that runs past it has
no data, as poison has none (log entry 64, DESIGN CHOICE). -/
def Dev.placeFetch (d : Dev) (p : Place) (off n : Nat) (bad : List MemEvent) : Dev × Option (List Byte) :=
  match p with
  | .shared a => d.fetch (a + off) n bad
  | .core c a =>
    let es := eventsOn bad (a + off) n
    let fix := (es.filter fun e => e.kind = .corrected).length
    let lost := (es.filter fun e => e.kind != .corrected).length
    let d := d.bump (C.LNS_MEM_CORRECTED_CORE (c.val / 16) (c.val % 16)) fix
    let d := d.each (es.filter fun e => e.kind != .corrected) fun d _ =>
      ((d.bump (C.LNS_MEM_UNCORR_CORE (c.val / 16) (c.val % 16))).health 0x18 0x0005).failure 1 c.val
    if lost = 0 && a + off + n ≤ 0x80000 then (d, some (d.coreRead c.val (a + off) n)) else (d, none)

/-- A write at a place; one that runs past a core memory writes nothing (log entry 64, DESIGN CHOICE). -/
def Dev.placeStore (d : Dev) (p : Place) (off : Nat) (bs : List Byte) (bad : List MemEvent := []) : Dev :=
  match p with
  | .shared a => d.store (a + off) bs bad
  | .core c a => if a + off + bs.length ≤ 0x80000 then d.coreWrite c.val (a + off) bs else d

/-- A slot's place in the new-state block. -/
def Dev.newBlock (d : Dev) (set slot : Nat) : Nat := d.seq.newBlocks.getD set 0 + 64 * slot

/-- What an operation has stored into the new-state block of the computing batch: the slots of it (R377). -/
def Dev.noteNewStates (d : Dev) (p : Place) (off len : Nat) : Dev :=
  match p, d.plan.computing with
  | .shared a, some b =>
    let base := d.newBlock b.set 0
    let slots := ((granules (a + off) len).filter fun g => base ≤ 64 * g && 64 * g < base + 64 * 8192).map fun g => (64 * g - base) / 64
    { d with seq := { d.seq with newStates := d.seq.newStates ++ slots.filter fun s => !d.seq.newStates.contains s } }
  | _, _ => d

/-- A write of an operation at a place. -/
def Dev.engineStore (d : Dev) (p : Place) (off : Nat) (bs : List Byte) (bad : List MemEvent := []) : Dev :=
  (d.placeStore p off bs bad).noteNewStates p off bs.length

/-- PATROL_SCRUB: the correctable errors the scrub has found, each written back, and what else it met; where that loses data the read is
one that returns poison (R479, R480). -/
def Dev.patrolScrub (d : Dev) (errors : List MemEvent) : Dev :=
  d.each (errors.filter fun e => !d.inRetired e.addr) fun d e =>
    let (d, lost) := d.memEvent e
    if lost then d.bump C.MEM_POISON_READS else d

/-! ### Temperatures and refresh (R481, R651) -/

/-- The hottest of `k` sensors from `s`, in 1/8 °C; a sensor not yet read counts as 0. -/
def Dev.hottest (d : Dev) (s k : Nat) : Int :=
  (range s k).foldl (fun m i => max m ((d.plan.temps.find i).getD 0)) ((d.plan.temps.find s).getD 0)

/-- `APR_TEMP` follows the sensors (Table 11.12). -/
def Dev.showTemps (d : Dev) : Dev :=
  let c := (d.hottest 0 64 / 8).toNat
  let m := (d.hottest 64 32 / 8).toNat
  ((((d.put R.APR_TEMP_COMPUTE_MAX_C c).put R.APR_TEMP_DRAM_MAX_C m).peak R.APR_TEMP_COMPUTE_PEAK_C c).peak R.APR_TEMP_DRAM_PEAK_C m)

/-- The refresh of a DRAM tier follows its hottest sensor: halved above 85 °C, normal at 82 °C or below (R481). -/
def Dev.refresh (d : Dev) (tier : Nat) : Dev :=
  let h := d.hottest (64 + 8 * tier) 8
  let d := d.put (R.MEM_REFRESH_HOT_C tier) (h / 8).toNat
  if 85 * 8 < h then d.put (R.MEM_REFRESH_DOUBLE tier) 1
  else if h ≤ 82 * 8 then d.put (R.MEM_REFRESH_DOUBLE tier) 0
  else d

/-- Sensor readings taken in; `PWR_TEMP` and `APR_TEMP` show them, and the refresh of the tiers read follows them. -/
def Dev.takeTemps (d : Dev) (ts : List TempReading) : Dev :=
  let d := (d.each ts fun d t =>
    let s := t.sensor.val
    let d := { d with plan := { d.plan with temps := Sparse.put d.plan.temps s t.eighths } }
    (d.put (R.PWR_TEMP_TEMP s) (ofSigned 16 t.eighths)).put (R.PWR_TEMP_DIE s) (if s < 64 then 0 else (s - 64) / 8 + 1)).showTemps
  d.each ([0, 1, 2, 3].filter fun k => ts.any fun (t : TempReading) => (t.sensor.val / 8) = 8 + k) Dev.refresh

/-! ### The commands -/

/-- PATROL_SCRUB (R479). -/
def execPatrolScrub (errors : List MemEvent) (s : State) := s.clocked (·.regionStopped 24) fun d => d.patrolScrub errors

/-- REFRESH_DOUBLE (R481). -/
def execRefreshDouble (tier : Fin 4) (temps : List TempReading) (s : State) :=
  s.clocked (·.regionStopped (24 + tier.val)) fun d => (d.takeTemps temps).refresh tier.val

end Sys2Proof.Machine
end

