-- ==== Sys2Proof/Machine/Trace.lean ====
section
/-! DEFINITION. The trace staging and the memory rings of Loupe (R539 to R544): what is written, what is dropped and in which order. -/

namespace Sys2Proof.Machine

/-- Bytes written into the trace or counter ring (R541), in stream order. -/
def Dev.ringWrite (d : Dev) (base size head oldest : Fld) (bs : List Byte) : Dev :=
  let sz := d.get size * 2 ^ 20
  if sz = 0 then d
  else
    let h := d.get head
    let b := d.get base
    let first := sz - h % sz
    let d := (d.store (b + h % sz) (bs.take first)).store b (bs.drop first)
    let h' := h + bs.length
    let d := d.put head h'
    if d.get oldest + sz < h' then d.put oldest (h' - sz) else d

/-- Whether `n` more bytes fit the DRAM ceiling of R542 in the present µs window. -/
def Dev.dramRoom (d : Dev) (n : Nat) : Bool :=
  (if d.lpe.dramWindow = d.ns / 1000 then d.lpe.dramUsed else 0) + n ≤ 786000

/-- `n` bytes of Loupe's DRAM traffic used (R542). -/
def Dev.dramUse (d : Dev) (n : Nat) : Dev :=
  let used := if d.lpe.dramWindow = d.ns / 1000 then d.lpe.dramUsed else 0
  { d with lpe := { d.lpe with dramWindow := d.ns / 1000, dramUsed := used + n } }

/-- Whether `n` records of the trace ring can be written now: there is a ring, and the ceiling leaves their bytes. -/
def Dev.ringRoom (d : Dev) (n : Nat) : Bool := d.on R.LPE_RING_TRACE_SIZE_MIB && d.dramRoom (32 * n)

/-- One record into the trace ring; with its first record a watch's report is written (R541, R528). -/
def Dev.traceOut (d : Dev) (r : List Byte) : Dev :=
  let d := d.dramUse 32
  let d := d.ringWrite R.LPE_RING_TRACE_BASE R.LPE_RING_TRACE_SIZE_MIB R.LPE_RING_TRACE_HEAD R.LPE_RING_TRACE_OLDEST r
  let d := d.bump C.LPE_RECORDS
  let reports := R.LPE_WATCH_REPORTS (leAt r 10 1 % 64)
  if byteAt r 0 = 5 then d.put reports (d.get reports + 1) else d

/-- The `LOST` record of the drops since the previous one. -/
def Dev.lostRecord (d : Dev) : List Byte :=
  record 0x0C 0 0xFFFF d.ns (zeros 2 ++ (d.lpe.lost.map fun n => leBytes 4 (min n 0xFFFFFFFF)).flatten)

/-- The records that are staged and dropped or written together: three of a watch report, two of a snapshot entry (R543). -/
def dropUnit (cls : Nat) : Nat := if cls = 2 then 3 else if cls = 3 then 2 else 1

/-- Up to `k` units of staged records written to the trace ring, oldest first, as the ceiling allows. -/
def Dev.drainStaged : Nat → Dev → Dev
  | 0, d => d
  | k + 1, d =>
    match d.lpe.staging with
    | [] => d
    | r :: _ =>
      let n := dropUnit (dropClass (byteAt r 0).toNat)
      let (now, left) := (d.lpe.staging.take n, d.lpe.staging.drop n)
      if d.ringRoom n then Dev.drainStaged k (Dev.each now Dev.traceOut { d with lpe := { d.lpe with staging := left } }) else d

/-- Staged records written to the trace ring as the ceiling allows, a due `LOST` record first (R543). Every command that traces, samples,
reads, exports or pulls runs this, and every cycle of the time base and tick boundary (log entry 47, DESIGN CHOICE). -/
def Dev.drain (d : Dev) : Dev :=
  let d :=
    if d.lpe.lost.any (· != 0) && d.ringRoom 1 then
      let r := d.lostRecord
      ({ d with lpe := { d.lpe with lost := [0, 0, 0, 0, 0] } }).traceOut r
    else d
  Dev.drainStaged d.lpe.staging.length d

/-- Bytes of the health part of the trace buffer, in sixteenths of 8 MiB (R539). -/
def Dev.healthPart (d : Dev) : Nat := d.get R.LPE_CFG_HEALTH_SHARE * 0x80000

/-- Trace staging space that health entries have borrowed (R540). -/
def Dev.healthLent (d : Dev) : Nat := d.lpe.health.length * 32 - d.healthPart

/-- Whether trace staging has room for `n` records. -/
def Dev.traceRoom (d : Dev) (n : Nat) : Bool :=
  (d.lpe.staging.length + n) * 32 + d.healthPart + d.healthLent ≤ 0x800000

/-- A drop of `n` records of a class counted (R543). -/
def Dev.noteDrop (d : Dev) (cls n : Nat) : Dev :=
  let d := d.bump (C.LPE_DROPPED_CMD + 8 * cls) n
  let d := { d with lpe := { d.lpe with lost := modifyNth cls (· + n) d.lpe.lost } }
  d.put R.LPE_STAT_DROPPING 1

/-- A list without its first `n` elements that satisfy a test. -/
def removeFirst {α : Type} (p : α → Bool) : Nat → List α → List α
  | 0, xs => xs
  | _, [] => []
  | n + 1, x :: xs => if p x then removeFirst p n xs else x :: removeFirst p (n + 1) xs

/-- The lowest drop class below `cls` that has records staged, and the staged records without its newest unit. -/
def dropLowest (cls : Nat) (staged : List (List Byte)) : Option (Nat × List (List Byte)) :=
  let isOf (c : Nat) (r : List Byte) : Bool := dropClass (byteAt r 0).toNat = c
  ((List.range cls).find? fun c => staged.any (isOf c)).map fun c => (c, (removeFirst (isOf c) (dropUnit c) staged.reverse).reverse)

/-- `n` units of a class that find no room in trace staging: dropped, and while space is lent each of their records is refused for it
(R540, R543). -/
def Dev.refuseUnits (d : Dev) (cls n : Nat) : Dev :=
  (if d.healthLent = 0 then d else d.bump C.LPE_TRACE_DENIED (n * dropUnit cls)).noteDrop cls n

/-- Room for `n` records of a class made by dropping what R543 drops first. -/
def Dev.makeRoom (cls n : Nat) : Nat → Dev → Dev
  | 0, d => d
  | k + 1, d =>
    if d.traceRoom n then d
    else
      match dropLowest cls d.lpe.staging with
      | some (c, left) => Dev.makeRoom cls n k (({ d with lpe := { d.lpe with staging := left } }).refuseUnits c 1)
      | none => d

/-- Bytes of the shared memory that a reader takes for which Table 13.2 has no row; where they are poison, free ones (log entry 73, DESIGN
CHOICE). -/
def Dev.fetchFree (d : Dev) (a n : Nat) : Dev × List Byte :=
  if n = 0 then (d, [])
  else match d.fetch a n [] with
    | (d, some bs) => (d, bs)
    | (d, none) => ({ d with draws := d.draws + n }, (range d.draws n).map Config.freeByte)

/-- `n` bytes from each of several places, so read. -/
def Dev.fetchEach (d : Dev) (n : Nat) : List Nat → Dev × List (List Byte)
  | [] => (d, [])
  | a :: as =>
    let (d, bs) := d.fetchFree a n
    let (d, rest) := d.fetchEach n as
    (d, bs :: rest)

/-- Bytes of a memory ring of `size` MiB from a stream position (R541). -/
def Dev.ringRead (d : Dev) (base size pos n : Nat) : Dev × List Byte :=
  let sz := size * 2 ^ 20
  let first := min n (sz - pos % sz)
  let (d, x) := d.fetchFree (base + pos % sz) first
  let (d, y) := d.fetchFree base (n - first)
  (d, x ++ y)

/-- Records staged together (all or none): room is found by dropping what R543 drops first, else they are dropped; those that are never
dropped are staged all the same. -/
def Dev.trace (d : Dev) (rs : List (List Byte)) : Dev :=
  let cls := dropClass (byteAt (rs.headD []) 0).toNat
  let n := rs.length
  let d := d.drain
  let d := Dev.makeRoom cls n d.lpe.staging.length d
  if d.traceRoom n || cls = 4 then ({ d with lpe := { d.lpe with staging := d.lpe.staging ++ rs } }).drain
  else d.refuseUnits cls (n / dropUnit cls)

/-- `TRACE_STATUS` follows whether trace space is lent (R540). -/
def Dev.lendStatus (d : Dev) : Dev :=
  d.put R.LPE_STAT_TRACE_STATUS (if d.healthLent = 0 then 0 else 0x0B)

end Sys2Proof.Machine
end

