-- ==== Sys2Proof/Machine/EngineCmd.lean ====
section
/-! DEFINITION. Commands of the engines as Loupe records them (R520, R521, R525, R526). -/

namespace Sys2Proof.Machine

/-- Whether a context is in Step. -/
def Dev.stepping (d : Dev) (c : Nat) : Bool := d.on (R.SYN_CTX_STAT_STEPPING c)

/-- Whether verdict work of a context and tier has the batch's deadline; T1 and T2 of a stepping context have none (R537). -/
def Dev.hasDeadline (d : Dev) (context tier : Nat) : Bool := !(d.stepping context && tier != 0)

/-! ### Commands (R521, R525, R526) -/

/-- Bytes 10 to 23 of the records of a command that begins now (Table 14.3). -/
def Dev.cmdHead (d : Dev) (context model cmdId : Nat) : List Byte :=
  let label := (Config.cmdLabel model (BitVec.ofNat 32 cmdId)).toNat
  let batch := match d.plan.computing with | some b => b.number | none => 0
  leBytes 1 context ++ leBytes 1 model ++ leBytes 2 label ++ leBytes 2 (label / 65536)
    ++ leBytes 2 (d.get (R.SEQ_MODEL_GEN_CURRENT model)) ++ leBytes 2 batch ++ leBytes 4 cmdId

/-- `FLAGS` of a record of a context: `STEP` while it is in Step (R521). -/
def Dev.stepFlag (d : Dev) (c : Nat) : Nat := if d.stepping c then 2 else 0

/-- `CMD_BEGIN` or `CMD_END` of a command (Table 14.3). -/
def Dev.cmdRecord (d : Dev) (kind : Nat) (c : EngineCmd) (tail : List Byte) : List Byte :=
  record kind (d.stepFlag c.context) c.engine d.ns (c.head ++ tail)

/-- Command counter `k` of an engine (Table 14.5). -/
def cmdCtr (engine k : Nat) : Nat := 0xD01000000 + 0x20 * engine + 8 * k

/-- Whether a command is the one of an engine's unit with a `CMD_ID`. -/
def EngineCmd.isOn (c : EngineCmd) (engine unit cmdId : Nat) : Bool := c.engine = engine && c.unit = unit && c.cmdId = cmdId

/-- The command that an engine's counters show: of those that run on it the one that began last (log entry 47, DESIGN CHOICE). -/
def Dev.shownCmd (d : Dev) (engine : Nat) : Option EngineCmd := d.lpe.cmds.reverse.find? fun c => c.engine = engine

/-- Whether an engine runs a command of a model. -/
def Dev.runsModel (d : Dev) (engine model : Nat) : Bool := d.lpe.cmds.any fun c => c.engine = engine && c.model = model

/-- The four counters of an engine set. -/
def Dev.showCounts (d : Dev) (engine : Nat) (counts : List Nat) : Dev :=
  d.each [0, 1, 2, 3] fun d k => d.setWord (cmdCtr engine k) (counts.getD k 0)

/-- A command begins on a unit of an engine: the engine's counters restart and its record is written. -/
def Dev.cmdBegin (d : Dev) (engine unit context model cmdId : Nat) (stepped : Bool := false) : Dev :=
  let c : EngineCmd := ⟨engine, unit, context, model, cmdId, d.cmdHead context model cmdId, stepped, d.ns, [0, 0, 0, 0]⟩
  let d := { d with lpe := { d.lpe with cmds := d.lpe.cmds ++ [c] } }
  let d := d.showCounts engine []
  if d.on R.LPE_CFG_TRACE_EN then d.trace [d.cmdRecord 1 c (leBytes 4 d.tick32)] else d

/-- The command of an engine's unit ends with a cause of Table 14.4; the engine's counters show one that still runs on it. -/
def Dev.cmdEnd (d : Dev) (engine unit cmdId cause reissued : Nat) : Dev :=
  match takeFirst (fun (c : EngineCmd) => c.isOn engine unit cmdId) d.lpe.cmds with
  | none => d
  | some (c, rest) =>
    let last : EndedCmd := ⟨d.ns, cmdId, c.counts⟩
    let d := { d with lpe := { d.lpe with cmds := rest, ended := Sparse.put d.lpe.ended engine last } }
    let d := d.showCounts engine (match d.shownCmd engine with | some x => x.counts | none => c.counts)
    let d := d.bump (C.LPE_CMDS (engine / 4096))
    if d.on R.LPE_CFG_TRACE_EN then
      d.trace [d.cmdRecord 2 c
        (leBytes 1 cause ++ [0] ++ leBytes 2 (min reissued 0xFFFF) ++ leBytes 4 (min (c.counts.getD 1 0) 0xFFFFFFFF))]
    else d

/-- Work of a unit's command added to its counts: cycles, busy cycles, freeze cycles, work (Table 14.5). -/
def Dev.cmdWork (d : Dev) (engine unit cmdId : Nat) (work : List Nat) : Dev :=
  let add (c : EngineCmd) : EngineCmd :=
    if c.isOn engine unit cmdId then { c with counts := [0, 1, 2, 3].map fun k => c.counts.getD k 0 + work.getD k 0 } else c
  let d := { d with lpe := { d.lpe with cmds := d.lpe.cmds.map add } }
  match d.shownCmd engine with
  | some c => if c.isOn engine unit cmdId then d.showCounts engine c.counts else d
  | none => d

/-! ### Stepped commands (R534, R535) -/

/-- Whether a placed stage program is the one on a partition for a context, model and tier, and runs. -/
def Placed.isProgram (p : Placed) (partition context model tier : Nat) (learning : Bool) : Bool :=
  p.running && p.kind ≤ 2 && p.id = partition && p.context = context && p.model = model && p.tier = tier && p.learning == learning

/-- Whether a stage program steps: one of T1 or T2 of a context in Step (R534). -/
def Dev.steps (d : Dev) (context tier : Nat) (learning : Bool) : Bool := d.stepping context && tier != 0 && !learning

/-- Whether a placed stage program issues commands to an engine: a Lens core, a Grating or a mover of its units, or the state port. -/
def Placed.onEngine (p : Placed) (engine : Nat) : Bool :=
  let k := engine % 4096
  match engine / 4096 with
  | 0 => p.kind ≤ 1 && p.units.any fun f => f / 4 = k
  | 1 => p.kind = 2 && p.units.contains k
  | 3 => (p.kind ≤ 1 && p.units.any fun f => f / 64 = k) || (p.kind = 2 && p.units.contains k)
  | 4 => p.kind ≤ 2 && p.tier = 2
  | _ => false

/-- The cluster of an engine that has one. -/
def engineCluster (engine : Nat) : Option Nat :=
  match engine / 4096 with | 0 => some (engine % 4096 / 16) | 1 => some (engine % 4096) | 3 => some (engine % 4096) | _ => none

/-- The stepped programs that a `STEP` names: those on its engine, or all of its context (R535). -/
def Dev.namedPrograms (d : Dev) (x : StepRun) : List Placed :=
  d.plan.placed.filter fun p => p.context = x.context && p.kind ≤ 2 && d.steps p.context p.tier p.learning
    && (x.engine = 0xFFFF || p.onEngine x.engine)

/-- Whether a `STEP` names the program on a partition. -/
def Dev.stepNames (d : Dev) (x : StepRun) (partition : Nat) : Bool := (d.namedPrograms x).any fun p => p.id = partition

/-- Whether the `STEP` under way lets the stepped program on a partition begin a further command. -/
def Dev.mayStep (d : Dev) (c partition : Nat) : Bool :=
  d.lpe.steps.any fun x => x.context = c && d.stepNames x partition && (x.begun.find partition).getD 0 < x.commands

/-- The `STEP` of a context that names the program on a partition, changed. -/
def Dev.modStep (d : Dev) (c partition : Nat) (f : StepRun → StepRun) : Dev :=
  let f (x : StepRun) : StepRun := if x.context = c && d.stepNames x partition then f x else x
  { d with lpe := { d.lpe with steps := d.lpe.steps.map f } }

/-- Stepped programs of a `STEP` blocked on a wait (R535). -/
def Dev.stepBlocked (d : Dev) (x : StepRun) : Nat :=
  (d.sync.waits.filter fun w => w.context = x.context).countP fun w => (d.namedPrograms x).any fun p => p.onEngine w.engine

/-- A stepped command begins. -/
def Dev.stepBegun (d : Dev) (c partition : Nat) : Dev :=
  d.modStep c partition fun x => { x with begun := Sparse.put x.begun partition ((x.begun.find partition).getD 0 + 1) }

/-- A stepped command has ended. -/
def Dev.stepEnded (d : Dev) (c partition cmdId : Nat) : Dev :=
  if d.lpe.steps.any fun x => x.context = c && d.stepNames x partition then
    (d.modStep c partition fun x =>
      { x with ended := Sparse.put x.ended partition ((x.ended.find partition).getD 0 + 1), lastCmd := cmdId }).bump C.LPE_STEP_CMDS
  else d

/-- The commands of a `STEP`'s programs that have ended. -/
def StepRun.endedAll (x : StepRun) : Nat := (x.ended.map fun e => e.2).sum

/-- The command of a stage program begins on an engine; a stepped one is one of its `STEP`'s. -/
def Dev.programBegin (d : Dev) (engine partition context model tier : Nat) (learning : Bool) (cmdId : Nat) : Dev :=
  let steps := d.steps context tier learning
  (if steps then d.stepBegun context partition else d).cmdBegin engine partition context model cmdId steps

/-- The command of a stage program ends on an engine with a cause of Table 14.4. -/
def Dev.programEnd (d : Dev) (engine partition cmdId cause reissued : Nat) : Dev :=
  match d.lpe.cmds.find? fun c => c.isOn engine partition cmdId with
  | none => d
  | some c => (if c.stepped then d.stepEnded c.context partition cmdId else d).cmdEnd engine partition cmdId cause reissued

/-- The command that an engine runs as a whole is over. -/
def Dev.stepOver (d : Dev) (engine : Nat) : Dev :=
  match d.shownCmd engine with
  | some c => d.cmdEnd engine c.unit c.cmdId 0 0
  | none => d

/-- One piece of work of the verdict engine (a verdict) or the tick planner (an admission) for a context and model: it continues
the step of that model, or ends the step of another and begins one (log entry 15, DEDUCED). -/
def Dev.engineStep (d : Dev) (engine context model : Nat) : Dev :=
  let id := (Config.cmdOf model (engine / 4096)).toNat
  let same := match d.shownCmd engine with | some c => c.model = model && c.context = context | none => false
  let d := if same then d else (d.stepOver engine).cmdBegin engine engine context model id
  d.cmdWork engine engine id [1, 1, 0, 1]

end Sys2Proof.Machine
end

