-- ==== Sys2Proof/Machine/Flow.lean ====
section
/-! DEFINITION. Flow table and feature engine (chapter 5): flow keys and the symmetric hash, the cache and the buckets,
creation, eviction and ageing, running features, entity tables, sampling and the sample record, verdicts written back; and the
commands SEARCH_RESULT, RECIRC_WITHDRAWN, BUCKET_READ_RETURN and AGEING_SWEEP_VISIT. -/

namespace Sys2Proof.Machine

/-! ### Validity and key fields (R175 to R177) -/

/-- Whether `n` field-vector bytes from `off` are valid (R175): bytes 0 to 23 always, others with their containers. -/
def fvValid (fv : List Byte) (off n : Nat) : Bool :=
  (range off n).all fun i => i < 24 || (i < 128 && bitsOf (leAt fv 8 4) ((i - 24) / 4) 1 = 1)

/-- A key field: its bytes when taken, else zeros; right-aligned in `size` bytes. -/
def keyField (fv : List Byte) (take : Bool) (off n size : Nat) : List Byte :=
  if take && fvValid fv off n then zeros (size - n) ++ sub fv off n else zeros size

/-- The CRC-32C of R177 as a number. -/
def crcNat (bs : List Byte) : Nat := (crc32c bs).toNat

/-- The flow key of a packet under key profile `k`. -/
def Dev.flowKey (d : Dev) (k sp : Nat) (outcome : Nat) (fv : List Byte) : FlowKey :=
  let addrEn := d.on (R.FLW_KEY_PROFILE_ADDR_EN k)
  let addrLen := d.get (R.FLW_KEY_PROFILE_ADDR_LEN k)
  let portEn := d.on (R.FLW_KEY_PROFILE_PORT_EN k)
  let src := keyField fv addrEn (d.get (R.FLW_KEY_PROFILE_SRC_ADDR_OFF k)) addrLen 16
    ++ keyField fv portEn (d.get (R.FLW_KEY_PROFILE_SRC_PORT_OFF k)) 2 2
  let dst := keyField fv addrEn (d.get (R.FLW_KEY_PROFILE_DST_ADDR_OFF k)) addrLen 16
    ++ keyField fv portEn (d.get (R.FLW_KEY_PROFILE_DST_PORT_OFF k)) 2 2
  let proto := keyField fv (d.on (R.FLW_KEY_PROFILE_PROTO_EN k)) (d.get (R.FLW_KEY_PROFILE_PROTO_OFF k)) 1 1
  let segLen := d.get (R.FLW_KEY_PROFILE_SEG_LEN k)
  let seg := beNat (keyField fv (segLen != 0) (d.get (R.FLW_KEY_PROFILE_SEG_OFF k)) segLen 3)
    &&& d.get (R.FLW_KEY_PROFILE_SEG_MASK k)
  let vrf := if d.on (R.FLW_KEY_PROFILE_VRF_MODE k) then keyField fv true (d.get (R.FLW_KEY_PROFILE_VRF_OFF k)) 2 2
    else beBytes 2 (d.get (R.FLW_VRF_VRF (sp / 4) (sp % 4)))
  let srcLow := beNat src ≤ beNat dst
  let key := (if srcLow then src ++ dst else dst ++ src) ++ proto ++ beBytes 3 seg ++ vrf
  ⟨key, srcLow, src = dst, crcNat key, k, outcome = 3⟩

/-! ### The flow entry and its places (R180 to R183, R186, R192) -/

/-- The DRAM address of a flow entry. -/
def Dev.flowAddr (d : Dev) (index : Nat) : Nat := d.get R.FLW_TABLE_INFO_BASE + 256 * index

/-- The cache lines of a set, least recently used first. -/
def Dev.cacheSet (d : Dev) (set : Nat) : List CacheLine := (d.front.cache.find set).getD []

/-- The cache lines of a set replaced. -/
def Dev.setCache (d : Dev) (set : Nat) (ls : List CacheLine) : Dev :=
  let c := if ls.isEmpty then Sparse.drop d.front.cache set else Sparse.put d.front.cache set ls
  { d with front := { d.front with cache := c } }

/-- The cached copy of a flow entry in a set. -/
def Dev.cached? (d : Dev) (index set : Nat) : Option CacheLine := (d.cacheSet set).find? fun l => l.index = index

/-- The set that holds the cached copy of an entry of a bucket, if any: a flow is cached in the set of its hash, so one that R192 sent
from the neighbouring bucket lies in the neighbouring set (R180, R182). -/
def Dev.holdingSet (d : Dev) (index set : Nat) : Option Nat :=
  if (d.cached? index set).isSome then some set
  else if (d.cached? index (set ^^^ 1)).isSome then some (set ^^^ 1) else none

/-- A line becomes the most recently used of its set; a full set writes its oldest line back first when it is dirty (R182). -/
def Dev.install (d : Dev) (set : Nat) (l : CacheLine) : Dev :=
  let others := (d.cacheSet set).filter fun m => m.index != l.index
  if others.length < 16 then d.setCache set (others ++ [l])
  else
    match others with
    | [] => d.setCache set [l]
    | v :: rest =>
      let d := if v.dirty then d.storeBy true (d.flowAddr v.index) v.data else d
      d.setCache set (rest ++ [l])

/-- The bucket a flow uses: its primary one, or the neighbour when that is retired; none when both are (R192). -/
def Dev.flowBucket (d : Dev) (hash : Nat) : Option Nat :=
  let b := hash % 2 ^ 23
  if !d.chanRetired (b % 512) then some b
  else if !d.chanRetired ((b ^^^ 1) % 512) then some (b ^^^ 1)
  else none

/-- Fields of a flow entry by Table 5.3. -/
def feValid (e : List Byte) : Bool := bitsOf (leAt e 43 1) 0 1 = 1

/-- Whether an entry is the flow of a key (R183). -/
def feIs (e : List Byte) (k : FlowKey) : Bool :=
  feValid e && leAt e 44 4 = k.hash && e.take 42 = k.key && bitsOf (leAt e 42 1) 2 3 = k.profile
    && bitsOf (leAt e 42 1) 0 1 = b2n k.frag

/-- The present bytes of a way: its cached copy in either set, else DRAM; none is poison, which makes the way free (R188, Table 13.2). -/
def Dev.way (d : Dev) (index set : Nat) (bad : List MemEvent) : Dev × Option (List Byte) :=
  match (d.holdingSet index set).bind fun s => d.cached? index s with
  | some l => (d, some l.data)
  | none => d.fetch (d.flowAddr index) 192 bad

/-- The present bytes of the entry at a flow index that is cached in `set` or its neighbour or not at all: none in a retired bucket, none
where DRAM reads as poison (R182, R192, Table 13.2). -/
def Dev.entryAt (d : Dev) (index set : Nat) : Option (List Byte) :=
  if d.chanRetired (index / 4 % 512) then none
  else match (d.holdingSet index set).bind fun s => d.cached? index s with
    | some l => some l.data
    | none => if d.readable (d.flowAddr index) 192 then some (d.memRead (d.flowAddr index) 192) else none

/-- The same bytes read: a read of DRAM that gives poison is counted (R480). -/
def Dev.readEntry (d : Dev) (index set : Nat) : Dev × Option (List Byte) :=
  if d.chanRetired (index / 4 % 512) then (d, none)
  else match (d.holdingSet index set).bind fun s => d.cached? index s with
    | some l => (d, some l.data)
    | none => d.fetch (d.flowAddr index) 192 []

/-- The cached copy of a flow index dropped without write-back, in whichever set it lies. -/
def Dev.uncache (d : Dev) (index set : Nat) : Dev :=
  match d.holdingSet index set with
  | some s => d.setCache s ((d.cacheSet s).filter fun l => l.index != index)
  | none => d

/-- A new entry (R186, R187). -/
def Dev.newEntry (d : Dev) (k : FlowKey) (policy incarnation rxTime : Nat) : List Byte :=
  let fs := d.get (R.FLW_POLICY_FEATURE_SET policy)
  let acc := (List.range 8).map fun i => leBytes 4 (if d.get (R.FLW_FEATURE_SET_OP fs i) = 3 then 0xFFFFFFFF else 0)
  k.key ++ leBytes 1 (b2n k.frag + 2 * b2n k.srcLow + 4 * k.profile) ++ leBytes 1 (1 + 16 * policy) ++ leBytes 4 k.hash
    ++ leBytes 2 incarnation ++ zeros 2 ++ leBytes 4 0 ++ leBytes 8 rxTime ++ leBytes 8 rxTime ++ zeros 4 ++ zeros 4 ++ zeros 16
    ++ zeros 20 ++ leBytes 2 0xFFFF ++ zeros 2 ++ zeros 8 ++ leBytes 4 0xFFFFFFFF ++ zeros 12 ++ zeros 16 ++ acc.flatten

/-- A flow created in way `w` of bucket `b`, whose ways hold `ways`: the position's `INCARNATION` counts on (a free value where its bytes
are lost), a cached copy of the evicted flow is dropped, and `LIVE_FLOWS` counts the way unless its `VALID` was set (R186 to R188). -/
def Dev.createFlow (d : Dev) (k : FlowKey) (policy rxTime b : Nat) (ways : List (Option (List Byte))) (w : Nat) :
    Dev × Option (Nat × List Byte × Bool) :=
  let i := 4 * b + w
  let set := k.hash % 2 ^ 16
  let was := match ways.getD w none with | some e => e | none => d.memRead (d.flowAddr i) 192
  let (prev, d) := match ways.getD w none with
    | some e => (leAt e 48 2, d)
    | none => d.draw
  let e := d.newEntry k policy ((prev + 1) % 65536) rxTime
  let d := if feValid was then d else d.put R.FLW_OCC_LIVE_FLOWS (d.get R.FLW_OCC_LIVE_FLOWS + 1)
  let d := ((d.uncache i set).storeBy true (d.flowAddr i + 192) (zeros 64)).bump C.FLW_CREATED
  (d.install set ⟨i, e, true⟩, some (i, e, true))

/-- The four ways of a bucket as a miss reads them. -/
def Dev.readWays (d : Dev) (b set : Nat) (bad : List MemEvent) : Dev × List (Option (List Byte)) :=
  [0, 1, 2, 3].foldl (fun p w => let (d, e) := p.1.way (4 * b + w) set bad; (d, p.2 ++ [e])) (d, [])

/-- The bucket read of a miss: the flow is found, or created in the lowest free way, or in an evicted idle way (R183, R187 to R189). -/
def Dev.bucketLookup (d : Dev) (k : FlowKey) (policy rxTime b : Nat) (bad : List MemEvent) : Dev × Option (Nat × List Byte × Bool) :=
  let set := k.hash % 2 ^ 16
  let (d, ways) := d.readWays b set bad
  match (List.range 4).find? fun w => (match ways.getD w none with | some e => feIs e k | none => false) with
  | some w =>
    let e := (ways.getD w none).getD []
    (d.install set ⟨4 * b + w, e, false⟩, some (4 * b + w, e, false))
  | none =>
    match (List.range 4).find? fun w => (match ways.getD w none with | some e => !feValid e | none => true) with
    | some w => d.createFlow k policy rxTime b ways w
    | none =>
      let time (w : Nat) : Nat := leAt ((ways.getD w none).getD []) 64 8
      let w := [1, 2, 3].foldl (fun m w => if time w < time m then w else m) 0
      if time w + d.get R.FLW_CFG_EVICT_IDLE_US * 1000 ≤ d.ns then (d.bump C.FLW_EVICTED).createFlow k policy rxTime b ways w
      else (d, none)

/-- A flow found in the cache set, which is read first, or through its bucket; none when it cannot be created, as when both its buckets are
retired (R183, R187 to R189, R192). The answer is its index, its entry, whether it is new. `FLW_RETIRED_REDIRECT` counts every lookup
of a flow that uses bucket b XOR 1, one that the cache serves too (log entry 31, DEDUCED). -/
def Dev.findFlow (d : Dev) (k : FlowKey) (policy rxTime : Nat) (bad : List MemEvent) : Dev × Option (Nat × List Byte × Bool) :=
  let set := k.hash % 2 ^ 16
  let bucket := d.flowBucket k.hash
  let d := if bucket = some ((k.hash % 2 ^ 23) ^^^ 1) then d.bump C.FLW_RETIRED_REDIRECT else d
  match (d.cacheSet set).find? fun l => feIs l.data k with
  | some l => ((d.bump C.FLW_CACHE_HITS).install set l, some (l.index, l.data, false))
  | none =>
    let d := d.bump C.FLW_CACHE_MISSES
    match bucket with
    | some b => d.bucketLookup k policy rxTime b bad
    | none => (d, none)

/-! ### Running features (R193 to R197) -/

/-- The bit position of the most significant 1. -/
def topBit (n : Nat) : Nat := Nat.log2 n

/-- A histogram of 16 bins of 4 bits with one bin raised; a bin that would pass 15 halves every bin first (R196). -/
def histBump (h bin : Nat) : Nat × Bool :=
  if bitsOf h (4 * bin) 4 = 15 then
    let half := (List.range 16).foldl (fun s i => s + bitsOf h (4 * i) 4 / 2 * 16 ^ i) 0
    (half + 16 ^ bin, true)
  else (h + 16 ^ bin, false)

/-- The length bin of R193. -/
def lenBin (len : Nat) : Nat :=
  let m := topBit len
  min 15 (2 * m + (if m = 0 then 0 else bitsOf len (m - 1) 1) - 12)

/-- The inter-arrival bin of R195. -/
def iatBin (x : Nat) : Nat := if x = 0 then 0 else min 15 (topBit x - 6)

/-- 2⁻ᵏ as FP32. -/
def fpPow2Neg (k : Nat) : Nat := toFp32 (.fin false 1 (2 ^ k))

/-- The update of the entry's inter-arrival fields with x, `first` for the flow's first x (R195). -/
def iatUpdate (e : List Byte) (x shift : Nat) (first : Bool) : List Byte :=
  let mean := leAt e 136 4
  let dev := leAt e 140 4
  let xf := fpOfNat x
  let s := fpPow2Neg shift
  let e := overlay e 128 (leBytes 4 (min (leAt e 128 4) x))
  let e := overlay e 132 (leBytes 4 (max (leAt e 132 4) x))
  if first then overlay (overlay e 136 (leBytes 4 xf)) 140 (leBytes 4 0)
  else
    let dev' := fpAdd dev (fpMul (fpSub (fpAbs (fpSub xf mean)) dev) s)
    let mean' := fpAdd mean (fpMul (fpSub xf mean) s)
    overlay (overlay e 136 (leBytes 4 mean')) 140 (leBytes 4 dev')

/-- One accumulator's new value (Table 5.4). -/
def accUpdate (op acc v : Nat) : Nat :=
  match op with
  | 1 => min (acc + v) 0xFFFFFFFF
  | 2 => max acc v
  | 3 => min acc v
  | 4 => acc ||| v
  | 5 => v
  | 6 => if v = 0 then acc else min (acc + 1) 0xFFFFFFFF
  | _ => acc

/-- The accumulators updated with a packet (R197). -/
def Dev.accUpdates (d : Dev) (fs : Nat) (fv : List Byte) (reverse : Bool) (e : List Byte) : List Byte :=
  (List.range 8).foldl (fun e i =>
    let off := d.get (R.FLW_FEATURE_SET_SRC_OFF fs i)
    let n := 2 ^ d.get (R.FLW_FEATURE_SET_WIDTH fs i)
    let dir := d.get (R.FLW_FEATURE_SET_DIR fs i)
    if fvValid fv off n && (dir = 0 || (dir = 1 && !reverse) || (dir = 2 && reverse)) then
      overlay e (160 + 4 * i) (leBytes 4 (accUpdate (d.get (R.FLW_FEATURE_SET_OP fs i)) (leAt e (160 + 4 * i) 4) (beAt fv off n)))
    else e) e

/-- Whether a packet goes in the flow's reverse direction (R179). -/
def isReverse (e : List Byte) (k : FlowKey) : Bool := !k.equal && b2n k.srcLow != bitsOf (leAt e 42 1) 1 1

/-- The entry after a packet (R193 to R197), and how many histograms were halved. -/
def Dev.features (d : Dev) (e : List Byte) (k : FlowKey) (policy rxTime : Nat) (fv : List Byte) (new : Bool) :
    List Byte × Nat :=
  let len := leAt fv 4 2
  let rev := isReverse e k
  let e := overlay e 43 (leBytes 1 (leAt e 43 1 % 16 + 16 * policy))
  let cOff := if rev then 100 else 96
  let bOff := if rev then 110 else 104
  let e := overlay e cOff (leBytes 4 (min (leAt e cOff 4 + 1) 0xFFFFFFFF))
  let e := overlay e bOff (leBytes 6 (min (leAt e bOff 6 + len) (2 ^ 48 - 1)))
  let e := overlay e 116 (leBytes 2 (min (leAt e 116 2) len))
  let e := overlay e 118 (leBytes 2 (max (leAt e 118 2) len))
  let (lh, h1) := histBump (leAt e 144 8) (lenBin len)
  let e := overlay e 144 (leBytes 8 lh)
  let fOff := d.get (R.FLW_POLICY_FLAGS_OFF policy)
  let e := if d.on (R.FLW_POLICY_FLAGS_EN policy) && fvValid fv fOff 1 then
      let b := (byteAt fv fOff).toNat
      overlay (overlay e 120 (leBytes 1 (leAt e 120 1 ||| b))) 121 (leBytes 1 b)
    else e
  let (e, h2) :=
    if new then (e, false)
    else
      let x := min (rxTime - leAt e 64 8) 0xFFFFFFFF
      let first := leAt e 96 4 + leAt e 100 4 = 2
      let e := iatUpdate e x (d.get (R.FLW_POLICY_IAT_SHIFT policy)) first
      let (ih, h2) := histBump (leAt e 152 8) (iatBin x)
      (overlay e 152 (leBytes 8 ih), h2)
  let e := overlay e 64 (leBytes 8 (max (leAt e 64 8) rxTime))
  (d.accUpdates (d.get (R.FLW_POLICY_FEATURE_SET policy)) fv rev e, b2n h1 + b2n h2)

/-! ### Entity tables (R198 to R201, R484) -/

/-- The entity key a table forms (R199). -/
def Dev.entityKey (d : Dev) (t : Nat) (fv : List Byte) : List Byte :=
  (List.range 16).map fun i =>
    let s := d.get (R.FLW_ENT_TABLE_SEL t i)
    if 128 ≤ s && fvValid fv (s % 128) 1 then byteAt fv (s % 128) else 0

/-- The bucket of an entity key, routed round a retired channel; none when both are retired (R484). -/
def Dev.entityBucket (d : Dev) (t : Nat) (key : List Byte) : Option Nat :=
  let base := d.get (R.FLW_ENT_TABLE_BASE t)
  let b := crcNat key % 2 ^ (d.get (R.FLW_ENT_TABLE_LOG2_SIZE t) - 2)
  if !d.inRetired (base + 256 * b) then some b
  else if !d.inRetired (base + 256 * (b ^^^ 4)) then some (b ^^^ 4)
  else none

/-- An entity entry after a packet (R200). `NEW_FLOWS` stays at 2³² − 1 once there, which R200 says of `PKTS` and `BYTES` only (log entry
31, DESIGN CHOICE). -/
def entityUpdate (e : List Byte) (len rxTime hash : Nat) (newFlow : Bool) : List Byte :=
  let e := overlay e 20 (leBytes 4 (min (leAt e 20 4 + 1) 0xFFFFFFFF))
  let e := overlay e 24 (leBytes 6 (min (leAt e 24 6 + len) (2 ^ 48 - 1)))
  let e := overlay e 40 (leBytes 8 (max (leAt e 40 8) rxTime))
  let e := if newFlow then overlay e 32 (leBytes 4 (min (leAt e 32 4 + 1) 0xFFFFFFFF)) else e
  let j := hash / 2 ^ 28
  let low := hash % 2 ^ 28
  let rank := min 15 (1 + (if low = 0 then 28 else 27 - topBit low))
  let h := leAt e 48 8
  overlay e 48 (leBytes 8 (setBits h (4 * j) 4 (max (bitsOf h (4 * j) 4) rank)))

/-- One entity lookup (R200, R201): the entity's entry after the update, or none when it missed without creating. A hit on an entry with
`STATIC` updates it as any other: R200 excepts none, and what R201 bars is a write from outside the flow engine (log entry 31,
DEDUCED). -/
def Dev.entity (d : Dev) (t : Nat) (key : List Byte) (len rxTime hash : Nat) (newFlow : Bool) (bad : List MemEvent) :
    Dev × Option (List Byte) :=
  let d := d.bump C.FLW_ENT_LOOKUPS
  match d.entityBucket t key with
  | none => (d.bump C.FLW_ENT_CREATE_FAIL, none)
  | some b =>
    let at_ (w : Nat) : Nat := d.get (R.FLW_ENT_TABLE_BASE t) + 256 * b + 64 * w
    let look (p : Dev × List (Option (List Byte))) (w : Nat) : Dev × List (Option (List Byte)) :=
      let (d, e) := p.1.fetch (at_ w) 64 bad
      (d, p.2 ++ [e])
    let (d, ways) := [0, 1, 2, 3].foldl look (d, [])
    let entry (w : Nat) : List Byte := (ways.getD w none).getD (zeros 64)
    let valid (w : Nat) : Bool := bitsOf (leAt (entry w) 16 1) 0 1 = 1
    let done (d : Dev) (w : Nat) (e : List Byte) : Dev × Option (List Byte) :=
      let e := entityUpdate e len rxTime hash newFlow
      (d.storeBy true (at_ w) e, some e)
    let fresh : List Byte := key ++ [1] ++ zeros 47
    match (List.range 4).find? fun w => valid w && (entry w).take 16 = key with
    | some w => done (d.bump C.FLW_ENT_HITS) w (entry w)
    | none =>
      match (List.range 4).find? fun w => !valid w with
      | some w => done (d.bump C.FLW_ENT_CREATED) w fresh
      | none =>
        let loose := (List.range 4).filter fun w => bitsOf (leAt (entry w) 16 1) 1 1 = 0
        let time (w : Nat) : Nat := leAt (entry w) 40 8
        match loose with
        | [] => (d.bump C.FLW_ENT_CREATE_FAIL, none)
        | w0 :: ws =>
          let w := ws.foldl (fun m w => if time w < time m then w else m) w0
          if time w + d.get R.FLW_CFG_EVICT_IDLE_US * 1000 ≤ d.ns then done (d.bump C.FLW_ENT_CREATED) w fresh
          else (d.bump C.FLW_ENT_CREATE_FAIL, none)

/-- The lookups a policy names (R200): the entries for `ENT0` and `ENT1` of the sample record. -/
def Dev.entities (d : Dev) (policy : Nat) (fv : List Byte) (len rxTime hash : Nat) (newFlow : Bool) (bad : List MemEvent) :
    Dev × Option (List Byte) × Option (List Byte) :=
  let t0 := d.get (R.FLW_POLICY_ENT0_TABLE policy)
  let t1 := d.get (R.FLW_POLICY_ENT1_TABLE policy)
  let en0 := d.on (R.FLW_POLICY_ENT0_EN policy)
  let en1 := d.on (R.FLW_POLICY_ENT1_EN policy)
  let k0 := d.entityKey t0 fv
  let k1 := d.entityKey t1 fv
  if en0 && en1 && t0 = t1 && k0 = k1 then
    let (d, e) := d.entity t0 k0 len rxTime hash newFlow bad
    (d, e, e)
  else
    let (d, e0) := if en0 then d.entity t0 k0 len rxTime hash newFlow bad else (d, none)
    let (d, e1) := if en1 then d.entity t1 k1 len rxTime hash newFlow bad else (d, none)
    (d, e0, e1)

/-! ### Sampling (R202 to R206, R35, R36) -/

/-- Whether a flow is due after a gap (R202); before the first boundary only one never sampled is (R35). -/
def dueAfter (e : List Byte) (batch : Option Nat) (gap : Nat) : Bool :=
  bitsOf (leAt e 43 1) 2 1 = 0 ||
    (match batch with | some b => gap ≤ (b % 2 ^ 32 + 2 ^ 32 - leAt e 72 4) % 2 ^ 32 | none => false)

/-- Whether a policy selects the packet (Table 5.6). -/
def Dev.selects (d : Dev) (policy : Nat) (e : List Byte) (batch : Option Nat) : Bool :=
  let n := leAt e 96 4 + leAt e 100 4
  let a := d.get (R.FLW_POLICY_PARAM_A policy)
  let b := d.get (R.FLW_POLICY_PARAM_B policy)
  match d.get (R.FLW_POLICY_MODE policy) with
  | 1 => true
  | 2 => n ≤ a
  | 3 => leAt e 52 4 = 0
  | 4 => dueAfter e batch a
  | 5 => n ≤ a || dueAfter e batch b
  | _ => false

/-- Whether the collecting batch has a slot for a sub-port (R35, R36). -/
def Dev.slotFree (d : Dev) (sp : Nat) : Bool :=
  match d.plan.collecting with
  | none => false
  | some b =>
    let cap := d.get (R.PORT_SUBPORT_CFG_SLOT_CAP sp)
    b.samples.length < 8192 &&
      (cap = 0 || 8192 < cap || (b.samples.filter fun s => s.sp = sp).length < cap)

/-- The address of slot `i` of slot set `s` (R206). -/
def Dev.slotAddr (d : Dev) (s i : Nat) : Nat := d.seq.slotSets.getD s 0 + 512 * i

/-- A sample of a packet in slot `slot`, before any result. -/
def newSample (p : Packet) (slot : Nat) (flow : FlowRef) (decimated : Bool) : Sample :=
  { slot := slot, packet := p.id, sp := p.sp, mode := p.mode, ver := p.ver, action := p.action, own := p.pass.flags,
    rxTime := p.rxTime, flow := flow, model := bitsOf p.action 32 4, context := bitsOf p.action 36 8,
    raw := [none, none, none], ys := [none, none, none], admitted := [], candidate := false, refused := false, merged := false, decimated := decimated,
    rerun := false, widened := false, dead := false, stateRead := 0, committed := false, initial := false, done := false }

/-- The sample record (Table 5.7). -/
def sampleRecord (p : Packet) (batch : Nat) (index : Nat) (e : List Byte) (rev new decimated : Bool)
    (e0 e1 : Option (List Byte)) : List Byte :=
  let flags := b2n rev + 2 * b2n new + 4 * b2n (decide (p.pass.outcome = 3)) + 8 * b2n (decide (p.pass.flags = 4))
    + 16 * b2n decimated + 32 * b2n e0.isSome + 64 * b2n e1.isSome
  let a := p.action
  leBytes 1 1 ++ leBytes 1 flags ++ leBytes 1 (p.sp + 16 * p.mode) ++ leBytes 1 (bitsOf a 32 4 + 16 * bitsOf a 44 4)
    ++ leBytes 1 (bitsOf a 36 8) ++ leBytes 1 p.ver ++ leBytes 2 (bitsOf a 16 16) ++ leBytes 2 (bitsOf a 0 16)
    ++ leBytes 2 (leAt e 48 2) ++ leBytes 4 index ++ leBytes 4 (leAt e 44 4) ++ leBytes 4 batch ++ leBytes 8 p.rxTime
    ++ padTo 128 p.pass.fv ++ padTo 192 e ++ padTo 64 (e0.getD []) ++ padTo 64 (e1.getD []) ++ zeros 32

/-- A packet's flow stage is over: on an inline sub-port it is held for its release, else it leaves the path (R41, R70). -/
def Dev.frontDone (d : Dev) (p : Packet) : Dev :=
  if p.mode = 0 && !p.gone then d.setPacket { p with stage := .held } else d.dropPacket p.id

/-- A sample slot taken: the record written, the flow's sampling fields updated (R205, R206). -/
def Dev.takeSlot (d : Dev) (p : Packet) (policy index : Nat) (e : List Byte) (rev new : Bool)
    (e0 e1 : Option (List Byte)) (b : Batch) : Dev × List Byte × Packet :=
  let slot := b.samples.length
  let decimated := d.get R.FLW_SAMPLE_CTL_DECIM_TICKS != 0
  let e := overlay e 43 (leBytes 1 (setBits (leAt e 43 1) 2 1 1))
  let e := overlay e 72 (leBytes 4 b.number)
  let e := if d.get (R.FLW_POLICY_MODE policy) = 3 then overlay e 52 (leBytes 4 (d.get (R.FLW_POLICY_PARAM_A policy) - 1)) else e
  let d := (d.store (d.slotAddr b.set slot) (sampleRecord p b.number index e rev new decimated e0 e1)).bump C.TKP_SAMPLES
  let s := newSample p slot ⟨index, leAt e 48 2, leAt e 44 4⟩ decimated
  let s := if d.on (R.SEQ_MODEL_SEQ_TIER s.model) then { s with stateRead := 1 } else s
  let d := { d with plan := { d.plan with collecting := some { b with samples := b.samples ++ [s] } } }
  (d, e, { p with sample := some (b.number, slot) })

/-- The sampling decision of a packet of a flow (R202, R204, R205): the entry after it and the packet with what became of it. -/
def Dev.sampling (d : Dev) (p : Packet) (policy index : Nat) (e : List Byte) (rev new : Bool)
    (e0 e1 : Option (List Byte)) : Dev × List Byte × Packet :=
  let batch := d.plan.collecting.map fun b => b.number
  let gap := d.get R.FLW_SAMPLE_CTL_DECIM_TICKS
  if bitsOf p.action 32 4 = 0xF || !d.selects policy e batch then
    (d, overlay e 52 (leBytes 4 (leAt e 52 4 - 1)), { p with why := .other })
  else
    let d := d.bump C.FLW_SELECTED
    if gap != 0 && !dueAfter e batch gap then (d.bump C.FLW_DECIMATED, e, { p with why := .decimated })
    else if !d.slotFree p.sp then (d.bump C.TKP_SLOTS_FULL, e, { p with why := .noSlot })
    else
      match d.plan.collecting with
      | some b => d.takeSlot p policy index e rev new e0 e1 b
      | none => (d, e, p)

/-! ### The flow stage -/

/-- The flow key profile and policy of a packet's action word. -/
def policyOf (action : Nat) : Nat := bitsOf action 44 4

/-- The key of a packet's flow, as the flow engine forms it (R173). -/
def Dev.packetKey (d : Dev) (p : Packet) : FlowKey :=
  d.flowKey (d.get (R.FLW_POLICY_KEY_PROFILE (policyOf p.action))) p.sp p.pass.outcome p.pass.fv

/-- The flow stage of a packet completes (R183 to R206); `bad` lists the errors its bucket and entity reads met. -/
def Dev.flowStage (d : Dev) (p : Packet) (bad : List MemEvent) : Dev :=
  let policy := policyOf p.action
  let fv := p.pass.fv
  let k := p.key.getD (d.packetKey p)
  let (d, found) := d.findFlow k policy p.rxTime bad
  match found with
  | none => (d.bump C.FLW_CREATE_FAIL).frontDone { p with flow := none, why := .other }
  | some (index, e, new) =>
    let rev := isReverse e k
    let (e, halvings) := d.features e k policy p.rxTime fv new
    let d := d.bump C.FLW_HIST_HALVINGS halvings
    let (d, e0, e1) := d.entities policy fv (leAt fv 4 2) p.rxTime k.hash new bad
    let (d, e, p) := d.sampling p policy index e rev new e0 e1
    let d := d.install (k.hash % 2 ^ 16) ⟨index, e, true⟩
    d.frontDone { p with flow := some ⟨index, leAt e 48 2, k.hash⟩ }

/-- FLOW_LOOKUP (R173, R183): the flow engine takes a packet and forms its key, which it keeps (R185, Table 5.2); a cache hit under a policy without entity tables ends the stage
at once (R185) unless an earlier lookup is pending (R184), any other lookup waits for its reads. -/
def Dev.flowLookup (d : Dev) (p : Packet) : Dev :=
  let policy := policyOf p.action
  let k := d.packetKey p
  let p := { p with key := some k }
  let d := d.bump C.FLW_LOOKUPS
  let d := if k.frag then d.bump C.FLW_FRAG_PACKETS else d
  let hit := (d.cacheSet (k.hash % 2 ^ 16)).any fun l => feIs l.data k
  let noEnt := !d.on (R.FLW_POLICY_ENT0_EN policy) && !d.on (R.FLW_POLICY_ENT1_EN policy)
  if hit && noEnt && d.front.lookups.isEmpty then d.flowStage p []
  else
    let d := d.setPacket { p with stage := .flow }
    { d with front := { d.front with lookups := d.front.lookups ++ [p.id] } }

/-- BUCKET_READ_RETURN: the reads of the oldest pending lookup return (R183). -/
def Dev.bucketReadReturn (d : Dev) (bad : List MemEvent) : Dev :=
  match d.front.lookups with
  | [] => d
  | id :: rest =>
    let d := { d with front := { d.front with lookups := rest } }
    match d.packet? id with
    | some p => d.flowStage p bad
    | none => d

/-! ### Search results and recirculation (R128 to R132, R145, R150, R155) -/

/-- A packet goes on with the result of the pass that just ended its searches. -/
def Dev.lastPass (d : Dev) (p : Packet) : Dev :=
  let (d, p) := d.unref p
  d.flowLookup p

/-- A recirculation request: admitted to the queue, or refused for the first cause of Table 3.8. -/
def Dev.recircRequest (d : Dev) (p : Packet) (cfg : Nat) : Dev :=
  let slot := bitsOf p.action 58 2
  let d := d.bump C.CLS_RECIRC_REQ
  if bitsOf cfg 7 2 ≤ p.passes then (d.bump C.PRS_RECIRC_LIMIT).lastPass p
  else if leAt p.pass.fv (12 + 2 * slot) 2 = 0xFFFF then (d.bump C.PRS_RECIRC_UNMARKED).lastPass p
  else if 256 ≤ d.front.recircs.length then (d.bump C.PRS_RECIRC_FULL).lastPass p
  else if p.firstEntry + 400 ≤ d.clockNs then (d.bump C.PRS_RECIRC_WITHDRAWN).lastPass p
  else
    let d := d.setPacket { p with stage := .recirc (bitsOf p.action 50 8) slot (bitsOf p.action 60 4) }
    ({ d with front := { d.front with recircs := d.front.recircs ++ [p.id] } }).recircOcc

/-- SEARCH_RESULT: the oldest search delivers its action word (R142 to R145); `bad` lists positions read with a parity error. -/
def Dev.searchResult (d : Dev) (bad : List Nat) : Dev :=
  match d.front.searching with
  | [] => d
  | id :: rest =>
    let d := { d with front := { d.front with searching := rest } }
    match d.packet? id with
    | none => d
    | some p =>
      match p.stage with
      | .searching cfg profile =>
        let (d, aw) := d.searchAction profile p.slot p.pass.fv bad
        let p := { p with action := aw }
        if bitsOf aw 49 1 = 1 then d.recircRequest p cfg else d.lastPass p
      | _ => d

/-- The packet with a queued request whose 400 ns run out first: the earliest first pass, the older request of two alike (R129). -/
def Dev.recircDue (d : Dev) : Option Packet :=
  (d.front.recircs.filterMap d.packet?).foldl (fun m p =>
    match m with | some q => if p.firstEntry < q.firstEntry then some p else m | none => some p) none

/-- RECIRC_WITHDRAWN: a queued request is withdrawn when 400 ns have passed since its packet's first pass entered, wherever it stands
in the queue (R129, R130). -/
def Dev.recircWithdrawn (d : Dev) : Dev :=
  match d.recircDue with
  | none => d
  | some p =>
    let d := (d.advanceClock (p.firstEntry + 400)).bump C.PRS_RECIRC_WITHDRAWN
    (({ d with front := { d.front with recircs := d.front.recircs.filter fun i => i != p.id } }).recircOcc).lastPass p

/-! ### A flow's verdict (R207 to R209, R89) -/

/-- Whether an entry is still the flow of a reference: valid, of its incarnation (R207, R209). -/
def FlowRef.holds (f : FlowRef) (e : List Byte) : Bool := feValid e && leAt e 48 2 = f.incarnation

/-- The present entry of a flow reference, if its position still holds that incarnation (R192, R207, R209). -/
def Dev.flowEntry (d : Dev) (f : FlowRef) : Option (List Byte) := (d.entryAt f.index (f.hash % 2 ^ 16)).filter f.holds

/-- The same entry read. -/
def Dev.readFlow (d : Dev) (f : FlowRef) : Dev × Option (List Byte) :=
  let (d, e) := d.readEntry f.index (f.hash % 2 ^ 16)
  (d, e.filter f.holds)

/-- The entry at a flow index, cached in `set` or its neighbour or not at all, written where it is held. No use of the line in the sense of
R182, for no lookup is made: the line keeps its place in its set, and an entry that is not cached is written to DRAM and not installed
(log entry 31, DESIGN CHOICE). -/
def Dev.putFlow (d : Dev) (index set : Nat) (e : List Byte) : Dev :=
  match d.holdingSet index set with
  | some s => d.setCache s ((d.cacheSet s).map fun m => if m.index = index then { m with data := e, dirty := true } else m)
  | none => d.storeBy true (d.flowAddr index) e

/-- A verdict written back to its flow (R207, R208); `key` is its order key. -/
def Dev.flowVerdict (d : Dev) (f : FlowRef) (key : Nat) (shim : List Byte) : Dev :=
  match d.readFlow f with
  | (d, none) => d.bump C.FLW_VERDICT_STALE
  | (d, some e) =>
    if bitsOf (leAt e 43 1) 1 1 = 0 || (key + 2 ^ 32 - leAt e 76 4) % 2 ^ 32 < 2 ^ 31 then
      let e := overlay e 43 (leBytes 1 (setBits (leAt e 43 1) 1 1 1))
      (d.putFlow f.index (f.hash % 2 ^ 16) (overlay (overlay e 76 (leBytes 4 key)) 80 (padTo 16 shim))).bump C.FLW_VERDICT_WRITES
    else d.bump C.FLW_VERDICT_SUPERSEDED

/-- The shim of a packet that is not sampled (R89), by the present entry of its flow. -/
def Dev.unsampledWith (d : Dev) (p : Packet) (entry : Option (List Byte)) : Shim :=
  let own := p.pass.flags + 0x020 + (if p.why = .decimated then 0x200 else 0)
  let verdict := entry.bind fun e =>
    if bitsOf (leAt e 43 1) 1 1 = 1 then some (Shim.ofBytes (sub e 80 16)) else none
  match verdict with
  | some v =>
    { v with flags := (v.flags &&& 0x5C3 &&& 0xFDF) ||| own, ruleVer := p.ver,
             reason := match p.why with | .decimated => 7 | .noSlot => 10 | .other => 8 }
  | none =>
    { flags := own, ruleVer := p.ver, tier := 0xF, reason := match p.why with | .decimated => 7 | .noSlot => 10 | .other => 9,
      gen := 0, cls := bitsOf p.action 16 16, score := 0x7E00, action := bitsOf p.action 0 16, tick := d.tick32 }

/-- The shim of a packet that is not sampled, by its flow as it stands (R89, R209). -/
def Dev.unsampledShim (d : Dev) (p : Packet) : Shim := d.unsampledWith p (p.flow.bind d.flowEntry)

/-! ### Ageing (R190, R192): the sweep walks the buckets of the flow table, then those of the entity tables by number, each table's in
rising order (R190 names no order: log entry 31, DESIGN CHOICE) -/

/-- The buckets of the flow table (`none`) or of an entity table. -/
def Dev.ageSize (d : Dev) : Option Nat → Nat
  | none => 2 ^ 23
  | some t => let l := d.get (R.FLW_ENT_TABLE_LOG2_SIZE t); if l = 0 then 0 else 2 ^ (l - 2)

/-- The place of a table's first bucket in the walk. -/
def Dev.ageFirst (d : Dev) : Option Nat → Nat
  | none => 0
  | some t => 2 ^ 23 + ((List.range t).map fun u => d.ageSize (some u)).sum

/-- The buckets of one sweep. -/
def Dev.sweepBuckets (d : Dev) : Nat := d.ageFirst (some 8)

/-- When, by the oscillator, the sweep visits the bucket at a place of the walk: the period divided evenly (R190). -/
def Dev.ageDue (d : Dev) (place : Nat) : Nat :=
  d.front.ageStartNs + place * (d.front.agePeriodMs * 1000000) / d.sweepBuckets

/-- A flow entry freed when it has been idle beyond its policy's `IDLE_MS`. -/
def ageFlow (d : Dev) (index : Nat) : Dev :=
  let set := index / 4 % 2 ^ 16
  let (d, r) := d.readEntry index set
  let e := r.getD (zeros 192)
  let idle := d.get (R.FLW_POLICY_IDLE_MS (leAt e 43 1 / 16))
  if feValid e && idle != 0 && leAt e 64 8 + idle * 1000000 ≤ d.ns then
    let e := overlay e 43 (leBytes 1 (setBits (leAt e 43 1) 0 1 0))
    ((d.putFlow index set e).put R.FLW_OCC_LIVE_FLOWS (d.get R.FLW_OCC_LIVE_FLOWS - 1)).bump C.FLW_AGED
  else d

/-- An entity entry freed when it has been idle beyond its table's `IDLE_MS` (R190, R201). -/
def ageEntity (t : Nat) (d : Dev) (a : Nat) : Dev :=
  let (d, r) := d.fetch a 64 []
  let e := r.getD (zeros 64)
  let idle := d.get (R.FLW_ENT_TABLE_IDLE_MS t)
  let st := leAt e 16 1
  if bitsOf st 0 1 = 1 && bitsOf st 1 1 = 0 && idle != 0 && leAt e 40 8 + idle * 1000000 ≤ d.ns then
    (d.storeBy true a (overlay e 16 (leBytes 1 (setBits st 0 1 0)))).bump C.FLW_ENT_AGED
  else d

/-- The ways of one bucket visited, at the instant its visit is due; a retired one holds nothing. -/
def Dev.ageBucket (d : Dev) (table : Option Nat) (bucket : Nat) : Dev :=
  let d := d.advanceClock (d.ageDue (d.ageFirst table + bucket))
  match table with
  | none => if d.chanRetired (bucket % 512) then d else d.each [0, 1, 2, 3] fun d w => ageFlow d (4 * bucket + w)
  | some t =>
    let a := d.get (R.FLW_ENT_TABLE_BASE t) + 256 * bucket
    if d.inRetired a then d else d.each [0, 1, 2, 3] fun d w => ageEntity t d (a + 64 * w)

/-- The numbers of the entries of `size` bytes from `base` whose byte at `off` is listed in memory. -/
def Dev.listedEntries (d : Dev) (base n size off : Nat) : List Nat :=
  d.fab.mem.filterMap fun c =>
    if base ≤ c.1 && c.1 < base + n * size && (c.1 - base) % size = off then some ((c.1 - base) / size) else none

/-- The flow indexes that may hold a flow: those cached and those whose `STATE` byte is listed. -/
def Dev.heldFlows (d : Dev) : List Nat :=
  ((d.front.cache.flatMap fun s => s.2.map fun l => l.index) ++ d.listedEntries (d.get R.FLW_TABLE_INFO_BASE) (2 ^ 25) 256 43).eraseDups

/-- The buckets that hold anything, with their tables. -/
def Dev.heldBuckets (d : Dev) : List (Option Nat × Nat) :=
  (d.heldFlows.map fun i => (none, i / 4))
    ++ (List.range 8).flatMap fun t =>
      (d.listedEntries (d.get (R.FLW_ENT_TABLE_BASE t)) (4 * d.ageSize (some t)) 64 16).map fun j => (some t, j / 4)

/-- A bucket put in its place in the walk, once. -/
def Dev.insertBucket (d : Dev) (x : Option Nat × Nat) : List (Option Nat × Nat) → List (Option Nat × Nat)
  | [] => [x]
  | y :: ys =>
    let (p, q) := (d.ageFirst x.1 + x.2, d.ageFirst y.1 + y.2)
    if p = q then y :: ys else if p < q then x :: y :: ys else y :: d.insertBucket x ys

/-- The walk goes over the places from `lo` up to, not including, `hi`: of their buckets only those that hold anything matter. -/
def Dev.ageOver (d : Dev) (lo hi : Nat) : Dev :=
  if hi ≤ lo then d
  else
    let here (x : Option Nat × Nat) : Bool := lo ≤ d.ageFirst x.1 + x.2 && d.ageFirst x.1 + x.2 < hi
    d.each ((d.heldBuckets.filter here).foldl (fun l x => d.insertBucket x l) []) fun d x => d.ageBucket x.1 x.2

/-- The period ends with its last bucket: the next one follows at once, with the `AGE_SWEEP_MS` then written (R190). -/
def Dev.agePeriodEnds (d : Dev) : Dev :=
  { d with front := { d.front with ageStartNs := d.front.ageStartNs + d.front.agePeriodMs * 1000000,
                                   agePeriodMs := d.get R.FLW_CFG_AGE_SWEEP_MS, ageVisited := 0 } }

/-- AGEING_SWEEP_VISIT: the walk comes to a bucket of the flow table (`none`) or of an entity table: forward from where it stands, or, past
that bucket already, over the rest of its period and into the next (R190). -/
def Dev.ageVisit (d : Dev) (table : Option Nat) (bucket : Nat) : Dev :=
  if d.ageSize table ≤ bucket then d
  else
    let place := d.ageFirst table + bucket
    let d := if place < d.front.ageVisited then (d.ageOver d.front.ageVisited d.sweepBuckets).agePeriodEnds else d
    let d := (d.ageOver d.front.ageVisited place).ageBucket table bucket
    if d.sweepBuckets ≤ place + 1 then d.agePeriodEnds else { d with front := { d.front with ageVisited := place + 1 } }

/-! ### Retirement at a boundary (R482, R483, R192) -/

/-- The flows that a channel's buckets hold: entries with `VALID` set, the cached copy deciding (R211). -/
def Dev.flowsOf (d : Dev) (c : Nat) : Nat :=
  (d.heldFlows.filter fun i => i / 4 % 512 = c && (match d.entryAt i ((d.holdingSet i (i / 4 % 2 ^ 16)).getD 0) with
    | some e => feValid e
    | none => false)).length

/-- The channels decided since the last boundary are retired; the flows of their buckets are live no more (R192). -/
def Dev.retireTakeEffect (d : Dev) : Dev :=
  let due := d.fab.retiring
  let d := { d with fab := { d.fab with retiring := [] } }
  d.each due fun d p =>
    let d := d.put R.FLW_OCC_LIVE_FLOWS (d.get R.FLW_OCC_LIVE_FLOWS - d.flowsOf p.1)
    let d := (d.put (R.MEM_CHAN_STAT_STATE p.1) 2).put (R.MEM_CHAN_STAT_CAUSE p.1) p.2
    let d := d.put R.MEM_MAP_INFO_RETIRED (d.get R.MEM_MAP_INFO_RETIRED + 1)
    let d := (d.put R.MEM_MAP_INFO_RESET_ADVISED 1).bump C.MEM_RETIREMENTS
    let d := d.put R.FLW_OCC_RETIRED_BUCKETS (d.get R.FLW_OCC_RETIRED_BUCKETS + 16384)
    let keep (ls : List CacheLine) : List CacheLine := ls.filter fun l => l.index / 4 % 512 != p.1
    let cache := (d.front.cache.map fun e => (e.1, keep e.2)).filter fun e => !e.2.isEmpty
    { d with front := { d.front with cache := cache } }

/-! ### Release (R19, R20, R41) -/

/-- Whether a packet still stands before the flow stage. -/
def Packet.early (p : Packet) : Bool :=
  match p.stage with | .held => false | _ => true

/-- Whether R20 lets a packet go past an earlier one of its sub-port: that one has reached the flow stage and is of another
flow. -/
def Packet.mayPass (p q : Packet) (f : FlowRef) : Bool :=
  match q.stage with
  | .held => q.mode != 0 || (match q.flow with | some g => !(g.index = f.index && g.incarnation = f.incarnation) | none => true)
  | .flow =>
    q.mode != 0 || (match q.key, p.key with | some a, some b => !(a.key = b.key && a.profile = b.profile && a.frag = b.frag) | _, _ => false)
  | _ => false

/-- Whether R20 lets a packet go: every earlier packet of its sub-port, in whatever mode it arrived, has reached the flow stage or
left, and no earlier packet of its flow is held; a packet without a flow waits for no other. -/
def Dev.mayRelease (d : Dev) (p : Packet) : Bool :=
  match p.flow with
  | none => true
  | some f => d.front.packets.all fun q => !(q.sp = p.sp && q.id < p.id) || p.mayPass q f

/-- Whether a held packet's verdict stands: written for a sample; always for a packet that is not sampled (R41). -/
def Packet.decided (p : Packet) : Bool := p.sample.isNone || p.verdict.isSome

/-- PACKET_RELEASE: a held packet is released with its verdict's shim, or with that of R89 (R41); a verdict of the matched rule
takes the tick of the release (Table 2.5). -/
def Dev.packetRelease (d : Dev) (id : Nat) : Dev :=
  match d.packet? id with
  | none => d
  | some p =>
    if !p.early && p.decided && d.mayRelease p then
      match p.verdict, p.flow with
      | some v, _ =>
        let s := Shim.ofBytes v
        d.release p (if s.tier = 0xF then { s with tick := d.tick32 } else s)
      | none, some f => let (d, e) := d.readFlow f
                        d.release p (d.unsampledWith p e)
      | none, none => d.release p (d.unsampledWith p none)
    else d

/-! ### The commands -/

/-- SEARCH_RESULT (R145). -/
def execSearchResult (bad : List Nat) (s : State) := s.clocked (·.regionStopped 17) fun d => d.searchResult bad

/-- RECIRC_WITHDRAWN (R129). -/
def execRecircWithdrawn (s : State) := s.clocked (·.regionStopped 17) Dev.recircWithdrawn

/-- BUCKET_READ_RETURN (R183). -/
def execBucketReadReturn (bad : List MemEvent) (s : State) := s.clocked (·.regionStopped 17) fun d => d.bucketReadReturn bad

/-- AGEING_SWEEP_VISIT (R190). -/
def execAgeingSweepVisit (table : Option (Fin 8)) (bucket : Nat) (s : State) :=
  s.clocked (·.regionStopped 17) fun d => d.ageVisit (table.map fun t => t.val) bucket

/-- PACKET_RELEASE (R41). -/
def execPacketRelease (id : Nat) (s : State) := s.clocked (·.regionStopped 20) fun d => d.packetRelease id

end Sys2Proof.Machine
end

