-- ==== Sys2Proof/Machine/Verdict.lean ====
section
/-! DEFINITION. The verdict engine and the cascade (chapter 11, R356 to R358): link functions and classes, candidacy,
admission groups, the verdict of a sample by its case, and the verdict deadline of a batch (R38). -/

namespace Sys2Proof.Machine

/-! ### Link functions and classes (R356 to R358) -/

/-- The address of the output block of tier `t` of model `m` (R356). -/
def Dev.outAddr (d : Dev) (m t : Nat) : Nat :=
  if t = 0 then d.get (R.FOR_MODEL_OUT_BLOCK m) else (d.seq.outBlocks.find (4 * m + t)).getD 0

/-- An output block (Table 9.8). -/
def Dev.outBlock (d : Dev) (m t : Nat) : List Byte := d.memRead (d.outAddr m t) 256

/-- Lanes used. -/
def obLanes (ob : List Byte) : Nat := (byteAt ob 0).toNat

/-- FP32 terms added to `acc` in an order that R297 leaves open; each choice is drawn (log entry 12, DESIGN CHOICE). -/
def sumPicked : Nat → List Nat → Nat → Dev → Dev × Nat
  | 0, _, acc, d => (d, acc)
  | _, [], acc, d => (d, acc)
  | k + 1, xs, acc, d =>
    let (c, d) := d.draw
    let i := c % xs.length
    sumPicked k (xs.eraseIdx i) (fpAdd acc (xs.getD i 0)) d

/-- exp of each FP32 value, within the bound of Table 7.6. -/
def expAll (xs : List Nat) (d : Dev) : Dev × List Nat :=
  xs.foldl (fun (p : Dev × List Nat) x =>
    ({ p.1 with draws := p.1.draws + 1 }, p.2 ++ [boundedFn .exp p.1.draws x])) (d, [])

/-- y of raw scores by the link function of an output block (R357, Table 9.9). -/
def linkY (ob : List Byte) (raw : Raw) (d : Dev) : Dev × Raw :=
  let r := raw.take (obLanes ob)
  let one := fpOfNat 1
  match (byteAt ob 1).toNat with
  | 1 =>
    let (d, es) := expAll (r.map fpNegate) d
    (d, es.map fun e => fpDiv one (fpAdd one e))
  | 2 =>
    let m := match r with | [] => 0 | x :: xs => xs.foldl fpMax x
    let (d, es) := expAll (r.map fun x => fpSub x m) d
    let (c, d) := d.draw
    let i := c % max es.length 1
    let (d, sum) := sumPicked es.length (es.eraseIdx i) (es.getD i 0) d
    (d, es.map fun e => fpDiv e sum)
  | 3 => (d, r.map fun x => fpDiv x (leAt ob 4 4))
  | _ => (d, r)

/-- The lane with the largest y, the lowest on a tie. -/
def bestLane (ys : Raw) : Nat :=
  ((List.range ys.length).foldl (fun b i => if fpLt (ys.getD b 0) (ys.getD i 0) then i else b) 0)

/-- Class-table entry and FP16 `SCORE` of a y (R358). -/
def classEntry (ob : List Byte) (ys : Raw) : Nat × Nat :=
  if ys.any fpIsNan then ((byteAt ob 3).toNat % 16, 0x7E00)
  else if obLanes ob ≤ 1 then
    let bands := (List.range (byteAt ob 2).toNat).map fun i => leAt ob (72 + 4 * i) 4
    ((bands.filter fun b => fpLe b (ys.getD 0 0)).length % 16, (convertFp 13 (ys.getD 0 0)).code)
  else
    let l := bestLane ys
    (l % 16, (convertFp 13 (ys.getD l 0)).code)

/-! ### Contexts, samples and the batch that computes -/

/-- Whether a context is faulted (a pending restart leaves it so). -/
def Dev.faulted (d : Dev) (c : Nat) : Bool :=
  d.get (R.SYN_CTX_STAT_STATE c) = 2 || d.get (R.SYN_CTX_STAT_STATE c) = 3

/-- The computing batch's sample in a slot. -/
def Dev.sample? (d : Dev) (slot : Nat) : Option Sample :=
  d.plan.computing.bind fun b => b.samples.find? fun s => s.slot = slot

/-- A sample of the computing batch replaced. -/
def Dev.setSample (d : Dev) (s : Sample) : Dev :=
  { d with plan := { d.plan with computing := d.plan.computing.map fun b =>
      { b with samples := b.samples.map fun t => if t.slot = s.slot then s else t } } }

/-- The highest tier of a sample whose result is written; none of a sample that no tier completes for. -/
def Sample.best (s : Sample) : Option Nat :=
  if s.dead then none else ([2, 1, 0] : List Nat).find? fun t => ((s.raw.getD t none)).isSome

/-- Whether a tier of a model is remote: its stages are placed on another device. -/
def Dev.tierRemote (d : Dev) (m t : Nat) : Bool :=
  (t = 1 && d.on (R.TKP_ESC_T1_REMOTE m)) || (t = 2 && d.on (R.TKP_ESC_T2_REMOTE m))

/-- Whether a tier of a model has a placement: it is remote, or placed with no stage program left without a place (R415, R427). -/
def Dev.tierPlaced (d : Dev) (m t : Nat) : Bool :=
  d.tierRemote m t
    || (!d.plan.lost.contains (m, t) && d.plan.placed.any fun p => p.model = m && p.tier = t && !p.learning)

/-! ### The verdict of a sample (R85 to R87, R207, R416) -/

/-- The shim of a verdict: the tier that gives it (none: the matched rule), the flags and reason of its case. -/
def Dev.verdictShim (d : Dev) (s : Sample) (tier : Option Nat) (flags reason : Nat) : Shim :=
  let flags := flags ||| s.own ||| (if s.merged || s.decimated then 0x200 else 0)
    ||| (if s.rerun then 0x80 else 0) ||| (if s.widened then 0x100 else 0)
  match tier.bind fun t => (s.ys.getD t none).map fun y => (t, y) with
  | some (t, ys) =>
    let ob := d.outBlock s.model t
    let (e, score) := classEntry ob ys
    { flags := flags, ruleVer := s.ver, tier := t, reason := reason, gen := d.get (R.SEQ_MODEL_GEN_CURRENT s.model),
      cls := leAt ob (136 + 4 * e) 2, score := score, action := leAt ob (138 + 4 * e) 2, tick := d.tick32 }
  | none =>
    { flags := flags, ruleVer := s.ver, tier := 0xF, reason := reason, gen := 0, cls := bitsOf s.action 16 16,
      score := 0x7E00, action := bitsOf s.action 0 16, tick := d.tick32 }

/-- VERDICT_WRITE: a sample's verdict is written, written back to its flow, and released, recorded or counted by the mode in
which its packet arrived (R45, R207, R208, R416, Table 1.8). -/
def Dev.writeVerdict (d : Dev) (b : Batch) (s : Sample) (tier : Option Nat) (flags reason : Nat) : Dev :=
  let reason := if s.merged then (if reason = 0 then 7 else min reason 7) else reason
  let shim := d.verdictShim s tier flags reason
  let v := shim.v2
  let d := (d.setSample { s with done := true }).engineStep 0x5000 s.context s.model
  let d := d.bump C.TKP_VERDICTS
  let d := if s.mode = 2 then d.bump C.TKP_VERDICTS_TAP else d
  let d := if bitsOf shim.flags 6 1 = 1 then d.bump C.TKP_VERDICTS_STEPPING else d
  let d := if bitsOf shim.flags 10 1 = 1 then d.bump C.TKP_VERDICTS_FALLBACK else d
  let d := if shim.tier = 0xF then d.bump C.TKP_VERDICTS_RULE else d
  let d := d.flowVerdict s.flow ((b.number % 2 ^ 19) * 8192 + s.slot) v
  if s.mode = 0 then
    match d.packet? s.packet with
    | some p => d.setPacket { p with verdict := some v }
    | none => d
  else if s.mode = 1 then
    d.addRecord s.sp b.number (v ++ beBytes 8 s.rxTime ++ beBytes 4 s.flow.hash ++ beBytes 4 (s.sp * 2 ^ 28 + s.flow.index))
  else d

/-- A verdict written before the deadline: the verdict engine reads the sample's record, and one that reads as poison waits for the no-tier
row (Table 13.2). -/
def Dev.verdictNow (d : Dev) (b : Batch) (s : Sample) (tier flags reason : Nat) : Dev :=
  match d.fetch (d.slotAddr b.set s.slot) 512 [] with
  | (d, none) => d.setSample { s with dead := true }
  | (d, some _) => d.writeVerdict b s (some tier) flags reason

/-- Whether every sample of the computing batch has its verdict. -/
def Dev.verdictsDone (d : Dev) : Bool :=
  match d.plan.computing with | some b => b.samples.all fun s => s.done | none => false

/-- Whether learning work of a model may run now: after the window's verdicts, in a phase admitted in it (R40, R412). -/
def Dev.phaseOpen (d : Dev) (m : Nat) : Bool := d.verdictsDone && d.plan.phases.contains m

/-! ### Candidacy (R403, R404) -/

/-- A field of `TKP_ESC` as it stands in the present compute window (R430). -/
def Dev.esc (d : Dev) (f : Fld) : Nat := bitsOf (Sparse.read resetWord d.plan.esc f.addr).toNat f.lo f.width

/-- The value of a finite FP32 pattern as a signed fraction. -/
def fracOf (x : Nat) : Option (Int × Nat) := match fp32 x with | .fin neg n d => some (signedOf neg n, d) | _ => none

/-- |y − (lo + hi)/2| / (hi − lo) (R404); 0 where an edge is infinite. -/
def bandDist (y lo hi : Nat) : Nat × Nat :=
  match fracOf y, fracOf lo, fracOf hi with
  | some (a, p), some (l, q), some (h, r) =>
    -- 2y − lo − hi over 2 (hi − lo), on the common denominator p·q·r
    ((2 * a * q * r - l * p * r - h * p * q).natAbs, 2 * (h * p * q - l * p * r).natAbs)
  | _, _, _ => (0, 1)

/-- The largest y less the second largest, in FP32. -/
def margin (ys : Raw) : Nat :=
  let i := bestLane ys
  let rest := ys.eraseIdx i
  fpSub (ys.getD i 0) (rest.getD (bestLane rest) 0)

/-- Whether a result lies in a band, with its distance (R404). -/
def inBand (lanes : Nat) (ys : Raw) (lo hi : Nat) : Option (Nat × Nat) :=
  if fpEq lo hi then none
  else if ys.any fpIsNan then some (0, 1)
  else if lanes ≤ 1 then
    let y := ys.getD 0 0
    if fpLe lo y && fpLt y hi then some (bandDist y lo hi) else none
  else
    let m := margin ys
    if fpLt m hi then
      match fracOf m, fracOf hi with
      | some (a, p), some (h, r) => some (a.natAbs * r, h.natAbs * p)
      | _, _ => some (0, 1)
    else none

/-- Whether a sample is a carrier of a sequence tier (R368). -/
def Dev.carrier (d : Dev) (s : Sample) : Bool := d.on (R.SEQ_MODEL_SEQ_TIER s.model) && !s.merged

/-- The tiers a result makes its sample a candidate for, and the distance (R403, Table 11.1). -/
def Dev.wants (d : Dev) (s : Sample) (tier : Nat) (ys : Raw) : Option (List Nat × (Nat × Nat)) :=
  let m := s.model
  let t1 := d.esc (R.TKP_ESC_T1_PRESENT m) = 1
  let t2 := d.esc (R.TKP_ESC_T2_PRESENT m) = 1 && !s.merged
  if bitsOf d.plan.mode 1 1 = 1 then
    let fixed := bitsOf d.plan.mode 2 2
    let ts := ([1, 2] : List Nat).filter fun t => t ≤ fixed && (if t = 1 then t1 else t2)
    if tier = 0 && !ts.isEmpty then some (ts, (0, 1)) else none
  else
    let lanes := obLanes (d.outBlock m tier)
    let b1 := if tier = 0 && t1 then inBand lanes ys (d.esc (R.TKP_ESC_B1_LO m)) (d.esc (R.TKP_ESC_B1_HI m)) else none
    match b1 with
    | some dist => some ([1], dist)
    | none =>
      if !t2 then none
      else if d.esc (R.TKP_ESC_T2_EVERY m) = 1 && d.carrier s then some ([2], (0, 1))
      else (inBand lanes ys (d.esc (R.TKP_ESC_B2_LO m)) (d.esc (R.TKP_ESC_B2_HI m))).map fun dist => ([2], dist)

/-! ### Admission groups (R405 to R408, R411, R421) -/

/-- The open group closes; a window without candidates has none. -/
def Dev.closeGroup (d : Dev) : Dev :=
  if d.plan.openGroup.isEmpty then d
  else { d with plan := { d.plan with closedGroups := d.plan.closedGroups ++ [d.plan.openGroup], openGroup := [] } }

/-- A candidate joins the open group, which closes at `GROUP_MAX` (R405). -/
def Dev.joinGroup (d : Dev) (c : Cand) : Dev :=
  let d := d.bump C.TKP_CANDIDATES
  let since := if d.plan.openGroup.isEmpty then d.ns else d.plan.openSince
  let d := { d with plan := { d.plan with openGroup := d.plan.openGroup ++ [c], openSince := since } }
  if bitsOf d.plan.planCfg 0 10 ≤ d.plan.openGroup.length then d.closeGroup else d

/-- The state of a tier in the present window. -/
def Dev.tierUse (d : Dev) (m t : Nat) : TierUse := (d.plan.use.find (4 * m + t)).getD ⟨0, 0, 0, false⟩

/-- The charge of tiers of a model in µJ, in FP32 (R406). -/
def Dev.charge (d : Dev) (m : Nat) (ts : List Nat) : Nat :=
  ts.foldl (fun a t => fpAdd a (d.get (R.TKP_ENERGY_E_UJ m t))) 0

/-- Energy charged against the window's credit (R406, R411, R412). -/
def Dev.spend (d : Dev) (e : Nat) : Dev :=
  { d with plan := { d.plan with left := fpSub d.plan.left e, charged := fpAdd d.plan.charged e } }

/-- One sample admitted to tier `t`: capacity taken, counted. -/
def Dev.admitTier (m : Nat) (d : Dev) (t : Nat) : Dev :=
  let u := d.tierUse m t
  let u := { u with admitted := u.admitted + 1, left := u.left - 1 }
  let d := { d with plan := { d.plan with use := Sparse.put d.plan.use (4 * m + t) u } }
  d.bump (if t = 1 then C.TKP_ADMITTED_T1 else C.TKP_ADMITTED_T2)

/-- A refused candidate takes its best completed tier, flagged `BUDGET_LIMITED` (R408, Table 11.2). -/
def Dev.refuse (d : Dev) (b : Batch) (s : Sample) : Dev :=
  match s.best with
  | some t => d.verdictNow b { s with candidate := false, refused := true } t 0x002 6
  | none => d.setSample { s with candidate := false, refused := true }

/-- A refusal for credit counted (R406), the first of a window in `APR_CREDIT_EXHAUSTED`. -/
def Dev.refusedCredit (d : Dev) : Dev :=
  let d := d.bump C.TKP_REFUSED_CREDIT
  if d.plan.exhausted then d else ({ d with plan := { d.plan with exhausted := true } }).bump C.APR_CREDIT_EXHAUSTED

/-- One candidate decided (R406, R411, R421). -/
def Dev.decideOne (b : Batch) (d : Dev) (c : Cand) : Dev :=
  match d.sample? c.slot with
  | none => d
  | some s =>
    if s.done then d
    else
      let e := d.charge s.model c.tiers
      let neg := fpLt d.plan.left 0
      if d.on R.APR_STAT_THROTTLE || neg || !fpLe e d.plan.left then d.refusedCredit.refuse b s
      else if c.tiers.any fun t => (d.tierUse s.model t).left = 0 then (d.bump C.TKP_REFUSED_CAP).refuse b s
      else
        let d := (d.spend e).setSample { s with candidate := false, admitted := s.admitted ++ c.tiers }
        let d := if s.initial && c.tiers.contains 2 then d.bump (C.SEQ_INITIAL s.model) else d
        let d := d.engineStep 0x6000 s.context s.model
        d.each c.tiers (Dev.admitTier s.model)

/-- Whether candidate `a` is taken before `b`: `PRIO` descending, distance ascending, slot ascending (R405). -/
def Dev.candBefore (d : Dev) (a b : Cand) : Bool :=
  let prio (c : Cand) : Nat := match d.sample? c.slot with | some s => d.esc (R.TKP_ESC_PRIO s.model) | none => 0
  if prio a != prio b then prio b < prio a
  else if a.dist.1 * b.dist.2 != b.dist.1 * a.dist.2 then a.dist.1 * b.dist.2 < b.dist.1 * a.dist.2
  else a.slot < b.slot

/-- A candidate put in its place among those in order. -/
def Dev.insertCand (d : Dev) (c : Cand) : List Cand → List Cand
  | [] => [c]
  | x :: xs => if d.candBefore c x then c :: x :: xs else x :: d.insertCand c xs

/-- ADMISSION_GROUP_DECIDE: the oldest closed group is decided (R405, R406). -/
def Dev.decideGroup (d : Dev) : Dev :=
  match d.plan.closedGroups, d.plan.computing with
  | g :: rest, some b =>
    let d := { d with plan := { d.plan with closedGroups := rest } }
    d.each (g.foldl (fun l c => d.insertCand c l) []) (Dev.decideOne b)
  | _, _ => d

/-- A result tested for candidacy: the sample joins a group, is refused for having come too late (R407), or its verdict is
written. -/
def Dev.afterResult (d : Dev) (b : Batch) (s : Sample) (tier : Nat) (ys : Raw) : Dev :=
  match d.wants s tier ys with
  | none => d.verdictNow b s tier 0 0
  | some (ts, dist) =>
    if d.plan.plannedEnd then (d.bump C.TKP_REFUSED_CAP).refuse b s
    else (d.setSample { s with candidate := true }).joinGroup ⟨s.slot, ts, dist⟩

/-- One tier-sample or learning phase completed (R414). -/
def Dev.countCompleted (d : Dev) (m e : Nat) : Dev :=
  let k := 4 * m + e
  { d with plan := { d.plan with completed := Sparse.put d.plan.completed k ((d.plan.completed.find k).getD 0 + 1) } }

/-- A tier result of a sample of the computing batch (R357, R403, R416): its y is formed; a stepping or faulted context takes
its T0 verdict at once; an escalation goes on to its next tier; else candidacy is tested. A result that comes after the verdict has
only arrived; an unplaced tier gives none (R427). -/
def Dev.tierResult (d : Dev) (slot tier : Nat) (raw : Raw) : Dev :=
  match d.plan.computing, d.sample? slot with
  | some b, some s =>
    if d.plan.lost.contains (s.model, tier) || (s.raw.getD tier none).isSome || (tier != 0 && !s.admitted.contains tier) then d
    else
      let (d, ys) := linkY (d.outBlock s.model tier) raw d
      let s := { s with raw := s.raw.set tier (some raw), ys := s.ys.set tier (some ys) }
      let d := (d.setSample s).countCompleted s.model tier
      let late := s.admitted.contains tier && d.plan.plannedEnd
      let u := d.tierUse s.model tier
      let d := if late then { d with plan := { d.plan with use := Sparse.put d.plan.use (4 * s.model + tier) { u with overran := true } } }
        else d
      if s.done || s.dead then d else
      let step := if d.stepping s.context then 0x040 else 0
      if d.faulted s.context then (if tier = 0 then d.verdictNow b s 0 (0x400 + step) 1 else d)
      else if step != 0 then (if tier = 0 then d.verdictNow b s 0 step 2 else d)
      else if s.admitted.any fun t => tier < t then d
      else if tier = 2 || (tier = 1 && bitsOf d.plan.mode 1 1 = 1) then d.verdictNow b s tier 0 0
      else d.afterResult b s tier ys
  | _, _ => d

/-- A context faults: its candidates are withdrawn without being counted, and its samples with a T0 result take the faulted row
(R451, Table 11.5). -/
def Dev.planFault (d : Dev) (c : Nat) : Dev :=
  let mine (k : Cand) : Bool := match d.sample? k.slot with | some s => s.context = c | none => false
  let keep (g : List Cand) : List Cand := g.filter fun k => !mine k
  let d := { d with plan := { d.plan with openGroup := keep d.plan.openGroup, closedGroups := d.plan.closedGroups.map keep } }
  match d.plan.computing with
  | none => d
  | some b =>
    let step := if d.stepping c then 0x040 else 0
    d.each (b.samples.filter fun s => s.context = c && !s.done && (s.raw.getD 0 none).isSome) fun d s =>
      d.verdictNow b { s with candidate := false } 0 (0x400 + step) 1

/-! ### The verdict deadline (R38, R416, R424, R427) -/

/-- The tiers of an admitted sample whose remote results have not arrived (R424). -/
def Dev.remoteMissing (d : Dev) (s : Sample) : List Nat :=
  s.admitted.filter fun t => (s.raw.getD t none).isNone && d.tierRemote s.model t

/-- The flags of a deadline verdict beside the sample's own: the union of those of its rows of Table 11.2 (R86, R416). -/
def Dev.lateFlags (d : Dev) (s : Sample) : Nat :=
  0x001 ||| (if s.refused then 0x002 else 0) ||| (if d.stepping s.context then 0x040 else 0)
    ||| (if d.faulted s.context then 0x400 else 0)

/-- The `REASON` of a deadline verdict: the lowest code of its rows (R87). -/
def Dev.lateReason (d : Dev) (s : Sample) : Nat :=
  if d.faulted s.context then 1 else if d.stepping s.context then 2 else 5

/-- The deadline verdict of a sample without a final one: its best completed tier, or the matched rule, flagged `LATE`. -/
def Dev.lateVerdict (b : Batch) (d : Dev) (s : Sample) : Dev :=
  let d := d.bump C.TKP_REMOTE_MISSED (d.remoteMissing s).length
  if s.done then d
  else
    let s := { s with candidate := false }
    let d := d.bump C.TKP_LATE
    let d := if s.best.isNone then d.bump C.TKP_NO_TIER else d
    let d := if s.best.isNone && !d.tierPlaced s.model 0 then d.bump C.TKP_UNPLACED else d
    let tier := if d.faulted s.context || d.stepping s.context then s.best.map fun _ => 0 else s.best
    d.writeVerdict b s tier (d.lateFlags s) (d.lateReason s)

/-- The verdict deadline of the computing batch: late verdicts, then its part-filled record frames close (R38, R42). -/
def Dev.verdictDeadline (d : Dev) : Dev :=
  match d.plan.computing with
  | none => d
  | some b => (((d.each b.samples (Dev.lateVerdict b)).closeBatchRecords b.number).stepOver 0x5000).stepOver 0x6000

/-! ### The commands -/

/-- TIER_RESULT_WRITTEN (R403). -/
def execTierResultWritten (slot : Nat) (tier : Fin 3) (raw : List Word32) (s : State) :=
  s.clocked (·.regionStopped 20) fun d => d.tierResult slot tier.val (raw.map fun x => x.toNat)

/-- ADMISSION_GROUP_TIMEOUT (R405): the open group closes `GROUP_NS` after its first candidate joined. -/
def execAdmissionGroupTimeout (s : State) :=
  s.clocked (·.regionStopped 20) fun d => if d.plan.openGroup.isEmpty then d else (d.advance (d.plan.openSince + bitsOf d.plan.planCfg 16 8)).closeGroup

/-- PLANNED_END (R37, R405, R407): 0.88 T after the window began, rounded down to whole ns (log entry 43, DESIGN CHOICE), the open
group closes and no later result makes a candidate. -/
def execPlannedEnd (s : State) :=
  s.clocked (·.regionStopped 20) fun d =>
    if d.plan.computing.isNone || d.plan.plannedEnd then d
    else
      let d := (d.advance (d.plan.tickNs + d.plan.period * 88 / 100)).closeGroup
      { d with plan := { d.plan with plannedEnd := true } }

/-- ADMISSION_GROUP_DECIDE (R405). -/
def execAdmissionGroupDecide (s : State) := s.clocked (·.regionStopped 20) Dev.decideGroup

end Sys2Proof.Machine
end

