-- ==== Sys2Proof/Machine/Commands.lean ====
section
/-! DEFINITION. Tiles, the units that hold them, and their stop (R248). -/

namespace Sys2Proof.Machine

/-! ### Tiles and the Facets that hold them -/

end Sys2Proof.Machine

namespace Sys2Proof

/-- Whether a tile runs on a Grating. -/
def Tile.onGrating (t : Tile) : Bool := t.form = .grating

/-- The Facets a tile occupies, by Facet index (Table 6.5); in the shared-weight form each Facet streams a tile of its own. -/
def Tile.facets (t : Tile) : List Nat :=
  match t.form with
  | .grating => []
  | .gang => Machine.range (t.facet / 16 * 16) 16
  | _ => [t.facet]

/-- The unit whose cells hold the weight of row `k` and column `c`: the Grating, or the Facet of the row band and column band (R233). -/
def Tile.unitOf (t : Tile) (perRow k c : Nat) : Nat :=
  match t.form with
  | .grating => t.partition
  | .gang => t.facet / 16 * 16 + 4 * (k / (16 * perRow)) + c / 16
  | _ => t.facet

/-- The units whose cells a tile fills. -/
def Tile.units (t : Tile) : List Nat := if t.onGrating then [t.partition] else t.facets

/-- The region of Table 14.1 that a tile runs in: its cluster. -/
def Tile.region (t : Tile) : Nat := if t.onGrating then t.partition - 1024 else t.facet / 64

/-- The weights of a tile that a unit holds, row by row. -/
def Tile.weightsOf (t : Tile) (perRow : Nat) (wgt : List Nat) (u : Nat) : List Nat :=
  (List.range t.k).flatMap fun k => (List.range t.n).filterMap fun c =>
    if t.unitOf perRow k c = u then some (wgt.getD (k * t.n + c) 0) else none

/-- The Facets that a freeze of a tile's Facet holds: the whole Gang, the whole shared-weight group, else the Facet (R229). -/
def Tile.frozen (t : Tile) : List Nat := if t.form = .shared then Machine.range (t.facet / 4 * 4) 4 else t.facets

/-- The units that a freeze of a tile holds. -/
def Tile.frozenUnits (t : Tile) : List Nat := if t.onGrating then [t.partition] else t.frozen

/-- The engine ID of the unit a tile runs on (Table 12.2). -/
def Tile.engine (t : Tile) : Nat := if t.onGrating then 0x1000 + (t.partition - 1024) % 16 else t.facet / 4 % 256

end Sys2Proof

namespace Sys2Proof.Machine

/-- A Facet counter raised, by Facet index. -/
def Dev.bumpFacet (d : Dev) (ctr : Nat → Nat → Nat → Nat) (f : Nat) (n : Nat := 1) : Dev :=
  d.bump (ctr (f / 64 % 16) (f / 4 % 16) (f % 4)) n

/-! ### The cycles of a unit (R230, Table 6.4)

A unit is a Facet by its index or a Grating by 1,024 + g. Every cycle of it is in one counter of Table 6.4; `settled` says up to which
cycle of its region's clock they have been counted. -/

/-- The engine ID of a partition's Lens core or Grating. -/
def unitEngine (partition : Nat) : Nat := if 1024 ≤ partition then 0x1000 + (partition - 1024) % 16 else partition / 4

/-- The region of Table 14.1 that a unit stands in: its cluster. -/
def unitRegion (u : Nat) : Nat := if 1024 ≤ u then (u - 1024) % 16 else u / 64 % 16

/-- The cycles of a unit that its counters have. -/
def Dev.settledTo (d : Dev) (u : Nat) : Nat := (d.lens.settled.find u).getD 0

/-- Whether a running tile holds a unit. -/
def Dev.unitBusy (d : Dev) (u : Nat) : Bool := d.lens.running.any fun r => r.tile.units.contains u

/-- The cycles since those that a unit's counters have; without a tile they are idle. -/
def Dev.openCycles (d : Dev) (u : Nat) : Nat := d.regionCycles (unitRegion u) - d.settledTo u

/-- A counter of a unit, a Facet's or a Grating's, raised. -/
def Dev.bumpUnit (d : Dev) (facet : Nat → Nat → Nat → Nat) (grating : Nat → Nat) (u n : Nat) : Dev :=
  if 1024 ≤ u then d.bump (grating ((u - 1024) % 16)) n else d.bumpFacet facet u n

/-- Cycles of a unit that its counters now have. -/
def Dev.settleUnit (d : Dev) (u n : Nat) : Dev :=
  { d with lens := { d.lens with settled := Sparse.put d.lens.settled u (d.settledTo u + n) } }

/-- The cycles of a unit without a tile counted as idle (Table 6.4, order 5). -/
def Dev.unitIdle (d : Dev) (u : Nat) : Dev :=
  if d.unitBusy u then d else (d.bumpUnit C.LNS_IDLE_CYCLES C.GRT_IDLE_CYCLES u (d.openCycles u)).settleUnit u (d.openCycles u)

/-- What a unit spent on a tile (Table 6.4): freezes for its feed and its drain, cycles in which vectors entered, waits for the shadow
bank. -/
structure UnitCycles where
  feed : Nat
  drain : Nat
  busy : Nat
  load : Nat
  deriving DecidableEq, Repr

/-- All of them. -/
def UnitCycles.total (y : UnitCycles) : Nat := y.feed + y.drain + y.busy + y.load

/-- The cycles of a unit counted. -/
def Dev.countUnit (d : Dev) (y : UnitCycles) (u : Nat) : Dev :=
  let d := (d.bumpUnit C.LNS_STALL_FEED C.GRT_STALL_FEED u y.feed).bumpUnit C.LNS_STALL_DRAIN C.GRT_STALL_DRAIN u y.drain
  ((d.bumpUnit C.LNS_BUSY_CYCLES C.GRT_BUSY_CYCLES u y.busy).bumpUnit C.LNS_STALL_LOAD C.GRT_STALL_LOAD u y.load).settleUnit u y.total

/-- The cycles of a tile counted in its units and its command; those Facets of its shared-weight group that it does not occupy count the
freezes (R229). -/
def Dev.countCycles (d : Dev) (t : Tile) (unit : Nat) (y : UnitCycles) : Dev :=
  let d := d.cmdWork (unitEngine unit) unit t.cmdId.toNat [y.total, y.busy, y.feed + y.drain, 0]
  let d := d.each t.units fun d u => d.countUnit y u
  d.each (t.frozenUnits.filter fun u => !t.units.contains u) fun d u => d.countUnit { y with busy := 0, load := 0 } u

/-! ### Tiles that leave the array -/

/-- A Facet that no running tile holds any more reads idle, without form (Table 6.17), and its cycles so far are counted. -/
def Dev.facetRest (d : Dev) (f : Nat) : Dev :=
  if d.unitBusy f then d
  else
    let (c, j, k) := (f / 64 % 16, f / 4 % 16, f % 4)
    let d := ((d.unitIdle f).put (R.LNS_FACET_STAT_SHARED c j k) 0).put (R.LNS_FACET_STAT_BANDS c j k) 0
    if d.facetFenced f then d else d.put (R.LNS_FACET_STAT_STATE c j k) 0

/-- A Grating likewise (Table 6.19). -/
def Dev.gratingRest (d : Dev) (g : Nat) : Dev :=
  if d.unitBusy (1024 + g) then d
  else
    let d := ((d.unitIdle (1024 + g)).put (R.GRT_STAT_A_BITS g) 0).put (R.GRT_STAT_W_BITS g) 0
    if d.gratingFenced g then d else d.put (R.GRT_STAT_STATE g) 0

/-- The units of a tile that has left the array. -/
def Dev.tileLeft (d : Dev) (t : Tile) : Dev :=
  if t.onGrating then d.gratingRest ((t.partition - 1024) % 16) else d.each t.facets Dev.facetRest

/-- Whether a pass is that of a tile. -/
def Pass.isOf (p : Pass) (t : Tile) : Bool :=
  p.homes.contains t.partition && p.cmdId = t.cmdId.toNat && p.context = t.context.val && p.model = t.model.val

/-- The operand width of a format on a Grating (R260). -/
def gratingBits : Nat → Nat
  | 0 => 1 | 1 => 2 | 2 => 2 | 3 => 3 | 4 => 4 | 5 => 4 | 6 => 8 | 7 => 8 | _ => 0

/-- Whether the stage programs of a tier of a context may begin work: those of a faulted context only in T0, learning ones only in an
open phase of their model (R451, R40). -/
def Dev.mayWork (d : Dev) (context model tier : Nat) (learning : Bool) : Bool :=
  (!d.faulted context || (tier = 0 && !learning)) && (!learning || d.phaseOpen model)

/-- A pass as one that has swapped. -/
def Pass.swap (p : Pass) : Swap := ⟨p.context, p.model, p.tier, p.learning, p.cmdId⟩

/-- Stage programs that a test takes begin their graph anew: of their passes none has swapped (R244). -/
def Dev.graphsAnew (d : Dev) (mine : Swap → Bool) : Dev :=
  { d with lens := { d.lens with swapped := d.lens.swapped.filter fun x => !mine x } }

/-- A pass of the Lens cores or Gratings replaced. -/
def Dev.setPass (d : Dev) (p : Pass) : Dev :=
  { d with lens := { d.lens with passes := d.lens.passes.map fun q =>
      if q.partition = p.partition && q.cmdId = p.cmdId then p else q } }

/-- The engine ID of a pass. -/
def Pass.engine (p : Pass) : Nat := unitEngine p.partition

/-- The partition on which a pass's command began. -/
def Pass.unit (p : Pass) : Nat := p.homes.headD p.partition

/-- The command of a pass ends with a cause of Table 14.4. -/
def Dev.endPass (d : Dev) (p : Pass) (cause : Nat) : Dev := d.programEnd (unitEngine p.unit) p.unit p.cmdId cause p.reissues

/-- A pass is abandoned: its command ends with a cause of Table 14.4; nothing of it is published. -/
def Dev.dropPass (d : Dev) (p : Pass) (endCause : Nat) : Dev :=
  let same (t : Tile) : Bool := p.isOf t
  let l := d.lens
  let d := { d with lens := { l with
    passes := l.passes.filter fun q => !(q.partition = p.partition && q.cmdId = p.cmdId),
    stopped := l.stopped.filter fun s => !same s.tile } }
  d.endPass p endCause

/-- The pass of a tile. -/
def Dev.passOf (d : Dev) (t : Tile) : Option Pass := d.lens.passes.find? fun p => p.isOf t

/-- The cycles in which the vectors of a whole tile and its check wavefront enter, or its bit-plane pairs are applied (R226, R228,
R260, R261). -/
def Dev.busyOf (d : Dev) (t : Tile) : Nat :=
  match d.passOf t with
  | some p => (if t.onGrating then t.m else t.m + 1) * p.vectorCycles
  | none => 0

/-- The cycles of a tile that a cause other than its checksum stops: those since its issue that its units' counters do not have. How many
of them were freezes, the one that meets the stop among them, and how many went to a wait for the shadow bank is free (R230, R251; log
entry 64, DESIGN CHOICE). -/
def Dev.cutCycles (d : Dev) (r : RunTile) : Dev :=
  let t := r.tile
  let u := t.units.headD 0
  let n := d.regionCycles t.region - max r.issued (d.settledTo u)
  let (a, d) := d.draw
  let (b, d) := d.draw
  let (c, d) := d.draw
  let feed := a % (n + 1)
  let drain := b % (n - feed + 1)
  let busy := min (d.busyOf t) (n - feed - drain)
  let unit := match d.passOf t with | some p => p.unit | none => t.partition
  d.countCycles t unit ⟨feed, drain, busy, c % (n - feed - drain - busy + 1)⟩

/-- TILE_STOP: a running tile stops for a cause of Table 6.6 (0 deadline, 1 context fault, 2 fence, 3 throttle, 4 learning at a
boundary, 5 memory, 6 checksum) and adds nothing (R227, R248). One that Table 6.6 lets run again is kept for its re-issue. It is counted
once, at the tile's first Facet, though a Gang's 16 Facets each count a tile that ends (log entry 64, DESIGN CHOICE). -/
def Dev.stopTile (d : Dev) (cause : Nat) (r : RunTile) : Dev :=
  let t := r.tile
  let l := d.lens
  let stop : StoppedTile := ⟨t, cause, cause = 2 || cause = 4, d.plan.tick, t.m * t.k * t.n⟩
  let stopped := if cause ≤ 1 then l.stopped else l.stopped ++ [stop]
  let d := { d with lens := { l with running := l.running.filter fun q => !(q = r), stopped := stopped } }
  let d := if cause = 6 then d else d.cutCycles r
  let d := if t.onGrating then d.bump (C.GRT_TILES_ABANDONED ((t.partition - 1024) % 16))
    else d.bumpFacet C.LNS_TILES_ABANDONED t.facet
  d.tileLeft t

/-- Whether a pass has only its publication left: its last tile is done and none of its tiles runs or waits (R241). -/
def Dev.complete (d : Dev) (p : Pass) : Bool :=
  p.lastDone && !d.lens.running.any (fun r => p.isOf r.tile) && !d.lens.stopped.any fun s => p.isOf s.tile

/-- The stage programs a test names stop with their tiles, passes and widen requests (R248, R451); a pass with only its
publication left is published all the same (R242). -/
def Dev.stopPrograms (d : Dev) (cause endCause : Nat) (mine : Nat → Nat → Nat → Bool → Bool) : Dev :=
  let ofTile (t : Tile) : Bool := mine t.partition t.context.val t.tier.val t.learning
  let ofPass (p : Pass) : Bool := mine p.partition p.context p.tier p.learning
  let d := d.each (d.lens.running.filter fun r => ofTile r.tile) fun d r => d.stopTile cause r
  let d := d.each (d.lens.passes.filter fun p => ofPass p && !d.complete p) fun d p => d.dropPass p endCause
  { d with lens := { d.lens with
      widen := d.lens.widen.filter fun p => !ofPass p, granted := d.lens.granted.filter fun p => !ofPass p,
      stopped := d.lens.stopped.filter fun s => !ofTile s.tile } }

/-! ### Movers (R255, R258) -/

/-- The engine ID of a cluster's mover. -/
def moverEngine (c : Nat) : Nat := 0x3000 + c

/-- Whether a mover operation is a stepped command. -/
def Dev.stepsMover (d : Dev) (o : MoverOp) : Bool := d.steps o.context.val o.tier.val o.learning

/-- A mover operation's command begins when it reaches the front of its cluster's mover. -/
def Dev.moverBegin (d : Dev) (o : MoverOp) : Dev :=
  d.cmdBegin (moverEngine o.cluster.val) o.partition o.context.val o.model.val o.cmdId.toNat (d.stepsMover o)

/-- The oldest operation of a cluster's mover begins where none runs. -/
def Dev.moverNext (d : Dev) (c : Nat) : Dev :=
  match d.lens.movers.find? fun o => o.cluster.val = c with
  | some o => if (d.shownCmd (moverEngine c)).isNone then d.moverBegin o else d
  | none => d

/-- The mover operations that a test takes stop with a cause of Table 14.4; the next ones begin. -/
def Dev.stopMovers (d : Dev) (endCause : Nat) (mine : MoverOp → Bool) : Dev :=
  let gone := d.lens.movers.filter mine
  let d := { d with lens := { d.lens with movers := d.lens.movers.filter fun o => !mine o } }
  let d := d.each gone fun d o => d.programEnd (moverEngine o.cluster.val) o.partition o.cmdId.toNat endCause 0
  d.each gone fun d o => d.moverNext o.cluster.val

/-- The answer of a `STEP` (R535). -/
def stepAnswer (ended blocked lastCmd : Nat) (done : Bool) : Answer :=
  { status := St.ok, payload := beBytes 2 (min ended 0xFFFF) ++ beBytes 2 (min blocked 0xFFFF) ++ beBytes 4 lastCmd
      ++ beBytes 1 (b2n done) ++ zeros 7 }

/-- The answer of a `STEP` as it stands. -/
def Dev.stepResult (d : Dev) (x : StepRun) (done : Bool) : Answer := stepAnswer x.endedAll (d.stepBlocked x) x.lastCmd done

end Sys2Proof.Machine
end

