-- ==== Sys2Proof/Machine/Sync.lean ====
section
/-! DEFINITION. Synchronisation objects and queues (chapter 12): counters, pinned signals, barrier networks, the context
watchdog, context faults and restarts, queues with their notices and flushes. -/

namespace Sys2Proof.Machine

/-! ### Counters (R432 to R439) -/

/-- What a counter that nothing has touched holds (R435, Table 12.12). -/
def ctrDflt (_ : Nat) : Ctr := ⟨0, 0, 0xFFFF⟩

/-- The physical counter of virtual counter `v` of context `c`, if its page is mapped (R432). -/
def Dev.physCtr (d : Dev) (c v : Nat) : Option Nat :=
  if d.on (R.SYN_MAP_VALID c (v / 256 % 256)) then some (d.get (R.SYN_MAP_PAGE c (v / 256 % 256)) * 256 + v % 256) else none

/-- A physical counter. -/
def Dev.ctr (d : Dev) (p : Nat) : Ctr := Sparse.read ctrDflt d.sync.ctrs p

/-- A physical counter replaced. -/
def Dev.setCtr (d : Dev) (p : Nat) (x : Ctr) : Dev :=
  { d with sync := { d.sync with ctrs := Sparse.write ctrDflt d.sync.ctrs p x } }

/-- An engine's answer. -/
def Dev.answer (d : Dev) (engine : Nat) (a : SyncAnswer) : Dev :=
  { d with sync := { d.sync with answers := Sparse.put d.sync.answers engine a } }

/-- The waits replaced; the oldest waits that are not in the waiter store take the places that are free (R439). -/
def Dev.setWaits (d : Dev) (ws : List Wait) : Dev :=
  let isCtr (w : Wait) : Bool := match w.on with | .counter _ _ => true | _ => false
  let free := 16384 - (ws.filter fun w => isCtr w && w.stored).length
  let ws := (ws.foldl (fun (p : List Wait × Nat) w =>
    if isCtr w && !w.stored && p.2 != 0 then (p.1 ++ [{ w with stored := true }], p.2 - 1) else (p.1 ++ [w], p.2)) ([], free)).1
  { d with sync := { d.sync with waits := ws } }

/-- Whether a wait is blocked on physical counter `p`. -/
def Dev.waitsOn (d : Dev) (p : Nat) (w : Wait) : Bool :=
  match w.on with | .counter v _ => d.physCtr w.context v == some p | _ => false

/-- Whether a stored wait is the first of its counter and the count covers it (R439). -/
def Dev.covered (d : Dev) (w : Wait) : Bool :=
  match w.on with
  | .counter v n =>
    match d.physCtr w.context v with
    | some p => w.stored && decide (n ≤ (d.ctr p).value) && d.sync.waits.find? (fun x => d.waitsOn p x && x.stored) == some w
    | none => false
  | _ => false

/-- A covered wait takes its count and its engine goes on; its place in the store frees. -/
def Dev.releaseWait (d : Dev) (w : Wait) (rest : List Wait) : Dev :=
  match w.on with
  | .counter v n =>
    match d.physCtr w.context v with
    | some p => ((d.setCtr p { d.ctr p with value := (d.ctr p).value - n }).setWaits rest).answer w.engine .released
    | none => d
  | _ => d

/-- Blocked waiters that their counts cover are released, those of one counter in the order in which they blocked (R439). -/
def Dev.releaseWaiters : Nat → Dev → Dev
  | 0, d => d
  | k + 1, d =>
    match takeFirst d.covered d.sync.waits with
    | some (w, rest) => Dev.releaseWaiters k (d.releaseWait w rest)
    | none => d

/-- The waiters that a new count of counter `p` covers are released, and those that the places they free in the waiter store let in. -/
def Dev.releaseOn (d : Dev) (p : Nat) : Dev :=
  match takeFirst (fun w => d.covered w && d.waitsOn p w) d.sync.waits with
  | some (w, rest) => Dev.releaseWaiters d.sync.waits.length (d.releaseWait w rest)
  | none => d

/-- `WAITING` of a pinned signal follows its blocked waits. -/
def Dev.pinWaiting (d : Dev) (core pin : Nat) : Dev :=
  d.put (R.SYN_PIN_WAITING core pin) (b2n (d.sync.waits.any fun w => w.on = .pin core pin))

/-- Waits withdrawn; the waiters that this lets go are released, and `WAITING` of the pinned signals follows. -/
def Dev.withdrawWaits (d : Dev) (keep : Wait → Bool) : Dev :=
  let gone := d.sync.waits.filter fun w => !keep w
  let d := Dev.releaseWaiters d.sync.waits.length (d.setWaits (d.sync.waits.filter keep))
  d.each gone fun d w => match w.on with | .pin l i => d.pinWaiting l i | _ => d

/-- A wait blocks (R439, R448). -/
def Dev.block (d : Dev) (on : WaitOn) (context engine : Nat) : Dev :=
  let isCtr := match on with | .counter _ _ => true | _ => false
  let d := d.bump C.SYN_WAITS_BLOCKED
  let full := isCtr && 16384 ≤ (d.sync.waits.filter fun w => w.stored).length
  let d := if full then d.bump C.SYN_STORE_FULL else d
  let w : Wait := { on := on, context := context, engine := engine, ticks := 0, stored := isCtr && !full }
  { d with sync := { d.sync with waits := d.sync.waits ++ [w] } }

/-! ### Context faults (R450 to R452) -/

/-- Members that have arrived at a network, as bits (0 to 255 Lens cores, 256 to 271 Gratings). -/
def Dev.arrivedBits (d : Dev) (b : Nat) : Nat := (d.sync.arrived.find b).getD 0

/-- The object a wait is blocked on: kind, object number (Table 12.5). -/
def WaitOn.object : WaitOn → Nat × Nat
  | .counter v _ => (1, v)
  | .pin l i => (2, l * 64 + i)
  | .barrier b => (3, b)
  | .push q _ _ _ => (4, q)

/-- The present value of an object and the engine of its last signal (Table 12.5). -/
def Dev.objectState (d : Dev) (c : Nat) (o : Nat × Nat) : Nat × Nat :=
  match o.1 with
  | 1 => let x := match d.physCtr c o.2 with | some p => d.ctr p | none => ctrDflt 0
         (x.value, x.signaller)
  | 2 => (d.get (R.SYN_PIN_SET (o.2 / 64) (o.2 % 64)), d.get (R.SYN_PIN_LAST_SIGNALLER (o.2 / 64) (o.2 % 64)))
  | 3 => (d.get (R.SYN_BAR_ARRIVED o.2), (d.sync.lastArrive.find o.2).getD 0xFFFF)
  | _ => let q := (d.sync.queues.find o.2).getD Queue.empty
         (q.entries.length, q.pusher)

/-- One entry of a fault snapshot (Table 12.5), for an object of context `c`. -/
def Dev.snapEntry (d : Dev) (cause : Nat) (x : Nat × Nat × Nat) : List Byte :=
  let (c, o) := x
  let (value, last) := d.objectState c o
  let ws := d.sync.waits.filter fun w => w.on.object = o && (w.context = c || o.1 != 1)
  let ids := (List.range 4).map fun i => match ws[i]? with | some w => w.engine | none => 0xFFFF
  leBytes 1 o.1 ++ leBytes 1 c ++ leBytes 1 cause ++ [0] ++ leBytes 4 o.2 ++ leBytes 2 value ++ leBytes 2 ws.length
    ++ leBytes 2 last ++ zeros 2 ++ (ids.map (leBytes 2)).flatten ++ leBytes 4 d.tick32 ++ zeros 4

/-- A wait put among others in ascending engine-ID order. -/
def insertWait (w : Wait) : List Wait → List Wait
  | [] => [w]
  | x :: xs => if w.engine < x.engine then w :: x :: xs else x :: insertWait w xs

/-- The fault snapshot: the object of the fault, then the objects of the context's blocked waits (R452, R544). An object of the fault that
is another context's counter appears under that context (log entry 59, DESIGN CHOICE). -/
def Dev.snapshot (d : Dev) (c cause : Nat) (obj : Option (Nat × Nat × Nat)) : Dev :=
  let ws := (d.sync.waits.filter fun w => w.context = c).foldl (fun l w => insertWait w l) []
  let objs := (obj.toList ++ ws.map fun w => (c, w.on.object)).foldl (fun l o => if l.contains o then l else l ++ [o]) []
  let entries := objs.map (d.snapEntry cause)
  let kept := entries.take 16
  let d := d.bump C.SYN_SNAP_LOST (entries.length - 16)
  let d := d.put (R.SYN_CTX_STAT_SNAP_COUNT c) kept.length
  let d := d.each ((List.range kept.length).zip kept) fun d e =>
    d.each [0, 1, 2, 3] fun d k => d.put (R.SYN_SNAP_ENTRY c e.1 k) (leAt e.2 (8 * k) 8)
  d.each kept fun d e =>
    d.trace [record 0x0A (d.stepFlag c) c d.ns (zeros 6 ++ sub e 0 16), record 0x0B (d.stepFlag c) c d.ns (zeros 6 ++ sub e 16 16)]

/-- Whether a wait's engine runs a T0 stage: Gratings and forest engines carry T0 (chapter 11, Tiers). -/
def t0Engine (engine : Nat) : Bool := engine / 4096 = 1 || engine / 4096 = 2

/-- Whether a T0 stage program on a partition is the one in which a fault arose: the partition is named, or it is the Grating's whose
engine is named (Table 12.2). -/
def aroseIn (engine : Nat) (partition : Option Nat) (p : Nat) : Bool :=
  partition == some p || (engine / 4096 = 1 && p = 1024 + engine % 16)

/-- Whether a placed T0 stage program is the one in which a fault arose: of a forest, the replica that has the engine. -/
def Placed.arose (m : Placed) (engine : Nat) (partition : Option Nat) : Bool :=
  if m.kind ≤ 2 then aroseIn engine partition m.id else engine / 4096 = 2 && m.units.contains (engine % 4096)

/-- The forest windows of replicas whose stage program has stopped end, and their samples leave them (R451, Table 14.4). -/
def Dev.stopReplicas (d : Dev) (ms : List Placed) : Dev :=
  d.each ms fun d m =>
    let d := { d with lens := { d.lens with jobs := d.lens.jobs.filter fun j => !(j.model = m.model && j.replica = m.id) } }
    let e := 0x2000 + m.units.headD 0
    match d.shownCmd e with | some c => d.cmdEnd e c.unit c.cmdId 2 0 | none => d

/-- CONTEXT_FAULT: a context faults with a cause of Table 12.4, the object concerned (its context, kind and number), and the engine and
partition whose stage program it arose in (R451): state, snapshot, stopped programs, withdrawn waits, T0 verdicts. -/
def Dev.contextFault (d : Dev) (c cause : Nat) (obj : Option (Nat × Nat × Nat)) (engine : Nat := 0xFFFF) (partition : Option Nat := none) :
    Dev :=
  let first := !d.faulted c
  let d := (d.bump C.SYN_CTX_FAULTS).health 0x17 c
  let d := d.put (R.SYN_CTX_STAT_FAULTS c) (min 0xFFFF (d.get (R.SYN_CTX_STAT_FAULTS c) + 1))
  let d := (d.put (R.SYN_CTX_STAT_STATE c) 2).put (R.SYN_CTX_STAT_FAULT_TICK c) d.tick32
  let d := if first then (d.put (R.SYN_CTX_STAT_CAUSE c) cause).snapshot c cause obj else d
  let mine (p ctx tier : Nat) (learning : Bool) : Bool := ctx = c && (tier != 0 || learning || aroseIn engine partition p)
  let d := (d.stopPrograms 1 2 mine).stopMovers 2 fun o => mine o.partition o.context.val o.tier.val o.learning
  let d := d.withdrawWaits fun w =>
    !(w.context = c && (!t0Engine w.engine || w.engine = engine || (w.engine / 4096 = 1 && aroseIn engine partition (1024 + w.engine % 16))))
  let gone (m : Placed) : Bool := m.context = c && (m.tier != 0 || m.learning || m.arose engine partition)
  let d := d.stopReplicas (d.plan.placed.filter fun m => m.kind = 3 && m.running && gone m)
  let d := { d with plan := { d.plan with placed := d.plan.placed.map fun m => if gone m then { m with running := false } else m } }
  d.planFault c

/-- UNMAPPED_COUNTER: an operation on an unmapped counter is not applied; the issuing context faults (R434). -/
def Dev.unmapped (d : Dev) (c v engine : Nat) (issuer : Nat := c) : Dev := d.contextFault issuer 4 (some (c, 1, v)) engine

/-- Whether a signal to a physical counter meets a host write of it in one cycle (Table 12.7): the host wrote it in the present ns, and
which of the ns's cycles they fall in is free (log entry 59, DESIGN CHOICE). -/
def Dev.meetsWrite (d : Dev) (p : Nat) : Bool × Dev :=
  if d.sync.written = some (p, d.ns) then let (k, d) := d.draw
                                          (k % 2 = 1, d)
  else (false, d)

/-- A signal of `n` to a virtual counter of context `c`, issued by a context, its own unless it comes through the fabric engine (R436,
R437); one that meets a host write of the counter is only counted (Table 12.7). -/
def Dev.signal (d : Dev) (c v n engine : Nat) (issuer : Nat := c) : Dev :=
  match d.physCtr c v with
  | none => d.unmapped c v engine issuer
  | some p =>
    let (meets, d) := (d.bump C.SYN_SIGNALS).meetsWrite p
    let x := d.ctr p
    if meets then d
    else if 65535 < x.value + n then (d.bump C.SYN_OVERFLOW).contextFault issuer 2 (some (c, 1, v)) engine
    else (d.setCtr p { x with value := x.value + n, signaller := engine }).releaseOn p

/-- WAIT of `n` (R436, R439): taken when the count covers it and no earlier waiter is blocked, else blocked. -/
def Dev.wait (d : Dev) (c v n engine : Nat) : Dev :=
  match d.physCtr c v with
  | none => d.unmapped c v engine
  | some p =>
    let x := d.ctr p
    if n ≤ x.value && !d.sync.waits.any (d.waitsOn p) then (d.setCtr p { x with value := x.value - n }).answer engine .released
    else d.block (.counter v n) c engine

/-- TRY_TAKE of `n` (R438). -/
def Dev.tryTake (d : Dev) (c v n engine : Nat) : Dev :=
  match d.physCtr c v with
  | none => d.unmapped c v engine
  | some p =>
    let x := d.ctr p
    if n ≤ x.value then (d.setCtr p { x with value := x.value - n }).answer engine (.taken true)
    else (d.bump C.SYN_UNDERFLOW).answer engine (.taken false)

/-- READ of a counter (R436). -/
def Dev.readCtr (d : Dev) (c v engine : Nat) : Dev :=
  match d.physCtr c v with
  | none => d.unmapped c v engine
  | some p => d.answer engine (.count (d.ctr p).value)

/-- A host write of `SYN_CTR[c][v].VALUE` (R454); its status. -/
def Dev.writeCtr (d : Dev) (c v value : Nat) : Dev × Nat :=
  if !(d.faulted c || d.stepping c) then (d, St.access)
  else
    match d.physCtr c v with
    | none => (d, St.ok)
    | some p =>
      let d := { d with sync := { d.sync with written := some (p, d.ns) } }
      ((d.setCtr p { d.ctr p with value := value % 65536 }).releaseOn p, St.ok)

/-- What `SYN_CTR[c][v]` reads (Table 12.12). -/
def Dev.ctrWord (d : Dev) (c v : Nat) : Nat :=
  match d.physCtr c v with
  | none => 0xFFFF * 2 ^ 32
  | some p =>
    let x := d.ctr p
    x.value + min 255 (d.sync.waits.filter (d.waitsOn p)).length * 2 ^ 16 + 2 ^ 24 + x.signaller * 2 ^ 32

/-! ### Pinned signals (R440, R441) -/

/-- Whether an engine, acting for a context, may operate on a pinned signal (R440). -/
def Dev.pinAllowed (d : Dev) (c core pin engine : Nat) : Bool :=
  d.on (R.SYN_PIN_ALLOCATED core pin) && d.get (R.SYN_PIN_CONTEXT core pin) = c && engineCluster engine == some (core / 16)

/-- SET (R440, R441): an already set bit faults the setter; a blocked WAIT takes the bit at once. -/
def Dev.pinSet (d : Dev) (c core pin engine : Nat) : Dev :=
  if !d.pinAllowed c core pin engine then d
  else if d.on (R.SYN_PIN_SET core pin) then (d.bump C.SYN_OVERFLOW).contextFault c 3 (some (c, 2, core * 64 + pin)) engine
  else
    let d := d.put (R.SYN_PIN_LAST_SIGNALLER core pin) engine
    match takeFirst (fun (w : Wait) => w.on = .pin core pin) d.sync.waits with
    | some (w, rest) => ((d.setWaits rest).answer w.engine .released).pinWaiting core pin
    | none => d.put (R.SYN_PIN_SET core pin) 1

/-- CLEAR (R440). -/
def Dev.pinClear (d : Dev) (c core pin engine : Nat) : Dev :=
  if d.pinAllowed c core pin engine then d.put (R.SYN_PIN_SET core pin) 0 else d

/-- WAIT on a pinned signal (R440). -/
def Dev.pinWait (d : Dev) (c core pin engine : Nat) : Dev :=
  if !d.pinAllowed c core pin engine then d
  else if d.on (R.SYN_PIN_SET core pin) then (d.put (R.SYN_PIN_SET core pin) 0).answer engine .released
  else (d.block (.pin core pin) c engine).pinWaiting core pin

/-- TEST (R440). -/
def Dev.pinTest (d : Dev) (c core pin engine : Nat) : Dev :=
  if d.pinAllowed c core pin engine then d.answer engine (.bit (d.on (R.SYN_PIN_SET core pin))) else d

/-! ### Barrier networks (R442 to R444) -/

/-- The member bit of an engine at a network: Lens core l is bit l, Grating g bit 256 + g. -/
def memberBit (engine : Nat) : Option Nat :=
  match engine / 4096 with | 0 => some (engine % 256) | 1 => some (256 + engine % 16) | _ => none

/-- The member mask of a network, as bits. -/
def Dev.barMask (d : Dev) (b : Nat) : Nat :=
  d.get (R.SYN_BAR_MASK_CORES b 0) + d.get (R.SYN_BAR_MASK_CORES b 1) * 2 ^ 64 + d.get (R.SYN_BAR_MASK_CORES b 2) * 2 ^ 128
    + d.get (R.SYN_BAR_MASK_CORES b 3) * 2 ^ 192 + d.get (R.SYN_BAR_MASK_GRT b) * 2 ^ 256

/-- The arrivals of a network set, with `ARRIVED`. -/
def Dev.setArrived (d : Dev) (b bits : Nat) : Dev :=
  let d := { d with sync := { d.sync with arrived := Sparse.write (fun _ => 0) d.sync.arrived b bits } }
  d.put (R.SYN_BAR_ARRIVED b) (popCount 272 bits)

/-- All members of a network are released (R442). -/
def Dev.barrierRelease (d : Dev) (b : Nat) : Dev :=
  let mine := d.sync.waits.filter fun w => w.on = .barrier b
  let d := d.setWaits (d.sync.waits.filter fun w => !(w.on = .barrier b))
  let d := d.each mine fun d w => d.answer w.engine .released
  let d := (d.setArrived b 0).put (R.SYN_BAR_GENERATION b) (d.get (R.SYN_BAR_GENERATION b) + 1)
  d.bump C.SYN_BAR_RELEASES

/-- A network in which every member has arrived releases them, or, joined to the board line, releases the line (R442, R444). -/
def Dev.barrierCheck (d : Dev) (b : Nat) : Dev :=
  let mask := d.barMask b
  if mask = 0 || d.arrivedBits b &&& mask != mask then d
  else if d.on (R.SYN_BAR_BOARD b) && d.on R.TKP_MODE_FABRIC_BOARD then
    if d.get R.RST_STAT_STAGE != 0x0C then d
    else { d with sync := { d.sync with boardReleased := true }, sup := { d.sup with barrierLow := false } }
  else d.barrierRelease b

/-- A network's mask replaced, as bits; arrivals of members that leave it are dropped with their waits (R443). -/
def Dev.setBarMask (d : Dev) (b bits : Nat) : Dev :=
  let d := d.each [0, 1, 2, 3] fun d w => d.put (R.SYN_BAR_MASK_CORES b w) (bits / 2 ^ (64 * w))
  let d := (d.put (R.SYN_BAR_MASK_GRT b) (bits / 2 ^ 256)).put (R.SYN_BAR_MEMBERS b) (popCount 272 bits)
  let stays (w : Wait) : Bool := match memberBit w.engine with | some m => bits.testBit m | none => true
  let d := d.setWaits (d.sync.waits.filter fun w => !(w.on = .barrier b) || stays w)
  d.setArrived b (d.arrivedBits b &&& bits)

/-- ARRIVE (R442); an engine that is no member, or has arrived, changes nothing. -/
def Dev.arrive (d : Dev) (b engine : Nat) : Dev :=
  match memberBit engine with
  | none => d
  | some m =>
    if !d.on (R.SYN_BAR_ALLOCATED b) || !(d.barMask b).testBit m || (d.arrivedBits b).testBit m then d
    else
      let d := d.block (.barrier b) (d.get (R.SYN_BAR_CONTEXT b)) engine
      let d := { d with sync := { d.sync with lastArrive := Sparse.put d.sync.lastArrive b engine } }
      (d.setArrived b (d.arrivedBits b + 2 ^ m)).barrierCheck b

/-- BOARD_BARRIER_HIGH (R444): the line is high, the members of the joined network are released and the line is driven low for
the next generation. -/
def Dev.boardBarrierHigh (d : Dev) : Dev :=
  if !d.sync.boardReleased then d
  else
    let d := { d with sync := { d.sync with boardReleased := false }, sup := { d.sup with barrierLow := true } }
    match (List.range 16).find? fun b => d.on (R.SYN_BAR_ALLOCATED b) && d.on (R.SYN_BAR_BOARD b) with
    | some b => d.barrierRelease b
    | none => d

/-- WATCHDOG_FIRE (R448): the context's oldest wait that has stood `WDOG_TICKS` boundaries fires. -/
def Dev.watchdogFire (d : Dev) (c : Nat) : Dev :=
  match d.sync.waits.find? fun w => w.context = c && d.get (R.SYN_CTX_CFG_WDOG_TICKS c) ≤ w.ticks with
  | some w => (d.bump C.SYN_WDOG_FIRES).contextFault c 1 (some (c, w.on.object)) w.engine
  | none => d

/-! ### Queues (R455 to R467) -/

/-- A queue. -/
def Dev.queue (d : Dev) (q : Nat) : Queue := (d.sync.queues.find q).getD Queue.empty

/-- Capacity of a queue in entries (R455). -/
def Dev.queueCap (d : Dev) (q : Nat) : Nat := 64 + d.get (R.QUE_DESC_SPILL_64K q) * 1024

/-- A queue replaced, with the fields of `QUE_STAT` that follow it. -/
def Dev.setQue (d : Dev) (q : Nat) (x : Queue) (open_ : Bool) : Dev :=
  let d := { d with sync := { d.sync with queues := Sparse.put d.sync.queues q x } }
  let n := x.entries.length
  let d := (d.put (R.QUE_STAT_LEVEL q) n).put (R.QUE_STAT_EMPTY q) (b2n (x.visible = 0))
  (d.put (R.QUE_STAT_FULL q) (b2n (d.queueCap q ≤ n))).put (R.QUE_STAT_ITEM_OPEN q) (b2n open_)

/-- Whether an item is open at the producer. -/
def Dev.itemOpen (d : Dev) (q : Nat) : Bool := d.on (R.QUE_STAT_ITEM_OPEN q)

/-- The address of entry `i` of a queue's spill region, and of the byte with its tag bits (R455). -/
def Dev.spillAddr (d : Dev) (q i : Nat) : Nat × Nat :=
  let base := d.get (R.QUE_DESC_SPILL_BASE q)
  (base + 64 * i, base + d.get (R.QUE_DESC_SPILL_64K q) * 65536 + i / 4)

/-- The entry at a position written to the spilled middle. -/
def Dev.spill (d : Dev) (q : Nat) (x : Queue) : Dev × Queue :=
  let i := x.spillNext % (d.get (R.QUE_DESC_SPILL_64K q) * 1024)
  let pos := x.headN + x.midN
  let e := x.entries.getD pos ⟨[], false, false, none⟩
  let (a, t) := d.spillAddr q i
  let (d, bs) := d.fetchFree t 1
  let tag := (byteAt bs 0).toNat
  let d := (d.store a e.data).store t (leBytes 1 (setBits tag (2 * (i % 4)) 2 (b2n e.soi + 2 * b2n e.eoi)))
  (d.bump C.QUE_SPILL_ENTRIES,
    { x with entries := x.entries.set pos { e with spilledAt := some i }, midN := x.midN + 1, spillNext := i + 1 })

/-- The oldest entry beyond the head brought into it: out of the middle, whose poison faults the context (Table 13.2), or out of
the tail. -/
def Dev.refill (d : Dev) (q engine : Nat) (x : Queue) : Dev × Queue :=
  let e := x.entries.getD x.headN ⟨[], false, false, none⟩
  match e.spilledAt with
  | some i =>
    let (a, t) := d.spillAddr q i
    let x' := { x with headN := x.headN + 1, midN := x.midN - 1 }
    let (d, r) := d.fetch a 64 []
    let (d, g) := d.fetch t 1 []
    match r, g with
    | some bs, some tb =>
      let tag := bitsOf (byteAt tb 0).toNat (2 * (i % 4)) 2
      (d, { x' with entries := x.entries.set x.headN ⟨bs, tag % 2 = 1, 2 ≤ tag, none⟩ })
    | _, _ =>
      (d.contextFault (d.get (R.QUE_DESC_CONTEXT q)) 6 none engine, { x' with entries := x.entries.set x.headN { e with spilledAt := none } })
  | none => (d, { x with headN := x.headN + 1 })

/-- The places of a queue's entries settled for the engine that reads it, if one does: the head refills, a tail of more than 32 entries
spills (R455, R458). -/
def Dev.settle (q engine : Nat) : Nat → Dev → Queue → Dev × Queue
  | 0, d, x => (d, x)
  | k + 1, d, x =>
    if x.headN < 32 && x.headN < x.entries.length then
      let (d, x) := d.refill q engine x
      Dev.settle q engine k d x
    else if x.headN + x.midN + 32 < x.entries.length then
      let (d, x) := d.spill q x
      Dev.settle q engine k d x
    else (d, x)

/-- A queue cut to its first `n` entries. -/
def Queue.cut (x : Queue) (n : Nat) : Queue :=
  { x with entries := x.entries.take n, visible := min x.visible n, headN := min x.headN n, midN := min x.midN (n - min x.headN n) }

/-- A notice of a queue: a signal of 1 to a counter of its context (R461 to R463). -/
def Dev.notice (d : Dev) (q ctr : Nat) : Dev := d.signal (d.get (R.QUE_DESC_CONTEXT q)) ctr 1 0xFFFF

/-- WATERMARK_CROSSING: what a push that raised the level from `old` does to the watermark fields (R463). -/
def Dev.watermark (d : Dev) (q old new : Nat) : Dev :=
  let d := d.put (R.QUE_STAT_WM_MAX q) (max new (d.get (R.QUE_STAT_WM_MAX q)))
  let wm := d.get (R.QUE_DESC_WM_LEVEL q)
  if wm = 0 || !(old < wm && wm ≤ new) then d
  else
    let d := d.put (R.QUE_STAT_WM_CROSSINGS q) (min 65535 (d.get (R.QUE_STAT_WM_CROSSINGS q) + 1))
    if d.on (R.QUE_STAT_WM_HIT q) then d
    else
      let d := (d.put (R.QUE_STAT_WM_HIT q) 1).bump C.QUE_WM_NOTICES
      if d.on (R.QUE_DESC_EVENT_EN q) then d.notice q (d.get (R.QUE_DESC_EVENT_CTR q)) else d

/-- An entry appended (Table 12.6, last row) by a push that found the queue at level `old`; its item's end makes it visible (R456, R461). -/
def Dev.append (d : Dev) (q : Nat) (x : Queue) (old : Nat) (data : List Byte) (soi eoi : Bool) : Dev :=
  let entries := x.entries ++ [⟨padTo 64 data, soi, eoi, none⟩]
  let first := if x.visible = 0 && eoi then d.ns else x.firstVisibleNs
  let x := { x with entries := entries, visible := if eoi then entries.length else x.visible, firstVisibleNs := first }
  let (d, x) := Dev.settle q 0xFFFF (entries.length + 64) d x
  let d := d.setQue q x (!eoi)
  let d := if soi then d.put (R.QUE_STAT_DISCARDING q) 0 else d
  let d := d.watermark q old entries.length
  if eoi then
    let d := d.bump (C.QUE_ITEMS_IN q)
    if d.on (R.QUE_DESC_ITEM_NOTICE q) then d.notice q (d.get (R.QUE_DESC_NOTICE_CTR q)) else d
  else d

/-- A push by Table 12.6, first row that applies; whether it was taken, none when it must wait. -/
def Dev.push (d : Dev) (q engine : Nat) (data : List Byte) (soi eoi blocking : Bool) : Dev × Option Bool :=
  let x := { d.queue q with pusher := engine }
  let open_ := d.itemOpen q
  let d := d.setQue q x open_
  if d.faulted (d.get (R.QUE_DESC_CONTEXT q)) then (d.bump C.QUE_DROPPED_FAULTED, some true)
  else if d.on (R.QUE_STAT_DISCARDING q) && !soi then (d.bump C.QUE_DISCARDED_ENTRIES, some true)
  else if soi && open_ then ((d.bump (C.QUE_TORN_ITEMS q)).append q (x.cut x.visible) x.entries.length data soi eoi, some true)
  else if !soi && !open_ then (d.bump C.QUE_DISCARDED_ENTRIES, some true)
  else if !soi && 32 ≤ x.entries.length - x.visible then
    (((d.setQue q (x.cut x.visible) false).put (R.QUE_STAT_DISCARDING q) 1).bump C.QUE_ITEM_TOO_LONG, some true)
  else if d.queueCap q ≤ x.entries.length then
    if blocking then (d, none) else (d.bump C.QUE_PUSH_REFUSED, some false)
  else (d.append q x x.entries.length data soi eoi, some true)

/-- Producers that wait for room in a queue go on, in the order in which they blocked, as room allows (R457). -/
def Dev.wakePushers (q : Nat) : Nat → Dev → Dev
  | 0, d => d
  | k + 1, d =>
    match takeFirst (fun (w : Wait) => match w.on with | .push r _ _ _ => r = q | _ => false) d.sync.waits with
    | some (w, rest) =>
      match w.on with
      | .push _ data soi eoi =>
        match d.push q w.engine data soi eoi true with
        | (d, some ok) =>
          let keep := match takeFirst (fun v => v = w) d.sync.waits with | some (_, l) => l | none => rest
          Dev.wakePushers q k ((d.setWaits keep).answer w.engine (.pushed ok))
        | (_, none) => d
      | _ => d
    | none => d

/-- QUEUE_PUSH (R457) on a queue in use. -/
def Dev.queuePush (d : Dev) (p : PushReq) : Dev :=
  let q := p.queue.val
  if !d.on (R.QUE_DESC_ENABLE q) then d
  else
    match d.push q p.engine.toNat p.entry p.soi p.eoi p.blocking with
    | (d, some ok) => d.answer p.engine.toNat (.pushed ok)
    | (d, none) => d.block (.push q p.entry p.soi p.eoi) (d.get (R.QUE_DESC_CONTEXT q)) p.engine.toNat

/-- A read without a visible entry: the entry last read again, or zeros (R459); the queue has been read (R462). -/
def Dev.emptyRead (d : Dev) (q engine : Nat) (x : Queue) : Dev :=
  let d := d.setQue q { x with lastReadNs := d.ns, timedOut := false } (d.itemOpen q)
  let d := (d.put (R.QUE_STAT_UNDERRUN q) 1).bump (C.QUE_UNDERRUNS q)
  d.answer engine (.entry (x.lastRead.getD (zeros 64)) false false)

/-- QUEUE_READ (R458, R459). -/
def Dev.queueRead (d : Dev) (q engine : Nat) : Dev :=
  let x := d.queue q
  match x.entries with
  | e :: rest =>
    if x.visible = 0 then d.emptyRead q engine x
    else
      let open_ := d.itemOpen q
      let mid := if e.eoi then 0 else if e.soi then 1 else d.get (R.QUE_STAT_CONS_MID_ITEM q)
      let d := (d.put (R.QUE_STAT_CONS_MID_ITEM q) mid).bump (C.QUE_ITEMS_OUT q) (b2n e.eoi)
      let x := { x with entries := rest, visible := x.visible - 1, headN := x.headN - 1, lastRead := some e.data,
                        lastReadNs := d.ns, timedOut := false }
      let (d, x) := Dev.settle q engine 64 d x
      let d := (d.setQue q x open_).answer engine (.entry e.data e.soi e.eoi)
      Dev.wakePushers q d.sync.waits.length d
  | [] => d.emptyRead q engine x

/-- QUEUE_TIMEOUT (R462). -/
def Dev.queueTimeout (d : Dev) (q : Nat) : Dev :=
  let x := d.queue q
  let limit := d.get (R.QUE_DESC_TIMEOUT_NS q)
  if limit = 0 || x.visible = 0 || x.timedOut then d
  else
    let d := d.advance (max x.lastReadNs x.firstVisibleNs + limit)
    let d := (d.setQue q { x with timedOut := true } (d.itemOpen q)).put (R.QUE_STAT_TIMEOUT_HIT q) 1
    let d := d.bump C.QUE_TIMEOUT_NOTICES
    if d.on (R.QUE_DESC_EVENT_EN q) then d.notice q (d.get (R.QUE_DESC_EVENT_CTR q)) else d

/-- CLEAR_NOTICE (R463). -/
def Dev.clearNotice (d : Dev) (q : Nat) : Dev :=
  ((d.put (R.QUE_STAT_WM_HIT q) 0).put (R.QUE_STAT_WM_CROSSINGS q) 0).put (R.QUE_STAT_WM_MAX q) (d.queue q).entries.length

/-- The number of entries at the front that belong to an item the consumer is inside (R465). -/
def restOfItem : List QEntry → Nat
  | [] => 0
  | e :: es => if e.eoi then 1 else restOfItem es + 1

/-- A flush takes effect (R465, R466). -/
def Dev.flushNow (d : Dev) (q : Nat) : Dev :=
  let x := d.queue q
  let keep := if d.on (R.QUE_STAT_CONS_MID_ITEM q) then min x.visible (restOfItem x.entries) else 0
  let items := ((x.entries.take x.visible).drop keep).countP fun e => e.eoi
  let open_ := d.itemOpen q
  let d := if open_ then (d.bump (C.QUE_TORN_ITEMS q)).put (R.QUE_STAT_DISCARDING q) 1 else d
  let d := ((d.bump C.QUE_FLUSHES).bump C.QUE_FLUSHED_ITEMS items).put (R.QUE_STAT_FLUSH_PENDING q) 0
  let x := { x.cut keep with flushTicks := 0 }
  let d := d.setQue q x false
  let d :=
    if d.on (R.QUE_DESC_ITEM_NOTICE q) then
      match d.physCtr (d.get (R.QUE_DESC_CONTEXT q)) (d.get (R.QUE_DESC_NOTICE_CTR q)) with
      | some p => d.setCtr p { d.ctr p with value := (d.ctr p).value - items }
      | none => d
    else d
  Dev.wakePushers q d.sync.waits.length d

/-- FLUSH (R465, R467): at once under Native semantics, else pending for a packet boundary. -/
def Dev.flush (d : Dev) (q : Nat) : Dev :=
  if d.on R.TKP_MODE_FLUSH_COMPAT then
    if d.on (R.QUE_STAT_FLUSH_PENDING q) then d
    else (d.setQue q { d.queue q with flushTicks := 0 } (d.itemOpen q)).put (R.QUE_STAT_FLUSH_PENDING q) 1
  else d.flushNow q

/-- PACKET_BOUNDARY_FLUSH (R467): the pending flush takes effect where no item is open. -/
def Dev.packetBoundaryFlush (d : Dev) (q : Nat) : Dev :=
  if d.on (R.QUE_STAT_FLUSH_PENDING q) && !d.itemOpen q then d.flushNow q else d

/-- FLUSH_FORCED (R467): four boundaries have passed. -/
def Dev.flushForced (d : Dev) (q : Nat) : Dev :=
  if d.on (R.QUE_STAT_FLUSH_PENDING q) && 4 ≤ (d.queue q).flushTicks then (d.bump C.QUE_FLUSH_FORCED).flushNow q else d

/-! ### Restart (R453) -/

/-- A write of `SYN_CTX_CTL[c].RESTART`; its status. -/
def Dev.restartWrite (d : Dev) (c value : Nat) : Dev × Nat :=
  if value % 2 = 0 then (d, St.ok)
  else if d.get (R.SYN_CTX_STAT_STATE c) = 2 then (d.put (R.SYN_CTX_STAT_STATE c) 3, St.ok)
  else (d, St.busy)

/-- CONTEXT_RESTART: at the boundary the objects of a context are reset, its queues flushed, its programs started (R453). -/
def Dev.contextRestart (d : Dev) (c : Nat) : Dev :=
  let pages := ((List.range 256).filter fun p => d.on (R.SYN_MAP_VALID c p)).map fun p => d.get (R.SYN_MAP_PAGE c p)
  let reset (e : Nat × Ctr) : Nat × Ctr := if pages.contains (e.1 / 256) then (e.1, { e.2 with value := e.2.init }) else e
  let ctrs := (d.sync.ctrs.map reset).filter fun e => e.2 != ctrDflt e.1
  let d := { d with sync := { d.sync with ctrs := ctrs } }
  let d := d.withdrawWaits fun w => w.context != c
  let d := d.each (List.range 256) fun d l => d.each (List.range 48) fun d s =>
    if d.on (R.SYN_PIN_ALLOCATED l s) && d.get (R.SYN_PIN_CONTEXT l s) = c then
      (d.put (R.SYN_PIN_SET l s) 0).put (R.SYN_PIN_WAITING l s) 0
    else d
  let d := d.each ((List.range 16).filter fun b => d.on (R.SYN_BAR_ALLOCATED b) && d.get (R.SYN_BAR_CONTEXT b) = c) fun d b =>
    d.setArrived b 0
  let d := d.each ((List.range 4096).filter fun q => d.on (R.QUE_DESC_ENABLE q) && d.get (R.QUE_DESC_CONTEXT q) = c) Dev.flushNow
  let d := (d.put (R.SYN_CTX_STAT_CAUSE c) 0).put (R.SYN_CTX_STAT_SNAP_COUNT c) 0
  let d := { d with plan := { d.plan with placed := d.plan.placed.map fun (m : Placed) => if m.context = c then { m with running := true } else m } }
  (d.put (R.SYN_CTX_STAT_STATE c) 1).bump C.SYN_CTX_RESTARTS

/-! ### The commands -/

/-- COUNTER_SIGNAL (R437). -/
def execCounterSignal (context : Fin 256) (v n : BitVec 16) (engine : EngineId) (s : State) :=
  s.clocked (·.regionStopped 20) fun d => d.signal context.val v.toNat n.toNat engine.toNat

/-- COUNTER_WAIT (R439). -/
def execCounterWait (context : Fin 256) (v n : BitVec 16) (engine : EngineId) (s : State) :=
  s.clocked (·.regionStopped 20) fun d => d.wait context.val v.toNat n.toNat engine.toNat

/-- TRY_TAKE (R438). -/
def execTryTake (context : Fin 256) (v n : BitVec 16) (engine : EngineId) (s : State) :=
  s.clocked (·.regionStopped 20) fun d => d.tryTake context.val v.toNat n.toNat engine.toNat

/-- COUNTER_READ (R436). -/
def execCounterRead (context : Fin 256) (v : BitVec 16) (engine : EngineId) (s : State) :=
  s.clocked (·.regionStopped 20) fun d => d.readCtr context.val v.toNat engine.toNat

/-- PIN_SET (R441). -/
def execPinSet (context core : Fin 256) (pin : Fin 48) (engine : EngineId) (s : State) :=
  s.clocked (·.regionStopped 20) fun d => d.pinSet context.val core.val pin.val engine.toNat

/-- PIN_CLEAR (R440). -/
def execPinClear (context core : Fin 256) (pin : Fin 48) (engine : EngineId) (s : State) :=
  s.clocked (·.regionStopped 20) fun d => d.pinClear context.val core.val pin.val engine.toNat

/-- PIN_WAIT (R440). -/
def execPinWait (context core : Fin 256) (pin : Fin 48) (engine : EngineId) (s : State) :=
  s.clocked (·.regionStopped 20) fun d => d.pinWait context.val core.val pin.val engine.toNat

/-- PIN_TEST (R440). -/
def execPinTest (context core : Fin 256) (pin : Fin 48) (engine : EngineId) (s : State) :=
  s.clocked (·.regionStopped 20) fun d => d.pinTest context.val core.val pin.val engine.toNat

/-- ARRIVE (R442). -/
def execArrive (network : Fin 16) (engine : EngineId) (s : State) := s.clocked (·.regionStopped 20) fun d => d.arrive network.val engine.toNat

/-- BOARD_BARRIER_HIGH (R444). -/
def execBoardBarrierHigh (s : State) := s.clocked (·.regionStopped 20) Dev.boardBarrierHigh

/-- WATCHDOG_FIRE (R448). -/
def execWatchdogFire (context : Fin 256) (s : State) := s.clocked (·.regionStopped 20) fun d => d.watchdogFire context.val

/-- QUEUE_PUSH (R457). -/
def execQueuePush (push : PushReq) (s : State) := s.clocked (·.regionStopped 20) fun d => d.queuePush push

/-- QUEUE_READ (R458). -/
def execQueueRead (queue : Fin 4096) (engine : EngineId) (s : State) := s.clocked (·.regionStopped 20) fun d => d.queueRead queue.val engine.toNat

/-- QUEUE_TIMEOUT (R462). -/
def execQueueTimeout (queue : Fin 4096) (s : State) := s.clocked (·.regionStopped 20) fun d => d.queueTimeout queue.val

/-- CLEAR_NOTICE (R463). -/
def execClearNotice (queue : Fin 4096) (s : State) := s.clocked (·.regionStopped 20) fun d => d.clearNotice queue.val

/-- FLUSH (R465). -/
def execFlush (queue : Fin 4096) (s : State) := s.clocked (·.regionStopped 20) fun d => d.flush queue.val

/-- PACKET_BOUNDARY_FLUSH (R467). -/
def execPacketBoundaryFlush (queue : Fin 4096) (s : State) := s.clocked (·.regionStopped 20) fun d => d.packetBoundaryFlush queue.val

/-- FLUSH_FORCED (R467). -/
def execFlushForced (queue : Fin 4096) (s : State) := s.clocked (·.regionStopped 20) fun d => d.flushForced queue.val

end Sys2Proof.Machine
end

