-- ==== Sys2Proof/Machine/Fabric.lean ====
section
/-! DEFINITION. The fabric (R486 to R508): Mirror links with their blocks, credits, replays and trainings, the Hall path,
remote operations at their source and at their destination, the order of releases. Multi-byte fields of blocks, operation
headers and Hall frames are sent under R2. -/

namespace Sys2Proof.Machine

/-! ### Links, pairs and paths -/

/-- A link. -/
def Dev.link (d : Dev) (l : Nat) : Link := d.fab.links.getD l Link.down

/-- A link changed. -/
def Dev.modLink (d : Dev) (l : Nat) (f : Link → Link) : Dev :=
  { d with fab := { d.fab with links := modifyNth l f d.fab.links } }

/-- Whether a link is up. -/
def Dev.linkUp (d : Dev) (l : Nat) : Bool := d.on (R.MIR_STAT_UP l)

/-- A pair of Hall devices before its first frame. -/
def HallPair.fresh (dev : Nat) : HallPair := { dev := dev, next := 1, unacked := [], waiting := [], ack := 0, beyond := [] }

/-- The Hall state of a pair (R500). -/
def Dev.hallPair (d : Dev) (dev : Nat) : HallPair :=
  match d.fab.hall.find? fun p => p.dev = dev with | some p => p | none => HallPair.fresh dev

/-- The Hall state of a pair replaced. -/
def Dev.setHall (d : Dev) (x : HallPair) : Dev :=
  let l := d.fab.hall
  let l := if l.any fun p => p.dev = x.dev then l.map fun p => if p.dev = x.dev then x else p else l ++ [x]
  { d with fab := { d.fab with hall := l } }

/-- The way an operation for a device takes (R487): a Mirror link, the Hall path (none inside), or no path. -/
def Dev.route (d : Dev) (dest : Nat) : Option (Option Nat) :=
  let b := dest % 8
  let l := d.get (R.MIR_ROUTE_LINK b)
  if dest / 8 = d.devId / 8 && d.on R.TKP_MODE_FABRIC_BOARD && d.on (R.MIR_ROUTE_VALID b) && d.linkUp l then some (some l)
  else if d.on R.TKP_MODE_FABRIC_HALL then some none
  else none

/-! ### Operation headers (Table 13.5) -/

/-- An operation as bytes. -/
def opBytes (opc flags len pseq tag target : Nat) (payload : List Byte) : List Byte :=
  beBytes 1 opc ++ beBytes 1 flags ++ beBytes 2 len ++ beBytes 2 pseq ++ beBytes 2 tag ++ beBytes 8 target ++ payload

/-- The payload length of the operation at the front of `bs`. -/
def payloadLen (bs : List Byte) : Nat :=
  let opc := beAt bs 0 1
  if opc = 0x01 || opc = 0x82 || opc = 0x84 then 0 else beAt bs 2 2

/-- The whole operations at the front of `bs`, and what is left. -/
def splitOps : Nat → List Byte → List (List Byte) × List Byte
  | 0, bs => ([], bs)
  | k + 1, bs =>
    let n := 16 + payloadLen bs
    if bs.length < 16 || bs.length < n then ([], bs)
    else
      let (ops, rest) := splitOps k (bs.drop n)
      (bs.take n :: ops, rest)

/-- The device an operation is for: bits [63:52] of its global address (R486). -/
def opDest (op : List Byte) : Nat := beAt op 8 8 / 2 ^ 52

/-! ### Alignment records (R530, R531) -/

/-- Whether requests with this code and number are recorded (R530). -/
def Dev.aligned (d : Dev) (opc pseq : Nat) : Bool :=
  let sh := d.get R.LPE_CFG_ALIGN_SHIFT
  d.on R.LPE_CFG_TRACE_EN && (opc = 0x06 || (sh < 16 && pseq % 2 ^ sh = 0))

/-- A fabric record: kind 8 (sent) or 9 (received). -/
def Dev.fabTrace (d : Dev) (kind flags source path opc peer pseq wrap : Nat) : Dev :=
  if d.aligned opc pseq then
    d.trace [record kind flags source d.ns (leBytes 1 path ++ leBytes 1 opc ++ leBytes 2 peer ++ leBytes 2 pseq ++ leBytes 2 wrap)]
  else d

/-- The `FAB_TX` of a block or frame whose bytes start a request of this device. -/
def Dev.fabTx (d : Dev) (path : Nat) (w : WaitBlock) : Dev :=
  match w.mark with
  | some (engine, wrap) =>
    d.fabTrace 8 0 engine path (beAt w.bytes 0 1) (opDest w.bytes) (beAt w.bytes 4 2) wrap
  | none => d

/-! ### Mirror blocks (R490 to R493, Table 13.3) -/

/-- A block of a link with `TYPE`, `CLASS`, `SEQ`, the credits it returns and operation bytes. -/
def Dev.mkBlock (d : Dev) (l type cls seq : Nat) (credits : Nat × Nat) (ops : List Byte) : List Byte :=
  let ack := (d.link l).rxNext + 2 ^ 24 - 1
  let head := beBytes 1 (type + 16 * cls) ++ [0] ++ beBytes 3 seq ++ beBytes 3 ack ++ beBytes 1 credits.1 ++ beBytes 1 credits.2
    ++ beBytes 2 ops.length
  let body := padTo 240 ops
  head ++ beBytes 4 (crc32c (head ++ zeros 4 ++ body)).toNat ++ body

/-- A block leaves on a link. -/
def Dev.putBlock (d : Dev) (l : Nat) (bytes : List Byte) : Dev :=
  { d with port := { d.port with sent := d.port.sent ++ [Sent.block l bytes] } }

/-- An idle block on a link that is up: it repeats the last `SEQ`, acknowledges, and returns credits. Those that tell the peer nothing new
are not listed among the blocks sent (R490; log entry 61, DESIGN CHOICE). -/
def Dev.idleBlock (d : Dev) (l : Nat) (credits : Nat × Nat) : Dev :=
  if d.linkUp l then d.putBlock l (d.mkBlock l 0 0 (d.link l).txSeq credits []) else d

/-- The waiting blocks of a class that fit in `room` bytes, in the order of their class, and the others (R501). -/
def packMore (cls : Nat) : Nat → List WaitBlock → List WaitBlock × List WaitBlock
  | _, [] => ([], [])
  | room, w :: ws =>
    if w.cls != cls then
      let (taken, left) := packMore cls room ws
      (taken, w :: left)
    else if w.bytes.length ≤ room then
      let (taken, left) := packMore cls (room - w.bytes.length) ws
      (w :: taken, left)
    else ([], w :: ws)

/-- Credits held for a class. -/
def Link.credit (x : Link) (cls : Nat) : Nat := if cls = 0 then x.creditReq else x.creditRsp

/-- Waiting operations leave while the link is up and holds a credit of their class, those that fit together packed into one block (R491,
R501). -/
def Dev.linkFlush (l : Nat) : Nat → Dev → Dev
  | 0, d => d
  | k + 1, d =>
    let x := d.link l
    if !d.linkUp l then d
    else
      match takeFirst (fun w => x.credit w.cls != 0) x.waiting with
      | none => d
      | some (w, others) =>
        let (more, rest) := packMore w.cls (240 - w.bytes.length) others
        let seq := (x.txSeq + 1) % 2 ^ 24
        let b := d.mkBlock l 1 w.cls seq (0, 0) ((w :: more).map fun v => v.bytes).flatten
        let kept := x.unacked ++ [SentBlock.mk seq w.cls b]
        let d := d.modLink l fun x =>
          { x with waiting := rest, txSeq := seq, unacked := kept.drop (kept.length - 256),
                   creditReq := x.creditReq - b2n (w.cls = 0), creditRsp := x.creditRsp - b2n (w.cls != 0) }
        Dev.linkFlush l k (((d.putBlock l b).bump (C.MIR_BLOCKS_TX l)).each (w :: more) fun d v => d.fabTx l v)

/-- Bytes cut into pieces of at most `n`. -/
def pieces (n : Nat) : Nat → List Byte → List (List Byte)
  | 0, _ => []
  | k + 1, bs => if bs.length ≤ n then [bs] else bs.take n :: pieces n k (bs.drop n)

/-- An operation put on a link, a long one continued in the next blocks of its class (R501). -/
def Dev.linkSend (d : Dev) (l cls : Nat) (op : List Byte) (mark : Option (Nat × Nat)) : Dev :=
  let ps := pieces 240 (op.length / 240 + 1) op
  let ws := (List.range ps.length).zip ps |>.map fun (p : Nat × List Byte) => WaitBlock.mk cls p.2 (if p.1 = 0 then mark else none)
  let d := d.modLink l fun x => { x with waiting := x.waiting ++ ws }
  Dev.linkFlush l (d.link l).waiting.length d

/-! ### Hall frames (R498 to R500, Table 13.4) -/

/-- An address of the Hall path. -/
def Dev.hallMac (d : Dev) (dev : Nat) : List Byte := beBytes 3 (d.get R.MEM_HALL_CFG_HALL_PREFIX) ++ [0] ++ beBytes 2 dev

/-- `SACK` of a pair. -/
def HallPair.sack (x : HallPair) : Nat :=
  (List.range 32).foldl (fun v i => v + b2n (x.beyond.contains ((x.ack + 1 + i) % 2 ^ 32)) * 2 ^ i) 0

/-- A Hall frame to a device. -/
def Dev.hallFrame (d : Dev) (dest seq : Nat) (ops : List Byte) : List Byte :=
  let x := d.hallPair dest
  d.hallMac dest ++ d.hallMac d.devId ++ d.ownTag ++ beBytes 2 0x88B6 ++ [1, 0] ++ beBytes 2 d.devId ++ beBytes 2 dest
    ++ beBytes 4 seq ++ beBytes 4 x.ack ++ beBytes 4 x.sack ++ beBytes 2 ops.length ++ [0, 0] ++ ops

/-- A Hall frame sent on `HALL_SUBPORT`. -/
def Dev.hallPut (d : Dev) (dest seq : Nat) (ops : List Byte) : Dev :=
  d.sendOwn (d.get R.PORT_CFG_HALL_SUBPORT) ⟨d.hallFrame dest seq ops, .plain⟩

/-- Bytes of operations that a Hall frame holds (R499, Table 13.4). -/
def Dev.hallRoom (d : Dev) : Nat := d.get R.MEM_HALL_CFG_HALL_MTU - (40 + d.ownTag.length)

/-- Waiting operations leave while fewer than 64 frames of the pair are unacknowledged, those that fit together packed into one frame (R500,
R501). -/
def Dev.hallFlush (dest : Nat) : Nat → Dev → Dev
  | 0, d => d
  | k + 1, d =>
    let x := d.hallPair dest
    match x.waiting with
    | [] => d
    | w :: others =>
      if 64 ≤ x.unacked.length then d
      else
        let (more, rest) := packMore w.cls (d.hallRoom - w.bytes.length) others
        let ops := ((w :: more).map fun v => v.bytes).flatten
        let d := d.setHall { x with waiting := rest, next := (x.next + 1) % 2 ^ 32,
                                    unacked := x.unacked ++ [HallSent.mk x.next ops d.clockNs 0] }
        Dev.hallFlush dest k ((d.hallPut dest x.next ops).each (w :: more) fun d v => d.fabTx 4 v)

/-- Whether an operation fits a Hall frame (R499). -/
def Dev.hallFits (d : Dev) (op : List Byte) : Bool := 40 + d.ownTag.length + op.length ≤ d.get R.MEM_HALL_CFG_HALL_MTU

/-- An operation put on the Hall path. -/
def Dev.hallSend (d : Dev) (dest : Nat) (op : List Byte) (mark : Option (Nat × Nat)) : Dev :=
  if d.hallFits op then
    let x := d.hallPair dest
    let d := d.setHall { x with waiting := x.waiting ++ [WaitBlock.mk 0 op mark] }
    Dev.hallFlush dest (d.hallPair dest).waiting.length d
  else d

/-! ### The source end (R502, R503, R507) -/

/-- Whether an operation code is that of a write (R504). -/
def isWrite (opc : Nat) : Bool := 2 ≤ opc && opc ≤ 5

/-- The source end of a pair path. -/
def Dev.pairTx (d : Dev) (dest : Nat) (hall : Bool) : PairTx :=
  match d.fab.pairTx.find? fun p => p.dest = dest && p.hall = hall with | some p => p | none => ⟨dest, hall, 0, 0⟩

/-- The source end of a pair path replaced. -/
def Dev.setPairTx (d : Dev) (x : PairTx) : Dev :=
  let same (p : PairTx) : Bool := p.dest = x.dest && p.hall = x.hall
  let l := d.fab.pairTx
  { d with fab := { d.fab with pairTx := if l.any same then l.map fun p => if same p then x else p else l ++ [x] } }

/-- A request leaves: it takes the next number of its pair path and goes by it. A held `FENCE_ALL` signal issued after it, those from place
`later` of the held ones on, waits for it too where it is a write (R507). -/
def Dev.leave (d : Dev) (h : HeldOp) (later : Nat) (link : Option Nat) : Dev :=
  let hall := link.isNone
  let p := d.pairTx h.dest hall
  let next := (p.next + 1) % 2 ^ 16
  let d := d.setPairTx { p with next := next, wraps := p.wraps + b2n (next = 0) }
  let op := opBytes h.opc (b2n h.release + 2 * b2n h.fence) h.len p.next p.next (h.dest * 2 ^ 52 + h.target % 2 ^ 52) h.payload
  let out : OutOp := { dest := h.dest, hall := hall, opc := h.opc, pseq := p.next, context := h.context, engine := h.engine,
                       target := h.target, len := h.len, issuedNs := d.clockNs }
  let waits (x : HeldOp) : HeldOp :=
    if x.fence && x.context = h.context && isWrite h.opc then { x with waitsFor := x.waitsFor ++ [(h.dest, hall, p.next)] } else x
  let d := { d with fab := { d.fab with out := d.fab.out ++ [out], held := d.fab.held.take later ++ (d.fab.held.drop later).map waits } }
  let d := d.bump C.MEM_RMT_OPS_TX
  match link with
  | some l => d.linkSend l 0 op (some (h.engine, p.wraps))
  | none => d.hallSend h.dest op (some (h.engine, p.wraps))

/-- An answer as the requester sees it. -/
def Dev.rmtAnswer (d : Dev) (engine tag : Nat) (data : Option (List Byte)) : Dev :=
  { d with fab := { d.fab with answers := d.fab.answers ++ [RmtAnswer.mk engine tag data] } }

/-- A remote load returns poison at the requester: such a read is counted (R480, R487, Table 13.7). -/
def Dev.rmtPoison (d : Dev) (engine tag : Nat) : Dev := (d.bump C.MEM_POISON_READS).rmtAnswer engine tag none

/-- A signed comparison of 64-bit words. -/
def signedMax (a b : Nat) : Nat := if toSigned 64 a < toSigned 64 b then b else a

/-- The new value of the word of an atomic (R501), and whether it is written. -/
def atomicNew (opc old : Nat) (payload : List Byte) : Nat :=
  let x := beAt payload 0 8
  if opc = 0x03 then (old + x) % 2 ^ 64
  else if opc = 0x04 then (if old = x then beAt payload 8 8 else old)
  else signedMax old x

/-- An atomic on local memory, one read and one write of its granule: the old value, none when the read is poison. -/
def Dev.atomic (d : Dev) (opc addr : Nat) (payload : List Byte) (bad : List MemEvent) : Dev × Option Nat :=
  match d.fetch addr 8 bad with
  | (d, some bs) =>
    let old := leNat bs
    let new := atomicNew opc old payload
    (if opc = 0x04 && old != beAt payload 0 8 then d else d.store addr (leBytes 8 new), some old)
  | (d, none) => (d, none)

/-- An operation addressed to the device's own ID: a local access (R487). -/
def Dev.localOp (d : Dev) (h : HeldOp) : Dev :=
  let a := h.target % 2 ^ 52
  match h.opc with
  | 0x01 => let (d, x) := d.fetch a h.len []
            d.rmtAnswer h.engine 0 x
  | 0x02 => d.store a h.payload
  | 0x06 => d.signal (a / 2 ^ 16 % 256) (a % 2 ^ 16) (beAt h.payload 0 8 % 2 ^ 16) h.engine h.context
  | opc => let (d, x) := d.atomic opc a h.payload []
           d.rmtAnswer h.engine 0 (x.map (beBytes 8))

/-- The bytes of a request, to judge whether a Hall frame can carry it. -/
def Dev.tooLong (d : Dev) (h : HeldOp) : Bool := !d.hallFits (zeros (16 + h.payload.length))

/-- Requests of this path that have no answer yet. -/
def Dev.outstanding (d : Dev) (dest : Nat) (hall : Bool) : Nat :=
  (d.fab.out.filter fun o => o.dest = dest && o.hall = hall).length

/-- A request goes by its path, is carried out here, or fails at once (R487); none when its path has no free number (R503). -/
def Dev.tryLeave (d : Dev) (h : HeldOp) (later : Nat) : Option Dev :=
  let fail : Dev := d.bump C.MEM_NO_ROUTE
  let fail := if h.opc = 0x01 then fail.rmtPoison h.engine 0
    else if 0x03 ≤ h.opc && h.opc ≤ 0x05 then fail.rmtAnswer h.engine 0 none else fail
  if h.dest = d.devId then some (d.localOp h) else
  match d.route h.dest with
  | none => some fail
  | some link =>
    if link.isNone && d.tooLong h then some fail
    else if 32768 ≤ d.outstanding h.dest link.isNone then none
    else some (d.leave h later link)

/-- Whether a held request may leave: a FENCE_ALL signal when what it waits for is acknowledged and no earlier held write of
its context stands before it; another when no earlier held one of its destination stands before it. -/
def HeldOp.ready (before : List HeldOp) (h : HeldOp) : Bool :=
  if h.fence then h.waitsFor.isEmpty && !before.any fun b => b.context = h.context && isWrite b.opc
  else !before.any fun b => !b.fence && b.dest = h.dest

/-- The first held request that leaves now. -/
def Dev.heldStep (d : Dev) : List HeldOp → List HeldOp → Option Dev
  | _, [] => none
  | before, h :: rest =>
    let go : Option Dev :=
      if h.ready before then
        ({ d with fab := { d.fab with held := before ++ rest } }).tryLeave (if h.fence then { h with release := true } else h)
          before.length
      else none
    match go with
    | some d' => some d'
    | none => d.heldStep (before ++ [h]) rest

/-- Held requests leave as they become ready (R503, R507). -/
def Dev.wakeHeld : Nat → Dev → Dev
  | 0, d => d
  | k + 1, d => match d.heldStep [] d.fab.held with | some d' => Dev.wakeHeld k d' | none => d

/-- REMOTE_REQUEST_ISSUE (R487, R503, R507): the operation codes 1 to 6 of Table 13.6. -/
def Dev.issue (d : Dev) (r : RemoteReq) : Dev :=
  let opc := r.opc.toNat
  let dest := r.dest.toNat
  if opc = 0 || 6 < opc then d
  else
    let fence := opc = 0x06 && r.fenceAll
    let mine := d.fab.out.filter fun o => o.context = r.context.val && isWrite o.opc
    let h : HeldOp := { opc := opc, dest := dest, context := r.context.val, engine := r.engine.toNat, release := r.release,
                        fence := fence, len := if opc = 0x01 then r.len else r.payload.length, target := r.target.toNat,
                        payload := r.payload, waitsFor := if fence then mine.map fun o => (o.dest, o.hall, o.pseq) else [] }
    let hold (d : Dev) : Dev := { d with fab := { d.fab with held := d.fab.held ++ [h] } }
    if dest = d.devId && !fence then d.localOp h
    else if !h.ready d.fab.held then hold (if fence then d.bump C.MEM_FENCE_WAITS else d)
    else match d.tryLeave (if fence then { h with release := true } else h) d.fab.held.length with
      | some d' => d'
      | none => hold d

/-- A request of this device is answered: it and what waited for it leave. -/
def Dev.answered (d : Dev) (o : OutOp) : Dev :=
  let id := (o.dest, o.hall, o.pseq)
  let rest := match takeFirst (fun x => x = o) d.fab.out with | some (_, l) => l | none => d.fab.out
  let clear (h : HeldOp) : HeldOp := { h with waitsFor := h.waitsFor.filter fun w => w != id }
  let d := { d with fab := { d.fab with out := rest, held := d.fab.held.map clear } }
  Dev.wakeHeld d.fab.held.length d

/-- The effect of a refusal at the requester (Table 13.7). -/
def Dev.refusedBy (d : Dev) (o : OutOp) (code : Nat) : Dev :=
  let fault (d : Dev) (cause : Nat) : Dev := d.contextFault o.context cause none o.engine
  let d :=
    if code = 4 then fault d 4
    else if code = 5 then fault d 2
    else if o.opc = 0x01 then d.rmtPoison o.engine o.pseq
    else if isWrite o.opc then fault d 6
    else d
  d.answered o

/-! ### The destination end (R504 to R506) -/

/-- The destination end of a pair path. -/
def Dev.pairRx (d : Dev) (src : Nat) (hall : Bool) (link : Nat) : PairRx :=
  match d.fab.pairRx.find? fun p => p.src = src && p.hall = hall with
  | some p => p
  | none => { src := src, hall := hall, link := link, mark := 0, seen := [], wraps := 0, lastPseq := 0, releases := [] }

/-- The destination end of a pair path replaced. -/
def Dev.setPairRx (d : Dev) (x : PairRx) : Dev :=
  let same (p : PairRx) : Bool := p.src = x.src && p.hall = x.hall
  let l := d.fab.pairRx
  { d with fab := { d.fab with pairRx := if l.any same then l.map fun p => if same p then x else p else l ++ [x] } }

/-- An answer goes back to the source of a request. -/
def Dev.sendAnswer (d : Dev) (src : Nat) (hall : Bool) (link opc code pseq tag : Nat) (payload : List Byte) : Dev :=
  let op := opBytes opc (16 * code) payload.length pseq tag (src * 2 ^ 52) payload
  if hall then d.hallSend src op none else d.linkSend link 1 op none

/-- The commit mark advanced over numbers received and not open (R505). -/
def PairRx.settle : Nat → PairRx → PairRx
  | 0, x => x
  | k + 1, x =>
    match takeFirst (fun e => e.pseq = x.mark && !e.open_) x.seen with
    | some (_, rest) => PairRx.settle k { x with seen := rest, mark := (x.mark + 1) % 2 ^ 16 }
    | none => x

/-- Whether a mark has reached a number. -/
def reached (mark s : Nat) : Bool := (mark + 2 ^ 16 - s) % 2 ^ 16 < 2 ^ 15

/-- A remote signal applied as a local one (R501), one that meets a host write of the counter only counted (R468); or refused by Table 13.7
codes 4 and 5, which fault no context here. -/
def Dev.remoteSignal (d : Dev) (src : Nat) (hall : Bool) (link pseq tag c v n : Nat) : Dev :=
  match d.physCtr c v with
  | none => d.sendAnswer src hall link 0x84 4 pseq tag []
  | some p =>
    let (meets, d) := (d.bump C.SYN_SIGNALS).meetsWrite p
    let x := d.ctr p
    if meets then d.sendAnswer src hall link 0x82 0 pseq tag []
    else if 65535 < x.value + n then (d.bump C.SYN_OVERFLOW).sendAnswer src hall link 0x84 5 pseq tag []
    else
      let d := (d.setCtr p { x with value := x.value + n, signaller := 0x7000 + src }).releaseOn p
      d.sendAnswer src hall link 0x82 0 pseq tag []

/-- A pair path settled: its mark advances and the releases it reaches are applied (R505). -/
def Dev.commitMark (d : Dev) (x : PairRx) : Dev :=
  let x := PairRx.settle x.seen.length x
  let due := x.releases.filter fun r => reached x.mark r.pseq
  let d := d.setPairRx { x with releases := x.releases.filter fun r => !reached x.mark r.pseq }
  d.each due fun d r => d.remoteSignal x.src x.hall x.link r.pseq r.tag r.context r.counter r.amount

/-- A write of a pair path is committed or refused: it holds the mark back no more. -/
def Dev.writeDone (d : Dev) (src : Nat) (hall : Bool) (link pseq : Nat) : Dev :=
  let x := d.pairRx src hall link
  d.commitMark { x with seen := x.seen.map fun e => if e.pseq = pseq then { e with open_ := false } else e }

/-- The wrap count of a received number, and the path's count after it (R531). -/
def PairRx.count (x : PairRx) (pseq : Nat) : Nat × PairRx :=
  if beforeMod 16 x.lastPseq pseq then
    let w := x.wraps + b2n (pseq < x.lastPseq)
    (w, { x with wraps := w, lastPseq := pseq })
  else (x.wraps - b2n (x.lastPseq < pseq), x)

/-- A request or an answer for this device taken from a block or frame: it waits in its link or pair for the command that
carries it out. -/
def Dev.takeOp (d : Dev) (src : Nat) (hall : Bool) (link : Nat) (resent : Bool) (frees : Nat) (op : List Byte) : Dev :=
  let opc := beAt op 0 1
  let pseq := beAt op 4 2
  let x : InOp := { src := src, hall := hall, link := link, opc := opc, flags := beAt op 1 1, len := beAt op 2 2, pseq := pseq,
                    tag := beAt op 6 2, target := beAt op 8 8 % 2 ^ 52, payload := op.drop 16, frees := frees }
  let d := { d with fab := { d.fab with inOps := d.fab.inOps ++ [x] } }
  if opc < 0x80 then
    let (wrap, p) := (d.pairRx src hall link).count pseq
    let d := (d.bump C.MEM_RMT_OPS_RX).fabTrace 9 (8 * b2n resent) 0xFFFF (if hall then 4 else link) opc src pseq wrap
    d.commitMark { p with link := link, seen := p.seen ++ [PairSeen.mk pseq (isWrite opc)] }
  else d

/-- Blocks of a link's receive buffer are free again: their credits go back to the peer, in an idle block (R490, R491). -/
def Dev.freeBlocks (d : Dev) (link opc n : Nat) : Dev :=
  if n = 0 then d
  else
    let d := d.idleBlock link (if opc < 0x80 then (n, 0) else (0, n))
    d.modLink link fun x => if opc < 0x80 then { x with peerReq := min 64 (x.peerReq + n) } else { x with peerRsp := min 64 (x.peerRsp + n) }

/-- The oldest received operation that a test takes. -/
def Dev.takeIn (d : Dev) (p : InOp → Bool) : Option (InOp × Dev) :=
  match takeFirst p d.fab.inOps with
  | some (x, rest) =>
    let d := { d with fab := { d.fab with inOps := rest } }
    some (x, if x.hall then d else d.freeBlocks x.link x.opc x.frees)
  | none => none

/-- A refusal goes back (R502). -/
def Dev.nackOp (d : Dev) (x : InOp) (code : Nat) : Dev :=
  let d := d.sendAnswer x.src x.hall x.link 0x84 code x.pseq x.tag []
  if isWrite x.opc then d.writeDone x.src x.hall x.link x.pseq else d

/-- Whether two spans of bytes share a granule. -/
def overlap (a n b m : Nat) : Bool := (granules a n).any fun g => (granules b m).contains g

/-- Whether a received LOAD must wait: an earlier number of its path has not come, or an earlier write to a granule it overlaps
is not committed (R504). -/
def Dev.loadWaits (d : Dev) (x : InOp) : Bool :=
  let p := d.pairRx x.src x.hall x.link
  let same (src : Nat) (hall : Bool) (s : Nat) : Bool := src = x.src && hall = x.hall && beforeMod 16 s x.pseq
  (List.range ((x.pseq + 2 ^ 16 - p.mark) % 2 ^ 16 % 2 ^ 15)).any
      (fun i => !p.seen.any fun e => e.pseq = (p.mark + i) % 2 ^ 16)
    || d.fab.openWrites.any (fun w => same w.src w.hall w.pseq && overlap w.addr w.data.length x.target x.len)
    || d.fab.inOps.any fun o => same o.src o.hall o.pseq && isWrite o.opc && overlap o.target (max 8 o.payload.length) x.target x.len

/-- LOAD at the destination (R504). -/
def Dev.loadOp (d : Dev) (bad : List MemEvent) : Dev :=
  match d.takeIn fun x => x.opc = 0x01 && !d.loadWaits x with
  | none => d
  | some (x, d) =>
    if !d.on R.MEM_CFG_REMOTE_EN then d.nackOp x 3
    else if !d.mapped x.target x.len then (d.bump C.MEM_UNMAPPED).nackOp x 1
    else
      match d.fetch x.target x.len bad with
      | (d, some bs) => d.sendAnswer x.src x.hall x.link 0x81 0 x.pseq x.tag bs
      | (d, none) => d.nackOp x 2

/-- STORE at the destination: taken, and open until it commits. -/
def Dev.storeOp (d : Dev) : Dev :=
  match d.takeIn fun x => x.opc = 0x02 with
  | none => d
  | some (x, d) =>
    if !d.on R.MEM_CFG_REMOTE_EN then d.nackOp x 3
    else if !d.mapped x.target x.payload.length then (d.bump C.MEM_UNMAPPED).nackOp x 1
    else
      let w : OpenWrite := { src := x.src, hall := x.hall, link := x.link, pseq := x.pseq, tag := x.tag, addr := x.target,
                             data := x.payload }
      { d with fab := { d.fab with openWrites := d.fab.openWrites ++ [w] } }

/-- WRITE_COMMIT: the write is in memory, acknowledged, and holds the mark back no more (R504, R505). -/
def Dev.writeCommit (d : Dev) (src : Nat) (hall : Bool) (pseq : Nat) (bad : List MemEvent) : Dev :=
  match takeFirst (fun w => w.src = src && w.hall = hall && w.pseq = pseq) d.fab.openWrites with
  | none => d
  | some (w, rest) =>
    let d := { d with fab := { d.fab with openWrites := rest } }
    let d := d.store w.addr w.data bad
    (d.sendAnswer src hall w.link 0x82 0 pseq w.tag []).writeDone src hall w.link pseq

/-- An atomic at the destination, carried out and committed at once (R501). -/
def Dev.atomicOp (d : Dev) (opc : Nat) (bad : List MemEvent) : Dev :=
  match d.takeIn fun x => x.opc = opc with
  | none => d
  | some (x, d) =>
    if !d.on R.MEM_CFG_REMOTE_EN then d.nackOp x 3
    else if !d.mapped x.target 8 then (d.bump C.MEM_UNMAPPED).nackOp x 1
    else
      match d.atomic opc x.target x.payload bad with
      | (d, some old) => (d.sendAnswer x.src x.hall x.link 0x83 0 x.pseq x.tag (beBytes 8 old)).writeDone x.src x.hall x.link x.pseq
      | (d, none) => d.nackOp x 2

/-- Releases that a parking store holds: of a link, or of the Hall path (R505). -/
def Dev.parkedIn (d : Dev) (hall : Bool) (link : Nat) : Nat :=
  d.fab.pairRx.foldl (fun n p =>
    if p.hall = hall && (hall || p.link = link) then
      n + (p.releases.filter fun r => 64 ≤ (r.pseq + 2 ^ 16 - p.mark) % 2 ^ 16).length
    else n) 0

/-- SIGNAL at the destination (R504 to R506). -/
def Dev.signalOp (d : Dev) : Dev :=
  match d.takeIn fun x => x.opc = 0x06 with
  | none => d
  | some (x, d) =>
    let c := x.target / 2 ^ 16 % 256
    let v := x.target % 2 ^ 16
    let n := beAt x.payload 0 8 % 2 ^ 16
    let p := d.pairRx x.src x.hall x.link
    if !d.on R.MEM_CFG_REMOTE_EN then d.nackOp x 3
    else if x.flags % 2 = 0 || reached p.mark x.pseq then d.remoteSignal x.src x.hall x.link x.pseq x.tag c v n
    else
      let far : Bool := 64 ≤ (x.pseq + 2 ^ 16 - p.mark) % 2 ^ 16
      if far && 256 ≤ d.parkedIn x.hall x.link then
        let d := if x.hall then d.bump C.MEM_HALL_PARK_OVERFLOW else d.bump (C.MIR_PARK_OVERFLOW x.link)
        d.contextFault c 7 none
      else
        let d := if far && !x.hall then d.bump (C.MIR_PARKED x.link) else d
        (d.bump C.MEM_RELEASE_WAITS).setPairRx { p with releases := p.releases ++ [Release.mk x.pseq c v n x.tag] }

/-- A restarting context loses the releases that wait for it (R508). -/
def Dev.dropReleases (d : Dev) (c : Nat) : Dev :=
  let keep (p : PairRx) : PairRx := { p with releases := p.releases.filter fun r => r.context != c }
  { d with fab := { d.fab with pairRx := d.fab.pairRx.map keep } }

/-! ### Answers at the requester (R501, R502) -/

/-- The request an answer belongs to: its path and its tag; on a Mirror link the path is the link its request left by, and of two such
requests the one to the answer's source. -/
def Dev.requestOf (d : Dev) (x : InOp) : Option OutOp :=
  let here (o : OutOp) : Bool := if x.hall then o.dest = x.src else d.get (R.MIR_ROUTE_LINK (o.dest % 8)) = x.link
  let mine := d.fab.out.filter fun o => o.pseq = x.tag && o.hall = x.hall && here o
  (mine.find? fun o => o.dest = x.src).or mine.head?

/-- An answer with this code taken and matched. -/
def Dev.takeAnswer (d : Dev) (opc : Nat) : Option (InOp × OutOp × Dev) :=
  match d.takeIn fun x => x.opc = opc with
  | some (x, d) => (d.requestOf x).map fun o => (x, o, d)
  | none => none

/-- The oldest answer with this code dropped, when it matches no request. -/
def Dev.dropAnswer (d : Dev) (opc : Nat) : Dev := match d.takeIn fun x => x.opc = opc with | some (_, d) => d | none => d

/-- LOAD_RSP and ATOMIC_RSP: the requester gets its data. -/
def Dev.dataAnswer (d : Dev) (opc : Nat) : Dev :=
  match d.takeAnswer opc with
  | some (x, o, d) => (d.rmtAnswer o.engine o.pseq (some x.payload)).answered o
  | none => d.dropAnswer opc

/-- ACK: a store or a signal is answered, and the held signals it frees leave (R507). -/
def Dev.ackOp (d : Dev) : Dev :=
  match d.takeAnswer 0x82 with
  | some (_, o, d) => d.answered o
  | none => d.dropAnswer 0x82

/-- NACK (R502, Table 13.7): every one received is counted, also one that matches no request. -/
def Dev.nackReceived (d : Dev) : Dev :=
  match d.takeIn fun x => x.opc = 0x84 with
  | none => d
  | some (x, d) =>
    let d := d.bump C.MEM_RMT_NACK
    match d.requestOf x with
    | some o => d.refusedBy o (x.flags / 16 % 16)
    | none => d

/-- A request that timed out: treated as answered by a NACK of code 2 (R502). -/
def Dev.timedOut (d : Dev) (o : OutOp) : Dev := (d.bump C.MEM_RMT_TIMEOUT).refusedBy o 2

/-- REMOTE_TIMEOUT. -/
def Dev.remoteTimeout (d : Dev) (dest : Nat) (hall : Bool) (pseq : Nat) : Dev :=
  match d.fab.out.find? fun o => o.dest = dest && o.hall = hall && o.pseq = pseq with
  | some o => (d.advanceClock (o.issuedNs + 1000 * d.get R.MEM_CFG_RMT_TIMEOUT_US)).timedOut o
  | none => d

/-! ### Trainings (R489, R493, R494) -/

/-- Failed lanes of a link. -/
def Dev.failedLanes (d : Dev) (l : Nat) : Nat := popCount 4 (d.get (R.MIR_STAT_LANE_FAILED l))

/-- A link goes down and trains again, unless two of its lanes have failed. -/
def Dev.linkLost (d : Dev) (l : Nat) : Dev :=
  let d := (d.put (R.MIR_STAT_UP l) 0).put (R.MIR_STAT_TRAINING l) (b2n (d.failedLanes l < 2))
  d.modLink l fun x => { x with gap := none, overruns := [], trained := false }

/-- A link retrains (R491, R492). -/
def Dev.retrain (d : Dev) (l : Nat) : Dev := (d.bump (C.MIR_RETRAINS l)).linkLost l

/-- An ID block on a link, with a device's ID and a link number; where they stand in it is a free value (R489; log entry 61, DESIGN CHOICE). -/
def Dev.sendId (d : Dev) (l device link : Nat) : Dev :=
  d.putBlock l (d.mkBlock l 3 0 (d.link l).txSeq (0, 0) ((Config.idBytes device link).take 240))

/-- ID_BLOCK (R489, R497) on a link that has trained: the peer's ID decides whether it comes up, its ID block echoed for the measurement of
the round trip; blocks not acknowledged are resent in order (R493). -/
def Dev.idBlock (d : Dev) (l device peerLink roundTrip : Nat) : Dev :=
  if !d.on (R.MIR_CFG_EN l) || d.linkUp l || 2 ≤ d.failedLanes l || !(d.link l).trained then d
  else
    let d := d.put (R.MIR_STAT_PEER_SEEN l) device
    if device != d.get (R.MIR_CFG_PEER_ID l) then
      let d := d.put (R.MIR_STAT_PEER_MISMATCH l) 1
      d.modLink l fun x => { x with retryNs := some (d.clockNs + 1000000), trained := false }
    else
      let d := d.sendId l device peerLink
      let d := ((d.put (R.MIR_STAT_UP l) 1).put (R.MIR_STAT_TRAINING l) 0).put (R.MIR_STAT_LATENCY_NS l) (roundTrip / 2)
      let held (cls : Nat) : Nat := ((d.link l).unacked.filter fun b => (b.cls = 0) == (cls = 0)).length
      let kept (cls : Nat) : Nat :=
        ((d.fab.inOps.filter fun x => !x.hall && x.link = l && (decide (x.opc < 0x80) == (cls = 0))).map fun x => x.frees).sum
      let d := d.modLink l fun x =>
        { x with lastValidNs := d.clockNs, retryNs := none, creditReq := 64 - held 0, creditRsp := 64 - held 1,
                 peerReq := 64 - kept 0, peerRsp := 64 - kept 1 }
      let d := d.each (d.link l).unacked fun d b => (d.putBlock l b.bytes).bump (C.MIR_BLOCKS_TX l)
      Dev.linkFlush l (d.link l).waiting.length d

/-- PEER_SILENT (R491): no valid block for 10 µs. -/
def Dev.peerSilent (d : Dev) (l : Nat) : Dev :=
  if d.linkUp l then
    let d := d.advanceClock ((d.link l).lastValidNs + 10000)
    let d := ((d.bump (C.MIR_PEER_SILENT l)).health 0x0C l).linkLost l
    d.modLink l fun x => { x with retryNs := some (d.clockNs + 1000000) }
  else d

/-- MIRROR_RETRAIN_ATTEMPT: an electrical training of a link that is down fails or succeeds; a link that trained sends its ID block and waits
for its peer's (R489). -/
def Dev.retrainAttempt (d : Dev) (l : Nat) (trained : Bool) : Dev :=
  if !d.on (R.MIR_CFG_EN l) || d.linkUp l || 2 ≤ d.failedLanes l then d
  else
    let d := match (d.link l).retryNs with | some t => d.advanceClock t | none => d
    let d := d.put (R.MIR_STAT_TRAINING l) 1
    let fails := d.get (R.MIR_STAT_TRAIN_FAILS l)
    if trained then
      (((d.put (R.MIR_STAT_TRAIN_FAILS l) 0).modLink l fun x => { x with retryNs := none, trained := true })).sendId l d.devId l
    else
      let d := d.put (R.MIR_STAT_TRAIN_FAILS l) (min 255 (fails + 1))
      d.modLink l fun x => { x with retryNs := some (d.clockNs + 1000000), trained := false }

/-- The lanes that the enabled Mirror links have left; a link with two failed lanes has none (R494). -/
def Dev.mirrorLanes (d : Dev) : Nat :=
  ((List.range 4).map fun l => if d.on (R.MIR_CFG_EN l) && d.failedLanes l < 2 then 4 - d.failedLanes l else 0).sum

/-- The `CAP` of the remote tiers recomputed after a lane has failed (Table 11.4): scaled by the share of the lanes that is left (log
entry 45, DESIGN CHOICE). -/
def Dev.remoteCaps (d : Dev) (before : Nat) : Dev :=
  d.each ((List.range 15).flatMap fun m => [(m, 1), (m, 2)]) fun d p =>
    if d.tierRemote p.1 p.2 then
      d.put (R.TKP_ENERGY_CAP p.1 p.2) (d.get (R.TKP_ENERGY_CAP p.1 p.2) * d.mirrorLanes / max 1 before)
    else d

/-- MIRROR_LANE_FAIL (R494): after 8 failed trainings a lane fails; a second one holds the link down. -/
def Dev.mirrorLaneFail (d : Dev) (l lane : Nat) : Dev :=
  let f := d.get (R.MIR_STAT_LANE_FAILED l)
  if d.get (R.MIR_STAT_TRAIN_FAILS l) < 8 || d.linkUp l || f.testBit lane then d
  else
    let before := d.mirrorLanes
    let d := (d.put (R.MIR_STAT_LANE_FAILED l) (f + 2 ^ lane)).remoteCaps before
    let d := ((d.health 0x15 (4 * l + lane)).lifeEntry 0x2C (8 + 4 * l + lane) [] true).standingWrite
    d.put (R.MIR_STAT_TRAINING l) (b2n (d.failedLanes l < 2))

/-! ### Gaps and replays (R492) -/

/-- A replay request names the next expected number. -/
def Dev.askReplay (d : Dev) (l : Nat) : Dev := d.putBlock l (d.mkBlock l 2 0 (d.link l).rxNext (0, 0) [])

/-- REPLAY_REQUEST: the blocks kept from the named one on are resent in order. -/
def Dev.replay (d : Dev) (l seq : Nat) : Dev :=
  let again := (d.link l).unacked.filter fun b => b.seq = seq || beforeMod 24 seq b.seq
  if !d.linkUp l || again.isEmpty then d
  else
    let d := d.bump (C.MIR_REPLAYS l)
    d.each again fun d b => (d.putBlock l b.bytes).bump (C.MIR_BLOCKS_TX l)

/-- REPLAY_TIMEOUT: a gap not filled in 2 µs asks again; the third failure of one gap retrains the link. -/
def Dev.replayTimeout (d : Dev) (l : Nat) : Dev :=
  match (d.link l).gap with
  | none => d
  | some (m, t, k) =>
    let d := d.advanceClock (t + 2000)
    if 3 ≤ k + 1 then d.retrain l
    else (d.modLink l fun x => { x with gap := some (m, d.clockNs, k + 1) }).askReplay l

/-! ### Tick blocks (R497) -/

/-- A tick block on a link that is up. How long it waits here before its first bit leaves is a free value, added to `AGE_NS` (R497; log entry
61, DESIGN CHOICE). -/
def Dev.sendTick (d : Dev) (l tick period driver hop age : Nat) : Dev :=
  if d.linkUp l then
    let (wait, d) := d.draw
    let ops := beBytes 4 tick ++ beBytes 4 period ++ beBytes 2 driver ++ beBytes 1 hop ++ [0] ++ beBytes 4 (age + wait)
    d.putBlock l (d.mkBlock l 4 0 (d.link l).txSeq (0, 0) ops)
  else d

/-- The driver's tick blocks at a boundary. -/
def Dev.driveTicks (d : Dev) : Dev :=
  if d.on R.TKP_MODE_FABRIC_BOARD && d.on R.TKP_TICK_STAT_DRIVER then
    d.each [0, 1, 2, 3] fun d l => d.sendTick l d.tick32 d.plan.period d.devId 0 0
  else d

/-- The edge nearest an instant. -/
def nearestEdge (t : Int) : List (Nat × Nat) → Option (Nat × Nat)
  | [] => none
  | e :: es =>
    match nearestEdge t es with
    | some b => if ((e.1 : Int) - t).natAbs ≤ ((b.1 : Int) - t).natAbs then some e else some b
    | none => some e

/-- A tick block received by a follower: forwarded once, and it numbers the edge nearest the driver's boundary. -/
def Dev.tickBlock (d : Dev) (l : Nat) (ops : List Byte) : Dev :=
  if !d.on R.TKP_MODE_FABRIC_BOARD || !d.on R.TKP_TICK_STAT_FOLLOWER || !d.linkUp l then d
  else
    let tick := beAt ops 0 4
    let age := beAt ops 12 4
    let d :=
      if beAt ops 10 1 = 0 then
        d.each ([0, 1, 2, 3].filter fun k => k != l) fun d k => d.sendTick k tick (beAt ops 4 4) (beAt ops 8 2) 1 age
      else d
    let at_ : Int := (d.ns : Int) - d.get (R.MIR_STAT_LATENCY_NS l) - age
    match nearestEdge at_ d.plan.edges with
    | none => d
    | some e =>
      let shift := tick + 2 ^ 32 - e.2 % 2 ^ 32
      let edges := d.plan.edges.map fun x => (x.1, (x.2 + shift) % 2 ^ 32)
      let d' := { d with plan := { d.plan with edges := edges, numbered := true } }
      if !d.plan.numbered && d.plan.firstTick.isNone then d'
      else if shift % 2 ^ 32 = 0 then d
      else (d'.put R.TKP_TICK_STAT_RENUMBERED 1).bump C.TKP_RENUMBERED

/-! ### Reception -/

/-- The device that sent an operation which arrives on a link: the link's peer, or, on a board with routes of two hops, a free value, since
neither block nor operation names it (R503; log entry 63, DESIGN CHOICE). -/
def Dev.sourceOn (d : Dev) (l : Nat) : Nat × Dev :=
  if (List.range 8).any fun i => d.on (R.MIR_ROUTE_VALID i) && d.on (R.MIR_ROUTE_VIA i) then
    let (x, d) := d.draw
    (d.devId / 8 * 8 + x % 8, d)
  else (d.get (R.MIR_CFG_PEER_ID l), d)

/-- An operation out of a block: taken, forwarded on this device's own route, or foreign (R495, R496). -/
def Dev.blockOp (d : Dev) (l cls : Nat) (resent : Bool) (frees : Nat) (op : List Byte) : Dev :=
  let dest := opDest op
  if dest = d.devId then
    let (src, d) := d.sourceOn l
    d.takeOp src false l resent frees op
  else
    let d := d.freeBlocks l (if cls = 0 then 0 else 0x80) frees
    if dest / 8 = d.devId / 8 && d.on (R.MIR_ROUTE_VALID (dest % 8)) then
      (d.bump (C.MIR_FORWARDED l)).linkSend (d.get (R.MIR_ROUTE_LINK (dest % 8))) cls op none
    else d.bump (C.MIR_FOREIGN l)

/-- The operations of a data block in order. Its place in the receive buffer is free once its last whole operation is taken, or
at once when none ends in it. -/
def Dev.blockOps (d : Dev) (l cls : Nat) (resent : Bool) (bytes : List Byte) : Dev :=
  let x := d.link l
  let all := (if cls = 0 then x.partReq else x.partRsp) ++ bytes
  let (ops, rest) := splitOps all.length all
  let d := d.modLink l fun x => if cls = 0 then { x with partReq := rest } else { x with partRsp := rest }
  let d := if ops.isEmpty then d.freeBlocks l (if cls = 0 then 0 else 0x80) 1 else d
  d.each ((List.range ops.length).zip ops) fun d p => d.blockOp l cls resent (b2n (p.1 + 1 = ops.length)) p.2

/-- A data block: credit first, then sequence (R491). -/
def Dev.dataBlock (d : Dev) (l : Nat) (b : List Byte) : Dev :=
  let x := d.link l
  let cls := bitsOf (beAt b 0 1) 4 1
  let seq := beAt b 2 3
  if (if cls = 0 then x.peerReq else x.peerRsp) = 0 then
    let d := (d.bump (C.MIR_CREDIT_OVERRUN l)).health 0x0A l
    let recent := d.clockNs :: x.overruns.filter fun t => d.clockNs < t + 1000000000
    if 16 ≤ recent.length then d.retrain l else d.modLink l fun x => { x with overruns := recent }
  else if seq != x.rxNext then
    let d := (d.bump (C.MIR_SEQ_GAP l)).health 0x0B l
    if beforeMod 24 seq x.rxNext then d.askReplay l
    else
      let top := match x.dropped with | some t => if beforeMod 24 t seq then seq else t | none => seq
      let d := d.modLink l fun x => { x with dropped := some top }
      match x.gap with
      | some _ => d.askReplay l
      | none => (d.modLink l fun x => { x with gap := some (x.rxNext, d.clockNs, 0) }).askReplay l
  else
    let resent := match x.dropped with | some t => !beforeMod 24 t seq | none => false
    let d := d.modLink l fun x =>
      { x with rxNext := (x.rxNext + 1) % 2 ^ 24, gap := none, dropped := if resent && x.dropped != some seq then x.dropped else none,
               peerReq := x.peerReq - b2n (cls = 0), peerRsp := x.peerRsp - b2n (cls = 1) }
    ((d.bump (C.MIR_BLOCKS_RX l)).idleBlock l (0, 0)).blockOps l cls resent (sub b 16 (min 240 (beAt b 10 2)))

/-- MIRROR_BLOCK_RECEIVE (R490 to R492): its checks, what its header acknowledges and returns, then its type's effect. ID blocks
act by ID_BLOCK. -/
def Dev.mirrorBlock (d : Dev) (l : Nat) (block : List Byte) (codewordBad : Bool) : Dev :=
  if !d.linkUp l then d
  else
    let b := padTo 256 block
    let crc := (crc32c (overlay b 12 (zeros 4))).toNat
    if codewordBad || beAt b 12 4 != crc then d.bump (C.MIR_BLOCK_ERR l)
    else
      let ack := beAt b 5 3
      let d := d.modLink l fun x =>
        { x with lastValidNs := d.clockNs, unacked := x.unacked.filter fun u => beforeMod 24 ack u.seq,
                 creditReq := min 64 (x.creditReq + beAt b 8 1), creditRsp := min 64 (x.creditRsp + beAt b 9 1) }
      let d := Dev.linkFlush l (d.link l).waiting.length d
      match beAt b 0 1 % 16 with
      | 1 => d.dataBlock l b
      | 2 => d.replay l (beAt b 2 3)
      | 4 => d.tickBlock l (sub b 16 16)
      | _ => d

/-- What a Hall frame acknowledges leaves the sender's store (R500). -/
def HallPair.acked (x : HallPair) (ack sack : Nat) : HallPair :=
  let gone (u : HallSent) : Bool :=
    u.seq = ack || beforeMod 32 u.seq ack
      || (let i := (u.seq + 2 ^ 32 - (ack + 1)) % 2 ^ 32
          decide (i < 32) && sack.testBit i)
  { x with unacked := x.unacked.filter fun u => !gone u }

/-- `ACK_SEQ` moves over numbers received. -/
def HallPair.settle : Nat → HallPair → HallPair
  | 0, x => x
  | k + 1, x =>
    let n := (x.ack + 1) % 2 ^ 32
    if x.beyond.contains n then HallPair.settle k { x with ack := n, beyond := x.beyond.filter fun b => b != n } else x

/-- A frame number noted as received; whether it is new. A sender keeps at most 64 frames, so that all numbers 64 or more below
a new one are settled. -/
def HallPair.note (x : HallPair) (seq : Nat) : HallPair × Bool :=
  if seq = x.ack || beforeMod 32 seq x.ack || x.beyond.contains seq then (x, false)
  else
    let floor := (seq + 2 ^ 32 - 64) % 2 ^ 32
    let x := if beforeMod 32 x.ack floor then { x with ack := floor, beyond := x.beyond.filter fun b => beforeMod 32 floor b } else x
    (HallPair.settle 65 { x with beyond := x.beyond ++ [seq] }, true)

/-- HALL_FRAME_RECEIVE (R499, R500): the oldest Hall frame received. -/
def Dev.hallReceive (d : Dev) : Dev :=
  match d.port.hallRx with
  | [] => d
  | rx :: rest =>
    let d := { d with port := { d.port with hallRx := rest } }
    let f := rx.bytes
    let o := (etherOf f).2 + 2
    let src := beAt f (o + 2) 2 % 4096
    let n := beAt f (o + 18) 2
    let room := f.length - (o + 22)
    if beAt f (o + 4) 2 % 4096 != d.devId then (d.bump (C.PORT_FAB_FOREIGN rx.sp)).health 8 rx.sp
    else if beAt f o 1 != 1 || f.length < o + 22 || room < n || (n < room && 60 < f.length) then d.bump C.MEM_HALL_BAD
    else
      let x := (d.hallPair src).acked (beAt f (o + 10) 4) (beAt f (o + 14) 4)
      let (y, new) := if n = 0 then (x, false) else x.note (beAt f (o + 6) 4)
      let d := d.setHall y
      let (ops, _) := if new then splitOps n (sub f (o + 22) n) else ([], [])
      let d := d.each ops fun d op => d.takeOp src true 0 false 0 op
      let d := Dev.hallFlush src (d.hallPair src).waiting.length d
      if n = 0 then d else d.hallPut src (((d.hallPair src).next + 2 ^ 32 - 1) % 2 ^ 32) []

/-- HALL_RETRANSMIT (R500): a frame is resent; after 8 resends the pair is unreachable and what waits for it fails. -/
def Dev.hallRetransmit (d : Dev) (dest seq : Nat) : Dev :=
  let x := d.hallPair dest
  match x.unacked.find? fun u => u.seq = seq with
  | none => d
  | some u =>
    let d := d.advanceClock (u.sentNs + 1000 * d.get R.MEM_HALL_CFG_RETX_US)
    if u.resends < 8 then
      let again (v : HallSent) : HallSent := if v.seq = seq then { v with sentNs := d.clockNs, resends := v.resends + 1 } else v
      ((d.setHall { x with unacked := x.unacked.map again }).bump C.MEM_HALL_RETX).hallPut dest seq u.ops
    else
      let d := d.setHall { x with unacked := [], waiting := [] }
      d.each (d.fab.out.filter fun o => o.hall && o.dest = dest) Dev.timedOut

/-! ### The commands -/

/-- REMOTE_REQUEST_ISSUE (R503). -/
def execRemoteRequestIssue (req : RemoteReq) (s : State) := s.clocked (·.regionStopped 20) fun d => d.issue req

/-- LOAD (R504). -/
def execLoad (bad : List MemEvent) (s : State) := s.clocked (·.regionStopped 20) fun d => d.loadOp bad

/-- STORE (R504). -/
def execStore (s : State) := s.clocked (·.regionStopped 20) Dev.storeOp

/-- ATOMIC_ADD (R501). -/
def execAtomicAdd (bad : List MemEvent) (s : State) := s.clocked (·.regionStopped 20) fun d => d.atomicOp 0x03 bad

/-- ATOMIC_CAS (R501). -/
def execAtomicCas (bad : List MemEvent) (s : State) := s.clocked (·.regionStopped 20) fun d => d.atomicOp 0x04 bad

/-- ATOMIC_MAX (R501). -/
def execAtomicMax (bad : List MemEvent) (s : State) := s.clocked (·.regionStopped 20) fun d => d.atomicOp 0x05 bad

/-- SIGNAL (R505). -/
def execRemoteSignal (s : State) := s.clocked (·.regionStopped 20) Dev.signalOp

/-- WRITE_COMMIT (R505). -/
def execWriteCommit (src : BitVec 12) (hall : Bool) (pseq : BitVec 16) (bad : List MemEvent) (s : State) :=
  s.clocked (·.regionStopped 20) fun d => d.writeCommit src.toNat hall pseq.toNat bad

/-- LOAD_RSP (R501). -/
def execLoadRsp (s : State) := s.clocked (·.regionStopped 20) fun d => d.dataAnswer 0x81

/-- ACK (R501). -/
def execAck (s : State) := s.clocked (·.regionStopped 20) Dev.ackOp

/-- ATOMIC_RSP (R501). -/
def execAtomicRsp (s : State) := s.clocked (·.regionStopped 20) fun d => d.dataAnswer 0x83

/-- NACK (R502). -/
def execNack (s : State) := s.clocked (·.regionStopped 20) Dev.nackReceived

/-- REMOTE_TIMEOUT (R502). -/
def execRemoteTimeout (dest : BitVec 12) (hall : Bool) (pseq : BitVec 16) (s : State) :=
  s.clocked (·.regionStopped 20) fun d => d.remoteTimeout dest.toNat hall pseq.toNat

/-- MIRROR_BLOCK_RECEIVE (R490). -/
def execMirrorBlockReceive (link : Fin 4) (block : List Byte) (codewordBad : Bool) (s : State) :=
  s.clocked (·.regionStopped 19) fun d => d.mirrorBlock link.val block codewordBad

/-- REPLAY_REQUEST (R492). -/
def execReplayRequest (link : Fin 4) (seq : BitVec 24) (s : State) := s.clocked (·.regionStopped 19) fun d => d.replay link.val seq.toNat

/-- REPLAY_TIMEOUT (R492). -/
def execReplayTimeout (link : Fin 4) (s : State) := s.clocked (·.regionStopped 19) fun d => d.replayTimeout link.val

/-- ID_BLOCK (R489, R497). -/
def execIdBlock (link : Fin 4) (device : BitVec 12) (peerLink : Fin 4) (roundTripNs : Nat) (s : State) :=
  s.clocked (·.regionStopped 19) fun d => d.idBlock link.val device.toNat peerLink.val roundTripNs

/-- PEER_SILENT (R491). -/
def execPeerSilent (link : Fin 4) (s : State) := s.clocked (·.regionStopped 19) fun d => d.peerSilent link.val

/-- MIRROR_LANE_FAIL (R494). -/
def execMirrorLaneFail (link lane : Fin 4) (s : State) := s.clocked (·.regionStopped 19) fun d => d.mirrorLaneFail link.val lane.val

/-- MIRROR_RETRAIN_ATTEMPT (R489). -/
def execMirrorRetrainAttempt (link : Fin 4) (trained : Bool) (s : State) := s.clocked (·.regionStopped 19) fun d => d.retrainAttempt link.val trained

/-- HALL_FRAME_RECEIVE (R499). -/
def execHallFrameReceive (s : State) := s.clocked (·.regionStopped 20) Dev.hallReceive

/-- HALL_RETRANSMIT (R500). -/
def execHallRetransmit (dest : BitVec 12) (frameSeq : Word32) (s : State) :=
  s.clocked (·.regionStopped 20) fun d => d.hallRetransmit dest.toNat frameSeq.toNat

/-- TICK_BLOCK (R497). -/
def execTickBlock (link : Fin 4) (ops : List Byte) (s : State) := s.clocked (·.regionStopped 19) fun d => d.tickBlock link.val ops

end Sys2Proof.Machine
end

