-- ==== Sys2Proof/WellFormed.lean ====
section
/-! DEFINITION. Well-formed commands: what the world outside can send at all. A command that breaks one of these bounds is no
event of the hardware (a tile larger than the array, a block of the wrong length); refusals that the spec itself gives are
effects of well-formed commands. -/

namespace Sys2Proof

/-- The largest block of a form (Tables 6.2 and 6.5, R237), K × N, on the 4-bit path; on the others K is half as much, but on a Grating
(`Pass.maxRows`). -/
def Form.block : Form → Nat × Nat
  | .facet => (32, 16)
  | .shared => (32, 16)
  | .wide8 => (16, 32)
  | .wide4 => (8, 64)
  | .gang => (128, 64)
  | .grating => (128, 128)

/-- The partition numbers of a form: Gratings 1,024 to 1,039 (R263), a Gang from the lowest Facet of a quad, else a Facet index
of the partition's Lens core (R245). -/
def Tile.placed (t : Tile) : Bool :=
  match t.form with
  | .grating => decide (1024 ≤ t.partition ∧ t.partition < 1040)
  | .gang => decide (t.partition < 1024 ∧ t.partition % 16 = 0 ∧ t.facet / 16 = t.partition / 16)
  | _ => decide (t.partition < 1024 ∧ t.facet / 4 = t.partition / 4 ∧ t.partition ≤ t.facet)

/-- A tile the array can hold (R224, R231, R261): its vectors, its block, its place in the operand, its partition. -/
def Tile.fits (t : Tile) : Bool :=
  t.placed && decide (1 ≤ t.m ∧ t.m ≤ (if t.form = .grating then 1024 else 256))
    && decide (1 ≤ t.k ∧ t.k ≤ t.form.block.1 ∧ t.kBase + t.k ≤ t.kTotal)
    && decide (1 ≤ t.n ∧ t.n ≤ t.form.block.2 ∧ t.nBase + t.n ≤ t.nTotal)
    && decide (t.mBase + t.m ≤ t.mTotal ∧ t.part ≤ 4)

/-- Whether the mover of a cluster reaches a block of `len` bytes: in a core memory of its cluster, in its cluster memory, or in
DRAM (R214, R255). -/
def Place.ofMover (c len : Nat) : Place → Bool
  | .core k a => decide (k.val / 16 = c ∧ a + len ≤ 0x80000)
  | .shared a =>
    let base := 0xF000000000000 + 0x1000000 * c
    decide (a + len ≤ 0x1000000000 ∨ (base ≤ a ∧ a + len ≤ base + 0xC00000))

/-- A mover operation within Table 6.8 and R257. -/
def MoverOp.fits (o : MoverOp) : Bool :=
  let (dstRows, dstCols) := if o.transpose then (o.cols, o.rows) else (o.rows, o.cols)
  let srcRow := (o.cols * o.elemBits + 7) / 8
  let dstRow := (dstCols * o.elemBits + 7) / 8
  decide (1 ≤ o.rows ∧ o.rows ≤ (if o.transpose then 4096 else 65536) ∧ 1 ≤ o.cols ∧ o.cols ≤ 4096)
    && [4, 8, 16, 32].contains o.elemBits
    && decide (srcRow ≤ o.srcPitch ∧ o.srcPitch ≤ 16777215 ∧ dstRow ≤ o.dstPitch ∧ o.dstPitch ≤ 16777215)
    && (!(o.transpose && o.elemBits == 4) || (o.rows % 2 == 0 && o.cols % 2 == 0))
    && o.src.ofMover o.cluster.val ((o.rows - 1) * o.srcPitch + srcRow)
    && o.dst.ofMover o.cluster.val ((dstRows - 1) * o.dstPitch + dstRow)

/-- Whether the elementwise unit of a Lens core reaches a place: its own core memory, or the shared memory (R214). -/
def Place.ofCore (core : Fin 256) : Place → Bool
  | .core k _ => k == core
  | .shared _ => true

/-- An elementwise operation that its unit can make. -/
def EltCmd.fits (e : EltCmd) : Bool :=
  decide (1 ≤ e.count) && e.a.ofCore e.core && e.b.ofCore e.core && e.c.ofCore e.core && e.out.ofCore e.core

/-- A remote operation within Table 13.6. -/
def RemoteReq.fits (r : RemoteReq) : Bool :=
  match r.opc.toNat with
  | 1 => decide (64 ≤ r.len ∧ r.len ≤ 4096 ∧ r.len % 64 = 0 ∧ r.payload = []) && decide (r.target.toNat % 64 = 0)
  | 2 => decide (64 ≤ r.payload.length ∧ r.payload.length ≤ 4096 ∧ r.payload.length % 64 = 0) && decide (r.target.toNat % 64 = 0)
  | 3 => decide (r.payload.length = 8 ∧ r.target.toNat % 8 = 0)
  | 4 => decide (r.payload.length = 16 ∧ r.target.toNat % 8 = 0)
  | 5 => decide (r.payload.length = 8 ∧ r.target.toNat % 8 = 0)
  | 6 => decide (r.payload.length = 8)
  | _ => false

/-- A sensor reading in the range of a 16-bit field. -/
def TempReading.fits (t : TempReading) : Bool := decide (-32768 ≤ t.eighths ∧ t.eighths ≤ 32767)

/-- The well-formed commands. -/
def Instr.wellFormed : Instr → Bool
  | .receiveFrame _ bytes _ _ => decide (bytes.length ≤ 16384)
  | .tickBoundary env | .tickSyncEdge env => env.temps.all TempReading.fits
  | .tickBlock _ ops => decide (ops.length = 16)
  | .tierResultWritten slot _ raw => decide (slot < 8192 ∧ 1 ≤ raw.length ∧ raw.length ≤ 16)
  | .tileIssue t _ => t.fits && t.form != .grating
  | .gratingTileIssue t _ => t.fits && t.form == .grating
  | .moverOp op => op.fits
  | .elementwiseOp op _ => op.fits
  | .queuePush p => decide (p.entry.length = 64)
  | .remoteRequestIssue r => r.fits
  | .mirrorBlockReceive _ b _ => decide (b.length = 256)
  | .refreshDouble _ temps | .softStep temps | .throttleEnter temps | .thermalShutdown temps => temps.all TempReading.fits
  | .modelStageData payload => decide (payload.length ≤ 65535)
  | .writeBlock _ values => decide (values.length ≤ 8191)
  | .endorseWrite values => decide (values.length ≤ 2048)
  | .quote nonce => decide (nonce.length ≤ 64)
  | _ => true

end Sys2Proof
end

