-- ==== Sys2Proof/Machine/Sums.lean ====
section
/-! DEFINITION. What a tile computes (chapters 6 to 8): tensor descriptors and quantisation blocks, the operands that an array takes
(Table 6.2), the sums of its columns, group dequantisation, and the checks of R220 to R222. -/

namespace Sys2Proof

/-- Whether a place is in a core memory. -/
def Place.inCore : Place → Bool | .core .. => true | .shared _ => false

/-- The place from which the core of row band `i` of a Gang feeds: the same offset of its own core memory (R233). -/
def Place.ofBand (i : Nat) : Place → Place
  | .core c a => .core (Fin.ofNat 256 (c.val + i)) a
  | .shared a => .shared a

end Sys2Proof

namespace Sys2Proof.Machine

/-! ### Tensor descriptors and quantisation blocks (Tables 8.1 and 8.3) -/

/-- `FMT` of a tensor descriptor. -/
def descFmt (b : List Byte) : Nat := leAt b 0 1 % 32
/-- `ROLE`: 0 activation, 1 weight, 2 gradient, 3 optimiser state. -/
def descRole (b : List Byte) : Nat := bitsOf (leAt b 0 1) 5 2
/-- `DYNAMIC`. -/
def descDynamic (b : List Byte) : Bool := (leAt b 0 1).testBit 7
/-- `FALLBACK`. -/
def descFallback (b : List Byte) : Bool := (leAt b 1 1).testBit 1
/-- `ZERO_POINT`; 0 without `HAS_ZP`. -/
def descZero (b : List Byte) : Int := if (leAt b 1 1).testBit 0 then toSigned 16 (leAt b 2 2) else 0
/-- `SCALE`. -/
def descScale (b : List Byte) : Nat := leAt b 4 4
/-- `CLIP_THRESH`. -/
def descClip (b : List Byte) : Nat := leAt b 8 2
/-- `HEADROOM`. -/
def descHeadroom (b : List Byte) : Nat := leAt b 10 1 % 4
/-- `WIDE_ADDR`. -/
def descWide (b : List Byte) : Nat := leAt b 16 8

/-- The wider format of an output (Table 8.6). -/
def widerOut : Nat → Option Nat
  | 4 => some 6 | 6 => some 8 | 11 => some 13 | _ => none

/-- The wider format of weights (Table 8.6). -/
def widerWgt : Nat → Option Nat
  | 4 => some 6 | 9 => some 6 | _ => none

/-- Group size G (Table 8.3). -/
def Pass.group (p : Pass) : Nat := 32 * 2 ^ (leAt p.qblock 42 1 % 4)
/-- `PER_CHANNEL`. -/
def Pass.perChannel (p : Pass) : Bool := (leAt p.qblock 42 1).testBit 2
/-- The weight format in effect: the wide copy's in a re-run (R325), FP16 for a tensor in fallback (R334). -/
def Pass.wgtFmt (p : Pass) : Nat :=
  let f := descFmt p.wgtDesc
  if descFallback p.wgtDesc then 13 else if p.wide then (widerWgt f).getD f else f
/-- The activation format: that of the published output (R327), FP16 for a tensor in fallback (R334). -/
def Pass.actFmt (p : Pass) : Nat := p.actCode
/-- The format outputs are written in: the wider one in a re-run (R327), FP16 in fallback (R334). -/
def Pass.outFmt (p : Pass) : Nat :=
  let f := descFmt p.outDesc
  if p.wide then (widerOut f).getD f else if descFallback p.outDesc then 13 else f

/-- Whether the weights are read from their wide copy. -/
def Pass.wideWgt (p : Pass) : Bool := p.wide && !descFallback p.wgtDesc && (widerWgt (descFmt p.wgtDesc)).isSome
/-- Where a tensor lies: at the place that its operation names, or at `WIDE_ADDR` in fallback (R334). -/
def placeOf (desc : List Byte) (p : Place) : Place := if descFallback desc then .shared (descWide desc) else p
/-- The scale of the weights in effect. -/
def Pass.wgtScale (p : Pass) : Nat :=
  if p.wideWgt then (Config.wideScale (descWide p.wgtDesc)).toNat else descScale p.wgtDesc
/-- The row of Table 6.2 that a format stands in, from 0. -/
def fmtRow (fmt : Nat) : Nat :=
  if [0, 1, 2, 4, 5, 9, 10].contains fmt then 0 else if fmt ≤ 7 then 1 else if fmt = 11 || fmt = 12 then 2
  else if fmt = 13 || fmt = 14 then 3 else if fmt = 8 then 4 else 5
/-- The row of Table 6.2 that a pass runs by: the lower of its operands' (R217). -/
def Pass.row (p : Pass) : Nat := max (fmtRow p.actFmt) (fmtRow p.wgtFmt)
/-- Whether a pass runs on the float path (Table 6.2). -/
def Pass.float (p : Pass) : Bool := p.row = 2 || p.row = 3 || p.row = 5
/-- Operand rows that one row of cells holds: two where both operands are of the 4-bit path (Table 6.2). -/
def Pass.perRow (p : Pass) : Nat := if p.row = 0 then 2 else 1
/-- The part-products of a product: four of INT16, three of FP32, else the one product itself (R291, R292). -/
def Pass.parts (p : Pass) : Nat := if p.row = 4 then 4 else if p.row = 5 then 3 else 1
/-- Whether a pass runs on a Grating. -/
def Pass.onGrating (p : Pass) : Bool := decide (1024 ≤ p.partition)

/-- The dequantisation factor D of a part-product (R313, Table 7.7). -/
def Pass.factor (p : Pass) (part : Nat) : Nat :=
  let e : Int := (if p.wgtFmt = 9 || p.wgtFmt = 10 then -8 else 0)
    + (match part with | 1 => 16 | 2 => 8 | 3 => 8 | _ => 0)
  let e : Int := if p.float then 0 else e
  toFp32 (((fp32 (descScale p.actDesc)).mul (fp32 p.wgtScale)).mul (.dyadic false 1 e))

/-! ### Sums (R216, R285 to R288, R311 to R315) -/

/-- The piece of an integer operand that a part-product uses (Table 7.7): the high one, signed, or the low one. -/
def intPiece (part : Nat) (isAct : Bool) (v : Int) : Int :=
  let high : Bool := if isAct then part = 1 || part = 2 else part = 1 || part = 3
  if part = 0 then v else if high then v / 256 else v % 256

/-- The piece of a float operand that a part-product uses (R292): BF16(x), or BF16 of what it leaves. -/
def floatPiece (part : Nat) (isAct : Bool) (v : Num) : Num :=
  if part = 0 then v
  else
    let h := fBF16.decode (convert 14 v).code
    let low : Bool := if isAct then part = 3 else part = 2
    if low then fBF16.decode (convert 14 (v.add h.neg)).code else h

/-- A value added into an accumulator in FP32 (R218, R287). -/
def Pass.accAdd (p : Pass) (v c x : Nat) : Pass :=
  let i := v * p.nTotal + c
  { p with acc := Sparse.put p.acc i (fpAdd ((p.acc.find i).getD 0) x) }

/-- An integer sum dequantised into its accumulator: one rounding for the product, one for the sum (R313). -/
def Pass.dequant (p : Pass) (part v c : Nat) (g : Int) : Pass := p.accAdd v c (fpMul (fpOfInt g) (p.factor part))

/-- The rows of group `g` of the operand (R311). -/
def Pass.groupRows (p : Pass) (g : Nat) : Nat := min p.group (p.kTotal - g * p.group)

/-- A tile's contribution to a group of one output: it dequantises once its rows are complete (R311, R312, R314). The zero point
corrects the parts that hold the low activation piece. -/
def Pass.groupAdd (p : Pass) (part g v c rows : Nat) (s w : Int) : Pass :=
  let i := ((part * (p.kTotal / p.group + 1) + g) * p.mTotal + v) * p.nTotal + c
  let (rows0, s0, w0) := (p.groups.find i).getD (0, 0, 0)
  if p.groupRows g ≤ rows0 + rows then
    let z := if part = 1 || part = 2 then 0 else descZero p.actDesc
    ({ p with groups := p.groups.drop i }).dequant part v c (s0 + s - z * (w0 + w))
  else { p with groups := Sparse.put p.groups i (rows0 + rows, s0 + s, w0 + w) }

/-- The integer that a code enters the integer path as. -/
def intEntry (fmt code : Nat) : Int := if (fmtFloat fmt).isSome then (Config.intEntry fmt code).toInt else fmtInt fmt code

/-- The activation that enters row `k` for vector `v` (integer path). -/
def RunTile.intAct (r : RunTile) (p : Pass) (v k : Nat) : Int :=
  intPiece r.tile.part true (intEntry p.actFmt (r.act.getD (v * r.tile.k + k) 0))

/-- The weight of row `k` and column `c` (integer path). -/
def RunTile.intWgt (r : RunTile) (p : Pass) (k c : Nat) : Int :=
  intPiece r.tile.part false (intEntry p.wgtFmt (r.wgt.getD (k * r.tile.n + c) 0))

/-- The sum of products of rows `r0` to `r0 + len` of a tile for one output, and the sum of the weights (integer path). -/
def RunTile.intSum (r : RunTile) (p : Pass) (v c r0 len : Nat) : Int × Int :=
  (range r0 len).foldl (fun (a : Int × Int) k => (a.1 + r.intAct p v k * r.intWgt p k c, a.2 + r.intWgt p k c)) (0, 0)

/-- The activation that enters row `k` for vector `v` (float path). -/
def RunTile.floatAct (r : RunTile) (p : Pass) (v k : Nat) : Num :=
  let q := fmtValue p.actFmt (r.act.getD (v * r.tile.k + k) 0)
  let z := descZero p.actDesc
  floatPiece r.tile.part true (if z = 0 then q else q.add (.ofInt (-z)))

/-- The weight of row `k` and column `c` (float path). -/
def RunTile.floatWgt (r : RunTile) (p : Pass) (k c : Nat) : Num :=
  floatPiece r.tile.part false (fmtValue p.wgtFmt (r.wgt.getD (k * r.tile.n + c) 0))

/-- The partial sum that leaves rows `r0` to `r0 + len` of a column for one vector, `s` having entered them (R216, R286, R288). -/
def RunTile.floatSum (r : RunTile) (p : Pass) (v c r0 len s : Nat) : Nat :=
  (range r0 len).foldl (fun s k => fpAdd s (toFp32 ((r.floatAct p v k).mul (r.floatWgt p k c)))) s

/-- The pieces of a tile's rows by group: group, first row, rows. -/
def RunTile.runs (r : RunTile) (p : Pass) : List (Nat × Nat × Nat) :=
  let t := r.tile
  let g0 := t.kBase / p.group
  (List.range ((t.kBase + t.k - 1) / p.group - g0 + 1)).map fun i =>
    let lo := max t.kBase ((g0 + i) * p.group)
    let hi := min (t.kBase + t.k) ((g0 + i + 1) * p.group)
    (g0 + i, lo - t.kBase, hi - lo)

/-! ### Bands and blocks (R220, R233, R237) -/

/-- The row bands of a tile, first row and rows: four in a Gang, one otherwise. -/
def Pass.bandsOf (p : Pass) (t : Tile) : List (Nat × Nat) :=
  if t.form = .gang then
    let b := 16 * p.perRow
    (List.range 4).map fun i => (min t.k (b * i), min b (t.k - b * i))
  else [(0, t.k)]

/-- The row bands of a running tile. -/
def RunTile.bands (r : RunTile) (p : Pass) : List (Nat × Nat) := p.bandsOf r.tile

/-- The column blocks of a tile, each the columns that share a checksum column: 16 columns, all of them on a Grating. -/
def RunTile.blocks (r : RunTile) : List (List Nat) :=
  let n := r.tile.n
  if r.tile.onGrating then [List.range n] else (List.range (cdiv n 16)).map fun j => range (16 * j) (min 16 (n - 16 * j))

/-- What a fault leaves in place of a partial sum. -/
def sumUpset (us : List Upset) (i c v : Nat) : Option Nat :=
  us.findSome? fun u => match u with | .sum i' c' v' x => if i' = i && c' = c && v' = v then some x.toNat else none | _ => none

/-- What a fault leaves in place of an output of a checksum column. -/
def checkUpset (us : List Upset) (i j v : Nat) : Option Nat :=
  us.findSome? fun u => match u with | .check i' j' v' x => if i' = i && j' = j && v' = v then some x.toNat else none | _ => none

/-- What a fault leaves in place of the check wavefront's result in a column. -/
def waveUpset (us : List Upset) (c : Nat) : Option Nat :=
  us.findSome? fun u => match u with | .wave c' x => if c' = c then some x.toNat else none | _ => none

/-- What a fault leaves in place of the check wavefront's result in a checksum column. -/
def waveCheckUpset (us : List Upset) (j : Nat) : Option Nat :=
  us.findSome? fun u => match u with | .waveCheck j' x => if j' = j then some x.toNat else none | _ => none

/-- The partial sums of a column below each row band in turn, for one vector (integer path). -/
def RunTile.intBands (r : RunTile) (p : Pass) (us : List Upset) (v c : Nat) : List Int :=
  ((r.bands p).foldl (fun (a : List Int × Int) b =>
    let s := match sumUpset us a.1.length c v with
      | some x => toSigned 32 x
      | none => a.2 + (r.intSum p v c b.1 b.2).1
    (a.1 ++ [s], s)) ([], 0)).1

/-- The partial sums of a column below each row band in turn, for one vector (float path). -/
def RunTile.floatBands (r : RunTile) (p : Pass) (us : List Upset) (v c : Nat) : List Nat :=
  ((r.bands p).foldl (fun (a : List Nat × Nat) b =>
    let s := (sumUpset us a.1.length c v).getD (r.floatSum p v c b.1 b.2 a.2)
    (a.1 ++ [s], s)) ([], 0)).1

/-! ### The results of a tile -/

/-- One output of a tile added to its pass (R227, R315). What a fault that the checks missed has left of the column's sum beyond its
true value goes into the tile's last group. -/
def RunTile.output (r : RunTile) (us : List Upset) (p : Pass) (v c : Nat) : Pass :=
  let t := r.tile
  let (gv, gc) := (t.mBase + v, t.nBase + c)
  let sum : Int := (r.intBands p us v c).getLastD 0
  if t.onGrating then p.dequant 0 gv gc sum
  else if p.float then p.accAdd gv gc ((r.floatBands p us v c).getLastD 0)
  else
    let excess := sum - (r.intSum p v c 0 t.k).1
    (r.runs p).foldl (fun p (q : Nat × Nat × Nat) =>
      let (s, w) := r.intSum p v c q.2.1 q.2.2
      p.groupAdd t.part q.1 gv gc q.2.2 (if q.2.1 + q.2.2 = t.k then s + excess else s) w) p

/-- The results of a tile added to its pass. -/
def RunTile.addTo (r : RunTile) (us : List Upset) (p : Pass) : Pass :=
  (List.range r.tile.m).foldl (fun p v => (List.range r.tile.n).foldl (fun p c => r.output us p v c) p) p

/-! ### The checks (R220 to R223, R235, R238, R262, R319) -/

/-- A check that failed: a column check names the Facet, by its place in the partition's array, and the vector; a row check the
column. -/
inductive CheckFail where
  | column (place vector : Nat)
  | row (column : Nat)
  deriving DecidableEq, Repr

/-- Whether two values pass a float check: they differ by no more than 2^-shift × S, or are both NaN, or both infinite with one sign; any
other infinity or NaN fails (R222; log entry 64, DEDUCED). -/
def floatPasses (shift : Nat) (s a b : Num) : Bool :=
  match a, b with
  | .nan _, .nan _ => true
  | .inf x, .inf y => x == y
  | .fin .., .fin .. =>
    let e := match a.add b.neg with | .fin _ n d => Num.fin false n d | x => x
    !(s.mul (.dyadic false 1 (-(shift : Int)))).lt e
  | _, _ => false

/-- The exact sum of FP32 patterns. -/
def exactSum (xs : List Nat) : Num := xs.foldl (fun s x => s.add (fp32 x)) (.ofInt 0)

/-- The weight of a row in a checksum column, as the loader forms it in FP32 (R220). -/
def RunTile.checkWgt (r : RunTile) (p : Pass) (cols : List Nat) (k : Nat) : Nat :=
  cols.foldl (fun s c => fpAdd s (toFp32 (r.floatWgt p k c))) 0

/-- The column check of row band `i` and column block `j` for a vector, on the integer path: the band's own contribution against its
checksum column, modulo 2³² (R220, R222, R235). -/
def RunTile.intColumn (r : RunTile) (p : Pass) (us : List Upset) (v i j : Nat) (cols : List Nat) : Bool :=
  let b := (r.bands p).getD i (0, 0)
  let at_ (c n : Nat) : Int := if n = 0 then 0 else (r.intBands p us v c).getD (n - 1) 0
  let own := cols.foldl (fun s c => s + at_ c (i + 1) - at_ c i) 0
  let check : Int := match checkUpset us i j v with
    | some x => (x : Int)
    | none => (range b.1 b.2).foldl (fun s k => s + r.intAct p v k * cols.foldl (fun w c => w + r.intWgt p k c) 0) 0
  (own - check) % 2 ^ 32 == 0

/-- The column check on the float path; S is the sum of the absolute values of the band's outputs. The sums compared are exact (log entry
64, DESIGN CHOICE). -/
def RunTile.floatColumn (r : RunTile) (p : Pass) (us : List Upset) (shift v i j : Nat) (cols : List Nat) : Bool :=
  let b := (r.bands p).getD i (0, 0)
  let at_ (n : Nat) : List Nat := if n = 0 then [] else cols.map fun c => (r.floatBands p us v c).getD (n - 1) 0
  let outs := at_ (i + 1)
  let check := (checkUpset us i j v).getD
    ((range b.1 b.2).foldl (fun s k => fpAdd s (toFp32 ((r.floatAct p v k).mul (fp32 (r.checkWgt p cols k))))) 0)
  floatPasses shift (exactSum (outs.map fpAbs)) ((exactSum outs).add (exactSum (at_ i)).neg) (fp32 check)

/-- The first column check that fails: vectors in order, within a vector the Facets by number. -/
def RunTile.columnFail (r : RunTile) (p : Pass) (us : List Upset) (shift : Nat) : Option CheckFail :=
  let blocks := r.blocks
  (List.range r.tile.m).findSome? fun v =>
    if us.contains (.side v) then some (.column 0 v)
    else
      (List.range (r.bands p).length).findSome? fun i =>
        (List.range blocks.length).findSome? fun j =>
          let cols := blocks.getD j []
          let ok := if p.float then r.floatColumn p us shift v i j cols else r.intColumn p us v i j cols
          if ok then none else some (.column (4 * i + j) v)

/-- The row check of the columns `cols`, taken together: the check wavefront's result against the checksum row, the band's values summed
(R221, R235). A checksum column counts as the column of its block's sums. -/
def RunTile.rowOk (r : RunTile) (p : Pass) (shift : Nat) (cols : List Nat) (upset : Option Nat) : Bool :=
  let t := r.tile
  if p.float then
    let w (k : Nat) : Nat := match cols with | [c] => toFp32 (r.floatWgt p k c) | _ => r.checkWgt p cols k
    let down (b : Nat × Nat) (s : Nat) : Nat := (range b.1 b.2).foldl (fun s k => fpAdd s (w k)) s
    let wave := upset.getD (down (0, t.k) 0)
    let row := (r.bands p).foldl (fun s b => fpAdd s (down b 0)) 0
    floatPasses shift (fp32 (fpAbs wave)) (fp32 wave) (fp32 row)
  else
    let row := cols.foldl (fun s c => s + (r.intSum p 0 c 0 t.k).2) 0
    match upset with | some x => ((x : Int) - row) % 2 ^ 32 == 0 | none => true

/-- The first row check that fails, columns in order; in a Gang the 64 columns only, else the checksum column as column 16 too. A Grating
makes none (R235, R262). -/
def RunTile.rowFail (r : RunTile) (p : Pass) (us : List Upset) (shift : Nat) : Option CheckFail :=
  if r.tile.onGrating then none
  else
    match (List.range r.tile.n).find? fun c => !r.rowOk p shift [c] (waveUpset us c) with
    | some c => some (.row c)
    | none =>
      let blocks := r.blocks
      if r.tile.form != .gang
          && (List.range blocks.length).any fun j => !r.rowOk p shift (blocks.getD j []) (waveCheckUpset us j) then
        some (.row 16)
      else none

/-- CHECKSUM_FAILURE: the first check of a tile that fails; every column check falls before the row check (Table 6.3), and one failure
is counted in a tile (R251). -/
def RunTile.checkFail (r : RunTile) (p : Pass) (us : List Upset) (shift : Nat) : Option CheckFail :=
  (r.columnFail p us shift).or (r.rowFail p us shift)

/-! ### What an array takes (Table 6.2, R237, R259, R260) -/

/-- Whether a Facet takes a format. -/
def facetFmt (fmt : Nat) : Bool := decide (fmt ≤ 15) && fmt != 3

/-- The part-products of a pass's operands: INT16 in four, FP32 in three, others in one (Table 6.2). -/
def Pass.partOk (p : Pass) (part : Nat) : Bool :=
  if p.parts = 1 then part = 0 else within 1 p.parts part

/-- The most rows that a form's block has: on the 4-bit path twice the rows of cells (R217, R237). -/
def Pass.maxRows (p : Pass) : Form → Nat
  | .facet | .shared => 16 * p.perRow
  | .wide8 => 8 * p.perRow
  | .wide4 => 4 * p.perRow
  | .gang => 64 * p.perRow
  | .grating => 128

/-- Whether the array takes the operands of a tile: the formats, the rows they leave, the part-product. BIN1 pairs only with BIN1 on a
Grating. -/
def Pass.takes (p : Pass) (t : Tile) : Bool :=
  decide (t.k ≤ p.maxRows t.form)
    && (if t.onGrating then
          decide (p.actFmt ≤ 7 ∧ p.wgtFmt ≤ 7 ∧ (p.actFmt = 0 ↔ p.wgtFmt = 0)) && t.part = 0
        else facetFmt p.actFmt && facetFmt p.wgtFmt && p.partOk t.part)

/-! ### The memories an array reaches (R214, R233, R241, R259) -/

/-- Whether a block lies where a Lens core may reach it: its own core memory, or the shared memory. -/
def coreReaches (core : Nat) (p : Place) (len : Nat) : Bool :=
  match p with | .core c a => c.val = core && decide (a + len ≤ 0x80000) | .shared _ => true

/-- Whether a block lies in the memory of a cluster. -/
def inCluster (c : Nat) (p : Place) (len : Nat) : Bool :=
  match p with
  | .shared a => decide (clusterBase c ≤ a ∧ a + len ≤ clusterBase c + 12 * 2 ^ 20)
  | .core .. => false

/-- Whether what a Grating's pass reads and writes beside its operands lies in the memory of its cluster (R259): the quantisation block,
the descriptors, the biases, the side operands, the statistics record. -/
def Pass.recordsIn (p : Pass) (g : Nat) : Bool :=
  let field (o : Nat) : Place := .shared (leAt p.qblock o 8)
  inCluster g (.shared p.qaddr) 64 && inCluster g (field 0) 24 && inCluster g (field 8) 24 && inCluster g (field 16) 24
    && inCluster g (field 24) 16 && (p.biases.isEmpty || inCluster g (field 32) (4 * p.biases.length))
    && (p.side.isEmpty || inCluster g (field 48) p.side.length)

/-- Where the activations and weights of a tile lie. -/
def Pass.actPlace (p : Pass) (t : Tile) : Place := placeOf p.actDesc t.act
def Pass.wgtPlace (p : Pass) (t : Tile) : Place :=
  if p.wideWgt then .shared (descWide p.wgtDesc) else placeOf p.wgtDesc t.wgt

/-- Whether the operands and outputs of a tile lie in memories that its units reach: for one Lens core its own and the shared memory,
outputs in its own; for a Gang the memories of its four cores and the shared memory, outputs in the cluster memory; for a Grating the
cluster memory alone. The tiles of a pass whose program a fence has re-placed add to the pass where it is (R25; log entry 64, DESIGN
CHOICE). -/
def Pass.reaches (p : Pass) (t : Tile) : Bool :=
  let act := fmtBytes p.actFmt ((t.mBase + t.m - 1) * t.actPitch + t.kBase + t.k)
  let wgt := fmtBytes p.wgtFmt ((t.kBase + t.k - 1) * t.wgtPitch + t.nBase + t.n)
  let out := fmtBytes p.outFmt (p.mTotal * p.nTotal)
  if t.onGrating then
    let g := (t.partition - 1024) % 16
    p.recordsIn g && inCluster g (p.actPlace t) act && inCluster g (p.wgtPlace t) wgt && inCluster g (placeOf p.outDesc p.out) out
  else
    let core := if t.form = .gang then t.facet / 16 * 4 else t.facet / 4
    coreReaches core (p.actPlace t) act && coreReaches core (p.wgtPlace t) wgt
      && (descFallback p.outDesc || p.homes.length != 1
          || (if t.form = .gang then inCluster (t.facet / 64) p.out out else p.out.inCore && coreReaches core p.out out))

end Sys2Proof.Machine
end

