-- ==== Sys2Proof/Machine/Array.lean ====
section
/-! DEFINITION. Tiles on Facets and Gratings (chapter 6): operands read, tiles issued, done, failed and re-issued, with their cycles
and counters. What a tile computes stands in Sums.lean; what the drain makes of the accumulators in Publish.lean. -/

namespace Sys2Proof

/-- The Facets in whose drains a tile's outputs accumulate, each with its columns of the tile: the Facet itself, in a Gang those of row
band 3 (R233). -/
def Tile.drains (t : Tile) : List (Nat × List Nat) :=
  match t.form with
  | .grating => []
  | .gang => (List.range 4).map fun j => (t.facet / 16 * 16 + 12 + j, Machine.range (16 * j) (min 16 (t.n - 16 * j)))
  | _ => [(t.facet, List.range t.n)]

end Sys2Proof

namespace Sys2Proof.Machine

/-! ### Operands -/

/-- Elements of a packed tensor at a place, from an element number on; none is poison. -/
def Dev.elems (d : Dev) (p : Place) (fmt start count : Nat) (bad : List MemEvent) : Dev × Option (List Nat) :=
  let b := fmtContainer fmt
  let skip := start * b % 8 / b
  let (d, r) := d.placeFetch p (start * b / 8) (fmtBytes fmt (skip + count)) bad
  (d, r.map fun bs => (List.range count).map fun i => elemAt fmt bs (skip + i))

/-- Pieces of a packed operand, each a place, its first element and its elements, one after the other. -/
def Dev.readPieces (d : Dev) (fmt : Nat) (pieces : List (Place × Nat × Nat)) (bad : List MemEvent) : Dev × Option (List Nat) :=
  pieces.foldl (fun (a : Dev × Option (List Nat)) q =>
    let (d, r) := a.1.elems q.1 fmt q.2.1 q.2.2 bad
    (d, match a.2, r with | some xs, some ys => some (xs ++ ys) | _, _ => none)) (d, some [])

/-- The pieces of a tile's activations, vector by vector: each row band's from its own core (R233). -/
def Pass.actPieces (p : Pass) (t : Tile) : List (Place × Nat × Nat) :=
  let bands := p.bandsOf t
  (List.range t.m).flatMap fun v => (List.range bands.length).map fun i =>
    let b := bands.getD i (0, 0)
    ((p.actPlace t).ofBand i, (t.mBase + v) * t.actPitch + t.kBase + b.1, b.2)

/-- The pieces of a tile's weights, row by row. -/
def Pass.wgtPieces (p : Pass) (t : Tile) : List (Place × Nat × Nat) :=
  let bands := p.bandsOf t
  (List.range bands.length).flatMap fun i =>
    let b := bands.getD i (0, 0)
    (range b.1 b.2).map fun k => ((p.wgtPlace t).ofBand i, (t.kBase + k) * t.wgtPitch + t.nBase, t.n)

/-- Reads of several parts of the shared memory: none when any is poison. -/
def Dev.fetchAll (d : Dev) (bad : List MemEvent) : List (Nat × Nat) → Dev × Option (List (List Byte))
  | [] => (d, some [])
  | (a, n) :: rest =>
    let (d, r) := if n = 0 then (d, some []) else d.fetch a n bad
    let (d, rs) := d.fetchAll bad rest
    (d, match r, rs with | some x, some xs => some (x :: xs) | _, _ => none)

/-- The rescale registers of a partition from a base on (R337): those of the Lens core of its lowest Facet, the first core of the quad for a
Gang (log entry 65, DESIGN CHOICE). -/
def Dev.rescaleRegs (d : Dev) (partition base n : Nat) : List Nat :=
  (List.range n).map fun i =>
    let f := if 1024 ≤ partition then R.GRT_RESCALE_MULT (partition - 1024) (base + i)
      else R.LNS_RESCALE_MULT (partition / 64) (partition / 4 % 16) (base + i)
    d.word f.addr

/-- The format in which a tensor is read: that of the output published there, where its record names another than the descriptor's
(R327); FP16 in fallback (R334). -/
def Dev.readFmt (d : Dev) (addr : Nat) (desc : List Byte) : Nat :=
  if descFallback desc then 13
  else match d.lens.published.find addr with | some w => w.1 | none => descFmt desc

/-- A tensor's descriptor as a reader takes it: the scale is that which its codes were written with, for an update sets the scale of the
next step (R331). -/
def Dev.readDesc (d : Dev) (addr : Nat) (desc : List Byte) : List Byte :=
  match d.lens.published.find addr with | some w => overlay desc 4 (leBytes 4 w.2) | none => desc

/-- The addresses of a Grating's quantisation block: those in a cluster's memory name their offset in the memory of the Grating's own
cluster, which is where a re-placement puts the operands (R259, R426; log entry 64, DESIGN CHOICE). -/
def ownAddresses (g : Nat) (qb : List Byte) : List Byte :=
  let own (a : Nat) : Nat := if within (clusterBase 0) (clusterBase 16 - 1) a then clusterBase g + (a - clusterBase 0) % 0x1000000 else a
  [0, 8, 16, 24, 32, 48].foldl (fun b o => overlay b o (leBytes 8 (own (leAt b o 8)))) qb

/-- The cycles that a vector takes: of a Facet by Table 6.2, on a Grating the product of the operand widths (R260). -/
def Pass.perVector (p : Pass) : Nat :=
  if p.onGrating then gratingBits p.actFmt * gratingBits p.wgtFmt else if p.row = 3 || p.row = 5 then 2 else 1

/-- A pass begins with its first tile: it reads its descriptors, biases, side operands and rescale registers once (R322, R317);
none when one of them is poison. -/
def Dev.beginPass (d : Dev) (t : Tile) (bad : List MemEvent) : Dev × Option Pass :=
  match d.fetch t.qblock 64 bad with
  | (d, none) => (d, none)
  | (d, some qb) =>
    let qb := if t.onGrating then ownAddresses ((t.partition - 1024) % 16) qb else qb
    let n := leAt qb 44 1
    let sideBytes := if n = 0 then 0 else 2 * n + 2 * n * t.mTotal + 2 * n * t.nTotal
    let biasBytes := if leAt qb 32 8 = 0 then 0 else 4 * t.nTotal
    match d.fetchAll bad [(leAt qb 0 8, 24), (leAt qb 8 8, 24), (leAt qb 16 8, 24), (leAt qb 32 8, biasBytes), (leAt qb 48 8, sideBytes)] with
    | (d, some [act, wgt, out, bias, side]) =>
      let perChannel := (leAt qb 42 1).testBit 2
      let isMine (p : Pass) : Bool := p.isOf t
      let (wide, rest) := match takeFirst isMine d.lens.granted with | some (_, l) => (true, l) | none => (false, d.lens.granted)
      let p : Pass :=
        { partition := t.partition, homes := [t.partition], context := t.context.val, model := t.model.val, tier := t.tier.val, learning := t.learning,
          cmdId := t.cmdId.toNat, qaddr := t.qblock, qblock := qb, actDesc := d.readDesc (leAt qb 0 8) act,
          wgtDesc := d.readDesc (leAt qb 8 8) wgt, outDesc := out,
          biases := (List.range (biasBytes / 4)).map fun i => leAt bias (4 * i) 4,
          rescale := if perChannel then d.rescaleRegs t.partition (leAt qb 40 2) t.nTotal else [],
          side := side, actCode := d.readFmt (leAt qb 0 8) act, gang := t.form = .gang, wide := wide, nTotal := t.nTotal, mTotal := t.mTotal, kTotal := t.kTotal, out := t.out,
          completion := t.completion.toNat, slots := [], acc := [], groups := [], lastDone := false, beganNs := d.ns,
          reissues := 0 }
      let swapped := d.lens.swapped.filter fun x => x != p.swap
      let d := { d with lens := { d.lens with granted := rest, swapped := swapped } }
      (d.programBegin p.engine p.unit p.context p.model p.tier p.learning p.cmdId, some { p with vectorCycles := p.perVector })
    | (d, _) => (d, none)

/-! ### Issue (R224 to R253) -/

/-- Whether a placed stage program runs a tile: it is the tile's, and its engine has the tile's form and Facet (R245, R236). -/
def Placed.runs (p : Placed) (t : Tile) : Bool :=
  p.isProgram t.partition t.context.val t.model.val t.tier.val t.learning
    && (match t.form with
        | .grating => p.kind = 2
        | .gang => p.kind = 1
        | .shared => p.kind = 0 && p.units.length = 4 && p.units.contains t.facet
        | _ => p.kind = 0 && p.units.contains t.facet)

/-- Whether a tile's own place is still there: its stage program holds its unit. -/
def Dev.hasHome (d : Dev) (t : Tile) : Bool := d.plan.placed.any fun p => p.runs t

/-- Whether two tiles are of one pass and part-product. -/
def sameWork (a b : Tile) : Bool :=
  a.cmdId == b.cmdId && a.context == b.context && a.model == b.model && a.learning == b.learning && a.part == b.part

/-- Whether two tiles are one: the same block of the same pass on the same Facets (R249). -/
def sameTile (a b : Tile) : Bool :=
  sameWork a b && a.partition == b.partition && a.facet == b.facet && a.form == b.form
    && a.kBase == b.kBase && a.nBase == b.nBase && a.mBase == b.mBase && a.k == b.k && a.n == b.n && a.m == b.m

/-- Whether a tile lies in the block of another: on a re-placed partition, of other units, the block may run in pieces (R25). -/
def tileWithin (a b : Tile) : Bool :=
  sameWork a b && decide (a.kBase ≤ b.kBase ∧ b.kBase + b.k ≤ a.kBase + a.k ∧ a.nBase ≤ b.nBase ∧ b.nBase + b.n ≤ a.nBase + a.n
    ∧ a.mBase ≤ b.mBase ∧ b.mBase + b.m ≤ a.mBase + a.m)

/-- Whether an issued tile is the re-issue of a stopped one: the same tile on the same Facets, or on the re-placed partition where its
own is gone (R249, Table 6.6). -/
def Dev.isReissue (d : Dev) (s : StoppedTile) (t : Tile) : Bool :=
  if d.hasHome s.tile then sameTile s.tile t else tileWithin s.tile t

/-- Whether a pass whose outputs a tile reads has swapped (R244). -/
def Dev.hasSwapped (d : Dev) (t : Tile) (cmdId : Nat) : Bool :=
  d.lens.swapped.contains ⟨t.context.val, t.model.val, t.tier.val, t.learning, cmdId⟩

/-- Whether two tiles take the same weight block of the same pass. -/
def sameBlock (a b : Tile) : Bool :=
  sameWork a b && a.wgt == b.wgt && a.kBase == b.kBase && a.nBase == b.nBase && a.k == b.k && a.n == b.n

/-- Whether a shared-weight tile may enter: its Lens core's four Facets switch blocks together, so a new one waits until all have taken
the block in use, or none of them streams it any more (R232). -/
def Dev.maySwitch (d : Dev) (t : Tile) : Bool :=
  match d.lens.shared.find (t.facet / 4) with
  | none => true
  | some b =>
    t.form != .shared || sameBlock b.tile t || 4 ≤ b.taken.length
      || !d.lens.running.any fun r => r.tile.form = .shared && r.tile.facet / 4 = t.facet / 4 && sameBlock b.tile r.tile

/-- Whether a tile may be issued: a running stage program holds its unfenced units, its context lets it (a faulted one only T0), a
learning phase is open, a stepping context has a command left to begin, its shared-weight group may switch, and the passes whose
outputs it reads have swapped (R232, R244, R245, R253, R451, R40, R535). -/
def Dev.mayIssue (d : Dev) (t : Tile) : Bool :=
  t.fits && d.hasHome t && d.maySwitch t
    && (if t.onGrating then !d.gratingFenced (t.partition - 1024) else !t.facets.any fun f => d.facetFenced f)
    && d.mayWork t.context.val t.model.val t.tier.val t.learning
    && (!d.steps t.context.val t.tier.val t.learning || (d.passOf t).isSome || d.mayStep t.context.val t.partition)
    && t.reads.all fun c => d.hasSwapped t c.toNat

/-- `STATE` and the other fields of the units a tile occupies (Tables 6.17 and 6.19). -/
def Dev.occupy (d : Dev) (t : Tile) (aBits wBits : Nat) : Dev :=
  if t.onGrating then
    let g := t.partition - 1024
    (((d.put (R.GRT_STAT_STATE g) 1).put (R.GRT_STAT_CONTEXT g) t.context.val).put (R.GRT_STAT_A_BITS g) aBits).put
      (R.GRT_STAT_W_BITS g) wBits
  else
    d.each t.facets fun d f =>
      let (c, j, k) := (f / 64, f / 4 % 16, f % 4)
      let d := (d.put (R.LNS_FACET_STAT_STATE c j k) 1).put (R.LNS_FACET_STAT_SHARED c j k) (b2n (t.form = .shared))
      let d := (d.put (R.LNS_FACET_STAT_GANG c j k) (b2n (t.form = .gang))).put (R.LNS_FACET_STAT_BANDS c j k)
        (match t.form with | .wide8 => 1 | .wide4 => 2 | _ => 0)
      (d.put (R.LNS_FACET_STAT_CONTEXT c j k) t.context.val).put (R.LNS_FACET_STAT_PARTITION c j k) t.partition

/-- The samples with a vector in a tile are flagged `RERUN` (R249); those of a stepped program are copies of the step batch. -/
def Dev.flagRerun (d : Dev) (t : Tile) : Dev :=
  if d.steps t.context.val t.tier.val t.learning then d
  else d.each t.slots fun d s => match d.sample? s with | some x => d.setSample { x with rerun := true } | none => d

/-- A tile of which an operand is poison stops (Table 6.6); it may be re-issued as the planner decides. -/
def Dev.operandLost (d : Dev) (t : Tile) : Dev :=
  let d := if t.onGrating then d.bump (C.GRT_TILES_ABANDONED (t.partition - 1024)) else d.bumpFacet C.LNS_TILES_ABANDONED t.facet
  { d with lens := { d.lens with stopped := d.lens.stopped ++ [⟨t, 5, false, d.plan.tick, t.m * t.k * t.n⟩] } }

/-- A tile's weights go into the shadow banks, which its vector 0 makes the active ones (R216, R225, R261). -/
def Dev.loadBanks (d : Dev) (t : Tile) (perRow : Nat) (wgt : List Nat) : Dev :=
  d.each t.units fun d u =>
    let old := ((d.lens.banks.find u).getD ⟨[], []⟩).active
    { d with lens := { d.lens with banks := Sparse.put d.lens.banks u ⟨t.weightsOf perRow wgt u, old⟩ } }

/-- The weights of a tile. In the shared-weight form a Lens core reads a block once for its four Facets, which so have the same weights or
lose them together; a Facet that takes the block again has it read again (R232, R249). -/
def Dev.weights (d : Dev) (p : Pass) (t : Tile) (bad : List MemEvent) : Dev × Option (List Nat) :=
  let core := t.facet / 4
  let keep (d : Dev) (b : SharedBlock) : Dev := { d with lens := { d.lens with shared := Sparse.put d.lens.shared core b } }
  let fresh (d : Dev) : Dev × Option (List Nat) := d.readPieces p.wgtFmt (p.wgtPieces t) bad
  if t.form != .shared then fresh d
  else
    match (d.lens.shared.find core).filter fun b => sameBlock b.tile t && !b.taken.contains t.facet with
    | some b => (keep d { b with taken := t.facet :: b.taken }, b.wgt)
    | none => let (d, w) := fresh d
              (keep d ⟨t, w, [t.facet]⟩, w)

/-! ### The accumulators (R218) -/

/-- The outputs of a tile in some of its columns, numbered as a pass's accumulators. -/
def outputsOf (t : Tile) (p : Pass) (cols : List Nat) : List Nat :=
  (List.range t.m).flatMap fun v => cols.map fun c => (t.mBase + v) * p.nTotal + t.nBase + c

/-- The accumulators of a Facet that a pass holds, and will hold with tiles that have yet to add: the outputs that wait for further rows
or parts. One that a single tile completes passes through. -/
def Pass.heldIn (p : Pass) (f : Nat) (ts : List Tile) : Nat :=
  let held := (p.held.filter fun e => e.2.1 = f).map fun e => e.1
  let coming := (ts.filter fun t => p.isOf t && t.k != p.kTotal * p.parts).flatMap fun t =>
    (t.drains.filter fun x => x.1 = f).flatMap fun x => outputsOf t p x.2
  (held ++ coming.filter fun o => (p.held.find o).isNone).eraseDups.length

/-- Whether the drains of a tile have accumulators for it: 4,096 in each Facet (R218). -/
def Dev.accumulatorsFor (d : Dev) (p : Pass) (t : Tile) : Bool :=
  let ts := t :: d.lens.running.map fun r => r.tile
  let ps := if d.lens.passes.contains p then d.lens.passes else p :: d.lens.passes
  t.drains.all fun x => decide ((ps.map fun q => q.heldIn x.1 ts).sum ≤ 4096)

/-- The accumulators of a pass once a tile has added: an output to which every row and part has been added holds none. -/
def Pass.hold (p : Pass) (t : Tile) : Pass :=
  t.drains.foldl (fun p x => (outputsOf t p x.2).foldl (fun p o =>
    let (f, n) := (p.held.find o).getD (x.1, 0)
    { p with held := if p.kTotal * p.parts ≤ n + t.k then p.held.drop o else Sparse.put p.held o (f, n + t.k) }) p) p

/-- A tile's pass: the one it belongs to, or a new one that begins with it (R240, R322); none where an operand is poison. -/
def Dev.passFor (d : Dev) (t : Tile) (bad : List MemEvent) : Dev × Option Pass :=
  match d.passOf t with
  | some p => (d, some p)
  | none =>
    match d.beginPass t bad with
    | (d, some p) => ({ d with lens := { d.lens with passes := d.lens.passes ++ [p] } }, some p)
    | (d, none) => (d, none)

/-- A tile streams: its operands are read, its pass begins if it is the first (R240, R322). It waits while its drains have no accumulators
left (R218). A tile that the array does not take, or whose operands lie where its units do not reach, is none that the tools make; it
changes nothing (log entry 64, DESIGN CHOICE). -/
def Dev.stream (d : Dev) (t : Tile) (again reissue : Bool) (bad : List MemEvent) : Dev :=
  match d.passFor t bad with
  | (d, none) => d.operandLost t
  | (d', some p) =>
    if !p.takes t || !p.reaches t || !d.accumulatorsFor p t then d
    else
      let (d, a) := d'.readPieces p.actFmt (p.actPieces t) bad
      let (d, w) := d.weights p t bad
      match a, w with
      | some act, some wgt =>
        let slots := p.slots ++ t.slots.filter fun s => !p.slots.contains s
        let d := d.setPass { p with slots := slots, reissues := p.reissues + b2n reissue }
        let d := (d.each t.units Dev.unitIdle).loadBanks t p.perRow wgt
        let d := { d with lens := { d.lens with running := d.lens.running ++ [RunTile.mk t again (d.regionCycles t.region) act wgt] } }
        d.occupy t (gratingBits p.actFmt) (gratingBits p.wgtFmt)
      | _, _ => d.operandLost t

/-- A stopped tile, or a piece of it on a re-placed partition, is issued again (R249, R25): it is counted, its samples flagged. It has
failed before in this window when its checksum stopped it in this tick (R250). -/
def Dev.reissue (d : Dev) (s : StoppedTile) (t : Tile) (bad : List MemEvent) : Dev :=
  let rest := s.left - t.m * t.k * t.n
  let keep (x : StoppedTile) : Option StoppedTile := if x = s then (if rest = 0 then none else some { s with left := rest }) else some x
  let d := { d with lens := { d.lens with stopped := d.lens.stopped.filterMap keep },
                    plan := { d.plan with reissued := d.plan.reissued ++ [t] } }
  let d := if t.onGrating then d.bump (C.GRT_TILES_REISSUED (t.partition - 1024)) else d.bumpFacet C.LNS_TILES_REISSUED t.facet
  (d.flagRerun t).stream t (s.cause = 6 && s.tick = d.plan.tick) true bad

/-- TILE_ISSUE, GRATING_TILE_ISSUE: a first issue, or the re-issue of a tile that stopped and was granted it. -/
def Dev.tileIssue (d : Dev) (t : Tile) (bad : List MemEvent) : Dev :=
  if !d.mayIssue t then d
  else
    match d.lens.stopped.find? fun s => d.isReissue s t with
    | some s => if s.granted then d.reissue s t bad else d
    | none => d.stream t false false bad

/-! ### Done (R222, R223, R227, R235) -/

/-- Products of a tile in each Facet that holds it: Facet, products (Table 6.18). A Gang's Facet 4i + j holds row band i and
column band j (R233). -/
def tileMacs (t : Tile) (perRow : Nat) : List (Nat × Nat) :=
  if t.form = .gang then
    let rows := 16 * perRow
    (List.range 16).map fun f =>
      (t.facet / 16 * 16 + f, t.m * min rows (t.k - rows * (f / 4)) * min 16 (t.n - 16 * (f % 4)))
  else t.facets.map fun f => (f, t.m * t.k * t.n)

/-- The cycles of a tile (Table 6.4), and the waits of its cores and cluster; those for the side lane freeze the drain (R319). -/
def Dev.tileCycles (d : Dev) (t : Tile) (p : Pass) (y : FacetCycles) : Dev :=
  let d := d.countCycles t p.unit ⟨y.feed, y.drain + (if t.onGrating then 0 else y.sideWait), d.busyOf t, y.load⟩
  if t.onGrating then d.bump (C.LNS_CMEM_CONFLICT ((t.partition - 1024) % 16)) y.cmemConflict
  else
    let c := t.facet / 64
    let first := if t.form = .gang then t.facet / 16 % 4 * 4 else t.facet / 4 % 16
    let cores := if t.form = .gang then 4 else 1
    let d := d.each (List.range cores) fun d i => d.bump (C.LNS_PORT_CONFLICT c (first + i)) (y.portConflict.getD i 0)
    (d.bump (C.LNS_SIDE_WAIT c (first + cores - 1)) y.sideWait).bump (C.LNS_CMEM_CONFLICT c) y.cmemConflict

/-- A checksum failure logged (Tables 6.15 and 6.21). -/
def Dev.logCheck (d : Dev) (t : Tile) (facet : Nat) (fail : CheckFail) : Dev :=
  let (kind, vector, column) := match fail with | .column _ v => (0, v, 0) | .row c => (1, 0, c)
  if t.onGrating then
    let g := t.partition - 1024
    if d.on (R.GRT_CHK_LOG_VALID g) then d.bump (C.GRT_CHK_LOG_LOST g)
    else
      (((d.put (R.GRT_CHK_LOG_VALID g) 1).put (R.GRT_CHK_LOG_VECTOR g) vector).put (R.GRT_CHK_LOG_CONTEXT g) t.context.val).put
        (R.GRT_CHK_LOG_TICK g) d.tick32
  else
    let c := facet / 64
    if d.on (R.LNS_CHK_LOG_VALID c) then d.bump (C.LNS_CHK_LOG_LOST c)
    else
      let d := ((d.put (R.LNS_CHK_LOG_VALID c) 1).put (R.LNS_CHK_LOG_CORE c) (facet / 4 % 16)).put (R.LNS_CHK_LOG_FACET c) (facet % 4)
      let d := ((d.put (R.LNS_CHK_LOG_KIND c) kind).put (R.LNS_CHK_LOG_VECTOR c) vector).put (R.LNS_CHK_LOG_COLUMN c) column
      (d.put (R.LNS_CHK_LOG_CONTEXT c) t.context.val).put (R.LNS_CHK_LOG_TICK c) d.tick32

/-- The Facets a failure is counted in, the one it is logged for first: in a Gang the Facet whose column check failed, or every Facet
of the column's band (R235); else the tile's own. -/
def failedFacets (t : Tile) (fail : CheckFail) : List Nat :=
  match t.form, fail with
  | .gang, .column i _ => [t.facet / 16 * 16 + i]
  | .gang, .row c => (List.range 4).map fun i => t.facet / 16 * 16 + 4 * i + c / 16 % 4
  | _, _ => [t.facet]

/-- CHECKSUM_FAILURE: counted, logged, held against the units (Table 11.4); the tile stops and adds nothing. A tile that failed
before in this window and was re-issued quarantines its partition's context (R250). -/
def Dev.checkFailed (d : Dev) (r : RunTile) (fail : CheckFail) : Dev :=
  let t := r.tile
  let fs := failedFacets t fail
  let d := d.logCheck t (fs.headD 0) fail
  let d := if t.onGrating then
      ((d.bump (C.GRT_CHK_MISMATCH (t.partition - 1024))).health 0x11 t.partition).failure 3 (t.partition - 1024)
    else d.each fs fun d f => ((d.bumpFacet C.LNS_CHK_MISMATCH f).health 0x11 f).failure 0 f
  let d := d.stopTile 6 r
  if r.again then d.contextFault t.context.val 5 none t.engine (some t.partition) else d

/-- A tile whose checks passed adds its results (R227) and is counted. -/
def Dev.tilePassed (d : Dev) (r : RunTile) (us : List Upset) (p : Pass) : Dev :=
  let t := r.tile
  let work := t.m * t.k * t.n
  let p := { (r.addTo us p).hold t with lastDone := p.lastDone || t.lastOfPass }
  let d := d.setPass p
  let d := { d with lens := { d.lens with running := d.lens.running.filter fun q => !(q = r) } }
  let d := d.cmdWork (unitEngine p.unit) p.unit p.cmdId [0, 0, 0, work]
  let d := if t.part = 0 || t.part = p.parts then d.bump (C.LNS_MACS_BY_FMT p.wgtFmt) work else d
  let d := if t.onGrating then d.bump (C.GRT_VECTORS (t.partition - 1024)) t.m
    else d.each (tileMacs t p.perRow) fun d x => (d.bumpFacet C.LNS_TILES x.1).bumpFacet C.LNS_MACS x.1 x.2
  d.tileLeft t

/-- TILE_DONE, GRATING_TILE_DONE: the oldest running tile that a test takes has streamed, with the faults that its arithmetic met; its
checks decide whether it is done (R222, R227). -/
def Dev.tileDone (d : Dev) (mine : RunTile → Bool) (us : List Upset) (y : FacetCycles) : Dev :=
  match d.lens.running.find? mine with
  | none => d
  | some r =>
    match d.passOf r.tile with
    | none => d
    | some p =>
      let d := d.tileCycles r.tile p y
      match r.checkFail p us (d.get R.LNS_CFG_FP_CHK_SHIFT) with
      | some f => d.checkFailed r f
      | none => d.tilePassed r us p

/-! ### The commands -/

/-- Whether a cluster that a tile works in has stopped. -/
def Dev.tileStopped (d : Dev) (t : Tile) : Bool :=
  d.clusterStopped (clusterOf t.partition) || t.facets.any fun f => d.clusterStopped (f / 64)

/-- TILE_ISSUE (R224). -/
def execTileIssue (t : Tile) (bad : List MemEvent) (s : State) :=
  s.clocked (·.tileStopped t) fun d => if t.onGrating then d else d.tileIssue t bad

/-- TILE_DONE (R227). -/
def execTileDone (partition facet : Nat) (upsets : List Upset) (cycles : FacetCycles) (s : State) :=
  s.clocked (·.clusterStopped (facet / 64)) fun d => d.tileDone (fun r => r.tile.partition = partition && r.tile.facets.contains facet) upsets cycles

/-- GRATING_TILE_ISSUE (R261). -/
def execGratingTileIssue (t : Tile) (bad : List MemEvent) (s : State) :=
  s.clocked (·.tileStopped t) fun d => if t.onGrating then d.tileIssue t bad else d

/-- GRATING_TILE_DONE (R262). -/
def execGratingTileDone (grating : Fin 16) (upsets : List Upset) (cycles : FacetCycles) (s : State) :=
  s.clocked (·.clusterStopped grating.val) fun d => d.tileDone (fun r => r.tile.onGrating && r.tile.partition = 1024 + grating.val) upsets cycles

end Sys2Proof.Machine
end

