-- ==== Sys2Proof/Machine/Publish.lean ====
section
/-! DEFINITION. What a drain makes of its accumulators (chapter 8): side lane, bias and rescale, conversion, the statistics
record, the swap of the output pair, widen requests, the scales the device maintains, and the publications that tensor watches
wait for (R527). -/

namespace Sys2Proof.Machine

/-! ### From accumulators to codes (R316 to R321) -/

/-- `OUTLIER_COUNT` of a pass. -/
def Pass.outliers (p : Pass) : Nat := leAt p.qblock 44 1

/-- The side sum of an output (R317, R318). -/
def Pass.sideSum (p : Pass) (v c : Nat) : Nat :=
  let n := p.outliers
  let a (i : Nat) : Nat := leAt p.side (2 * n + 2 * (v * n + i)) 2
  let w (i : Nat) : Nat := leAt p.side (2 * n + 2 * n * p.mTotal + 2 * (i * p.nTotal + c)) 2
  let sum :=
    if leAt p.qblock 45 1 = 13 then
      (List.range n).foldl (fun s i => fpAdd s (toFp32 ((fmtValue 13 (a i)).mul (fmtValue 13 (w i))))) 0
    else fpOfInt ((List.range n).foldl (fun (s : Int) i => s + toSigned 16 (a i) * toSigned 16 (w i)) 0)
  fpMul sum (fpMul (leAt p.qblock 56 4) (leAt p.qblock 60 4))

/-- v₀ of an output (R316, R320). -/
def Pass.v0 (p : Pass) (v c : Nat) : Nat :=
  let acc := (p.acc.find (v * p.nTotal + c)).getD 0
  let acc := if p.float && !p.onGrating then fpMul acc (p.factor 0) else acc
  let acc := if p.outliers = 0 then acc else fpAdd acc (p.sideSum v c)
  match p.biases[c]? with | some b => fpAdd acc b | none => acc

/-- What the drain writes for one output: its conversion, and whether INT32 saturated on the way. -/
structure Drained where
  v0 : Nat
  conv : Conv
  saturated : Bool
  deriving DecidableEq, Repr

/-- A conversion to the output format; INT32 does not clip, it saturates (R287, R289). -/
def drainConvert (fmt v0 : Nat) (x : Num) (sat : Bool) : Drained :=
  let k := convert fmt x
  if fmt = 16 then ⟨v0, { k with clipped := false }, sat || k.clipped⟩ else ⟨v0, k, sat⟩

/-- `v × 2^e` cast to INT32 (R281, R321): the value, whether it saturated, whether it was NaN. -/
def castInt32 (v : Num) (e : Int) : Int × Bool × Bool :=
  match v.mul (.dyadic false 1 e) with
  | .fin neg n d => let r := sat32 (signedOf neg (roundHalfUp n d))
                    (r.1, r.2, false)
  | .inf neg => (if neg then -2147483648 else 2147483647, true, false)
  | .nan _ => (0, false, true)

/-- An arithmetic right shift rounding ties away from zero (R321). -/
def shiftRound (p : Int) (shift : Nat) : Int :=
  if shift = 0 then p
  else
    let m : Int := ((p.natAbs + 2 ^ (shift - 1)) / 2 ^ shift : Nat)
    if p < 0 then -m else m

/-- One output by the rescale mode of Table 8.4. -/
def Pass.drain (p : Pass) (v c : Nat) : Drained :=
  let v0 := p.v0 v c
  let x := fp32 v0
  let fmt := p.outFmt
  let z := descZero p.outDesc
  let s := fp32 (descScale p.outDesc)
  let word := p.rescale.getD c 0
  let mult := toSigned 32 word
  let shift := bitsOf word 32 6
  if !p.perChannel then drainConvert fmt v0 (if z = 0 then x.div s else (x.div s).add (.ofInt z)) false
  else if (fmtFloat fmt).isSome then
    drainConvert fmt v0 ((x.mul (.dyadic (decide (mult < 0)) mult.natAbs (-(shift : Int)))).div s) false
  else
    let (t, sat, nan) := castInt32 x (toSigned 8 (leAt p.qblock 43 1))
    let k := drainConvert fmt v0 (.ofInt (shiftRound (t * mult) shift + z)) sat
    if nan then { k with conv := { k.conv with squashed := true, clipped := false } } else k

/-- All outputs of a pass, vector by vector. -/
def Pass.outputs (p : Pass) : List Drained :=
  (List.range p.mTotal).flatMap fun v => (List.range p.nTotal).map fun c => p.drain v c

/-- Whether an output is in the underflow share: non-zero before, real value 0 after, clipped or not (Table 8.5); a NaN is no value that
underflows (log entry 65, DEDUCED). -/
def Pass.underflows (p : Pass) (o : Drained) : Bool :=
  !(fp32 o.v0).eqv (.ofInt 0) && !fpIsNan o.v0 && (fmtValue p.outFmt o.conv.code).eqv (.ofInt (descZero p.outDesc))

/-- `AMAX`: the largest finite magnitude before conversion. -/
def amaxOf (os : List Drained) : Nat :=
  os.foldl (fun a o => if fpIsFinite o.v0 && fpLt a (fpAbs o.v0) then fpAbs o.v0 else a) 0

/-- Whether an output is written as an infinity. -/
def Pass.writesInf (p : Pass) (o : Drained) : Bool :=
  match fmtValue p.outFmt o.conv.code with | .inf _ => true | _ => false

/-! ### The statistics record (R323, R324) -/

/-- The statistics of a pass, with the saturations of Table 8.5. -/
structure Stats where
  values : Nat
  clipped : Nat
  underflow : Nat
  nanSq : Nat
  amax : Nat
  deriving DecidableEq, Repr

/-- The statistics of a pass's outputs. -/
def Pass.stats (p : Pass) (os : List Drained) : Stats :=
  { values := min os.length 0xFFFFFFFF, clipped := min (os.countP fun o => o.conv.clipped) 0xFFFFFF,
    underflow := min (os.countP p.underflows) 0xFFFFFF, nanSq := min (os.countP fun o => o.conv.squashed) 255, amax := amaxOf os }

/-- A statistics record (Table 8.5). -/
def Stats.bytes (s : Stats) (qflags : Nat) : List Byte :=
  leBytes 4 s.values ++ leBytes 3 s.clipped ++ leBytes 1 qflags ++ leBytes 3 s.underflow ++ leBytes 1 s.nanSq ++ leBytes 4 s.amax

/-- The statistics a record holds. -/
def statsOf (b : List Byte) : Stats :=
  { values := leAt b 0 4, clipped := leAt b 4 3, underflow := leAt b 8 3, nanSq := leAt b 11 1, amax := leAt b 12 4 }

/-- Whether the clipped share exceeds the output's threshold (R324). -/
def Stats.clipOver (s : Stats) (p : Pass) : Bool := decide (descClip p.outDesc * s.values < s.clipped * 2 ^ 20)

/-- Whether the underflow share exceeds 1/16 (R324). -/
def Stats.underOver (s : Stats) : Bool := decide (s.values < s.underflow * 16)

/-- `STAT_ADDR` of a pass. -/
def Pass.statAddr (p : Pass) : Nat := leAt p.qblock 24 8

/-- Flags added to the `QFLAGS` of a record already written. -/
def Dev.addFlags (d : Dev) (p : Pass) (flags : Nat) : Dev :=
  let a := p.statAddr + 7
  let (d, bs) := d.fetchFree a 1
  d.store a (leBytes 1 ((byteAt bs 0).toNat ||| flags))

/-- The Lens core whose counters a pass counts in; a Gang drains through row band 3, the last core of its quad (R233, R299). -/
def Pass.core (p : Pass) : Option Nat := if p.onGrating then none else some (p.partition / 4 + if p.gang then 3 else 0)

/-- A counter of the core or Grating of a pass raised; a unit without the counter counts nothing. -/
def Dev.bumpPass (d : Dev) (p : Pass) (lens : Nat → Nat → Nat) (grt : Option (Nat → Nat)) (n : Nat := 1) : Dev :=
  match p.core, grt with
  | some c, _ => d.bump (lens (c / 16) (c % 16)) n
  | none, some g => d.bump (g (p.partition - 1024)) n
  | none, none => d

/-! ### Scales (R331, Table 8.7) -/

/-- TOP of a format: its largest finite positive value. -/
def topOf (fmt : Nat) : Num :=
  match fmtFloat fmt with
  | some f => f.decode f.maxCode
  | none =>
    match fmtSigned fmt, fmtUnsigned fmt with
    | some w, _ => .ofInt (2 ^ (w - 1) - 1)
    | _, some w => .ofInt (2 ^ w - 1)
    | _, _ => .ofInt 1

/-- a × 2ʰ / TOP in FP32. -/
def scaleFrom (a h fmt : Nat) : Nat := toFp32 (((fp32 a).mul (.dyadic false 1 h)).div (topOf fmt))

/-- The exponent of f of row 4: ⌊log₂(TOP · s / (a · 2ʰ))⌋, at most 16. -/
def unusedLog (s a h fmt : Nat) : Int :=
  match ((topOf fmt).mul (fp32 s)).div ((fp32 a).mul (.dyadic false 1 h)) with
  | .fin _ n den => if n = 0 then 0 else min 16 (floorLog2 n den)
  | _ => 16

/-- Table 8.7: the new scale, the `QFLAGS` bit, the event's row (1 to 6). -/
def scaleRow (s a h fmt : Nat) (clip under rerun : Bool) : Nat × Nat × Nat :=
  if a = 0 then (s, 0, 1)
  else if clip && rerun then (scaleFrom a h fmt, 4, 2)
  else if clip then
    let x := scaleFrom a h fmt
    let y := fpMul s (fpOfNat 2)
    (if fpLt y x then x else y, 4, 3)
  else if under then
    let e := unusedLog s a h fmt
    if 1 ≤ e then (toFp32 ((fp32 s).mul (.dyadic false 1 (-e))), 8, 4) else (s, 32, 5)
  else (s, 0, 6)

/-- Whether the device maintains the scale of a pass's output here: a `DYNAMIC` activation, or a tensor in FP16 fallback (R331,
R334). -/
def Pass.scaled (p : Pass) : Bool := (descDynamic p.outDesc && descRole p.outDesc = 0) || descFallback p.outDesc

/-- Whether an FP32 pattern is positive, finite and normal (R306). -/
def fpNormal (x : Nat) : Bool := decide (0x00800000 ≤ x ∧ x < 0x7F800000)

/-- A new scale as R306 has it: where a formula leaves the positive, finite, normal values, some such value (log entry 65, DESIGN
CHOICE). -/
def Dev.normalScale (d : Dev) (x : Nat) : Nat × Dev :=
  if fpNormal x then (x, d) else let (k, d) := d.draw; (0x00800000 + k % 0x7F000000, d)

/-- SCALE_UPDATE: the scale of a `DYNAMIC` tensor after a step, in its descriptor; the flag its record carries. -/
def Dev.scaleUpdate (d : Dev) (p : Pass) (st : Stats) (rerun : Bool) : Dev × Nat :=
  if !p.scaled then (d, 0)
  else
    let fmt := if descFallback p.outDesc then 13 else descFmt p.outDesc
    let (s, flag, row) := scaleRow (descScale p.outDesc) st.amax (descHeadroom p.outDesc) fmt (rerun || st.clipOver p) st.underOver rerun
    let d := if row = 2 || row = 3 then d.bumpPass p C.LNS_SCALE_RECOMPUTED none
      else if row = 4 then d.bumpPass p C.LNS_UNDERFLOW_RESCALE none
      else if row = 5 then d.bumpPass p C.LNS_UNDERFLOW_NOFIX none else d
    if flag = 4 || flag = 8 then
      let (s, d) := d.normalScale s
      (d.store (leAt p.qblock 16 8 + 4) (leBytes 4 s), flag)
    else (d, flag)

/-! ### Publications that watches wait for (R527, R529) -/

/-- The state of a watch. -/
def Dev.watchRun (d : Dev) (w : Nat) : WatchRun := (d.lpe.watches.find w).getD ⟨0, none, none⟩

/-- The state of a watch replaced. -/
def Dev.setWatch (d : Dev) (w : Nat) (x : WatchRun) : Dev :=
  { d with lpe := { d.lpe with watches := Sparse.put d.lpe.watches w x } }

/-- The watches of a pass's output, by mode. -/
def Dev.watchesOf (d : Dev) (p : Pass) (mode : Nat) : List Nat :=
  (List.range 64).filter fun w =>
    d.on (R.LPE_WATCH_EN w) && d.get (R.LPE_WATCH_MODE w) = mode && d.get (R.LPE_WATCH_CONTEXT w) = p.context
      && d.get (R.LPE_WATCH_ADDR w) = (if mode = 0 then p.qaddr else leAt p.qblock 16 8)

/-- A publication of a tensor: every `EVERY`-th makes its watches due. A watch of a faulted context does not fire. -/
def Dev.published (d : Dev) (p : Pass) (mode : Nat) : Dev :=
  if d.faulted p.context then d
  else
    d.each (d.watchesOf p mode) fun d w =>
      let x := d.watchRun w
      if d.get (R.LPE_WATCH_EVERY w) ≤ x.pubs + 1 then
        d.setWatch w { x with pubs := 0, due := some ⟨p.statAddr, placeOf p.outDesc p.out, p.cmdId, descScale p.outDesc⟩ }
      else d.setWatch w { x with pubs := x.pubs + 1 }

/-- A swap of a pair that Loupe has not finished reading, or has not begun to read: no report will be written, and each is counted
(R529). -/
def Dev.tearWatches (d : Dev) (p : Pass) : Dev :=
  d.each (d.watchesOf p 0 ++ d.watchesOf p 1) fun d w =>
    let x := d.watchRun w
    (d.bump C.LPE_WATCH_TORN (b2n x.due.isSome + b2n x.reading.isSome)).setWatch w { x with due := none, reading := none }

/-! ### Widening (R325 to R330) -/

/-- RELEASE_SIGNAL: the result of an operation with a clip threshold is final (R330). -/
def Dev.release_ (d : Dev) (p : Pass) : Dev :=
  (d.signal p.context (leAt p.qblock 46 2) 1 p.engine).published p 0

/-- The narrow result of a request stands: `CLIP_STANDS`, the scale row without a re-run, the release (R329, R331). -/
def Dev.narrowStands (d : Dev) (p : Pass) : Dev :=
  let (d, bs) := d.fetchFree p.statAddr 16
  let (d, flag) := d.scaleUpdate p (statsOf bs) false
  (d.addFlags p (2 ||| flag)).release_ p

/-- A widen request refused (R329). -/
def Dev.widenRefuse (d : Dev) (p : Pass) : Dev :=
  (d.bumpPass p C.LNS_WIDEN_REFUSED (some C.GRT_WIDEN_REFUSED)).narrowStands p

/-- A widen request granted: the re-run begins with its first tile; every sample with a vector in it is flagged (R327, R328). -/
def Dev.widenGrant (d : Dev) (p : Pass) : Dev :=
  let d := { d with lens := { d.lens with granted := d.lens.granted ++ [p] } }
  d.each p.slots fun d s => match d.sample? s with | some x => d.setSample { x with widened := true } | none => d

/-- WIDEN_REQUEST (R325, R326): refused at once without a wider output format, granted at once for learning work, else left to
the tick planner. -/
def Dev.widenRequest (d : Dev) (p : Pass) : Dev :=
  let d := d.bumpPass p C.LNS_WIDEN_REQ (some C.GRT_WIDEN_REQ)
  if (widerOut (descFmt p.outDesc)).isNone then d.widenRefuse p
  else if p.learning then d.widenGrant p
  else { d with lens := { d.lens with widen := d.lens.widen ++ [p] } }

/-- The verdict deadline of a batch ends its requests and re-runs; the narrow results stand (Table 8.8). A re-run that is
complete is published all the same (R242); work of a stepping context has no deadline (R537). -/
def Dev.widenDeadline (d : Dev) : Dev :=
  let l := d.lens
  let verdict (p : Pass) : Bool := !p.learning && d.hasDeadline p.context p.tier
  let asked := l.widen.filter verdict
  let cut := l.granted.filter verdict ++ l.passes.filter fun p => p.wide && verdict p && !d.complete p
  let d := { d with lens := { l with widen := l.widen.filter fun p => !verdict p, granted := l.granted.filter fun p => !verdict p } }
  let d := d.each asked Dev.widenRefuse
  d.each cut Dev.narrowStands

/-! ### The swap (R241 to R243) -/

/-- Conversions of a drain counted in its unit (R299). -/
def Dev.countDrain (d : Dev) (p : Pass) (os : List Drained) : Dev :=
  let d := d.bumpPass p C.LNS_CLIPPED (some C.GRT_CLIPPED) (os.countP fun o => o.conv.clipped)
  let d := d.bumpPass p C.LNS_NAN_SQUASHED none (os.countP fun o => o.conv.squashed)
  d.bumpPass p C.LNS_RESCALE_SATURATED (some C.GRT_RESCALE_SATURATED) (os.countP fun o => o.saturated)

/-- The latest `AMAX` of a tensor in FP16 fallback (R334). -/
def Dev.noteFallback (d : Dev) (p : Pass) (amax : Nat) : Dev :=
  { d with seq := { d.seq with fallback := Sparse.put d.seq.fallback (leAt p.qblock 16 8) (p.model, amax) } }

/-- A model's learner. -/
def Dev.learner (d : Dev) (m : Nat) : Learner := (d.seq.learners.find m).getD Learner.idle

/-- A model's learner replaced. -/
def Dev.setLearner (d : Dev) (m : Nat) (l : Learner) : Dev :=
  { d with seq := { d.seq with learners := Sparse.put d.seq.learners m l } }

/-- A pass of a training step that overflowed, noted for the step's end (R332, R333). -/
def Dev.noteOverflow (d : Dev) (p : Pass) (os : List Drained) (amax : Nat) : Dev :=
  let l := d.learner p.model
  let a := leAt p.qblock 16 8
  if !p.learning || l.step.isNone then d
  else
    let o : Overflow := ⟨a, amax, os.all fun o => fpIsFinite o.v0, p.core⟩
    d.setLearner p.model { l with overflows := (l.overflows.filter fun x => x.desc != a) ++ [o] }

/-- What a swap does beyond showing the outputs: its record, its widen request or release, its scale (R323 to R333). -/
def Dev.settleStats (d : Dev) (p : Pass) (os : List Drained) : Dev :=
  let st := p.stats os
  let beyond := st.clipOver p
  let act : Bool := descRole p.outDesc = 0
  let threshold : Bool := descClip p.outDesc != 0
  let asks : Bool := threshold && act && beyond && !p.wide
  let spoilt : Bool := (descRole p.outDesc = 2 || descRole p.outDesc = 3)
    && os.any fun o => o.conv.clipped || o.conv.squashed || p.writesInf o
  let (d, flag) := if asks then (d, 0) else d.scaleUpdate p st p.wide
  let stands : Bool := p.wide && beyond
  let qflags := b2n p.wide ||| (if stands then 2 else 0) ||| flag ||| (if spoilt then 16 else 0)
  let d := (d.store p.statAddr (st.bytes qflags)).bumpPass p C.LNS_QPASSES none
  let d := if descFallback p.outDesc then d.noteFallback p st.amax else d
  let d := if spoilt then d.noteOverflow p os st.amax else d
  let d := if p.wide then d.bumpPass p C.LNS_WIDENED (some C.GRT_WIDENED) else d
  let d := if stands then d.bumpPass p C.LNS_WIDE_CLIP_STANDS none else d
  if asks then d.widenRequest p
  else if threshold then d.release_ p
  else d.published p 0

/-- What readers of a published output find: the format of a re-run, where its record names another than its descriptor (R327), and the
scale of a tensor whose scale the device maintains (R331). -/
def Dev.publishFmt (d : Dev) (p : Pass) : Dev :=
  let a := leAt p.qblock 16 8
  let l := d.lens
  let kept : Bool := p.wide || descDynamic p.outDesc || descFallback p.outDesc
  { d with lens := { l with
      published := if kept then Sparse.put l.published a (p.outFmt, descScale p.outDesc) else l.published.drop a } }

/-- What a learning pass writes of weights or optimiser state, kept so that a skipped attempt can take it back (R333). -/
def Dev.keepUndo (d : Dev) (p : Pass) (place : Place) (n : Nat) : Dev :=
  let l := d.learner p.model
  if p.learning && l.step.isSome && (descRole p.outDesc = 1 || descRole p.outDesc = 3) then
    let a := leAt p.qblock 16 8
    d.setLearner p.model { l with undo := ⟨place, d.placeRead place 0 n, a, d.lens.published.find a⟩ :: l.undo }
  else d

/-- OUTPUT_SWAP: the oldest complete pass of a partition shows its outputs, signals its completion and settles its statistics; a pass
whose context has faulted leaves no record and no scale (Table 8.8), but its result is final (R330). -/
def Dev.outputSwap (d : Dev) (partition : Nat) : Dev :=
  match d.lens.passes.find? fun p => p.partition = partition && d.complete p with
  | none => d
  | some p =>
    let os := p.outputs
    let bytes := packElems p.outFmt (os.map fun o => o.conv.code)
    let place := placeOf p.outDesc p.out
    let d := (((d.keepUndo p place bytes.length).engineStore place 0 bytes).publishFmt p).countDrain p os
    let l := d.lens
    let d := { d with lens := { l with passes := l.passes.filter fun q => !(q.partition = p.partition && q.cmdId = p.cmdId),
                                       swapped := p.swap :: l.swapped.filter fun x => x != p.swap } }
    let d := d.endPass p 0
    let d := d.tearWatches p
    let d := if !d.faulted p.context then (d.settleStats p os).published p 1
      else if descClip p.outDesc = 0 then d else d.release_ p
    d.signal p.context p.completion 1 p.engine

/-- OUTPUT_SWAP (R242). -/
def execOutputSwap (partition : Nat) (s : State) := s.clocked (·.clusterStopped (clusterOf partition)) fun d => d.outputSwap partition

end Sys2Proof.Machine
end

