-- ==== Sys2Proof/Machine/Elementwise.lean ====
section
/-! DEFINITION. The elementwise unit of a Lens core (R214, Table 7.6) and the memory mover of a cluster (R255 to R258). -/

namespace Sys2Proof.Machine

/-- The reading context of a stage program faults with cause 6 (R215, Table 13.2). -/
def Dev.readerFault (d : Dev) (c engine partition : Nat) : Dev := d.contextFault c 6 none engine (some partition)

/-! ### The elementwise unit -/

/-- Operands an operation reads: one, two or three. -/
def eltArity : EltOp → Nat
  | .fma => 3
  | .select => 3
  | .abs => 1 | .neg => 1 | .recip => 1 | .sqrt => 1 | .rsqrt => 1 | .exp => 1 | .log => 1 | .tanh => 1 | .sigmoid => 1
  | .vsum => 1 | .vmax => 1 | .vmin => 1
  | _ => 2

/-- Whether an operation is of INT32 type (Table 7.6). -/
def eltInt : EltOp → Bool
  | .iadd => true | .isub => true | .imul => true | .ishl => true | .ishr => true | .iand => true | .ior => true | .ixor => true
  | _ => false

/-- The bounded function an operation is. -/
def eltBounded : EltOp → Option BoundedFn
  | .recip => some .recip | .sqrt => some .sqrt | .rsqrt => some .rsqrt | .exp => some .exp | .log => some .log
  | .tanh => some .tanh | .sigmoid => some .sigmoid | _ => none

/-- An FP32 operation with one exact result (Table 7.6). `compare` with a NaN is false; its relation, the value of its outcome
and the condition of `select` (b or c by a) are free values (log entry 14, DESIGN CHOICE). -/
def eltExact (op : EltOp) (a b c : Nat) : Nat :=
  match op with
  | .add => fpAdd a b
  | .sub => fpSub a b
  | .mul => fpMul a b
  | .fma => fpFma a b c
  | .min => fpMin a b
  | .max => fpMax a b
  | .abs => fpAbs a
  | .neg => fpNegate a
  | .compare => (Config.truth (!fpIsNan a && !fpIsNan b && Config.compareHolds (.ofNat 32 a) (.ofNat 32 b))).toNat
  | .select => if Config.selects (.ofNat 32 a) then b else c
  | _ => a

/-- An INT32 operation: its exact result before saturation (R289); none where a shift by a negative amount has no stated
result. -/
def eltIntExact (op : EltOp) (a b : Int) : Option Int :=
  match op with
  | .iadd => some (a + b)
  | .isub => some (a - b)
  | .imul => some (a * b)
  | .ishl => if b < 0 then none else some (a * 2 ^ min 64 b.toNat)
  | .ishr => if b < 0 then none else some (a / 2 ^ min 64 b.toNat)
  | .iand => some (toSigned 32 (ofSigned 32 a &&& ofSigned 32 b))
  | .ior => some (toSigned 32 (ofSigned 32 a ||| ofSigned 32 b))
  | _ => some (toSigned 32 (ofSigned 32 a ^^^ ofSigned 32 b))

/-- One element of an INT32 operation: its value, and whether it saturated. -/
def Dev.eltIntOne (d : Dev) (op : EltOp) (a b : Int) : Dev × Int × Bool :=
  match eltIntExact op a b with
  | some x => let r := sat32 x
              (d, r.1, r.2)
  | none => let (x, d) := d.draw
            (d, toSigned 32 x, false)

/-- One element of an FP32 operation; a bounded function draws its choice (R290). -/
def Dev.eltFpOne (d : Dev) (op : EltOp) (a b c : Nat) : Dev × Nat :=
  match eltBounded op with
  | some f => ({ d with draws := d.draws + 1 }, boundedFn f d.draws a)
  | none => (d, eltExact op a b c)

/-- A vector reduction (Table 7.6): sums in an order that R297 leaves open. -/
def Dev.eltReduce (d : Dev) (op : EltOp) (xs : List Nat) : Dev × Nat :=
  let x := xs.headD 0
  match op with
  | .vmax => (d, xs.tail.foldl fpMax x)
  | .vmin => (d, xs.tail.foldl fpMin x)
  | _ =>
    let (k, d) := d.draw
    let i := k % max 1 xs.length
    sumPicked xs.length (xs.eraseIdx i) (xs.getD i 0) d

/-- An operand in FP32: a NaN keeps its sign (R280). -/
def opFp32 : Num → Nat
  | .nan neg => fFP32.join neg fFP32.qnan
  | x => toFp32 x

/-- What an operation's operands and results count on the way: INT32 saturations, and NaN operands cast to INT32 (R283, R289). -/
structure EltCounts where
  sats : Nat
  nans : Nat
  deriving DecidableEq, Repr

/-- The counts with another element's. -/
def EltCounts.add (n : EltCounts) (sats nans : List Bool) : EltCounts := ⟨n.sats + sats.countP (·), n.nans + nans.countP (·)⟩

/-- The results of an operation on operand values, as exact values, and what it counts. -/
def Dev.eltRun (d : Dev) (op : EltOp) (xs : List (Num × Num × Num)) : Dev × List Num × EltCounts :=
  let fp (x : Num) : Nat := opFp32 x
  if op = .vsum || op = .vmax || op = .vmin then
    let (d, r) := d.eltReduce op (xs.map fun x => fp x.1)
    (d, [fp32 r], ⟨0, 0⟩)
  else
    xs.foldl (fun (a : Dev × List Num × EltCounts) x =>
      if eltInt op then
        let p := castInt32 x.1 0
        let q := castInt32 x.2.1 0
        let (d, r, sat) := a.1.eltIntOne op p.1 q.1
        (d, a.2.1 ++ [Num.ofInt r], a.2.2.add [p.2.1, q.2.1, sat] [p.2.2, q.2.2])
      else
        let (d, r) := a.1.eltFpOne op (fp x.1) (fp x.2.1) (fp x.2.2)
        (d, a.2.1 ++ [fp32 r], a.2.2)) (d, [], ⟨0, 0⟩)

/-- An operand of an operation: its values, none when it is poison; one that is not read gives zeros. -/
def Dev.eltOperand (d : Dev) (reads : Bool) (p : Place) (fmt n : Nat) (bad : List MemEvent) : Dev × Option (List Num) :=
  if reads then
    let (d, r) := d.elems p fmt 0 n bad
    (d, r.map fun cs => cs.map (fmtValue fmt))
  else (d, some (List.replicate n (.ofInt 0)))

/-- Whether a stage program may issue an operation: it is placed and runs, its work goes on, and a stepped one has a command left of its
`STEP` (R40, R451, R534, R535). -/
def Dev.mayOperate (d : Dev) (partition context model tier : Nat) (learning : Bool) : Bool :=
  (d.plan.placed.any fun p => p.isProgram partition context model tier learning) && d.mayWork context model tier learning
    && (!d.steps context tier learning || d.mayStep context partition)

/-- Cycles that accesses of a mover or an elementwise unit to cluster memory wait for a bank: a free number, where an access has a place
there (Table 6.18; log entry 66, DESIGN CHOICE). -/
def Dev.cmemWait (d : Dev) (c : Nat) (ps : List Place) : Dev :=
  if ps.any fun p => inCluster c p 1 then let (k, d) := d.draw
                                          d.bump (C.LNS_CMEM_CONFLICT c) k
  else d

/-- ELEMENTWISE_OP (R290): operands converted, computed, the results converted to the output format; poison faults the reading
context. -/
def Dev.elementwise (d : Dev) (e : EltCmd) (bad : List MemEvent) : Dev :=
  let engine := e.core.val
  let (part, ctx, model, id) := (e.partition, e.context.val, e.model.val, e.cmdId.toNat)
  if !e.fits || d.coreFenced engine || !d.mayOperate part ctx model e.tier.val e.learning then d
  else
    let d := d.programBegin engine part ctx model e.tier.val e.learning id
    let fin (d : Dev) (cause : Nat) : Dev := d.programEnd engine part id cause 0
    let k := eltArity e.op
    let (cl, j) := (engine / 16, engine % 16)
    let d := d.cmemWait cl ([e.a, e.out] ++ (if 2 ≤ k then [e.b] else []) ++ if 3 ≤ k then [e.c] else [])
    let (d, a) := d.eltOperand true e.a e.aFmt.val e.count bad
    let (d, b) := d.eltOperand (2 ≤ k) e.b e.bFmt.val e.count bad
    let (d, c) := d.eltOperand (3 ≤ k) e.c e.cFmt.val e.count bad
    match a, b, c with
    | some xs, some ys, some zs =>
      let (d, rs, n) := d.eltRun e.op (xs.zip (ys.zip zs))
      let outs := rs.map fun r => drainConvert e.outFmt.val 0 r false
      let d := d.engineStore e.out 0 (packElems e.outFmt.val (outs.map fun o => o.conv.code)) bad
      let d := (d.bump (C.LNS_CLIPPED cl j) (outs.countP fun o => o.conv.clipped)).bump (C.LNS_NAN_SQUASHED cl j)
        (n.nans + outs.countP fun o => o.conv.squashed)
      fin (d.bump (C.LNS_INT32_SATURATED cl j) (n.sats + outs.countP fun o => o.saturated)) 0
    | _, _, _ => fin (d.readerFault ctx engine part) 2

/-! ### The mover -/

/-- MOVER_OP: an operation of a stage program that may issue one joins its cluster's mover (R255, R256); a fenced mover takes none
(R253). -/
def Dev.moverIssue (d : Dev) (o : MoverOp) : Dev :=
  if !o.fits || d.clusterFenced o.cluster.val || !d.mayOperate o.partition o.context.val o.model.val o.tier.val o.learning then d
  else
    let d := if d.stepsMover o then d.stepBegun o.context.val o.partition else d
    { d with lens := { d.lens with movers := d.lens.movers ++ [o] } }.moverNext o.cluster.val

/-- Elements of `bits` bits out of a row's bytes. -/
def rowElems (bits n : Nat) (bs : List Byte) : List Nat :=
  (List.range n).map fun i => bitsOf (leAt bs (i * bits / 8) (cdiv bits 8)) (i * bits % 8) bits

/-- The bytes of a row of elements; bits that no element fills, as the high nibble after an odd count of 4-bit elements, are 0 (log entry 66,
DESIGN CHOICE). -/
def rowBytes (bits : Nat) (xs : List Nat) : List Byte :=
  leBytes (cdiv (xs.length * bits) 8) (xs.foldr (fun x n => n * 2 ^ bits + x % 2 ^ bits) 0)

/-- The source block of an operation, row by row; none when a row is poison. -/
def Dev.moverSource (d : Dev) (o : MoverOp) (bad : List MemEvent) : Dev × Option (List (List Nat)) :=
  (List.range o.rows).foldl (fun (a : Dev × Option (List (List Nat))) r =>
    let (d, row) := a.1.placeFetch o.src (r * o.srcPitch) (cdiv (o.cols * o.elemBits) 8) bad
    (d, match a.2, row with | some rs, some bs => some (rs ++ [rowElems o.elemBits o.cols bs]) | _, _ => none)) (d, some [])

/-- A block with rows and columns exchanged (R257). -/
def transposed (rows : List (List Nat)) (cols : Nat) : List (List Nat) :=
  (List.range cols).map fun c => rows.map fun r => r.getD c 0

/-- MOVER_COMPLETE: the oldest operation of a cluster's mover has written its block and signals its counter (R258); one that
read poison faults its context (R215). -/
def Dev.moverComplete (d : Dev) (c : Nat) (bad : List MemEvent) : Dev :=
  match takeFirst (fun (o : MoverOp) => o.cluster.val = c) d.lens.movers with
  | none => d
  | some (o, rest) =>
    let d := { d with lens := { d.lens with movers := rest } }
    let fin (d : Dev) (cause : Nat) : Dev := d.programEnd (moverEngine c) o.partition o.cmdId.toNat cause 0
    match (d.cmemWait c [o.src, o.dst]).moverSource o bad with
    | (d, none) => (fin (d.readerFault o.context.val (moverEngine c) o.partition) 2).moverNext c
    | (d, some rows) =>
      let out := if o.transpose then transposed rows o.cols else rows
      let lines := out.map (rowBytes o.elemBits)
      let d := d.each ((List.range lines.length).zip lines) fun d l => d.engineStore o.dst (l.1 * o.dstPitch) l.2 bad
      let n := (lines.map List.length).sum
      let d := (d.bump (C.LNS_MOVER_OPS c)).bump (C.LNS_MOVER_BYTES c) n
      let d := if o.transpose then d.bump (C.LNS_MOVER_TRANSPOSED_BYTES c) n else d
      let d := d.cmdWork (moverEngine c) o.partition o.cmdId.toNat [0, 0, 0, n]
      ((fin d 0).signal o.context.val o.signal.toNat 1 (moverEngine c)).moverNext c

/-! ### The commands -/

/-- ELEMENTWISE_OP (R290). -/
def execElementwiseOp (op : EltCmd) (bad : List MemEvent) (s : State) := s.clocked (·.clusterStopped (op.core.val / 16)) fun d => d.elementwise op bad

/-- MOVER_OP (R256). -/
def execMoverOp (op : MoverOp) (s : State) := s.clocked (·.clusterStopped op.cluster.val) fun d => d.moverIssue op

/-- MOVER_COMPLETE (R258). -/
def execMoverComplete (cluster : Fin 16) (bad : List MemEvent) (s : State) := s.clocked (·.clusterStopped cluster.val) fun d => d.moverComplete cluster.val bad

end Sys2Proof.Machine
end

