-- ==== Sys2Proof/Machine/Forest.lean ====
section
/-! DEFINITION. Forest engines (chapter 9): replicas and their engines, the gather, nodes, exit leaves and lane scores,
integrity of the forest memories, shadow banks and their flip, and the commands of the forest engines. -/

namespace Sys2Proof.Machine

/-! ### Replicas (R340, R343) -/

/-- The engine that holds a stage of a replica of a model. -/
def Dev.stageEngine (d : Dev) (m r s : Nat) : Option Nat :=
  (List.range 32).find? fun e =>
    !d.engineFenced e && d.get (R.FOR_ENGINE_STAT_MODEL e) = m && d.get (R.FOR_ENGINE_STAT_REPLICA e) = r
      && d.get (R.FOR_ENGINE_STAT_STAGE e) = s

/-- The engines of a replica, stage by stage. -/
def Dev.replicaEngines (d : Dev) (m r : Nat) : List Nat :=
  (List.range (d.get (R.FOR_MODEL_STAGES m))).filterMap fun s => d.stageEngine m r s

/-- The numbers of the replicas of a model; after a fence they may have gaps (R426). -/
def Dev.replicaList (d : Dev) (m : Nat) : List Nat := (List.range 32).filter fun r => (d.stageEngine m r 0).isSome

/-- Whether a model has a forest tier with a replica placed. -/
def Dev.forestPlaced (d : Dev) (m : Nat) : Bool :=
  d.get (R.FOR_MODEL_STAGES m) != 0 && d.get (R.FOR_MODEL_REPLICAS m) != 0

/-- `STATE` of every engine follows the samples in its replica (Table 9.15). -/
def Dev.engineStates (d : Dev) : Dev :=
  d.each (List.range 32) fun d e =>
    let busy := d.lens.jobs.any fun j =>
      j.model = d.get (R.FOR_ENGINE_STAT_MODEL e) && j.replica = d.get (R.FOR_ENGINE_STAT_REPLICA e)
    if d.engineFenced e then d else d.put (R.FOR_ENGINE_STAT_STATE e) (b2n busy)

/-! ### The gather (R344, R345) -/

/-- The raw bytes of a feature in a sample record, as a number in the feature's byte order, and zero-extended as they stand. -/
def Dev.featRaw (d : Dev) (m f : Nat) (rec : List Byte) : Nat :=
  let off := d.get (R.FOR_FEATURE_SRC_OFF m f)
  let n := 2 ^ d.get (R.FOR_FEATURE_WIDTH m f)
  if d.on (R.FOR_FEATURE_ORDER m f) then beAt rec off n else leAt rec off n

/-- Whether a feature is missing (R345). -/
def Dev.featMissing (d : Dev) (m f : Nat) (rec : List Byte) : Bool :=
  (d.on (R.FOR_FEATURE_VALID_EN m f) && bitsOf (leAt rec 40 4) (d.get (R.FOR_FEATURE_VALID_BIT m f)) 1 = 0)
    || (d.on (R.FOR_FEATURE_SENT_EN m f) && d.featRaw m f rec = d.get (R.FOR_FEATURE_SENTINEL m f))

/-- A float feature: NaN, or its FP32 value (R284). -/
def floatFeat (f : FloatFmt) (code : Nat) : Feat :=
  match f.decode code with
  | .nan _ => .nan
  | x => .float (toFp32 x)

/-- A feature of a sample (R345). -/
def Dev.feat (d : Dev) (m f : Nat) (rec : List Byte) : Feat :=
  let raw := d.featRaw m f rec
  if d.featMissing m f rec then .missing
  else
    match d.get (R.FOR_FEATURE_TYPE m f) with
    | 0 => .uint raw
    | 1 => .int (toSigned (8 * 2 ^ d.get (R.FOR_FEATURE_WIDTH m f)) raw)
    | 2 => floatFeat fFP32 raw
    | 3 => floatFeat fFP16 raw
    | 4 => floatFeat fBF16 raw
    | _ => .cat raw

/-- What a gather counts for a feature vector: missing, NaN, category values above 255. -/
def Dev.countFeats (d : Dev) (fs : List Feat) : Dev :=
  let missing := fs.countP fun f => match f with | .missing => true | _ => false
  let nan := fs.countP fun f => match f with | .nan => true | _ => false
  let wideCat := fs.countP fun f => match f with | .cat v => decide (255 < v) | _ => false
  ((d.bump C.FOR_MISSING missing).bump C.FOR_NAN nan).bump C.FOR_CAT_RANGE wideCat

/-! ### Nodes, trees, stages (R346 to R351) -/

/-- Whether node `n` of engine `e` goes left on a feature (Table 9.3). -/
def Dev.goesLeft (d : Dev) (e n : Nat) (f : Feat) : Bool :=
  let thr := d.get (R.FOR_NODE_THRESHOLD e n)
  let dflt := d.on (R.FOR_NODE_DEFAULT_LEFT e n)
  match f with
  | .missing => dflt
  | .nan => dflt
  | .uint v => decide (v < thr)
  | .int v => decide (v < toSigned 32 thr)
  | .float x => fpLt x thr
  | .cat v => if 255 < v then dflt else bitsOf (d.get (R.FOR_CATSET_SET e (thr % 1024) (v / 64))) (v % 64) 1 = 1

/-- The leaves that the nodes of a tree clear: first and last of each (R349). -/
def Dev.clearedRanges (d : Dev) (e t : Nat) (fs : List Feat) : List (Nat × Nat) :=
  (range (d.get (R.FOR_TREE_NODE_BASE e t)) (d.get (R.FOR_TREE_NODE_COUNT e t))).filterMap fun n =>
    if d.on (R.FOR_NODE_VALID_NODE e n) && !d.goesLeft e n (fs.getD (d.get (R.FOR_NODE_FEATURE e n)) .missing) then
      some (d.get (R.FOR_NODE_LEAF_LO e n), d.get (R.FOR_NODE_LEAF_HI e n))
    else none

/-- The exit leaf of a tree: the lowest-numbered leaf that no node clears (R349). -/
def Dev.exitLeaf (d : Dev) (e t : Nat) (fs : List Feat) : Option Nat :=
  let cleared := d.clearedRanges e t fs
  (List.range (d.get (R.FOR_TREE_LEAF_COUNT e t))).find? fun x => !cleared.any fun c => c.1 ≤ x && x ≤ c.2

/-- What an active tree gives: a continuation, or a lane and the leaf value added to it (R350). -/
inductive TreeOut where
  | next (tree : Nat)
  | value (lane v : Nat)
  deriving DecidableEq, Repr

/-- The result of an active tree. -/
def Dev.treeOut (d : Dev) (e t : Nat) (fs : List Feat) : Option TreeOut :=
  (d.exitLeaf e t fs).map fun x =>
    let i := d.get (R.FOR_TREE_LEAF_BASE e t) + x
    if d.on (R.FOR_LEAF_CONT e i) then .next (d.get (R.FOR_LEAF_NEXT_TREE e i))
    else .value (d.get (R.FOR_TREE_LANE e t)) (d.get (R.FOR_LEAF_VALUE e i))

/-- The listed trees of an engine: entries in use (an unlisted entry reads 0, not valid). -/
def Dev.treesOf (d : Dev) (e : Nat) : List Nat :=
  let lo := 0x720000000 + 0x2000 * e
  d.regs.filterMap fun w =>
    if lo ≤ w.1 && w.1 < lo + 0x2000 && w.2.toNat.testBit 49 then some ((w.1 - lo) / 8) else none

/-- One stage of a sample: the trees its continuation leaves activate in the next stage, and the lanes after it. The additions
to a lane come in an order left open (R351). -/
def Dev.forestStage (d : Dev) (e : Nat) (fs : List Feat) (activated : List Nat) (lanes : List Nat) :
    Dev × List Nat × List Nat :=
  let outs := ((d.treesOf e).filter fun t => d.on (R.FOR_TREE_ROOT e t) || activated.contains t).filterMap fun t => d.treeOut e t fs
  let next := outs.filterMap fun o => match o with | .next t => some t | _ => none
  (List.range 16).foldl (fun (a : Dev × List Nat × List Nat) l =>
    let vs := outs.filterMap fun o => match o with | .value k v => if k = l then some v else none | _ => none
    let (d, x) := sumPicked vs.length vs (a.2.2.getD l 0) a.1
    (d, a.2.1, a.2.2.set l x)) (d, next, lanes)

/-- Whether a sample that reaches stage `s` on engine `e` fails there: it failed while a word was bad, or reaches it with one bad (R360). -/
def Dev.failsAt (d : Dev) (j : ForestJob) (s e : Nat) : Bool :=
  j.failed = some s || (j.failed.isNone && d.on (R.FOR_ENGINE_STAT_WORD_BAD e) && !j.past.contains s)

/-- A sample through the stages of its replica, each with its engine: the raw scores, or none where it failed (R351, R360). -/
def forestRun (j : ForestJob) : List (Nat × Nat) → Dev → List Nat → List Nat → Dev × Option (List Nat)
  | [], d, _, lanes => (d, some lanes)
  | (s, e) :: es, d, activated, lanes =>
    let d := d.bump (C.FOR_BUSY_CYCLES e)
    if d.failsAt j s e then (d.bump (C.FOR_SAMPLES_FAILED e), none)
    else
      let (d, next, lanes) := (d.bump (C.FOR_SAMPLES e)).forestStage e j.feats activated lanes
      forestRun j es d next lanes

/-- The stages of a replica, each with its engine. -/
def Dev.replicaStages (d : Dev) (m r : Nat) : List (Nat × Nat) :=
  let es := d.replicaEngines m r
  (List.range es.length).zip es

/-! ### Commands of a replica's window (R521) -/

/-- The `CMD_ID` of a model's forest window. -/
def forestCmd (m : Nat) : Nat := (Config.cmdOf m 2).toNat

/-- The context of a model's forest tier, as placement put it. -/
def Dev.forestContext (d : Dev) (m : Nat) : Nat :=
  match d.plan.placed.find? fun p => p.kind = 3 && p.model = m with | some p => p.context | none => 0

/-- The forest window of a replica begins with its first sample, on the engine of stage 0. -/
def Dev.replicaBegin (d : Dev) (m r : Nat) : Dev :=
  match d.stageEngine m r 0 with
  | some e => if d.runsModel (0x2000 + e) m then d else d.cmdBegin (0x2000 + e) (0x2000 + e) (d.forestContext m) m (forestCmd m)
  | none => d

/-- The forest window of a replica ends with a cause of Table 14.4. -/
def Dev.replicaEnd (d : Dev) (m r cause : Nat) : Dev :=
  match d.stageEngine m r 0 with
  | some e => d.cmdEnd (0x2000 + e) (0x2000 + e) (forestCmd m) cause 0
  | none => d

/-! ### A sample enters and leaves (R343, R353 to R355, R361) -/

/-- The samples of a model in the computing batch, in slot order. -/
def Dev.modelSamples (d : Dev) (m : Nat) : List Sample :=
  match d.plan.computing with | some b => b.samples.filter fun s => s.model = m | none => []

/-- Whether the stage program of a replica runs: no fault has stopped it (R451). -/
def Dev.replicaRuns (d : Dev) (m r : Nat) : Bool :=
  !d.plan.placed.any fun p => p.kind = 3 && p.model = m && p.id = r && !p.running

/-- A replica has frozen for some cycles: its samples are that much later (R354). -/
def Dev.replicaFroze (d : Dev) (m r stall : Nat) : Dev :=
  let d := d.each (d.replicaEngines m r) fun d e => d.bump (C.FOR_STALL_FEED e) stall
  let late (j : ForestJob) : ForestJob := if j.model = m && j.replica = r then { j with issued := j.issued + stall } else j
  { d with lens := { d.lens with jobs := d.lens.jobs.map late } }

/-- A sample enters the replica of its number (R343): its features are gathered from its record; a record that reads as poison, or a
replica whose program has stopped, gives it no T0 (Table 13.2, R451). -/
def Dev.forestEnter (d : Dev) (b : Batch) (s : Sample) (j : Nat) (bad : List MemEvent) (stall : Nat) : Dev :=
  let m := s.model
  let rs := d.replicaList m
  let r := rs.getD (j % max 1 rs.length) 0
  if !d.replicaRuns m r then d.setSample { s with dead := true }
  else
  let d := d.replicaFroze m r stall
  match d.fetch (d.slotAddr b.set s.slot) 512 bad with
  | (d, none) => d.setSample { s with dead := true }
  | (d, some rec) =>
    let fs := (List.range (d.get (R.FOR_MODEL_FEATURES m))).map fun f => d.feat m f rec
    let d := (d.countFeats fs).replicaBegin m r
    let d := { d with lens := { d.lens with jobs := d.lens.jobs ++ [ForestJob.mk m s.slot r fs (d.regionCycles 16) [] none] } }
    d.engineStates

/-- FOREST_SAMPLE_ENTER: the next sample of the model in slot order; when all have entered, one whose re-evaluation the
planner has granted (R361). -/
def Dev.forestNext (d : Dev) (m : Nat) (bad : List MemEvent) (stall : Nat) : Dev :=
  match d.plan.computing with
  | none => d
  | some b =>
    if !d.forestPlaced m then d
    else
      let j := (d.lens.entered.find m).getD 0
      let d' := { d with lens := { d.lens with entered := Sparse.put d.lens.entered m (j + 1) } }
      match (d.modelSamples m)[j]? with
      | some s => d'.forestEnter b s j bad stall
      | none =>
        match takeFirst (fun q => q.1 = m) d.lens.reeval with
        | none => d
        | some (q, rest) =>
          match d.sample? q.2 with
          | none => { d with lens := { d.lens with reeval := rest } }
          | some s =>
            let d := { d' with lens := { d'.lens with reeval := rest } }
            let s := { s with rerun := true }
            ((d.setSample s).bump C.FOR_REEVALUATED).forestEnter b s j bad stall

/-- The starting lanes of a model: `BASE` of its T0 output block (R351). -/
def Dev.baseLanes (d : Dev) (m : Nat) : List Nat :=
  let ob := d.outBlock m 0
  (List.range 16).map fun l => leAt ob (8 + 4 * l) 4

/-- The window of a replica ends once the model's samples have all entered and none of the replica's is in flight. -/
def Dev.replicaIdle (d : Dev) (m r : Nat) : Dev :=
  let entered := (d.lens.entered.find m).getD 0
  if (d.modelSamples m).length ≤ entered && !d.lens.jobs.any (fun j => j.model = m && j.replica = r) then d.replicaEnd m r 0 else d

/-- FOREST_RESULT: the model's oldest sample leaves its replica: its raw scores are its T0 result, or it has failed. -/
def Dev.forestResult (d : Dev) (m : Nat) : Dev :=
  match takeFirst (fun (j : ForestJob) => j.model = m) d.lens.jobs with
  | none => d
  | some (j, rest) =>
    let d := { d with lens := { d.lens with jobs := rest } }
    let engines := d.replicaEngines m j.replica
    let first := 0x2000 + engines.headD 0
    let d := d.cmdWork first first (forestCmd m) [1, 1, 0, 1]
    let (d, r) := forestRun j (d.replicaStages m j.replica) d [] (d.baseLanes m)
    let d := match r with
      | some raw =>
        let d := if raw.all fpIsFinite then d else d.bump C.FOR_SCORE_NONFINITE
        (d.bump C.FOR_RESULTS).tierResult j.slot 0 raw
      | none => { d with lens := { d.lens with failed := d.lens.failed ++ [(m, j.slot)] } }
    (d.replicaIdle m j.replica).engineStates

/-- Whether a sample in flight reached stage `s` of its replica `c` cycles ago or earlier (Table 9.6). -/
def Dev.atStage (d : Dev) (j : ForestJob) (s c : Nat) : Bool := decide (j.issued + 20 + 8 * s + c ≤ d.regionCycles 16)

/-- What a sample that the deadline finds in its replica has done in the stages it has reached (R367); one that has failed there has left,
and is not abandoned (R360, R355). -/
def forestCut (j : ForestJob) : List (Nat × Nat) → Dev → Dev
  | [], d => d.bump C.FOR_ABANDONED
  | (s, e) :: es, d =>
    if !d.atStage j s 0 then d.bump C.FOR_ABANDONED
    else
      let d := d.bump (C.FOR_BUSY_CYCLES e)
      if d.failsAt j s e then d.bump (C.FOR_SAMPLES_FAILED e)
      else if d.atStage j s 8 then forestCut j es (d.bump (C.FOR_SAMPLES e))
      else d.bump C.FOR_ABANDONED

/-- A sample's stages counted at the deadline. -/
def Dev.forestCut (d : Dev) (j : ForestJob) : Dev := Machine.forestCut j (d.replicaStages j.model j.replica) d

/-- The verdict deadline: samples still in a replica are abandoned (R355). -/
def Dev.forestDeadline (d : Dev) : Dev :=
  let jobs := d.lens.jobs
  let d := d.each jobs Dev.forestCut
  let d := { d with lens := { d.lens with jobs := [], entered := [], reeval := [], failed := [] } }
  let d := d.each jobs fun d j => d.replicaEnd j.model j.replica 1
  d.engineStates

/-! ### Integrity (R360) -/

/-- The engine of a forest memory word. -/
def forestEngine (a : Nat) : Option Nat :=
  if 0x710000000 ≤ a && a < 0x710000000 + 32 * 0x10000 then some ((a - 0x710000000) / 0x10000)
  else if 0x720000000 ≤ a && a < 0x720000000 + 32 * 0x2000 then some ((a - 0x720000000) / 0x2000)
  else if 0x730000000 ≤ a && a < 0x730000000 + 32 * 0x20000 then some ((a - 0x730000000) / 0x20000)
  else if 0x740000000 ≤ a && a < 0x740000000 + 32 * 0x8000 then some ((a - 0x740000000) / 0x8000)
  else none

/-- The samples of an engine's replica that have reached its stage, each with the stage, changed. -/
def Dev.modReached (d : Dev) (e : Nat) (f : Nat → ForestJob → ForestJob) : Dev :=
  let s := d.get (R.FOR_ENGINE_STAT_STAGE e)
  let here (j : ForestJob) : Bool :=
    j.model = d.get (R.FOR_ENGINE_STAT_MODEL e) && j.replica = d.get (R.FOR_ENGINE_STAT_REPLICA e) && d.atStage j s 0
  { d with lens := { d.lens with jobs := d.lens.jobs.map fun j => if here j then f s j else j } }

/-- A word of an engine goes bad: the samples that have passed into its stage are past it. -/
def Dev.wordGoesBad (d : Dev) (e : Nat) : Dev :=
  (if d.on (R.FOR_ENGINE_STAT_WORD_BAD e) then d
   else d.modReached e fun s j => { j with past := s :: j.past }).put (R.FOR_ENGINE_STAT_WORD_BAD e) 1

/-- `WORD_BAD` of an engine clears: the samples that reached its stage meanwhile have failed. -/
def Dev.wordsGood (d : Dev) (e : Nat) : Dev :=
  (d.modReached e fun s j => if j.past.contains s || j.failed.isSome then j else { j with failed := some s }).put
    (R.FOR_ENGINE_STAT_WORD_BAD e) 0

/-- One error the scrub meets; a word that is already bad and awaits its rewrite is not found again. -/
def Dev.forestError (d : Dev) (x : EccError) : Dev :=
  match forestEngine x.addr with
  | none => d
  | some e =>
    if d.lens.badWords.contains x.addr then d
    else if x.corrected then d.bump (C.FOR_MEM_CORRECTED e)
    else
      let d := { d with lens := { d.lens with badWords := d.lens.badWords ++ [x.addr] } }
      (((d.bump (C.FOR_MEM_UNCORR e)).wordGoesBad e).health 0x18 0x0007).failure 4 e

/-- FOREST_SCRUB: the errors of one scrub; a word with an uncorrectable error has no corrected one besides (R365). -/
def Dev.forestScrub (d : Dev) (errors : List EccError) : Dev :=
  d.each (errors.filter fun x => !(x.corrected && errors.any fun y => y.addr = x.addr && !y.corrected)) Dev.forestError

/-- FOREST_WORD_REWRITE: a bad word is rewritten from the firmware's copy (R360). -/
def Dev.forestRewrite (d : Dev) (a : Nat) : Dev :=
  if !d.lens.badWords.contains a then d
  else
    let d := d.setWord a (Sparse.read resetWord d.lens.forestCopy a).toNat
    let left := d.lens.badWords.filter (· != a)
    let d := { d with lens := { d.lens with badWords := left } }
    match forestEngine a with
    | some e => if left.any fun b => forestEngine b = some e then d else d.wordsGood e
    | none => d

/-! ### Shadow banks (R362, R363) -/

/-- The control addresses of an engine's bank. -/
def bankRanges (e : Nat) : List (Nat × Nat) :=
  [(0x710000000 + 0x10000 * e, 0x10000), (0x720000000 + 0x2000 * e, 0x2000), (0x730000000 + 0x20000 * e, 0x20000),
   (0x740000000 + 0x8000 * e, 0x8000)]

/-- The engines that hold stages of a model. -/
def Dev.modelEngines (d : Dev) (m : Nat) : List Nat :=
  (List.range 32).filter fun e => d.get (R.FOR_ENGINE_STAT_MODEL e) = m

/-- The control addresses that a flip of a model exchanges: the banks of its engines and its feature map. -/
def Dev.flipRanges (d : Dev) (m : Nat) : List (Nat × Nat) :=
  ((d.modelEngines m).map bankRanges).flatten ++ [(0x700100000 + 0x800 * m, 0x800)]

/-- `NODES` and `TREES` of an engine follow its active bank. -/
def Dev.bankUse (d : Dev) (e : Nat) : Dev :=
  let lo := 0x710000000 + 0x10000 * e
  let nodes := d.regs.countP fun w => decide (lo ≤ w.1) && decide (w.1 < lo + 0x10000) && w.2.toNat.testBit 42
  (d.put (R.FOR_ENGINE_STAT_NODES e) nodes).put (R.FOR_ENGINE_STAT_TREES e) (d.treesOf e).length

/-- The engines of a model flip their banks: its banks and feature map become the shadow's, and a word that was bad leaves the
active bank (R363). Its T0 output block switches with the rest of the generation. -/
def Dev.forestFlip (d : Dev) (m : Nat) : Dev :=
  if !d.on (R.FOR_MODEL_SHADOW_READY m) then d
  else
    let ranges := d.flipRanges m
    let mine (a : Nat) : Bool := ranges.any fun r => r.1 ≤ a && a < r.1 + r.2
    let new := d.lens.shadow.filter fun w => mine w.1
    let regs := new.foldl (fun s w => Sparse.write resetWord s w.1 w.2) (d.regs.filter fun w => !mine w.1)
    let copy := new.foldl (fun s w => Sparse.write resetWord s w.1 w.2) (d.lens.forestCopy.filter fun w => !mine w.1)
    let d := { d with regs := regs, lens := { d.lens with
      shadow := d.lens.shadow.filter fun w => !mine w.1, forestCopy := copy,
      badWords := d.lens.badWords.filter fun a => !mine a } }
    let d := d.each (d.modelEngines m) fun d e => (d.put (R.FOR_ENGINE_STAT_WORD_BAD e) 0).bankUse e
    let d := match d.lens.shadowFeatures.find m with
      | some n => { d.put (R.FOR_MODEL_FEATURES m) n with lens := { d.lens with shadowFeatures := d.lens.shadowFeatures.drop m } }
      | none => d
    let d := (d.put (R.FOR_MODEL_SHADOW_READY m) 0).put (R.FOR_MODEL_GEN_ACTIVE m) (d.get (R.FOR_MODEL_GEN_SHADOW m))
    d.bump C.FOR_BANK_FLIPS

/-- SHADOW_LOAD_DONE: the load of a model's shadow banks ends (R362). -/
def Dev.shadowLoaded (d : Dev) (m : Nat) : Dev :=
  if (d.modelEngines m).any fun e => d.on (R.FOR_ENGINE_STAT_SHADOW_LOADING e) then
    let d := d.each (d.modelEngines m) fun d e => d.put (R.FOR_ENGINE_STAT_SHADOW_LOADING e) 0
    d.put (R.FOR_MODEL_SHADOW_READY m) 1
  else d

/-! ### The commands -/

/-- FOREST_SAMPLE_ENTER (R343). -/
def execForestSampleEnter (model : Fin 15) (bad : List MemEvent) (stallCycles : Nat) (s : State) :=
  s.clocked (·.regionStopped 16) fun d => d.forestNext model.val bad stallCycles

/-- FOREST_RESULT (R353). -/
def execForestResult (model : Fin 15) (s : State) := s.clocked (·.regionStopped 16) fun d => d.forestResult model.val

/-- FOREST_SCRUB (R360). -/
def execForestScrub (errors : List EccError) (s : State) := s.clocked (·.regionStopped 16) fun d => d.forestScrub errors

/-- FOREST_WORD_REWRITE (R360). -/
def execForestWordRewrite (addr : Nat) (s : State) := s.clocked (·.regionStopped 16) fun d => d.forestRewrite addr

/-- SHADOW_LOAD_DONE (R362). -/
def execShadowLoadDone (model : Fin 15) (s : State) := s.clocked (·.regionStopped 16) fun d => d.shadowLoaded model.val

end Sys2Proof.Machine
end

