-- ==== Sys2Proof/Machine/SectionCheck.lean ====
section
/-! DEFINITION. The checks that a model section meets at image load and at generation load: tensor descriptors (R308, Table 8.2),
quantisation blocks (R309, R310), the state tensor (R372), forest models (R359, Table 9.10). -/

namespace Sys2Proof.Machine

/-! ### Tensors (R308 to R310, R372) -/

/-- Whether a format may have a role: UINT4 and UINT8 serve no weights, NQ4 and NQ3 no activations (R269, R270). -/
def fmtRoleOk (fmt role : Nat) : Bool :=
  decide (fmt ≤ 16) && !(role = 1 && (fmt = 5 || fmt = 7)) && !(role = 0 && (fmt = 9 || fmt = 10))

/-- The code range of the formats that may carry a zero point (R304). -/
def zeroRange : Nat → Option (Int × Int)
  | 4 => some (-8, 7) | 5 => some (0, 15) | 6 => some (-128, 127) | 7 => some (0, 255) | _ => none

/-- `HAS_ZP`. -/
def descHasZero (b : List Byte) : Bool := (leAt b 1 1).testBit 0

/-- Row 2: a zero point only on an activation of those formats, within its code range, and 0 without `HAS_ZP` (Table 8.1). -/
def descZeroOk (b : List Byte) : Bool :=
  if !descHasZero b then descZero b = 0
  else
    match zeroRange (descFmt b) with
    | some (lo, hi) => descRole b = 0 && decide (lo ≤ descZero b ∧ descZero b ≤ hi)
    | none => false

/-- The first row of Table 8.2 that a descriptor breaks; `wideWgt` says that it is the weight tensor of a layer whose output has a clip
threshold. -/
def descRow (b : List Byte) (wideWgt : Bool) : Option Nat :=
  let fmt := descFmt b
  let role := descRole b
  let needsWide : Bool := (wideWgt && (fmt = 4 || fmt = 9)) || (descDynamic b && (role = 2 || role = 3))
  if !fmtRoleOk fmt role then some 1
  else if !descZeroOk b then some 2
  else if descDynamic b && (descHasZero b || role = 1) then some 3
  else if !fpNormal (descScale b) then some 4
  else if needsWide && descWide b = 0 then some 5
  else if bitsOf (leAt b 1 1) 2 6 != 0 || bitsOf (leAt b 10 1) 2 6 != 0 || (sub b 13 3).any (· != 0) then some 6
  else none

/-- Whether a quantisation block is in order (R309, R310): K and N of its operation, and whether it runs on a Grating. -/
def blockOk (rd : Nat → Nat → List Byte) (a k n : Nat) (grating : Bool) : Bool :=
  let b := rd a 64
  let perChannel : Bool := (leAt b 42 1).testBit 2
  leAt b 42 1 % 4 != 3 && !(perChannel && descDynamic (rd (leAt b 16 8) 24))
    && decide (leAt b 40 2 + n ≤ (if grating then 1024 else 4096)) && decide (leAt b 44 1 ≤ 128 ∧ leAt b 44 1 ≤ k / 32)

/-- Whether the state tensor of a sequence tier is one that R372 allows. -/
def stateTensorOk (b : List Byte) : Bool :=
  [4, 6, 11, 13].contains (descFmt b) && descRole b = 0 && !descHasZero b && !descDynamic b

/-- A check that a section's tensors fail. -/
inductive TensorFault where
  /-- A descriptor, by its address, and the row of Table 8.2. -/
  | desc (addr row : Nat)
  /-- A quantisation block, by its address. -/
  | block (addr : Nat) (grating : Bool)
  /-- The state tensor, by its descriptor's address. -/
  | state (addr : Nat)
  deriving DecidableEq, Repr

/-- The first check that the tensors of a section fail; `rd` reads its memory. -/
def tensorFault (rd : Nat → Nat → List Byte) (body : List Byte) : Option TensorFault :=
  let blocks := Config.sectionBlocks body
  let wide (a : Nat) : Bool := blocks.any fun q => leAt (rd q.1 64) 8 8 = a && descClip (rd (leAt (rd q.1 64) 16 8) 24) != 0
  let descs := (Config.sectionDescriptors body).findSome? fun a => (descRow (rd a 24) (wide a)).map fun row => TensorFault.desc a row
  let bad := blocks.findSome? fun q => if blockOk rd q.1 q.2.1 q.2.2.1 q.2.2.2 then none else some (TensorFault.block q.1 q.2.2.2)
  let state := (Config.sectionStateTensor body).bind fun a => if stateTensorOk (rd a 24) then none else some (TensorFault.state a)
  (descs.or bad).or state

/-- What a section puts into the memory, over what stands there: `n` bytes from `a`. -/
def Dev.sectionRead (d : Dev) (body : List Byte) (a n : Nat) : List Byte :=
  match (Config.sectionMemory body).find? fun w => w.1 ≤ a && a + n ≤ w.1 + w.2.length with
  | some w => sub w.2 (a - w.1) n
  | none => d.memRead a n

/-! ### Forest models (R359, Table 9.10) -/

/-- Whether intervals of leaves are the left subtrees of a binary tree over leaves `lo` to `hi`: the widest interval from `lo` is the
root's, the others lie to its left or its right. -/
def treeShape : Nat → Nat → Nat → List (Nat × Nat) → Bool
  | 0, _, _, _ => false
  | fuel + 1, lo, hi, ivs =>
    if lo = hi then ivs.isEmpty
    else
      let top := (ivs.filter fun i => i.1 = lo).foldl (fun m i => max m (i.2 + 1)) 0
      if top = 0 || hi < top then false
      else
        let root := (lo, top - 1)
        let rest := ivs.erase root
        let left := rest.filter fun i => i.2 < top
        let right := rest.filter fun i => top ≤ i.2
        right.all (fun i => top ≤ i.1) && treeShape fuel lo (top - 1) left && treeShape fuel top hi right

/-- The nodes and leaves of a tree of an engine: first word and count. -/
def Dev.treeNodes (d : Dev) (e t : Nat) : Nat × Nat := (d.get (R.FOR_TREE_NODE_BASE e t), d.get (R.FOR_TREE_NODE_COUNT e t))
def Dev.treeLeaves (d : Dev) (e t : Nat) : Nat × Nat := (d.get (R.FOR_TREE_LEAF_BASE e t), d.get (R.FOR_TREE_LEAF_COUNT e t))

/-- Whether two ranges, each a start and a count, share an element. -/
def overlaps (a b : Nat × Nat) : Bool := decide (0 < a.2 ∧ 0 < b.2 ∧ a.1 < b.1 + b.2 ∧ b.1 < a.1 + a.2)

/-- Row 2: the tree. -/
def Dev.treeOk (d : Dev) (e lanes t : Nat) : Bool :=
  let n := d.treeNodes e t
  let l := d.treeLeaves e t
  l.2 = n.2 + 1 && decide (n.1 + n.2 ≤ 8192) && decide (l.1 + l.2 ≤ 16384) && decide (d.get (R.FOR_TREE_LANE e t) < lanes)
    && (d.treesOf e).all fun u => u = t || !(overlaps n (d.treeNodes e u) || overlaps l (d.treeLeaves e u))

/-- Row 3: the nodes of a tree. -/
def Dev.treeNodesOk (d : Dev) (e feats t : Nat) : Bool :=
  let n := d.treeNodes e t
  let leaves := (d.treeLeaves e t).2
  let ivs := (range n.1 n.2).map fun i => (d.get (R.FOR_NODE_LEAF_LO e i), d.get (R.FOR_NODE_LEAF_HI e i))
  (ivs.all fun i => decide (i.1 ≤ i.2 ∧ i.2 + 2 ≤ leaves)) && treeShape (leaves + 1) 0 (leaves - 1) ivs
    && (range n.1 n.2).all fun i => decide (d.get (R.FOR_NODE_FEATURE e i) < feats)

/-- Whether an FP32 pattern is finite. -/
def fpFinite (x : Nat) : Bool := bitsOf x 23 8 != 255

/-- Row 4: categorical nodes. -/
def Dev.treeCatOk (d : Dev) (m e t : Nat) : Bool :=
  let n := d.treeNodes e t
  (range n.1 n.2).all fun i =>
    let cat := d.get (R.FOR_FEATURE_TYPE m (d.get (R.FOR_NODE_FEATURE e i))) = 5
    (d.on (R.FOR_NODE_CAT e i) == cat) && (!cat || decide (d.get (R.FOR_NODE_THRESHOLD e i) < 1024))

/-- Row 5: the thresholds of float features and the leaf values of a tree. -/
def Dev.treeValuesOk (d : Dev) (m e t : Nat) : Bool :=
  let n := d.treeNodes e t
  let l := d.treeLeaves e t
  ((range n.1 n.2).all fun i =>
    !within 2 4 (d.get (R.FOR_FEATURE_TYPE m (d.get (R.FOR_NODE_FEATURE e i)))) || fpFinite (d.get (R.FOR_NODE_THRESHOLD e i)))
    && (range l.1 l.2).all fun i => fpFinite (d.get (R.FOR_LEAF_VALUE e i))

/-- The continuation leaves of an engine: the trees they name. -/
def Dev.continuations (d : Dev) (e : Nat) : List Nat :=
  ((d.treesOf e).map fun t =>
    let l := d.treeLeaves e t
    (range l.1 l.2).filterMap fun i => if d.on (R.FOR_LEAF_CONT e i) then some (d.get (R.FOR_LEAF_NEXT_TREE e i)) else none).flatten

/-- Row 6: the continuations into stage `e` from the stage before it, none for stage 0; and none out of the last stage. -/
def Dev.continuationOk (d : Dev) (before : Option Nat) (e : Nat) (last : Bool) : Bool :=
  let named := match before with | some b => d.continuations b | none => []
  let inner := (d.treesOf e).filter fun t => !d.on (R.FOR_TREE_ROOT e t)
  (named.all fun t => inner.contains t) && (inner.all fun t => named.countP (· = t) = 1)
    && !(last && !(d.continuations e).isEmpty)

/-- Row 7: the `n` features of a model. -/
def Dev.featuresOk (d : Dev) (m n : Nat) : Bool :=
  decide (n ≤ 256) && (List.range n).all fun f =>
    let ty := d.get (R.FOR_FEATURE_TYPE m f)
    let w := d.get (R.FOR_FEATURE_WIDTH m f)
    decide (ty < 6) && decide (w < 3) && (ty != 2 || w = 2) && ((ty != 3 && ty != 4) || w = 1)
      && decide (d.get (R.FOR_FEATURE_SRC_OFF m f) + 2 ^ w ≤ 512)

/-- Row 8: an output block, and the part of row 5 that lies in it. -/
def outputBlockOk (b : List Byte) : Bool :=
  let lanes := leAt b 0 1
  within 1 16 lanes && decide (leAt b 1 1 ≤ 3) && decide (leAt b 2 1 ≤ 15) && (lanes = 1 || leAt b 2 1 = 0)
    && decide (leAt b 3 1 ≤ 15) && leAt b 132 4 = 0 && (sub b 200 56).all (· = 0)

/-- Row 5 in an output block: finite starting values, finite and strictly ascending thresholds in use, the divisor of link 3. -/
def outputValuesOk (b : List Byte) : Bool :=
  let band (i : Nat) : Nat := leAt b (72 + 4 * i) 4
  let n := leAt b 2 1
  ((List.range 16).all fun l => fpFinite (leAt b (8 + 4 * l) 4)) && ((List.range n).all fun i => fpFinite (band i))
    && ((List.range (n - 1)).all fun i => fpLt (band i) (band (i + 1)))
    && (leAt b 1 1 != 3 || (decide (0x00800000 ≤ leAt b 4 4) && decide (leAt b 4 4 < 0x7F800000)))

/-- The first row of Table 9.10 that a stage breaks: its engine, the engine of the stage before, whether it is the last. -/
def Dev.stageRow (d : Dev) (m feats : Nat) (out : List Byte) (words : List (Nat × Word)) (before : Option Nat) (e : Nat) (last : Bool) :
    Option Nat :=
  let ts := d.treesOf e
  if words.any fun w => !((bankRanges 0).any fun r => r.1 ≤ w.1 && w.1 < r.1 + r.2) then some 1
  else if ts.any fun t => !d.treeOk e (leAt out 0 1) t then some 2
  else if ts.any fun t => !d.treeNodesOk e feats t then some 3
  else if ts.any fun t => !d.treeCatOk m e t then some 4
  else if !outputValuesOk out || ts.any (fun t => !d.treeValuesOk m e t) then some 5
  else if !d.continuationOk before e last then some 6
  else if !d.featuresOk m feats then some 7
  else if !outputBlockOk out then some 8
  else none

/-- The control address in engine `e` of a forest word given by its address in engine 0. -/
def forestAddr (e a : Nat) : Nat :=
  if a < 0x720000000 then a + 0x10000 * e else if a < 0x730000000 then a + 0x2000 * e
  else if a < 0x740000000 then a + 0x20000 * e else a + 0x8000 * e

/-- The feature map of a section, by control addresses. -/
def featureWords (m : Nat) (body : List Byte) : List (Nat × Word) :=
  (Config.sectionFeatures body).map fun w => (0x700100000 + 0x800 * m + 8 * (w.1 % 256), w.2)

/-- The forest of a section laid out for its checks, stage `s` in the banks of engine `s`, with its feature map; nothing else of the device
is in it. -/
def sectionForestDev (m stages : Nat) (body : List Byte) : Dev :=
  let words := (List.range stages).flatMap fun s => (Config.sectionForest body s).map fun w => (forestAddr s w.1, w.2)
  Dev.reset.each (words ++ featureWords m body) fun d w => d.setWord w.1 w.2.toNat

/-- The first stage of the forest of a section that breaks Table 9.10, and the row; a section without a forest has none. The checks are of
the section, wherever its replicas are placed. -/
def forestFault (m : Nat) (body : List Byte) : Option (Nat × Nat) :=
  let (stages, replicas) := Config.sectionForestShape body
  let out := padTo 256 (Config.sectionOutput body 0)
  let feats := (Config.sectionFeatures body).length
  if stages = 0 && replicas = 0 then none
  else if !within 1 32 stages || !within 1 32 replicas then some (0, 9)
  else
    let d := sectionForestDev m stages body
    (List.range stages).findSome? fun s =>
      (d.stageRow m feats out (Config.sectionForest body s) (if s = 0 then none else some (s - 1)) s (decide (s + 1 = stages))).map
        fun row => (s, row)

end Sys2Proof.Machine
end

