-- ==== Sys2Proof/Machine/Seq.lean ====
section
/-! DEFINITION. Sequences and learning (chapter 10): the state port, carriers and commits, the staging and swapping of model
generations, state sweeps, the learning ring, learning steps and publishes. -/

namespace Sys2Proof.Machine

/-! ### Tokens and state (R368 to R379) -/

/-- The address of a flow's `SEQ_STATE` (R371). -/
def Dev.seqState (d : Dev) (index : Nat) : Nat := d.flowAddr index + 192

/-- A slot's place in the state block of its batch's slot set. -/
def Dev.stateBlock (d : Dev) (set slot : Nat) : Nat := d.seq.stateBlocks.getD set 0 + 64 * slot

/-- Whether an update of a model starts from a stored granule (R373). -/
def Dev.lineageOk (d : Dev) (m : Nat) (g : List Byte) : Bool :=
  bitsOf (leAt g 0 1) 4 1 = 1 && leAt g 0 1 % 16 = m && leAt g 1 1 = d.get (R.SEQ_MODEL_LINEAGE m)

/-- The granule of the initial state h₀ of a model. -/
def Dev.initialState (d : Dev) (m : Nat) : List Byte := zeros 8 ++ padTo 56 ((d.seq.h0.find m).getD [])

/-- A sample of the computing or of the collecting batch replaced. -/
def Dev.putSample (d : Dev) (computing : Bool) (s : Sample) : Dev :=
  if computing then d.setSample s
  else { d with plan := { d.plan with collecting := d.plan.collecting.map fun b =>
      { b with samples := b.samples.map fun t => if t.slot = s.slot then s else t } } }

/-- The context of a model's sequence tier, as placement put it. -/
def Dev.seqContext (d : Dev) (m : Nat) : Option Nat :=
  (d.plan.placed.find? fun p => p.model = m && p.tier = 2 && !p.learning).map fun p => p.context

/-- STATE_READY_SIGNAL: once every read of the computing batch has ended, the state-ready counter of each placed sequence tier is
signalled (R376). -/
def Dev.stateReady (d : Dev) : Dev :=
  match d.plan.computing with
  | none => d
  | some b =>
    if d.seq.readySent || b.samples.any (fun s => s.stateRead = 1) then d
    else
      let d := { d with seq := { d.seq with readySent := true } }
      d.each ((List.range 15).filter fun m => d.on (R.SEQ_MODEL_SEQ_TIER m)) fun d m =>
        match d.seqContext m with | some c => d.signal c (Config.stateReadyCtr m).toNat 1 0x4000 | none => d

/-- Whether a sample of the computing batch may still update its flow's state, so that a read of the flow waits (R375). -/
def Dev.updatePending (d : Dev) (t : Sample) : Bool :=
  d.carrier t && !t.committed && (!t.done || t.admitted.contains 2) && !d.stepping t.context && !d.faulted t.context

/-- Whether two samples are of one flow. -/
def Sample.oneFlow (a b : Sample) : Bool := a.flow.index = b.flow.index

/-- Whether two samples are of one flow and model. -/
def Sample.sameFlow (a b : Sample) : Bool := a.oneFlow b && a.model = b.model

/-- A read of a sample of a batch ends: its place in the state block holds the flow's granule, a copy of the one read for an
earlier sample of the flow, or h₀ where the read is poison or the window's lineage test has failed (R373, R375, Table 13.2). -/
def Dev.stateReadDone (d : Dev) (computing : Bool) (b : Batch) (s : Sample) (bad : List MemEvent) : Dev :=
  let earlier := b.samples.find? fun t => t.slot < s.slot && t.sameFlow s && t.stateRead = 3
  let (d, g) := match earlier with
    | some t => d.fetch (d.stateBlock b.set t.slot) 64 bad
    | none => d.fetch (d.seqState s.flow.index) 64 bad
  let fromInitial := g.isNone || earlier.any fun t => t.initial
  let fails := s.initial || fromInitial
  let d := if fromInitial && !s.initial && s.admitted.contains 2 then d.bump (C.SEQ_INITIAL s.model) else d
  let d := d.store (d.stateBlock b.set s.slot) (if fails then d.initialState s.model else g.getD [])
  (d.putSample computing { s with stateRead := 3, initial := fails }).stateReady

/-- STATE_READ_END: the pending read of a slot ends: the computing batch's first, else the collecting one's unless its flow's
update of the previous batch is not yet committed (R375). -/
def Dev.stateReadEnd (d : Dev) (slot : Nat) (bad : List MemEvent) : Dev :=
  let wanted (b : Option Batch) : Option (Batch × Sample) :=
    b.bind fun b => (b.samples.find? fun s => s.slot = slot && s.stateRead = 1).map fun s => (b, s)
  match wanted d.plan.computing, wanted d.plan.collecting with
  | some (b, s), _ => d.stateReadDone true b s bad
  | none, some (b, s) =>
    let waits := match d.plan.computing with
      | some c => c.samples.any fun t => t.oneFlow s && d.updatePending t
      | none => false
    if waits then d else d.stateReadDone false b s bad
  | none, none => d

/-- The stored granule that the window's start tests for a sample: as read, or as the memory holds it while its read waits; none where it
is poison, which the read counts when it is made (R480). -/
def Dev.storedState (d : Dev) (b : Batch) (s : Sample) : Option (List Byte) :=
  let a := if s.stateRead = 3 then d.stateBlock b.set s.slot else d.seqState s.flow.index
  if d.readable a 64 then some (d.memRead a 64) else none

/-- A sample at the start of its window: merged with a later one of its flow, refused by the decimation gap, or a carrier whose
stored state passes the lineage test or not (R368, R369, R373). -/
def Dev.openSample (b : Batch) (d : Dev) (s : Sample) : Dev :=
  if !d.on (R.SEQ_MODEL_SEQ_TIER s.model) then d
  else if b.samples.any fun t => s.slot < t.slot && t.sameFlow s then
    (d.bump (C.SEQ_MERGED s.model)).setSample { s with merged := true }
  else
    let r := d.storedState b s
    let g := r.getD (zeros 64)
    let gap := d.get (R.SEQ_DECIM_GAP_TICKS s.model)
    if gap != 0 && bitsOf (leAt g 0 1) 4 1 = 1 && (b.number + 2 ^ 32 - leAt g 4 4) % 2 ^ 32 < gap then
      (d.bump (C.SEQ_DECIMATED s.model)).setSample { s with merged := true }
    else if s.initial || (r.isSome && d.lineageOk s.model g) then d
    else
      let d := if s.stateRead = 3 then d.store (d.stateBlock b.set s.slot) (d.initialState s.model) else d
      d.setSample { s with initial := true }

/-! ### The learning ring (R392) -/

/-- Records the ring holds. -/
def ringSize : Nat := 262144

/-- Whether learning is on for a model (Online learning). -/
def Dev.learningOn (d : Dev) (m : Nat) : Bool := bitsOf d.plan.mode 0 1 = 1 && d.on (R.SEQ_LEARN_CFG_LEARN_EN m)

/-- The address of a record of the ring. -/
def Dev.ringAddr (d : Dev) (p : Nat) : Nat := d.seq.ringBase + 256 * p

/-- The ring's records replaced; `OCC` and `PEAK` follow. -/
def Dev.setRing (d : Dev) (live : List Nat) : Dev :=
  (({ d with seq := { d.seq with ringLive := live } }).put R.SEQ_RING_STAT_OCC live.length).peak R.SEQ_RING_STAT_PEAK live.length

/-- The first position from `p` on that holds no record. -/
def freePos (live : List Nat) : Nat → Nat → Nat
  | 0, p => p
  | k + 1, p => if live.contains p then freePos live k ((p + 1) % ringSize) else p

/-- A record put into the ring, over the oldest when it is full. -/
def Dev.ringPush (d : Dev) (bs : List Byte) : Dev :=
  let live := d.seq.ringLive
  let (d, pos, live) :=
    match live with
    | old :: rest =>
      if ringSize ≤ live.length then
        let (d, was) := d.fetchFree (d.ringAddr old) 1
        (d.bump (C.SEQ_RING_OVERWRITTEN (leAt was 0 1 % 16)), old, rest)
      else (d, freePos live ringSize d.seq.ringHead, live)
    | [] => (d, d.seq.ringHead, [])
  let d := (d.store (d.ringAddr pos) bs).setRing (live ++ [pos])
  { d with seq := { d.seq with ringHead := (pos + 1) % ringSize } }

/-- The target of a carrier (Table 10.9): its label and teacher bytes. -/
def Dev.target (d : Dev) (b : Batch) (s : Sample) : Dev × Option (Nat × List Byte) :=
  if d.get (R.SEQ_LEARN_CFG_TARGET_KIND s.model) = 0 then
    let (d, bs) := d.fetchFree (d.slotAddr b.set s.slot + 6) 2
    (d, if ((d.seq.labels.find s.model).getD []).contains (leAt bs 0 2) then some (leAt bs 0 2, zeros 32) else none)
  else
    (d, (s.raw.getD 1 none).map fun r => (0, padTo 32 ((r.map fun x => leBytes 2 (convertFp 13 x).code).flatten)))

/-- LEARNING_RECORD_COPY: the record of a carrier whose update has been committed (R392, Table 10.8). -/
def Dev.learnRecord (d : Dev) (b : Batch) (s : Sample) : Dev :=
  if !d.learningOn s.model || d.stepping s.context then d
  else
    match d.target b s with
    | (d, none) => d
    | (d, some (label, teacher)) =>
      let m := s.model
      let (ta, tn) := Config.tokenRow m s.slot
      let (d, token) := d.fetchFree ta (min tn 128)
      let (d, state) := d.fetchFree (d.stateBlock b.set s.slot + 8) 56
      let bs := leBytes 1 (m + 16 * d.get (R.SEQ_LEARN_CFG_TARGET_KIND m)) ++ leBytes 1 s.context
        ++ leBytes 2 (d.get (R.SEQ_MODEL_GEN_CURRENT m)) ++ leBytes 4 b.number ++ leBytes 4 s.flow.index
        ++ leBytes 2 s.flow.incarnation ++ leBytes 2 label ++ teacher
        ++ state ++ zeros 8 ++ padTo 128 token ++ zeros 16
      (d.ringPush bs).bump (C.SEQ_LEARN_RECORDS m)

/-! ### Commits (R374, R377, R378) -/

/-- The carriers of a model in a range of slots whose updates have been admitted and not committed. -/
def Dev.dueCarriers (d : Dev) (b : Batch) (m first last : Nat) : List Sample :=
  b.samples.filter fun s => s.model = m && d.carrier s && s.admitted.contains 2 && !s.committed && first ≤ s.slot && s.slot ≤ last

/-- One carrier committed, or discarded when its flow's incarnation has changed; a new state that is poison leaves poison (log entry 73,
DESIGN CHOICE). -/
def Dev.commitOne (b : Batch) (d : Dev) (s : Sample) : Dev :=
  if d.faulted s.context || s.stateRead != 3 then d
  else
    match d.flowEntry s.flow with
    | none => d.bump (C.SEQ_COMMIT_STALE s.model)
    | some _ =>
      let m := s.model
      let (d, was) := d.fetchFree (d.stateBlock b.set s.slot + 2) 2
      let start := if s.initial then 0 else leAt was 0 2
      let head := leBytes 1 (m + 16) ++ leBytes 1 (d.get (R.SEQ_MODEL_LINEAGE m)) ++ leBytes 2 (min (start + 1) 65535) ++ leBytes 4 b.number
      let d := match d.fetch (d.newBlock b.set s.slot + 8) 56 [] with
        | (d, some bs) => d.store (d.seqState s.flow.index) (head ++ bs)
        | (d, none) => d.setGranuleBad (d.seqState s.flow.index / 64) true
      let d := d.bump (C.SEQ_TOKENS m)
      let d := d.setSample { s with committed := true }
      (d.learnRecord b s).cmdWork 0x4000 0x4000 (Config.cmdOf m 4).toNat [1, 1, 0, 1]

/-- The carriers so far of a model in a range of slots of the collecting batch: the last sample of each flow (R368). -/
def Dev.carriersSoFar (d : Dev) (b : Batch) (m first last : Nat) : List Sample :=
  b.samples.filter fun s => s.model = m && d.on (R.SEQ_MODEL_SEQ_TIER m) && first ≤ s.slot && s.slot ≤ last
    && !b.samples.any fun t => s.slot < t.slot && t.sameFlow s

/-- How many carriers a request of a batch that is not in its compute window names: those of the last past batch, those so far of the
collecting one; of an older one, which the device no longer knows, a free number of its slots (log entry 58, DESIGN CHOICE). -/
def Dev.lateCarriers (d : Dev) (m first last : Nat) (mine : Batch → Bool) : Nat × Dev :=
  match d.plan.past.filter mine, d.plan.collecting.filter mine with
  | some b, _ => ((d.dueCarriers b m first last).length, d)
  | none, some b => ((d.carriersSoFar b m first last).length, d)
  | none, none => if last < first then (0, d) else let (k, d) := d.draw; (k % (last + 2 - first), d)

/-- Carriers of a discarded request counted; a saturation event of the model's gap (R378, R423). -/
def Dev.commitLate (d : Dev) (m n : Nat) : Dev :=
  if n = 0 then d
  else
    let d := d.bump (C.SEQ_COMMIT_LATE m) n
    { d with plan := { d.plan with gaps := modifyNth m (fun g => { g with event := true }) d.plan.gaps } }

/-- The partition whose program issues a model's commits: the lowest of its placed T2 programs. -/
def Dev.commitProgram (d : Dev) (c m : Nat) : Nat :=
  let own (p : Placed) : Bool := p.kind ≤ 2 && p.tier = 2 && p.context = c && p.model = m && !p.learning
  match (d.plan.placed.filter own).map fun p => p.id with
  | [] => 0x4000
  | a :: rest => rest.foldl min a

/-- COMMIT_REQUEST: a request of the batch in its compute window commits the carriers it names; any other is discarded whole. One of a
stepping context's program commits nothing (R537), and none comes beyond its `STEP` (R535). -/
def Dev.commitRequest (d : Dev) (m req : Nat) : Dev :=
  let first := bitsOf req 0 13
  let last := bitsOf req 16 13
  let mine (b : Batch) : Bool := b.number % 65536 = bitsOf req 32 16
  let c := (d.seqContext m).getD 0
  let id := (Config.cmdOf m 4).toNat
  let commit (d : Dev) : Dev :=
    match d.plan.computing.filter mine with
    | some b => d.each ((d.dueCarriers b m first last).filter fun (s : Sample) => d.seq.newStates.contains s.slot) (Dev.commitOne b)
    | none =>
      let (n, d) := d.lateCarriers m first last mine
      d.commitLate m n
  let p := d.commitProgram c m
  if !d.stepping c then (commit (d.cmdBegin 0x4000 0x4000 c m id)).cmdEnd 0x4000 0x4000 id 0 0
  else if d.mayStep c p then (((d.stepBegun c p).cmdBegin 0x4000 0x4000 c m id true).stepEnded c p id).cmdEnd 0x4000 0x4000 id 0 0
  else d

/-! ### Learners (R393 to R396, R333 to R335) -/

/-- The Lens core of a model's learning program, in whose block a skipped attempt of the model is counted: the first Facet's of the program
placed first, where several partitions or a Gang run it (log entry 57, DESIGN CHOICE). -/
def Dev.learnCore (d : Dev) (m : Nat) : Nat :=
  match d.plan.placed.find? fun p => p.model = m && p.learning with | some p => p.id / 4 % 256 | none => 0

/-- A model's learning passes stop. -/
def Dev.stopLearning (d : Dev) (m endCause : Nat) : Dev :=
  let d := d.each (d.lens.running.filter fun r => r.tile.learning && r.tile.model.val = m) fun d r => d.stopTile 4 r
  let d := d.each (d.lens.passes.filter fun p => p.learning && p.model = m && !d.complete p) fun d p => d.dropPass p endCause
  { d with lens := { d.lens with stopped := d.lens.stopped.filter fun s => !(s.tile.learning && s.tile.model.val = m) } }

/-- LEARNING_STEP_BEGIN: a step takes its records, oldest first; records of other generations met on the way are discarded
(R393, R396). It passes over the records of a stepping context, and none begins for a model of one (Table 1.8). -/
def Dev.learnBegin (d : Dev) (m : Nat) : Dev :=
  let l := d.learner m
  let stepping := match d.seqContext m with | some c => d.stepping c | none => false
  if l.step.isSome || !d.learningOn m || stepping then d
  else
    let n := 2 ^ d.get (R.SEQ_LEARN_CFG_STEP_LOG2 m)
    let (d, heads) := d.fetchEach 4 (d.seq.ringLive.map d.ringAddr)
    let live := d.seq.ringLive.zip heads
    let mine := (live.filter fun x => leAt x.2 0 1 % 16 = m && !d.stepping (leAt x.2 1 1)).map fun x => x.1
    let isNew (p : Nat) : Bool := live.any fun x => x.1 = p && leAt x.2 2 2 = d.get (R.SEQ_MODEL_GEN_CURRENT m)
    let taken := (mine.filter isNew).take n
    if taken.length < n then d
    else
      let met := mine.takeWhile fun p => taken.getLast? != some p
      let old := met.filter fun p => !isNew p
      let d := (d.setRing (d.seq.ringLive.filter fun p => !taken.contains p && !old.contains p)).bump (C.SEQ_LEARN_DISCARDED m) old.length
      let st : LearnStep := ⟨none, 0, taken, d.get (R.SEQ_LEARN_CFG_STEP_MAX_TICKS m), d.get (R.SEQ_LEARN_CFG_PUBLISH_STEPS m)⟩
      d.setLearner m { l with step := some st }

/-- A tensor descriptor's bytes. -/
def Dev.desc (d : Dev) (a : Nat) : Dev × List Byte := d.fetchFree a 24

/-- The format whose TOP scales a tensor: FP16 in fallback (R334). -/
def scaleFmt (desc : List Byte) : Nat := if descFallback desc then 13 else descFmt desc

/-- A completed step of a model: each of its tensors in fallback has one step less; the last clears it (R334). A tensor whose `FALLBACK` a
flip has cleared is in fallback no more. -/
def Dev.fallbackStep (d : Dev) (m : Nat) : Dev :=
  d.each (d.seq.fallback.filter fun e => e.2.1 = m) fun d e =>
    let (d, b) := d.desc e.1
    if !descFallback b then { d with seq := { d.seq with fallback := d.seq.fallback.drop e.1 } }
    else
    let left := leAt b 11 1 - 1
    let d := d.store (e.1 + 11) (leBytes 1 left)
    if left = 0 then
      let d := d.store (e.1 + 1) (leBytes 1 (setBits (leAt b 1 1) 1 1 0))
      let d := if e.2.2 = 0 then d
        else
          let (s, d) := d.normalScale (scaleFrom e.2.2 (descHeadroom b) (descFmt b))
          d.store (e.1 + 4) (leBytes 4 s)
      { d with seq := { d.seq with fallback := d.seq.fallback.drop e.1 } }
    else d

/-- A step completes (R395): its writes take place, `SKIPS` are cleared, a publish is requested when it is the last of
`PUBLISH_STEPS` (R397). -/
def Dev.learnComplete (d : Dev) (m : Nat) (st : LearnStep) (writes : List (Nat × List Byte)) : Dev :=
  let d := d.each writes fun d w => d.store w.1 w.2
  let d := d.each (d.learner m).skips fun d a => d.store (a + 12) [0]
  let d := (d.fallbackStep m).bump (C.SEQ_STEPS m)
  let n := (d.learner m).sincePublish + 1
  let d := d.setLearner m { Learner.idle with sincePublish := n }
  if st.publishSteps ≤ n then d.put (R.SEQ_MODEL_PUBLISH_PENDING m) 1 else d

/-- An overflowing tensor of an attempt: its scale recomputed, `SKIPS` raised; at 2 it goes into fallback (R333 to R335). -/
def Dev.overflowed (m : Nat) (d : Dev) (o : Overflow) : Dev :=
  let (d, b) := d.desc o.desc
  let (s, d) := d.normalScale
    (if o.finite then scaleFrom o.amax (descHeadroom b) (scaleFmt b) else fpMul (descScale b) (fpOfNat 256))
  let d := d.store (o.desc + 4) (leBytes 4 s)
  let skips := leAt b 12 1 + 1
  let l := d.learner m
  if skips < 2 then
    (d.store (o.desc + 12) (leBytes 1 skips)).setLearner m { l with skips := (l.skips.filter fun a => a != o.desc) ++ [o.desc] }
  else
    let d := (d.store (o.desc + 12) [0]).setLearner m { l with skips := l.skips.filter fun a => a != o.desc }
    if descFallback b then d
    else
      let d := (d.store (o.desc + 1) (leBytes 1 (setBits (leAt b 1 1) 1 1 1))).store (o.desc + 11) [64]
      let d := { d with seq := { d.seq with fallback := Sparse.put d.seq.fallback o.desc (m, o.amax) } }
      match o.core with | some c => d.bump (C.LNS_FP16_FALLBACKS (c / 16) (c % 16)) | none => d

/-- What readers of a tensor's codes find them written as, replaced. -/
def Dev.asPublished (d : Dev) (desc : Nat) (was : Option (Nat × Nat)) : Dev :=
  let l := d.lens
  { d with lens := { l with published := match was with | some w => Sparse.put l.published desc w | none => l.published.drop desc } }

/-- What the passes of an attempt have written of weights and optimiser state is taken back, and its overflows are forgotten (R333,
Table 10.10). -/
def Dev.undoStep (d : Dev) (m : Nat) : Dev :=
  let d := d.each (d.learner m).undo fun d w => (d.placeStore w.place 0 w.bytes).asPublished w.desc w.was
  d.setLearner m { d.learner m with overflows := [], undo := [] }

/-- STEP_ATTEMPT_SKIP: an attempt with overflows is skipped; one that brings a tensor's `SKIPS` to 2 drops the step (R333, R334). -/
def Dev.learnSkip (d : Dev) (m : Nat) (st : LearnStep) : Dev :=
  let overflows := (d.learner m).overflows
  let d := d.undoStep m
  let (d, skips) := d.fetchEach 1 (overflows.map fun o => o.desc + 12)
  let dropped := skips.any fun b => leAt b 0 1 = 1
  let d := d.bump (C.LNS_STEP_SKIPS (d.learnCore m / 16) (d.learnCore m % 16))
  let d := d.each overflows (Dev.overflowed m)
  let l := d.learner m
  if dropped then (d.bump (C.SEQ_STEPS_DROPPED m)).setLearner m { l with step := none }
  else d.setLearner m { l with step := some { st with attempt := st.attempt + 1 } }

/-- LEARNING_STEP_END: an attempt of a model's step ends in an admitted phase (R40, R395). After its single re-applied attempt a step has no further one. -/
def Dev.learnEnd (d : Dev) (m : Nat) (writes : List (Nat × List Byte)) : Dev :=
  match (d.learner m).step with
  | none => d
  | some st =>
    if st.startTick.isNone || 2 ≤ st.attempt || !d.phaseOpen m then d
    else if (d.learner m).overflows.isEmpty then d.learnComplete m st writes
    else d.learnSkip m st

/-- LEARNING_STEP_TIMEOUT: a step that has not completed `STEP_MAX_TICKS` boundaries after its first phase began is dropped. -/
def Dev.learnTimeout (d : Dev) (m : Nat) : Dev :=
  let l := d.learner m
  match l.step.bind fun st => st.startTick.map fun t => (st, t) with
  | none => d
  | some (st, t) =>
    if t + st.maxTicks ≤ d.plan.tick then
      let d := ((d.stopLearning m 5).undoStep m).bump (C.SEQ_STEPS_DROPPED m)
      d.setLearner m { d.learner m with step := none }
    else d

/-- A boundary: a due step that got no admission in the window that ended is deferred (R394). -/
def Dev.learnDeferred (d : Dev) : Dev :=
  d.each ((List.range 15).filter fun m =>
      (d.learner m).step.isSome && bitsOf d.plan.mode 0 1 = 1 && d.plan.computing.isSome && !d.plan.phases.contains m) fun d m =>
    d.bump (C.SEQ_STEPS_DEFERRED m)

/-! ### Staging (R383 to R385) -/

/-- `GSTATE` of a model. -/
def Dev.gstate (d : Dev) (m : Nat) : Nat := d.get (R.SEQ_MODEL_GSTATE m)

/-- The number of the next generation (R382). -/
def nextGen (g : Nat) : Nat := if 65535 ≤ g then 1 else g + 1

/-- A `MODEL_STAGE` or `MODEL_SWAP` request refused. -/
def Dev.stageRefuse (d : Dev) (m status : Nat) : Dev × Option Answer :=
  (if m < 15 then d.bump (C.SEQ_STAGE_REFUSED m) else d, some { status := status })

/-- Whether a section of the model is loading, its `CLOSE` unanswered (R574). -/
def Dev.stageLoading (d : Dev) (m : Nat) : Bool :=
  match d.seq.staging with | some s => s.model = m && s.gen.isSome | none => false

/-- The checks that every record meets (R383, Table 10.5), for a record of operation `op`. -/
def Dev.stageCheck (d : Dev) (payload : List Byte) : Option Nat :=
  let op := beAt payload 0 1
  let m := beAt payload 1 1
  if payload.length < 16 then some St.malformed
  else if 9120 < payload.length then some St.tooLarge
  else if op = 0 || 4 < op then some St.malformed
  else if 14 < m || d.gstate m = 0 then some St.badAddress
  else if d.stageLoading m then some St.busy
  else if beAt payload 2 6 != 0 || (3 ≤ op && beAt payload 8 8 != 0) || (op != 2 && payload.length != 16) then some St.malformed
  else none

/-- A record that meets its checks goes to the rule of its operation. -/
def Dev.stageOp (d : Dev) (payload : List Byte) (run : Dev → Nat → Dev × Option Answer) : Dev × Option Answer :=
  match d.stageCheck payload with
  | some st => d.stageRefuse (stageModel 0x20 payload) st
  | none => run d (beAt payload 1 1)

/-- Whether a record names an operation of Table 10.4 other than `op`: then it is no command of this row (log entry 4, DESIGN CHOICE). -/
def otherOp (op : Nat) (payload : List Byte) : Bool :=
  let o := beAt payload 0 1
  16 ≤ payload.length && 1 ≤ o && o ≤ 4 && o != op

/-- `SEQ_STAGE_STAT` follows the staging. -/
def Dev.stageStat (d : Dev) : Dev :=
  match d.seq.staging with
  | some s => ((d.put R.SEQ_STAGE_STAT_OPEN 1).put R.SEQ_STAGE_STAT_MODEL s.model).put R.SEQ_STAGE_STAT_KIB_RECEIVED s.blocks.length
  | none => d.put R.SEQ_STAGE_STAT_OPEN 0

/-- The staging replaced. -/
def Dev.setStaging (d : Dev) (s : Option Staging) : Dev := ({ d with seq := { d.seq with staging := s } }).stageStat

/-- `OPEN` (Table 10.5). -/
def Dev.stageOpen (payload : List Byte) (d : Dev) (m : Nat) : Dev × Option Answer :=
  let len := beAt payload 8 8
  if (List.range 15).any (fun k => d.gstate k = 2 || d.gstate k = 3) || d.gstate m = 4 || d.gstate m = 5 then d.stageRefuse m St.busy
  else if len = 0 || len % 1024 != 0 then d.stageRefuse m St.malformed
  else if 2 ^ 31 < len then d.stageRefuse m St.tooLarge
  else ((d.setStaging (some ⟨m, len, [], none⟩)).put (R.SEQ_MODEL_GSTATE m) 2, some { status := St.ok })

/-- `DATA` (Table 10.5). A block counts as written when a record writes the whole of it. -/
def Dev.stageData (payload : List Byte) (d : Dev) (m : Nat) : Dev × Option Answer :=
  let off := beAt payload 8 8
  let data := payload.drop 16
  match d.seq.staging with
  | none => d.stageRefuse m St.malformed
  | some s =>
    if s.model != m then d.stageRefuse m St.malformed
    else if off % 1024 != 0 || s.length < off + data.length then d.stageRefuse m St.badAddress
    else
      let new := (range (off / 1024) (data.length / 1024)).filter fun k => !s.blocks.contains k
      ((d.store (d.seq.stagingBase + off) data).setStaging (some { s with blocks := s.blocks ++ new }), some { status := St.ok })

/-- The parts of a received section: header, body, signature, padding (R558). -/
structure Section where
  header : List Byte
  body : List Byte
  sig : List Byte
  pad : List Byte
  deriving DecidableEq, Repr

/-- A section cut into its parts, if its body length fits. -/
def sectionOf (bs : List Byte) : Option Section :=
  let n := leAt bs 24 8
  if 64 + n + 2820 ≤ bs.length then
    some ⟨bs.take 64, sub bs 64 n, sub bs (64 + n) 2820, bs.drop (64 + n + 2820)⟩
  else none

/-- Digest and signature of a runtime section (R558, R559, R600). -/
def Dev.sectionSigned (d : Dev) (s : Section) : Bool :=
  match d.sec.ownerKey with
  | none => false
  | some k => shake256 s.body = sub s.header 32 32 && s.pad.all (· = 0) && decide (d.get R.SEC_OWNER_IDX_INDEX < beAt s.sig 0 4)
      && XmssSet.single.verifies k (shake256 (s.header ++ s.body)) s.sig

/-- Whether the digest or the signature of a runtime section fails verification (R614). -/
def Dev.sectionForged (d : Dev) (s : Section) : Bool :=
  shake256 s.body != sub s.header 32 32 || d.sec.ownerKey.any fun k => !XmssSet.single.verifies k (shake256 (s.header ++ s.body)) s.sig

/-- The generation-wide fields of a section header (Table 15.4). -/
def headerOk (m : Nat) (h : List Byte) : Bool :=
  leAt h 0 4 = 0xCA053D5E && leAt h 4 2 = 1 && leAt h 6 2 = 0x0100 && leAt h 8 1 = m && leAt h 9 1 < 16 && leAt h 13 3 = 0
    && leAt h 20 4 = 0

/-- A `CLOSE` that fails a check of Table 10.6. -/
def Dev.closeFailed (d : Dev) (m code status : Nat) : Dev × Option Answer :=
  ((((d.setStaging none).put (R.SEQ_MODEL_GSTATE m) 1).put R.SEQ_STAGE_STAT_FAIL_CODE code)).stageRefuse m status

/-- The trainable tensors a stage graph lists. -/
def trainableOf (body : List Byte) : List Trainable :=
  (Config.sectionTrainable body).map fun r => ⟨r.getD 0 0, r.getD 1 0, r.getD 2 0, r.getD 3 0, r.getD 4 0, r.getD 5 0, r[6]?, r[7]?⟩

/-- What the flip of a section's generation puts in place (R388). -/
def Dev.shadowOf (d : Dev) (m : Nat) (s : Section) : ShadowGen :=
  let tiers := ([0, 1, 2] : List Nat).filter fun t => (leAt s.header 9 1).testBit t
  { sig := leAt s.header 16 4, h0 := some (Config.sectionInitial s.body),
    memory := Config.sectionMemory s.body ++ tiers.map fun t => (d.outAddr m t, padTo 256 (Config.sectionOutput s.body t)),
    rescale := Config.sectionRescale s.body, trainable := some (trainableOf s.body), labels := some (Config.sectionLabels s.body) }

/-- The forest words and feature map of a section, by the control addresses they have in the model's engines. -/
def Dev.forestWords (d : Dev) (m : Nat) (body : List Byte) : List (Nat × Word) :=
  ((d.modelEngines m).map fun e =>
      (Config.sectionForest body (d.get (R.FOR_ENGINE_STAT_STAGE e))).map fun w => (forestAddr e w.1, w.2)).flatten
    ++ featureWords m body

/-- A section that has passed its checks begins to load into the shadow copy (R362, R385). -/
def Dev.beginLoad (d : Dev) (st : Staging) (s : Section) : Dev :=
  let m := st.model
  let shadow := (d.forestWords m s.body).foldl (fun x w => Sparse.put x w.1 w.2) d.lens.shadow
  let n := (Config.sectionFeatures s.body).length
  let d := { d with lens := { d.lens with shadow := shadow, shadowFeatures := Sparse.put d.lens.shadowFeatures m n } }
  let d := d.each (d.modelEngines m) fun d e => d.put (R.FOR_ENGINE_STAT_SHADOW_LOADING e) 1
  let d := if (d.modelEngines m).isEmpty then d
    else d.put (R.FOR_MODEL_GEN_SHADOW m) (nextGen (d.get (R.SEQ_MODEL_GEN_CURRENT m)))
  d.setStaging (some { st with gen := some (d.shadowOf m s) })

/-- Check 3 of Table 10.6: the generation-wide fields, the tensors and the forest of a staged section. -/
def Dev.sectionChecks (d : Dev) (m : Nat) (s : Section) : Bool :=
  headerOk m s.header && (tensorFault (d.sectionRead s.body) s.body).isNone
    && (forestFault m s.body).isNone

/-- `CLOSE`: the checks of Table 10.6, then the load, which the answer waits for. -/
def Dev.stageClose (d : Dev) (m : Nat) : Dev × Option Answer :=
  match d.seq.staging with
  | none => d.stageRefuse m St.malformed
  | some st =>
    if st.model != m then d.stageRefuse m St.malformed
    else if st.blocks.length * 1024 < st.length then d.closeFailed m 1 St.malformed
    else
      let (d, bytes) := d.fetchFree d.seq.stagingBase st.length
      match sectionOf bytes with
      | none => (d.bump C.SEC_VERIFY_FAIL).closeFailed m 2 St.signature
      | some s =>
        if !d.sectionSigned s then (if d.sectionForged s then d.bump C.SEC_VERIFY_FAIL else d).closeFailed m 2 St.signature
        else
        let d := d.put R.SEC_OWNER_IDX_INDEX (beAt s.sig 0 4)
        if !d.sectionChecks m s then d.closeFailed m 3 St.malformed
        else if !Config.stageGraphSameShape m s.body then d.closeFailed m 4 St.denied
        else (d.beginLoad st s, none)

/-- CLOSE_LOAD_DONE: the load ends, the model is Staged and `CLOSE` is answered (R385, R574). -/
def Dev.closeLoadDone (d : Dev) : Dev :=
  match d.seq.staging.bind fun st => st.gen.map fun g => (st, g) with
  | none => d
  | some (st, g) =>
    let m := st.model
    let d := ((d.shadowLoaded m).setStaging none).put (R.SEQ_MODEL_GSTATE m) 3
    let d := { d with seq := { d.seq with staged := Sparse.put d.seq.staged m g } }
    let a : Answer := { status := St.ok }
    let d := d.noteAnswer 0x20 a
    match d.ctl.background with
    | some r => ({ d with ctl := { d.ctl with background := none } }).respond r a
    | none => d

/-- The shadow copy of a model released. -/
def Dev.dropShadow (d : Dev) (m : Nat) : Dev :=
  let ranges := d.flipRanges m
  let mine (a : Nat) : Bool := ranges.any fun r => r.1 ≤ a && a < r.1 + r.2
  let d := { d with lens := { d.lens with shadow := d.lens.shadow.filter (fun w => !mine w.1), shadowFeatures := d.lens.shadowFeatures.drop m },
                    seq := { d.seq with staged := d.seq.staged.drop m } }
  (d.each (d.modelEngines m) fun d e => d.put (R.FOR_ENGINE_STAT_SHADOW_LOADING e) 0).put (R.FOR_MODEL_SHADOW_READY m) 0

/-- `ABORT` (Table 10.5). -/
def Dev.stageAbort (d : Dev) (m : Nat) : Dev × Option Answer :=
  if d.gstate m != 2 && d.gstate m != 3 then d.stageRefuse m St.malformed
  else (((d.dropShadow m).setStaging none).put (R.SEQ_MODEL_GSTATE m) 1, some { status := St.ok })

/-! ### Swaps, flips and retirement (R386 to R391) -/

/-- A host swap withdraws a publish that is requested and not accepted (R398). -/
def Dev.withdrawPublish (d : Dev) (m : Nat) : Dev :=
  if d.on (R.SEQ_MODEL_PUBLISH_PENDING m) then
    (d.put (R.SEQ_MODEL_PUBLISH_PENDING m) 0).setLearner m { d.learner m with sincePublish := 0 }
  else d

/-- MODEL_SWAP (Table 10.7, R387). -/
def Dev.modelSwap (d : Dev) (payload : List Byte) : Dev × Option Answer :=
  let m := beAt payload 0 1
  let flags := beAt payload 1 1
  let atTick := beAt payload 4 4
  let ahead := (atTick + 2 ^ 32 - d.tick32) % 2 ^ 32
  if payload.length != 16 then d.stageRefuse (stageModel 0x21 payload) St.malformed
  else if 14 < m || d.gstate m = 0 then d.stageRefuse m St.badAddress
  else if 4 ≤ flags || beAt payload 2 2 != 0 || beAt payload 8 8 != 0 then d.stageRefuse m St.malformed
  else if d.gstate m = 4 || d.gstate m = 5 || d.stageLoading m then d.stageRefuse m St.busy
  else
    match d.seq.staged.find m with
    | none => d.stageRefuse m St.malformed
    | some g =>
      if flags.testBit 0 && (ahead < 2 || 2 ^ 31 ≤ ahead) then d.stageRefuse m St.malformed
      else if !flags.testBit 1 && d.on (R.SEQ_MODEL_SEQ_TIER m) && g.sig != d.get (R.SEQ_MODEL_STATE_SIG m) then
        d.stageRefuse m St.malformed
      else
        let tick := d.plan.tick + if flags.testBit 0 then ahead else 2
        let gen := nextGen (d.get (R.SEQ_MODEL_GEN_CURRENT m))
        let swap : SwapPend := ⟨m, flags.testBit 1, false, gen, tick⟩
        let d := { d with seq := { d.seq with swaps := d.seq.swaps ++ [swap] } }
        let d := (d.put (R.SEQ_MODEL_GSTATE m) 4).put (R.SEQ_MODEL_SWAP_TICK m) tick
        (d.withdrawPublish m, some { status := St.ok, payload := beBytes 2 gen ++ zeros 2 ++ beBytes 4 tick ++ zeros 8 })

/-- The master copy of a trainable tensor taken from its section, or from the weights in use (Online learning). -/
def Dev.takeMaster (d : Dev) (t : Trainable) : Dev :=
  match t.own with
  | some a => d.copy a t.master (4 * t.elems)
  | none =>
    let (d, b) := d.desc t.desc
    let (d, bs) := d.fetchFree t.wgt (fmtBytes (descFmt b) t.elems)
    let codes := (List.range t.elems).map (elemAt (descFmt b) bs)
    let value (c : Nat) : Nat := toFp32 ((fmtValue (descFmt b) c).mul (fp32 (descScale b)))
    d.store t.master (codes.map fun c => leBytes 4 (value c)).flatten

/-- The optimiser state of a trainable tensor taken from its section; where the section has none, the spec states none: free bytes (log
entry 57, DESIGN CHOICE). -/
def Dev.takeOptimiser (d : Dev) (t : Trainable) : Dev :=
  match t.ownOpt with
  | some a => d.copy a t.optimiser t.optBytes
  | none =>
    let d' := { d with draws := d.draws + t.optBytes }
    d'.store t.optimiser ((range d.draws t.optBytes).map Config.freeByte)

/-- The master copies and optimiser state of a model's trainable tensors taken from its current generation (R398). -/
def Dev.takeMasters (d : Dev) (m : Nat) : Dev :=
  d.each ((d.seq.trainable.find m).getD []) fun d t => (d.takeMaster t).takeOptimiser t

/-- What a flip puts in place; the codes of a tensor whose descriptor is new are those of that descriptor. -/
def Dev.installGen (d : Dev) (m : Nat) (g : ShadowGen) : Dev :=
  let d := d.each g.memory fun d w => d.store w.1 w.2
  let d := d.each g.rescale fun d w => d.setWord w.1 w.2.toNat
  let q := d.seq
  let l := d.lens
  let isNew (desc : Nat) : Bool := g.memory.any fun w => w.1 ≤ desc + 4 && desc + 4 < w.1 + w.2.length
  { d with lens := { l with published := l.published.filter fun e => !isNew e.1 }, seq := { q with
      h0 := (match g.h0 with | some h => Sparse.put q.h0 m h | none => q.h0),
      trainable := (match g.trainable with | some t => Sparse.put q.trainable m t | none => q.trainable),
      labels := (match g.labels with | some l => Sparse.put q.labels m l | none => q.labels),
      staged := q.staged.drop m } }

/-- A step of a model that a flip finds running is discarded with its records (Table 10.10). -/
def Dev.discardStep (d : Dev) (m : Nat) : Dev :=
  match (d.learner m).step with
  | none => d
  | some st =>
    let d := ((d.stopLearning m 5).undoStep m).bump (C.SEQ_LEARN_DISCARDED m) st.records.length
    d.setLearner m { d.learner m with step := none }

/-- The registers of a model after its flip (Table 10.13): the old generation retires; a reset raises the lineage. -/
def Dev.flipRegs (d : Dev) (p : SwapPend) (old : Nat) : Dev :=
  let m := p.model
  let d := if d.get (R.FOR_MODEL_STAGES m) = 0 then d else d.put (R.FOR_MODEL_GEN_ACTIVE m) p.gen
  let d := ((d.put (R.SEQ_MODEL_GEN_RETIRING m) old).put (R.SEQ_MODEL_GEN_CURRENT m) p.gen).put (R.SEQ_MODEL_GSTATE m) 5
  if p.reset then d.put (R.SEQ_MODEL_LINEAGE m) ((d.get (R.SEQ_MODEL_LINEAGE m) + 1) % 256) else d

/-- How the old generation of a flipped model will end: by a state sweep after a reset, else at the next boundary (R389, R390). -/
def Dev.beginRetire (d : Dev) (p : SwapPend) : Dev :=
  if p.reset && d.on (R.SEQ_MODEL_SEQ_TIER p.model) then d.put (R.SEQ_MODEL_SWEEP_BUSY p.model) 1
  else { d with seq := { d.seq with retire := Sparse.put d.seq.retire p.model (d.plan.tick + 1) } }

/-- The journal entry of a flip (R391, Table 15.14). -/
def Dev.flipEntry (d : Dev) (p : SwapPend) (old : Nat) : Dev :=
  let detail := leBytes 1 p.model ++ leBytes 1 (b2n p.publish) ++ leBytes 1 (d.get (R.SEQ_MODEL_LINEAGE p.model)) ++ zeros 1
    ++ leBytes 2 old ++ leBytes 2 p.gen ++ leBytes 4 d.tick32
  d.journal { kind := 3, detail := detail }

/-- GENERATION_FLIP: at its named boundary a swap makes the new generation current (R388 to R391, R363). -/
def Dev.flip (d : Dev) (p : SwapPend) : Dev :=
  let m := p.model
  let old := d.get (R.SEQ_MODEL_GEN_CURRENT m)
  let d := (d.discardStep m).forestFlip m
  let d := match d.seq.staged.find m with
    | some g => (d.installGen m g).put (R.SEQ_MODEL_STATE_SIG m) g.sig
    | none => d
  let d := ((d.flipRegs p old).beginRetire p).bump (C.SEQ_SWAPS m)
  let d := if p.publish then d.bump (C.SEQ_PUBLISHES m) else (d.takeMasters m).withdrawPublish m
  d.flipEntry p old

/-- The swaps that name the boundary that begins the present tick. -/
def Dev.flips (d : Dev) : Dev :=
  let due (p : SwapPend) : Bool := p.tick ≤ d.plan.tick
  let now := d.seq.swaps.filter due
  let d := { d with seq := { d.seq with swaps := d.seq.swaps.filter fun p => !due p } }
  d.each now Dev.flip

/-- The old generation of a model stops being live and the model is Idle. -/
def Dev.retired (d : Dev) (m : Nat) : Dev := (d.put (R.SEQ_MODEL_GEN_RETIRING m) 0).put (R.SEQ_MODEL_GSTATE m) 1

/-- Retirements that end at the boundary after the flip (R389). -/
def Dev.retirements (d : Dev) : Dev :=
  let due := d.seq.retire.filter fun e => e.2 ≤ d.plan.tick
  let d := { d with seq := { d.seq with retire := d.seq.retire.filter fun e => !(e.2 ≤ d.plan.tick) } }
  d.each due fun d e => d.retired e.1

/-- The flows whose `SEQ_STATE` is not all zero, by index, in rising order. -/
def Dev.statedFlows (d : Dev) : List Nat :=
  let base := d.get R.FLW_TABLE_INFO_BASE
  (d.fab.mem.filterMap fun c =>
    if base ≤ c.1 && c.1 < base + 2 ^ 33 && 192 ≤ (c.1 - base) % 256 then some ((c.1 - base) / 256) else none).eraseReps

/-- STATE_SWEEP_END: the sweep of a reset swap ends: every granule of the model with another lineage has been zeroed (R390). An
all-zero granule names model 0 and lineage 0. -/
def Dev.stateSweepEnd (d : Dev) (m : Nat) : Dev :=
  if !d.on (R.SEQ_MODEL_SWEEP_BUSY m) then d
  else
    let cur := d.get (R.SEQ_MODEL_LINEAGE m)
    let stated := d.statedFlows
    let readable := stated.filter fun i => d.readable (d.seqState i) 64
    let d := d.bump C.MEM_POISON_READS (stated.length - readable.length)
    let old := readable.filter fun i =>
      let g := d.memRead (d.seqState i) 2
      leAt g 0 1 % 16 = m && leAt g 1 1 != cur
    let blank := if m = 0 && cur != 0 then 2 ^ 25 - stated.length else 0
    let d := d.each old fun d i => d.store (d.seqState i) (zeros 64)
    ((d.bump (C.SEQ_SWEEP_RESETS m) (old.length + blank)).put (R.SEQ_MODEL_SWEEP_BUSY m) 0).retired m

/-! ### Publishes (R397, R398) -/

/-- A trainable tensor quantised from its master copy into its home format: the bytes of its weights and of its scale (R306). -/
def Dev.quantise (d : Dev) (t : Trainable) : List (Nat × List Byte) × Dev :=
  let (d, b) := d.desc t.desc
  let fmt := descFmt b
  let (d, bs) := d.fetchFree t.master (4 * t.elems)
  let xs := (List.range t.elems).map fun i => leAt bs (4 * i) 4
  let a := xs.foldl (fun a x => if fpIsFinite x && fpLt a (fpAbs x) then fpAbs x else a) 0
  let (s, d) := if a = 0 then (descScale b, d) else d.normalScale (scaleFrom a 0 fmt)
  ([(t.wgt, packElems fmt (xs.map fun x => (convert fmt ((fp32 x).div (fp32 s))).code)), (t.desc + 4, leBytes 4 s)], d)

/-- Trainable tensors quantised one after the other. -/
def Dev.quantiseAll (d : Dev) : List Trainable → List (Nat × List Byte) × Dev
  | [] => ([], d)
  | t :: rest =>
    let (x, d) := d.quantise t
    let (xs, d) := d.quantiseAll rest
    (x ++ xs, d)

/-- PUBLISH_ACCEPT: at a boundary at which its model is Idle a requested publish is accepted (R397); not while its context is in Step,
which leaves the weights of its models as they are (Table 1.8). -/
def Dev.acceptPublish (d : Dev) (m : Nat) : Dev :=
  let stepping := match d.seqContext m with | some c => d.stepping c | none => false
  if !d.on (R.SEQ_MODEL_PUBLISH_PENDING m) || d.gstate m != 1 || stepping then d
  else
    let (memory, d) := d.quantiseAll ((d.seq.trainable.find m).getD [])
    let g : ShadowGen := ⟨d.get (R.SEQ_MODEL_STATE_SIG m), none, memory, [], none, none⟩
    let tick := d.plan.tick + 2
    let swap : SwapPend := ⟨m, false, true, nextGen (d.get (R.SEQ_MODEL_GEN_CURRENT m)), tick⟩
    let d := { d with seq := { d.seq with staged := Sparse.put d.seq.staged m g, swaps := d.seq.swaps ++ [swap] } }
    let d := ((d.put (R.SEQ_MODEL_PUBLISH_PENDING m) 0).put (R.SEQ_MODEL_GSTATE m) 4).put (R.SEQ_MODEL_SWAP_TICK m) tick
    d.setLearner m { d.learner m with sincePublish := 0 }

/-- The publishes accepted at a boundary. -/
def Dev.acceptPublishes (d : Dev) : Dev := d.each (List.range 15) Dev.acceptPublish

/-- A `CLOSE` executed: once its load has begun its request stands in the background and not in the queue (R574). -/
def Dev.closeRequest (d : Dev) (payload : List Byte) : Dev :=
  let own := d.headIs 0x20 0 payload
  let d := d.request 0x20 0 payload fun d => d.stageOp payload Dev.stageClose
  match d.ctl.queue with
  | r :: rest =>
    if own && r.begun then ({ d with ctl := { d.ctl with background := some r } }).setQueue rest else d
  | [] => d

/-! ### The commands -/

/-- STATE_READ_END (R375). -/
def execStateReadEnd (slot : Nat) (bad : List MemEvent) (s : State) := s.clocked (·.regionStopped 17) fun d => d.stateReadEnd slot bad

/-- COMMIT_REQUEST (R377). -/
def execCommitRequest (model : Fin 15) (request : Word) (s : State) := s.clocked (·.regionStopped 17) fun d => d.commitRequest model.val request.toNat

/-- STATE_SWEEP_END (R390). -/
def execStateSweepEnd (model : Fin 15) (s : State) := s.clocked (·.regionStopped 17) fun d => d.stateSweepEnd model.val

/-- OPEN (R384). -/
def execModelStageOpen (payload : List Byte) (s : State) :=
  s.clocked (·.regionStopped 21) fun d => if otherOp 1 payload then d else d.request 0x20 0 payload fun d => d.stageOp payload (Dev.stageOpen payload)

/-- DATA (R384). -/
def execModelStageData (payload : List Byte) (s : State) :=
  s.clocked (·.regionStopped 21) fun d => if otherOp 2 payload then d else d.request 0x20 0 payload fun d => d.stageOp payload (Dev.stageData payload)

/-- CLOSE (R385): its request leaves the queue when the load begins (R574). -/
def execModelStageClose (payload : List Byte) (s : State) :=
  s.clocked (·.regionStopped 21) fun d => if otherOp 3 payload then d else d.closeRequest payload

/-- CLOSE_LOAD_DONE (R385). -/
def execModelStageLoadDone (s : State) := s.clocked (·.regionStopped 21) Dev.closeLoadDone

/-- ABORT (R384). -/
def execModelStageAbort (payload : List Byte) (s : State) :=
  s.clocked (·.regionStopped 21) fun d => if otherOp 4 payload then d else d.request 0x20 0 payload fun d => d.stageOp payload Dev.stageAbort

/-- MODEL_SWAP (R386). -/
def execModelSwap (payload : List Byte) (s : State) := s.clocked (·.regionStopped 21) fun d => d.request 0x21 0 payload fun d => d.modelSwap payload

/-- LEARNING_STEP_BEGIN (R393). -/
def execLearningStepBegin (model : Fin 15) (s : State) := s.clocked (·.regionStopped 20) fun d => d.learnBegin model.val

/-- LEARNING_STEP_END (R395). -/
def execLearningStepEnd (model : Fin 15) (states masters : List (Nat × List Byte)) (s : State) :=
  s.clocked (·.regionStopped 20) fun d => d.learnEnd model.val (states ++ masters)

/-- LEARNING_STEP_TIMEOUT (R395). -/
def execLearningStepTimeout (model : Fin 15) (s : State) := s.clocked (·.regionStopped 20) fun d => d.learnTimeout model.val

end Sys2Proof.Machine
end

