-- ==== Sys2Proof/Machine/Planner.lean ====
section
/-! DEFINITION. The tick planner and Aperture between boundaries (chapter 11): learning phases, slack requests, gaps that halve,
recalibration of energies and capacities, soft steps and the emergency throttle. -/

namespace Sys2Proof.Machine

/-! ### Learning phases (R40, R412) -/

/-- A model number put in its place by `PRIO` descending, the lower model first where they are equal. -/
def Dev.insertPrio (d : Dev) (m : Nat) : List Nat → List Nat
  | [] => [m]
  | x :: xs =>
    let (p, q) := (d.esc (R.TKP_ESC_PRIO m), d.esc (R.TKP_ESC_PRIO x))
    if q < p || (p = q && m < x) then m :: x :: xs else x :: d.insertPrio m xs

/-- One phase of a model's learning step asked for: admitted while the credit left covers its charge (R412). -/
def Dev.admitPhase (d : Dev) (m : Nat) : Dev :=
  let l := d.learner m
  let held := match d.seqContext m with | some c => d.stepping c || d.faulted c | none => false
  match l.step with
  | none => d
  | some st =>
    let e := d.get (R.TKP_ENERGY_E_UJ m 3)
    if held || fpLt d.plan.left e then d
    else
      let d := (d.spend e).setLearner m { l with step := some { st with startTick := some (st.startTick.getD d.plan.tick) } }
      { d with plan := { d.plan with phases := d.plan.phases ++ [m] } }

/-- LEARNING_ADMIT: after the window's last verdict the phases asked for are taken in `PRIO` order (R40, R412); none under
throttle (R421) or with learning off. -/
def Dev.learnAdmit (d : Dev) (ms : List Nat) : Dev :=
  if !d.verdictsDone || d.on R.APR_STAT_THROTTLE || bitsOf d.plan.mode 0 1 = 0 then d
  else d.each (ms.foldl (fun l m => d.insertPrio m l) []) Dev.admitPhase

/-! ### Slack requests (R417, R418) -/

/-- Whether work predicted to take `work` ns may be granted to a tier of a context: no throttle, no fault, and it ends by the verdict
deadline less `GUARD_NS`, where it has one (R417, R537). -/
def Dev.slackFits (d : Dev) (context tier work : Nat) : Bool :=
  !d.on R.APR_STAT_THROTTLE && !d.faulted context
    && (!d.hasDeadline context tier || decide (d.ns + work + bitsOf d.plan.planCfg 24 8 ≤ d.plan.tickNs + d.plan.period))

/-- The re-issue of the first tile of a partition that waits for the planner. -/
def Dev.slackReissue (d : Dev) (partition work : Nat) : Dev :=
  let mine (s : StoppedTile) : Bool :=
    s.tile.partition = partition && !s.granted && (s.cause = 3 || s.cause = 5 || s.cause = 6)
  match d.lens.stopped.find? mine with
  | none => d
  | some s =>
    let ok := d.slackFits s.tile.context.val s.tile.tier.val work && !d.plan.reissued.any (sameTile s.tile)
    let s' : StoppedTile := if ok then { s with granted := true } else { s with cause := s.cause + 8 }
    let stopped := d.lens.stopped.map fun x => if x = s then s' else x
    ({ d with lens := { d.lens with stopped := stopped } }).bump (if ok then C.TKP_REISSUE_GRANTED else C.TKP_REISSUE_REFUSED)

/-- The re-evaluation of a failed forest sample (R361). -/
def Dev.slackReevaluate (d : Dev) (slot work : Nat) : Dev :=
  match takeFirst (fun (q : Nat × Nat) => q.2 = slot) d.lens.failed, d.sample? slot with
  | some (q, rest), some s =>
    let l := d.lens
    if d.slackFits s.context 0 work then
      ({ d with lens := { l with failed := rest, reeval := l.reeval ++ [q] } }).bump C.TKP_REISSUE_GRANTED
    else ({ d with lens := { l with failed := rest } }).bump C.TKP_REISSUE_REFUSED
  | _, _ => d

/-- The oldest widen request of a partition; wider weights double the measured duration (R417, R329). -/
def Dev.slackWiden (d : Dev) (partition work : Nat) : Dev :=
  match takeFirst (fun (p : Pass) => p.partition = partition) d.lens.widen with
  | none => d
  | some (p, rest) =>
    let d := { d with lens := { d.lens with widen := rest } }
    let work := if (widerWgt (descFmt p.wgtDesc)).isSome then 2 * work else work
    if d.slackFits p.context p.tier work then (d.bump C.TKP_WIDEN_GRANTED).widenGrant p
    else (d.bump C.TKP_WIDEN_REFUSED).widenRefuse p

/-- One slack request decided. -/
def Dev.slackOne (d : Dev) (r : SlackReq) : Dev :=
  match r.kind with
  | .reissue => d.slackReissue r.subject r.remainingNs
  | .reevaluate => d.slackReevaluate r.subject r.remainingNs
  | .widen => d.slackWiden r.subject r.remainingNs

/-- Requests put in rising order of their partition (or slot). -/
def insertSlack (r : SlackReq) : List SlackReq → List SlackReq
  | [] => [r]
  | x :: xs => if r.subject < x.subject then r :: x :: xs else x :: insertSlack r xs

/-- Requests that arrive together, in the order of R418: re-issues, re-evaluations, widenings. -/
def slackOrder (rs : List SlackReq) : List SlackReq :=
  ([.reissue, .reevaluate, .widen] : List SlackKind).flatMap fun k =>
    (rs.filter fun r => r.kind = k).foldl (fun l r => insertSlack r l) []

/-- SLACK_REQUEST. -/
def Dev.slack (d : Dev) (rs : List SlackReq) : Dev := d.each (slackOrder rs) Dev.slackOne

/-! ### Gaps (R423) -/

end Sys2Proof.Machine

namespace Sys2Proof

/-- The field that holds a gap: `DECIM_TICKS`, or `GAP_TICKS` of a model. -/
def Gap.field : Gap → Machine.Fld
  | .decim => Machine.R.FLW_SAMPLE_CTL_DECIM_TICKS
  | .model m => Machine.R.SEQ_DECIM_GAP_TICKS m.val

end Sys2Proof

namespace Sys2Proof.Machine

/-- The quiet count and last step up of a gap. -/
def Dev.gapState (d : Dev) : Gap → GapState
  | .decim => d.plan.decim
  | .model m => d.plan.gaps.getD m.val ⟨0, none, false⟩

/-- The quiet count and last step up of a gap replaced. -/
def Dev.setGapState (d : Dev) (g : Gap) (x : GapState) : Dev :=
  match g with
  | .decim => { d with plan := { d.plan with decim := x } }
  | .model m => { d with plan := { d.plan with gaps := modifyNth m.val (fun _ => x) d.plan.gaps } }

/-- A gap stepped to a value. -/
def Dev.stepGap (d : Dev) (g : Gap) (v : Nat) : Dev := (d.put g.field v).bump C.TKP_DECIM_STEPS

/-- A boundary after a window: an event steps the gap up unless it did within the last 16 boundaries or stands at 1,024; a window
without one counts as quiet (R423). -/
def Dev.gapStepUp (d : Dev) (g : Gap) : Dev :=
  let x := d.gapState g
  let v := d.get g.field
  if !x.event then d.setGapState g { x with quiet := x.quiet + 1 }
  else
    let soon := match x.lastUp with | some b => d.plan.tick ≤ b + 16 | none => false
    if soon || 1024 ≤ v then d.setGapState g { x with quiet := 0, event := false }
    else (d.setGapState g ⟨0, some d.plan.tick, false⟩).stepGap g (if v = 0 then 1 else min 1024 (2 * v))

/-- DECIM_HALVE: a gap halves at the boundary that ends the `DECIM_HOLD`-th quiet window; 1 becomes 0. -/
def Dev.gapHalve (d : Dev) (g : Gap) : Dev :=
  let x := d.gapState g
  let v := d.get g.field
  if v = 0 || x.quiet < bitsOf d.plan.planCfg 32 16 then d
  else (d.setGapState g { x with quiet := 0 }).stepGap g (v / 2)

/-! ### Recalibration (R414, R415) -/

/-- `0.75 E + 0.25 M` in FP32, within a quarter and four times the image's value (R414). -/
def recalibrated (e m img : Nat) : Nat :=
  let quarter := toFp32 (.fin false 1 4)
  let x := fpAdd (fpMul (toFp32 (.fin false 3 4)) e) (fpMul quarter m)
  fpMin (fpMax x (fpMul quarter img)) (fpMul (fpOfNat 4) img)

/-- The energy of a region in a window that falls to an entry: in proportion to its busy cycles there (R414). -/
def regionShare (r : RegionEnergy) (k : Nat) : Num :=
  let mine := ((r.busy.filter fun x => 4 * x.model.val + x.entry.val = k).map fun x => x.cycles).sum
  let all := (r.busy.map fun x => x.cycles).sum
  if all = 0 then .ofInt 0 else ((fp32 r.energyUj.toNat).mul (.ofInt mine)).div (.ofInt all)

/-- M of an entry: the energy attributed to it over the 1,024 ticks, divided by what it completed in them (R414); formed exactly and
rounded once to FP32 (log entry 44, DESIGN CHOICE). -/
def perItem (telemetry : List RegionEnergy) (k completed : Nat) : Nat :=
  toFp32 ((telemetry.foldl (fun (s : Num) r => s.add (regionShare r k)) (.ofInt 0)).div (.ofInt completed))

/-- ENERGY_RECALIBRATE: 1,024 ticks after the last one the entries that completed something get new values, which apply from the
next window (R414). -/
def Dev.recalibrate (d : Dev) (telemetry : List RegionEnergy) : Dev :=
  if d.plan.firstTick.isNone || d.plan.tick < d.plan.recalsTick + 1024 then d
  else
    let one (x : Nat × Nat) : Nat × Nat :=
      (x.1, recalibrated (d.get (R.TKP_ENERGY_E_UJ (x.1 / 4) (x.1 % 4))) (perItem telemetry x.1 x.2)
        ((d.plan.imageEnergy.find x.1).getD 0))
    let p := d.plan
    ({ d with plan := { p with recalsTick := p.tick, energyNext := p.energyNext ++ p.completed.map one, completed := [] } }).bump
      C.APR_RECALS

/-- Recalibrated energies take effect for the window that begins. -/
def Dev.energiesTakeEffect (d : Dev) : Dev :=
  let due := d.plan.energyNext
  let d := { d with plan := { d.plan with energyNext := [] } }
  d.each due fun d e => d.put (R.TKP_ENERGY_E_UJ (e.1 / 4) (e.1 % 4)) e.2

/-- The use of a tier replaced. -/
def Dev.setUse (d : Dev) (m t : Nat) (u : TierUse) : Dev :=
  { d with plan := { d.plan with use := Sparse.put d.plan.use (4 * m + t) u } }

/-- The tiers of every model, as (model, tier). -/
def allTiers : List (Nat × Nat) := (List.range 15).flatMap fun m => [(m, 0), (m, 1), (m, 2)]

/-- The smaller of 8,192 and ⌊A × 0.88 T / S⌋ for `a` samples in `w` windows and a mean span of `span` / `n` (R415). -/
def capOf (a w span n period : Nat) : Nat := if span = 0 then 8192 else min 8192 (a * 88 * period * n / (100 * w * span))

/-- The cut of a `CAP` after a window that overran: to three quarters, not below 16; one below 16 stays (R415). -/
def capCut (cap : Nat) : Nat := if cap < 16 then cap else max 16 (cap * 3 / 4)

/-- The `CAP` of the tiers that overran is cut (R415). -/
def Dev.cutCaps (d : Dev) : Dev :=
  d.each allTiers fun d p =>
    let u := d.tierUse p.1 p.2
    if !u.overran then d
    else (d.setUse p.1 p.2 { u with overran := false }).put (R.TKP_ENERGY_CAP p.1 p.2) (capCut (d.get (R.TKP_ENERGY_CAP p.1 p.2)))

/-- What every tier may admit in the window that begins. -/
def Dev.refillCaps (d : Dev) : Dev :=
  d.each allTiers fun d p => d.setUse p.1 p.2 { d.tierUse p.1 p.2 with left := d.get (R.TKP_ENERGY_CAP p.1 p.2) }

/-- Whether the present boundary recomputes capacities (R415). -/
def Dev.capTick (d : Dev) : Bool := d.plan.tick % 64 = 0 && d.plan.firstTick.isSome && d.plan.firstTick != some d.plan.tick

/-- One tier's `CAP` from what it did since the last recompute. -/
def Dev.recomputeCap (spans : List SpanMeasure) (d : Dev) (p : Nat × Nat) : Dev :=
  let u := d.tierUse p.1 p.2
  let d := d.setUse p.1 p.2 { u with admitted := 0, windows := 0 }
  if !d.tierPlaced p.1 p.2 then d.put (R.TKP_ENERGY_CAP p.1 p.2) 0
  else
    match spans.find? fun x => x.model.val = p.1 && x.tier.val = p.2 with
    | some x =>
      if u.admitted = 0 || u.windows = 0 then d
      else d.put (R.TKP_ENERGY_CAP p.1 p.2) (capOf u.admitted u.windows x.spanSum x.windows d.plan.period)
    | none => d

/-- CAP_RECOMPUTE: every 64 ticks, then the cut (R415, Table 11.5). -/
def Dev.capRecompute (d : Dev) (spans : List SpanMeasure) : Dev :=
  if !d.capTick || allTiers.all fun p => (d.tierUse p.1 p.2).windows = 0 then d
  else ((d.each allTiers (Dev.recomputeCap spans)).cutCaps).refillCaps

/-! ### Temperature (R420, R421) -/

/-- `SOFT_ACTIVE` clears when the target equals the budget (R419, R420). -/
def Dev.softClear (d : Dev) : Dev :=
  if d.get R.APR_STAT_TARGET_W = d.get R.APR_CFG_BUDGET_W then d.put R.APR_STAT_SOFT_ACTIVE 0 else d

/-- A soft step down or up (R420). -/
def Dev.soften (d : Dev) : Dev :=
  let c := d.hottest 0 64
  let m := d.hottest 64 32
  let lc : Int := d.get R.APR_CFG_SOFT_COMPUTE_C * 8
  let lm : Int := d.get R.APR_CFG_SOFT_DRAM_C * 8
  let t := d.get R.APR_STAT_TARGET_W
  let b := d.get R.APR_CFG_BUDGET_W
  if lc ≤ c || lm ≤ m then
    let d := (d.put R.APR_STAT_TARGET_W (max 150 (t - 5))).bump C.APR_SOFT_DOWN
    ((d.put R.APR_STAT_SOFT_ACTIVE 1).put R.APR_STAT_SOFT_SEEN 1).softClear
  else if c + 24 ≤ lc && m + 24 ≤ lm && t < b then ((d.put R.APR_STAT_TARGET_W (min b (t + 5))).bump C.APR_SOFT_UP).softClear
  else d

/-- SOFT_STEP: every 1,000 ticks, counted from the first boundary (R420). -/
def Dev.softStep (d : Dev) (ts : List TempReading) : Dev :=
  match d.plan.firstTick with
  | none => d
  | some f =>
    if d.plan.tick = f || (d.plan.tick - f) % 1000 != 0 || d.plan.softTick = some d.plan.tick then d
    else
      let d := d.takeTemps ts
      ({ d with plan := { d.plan with softTick := some d.plan.tick } }).soften

/-- The commands whose running tiles have stopped end with a cause of Table 14.4; their passes stay as Table 6.6 says. -/
def Dev.endStopped (d : Dev) (cause : Nat) (ts : List Tile) : Dev :=
  d.each (d.lens.passes.filter fun p => ts.any p.isOf) fun d p => d.endPass p cause

/-- Running tiles that a test takes stop for a cause of Table 6.6, and their commands end. -/
def Dev.haltTiles (d : Dev) (cause endCause : Nat) (mine : Tile → Bool) : Dev :=
  let rs := d.lens.running.filter fun r => mine r.tile
  (d.each rs fun d r => d.stopTile cause r).endStopped endCause (rs.map fun r => r.tile)

/-- THROTTLE_ENTER: a compute-die sensor at 105 °C or a DRAM-tier sensor at 95 °C stops the running tiles and drops `ARITH` to
1.65 GHz (R421). -/
def Dev.throttleEnter (d : Dev) (ts : List TempReading) : Dev :=
  let d := d.takeTemps ts
  if d.on R.APR_STAT_THROTTLE || (d.hottest 0 64 < 105 * 8 && d.hottest 64 32 < 95 * 8) then d
  else
    let d := ((d.put R.APR_STAT_THROTTLE 1).put R.APR_STAT_THROTTLE_SEEN 1).bump C.APR_THROTTLES
    let d := d.setMhz 0 1650
    (d.health 0x16 0).haltTiles 3 4 fun _ => true

/-! ### The commands -/

/-- LEARNING_ADMIT (R412). -/
def execLearningAdmit (phases : List (Fin 15)) (s : State) := s.clocked (·.regionStopped 20) fun d => d.learnAdmit (phases.map fun m => m.val)

/-- SLACK_REQUEST (R417). -/
def execSlackRequest (reqs : List SlackReq) (s : State) := s.clocked (·.regionStopped 20) fun d => d.slack reqs

/-- DECIM_HALVE (R423). -/
def execDecimHalve (gap : Gap) (s : State) := s.clocked (·.regionStopped 20) fun d => d.gapHalve gap

/-- ENERGY_RECALIBRATE (R414). -/
def execEnergyRecalibrate (telemetry : List RegionEnergy) (s : State) := s.clocked (·.regionStopped 20) fun d => d.recalibrate telemetry

/-- CAP_RECOMPUTE (R415). -/
def execCapRecompute (spans : List SpanMeasure) (s : State) := s.clocked (·.regionStopped 20) fun d => d.capRecompute spans

/-- SOFT_STEP (R420). -/
def execSoftStep (temps : List TempReading) (s : State) := s.clocked (·.regionStopped 20) fun d => d.softStep temps

/-- THROTTLE_ENTER (R421). -/
def execThrottleEnter (temps : List TempReading) (s : State) := s.clocked (·.regionStopped 20) fun d => d.throttleEnter temps

end Sys2Proof.Machine
end

