-- ==== Sys2Proof/Machine/Fence.lean ====
section
/-! DEFINITION. Fences taking effect and the re-placement of stage programs (R253, R254, R425 to R427), with the fields of the
status registers that follow the placement. -/

namespace Sys2Proof.Machine

/-! ### Units and the fields that show their placement -/

/-- The Facets that a placed program holds; a forest replica and a Grating stage hold none. -/
def Placed.facets (p : Placed) : List Nat := if p.kind ≤ 1 then p.units else []

/-- Whether a placed program holds a unit that is fenced. -/
def Dev.holdsFenced (d : Dev) (p : Placed) : Bool :=
  p.units.any fun u => if p.kind ≤ 1 then d.facetFenced u else if p.kind = 2 then d.gratingFenced u else d.engineFenced u

/-- The Facets of a placed program show its partition (Table 6.17). -/
def Dev.showPartition (d : Dev) (p : Placed) : Dev :=
  d.each p.facets fun d f =>
    let (c, j, k) := (f / 64, f / 4 % 16, f % 4)
    ((d.put (R.LNS_FACET_STAT_CONTEXT c j k) p.context).put (R.LNS_FACET_STAT_PARTITION c j k) p.id).put
      (R.LNS_FACET_STAT_GANG c j k) (b2n (p.kind = 1))

/-- A Facet that no program holds shows no partition and no form. -/
def Dev.clearPartition (d : Dev) (f : Nat) : Dev :=
  let (c, j, k) := (f / 64, f / 4 % 16, f % 4)
  let d := ((d.put (R.LNS_FACET_STAT_CONTEXT c j k) 0).put (R.LNS_FACET_STAT_PARTITION c j k) 0).put (R.LNS_FACET_STAT_GANG c j k) 0
  (d.put (R.LNS_FACET_STAT_SHARED c j k) 0).put (R.LNS_FACET_STAT_BANDS c j k) 0

/-- `PARTITIONS`, `GANGED` and `GANGS` of the cores and clusters follow the placement (Tables 6.14 and 6.16). -/
def Dev.showPlacement (d : Dev) : Dev :=
  let parts := d.plan.placed.filter fun p => p.kind ≤ 1
  let held (f : Nat) : Bool := parts.any fun p => p.units.contains f
  let d := d.each ((List.range 1024).filter fun f => !held f) Dev.clearPartition
  let d := d.each parts Dev.showPartition
  let d := d.each (List.range 16) fun d g =>
    d.put (R.GRT_STAT_CONTEXT g) (match d.plan.placed.find? fun p => p.kind = 2 && p.id = 1024 + g with | some p => p.context | none => 0)
  let d := d.each (List.range 256) fun d c =>
    let here := parts.filter fun p => p.units.any fun f => f / 4 = c
    (d.put (R.LNS_CORE_STAT_PARTITIONS (c / 16) (c % 16)) (min 4 here.length)).put (R.LNS_CORE_STAT_GANGED (c / 16) (c % 16))
      (b2n (here.any fun p => p.kind = 1))
  d.each (List.range 16) fun d c =>
    d.put (R.LNS_CLUSTER_STAT_GANGS c) (parts.countP fun p => p.kind = 1 && p.id / 64 = c)

/-- `LNS_FENCE_SUMMARY` follows the fences (Table 6.13). -/
def Dev.fenceSummary (d : Dev) : Dev :=
  let d := d.put R.LNS_FENCE_SUMMARY_FACETS ((List.range 1024).countP d.facetFenced)
  let d := d.put R.LNS_FENCE_SUMMARY_CORES ((List.range 256).countP d.coreFenced)
  d.put R.LNS_FENCE_SUMMARY_CLUSTERS ((List.range 16).countP d.clusterFenced)

/-! ### A fence (R253) -/

/-- A Facet is fenced. -/
def Dev.setFacetFenced (d : Dev) (f : Nat) : Dev := d.put (R.LNS_FACET_STAT_STATE (f / 64) (f / 4 % 16) (f % 4)) 3

/-- A Lens core and its 4 Facets are fenced. -/
def Dev.setCoreFenced (d : Dev) (c : Nat) : Dev :=
  (d.put (R.LNS_CORE_STAT_FENCED (c / 16) (c % 16)) 1).each (range (4 * c) 4) Dev.setFacetFenced

/-- A Grating is fenced. -/
def Dev.setGratingFenced (d : Dev) (g : Nat) : Dev := d.put (R.GRT_STAT_STATE g) 3

/-- A cluster is fenced with its 16 Lens cores, its mover, whose operations are lost, and its Grating. -/
def Dev.setClusterFenced (d : Dev) (c : Nat) : Dev :=
  let d := ((d.put (R.LNS_CLUSTER_STAT_FENCED c) 1).each (range (16 * c) 16) Dev.setCoreFenced).setGratingFenced c
  d.stopMovers 3 fun o => o.cluster.val = c

/-- The unit of a fence is fenced (R253). -/
def Dev.setFenced (d : Dev) (f : FenceReq) : Dev :=
  if f.kind = 0 then d.setFacetFenced f.index
  else if f.kind = 1 then d.setCoreFenced f.index
  else if f.kind = 2 then d.setClusterFenced f.index
  else if f.kind = 3 then d.setGratingFenced f.index
  else d.put (R.FOR_ENGINE_STAT_STATE f.index) 3

/-! ### Re-placement of array programs (R426) -/

/-- Rescale registers of one unit's block of `len` bytes carried to another's, where a program moves (R337). -/
def Dev.moveRescale (d : Dev) (len src dst : Nat) : Dev :=
  if src = dst then d
  else
    let mine := d.regs.filter fun w => src ≤ w.1 && w.1 < src + len
    d.each mine fun d w => d.setWord (w.1 - src + dst) w.2.toNat

/-- The rescale block of the core of a Facet. -/
def coreRescale (f : Nat) : Nat := (R.LNS_RESCALE_MULT (f / 64) (f / 4 % 16) 0).addr

/-- Whether a Facet is unfenced and no program is placed on it. -/
def Dev.facetIdle (d : Dev) (f : Nat) : Bool := !d.facetFenced f && !d.plan.placed.any fun p => p.facets.contains f

/-- The Facet that takes a partition with none left: the lowest idle one of its cluster, else of the device. -/
def Dev.spareFacet (d : Dev) (f : Nat) : Option Nat :=
  match (range (f / 64 * 64) 64).find? d.facetIdle with
  | some g => some g
  | none => (List.range 1024).find? d.facetIdle

/-- An address in the memory of a Grating's cluster, at the same offset in that of the Grating that takes its stage. -/
def moveGrating (src dst : Nat) : Place → Place
  | .shared a => .shared (if within (clusterBase src) (clusterBase src + 12 * 2 ^ 20 - 1) a then clusterBase dst + (a - clusterBase src) else a)
  | p => p

/-- Where the outputs of a pass go when its program moves from one partition to another: at the same offset of the new core's memory, or of
the new Grating's cluster memory; the pieces of a Gang write where it wrote (R25, R426; log entry 64, DESIGN CHOICE). -/
def moveOut (old new : Nat) (out : Place) : Place :=
  if 1024 ≤ old then moveGrating (old - 1024) (new - 1024) out
  else match out with | .core c a => if c.val = old / 4 then .core (Fin.ofNat 256 (new / 4)) a else out | .shared _ => out

/-- The passes of a program that takes other places go with it (R25). -/
def Pass.rehome (old : Placed) (ids : List Nat) (p : Pass) : Pass :=
  if p.partition = old.id && p.context = old.context && p.model = old.model then
    let new := ids.headD p.partition
    let moved := if 1024 ≤ new then { p with qaddr := match moveGrating (old.id - 1024) (new - 1024) (.shared p.qaddr) with | .shared a => a | _ => p.qaddr,
                                             qblock := ownAddresses (new - 1024) p.qblock } else p
    { moved with partition := new, homes := p.homes ++ ids, gang := p.gang && ids.isEmpty, out := moveOut old.id new p.out }
  else p

/-- A program put in place of another; none when it has no place left. -/
def Dev.replacePlaced (d : Dev) (p : Placed) (qs : List Placed) : Dev :=
  { d with plan := { d.plan with placed := d.plan.placed.flatMap fun x => if x = p then qs else [x] },
           lens := { d.lens with passes := d.lens.passes.map (Pass.rehome p (qs.map fun q => q.id)) } }

/-- A Facet partition keeps its unfenced Facets, or moves to one idle Facet. -/
def Dev.replacePartition (d : Dev) (p : Placed) : Dev × Bool :=
  match p.units.filter fun f => !d.facetFenced f with
  | f :: fs => (d.replacePlaced p [{ p with id := fs.foldl min f, units := f :: fs }], true)
  | [] =>
    match d.spareFacet p.id with
    | some g => ((d.moveRescale 0x8000 (coreRescale p.id) (coreRescale g)).replacePlaced p [{ p with kind := 0, id := g, units := [g] }], true)
    | none => (d.replacePlaced p [], false)

/-- A Gang becomes single-core partitions on the unfenced Facets of its quad. -/
def Dev.replaceGang (d : Dev) (p : Placed) : Dev × Bool :=
  let parts := (List.range 4).filterMap fun i =>
    match (range (p.id / 16 * 16 + 4 * i) 4).filter fun f => !d.facetFenced f with
    | f :: fs => some { p with kind := 0, id := f, units := f :: fs }
    | [] => none
  if parts.isEmpty then d.replacePartition p else (d.replacePlaced p parts, true)

/-- What a stage keeps in its cluster's memory carried to another's, at the same offsets. -/
def Dev.moveOperands (d : Dev) (src dst : Nat) (bs : List Binding) : Dev :=
  d.each (bs.filter fun b => b.kind = 1) fun d b => d.copy (clusterBase src + b.base) (clusterBase dst + b.base) b.size

/-- A Grating stage moves to the lowest unfenced, idle Grating; its operands move to that cluster's memory, its rescale registers go
with it (R426). -/
def Dev.replaceGrating (d : Dev) (p : Placed) : Dev × Bool :=
  match (List.range 16).find? fun g => !d.gratingFenced g && !d.plan.placed.any fun q => q.kind = 2 && q.units.contains g with
  | some g =>
    let rescale (k : Nat) : Nat := (R.GRT_RESCALE_MULT k 0).addr
    let d := (d.moveRescale 0x2000 (rescale (p.id - 1024)) (rescale g)).moveOperands (p.id - 1024) g p.bindings
    (d.replacePlaced p [{ p with id := 1024 + g, units := [g] }], true)
  | none => (d.replacePlaced p [], false)

/-- A tier of which a program has found no place is unplaced (R427). -/
def Dev.loseTier (d : Dev) (p : Placed) : Dev :=
  if p.learning || d.plan.lost.contains (p.model, p.tier) then d
  else { d with plan := { d.plan with lost := d.plan.lost ++ [(p.model, p.tier)] } }

/-- One array program that held a fenced unit re-placed, and counted where it has a place. -/
def Dev.replaceArray (d : Dev) (p : Placed) : Dev :=
  let (d, ok) := if p.kind = 0 then d.replacePartition p else if p.kind = 1 then d.replaceGang p else d.replaceGrating p
  if ok then d.bump C.TKP_REPLACEMENTS else d.loseTier p

/-! ### Re-placement of forest models (R340, R426) -/

/-- Whether an address lies in the bank of an engine. -/
def inBank (e a : Nat) : Bool := (bankRanges e).any fun r => r.1 ≤ a && a < r.1 + r.2

/-- An engine freed of its stage. -/
def Dev.freeEngine (d : Dev) (e : Nat) : Dev :=
  let l := d.lens
  let d := { d with regs := d.regs.filter fun w => !inBank e w.1,
                    lens := { l with forestCopy := l.forestCopy.filter fun w => !inBank e w.1,
                                     shadow := l.shadow.filter fun w => !inBank e w.1,
                                     badWords := l.badWords.filter fun a => !inBank e a } }
  let d := ((d.put (R.FOR_ENGINE_STAT_MODEL e) 0xF).put (R.FOR_ENGINE_STAT_STAGE e) 0).put (R.FOR_ENGINE_STAT_REPLICA e) 0
  (((d.put (R.FOR_ENGINE_STAT_WORD_BAD e) 0).put (R.FOR_ENGINE_STAT_SHADOW_LOADING e) 0).put (R.FOR_ENGINE_STAT_NODES e) 0).put
    (R.FOR_ENGINE_STAT_TREES e) 0

/-- Words of a bank carried from engine `src` to engine `dst`. -/
def carryBank (src dst : Nat) (ws : Sparse Word) : List (Nat × Word) :=
  ws.filterMap fun w =>
    (((bankRanges src).zip (bankRanges dst)).findSome? fun r =>
      if r.1.1 ≤ w.1 && w.1 < r.1.1 + r.1.2 then some (w.1 - r.1.1 + r.2.1) else none).map fun a => (a, w.2)

/-- What the firmware keeps of a stage: the words of its active and shadow banks, at the addresses of engine 0, and whether the shadow bank
is being loaded. -/
structure StageImage where
  active : List (Nat × Word)
  shadow : List (Nat × Word)
  loading : Nat
  deriving DecidableEq, Repr

/-- That of the stage on an engine. -/
def Dev.stageImage (d : Dev) (e : Nat) : StageImage :=
  ⟨carryBank e 0 d.lens.forestCopy, carryBank e 0 d.lens.shadow, d.get (R.FOR_ENGINE_STAT_SHADOW_LOADING e)⟩

/-- The banks of an engine loaded with a stage; a load of shadow banks goes on there (R362). -/
def Dev.loadStage (d : Dev) (e : Nat) (image : StageImage) : Dev :=
  let put (s : Sparse Word) (ws : List (Nat × Word)) : Sparse Word := ws.foldl (fun s w => Sparse.put s w.1 w.2) s
  let active := carryBank 0 e image.active
  let d := (d.each active fun d w => d.setWord w.1 w.2.toNat).put (R.FOR_ENGINE_STAT_SHADOW_LOADING e) image.loading
  { d with lens := { d.lens with forestCopy := put d.lens.forestCopy active, shadow := put d.lens.shadow (carryBank 0 e image.shadow) } }

/-- The stages of a further replica put on engines. -/
def Dev.placeReplica (d : Dev) (p : Placed) (r : Nat) (images : List StageImage) (es : List Nat) : Dev :=
  let d := d.each ((List.range es.length).zip es) fun d se =>
    let d := d.loadStage se.2 (images.getD se.1 ⟨[], [], 0⟩)
    let d := ((d.put (R.FOR_ENGINE_STAT_MODEL se.2) p.model).put (R.FOR_ENGINE_STAT_STAGE se.2) se.1).put (R.FOR_ENGINE_STAT_REPLICA se.2) r
    (d.bankUse se.2).bump C.TKP_REPLACEMENTS
  { d with plan := { d.plan with placed := d.plan.placed ++ [{ p with id := r, units := es }] } }

/-- The engines that are unfenced and hold no stage. -/
def Dev.freeEngines (d : Dev) : List Nat :=
  (List.range 32).filter fun e => !d.engineFenced e && d.get (R.FOR_ENGINE_STAT_MODEL e) = 0xF

/-- Further replicas placed while engines last and the image's number is not reached. -/
def Dev.moreReplicas (p : Placed) (images : List StageImage) : Nat → Dev → Dev
  | 0, d => d
  | k + 1, d =>
    let mine := d.plan.placed.filter fun q => q.kind = 3 && q.model = p.model
    let free := d.freeEngines
    if d.get (R.FOR_MODEL_REPLICAS_IMAGE p.model) ≤ mine.length || free.length < p.units.length then d
    else
      let r := ((List.range 32).find? fun r => !mine.any fun q => q.id = r).getD 0
      Dev.moreReplicas p images k (d.placeReplica p r images (free.take p.units.length))

/-- A forest model keeps its whole replicas and gets further ones. -/
def Dev.replaceForest (d : Dev) (m : Nat) : Dev :=
  let mine (q : Placed) : Bool := q.kind = 3 && q.model = m
  match d.plan.placed.filter fun q => mine q && d.holdsFenced q with
  | [] => d
  | p :: broken =>
    let all := p :: broken
    let sources := match d.plan.placed.find? fun q => mine q && !d.holdsFenced q with | some q => q.units | none => p.units
    let images := sources.map d.stageImage
    let d := d.each (all.flatMap fun q => q.units) Dev.freeEngine
    let d := { d with plan := { d.plan with placed := d.plan.placed.filter fun q => !all.contains q } }
    let d := Dev.moreReplicas p images 32 d
    let d := if d.plan.placed.any mine then d else d.loseTier p
    d.put (R.FOR_MODEL_REPLICAS m) (d.plan.placed.countP mine)

/-! ### Capacities (R415, R426, R427) -/

/-- The capacity a tier's placement holds: Facets, Gratings or replicas; none once a stage of it has no place (R427). -/
def Dev.tierUnits (d : Dev) (m t : Nat) : Nat :=
  if d.plan.lost.contains (m, t) then 0
  else
    (d.plan.placed.filter fun p => p.model = m && p.tier = t && !p.learning).foldl (fun n p =>
      n + if p.kind ≤ 1 then p.units.length else 1) 0

/-- `CAP` of the tiers scaled by the share of their units that remains; 0 without a placement. -/
def Dev.scaleCaps (before : List Nat) (d : Dev) : Dev :=
  d.each (allTiers.zip before) fun d x =>
    let (m, t) := x.1
    let now := d.tierUnits m t
    if x.2 = 0 || now = x.2 then d
    else d.put (R.TKP_ENERGY_CAP m t) (min 8192 (d.get (R.TKP_ENERGY_CAP m t) * now / x.2))

/-! ### Barrier networks (R443) -/

/-- The member bits of a placed program: its Lens cores, or its Grating. -/
def Placed.members (p : Placed) : List Nat :=
  if p.kind ≤ 1 then p.units.map fun f => f / 4 else if p.kind = 2 then p.units.map fun g => 256 + g else []

/-- Members as bits. -/
def memberBits (ms : Nat → Bool) : Nat := (List.range 272).foldl (fun n m => if ms m then n + 2 ^ m else n) 0

/-- A program of a context has taken other places: in the masks that held it, the members that took its place stand for those it left. -/
def Dev.moveMembers (d : Dev) (p : Placed) (qs : List Placed) : Dev :=
  let new := qs.flatMap Placed.members
  let held (m : Nat) : Bool := d.plan.placed.any fun q => q.context = p.context && q.members.contains m
  d.each ((List.range 16).filter fun b => d.on (R.SYN_BAR_ALLOCATED b) && d.get (R.SYN_BAR_CONTEXT b) = p.context) fun d b =>
    let mask := d.barMask b
    let gone (m : Nat) : Bool := p.members.contains m && !held m
    if !p.members.any fun m => mask.testBit m && gone m then d
    else d.setBarMask b (memberBits fun m => (mask.testBit m && !gone m) || (new.contains m && !p.members.contains m))

/-- Fenced members leave every mask, and a network whose new mask has wholly arrived is released. -/
def Dev.dropMembers (d : Dev) : Dev :=
  d.each ((List.range 16).filter fun b => d.on (R.SYN_BAR_ALLOCATED b)) fun d b =>
    let mask := d.barMask b
    let fenced (m : Nat) : Bool := if m < 256 then d.coreFenced m else d.gratingFenced (m - 256)
    (d.setBarMask b (memberBits fun m => mask.testBit m && !fenced m)).barrierCheck b

/-- One array program re-placed, with the barrier networks of its context. -/
def Dev.replaceProgram (d : Dev) (p : Placed) : Dev :=
  let d' := d.replaceArray p
  d'.moveMembers p (d'.plan.placed.filter fun q => !d.plan.placed.contains q)

/-! ### The boundary -/

/-- FENCE_TAKE_EFFECT: the fences decided since the last boundary take effect; their tiles stop, the programs that held the
units are re-placed, barrier masks follow, capacities are scaled (R425, R426, R443). -/
def Dev.fencesTakeEffect (d : Dev) : Dev :=
  match d.plan.fences with
  | [] => d
  | f :: fs =>
    let due := f :: fs
    let before := allTiers.map fun p => d.tierUnits p.1 p.2
    let d := { d with plan := { d.plan with fences := [] } }
    let hit (d : Dev) (t : Tile) : Bool :=
      if t.onGrating then d.gratingFenced (t.partition - 1024)
      else t.facets.any d.facetFenced || d.plan.placed.any fun p => p.runs t && d.holdsFenced p
    let fenced := d.each due fun d f => (d.setFenced f).bump C.TKP_FENCES
    let d := (fenced.haltTiles 2 3 (hit fenced)).fenceSummary
    let d := (d.each (d.plan.placed.filter fun p => p.kind ≤ 2 && d.holdsFenced p) Dev.replaceProgram).dropMembers
    let d := d.each (List.range 15) Dev.replaceForest
    (Dev.scaleCaps before d).showPlacement

end Sys2Proof.Machine
end

