-- ==== Sys2Proof/Machine/Tick.lean ====
section
/-! DEFINITION. The tick boundary (chapters 1 and 11) and everything that meets there: the verdict deadline, the pending changes,
the energy credit, gaps, fences, generation flips, restarts and steps of contexts, and the lines `TICK_SYNC` and `TICK_OUT`. -/

namespace Sys2Proof.Machine

/-! ### The end of the compute window (R38, R39, R415, R423) -/

/-- Tiers of which an admitted sample has not completed in the window have overrun (R415). -/
def Dev.markOverruns (d : Dev) : Dev :=
  match d.plan.computing with
  | none => d
  | some b =>
    d.each b.samples fun d s =>
      d.each (s.admitted.filter fun t => (s.raw.getD t none).isNone) fun d t =>
        d.setUse s.model t { d.tierUse s.model t with overran := true }

/-- Whether a pass is a T2 pass of live work that the deadline abandons, other than by the emergency throttle (R423). -/
def Dev.abandonedT2 (d : Dev) (p : Pass) : Bool :=
  p.tier = 2 && !p.learning && !d.stepping p.context && !d.complete p
    && !d.lens.stopped.any fun s => p.isOf s.tile && s.cause % 8 = 3

/-- The saturation events that the deadline shows: forest samples abandoned, T2 passes abandoned (R423). -/
def Dev.saturation (d : Dev) : Dev :=
  let d := if d.lens.jobs.isEmpty then d else { d with plan := { d.plan with decim := { d.plan.decim with event := true } } }
  let ms := (d.lens.passes.filter d.abandonedT2).map fun p => p.model
  { d with plan := { d.plan with gaps := ms.foldl (fun g m => modifyNth m (fun x => { x with event := true }) g) d.plan.gaps } }

/-- Array work at the verdict deadline: verdict passes are abandoned, learning tiles stop and are kept (R39, R40, Table 6.6). -/
def Dev.arrayDeadline (d : Dev) : Dev :=
  let ends (ctx tier : Nat) (learning : Bool) : Bool := !learning && d.hasDeadline ctx tier
  let d := d.widenDeadline.stopPrograms 0 1 fun _ ctx tier learning => ends ctx tier learning
  (d.graphsAnew fun x => ends x.context x.tier x.learning).haltTiles 4 5 fun t => t.learning

/-- The learning phases of the window that have completed: those of which no tile is left to stop (R414; log entry 44, DESIGN
CHOICE). -/
def Dev.phasesCompleted (d : Dev) : Dev :=
  d.each (d.plan.phases.filter fun m => !d.lens.running.any fun r => r.tile.learning && r.tile.model.val = m) fun d m =>
    d.countCompleted m 3

/-- The compute window ends: the verdict deadline of its batch (R38 to R40). -/
def Dev.windowEnds (d : Dev) : Dev :=
  let d := if d.plan.computing.isSome then d.markOverruns.learnDeferred.saturation.phasesCompleted else d
  let d := d.arrayDeadline.forestDeadline.verdictDeadline
  { d with plan := { d.plan with past := d.plan.computing, computing := none } }

/-! ### Energy (R409 to R413) -/

/-- T in µs, in FP32. -/
def periodUs (ns : Nat) : Nat := toFp32 (.fin false ns 1000)

/-- `TARGET_W` × T in FP32. -/
def Dev.targetUj (d : Dev) : Nat := fpMul (fpOfNat (d.get R.APR_STAT_TARGET_W)) (periodUs d.plan.period)

/-- The debt that an input energy leaves: its excess over the tick's target, at most half of that target (R413). -/
def Dev.debtOf (d : Dev) (energy : Nat) : Nat :=
  let t := d.targetUj
  if fpLt t energy then fpMin (fpSub energy t) (fpMul (toFp32 (.fin false 1 2)) t) else 0

/-- The input energy of the tick that has ended: the debt, and the last 64 ticks for `FIXED_W`. Before the first boundary no
tick has been measured. -/
def Dev.measure (d : Dev) (energy : Nat) : Dev :=
  let d := if d.plan.computing.isSome then d.put R.APR_WINDOW_LEFT_UJ d.plan.left else d
  if d.plan.firstTick.isNone then d.put R.APR_WINDOW_DEBT_UJ 0
  else
    let debt := d.debtOf energy
    let d := if fpEq debt 0 then d else d.bump C.APR_DEBT_TICKS
    let d := { d with plan := { d.plan with history := ((energy, d.plan.charged) :: d.plan.history).take 64 } }
    d.put R.APR_WINDOW_DEBT_UJ debt

/-- `FIXED_W` (R410): the image's value until 64 ticks have passed, then the input energy that the last 64 ticks did not charge. -/
def Dev.fixedW (d : Dev) : Nat :=
  if d.plan.history.length < 64 then d.plan.imageFixed
  else
    let sum : Num := d.plan.history.foldl (fun s h => (s.add (fp32 h.1)).add (fp32 h.2).neg) (.ofInt 0)
    let w := toFp32 ((sum.mul (.ofInt 1000)).div (.ofInt (64 * d.plan.period)))
    if fpLt w 0 then 0 else w

/-- The T0 charge of a batch: for each model its samples times its T0 `E_UJ` (R411). -/
def Dev.t0Charge (d : Dev) (b : Batch) : Nat :=
  (List.range 15).foldl (fun e m =>
    let n := b.samples.countP fun s => s.model = m
    if n = 0 then e else fpAdd e (fpMul (fpOfNat n) (d.get (R.TKP_ENERGY_E_UJ m 0)))) 0

/-- CREDIT_FORM: the credit of the window that begins, and its T0 charge (R409, R411). -/
def Dev.formCredit (d : Dev) : Dev :=
  let fixed := d.fixedW
  let credit := fpSub (fpSub d.targetUj (fpMul fixed (periodUs d.plan.period))) (d.get R.APR_WINDOW_DEBT_UJ)
  let d := (d.put R.APR_CREDIT_CREDIT_UJ credit).put R.APR_CREDIT_FIXED_W fixed
  let d := { d with plan := { d.plan with left := credit, charged := 0 } }
  match d.plan.computing with | some b => d.spend (d.t0Charge b) | none => d

/-- A written `BUDGET_W` takes effect (R419). -/
def Dev.budgetTakesEffect (d : Dev) : Dev :=
  if !d.plan.budgetPending then d
  else
    let b := d.get R.APR_CFG_BUDGET_W
    let t := if d.on R.APR_STAT_SOFT_ACTIVE then min (d.get R.APR_STAT_TARGET_W) b else b
    (({ d with plan := { d.plan with budgetPending := false } }).put R.APR_STAT_TARGET_W t).softClear

/-- THROTTLE_END, and the ticks that begin under throttle (R421). -/
def Dev.throttleBoundary (d : Dev) : Dev :=
  let cool := d.hottest 0 64 ≤ 100 * 8 && d.hottest 64 32 ≤ 90 * 8
  let d := if d.on R.APR_STAT_THROTTLE && cool then (d.put R.APR_STAT_THROTTLE 0).setMhz 0 3300 else d
  if d.on R.APR_STAT_THROTTLE then d.bump C.APR_THROTTLE_TICKS else d

/-! ### Pending settings (R29, R50, R78, R430) -/

/-- The settings that apply from the window that begins. -/
def Dev.latchSettings (d : Dev) : Dev :=
  let lo := (R.TKP_ESC_B1_LO 0).addr
  let p := d.plan
  let d := { d with plan := { p with mode := d.word R.TKP_MODE_LEARNING.addr, planCfg := d.word R.TKP_PLAN_CFG_GROUP_MAX.addr,
                                     esc := d.regs.filter fun w => lo ≤ w.1 && w.1 < lo + 15 * 0x20 } }
  let d := if d.on R.TKP_TICK_STAT_PERIOD_PENDING && !d.on R.TKP_TICK_STAT_FOLLOWER then
      { d with plan := { d.plan with period := d.get R.TKP_TICK_CFG_PERIOD_NS } }
    else d
  (d.put R.TKP_TICK_STAT_PERIOD_PENDING 0).modesTakeEffect

/-! ### Contexts: restart and Step (R447 to R449, R453, R533 to R538) -/

/-- The record of a sample of the step batch and its state-block entry, copied into the context's step area at place `i`. -/
def Dev.copyStepped (d : Dev) (b : Batch) (base i : Nat) (s : Sample) : Dev :=
  (d.copy (d.slotAddr b.set s.slot) (base + 576 * i) 512).copy (d.stateBlock b.set s.slot) (base + 576 * i + 512) 64

/-- A sample of a step batch counts as admitted to every tier of its model that has a place (R534). -/
def Dev.asAdmitted (d : Dev) (s : Sample) : Sample :=
  { s with admitted := [0, 1, 2].filter (d.tierPlaced s.model) }

/-- A context takes the batch whose window begins as its step batch (R534). -/
def Dev.takeStepBatch (d : Dev) (c : Nat) : Dev :=
  let d := d.graphsAnew fun x => x.context = c && d.steps c x.tier x.learning
  match d.plan.computing with
  | none => { d with lpe := { d.lpe with stepBatches := Sparse.put d.lpe.stepBatches c ⟨[], false⟩ } }
  | some b =>
    let mine := b.samples.filter fun s => s.context = c
    let base := (d.seq.stepAreas.find c).getD 0
    let d := d.each ((List.range mine.length).zip mine) fun d x => d.copyStepped b base x.1 x.2
    { d with lpe := { d.lpe with stepBatches := Sparse.put d.lpe.stepBatches c ⟨mine.map d.asAdmitted, false⟩ } }

/-- A restart-pending context restarts (R453); one in Step takes a new step batch (R538). -/
def Dev.restart (d : Dev) (c : Nat) : Dev :=
  let d := (d.contextRestart c).dropReleases c
  if d.stepping c then d.takeStepBatch c else d

/-- STEP_ENTER (R534); a faulted context takes its step batch at its restart (Table 14.11). -/
def Dev.stepEnter (d : Dev) (c : Nat) : Dev :=
  let d := d.put (R.SYN_CTX_STAT_STEPPING c) 1
  if d.faulted c then d else d.takeStepBatch c

/-- STEP_LEAVE (R538): a `STEP` not yet answered is answered with the commands that have ended. -/
def Dev.stepLeave (d : Dev) (c : Nat) : Dev :=
  let mine (ctx tier : Nat) (learning : Bool) : Bool := ctx = c && d.steps c tier learning
  let d := (d.stopPrograms 0 6 fun _ ctx tier learning => mine ctx tier learning).stopMovers 6 fun o =>
    mine o.context.val o.tier.val o.learning
  let l := d.lpe
  let asked := l.steps.find? fun x => x.context = c
  let answer := asked.map fun x => d.stepResult x false
  let d := { d with lpe := { l with stepBatches := l.stepBatches.drop c, steps := l.steps.filter fun s => s.context != c } }
  let d := match answer with | some a => (d.bump C.LPE_STEPS).answerLate 0x30 a | none => d
  ((d.put (R.SYN_CTX_STAT_STEPPING c) 0).contextRestart c).dropReleases c

/-- The accepted `STEP_MODE` requests take effect. -/
def Dev.stepModes (d : Dev) : Dev :=
  let due := d.lpe.stepPend
  let d := { d with lpe := { d.lpe with stepPend := [] } }
  d.each due fun d e => if e.2 then d.stepEnter e.1 else d.stepLeave e.1

/-- Contexts at a boundary: pending restarts, then pending modes. -/
def Dev.contextsAtBoundary (d : Dev) : Dev :=
  ((List.range 256).filter fun c => d.get (R.SYN_CTX_STAT_STATE c) = 3).foldl Dev.restart d |>.stepModes

/-- WINDOW_COUNTER_SIGNAL: the window counter of every running context (R447). -/
def Dev.signalWindows (d : Dev) : Dev :=
  d.each ((List.range 256).filter fun c => d.get (R.SYN_CTX_STAT_STATE c) = 1) fun d c =>
    d.signal c (Config.windowCtr c).toNat 1 0x6000

/-- Watchdogs count the boundary for the waits of contexts that are not in Step (R448, R449); a pending flush counts it too
(R467). -/
def Dev.countBoundary (d : Dev) : Dev :=
  let waits := d.sync.waits.map fun w => if d.stepping w.context then w else { w with ticks := w.ticks + 1 }
  let queues := d.sync.queues.map fun (e : Nat × Queue) =>
    if d.on (R.QUE_STAT_FLUSH_PENDING e.1) then (e.1, { e.2 with flushTicks := e.2.flushTicks + 1 }) else e
  { d with sync := { d.sync with waits := waits, queues := queues } }

/-! ### Batches (R33 to R37) -/

/-- The collecting batch closes and its window begins; the next batch collects in the other slot set. -/
def Dev.turnBatches (d : Dev) : Dev :=
  let set := match d.plan.collecting with | some b => 1 - b.set | none => 0
  let d := if d.plan.collecting.isSome then d.bump C.TKP_BATCHES else d
  let p := d.plan
  { d with plan := { p with computing := p.collecting, collecting := some ⟨d.tick32, set, []⟩, plannedEnd := false,
                            openGroup := [], closedGroups := [], exhausted := false, phases := [], reissued := [] } }

/-- The samples of the window's batch, in slot order, at its start (R368, R369, R373). -/
def Dev.openSamples (d : Dev) : Dev :=
  match d.plan.computing with | some b => d.each b.samples (Dev.openSample b) | none => d

/-- Gaps step after a window (R423), for the batches to come. -/
def Dev.gapSteps (d : Dev) (ended : Bool) : Dev :=
  if ended then d.each (Gap.decim :: (List.finRange 15).map Gap.model) Dev.gapStepUp else d

/-- The windows that a tier's means are taken over (R415). -/
def Dev.countWindows (d : Dev) (ended : Bool) : Dev :=
  if ended then d.each allTiers fun d p => let u := d.tierUse p.1 p.2; d.setUse p.1 p.2 { u with windows := u.windows + 1 } else d

/-- Capacities of the window that begins: the cut after an overrun, which a recompute of the same boundary precedes (R415,
Table 11.5). -/
def Dev.capsAtBoundary (d : Dev) : Dev := (if d.capTick then d else d.cutCaps).refillCaps

/-! ### Lines at the boundary (R638, R642, R643) -/

/-- Lines of `Sent.pulse`: 0 `PPS_OUT`, 1 `TICK_OUT`, 2 `TICK_SYNC`. -/
def Dev.pulse (d : Dev) (line ns : Nat) : Dev :=
  if d.sup.lands = 0 then { d with port := { d.port with sent := d.port.sent ++ [.pulse line ns] } } else d

/-- The driver's `TICK_SYNC` edge with its tick blocks, and `TICK_OUT` where it has the land. -/
def Dev.tickLines (d : Dev) : Dev :=
  let d := if d.on R.TKP_MODE_FABRIC_BOARD && d.on R.TKP_TICK_STAT_DRIVER then (d.pulse 2 d.plan.tickNs).driveTicks else d
  if d.get R.CLK_OUT_STAT_LAND_FN = 2 then d.pulse 1 d.plan.tickNs
  else if d.on R.CLK_OUT_CFG_TICK_OUT_EN && d.get R.CLK_OUT_STAT_LAND_FN = 1 then d.bump C.CLK_OUT_DENIED
  else d

/-! ### The boundary -/

/-- The tick that begins: its number and time, the first of the start-up noted, whose boundary shows the raised `MIN_SVN` (R599) and
lets the board line follow a generation that is ready (R640). -/
def Dev.beginTick (d : Dev) (time num : Nat) : Dev :=
  let first := d.plan.firstTick.isNone
  let p := d.plan
  let d := { d with plan := { p with tick := num, tickNs := time, firstTick := some (p.firstTick.getD num),
                                     recalsTick := if first then num else p.recalsTick } }
  let d := d.put R.TKP_TICK_NOW_TICK num
  if first then
    let d := d.put R.LCS_STAT_MIN_SVN (max d.life.minSvn d.sec.svn)
    let d := (d.put R.RST_STAT_STAGE 0x0C).put R.RST_STAT_START_MS (d.clockNs / 1000000)
    if d.on R.TKP_MODE_FABRIC_BOARD then d.each ((List.range 16).filter fun b => d.on (R.SYN_BAR_BOARD b)) Dev.barrierCheck else d
  else d

/-- What the boundary makes of the machine before the window begins: fences, retirements, generations (R25, R388, R389, R397,
R426, R482). -/
def Dev.changesTakeEffect (d : Dev) : Dev :=
  d.throttleBoundary.energiesTakeEffect.retirements.flips.acceptPublishes.fencesTakeEffect.retireTakeEffect

/-- The window that begins: its batch, samples, contexts, credit and capacities. -/
def Dev.windowBegins (d : Dev) (ended : Bool) : Dev :=
  let d := (d.turnBatches.openSamples).gapSteps ended
  let d := { d with seq := { d.seq with readySent := false, newStates := [] } }
  d.contextsAtBoundary.formCredit.capsAtBoundary

/-- What the ceilings of R542 have held back, written or sent as soon as they allow it: staged trace records, then journal exports (R543,
R585; log entry 47, DESIGN CHOICE). -/
def Dev.catchUp (d : Dev) : Dev :=
  let d := if d.lpe.staging.isEmpty && d.lpe.lost.all (· = 0) then d else d.drain
  if d.jrn.exportPos = d.get R.JRN_STAT_HEAD then d else d.journalExport

/-- TICK_BOUNDARY: a boundary at a time, beginning tick `num` (R26, R33 to R40, Table 1.4, Table 11.5). -/
def Dev.boundary (d : Dev) (env : BoundaryEnv) (time num : Nat) : Dev :=
  let ended := d.plan.computing.isSome
  let d := ((d.advance time).measure env.energyUj.toNat).countWindows ended
  let d := (((d.beginTick time num).windowEnds).takeTemps env.temps)
  let d := d.latchSettings.budgetTakesEffect.changesTakeEffect.windowBegins ended
  let d := d.signalWindows.stateReady.countBoundary.tickLines
  ({ d with plan := { d.plan with nextNs := time + d.plan.period } }).catchUp

/-- Whether boundaries come from the device's own period: it is no follower, or a follower that has lost `TICK_SYNC` (R30, R31). -/
def Dev.ownTicks (d : Dev) : Bool := !d.on R.TKP_TICK_STAT_FOLLOWER || 2 ≤ d.plan.missed

/-- The number of the tick that the next boundary of the device's own period begins. -/
def Dev.nextTick (d : Dev) : Nat := if d.plan.firstTick.isSome then d.plan.tick + 1 else d.plan.tick

/-! ### Followers (R30, R31, R497, R638) -/

/-- A 32-bit tick number as a count near the present one. -/
def Dev.unwrapTick (d : Dev) (n : Nat) : Nat :=
  let diff := (n + 2 ^ 32 - d.plan.tick % 2 ^ 32) % 2 ^ 32
  if diff < 2 ^ 31 then d.plan.tick + diff
  else if d.plan.tick + diff < 2 ^ 32 then n % 2 ^ 32 else d.plan.tick + diff - 2 ^ 32

/-- The number of the edge that follows the last one taken. -/
def Dev.nextEdge (d : Dev) : Nat := match d.plan.edges.getLast? with | some e => (e.2 + 1) % 2 ^ 32 | none => 0

/-- An edge taken at a time, the last sixteen kept. -/
def Dev.noteEdge (d : Dev) (time num : Nat) : Dev :=
  let es := d.plan.edges ++ [(time, num)]
  { d with plan := { d.plan with edges := es.drop (es.length - 16), missed := 0 } }

/-- The period between the edge before and one at a time; an edge after lost ones measures none. A follower that has seen one edge
only has measured none and takes its own `PERIOD_NS` (log entry 46, DESIGN CHOICE). -/
def Dev.edgePeriod (d : Dev) (time : Nat) : Nat :=
  match d.plan.edges.getLast? with
  | some e => if e.1 < time && d.plan.missed < 2 then time - e.1 else d.plan.period
  | none => d.plan.period

/-- TICK_SYNC_EDGE at a follower: a boundary, once an edge has been numbered or the follower ticks on its own (R30, R31, R497). -/
def Dev.syncEdge (d : Dev) (env : BoundaryEnv) : Dev :=
  if !d.plan.ticking || !d.on R.TKP_TICK_STAT_FOLLOWER || !d.on R.TKP_MODE_FABRIC_BOARD then d
  else
    let time := d.ns - d.get R.CLK_OUT_CFG_TICK_SYNC_DELAY_NS
    let num := d.nextEdge
    let d := { d with plan := { d.plan with period := d.edgePeriod time } }
    let d := d.noteEdge time num
    if d.plan.numbered || d.plan.firstTick.isSome then d.boundary env time (d.unwrapTick num) else d

/-- A boundary of the device's own period; a follower without edges counts it as one (R31). -/
def Dev.ownBoundary (d : Dev) (env : BoundaryEnv) : Dev :=
  if !d.plan.ticking || !d.ownTicks then d
  else
    let time := d.plan.nextNs
    if d.on R.TKP_TICK_STAT_FOLLOWER then
      let num := d.nextEdge
      let es := d.plan.edges ++ [(time, num)]
      ({ d with plan := { d.plan with edges := es.drop (es.length - 16) } }).boundary env time (d.unwrapTick num)
    else d.boundary env time d.nextTick

/-- From when a follower waits for an edge: its last one, or, before any, the instant its ticking started, which `nextNs` of such a
follower holds (log entry 46, DESIGN CHOICE). -/
def Dev.lastEdgeNs (d : Dev) : Nat := match d.plan.edges.getLast? with | some e => e.1 | none => d.plan.nextNs

/-- SYNC_LOST: two periods have gone by without an edge; the follower goes on at its last measured period (R31), or at its own
`PERIOD_NS` when it has measured none. -/
def Dev.syncLost (d : Dev) : Dev :=
  if !d.plan.ticking || !d.on R.TKP_TICK_STAT_FOLLOWER || 2 ≤ d.plan.missed then d
  else
    let t := d.lastEdgeNs + 2 * d.plan.period
    let d := (d.advance t).put R.TKP_TICK_STAT_SYNC_LOST 1
    { d with plan := { d.plan with missed := 2, nextNs := t } }

/-- The first boundary of a start-up raises `MIN_SVN` to the running copy's `SVN` (R599). -/
def Dev.lifeAtBoundary (d d' : Dev) : Life :=
  if d.plan.firstTick.isNone && d'.plan.firstTick.isSome then { d.life with minSvn := max d.life.minSvn d.sec.svn }
  else d.life

/-! ### One cycle of the time base (R514) -/

/-- What a running device does while no command waits: the time base counts one cycle, 1 + `ADJ_PPB` · 10⁻⁹ ns (log entry 1, DESIGN CHOICE),
and what the ceilings held back goes on. -/
def Dev.idle (d : Dev) : Dev :=
  if d.sup.phase = .running then
    let x := ((d.frac : Int) + 1000000000 + toSigned 24 (d.get R.LPE_TIME_STAT_ADJ_PPB)).toNat
    ({ d with ns := d.ns + x / 1000000000, frac := x % 1000000000 }).catchUp
  else d

/-! ### The commands -/

/-- TICK_BOUNDARY (R26). -/
def execTickBoundary (env : BoundaryEnv) (s : State) := s.liveLife (fun d => d.ownBoundary env) Dev.lifeAtBoundary

/-- TICK_SYNC_EDGE (R30). -/
def execTickSyncEdge (env : BoundaryEnv) (s : State) := s.liveLife (fun d => d.syncEdge env) Dev.lifeAtBoundary

/-- SYNC_LOST (R31). -/
def execSyncLost (s : State) := s.live Dev.syncLost

end Sys2Proof.Machine
end

