-- ==== Sys2Proof/Machine/Loupe.lean ====
section
/-! DEFINITION. Loupe (chapter 14): epochs, counter samples, tensor watches, regions, the servo's edges and holdover, Step, the
health and life records, the standing copy, exports and pulls. -/

namespace Sys2Proof.Machine

/-! ### Epochs and samples (R522 to R525) -/

/-- The first whole multiple of `unit` ns that is not past. -/
def Dev.multipleNow (d : Dev) (unit : Nat) : Nat := cdiv d.ns unit * unit

/-- Bytes into the counter ring (R539). -/
def Dev.counterOut (d : Dev) (bs : List Byte) : Dev :=
  (d.dramUse bs.length).ringWrite R.LPE_RING_COUNTER_BASE R.LPE_RING_COUNTER_SIZE_MIB R.LPE_RING_COUNTER_HEAD
    R.LPE_RING_COUNTER_OLDEST bs

/-- EPOCH: bits [31:0] of the time base become 0 (R522). -/
def Dev.epoch (d : Dev) : Dev :=
  let d := d.advance (d.multipleNow (2 ^ 32))
  let r := record 3 0 0xFFFF d.ns (zeros 6 ++ leBytes 8 d.ns ++ leBytes 4 d.tick32 ++ leBytes 4 d.plan.period)
  ((d.trace [r]).counterOut r).bump C.LPE_EPOCHS

/-- The region of Table 14.1 of an engine. -/
def engineRegion (id : Nat) : Nat :=
  match id / 4096 with
  | 0 => id % 4096 / 16
  | 1 => id % 4096
  | 2 => 16
  | 3 => id % 4096
  | 4 => 17
  | _ => 20

/-- Whether an engine ID is that of an engine of classes 0 to 6 (Table 12.2). -/
def isEngine (id : Nat) : Bool := decide (id % 4096 < [256, 16, 32, 16, 1, 1, 1].getD (id / 4096) 0)

/-- The engine of the command counter at a control address. -/
def cmdCtrEngine (a : Nat) : Option Nat :=
  let id := (a - 0xD01000000) / 0x20
  if 0xD01000000 ≤ a && a % 8 = 0 && isEngine id then some id else none

/-- The region of Table 14.1 in which a counter counts: that of its engine, its cluster, or its unit; units that the table does not list
count with the management processors, products by format with region 20 (log entry 71, DEDUCED). -/
def counterRegion (a : Nat) : Nat :=
  match cmdCtrEngine a with
  | some e => engineRegion e
  | none =>
    match a / 2 ^ 32 with
    | 1 => 18
    | 2 => 17
    | 3 => 17
    | 4 => 17
    | 5 => if a < 0x510000000 then (a - 0x500000000) / 0x1000000 else 20
    | 6 => if a < 0x600001000 then (a - 0x600000000) / 0x100 else 20
    | 7 => 16
    | 8 => 17
    | 0xC => if 0xC00020000 ≤ a && a < 0xC00020400 then 19 else 20
    | 0xD => 23
    | 0xE => 21
    | 0xF => 22
    | 0x10 => 21
    | _ => 20

/-- Idle cycles of a Facet or a Grating, from its stored counter: those without a tile since its cycles were last counted are idle too
(R230, Table 6.20). -/
def Dev.idleCycles (d : Dev) (u stored : Nat) : Nat := stored + if d.unitBusy u then 0 else d.openCycles u

/-- Idle cycles of a forest engine (Table 9.16); samples in flight have entered it when they have reached its stage. -/
def Dev.engineIdleCycles (d : Dev) (e : Nat) : Nat :=
  let inside := d.lens.jobs.countP fun j =>
    j.model = d.get (R.FOR_ENGINE_STAT_MODEL e) && j.replica = d.get (R.FOR_ENGINE_STAT_REPLICA e)
      && d.atStage j (d.get (R.FOR_ENGINE_STAT_STAGE e)) 0
  d.regionCycles 16 - d.word (C.FOR_BUSY_CYCLES e) - d.word (C.FOR_STALL_FEED e) - inside

/-- A counter as a read finds it (log entry 71, DEDUCED). -/
def Dev.counterWord (d : Dev) (a : Nat) : Nat :=
  let x := a - 0x500000000
  let (i, j, k) := (x / 0x1000000, x % 0x1000000 / 0x1000 - 16, x % 0x1000 / 0x100)
  let g := (a - 0x600000000) / 0x100
  let e := (a - 0x700001000) / 0x100
  if within 0x500010000 0x50FFFFFFF a && j < 16 && k < 4 && a = C.LNS_IDLE_CYCLES i j k then d.idleCycles (64 * i + 4 * j + k) (d.word a)
  else if within 0x600000000 0x600000FFF a && a = C.GRT_IDLE_CYCLES g then d.idleCycles (1024 + g) (d.word a)
  else if within 0x700001000 0x700002FFF a && a = C.FOR_IDLE_CYCLES e then d.engineIdleCycles e
  else d.word a

/-- What a sample finds of the command counters of an engine (R525): `FLAGS`, the command and counter `k`. Where one command has ended and
the next begun at this instant, the value is the final one of the command that ended. -/
def Dev.cmdSample (d : Dev) (engine k : Nat) : Nat × Nat × Nat :=
  let now := d.word (cmdCtr engine k)
  match d.shownCmd engine, d.lpe.ended.find engine with
  | some c, some e => if c.beganNs = d.ns && e.ns = d.ns then (1, e.cmdId, e.counts.getD k 0) else (0, c.cmdId, now)
  | some c, none => (0, c.cmdId, now)
  | none, some e => (2, e.cmdId, now)
  | none, none => (2, 0, now)

/-- The entry of a selection in a sample block (Table 14.6). A region whose clock stands still counts nothing until its restart, so the
value that it latches then is its present one (R519, R524). -/
def Dev.sampleEntry (d : Dev) (i : Nat) : List Byte :=
  let a := d.get (R.LPE_SEL_ADDR i)
  let stopped := if d.regionStopped (counterRegion a) then 4 else 0
  let (flags, cmd, value) := match cmdCtrEngine a with
    | none => (0, 0, d.counterWord a)
    | some e => d.cmdSample e (a % 0x20 / 8)
  leBytes 2 i ++ leBytes 1 (stopped + flags) ++ [0] ++ leBytes 4 cmd ++ leBytes 8 value

/-- The enabled selections in ascending order, from the listed words of the register store (an unlisted one reads 0). -/
def Dev.selections (d : Dev) : List Nat :=
  d.regs.filterMap fun w =>
    if 0xD00100000 ≤ w.1 && w.1 < 0xD00100000 + 8 * 16384 && w.2.toNat.testBit 48 then some ((w.1 - 0xD00100000) / 8) else none

/-- SAMPLE_CAPTURE: every `SAMPLE_US` µs the enabled selections are captured and written as one block, or dropped whole
(R524, R542, R543). -/
def Dev.sampleCapture (d : Dev) : Dev :=
  if !d.on R.LPE_CFG_SAMPLE_EN then d
  else
    let d := d.advance (d.multipleNow (d.get R.LPE_CFG_SAMPLE_US * 1000))
    let sel := d.selections
    let head := record 0x10 0 0xFFFF d.ns
      (zeros 2 ++ leBytes 4 d.lpe.sampleNo ++ leBytes 2 sel.length ++ zeros 6 ++ leBytes 4 d.tick32)
    let block := head ++ sel.flatMap d.sampleEntry
    let d := { d with lpe := { d.lpe with sampleNo := (d.lpe.sampleNo + 1) % 2 ^ 32 } }
    if d.on R.LPE_RING_COUNTER_SIZE_MIB && d.dramRoom block.length then ((d.counterOut block).bump C.LPE_SAMPLES).drain
    else (d.noteDrop 4 1).drain

/-! ### Tensor watches (R527 to R529) -/

/-- The descriptor of a watched tensor, where Loupe can read it (R527). -/
def Dev.watchedDesc (d : Dev) (w : Nat) : Dev × Option (List Byte) :=
  let a := d.get (R.LPE_WATCH_ADDR w)
  if d.get (R.LPE_WATCH_MODE w) = 0 then
    match d.fetch (a + 16) 8 [] with
    | (d, some x) => d.fetch (leAt x 0 8) 24 []
    | (d, none) => (d, none)
  else d.fetch a 24 []

/-- WATCH_FIRE: Loupe begins to read the published tensor, in the format its statistics record names and with the scale it was written
with (R327, R528, R331). Where the record or the descriptor is poison there is no report (log entry 73, DESIGN CHOICE). -/
def Dev.watchFire (d : Dev) (w : Nat) : Dev :=
  let x := d.watchRun w
  match x.due with
  | none => d
  | some p =>
    let d := d.setWatch w { x with due := none }
    if !d.on (R.LPE_WATCH_EN w) || d.faulted (d.get (R.LPE_WATCH_CONTEXT w)) then d
    else
      let (d, rec_) := d.fetch p.stat 16 []
      let (d, desc) := d.watchedDesc w
      match rec_, desc with
      | some r, some b =>
        let fmt := if (leAt r 7 1).testBit 0 then (widerOut (descFmt b)).getD (descFmt b)
          else if descFallback b then 13 else descFmt b
        let clipped := if d.get (R.LPE_WATCH_MODE w) = 0 then leAt r 4 3 else 0
        let read : WatchRead := ⟨p.place, p.cmdId, fmt, overlay b 4 (leBytes 4 p.scale), clipped, leAt r 11 1, d.clockNs⟩
        d.setWatch w { x with due := none, reading := some read }
      | _, _ => d

/-- The real value of a code of a watched tensor (R302). -/
def realValue (b : List Byte) (fmt code : Nat) : Num := (fp32 (descScale b)).mul ((fmtValue fmt code).add (.ofInt (-descZero b)))

/-- Least, greatest and mean of FP32 values; where there is none the spec states no result (log entry 12, DESIGN CHOICE). The sum's order is
left open (R297). -/
def Dev.watchStats (d : Dev) (xs : List Nat) : Dev × Nat × Nat × Nat :=
  match xs with
  | [] =>
    let free (tag : Nat) : Nat := (Config.fpFree tag 0 d.draws).toNat
    ({ d with draws := d.draws + 1 }, free 8, free 9, free 10)
  | x :: rest =>
    let (c, d) := d.draw
    let i := c % xs.length
    let (d, sum) := sumPicked xs.length (xs.eraseIdx i) (xs.getD i 0) d
    (d, rest.foldl fpMin x, rest.foldl fpMax x, fpDiv sum (fpOfNat xs.length))

/-- Bytes of DRAM that a read of a place takes; a core or cluster memory is none. -/
def Dev.dramBytes (d : Dev) (p : Place) (n : Nat) : Nat :=
  match p with | .shared a => if (d.channelOf a).isSome then n else 0 | .core _ _ => 0

/-- The report of a watch over the bytes read: three records, written or dropped together (R528). -/
def Dev.watchReport (d : Dev) (w : Nat) (x : WatchRead) (bs : List Byte) : Dev :=
  let count := bs.length * 8 / fmtContainer x.fmt
  let vals := (List.range count).map fun i => toFp32 (realValue x.desc x.fmt (elemAt x.fmt bs i))
  let nans := vals.countP fpIsNan
  let hasNan := match fmtFloat x.fmt with | some _ => true | none => false
  let (d, lo, hi, mean) := d.watchStats (vals.filter fun v => !fpIsNan v)
  let c := d.get (R.LPE_WATCH_CONTEXT w)
  let digest := shake256 bs
  let stats := record 5 (d.stepFlag c) c d.ns (leBytes 1 w ++ [0] ++ leBytes 4 lo ++ leBytes 4 hi ++ leBytes 4 mean ++ leBytes 4 count
    ++ leBytes 3 x.clipped ++ leBytes 1 (min 255 (if hasNan then nans else x.nanSq)))
  let a := record 6 (d.stepFlag c) c d.ns (leBytes 1 w ++ [0] ++ leBytes 4 x.cmdId ++ digest.take 16)
  let z := record 7 (d.stepFlag c) c d.ns (leBytes 1 w ++ zeros 5 ++ digest.drop 16)
  d.trace [stats, a, z]

/-- WATCH_READ_END: Loupe has read the tensor, one that is longer than the ceiling of R542 over as many µs windows as it needs, and writes
its report; no swap has torn the read meanwhile (R528, R529). A tensor that reads as poison has no report (log entry 73, DESIGN CHOICE). -/
def Dev.watchReadEnd (d : Dev) (w : Nat) : Dev :=
  match (d.watchRun w).reading with
  | none => d
  | some x =>
    let n := d.get (R.LPE_WATCH_BYTES w)
    let dram := d.dramBytes x.place n
    let before := (dram - 1) / 786000
    let d := (d.setWatch w { d.watchRun w with reading := none }).advanceClock (x.beganNs + 1000 * before)
    let last := dram - 786000 * before
    if !d.dramRoom last then (d.noteDrop 2 1).drain
    else
      match (d.dramUse last).placeFetch x.place 0 n [] with
      | (d, some bs) => d.watchReport w x bs
      | (d, none) => d

/-! ### Regions (R518, R519) -/

/-- Whether a region may be power-gated in the present state (Table 14.1). -/
def Dev.mayGate (d : Dev) (r : Nat) : Bool :=
  if r < 16 then
    d.clusterFenced r || !d.plan.placed.any fun p =>
      (p.kind ≤ 1 && p.units.any fun f => f / 64 = r) || (p.kind = 2 && p.units.contains r)
  else if r = 16 then !d.plan.placed.any fun p => p.kind = 3
  else r = 19 && !d.on R.TKP_MODE_FABRIC_BOARD

/-- REGION_STOP: the clock of a region that may stop has stopped, or the region is power-gated. -/
def Dev.regionStop (d : Dev) (r : Nat) (gated : Bool) : Dev :=
  if d.regionStopped r || !(r ≤ 16 || r = 19) || (gated && !d.mayGate r) then d
  else
    let d := ((d.settleClock r).put (R.LPE_REGION_STAT_STOPPED r) 1).put (R.LPE_REGION_STAT_GATED r) (b2n gated)
    { d with lpe := { d.lpe with stopTime := Sparse.put d.lpe.stopTime r d.ns } }

/-- A region's clock stops with its PLL (R519, R626). -/
def Dev.clockStops (d : Dev) (r : Nat) : Dev :=
  if d.regionStopped r then d
  else
    let d := ((d.settleClock r).put (R.LPE_REGION_STAT_STOPPED r) 1).put (R.LPE_REGION_STAT_GATED r) 0
    { d with lpe := { d.lpe with stopTime := Sparse.put d.lpe.stopTime r d.ns } }

/-- REGION_RESUMED: the replica is reloaded and the gap recorded. -/
def Dev.regionResumed (d : Dev) (r : Nat) : Dev :=
  if !d.regionStopped r then d
  else
    let stop := (d.lpe.stopTime.find r).getD 0
    let rec_ := record 4 0 r d.ns (leBytes 1 (d.get (R.LPE_REGION_STAT_GATED r)) ++ zeros 5 ++ leBytes 8 stop ++ leBytes 8 d.ns)
    let d := ((d.settleClock r).put (R.LPE_REGION_STAT_STOPPED r) 0).put (R.LPE_REGION_STAT_GATED r) 0
    ((({ d with lpe := { d.lpe with stopTime := d.lpe.stopTime.drop r } }).trace [rec_]).bump C.LPE_REGION_RESUMES)

/-! ### The servo (R515, R516, R641) -/

/-- PPS_IN_EDGE: an accepted edge marks a whole second of the count less `PPS_DELAY_NS`; an edge within 900 ms of the last accepted
one is ignored. -/
def Dev.ppsInEdge (d : Dev) : Dev :=
  let soon := match d.sup.ppsIn with | some t => decide (d.clockNs < t + 900000000) | none => false
  if soon then d
  else
    let d := { d with sup := { d.sup with ppsIn := some d.clockNs } }
    let source := d.get R.LPE_TIME_CFG_SOURCE
    if source != 2 && source != 3 then d
    else
      let x : Int := (d.ns : Int) - d.get R.LPE_TIME_CFG_PPS_DELAY_NS
      d.servoOffset (x - (x + 500000000) / 1000000000 * 1000000000)

/-- HOLDOVER: the source has been lost for 3 s. -/
def Dev.holdover (d : Dev) : Dev :=
  match d.lpe.servo.heardNs with
  | none => d
  | some t =>
    if d.get R.LPE_TIME_CFG_SOURCE = 0 || d.on R.LPE_TIME_STAT_HOLDOVER then d
    else ((d.advanceClock (t + 3000000000)).put R.LPE_TIME_STAT_HOLDOVER 1).bump C.LPE_TIME_HOLDOVERS

/-- A write of `LPE_TIME_SET` (R516); its status. -/
def Dev.timeSet (d : Dev) (v : Nat) : Dev × Nat :=
  if d.plan.firstTick.isSome then (d, St.busy) else ({ d.stepTime (v % 2 ^ 64) with frac := 0 }, St.ok)

/-! ### Step (R533, R535, R536) -/

/-- STEP_MODE (R533). -/
def Dev.stepMode (d : Dev) (payload : List Byte) : Dev × Option Answer :=
  let c := beAt payload 0 1
  let on := beAt payload 1 1
  let bad (st : Nat) : Dev × Option Answer := (d, some { status := st })
  if payload.length != 16 then bad St.malformed
  else if d.get (R.SYN_CTX_STAT_STATE c) = 0 then bad St.badAddress
  else if 2 ≤ on || (payload.drop 2).any (· != 0) then bad St.malformed
  else if d.faulted c && on = 1 then bad St.busy
  else
    let want : Bool := on = 1
    let will := (d.lpe.stepPend.find c).getD (d.stepping c)
    let pend := if want = will then d.lpe.stepPend
      else if want = d.stepping c then d.lpe.stepPend.drop c else Sparse.put d.lpe.stepPend c want
    ({ d with lpe := { d.lpe with stepPend := pend } }, some { status := St.ok })

/-- STEP (R535, R536): accepted, it is answered once its programs have ended their commands. -/
def Dev.step (d : Dev) (payload : List Byte) : Dev × Option Answer :=
  let c := beAt payload 0 1
  let n := beAt payload 2 2
  let bad (st : Nat) : Dev × Option Answer := (d.bump C.LPE_STEPS, some { status := st })
  if payload.length != 16 || !d.stepping c || beAt payload 1 1 != 0 || n = 0 || (payload.drop 6).any (· != 0) then bad St.malformed
  else if d.faulted c || d.lpe.steps.any (fun s => s.context = c) then bad St.busy
  else if (d.lpe.stepBatches.find c).any fun b => b.finished then (d.bump C.LPE_STEPS, some (stepAnswer 0 0 0 true))
  else ({ d with lpe := { d.lpe with steps := d.lpe.steps ++ [StepRun.mk c n (beAt payload 4 2) [] [] 0] } }, none)

/-- Whether a command of a stepped program that a `STEP` names runs, or waits its turn in a mover. -/
def Dev.stepRuns (d : Dev) (x : StepRun) : Bool :=
  (d.lpe.cmds.any fun c => c.stepped && c.context = x.context && d.stepNames x c.unit)
    || d.lens.movers.any fun o => d.stepsMover o && o.context.val = x.context && d.stepNames x o.partition

/-- Whether a program that a `STEP` names has ended its commands, or blocks on a wait: without one, every program has reached its end. -/
def Dev.stepHalts (d : Dev) (x : StepRun) : Bool :=
  d.stepBlocked x != 0 || (d.namedPrograms x).any fun p => x.commands ≤ (x.ended.find p.id).getD 0

/-- STEP_DONE: every stepped program has ended its commands, blocked, or reached its end; with `done` the step batch is finished
(R535). `ended`, `blocked` and `last` are of the stepped programs' commands that no other command of the model shows, and join
those it has counted (log entry 47, DESIGN CHOICE). -/
def Dev.stepDone (d : Dev) (c ended blocked : Nat) (last : Option Nat) (done : Bool) : Dev :=
  match takeFirst (fun (s : StepRun) => s.context = c) d.lpe.steps with
  | none => d
  | some (x, rest) =>
    if d.stepRuns x || !(done || d.stepHalts x || ended != 0 || blocked != 0) then d
    else
      let batch := (d.lpe.stepBatches.find c).getD ⟨[], false⟩
      let answer := stepAnswer (x.endedAll + ended) (d.stepBlocked x + blocked) (last.getD x.lastCmd) done
      let l := d.lpe
      let d := { d with lpe := { l with steps := rest, stepBatches := Sparse.put l.stepBatches c { batch with finished := done } } }
      ((d.bump C.LPE_STEP_CMDS ended).bump C.LPE_STEPS).answerLate 0x30 answer

/-! ### The health record (R540, R548) -/

/-- Whether the 8 MiB buffer holds no further entry (R540). -/
def Dev.bufferFull (d : Dev) : Bool := decide (0x800000 < (d.lpe.health.length + d.lpe.staging.length + 1) * 32)

/-- A health entry merged into the latest staged one of its pair: its count is added. -/
def mergeHealth (event inst count : Nat) (es : List (List Byte)) : Option (List (List Byte)) :=
  let isOf (e : List Byte) : Bool := leAt e 10 1 = event && leAt e 12 4 = inst
  match es.reverse.findIdx? isOf with
  | none => none
  | some i =>
    let merge (e : List Byte) : List Byte := overlay e 16 (leBytes 8 (leAt e 16 8 + count))
    some (modifyNth i merge es.reverse).reverse

/-- A health entry staged, or merged where the whole buffer is full; none when it finds no place at all. -/
def Dev.stageHealth (d : Dev) (a : HealthAcc) : Option Dev :=
  let r := record 0x0D 0 (healthUnit a.event a.inst) d.ns
    (leBytes 1 a.event ++ [0] ++ leBytes 4 a.inst ++ leBytes 8 a.count ++ leBytes 8 a.detail)
  if d.bufferFull then
    (mergeHealth a.event a.inst a.count d.lpe.health).map fun es =>
      ({ d with lpe := { d.lpe with health := es } }).bump C.LPE_HEALTH_MERGED
  else
    let d := { d with lpe := { d.lpe with health := d.lpe.health ++ [r] } }
    some ((d.bump C.LPE_HEALTH_ENTRIES).lendStatus.trace [r])

/-- HEALTH_ENTRY: the entry of a pair with events since its previous one, at most once per second (R548). -/
def Dev.healthEntry (d : Dev) (event inst : Nat) : Dev :=
  match d.lpe.healthAcc.find? fun a => a.event = event && a.inst = inst && a.count != 0 with
  | none => d
  | some a =>
    let d := match a.lastNs with | some t => d.advanceClock (t + 1000000000) | none => d
    match d.stageHealth a with
    | none => d
    | some d =>
      let done (x : HealthAcc) : HealthAcc :=
        if x.event = event && x.inst = inst then { x with count := 0, lastNs := some d.clockNs } else x
      { d with lpe := { d.lpe with healthAcc := d.lpe.healthAcc.map done } }

/-! ### The life record (R549, R550) -/

/-- The digest of the newest batch of the life record. -/
def lastLifeDigest (bs : List RingBatch) : List Byte :=
  match bs.getLast? with
  | some b => sub b.bytes (96 + 32 * leAt b.bytes 32 4 + leAt b.bytes 36 4) 32
  | none => zeros 32

/-- The end of the first minute after the start-up, by the oscillator (R550). -/
def Dev.firstMinute (d : Dev) : Nat := d.sup.startMs * 1000000 + 60000000000

/-- How long the write of a batch of `n` bytes of the life record takes: a page of 4 KiB takes 400 µs (R552; log entry 74, DEDUCED). -/
def lifeWriteNs (n : Nat) : Nat := n / 4096 * 400000

/-- Up to 2,048 of the pending entries, oldest first, written as a batch with a close cause (R549, R550): 0 midnight, 1 a decision, 2 their
number, 3 the first minute. -/
def Dev.lifeClose (d : Dev) (cause : Nat) : Dev :=
  let entries := d.lpe.lifePend.take 2048
  let rest := d.lpe.lifePend.drop 2048
  let standing := d.standingBlock
  let seq := d.nvm.lifeSeq + 1
  let hdr := leBytes 4 0xCA0511FE ++ [1] ++ leBytes 1 cause ++ zeros 2 ++ leBytes 8 seq ++ leBytes 8 d.lpe.lifeOpen ++ leBytes 8 d.ns
    ++ leBytes 4 entries.length ++ leBytes 4 standing.length ++ leBytes 4 (d.get (R.SEC_KEY_CERT_SEQ 2)) ++ zeros 4
    ++ padTo 32 (lastLifeDigest d.nvm.life) ++ zeros 16
  let body := hdr ++ entries.flatten ++ standing
  let digest := shake256 body
  let (sig, d) := match d.sign 2 digest with
    | some r => r
    | none => (zeros 9893, d.put R.SEC_STAT_JRN_UNSIGNED 1)
  let body := body ++ digest ++ sig
  let bytes := padTo (cdiv body.length 4096 * 4096) body
  let pos := d.nvm.lifePos
  let ring := ringMakeRoom pos bytes.length (64 * 2 ^ 20) d.nvm.life ++ [⟨pos, bytes⟩]
  let l := d.lpe
  let d := { d with nvm := { d.nvm with life := ring, lifePos := pos + bytes.length, lifeSeq := seq },
                    lpe := { l with lifePend := rest, lifeOpen := d.ns, lifeDecision := if rest.isEmpty then none else l.lifeDecision,
                                    lifeFirst := l.lifeFirst || d.firstMinute ≤ d.clockNs,
                                    lifeWritten := d.clockNs + lifeWriteNs bytes.length, health := [],
                                    healthPos := l.healthPos + 32 * l.health.length } }
  ((d.lendStatus.put R.LPE_LIFE_STAT_LAST_SEQ seq).bump C.LPE_LIFE_BATCHES).bump C.LPE_LIFE_ENTRIES entries.length

/-- A batch with 2,048 pending entries closes at once (R550). -/
def Dev.lifeFull (d : Dev) : Dev := if 2048 ≤ d.lpe.lifePend.length then d.lifeClose 2 else d

/-- When the pending batch closes, and with which cause (R550): midnight, 1 s after a decision, the first minute after the start-up. -/
def Dev.lifeDue (d : Dev) : List (Nat × Nat) :=
  let base (t : Nat) : Nat := ((t : Int) + d.sup.skewNs).toNat
  [(d.multipleNow 86400000000000, 0)]
    ++ (match d.lpe.lifeDecision with | some t => [(base (t + 1000000000), 1)] | none => [])
    ++ (if d.lpe.lifeFirst then [] else [(base d.firstMinute, 3)])

/-- LIFE_BATCH_CLOSE: whichever of R550 comes first, 2,048 entries at once; without entries no batch is written. -/
def Dev.lifeBatchClose (d : Dev) : Dev :=
  if d.lpe.lifePend.isEmpty then d
  else if 2048 ≤ d.lpe.lifePend.length then d.lifeClose 2
  else
    let due := d.lifeDue
    let t := due.foldl (fun n x => min n x.1) (d.multipleNow 86400000000000)
    match due.find? fun x => x.1 = t with
    | some x => (d.advance t).lifeClose x.2
    | none => d

/-- STANDING_COPY_WRITE_DONE: the copy is written with its digest; a decision made meanwhile is written next (R552). -/
def Dev.standingDone (d : Dev) : Dev :=
  if !d.lpe.copyBusy then d
  else
    let data := d.lpe.copyData
    let d := { d with nvm := { d.nvm with standing := data ++ shake256 data } }
    if d.lpe.copyQueued then { d with lpe := { d.lpe with copyQueued := false, copyData := d.standingBlock } }
    else { d with lpe := { d.lpe with copyBusy := false, copyData := [] } }

/-- Whether an entry kind is a daily one of Table 14.9 that holds a measurement; those that count events come from the day's counts. -/
def dailyKind (k : Nat) : Bool := [0x20, 0x21, 0x22, 0x23, 0x24, 0x27, 0x28, 0x2D].contains k

/-- The daily entry of a count of the day: violations, checksum failures, DRAM corrections of a bank (Table 14.9). -/
def Dev.dayEntry (d : Dev) (c : Nat × Nat) : Dev :=
  let (key, n) := c
  let inst := key % 2 ^ 32
  if 2 ^ 40 ≤ key then d.lifeEntry 0x25 (inst / 32) (leBytes 1 (inst % 32) ++ zeros 5 ++ leBytes 8 n) false
  else if key / 2 ^ 32 = 0x11 then d.lifeEntry 0x29 inst (zeros 6 ++ leBytes 8 n) false
  else d.lifeEntry 0x2E (key / 2 ^ 32) (zeros 2 ++ leBytes 4 inst ++ leBytes 8 n) false

/-- DAILY_LIFE_ENTRIES: the measurements and the counts of the day become pending entries. -/
def Dev.dailyEntries (d : Dev) (ms : List DailyMeasure) : Dev :=
  let d := d.each (ms.filter fun m => dailyKind m.kind.toNat) fun d m => (d.lifeEntry m.kind.toNat m.source.toNat m.body false).lifeFull
  let d := d.each d.lpe.dayCounts fun d c => (d.dayEntry c).lifeFull
  { d with lpe := { d.lpe with dayCounts := [] } }

/-- The weekly retention scan: a channel's least margin in µs. -/
def Dev.retentionEntries (d : Dev) (ms : List (Nat × Nat)) : Dev :=
  d.each ms fun d m => (d.lifeEntry 0x26 m.1 (zeros 2 ++ leBytes 4 m.2) false).lifeFull

/-! ### Export and pull (R542, R545 to R547) -/

/-- The fields of a memory ring: base, size, head, oldest. -/
def ringFields (stream : Nat) : Fld × Fld × Fld × Fld :=
  if stream = 0 then (R.LPE_RING_TRACE_BASE, R.LPE_RING_TRACE_SIZE_MIB, R.LPE_RING_TRACE_HEAD, R.LPE_RING_TRACE_OLDEST)
  else (R.LPE_RING_COUNTER_BASE, R.LPE_RING_COUNTER_SIZE_MIB, R.LPE_RING_COUNTER_HEAD, R.LPE_RING_COUNTER_OLDEST)

/-- Bytes of the trace or the counter ring from a stream position. -/
def Dev.streamRead (d : Dev) (stream pos n : Nat) : Dev × List Byte :=
  let (base, size, _, _) := ringFields stream
  d.ringRead (d.get base) (d.get size) pos n

/-- EXPORT_FRAME_SEND: up to 256 units of a ring that export has not yet sent, within the ceilings, after what the journal's export holds
back (R542, R545, R546, R585); without an image, none (R563). -/
def Dev.exportSend (d : Dev) (stream : Nat) : Dev :=
  let d := d.drain.journalExport
  let sp := d.get R.LPE_CFG_EXPORT_SUBPORT
  let (_, _, head, oldest) := ringFields stream
  let at_ := d.lpe.exportPos.getD stream 0
  if !d.on R.LPE_CFG_EXPORT_EN || d.on R.CFG_BOOT_NO_IMAGE then d
  else
    let skipped := d.get oldest - at_
    let d := if skipped = 0 then d else (d.bump C.LPE_EXPORT_SKIPPED skipped).put R.LPE_STAT_EXPORT_BEHIND 1
    let at_ := at_ + skipped
    let units := min 256 ((d.get head - at_) / 32)
    let seq := d.lpe.exportSeq.getD stream 0
    let move (d : Dev) (pos seq : Nat) : Dev :=
      { d with lpe := { d.lpe with exportPos := d.lpe.exportPos.set stream pos, exportSeq := d.lpe.exportSeq.set stream seq } }
    let frame := d.ownFrame (d.get R.LPE_EXPORT_DA_DA) ([0x04, 0x01] ++ beBytes 2 d.devId ++ beBytes 1 stream ++ beBytes 1 (units - 1)
      ++ beBytes 4 seq ++ beBytes 8 at_)
    let n := frame.length + 32 * units + 4
    if units = 0 || !d.up sp || d.frameLeft sp < n || !d.dramRoom (32 * units) then move d at_ seq
    else
      let (d, bs) := (d.dramUse (32 * units)).streamRead stream at_ (32 * units)
      let d := (d.frameUse sp n).sendOwn sp ⟨frame ++ bs, .loupeExport⟩
      move d (at_ + 32 * units) ((seq + 1) % 2 ^ 32)

/-- Where a pull's answer begins, and how many units it has: those wanted of the stream between two positions, up to a limit. -/
def pullRange (payload : List Byte) (oldest head limit : Nat) : Nat × Nat :=
  let pos := max oldest (beAt payload 8 8)
  (pos, min (min (beAt payload 2 2) limit) ((head - pos) / 32))

/-- Whether a pull's payload is well formed for the streams it may name (R547). -/
def pullOk (payload : List Byte) (streams : List Nat) : Bool :=
  payload.length = 16 && streams.contains (beAt payload 0 1) && decide (1 ≤ beAt payload 2 2 ∧ beAt payload 2 2 ≤ 256)
    && beAt payload 8 8 % 32 = 0

/-- The sub-port that carries the answer of the request in execution. -/
def Dev.answerPort (d : Dev) : Nat := match d.ctl.queue with | r :: _ => r.sp | [] => 0

/-- Units that the frame ceiling of R542 leaves to a pull's answer. -/
def Dev.frameUnits (d : Dev) : Nat := (d.frameLeft d.answerPort - 76) / 32

/-- Units that both ceilings of R542 leave to the answer of a pull that reads DRAM. -/
def Dev.pullRoom (d : Dev) : Nat :=
  let used := if d.lpe.dramWindow = d.ns / 1000 then d.lpe.dramUsed else 0
  min ((786000 - used) / 32) d.frameUnits

/-- A pull's answer: the position of its first unit, and the units; its frame counts towards the ceiling. -/
def Dev.pullAnswer (d : Dev) (pos : Nat) (bs : List Byte) : Dev × Option Answer :=
  (d.frameUse d.answerPort (bs.length + 76), some { status := St.ok, payload := beBytes 8 pos ++ bs })

/-- TRACE_PULL and COUNTER_PULL for the streams they may name: the health staging, the life record in flash, a ring in DRAM (R547). -/
def Dev.pull (d : Dev) (payload : List Byte) (streams : List Nat) : Dev × Option Answer :=
  if !pullOk payload streams then (d, some { status := St.malformed })
  else
    let d := d.drain
    let stream := beAt payload 0 1
    let l := d.lpe
    if stream = 2 then
      let (pos, n) := pullRange payload l.healthPos (l.healthPos + 32 * l.health.length) d.frameUnits
      d.pullAnswer pos (sub l.health.flatten (pos - l.healthPos) (32 * n))
    else if stream = 3 then
      let oldest := match d.nvm.life.head? with | some b => b.pos | none => d.nvm.lifePos
      let (pos, n) := pullRange payload oldest d.nvm.lifePos d.frameUnits
      d.pullAnswer pos (ringSlice d.nvm.life pos (pos + 32 * n))
    else
      let (_, _, head, oldest) := ringFields stream
      let (pos, n) := pullRange payload (d.get oldest) (d.get head) d.pullRoom
      let (d, bs) := (d.dramUse (32 * n)).streamRead stream pos (32 * n)
      d.pullAnswer pos bs

/-! ### The commands -/

/-- EPOCH (R522). -/
def execEpoch (s : State) := s.live Dev.epoch

/-- SAMPLE_CAPTURE (R524). -/
def execSampleCapture (s : State) := s.clocked (·.regionStopped 23) Dev.sampleCapture

/-- WATCH_FIRE (R528). -/
def execWatchFire (watch : Fin 64) (s : State) := s.clocked (·.regionStopped 23) fun d => d.watchFire watch.val

/-- WATCH_READ_END (R529). -/
def execWatchReadEnd (watch : Fin 64) (s : State) := s.clocked (·.regionStopped 23) fun d => d.watchReadEnd watch.val

/-- REGION_STOP (R519). -/
def execRegionStop (region : Fin 28) (gated : Bool) (s : State) := s.live fun d => d.regionStop region.val gated

/-- REGION_RESUMED (R519). -/
def execRegionResumed (region : Fin 28) (s : State) :=
  s.live fun d => if d.clockLost region.val then d else d.regionResumed region.val

/-- PPS_IN_EDGE (R515). -/
def execPpsInEdge (s : State) := s.live Dev.ppsInEdge

/-- HOLDOVER (R515). -/
def execHoldover (s : State) := s.live Dev.holdover

/-- HEALTH_ENTRY (R548). -/
def execHealthEntry (event : BitVec 8) (object : Word32) (s : State) := s.clocked (·.regionStopped 23) fun d => d.healthEntry event.toNat object.toNat

/-- LIFE_BATCH_CLOSE (R550). -/
def execLifeBatchClose (s : State) := s.clocked (·.regionStopped 21) Dev.lifeBatchClose

/-- STANDING_COPY_WRITE_DONE (R552). -/
def execStandingCopyWriteDone (s : State) := s.clocked Dev.nvmStopped Dev.standingDone

/-- EXPORT_FRAME_SEND (R545). -/
def execExportFrameSend (stream : Fin 2) (s : State) := s.clocked (·.regionStopped 23) fun d => d.exportSend stream.val

/-- TRACE_PULL (R547). -/
def execTracePull (payload : List Byte) (s : State) := s.clocked (·.regionStopped 21) fun d => d.request 0x40 0 payload fun d => d.pull payload [0, 2, 3]

/-- COUNTER_PULL (R547). -/
def execCounterPull (payload : List Byte) (s : State) := s.clocked (·.regionStopped 21) fun d => d.request 0x41 0 payload fun d => d.pull payload [1]

/-- STEP_MODE (R533). -/
def execStepMode (payload : List Byte) (s : State) := s.clocked (·.regionStopped 21) fun d => d.request 0x31 0 payload fun d => d.stepMode payload

/-- STEP (R535). -/
def execStepCommand (payload : List Byte) (s : State) := s.clocked (·.regionStopped 21) fun d => d.request 0x30 0 payload fun d => d.step payload

/-- STEP_DONE (R535). -/
def execStepDone (context : Fin 256) (ended blocked : Nat) (lastCmd : Option Word32) (done : Bool) (s : State) :=
  s.clocked (·.regionStopped 23) fun d => d.stepDone context.val ended blocked (lastCmd.map (·.toNat)) done

/-- Daily entries of the life record (Table 14.9). -/
def execDailyLifeEntries (measures : List DailyMeasure) (s : State) := s.clocked (·.regionStopped 21) fun d => d.dailyEntries measures

/-- The weekly retention scan (Table 14.9). -/
def execRetentionScan (margins : List (Fin 512 × Word32)) (s : State) :=
  s.clocked (·.regionStopped 21) fun d => d.retentionEntries (margins.map fun m => (m.1.val, m.2.toNat))

end Sys2Proof.Machine
end

