-- ==== Sys2Proof/Machine/Image.lean ====
section
/-! DEFINITION. The Malmas image in a slot (R556 to R560): its bytes, header, section table, trailer, and the verification of
stages (a) to (c). -/

namespace Sys2Proof.Machine

/-! ### Flash words as bytes -/

/-- `n` bytes from byte offset `o` of a flash region held as words; a word nothing has programmed reads 0 (log entry 17, DESIGN CHOICE). -/
def flashBytes (ws : Sparse Word) (o n : Nat) : List Byte :=
  let w0 := o / 8
  let words := (List.range (cdiv (o % 8 + n) 8)).map fun i => leBytes 8 ((ws.find (w0 + i)).getD 0).toNat
  sub words.flatten (o % 8) n

/-- A little-endian number in a flash region (R3). -/
def flashNat (ws : Sparse Word) (o n : Nat) : Nat := leNat (flashBytes ws o n)

/-- The words of a slot, 0 A or 1 B. -/
def Nvm.slot (v : Nvm) (s : Nat) : Sparse Word := if s = 0 then v.slotA else v.slotB

/-- A slot's words replaced. -/
def Nvm.setSlot (v : Nvm) (s : Nat) (ws : Sparse Word) : Nvm := if s = 0 then { v with slotA := ws } else { v with slotB := ws }

/-! ### The image (Tables 15.1 to 15.3) -/

/-- Bytes of the trailer (R556). -/
def trailerLen : Nat := 2852

/-- An entry of the section table. -/
structure SectionEntry where
  kind : Nat
  offset : Nat
  length : Nat
  digest : List Byte

/-- `IMAGE_LEN`. -/
def imageLen (ws : Sparse Word) : Nat := flashNat ws 8 8

/-- `SECTION_COUNT`. -/
def sectionCount (ws : Sparse Word) : Nat := flashNat ws 16 2

/-- Entry `i` of the section table. -/
def sectionEntry (ws : Sparse Word) (i : Nat) : SectionEntry :=
  let o := 64 + 64 * i
  ⟨flashNat ws o 2, flashNat ws (o + 8) 8, flashNat ws (o + 16) 8, flashBytes ws (o + 24) 32⟩

/-- The sections of an image. -/
def sections (ws : Sparse Word) : List SectionEntry := (List.range (sectionCount ws)).map (sectionEntry ws)

/-- The bytes of a section. -/
def SectionEntry.bytes (e : SectionEntry) (ws : Sparse Word) : List Byte := flashBytes ws e.offset e.length

/-- A load report entry (Table 15.6); a verification's failure has severity 2. -/
structure Report where
  code : Nat
  severity : Nat
  slot : Nat
  subject : Nat
  value : Nat
  value2 : Nat

/-- A fatal entry. -/
def Report.fatal (slot code subject value value2 : Nat) : Report := ⟨code, 2, slot, subject, value, value2⟩

/-- Stage (a): the header leaves a trailer to find (R560). -/
def headerFindsTrailer (ws : Sparse Word) : Bool :=
  flashNat ws 0 4 = 0xCA054D4C && flashNat ws 4 2 = 1
    && decide (imageLen ws ≤ 768 * 2 ^ 20 ∧ 64 + 64 * sectionCount ws + trailerLen ≤ imageLen ws)

/-- The image digest: SHAKE256 of every byte before the trailer (R556). -/
def imageDigest (ws : Sparse Word) : List Byte := shake256 (flashBytes ws 0 (imageLen ws - trailerLen))

/-- The trailer's digest and its signature under the vendor root hold (R556, R598). -/
def trailerVerifies (ws : Sparse Word) (rootKey : List Byte) : Bool :=
  let at_ := imageLen ws - trailerLen
  flashBytes ws at_ 32 = imageDigest ws && XmssSet.single.verifies rootKey (imageDigest ws) (flashBytes ws (at_ + 32) 2820)

/-- Stages (a) and (b) of R560: the fatal entry of the first that fails. -/
def verifyTrailer (ws : Sparse Word) (rootKey : List Byte) (slot : Nat) : Option Report :=
  if !headerFindsTrailer ws then some (.fatal slot 0x0002 0xFFFF 1 0)
  else if !trailerVerifies ws rootKey then some (.fatal slot 0x0002 0xFFFF 0 0)
  else if flashNat ws 6 2 != 0x0100 then some (.fatal slot 0x0003 0 (flashNat ws 6 2) 0x0100)
  else none

/-- Whether section `i` breaks the bounds of R556: a known kind, a start at a multiple of 8 within the body, no overlap with an
earlier section. -/
def sectionMisplaced (ws : Sparse Word) (es : List SectionEntry) (i : Nat) (e : SectionEntry) : Bool :=
  e.kind < 1 || 4 < e.kind || e.offset % 8 != 0 || e.offset < 64 + 64 * es.length
    || imageLen ws < e.offset + e.length + trailerLen
    || (es.take i).any fun f => e.offset < f.offset + f.length && f.offset < e.offset + e.length

/-- Stage (c) of R560, with the bounds of R556: section by section. -/
def verifySections (ws : Sparse Word) (slot : Nat) : Option Report :=
  let es := sections ws
  if es.isEmpty || 1024 < es.length then some (.fatal slot 0x0004 0 0 0)
  else
    ((List.range es.length).zip es).findSome? fun p =>
      if sectionMisplaced ws es p.1 p.2 then some (.fatal slot 0x0004 p.1 0 0)
      else if shake256 (p.2.bytes ws) != p.2.digest then some (.fatal slot 0x0002 p.1 0 0)
      else none

/-- Stages (a) to (c), as a slot verification makes them (Table 15.5). -/
def verifyImage (ws : Sparse Word) (rootKey : List Byte) (slot : Nat) : Option Report :=
  (verifyTrailer ws rootKey slot).or (verifySections ws slot)

/-- A failed verification counted where a digest or a signature failed (R614). -/
def Dev.countVerify (d : Dev) (r : Option Report) : Dev :=
  match r with | some r => if r.code = 2 && r.value = 0 then d.bump C.SEC_VERIFY_FAIL else d | none => d

end Sys2Proof.Machine
end

