-- ==== Sys2Proof/Machine/Control.lean ====
section
/-! DEFINITION. Control (chapter 15): the checks on a control request (R568 to R574), host reads and writes of registers with
the access behaviour of their fields (R4 to R9, R578, R579) and what each write brings, the slots (R564 to R566), the reset
(R580), the journal's summaries and pulls. -/

namespace Sys2Proof.Machine

/-! ### Which request a command executes -/

/-- An opcode executed whose operands the command names itself: the oldest request is its own when `mine` says so, and its
payload then counts; with an empty queue the command stands for a request whose frame the model does not see (log entry 5, DESIGN
CHOICE); while another request is the oldest, it is not this one's turn (R574). -/
def Dev.requestBy (d : Dev) (opcode : Nat) (mine : Req → Bool) (payload : List Byte)
    (run : Dev → List Byte → Dev × Option Answer) : Dev :=
  match d.ctl.queue with
  | [] =>
    match d.ifAccepted opcode payload fun d => run d payload with
    | (d, some a) => d.noteAnswer opcode a
    | (d, none) => d
  | r :: rest =>
    if d.isTurn opcode mine then
      match (d.setQueue ({ r with begun := true } :: rest)).ifAccepted opcode r.payload fun d => run d r.payload with
      | (d, some a) => (d.noteAnswer opcode a).finishHead a
      | (d, none) => d
    else d

/-! ### Reading a register (R8, R578) -/

/-- The digest of the identity public key (R592). -/
def identityDigest : List Byte := shake256 (publicKey 0 0)

/-- Word `w` of the endorsement window: the length, then the endorsement (Table 16.17). -/
def Dev.endorseWord (d : Dev) (w : Nat) : Nat :=
  if w = 0 then d.nvm.endorsement.length else leAt d.nvm.endorsement (8 * (w - 1)) 8

/-- Whether a control address holds the status word of a Facet, a Grating or a forest engine (Tables 6.17, 6.19, 9.15). -/
def unitStat (a : Nat) : Bool :=
  (within 0x500010000 0x50FFFFFFF a && within 0x10 0x1F (a % 0x1000000 / 0x1000) && a % 0x1000 < 0x400 && a % 0x100 = 0)
    || (within 0x600000000 0x600000FFF a && a % 0x100 = 0) || (within 0x700001000 0x700002FFF a && a % 0x100 = 0)

/-- Whether a read that finds a unit streaming finds it frozen in that cycle: a free value (R229, R354; log entry 64, DESIGN CHOICE). -/
def Dev.frozenWord (d : Dev) (w : Nat) : Nat := if bitsOf w 0 2 = 1 then setBits w 0 2 (1 + Config.pick d.draws % 2) else w

/-- A register word with the fields that show live state: fused and derived identity, the time base, the inline buffer's
occupancy, the selections, the counters of a context, recovered clocks, measured power. -/
def Dev.liveWord (d : Dev) (a : Nat) : Nat :=
  let w := d.word a
  if a = R.DEV_INFO_VENDOR.addr then setBits w 32 8 Config.stepping.toNat
  else if a = R.DEV_SERIAL_SERIAL.addr then Config.serial.toNat
  else if 0x20 ≤ a && a < 0x40 then (if d.nvm.idKey then leAt identityDigest (a - 0x20) 8 else 0)
  else if 0x10000 ≤ a && a < 0x12000 then d.endorseWord ((a - 0x10000) / 8)
  else if a = R.LPE_TIME_NOW_NOW.addr then d.ns
  else if a = R.PORT_INLINE_BUF_OCC_KIB.addr then setBits w 32 14 (cdiv d.inlineBytes 1024)
  else if a = R.LPE_STAT_SEL_COUNT.addr then setBits w 16 15 d.selections.length
  else if 0xA10000000 ≤ a && a < 0xA18000000 then d.ctrWord ((a - 0xA10000000) / 0x80000) ((a - 0xA10000000) % 0x80000 / 8)
  else if a = (R.CLK_STAT_LOCKED 7).addr then setBits w 0 1 (b2n ((List.range d.subPorts).any d.up))
  else if a = (R.CLK_STAT_LOCKED 9).addr then setBits w 0 1 (b2n (([0, 1, 2, 3] : List Nat).any d.linkUp))
  else if a = R.PWR_STAT_VIN_MV.addr then
    let m := Config.measured d.ns
    setBits (setBits (setBits w 0 16 d.sup.vinMv) 16 16 m.1.toNat) 32 16 m.2.toNat
  else if unitStat a then d.frozenWord w
  else w

/-- What a host read of a control address returns: none where no register stands (R578). Fields of access `WO` read 0. -/
def Dev.readWord (d : Dev) (a : Nat) : Option Nat :=
  if a % 8 != 0 || 0x10 < a / 2 ^ 32 then none
  else if RegMap.isCounter a then some (d.counterWord a)
  else match RegMap.lookup RegMap.regs a with
    | some (r, i) => some (d.liveWord a &&& r.mask i fun f => f.acc != .wo)
    | none => none

/-- A field of access `RC` takes the current level when it has been read (R8). -/
def Dev.restartFields (d : Dev) (a : Nat) : Dev :=
  if a = R.PORT_INLINE_BUF_PEAK_KIB.addr then d.put R.PORT_INLINE_BUF_PEAK_KIB (cdiv d.inlineBytes 1024)
  else if a = R.PRS_RECIRC_STAT_PEAK.addr then d.put R.PRS_RECIRC_STAT_PEAK (d.get R.PRS_RECIRC_STAT_OCC)
  else if a = R.SEQ_RING_STAT_PEAK.addr then d.put R.SEQ_RING_STAT_PEAK (d.get R.SEQ_RING_STAT_OCC)
  else if a = R.APR_TEMP_COMPUTE_PEAK_C.addr then
    (d.put R.APR_TEMP_COMPUTE_PEAK_C (d.get R.APR_TEMP_COMPUTE_MAX_C)).put R.APR_TEMP_DRAM_PEAK_C (d.get R.APR_TEMP_DRAM_MAX_C)
  else if unitStat a then d.draw.2
  else d

/-! ### Whether a write is taken (R9, R578 and the rules that give a field its range) -/

/-- The registers whose words no host write changes (R9, R170, R337, R366). -/
def protectedRegs : List Nat :=
  [RegMap.dCLS_ENTRY.base, RegMap.dLNS_RESCALE.base, RegMap.dGRT_RESCALE.base, RegMap.dFOR_FEATURE.base, RegMap.dFOR_NODE.base,
   RegMap.dFOR_TREE.base, RegMap.dFOR_LEAF.base, RegMap.dFOR_CATSET.base]

/-- The word that a write of `v` leaves where `cur` stands: `RW` fields take it, `W1C` fields are cleared where it has ones,
`W1S` fields set; all others, and reserved bits, stay (R5, R8). -/
def RegDesc.merge (r : RegDesc) (i cur v : Nat) : Nat :=
  let rw := r.mask i fun f => f.acc = .rw
  let clr := v &&& r.mask i fun f => f.acc = .w1c
  let set := v &&& r.mask i fun f => f.acc = .w1s
  let n := ((cur ^^^ (cur &&& rw)) ||| (v &&& rw)) ||| set
  n ^^^ (n &&& clr)

/-- A positive finite FP32 value. -/
def fpPositive (x : Nat) : Bool := decide (0 < x ∧ x < 0x7F800000)

/-- Whether the fields of word `i` of a register, as a write would leave them, are in their ranges. -/
def Dev.inRange (d : Dev) (base a i n : Nat) : Bool :=
  let b (lo w : Nat) : Nat := bitsOf n lo w
  if base = RegMap.dTKP_TICK_CFG.base then within 500 16000 (b 0 14)
  else if base = RegMap.dTKP_MODE.base then b 2 2 != 3
  else if base = RegMap.dPORT_INLINE_BUF.base then b 16 14 < b 0 14 && b 0 14 ≤ 8192 && b 16 14 ≤ 8192
  else if base = RegMap.dPORT_SUBPORT_CFG.base then b 0 2 != 3 && within 10 100 (b 6 7)
  else if base = RegMap.dPRS_CFG.base then within 1 24 (b 0 5) && b 7 2 != 0
  else if base = RegMap.dFLW_CFG.base then within 100 60000 (b 0 16) && within 64 65535 (b 16 16)
  else if base = RegMap.dFLW_POLICY.base && i = 0 then
    b 0 3 < 6 && !(within 2 5 (b 0 3) && b 4 16 = 0) && !(b 0 3 = 5 && b 20 16 = 0)
  else if base = RegMap.dLNS_CFG.base then within 8 20 (b 0 5)
  else if base = RegMap.dSEQ_LEARN_CFG.base then within 6 13 (b 4 4) && b 8 8 != 0 && b 16 16 != 0 && fpPositive (b 32 32)
  else if base = RegMap.dTKP_PLAN_CFG.base then within 16 512 (b 0 10) && 16 ≤ b 16 8 && 16 ≤ b 32 16
  else if base = RegMap.dTKP_ESC.base && i < 2 then !fpLt (b 32 32) (b 0 32)
  else if base = RegMap.dAPR_CFG.base then within 150 560 (b 0 10) && within 60 100 (b 16 7) && within 60 90 (b 24 7)
  else if base = RegMap.dSYN_CTX_CFG.base then within 1 4096 (b 0 13)
  else if base = RegMap.dQUE_DESC.base && i = 1 then b 16 15 ≤ d.queueCap ((a - base) / 0x20)
  else if base = RegMap.dMEM_CFG.base then within 10 10000 (b 16 14)
  else if base = RegMap.dMEM_HALL_CFG.base then b 40 8 != 0
  else if base = RegMap.dLPE_CFG.base then within 1 1000000 (b 0 20) && within 1 15 (b 26 4) && b 30 5 ≤ 16
  else if base = RegMap.dLPE_SEL.base then b 48 1 = 0 || RegMap.isCounter (b 0 48) || (cmdCtrEngine (b 0 48)).isSome
  else if base = RegMap.dLPE_WATCH.base && i = 1 then b 32 16 != 0
  else if base = RegMap.dCFG_CTL_CFG.base then b 0 16 != 0 && b 16 16 != 0
  else true

/-- The slot that is not running (R564). -/
def Dev.otherSlot (d : Dev) : Nat := 1 - d.get R.CFG_BOOT_RUN_SLOT

/-- The status of a write at byte offset `o` of the slot window (R564). -/
def Dev.slotWinStatus (d : Dev) (o : Nat) : Nat :=
  if d.get R.CFG_BOOT_RUN_SLOT = 3 then St.access
  else if d.get (R.CFG_SLOT_STAT_STATE d.otherSlot) != 2 then St.busy
  else if ((d.nvm.slot d.otherSlot).find (o / 8)).isSome then St.access
  else St.ok

/-- The status of a write of `CFG_SLOT_CTL` (R565). -/
def Dev.slotCtlStatus (d : Dev) (v : Nat) : Nat :=
  if d.ctl.slotOp.isSome then St.busy
  else if bitsOf v 2 1 = d.get R.CFG_BOOT_RUN_SLOT then St.access
  else if bitsOf v 0 2 = 0 || bitsOf v 0 2 = 3 then St.malformed
  else St.ok

/-- The status of a write that its register's own rule refuses: a restart (R453), a counter (R454), the time base (R516), the
slots (R564, R565), the endorsement, which one `WRITE_BLOCK` takes (R591). -/
def Dev.ruleStatus (d : Dev) (base a v : Nat) : Nat :=
  if base = RegMap.dSYN_CTX_CTL.base then (d.restartWrite ((a - base) / 8) v).2
  else if base = RegMap.dSYN_CTR.base then (d.writeCtr ((a - base) / 0x80000) ((a - base) % 0x80000 / 8) v).2
  else if base = RegMap.dLPE_TIME_SET.base then (d.timeSet v).2
  else if base = RegMap.dCFG_SLOT_CTL.base then d.slotCtlStatus v
  else if base = RegMap.dCFG_SLOT_WIN.base then d.slotWinStatus (a - base)
  else if base = RegMap.dDEV_ENDORSE.base then St.access
  else St.ok

/-- The status that a host write of `v` at `a` takes, with no effect. -/
def Dev.writeStatus (d : Dev) (a v : Nat) : Nat :=
  let fixed := a / 2 ^ 32 = 0xF || a / 2 ^ 32 = 0
  if a % 8 != 0 || 0x10 < a / 2 ^ 32 then St.badAddress
  else if RegMap.isCounter a then (if fixed then St.access else St.ok)
  else match RegMap.lookup RegMap.regs a with
    | none => St.badAddress
    | some (r, i) =>
      if r.base = RegMap.dDEV_ENDORSE.base then St.access
      else if fixed || protectedRegs.contains r.base then St.access
      else if !d.inRange r.base a i (r.merge i (d.word a) v) then St.malformed
      else d.ruleStatus r.base a v

/-! ### What a write does -/

/-- The land of `PPS_OUT` and `TICK_OUT` after a write of `CLK_OUT_CFG` (R642, R643, Table 17.10). -/
def Dev.assignLand (d : Dev) : Dev :=
  let pps := d.on R.CLK_OUT_CFG_PPS_OUT_EN
  let tick := d.on R.CLK_OUT_CFG_TICK_OUT_EN
  let wait := pps && tick && d.get R.CLK_OUT_STAT_LAND_FN = 2
  let fn := if wait then 2 else if pps then 1 else if tick then 2 else 0
  let denied := if pps && tick && !wait then 0x0B else 0
  let d : Dev := { d with sup := { d.sup with ppsTakes := wait } }
  (d.put R.CLK_OUT_STAT_LAND_FN fn).put R.CLK_OUT_STAT_TICK_OUT_STATUS denied

/-- A slot operation starts (Table 15.5). -/
def Dev.slotBegin (d : Dev) (op slot : Nat) : Dev :=
  ({ d with ctl := { d.ctl with slotOp := some ⟨op, slot⟩ } }).put (R.CFG_SLOT_STAT_STATE slot) (if op = 1 then 1 else 3)

/-- A word written into the slot that is not running. -/
def Dev.slotWrite (d : Dev) (o v : Nat) : Dev :=
  let s := d.otherSlot
  let ws := Sparse.put (d.nvm.slot s) (o / 8) (BitVec.ofNat 64 v)
  ({ d with nvm := d.nvm.setSlot s ws }).put (R.CFG_SLOT_STAT_WRITTEN_KIB s) (ws.length / 128)

/-- What follows a write of word `i` of the register at `base`, beyond the fields it stores. -/
def Dev.written (d : Dev) (base a v : Nat) : Dev :=
  if base = RegMap.dPORT_CFG.base then d.portCfgWritten
  else if base = RegMap.dPORT_SUBPORT_CFG.base then d.subportCfgWritten ((a - base) / 8)
  else if base = RegMap.dPORT_INLINE_BUF.base then d.flowControl
  else if base = RegMap.dTKP_TICK_CFG.base then d.put R.TKP_TICK_STAT_PERIOD_PENDING 1
  else if base = RegMap.dAPR_CFG.base then { d with plan := { d.plan with budgetPending := true } }
  else if base = RegMap.dSYN_CTX_CTL.base then (d.restartWrite ((a - base) / 8) v).1
  else if base = RegMap.dSYN_CTR.base then (d.writeCtr ((a - base) / 0x80000) ((a - base) % 0x80000 / 8) v).1
  else if base = RegMap.dQUE_STAT.base then (if bitsOf v 18 1 = 1 then d.clearNotice ((a - base) / 8) else d)
  else if base = RegMap.dQUE_CTL.base then (if v % 2 = 1 then d.flush ((a - base) / 8) else d)
  else if base = RegMap.dLPE_CFG.base then d.lendStatus
  else if base = RegMap.dLPE_TIME_SET.base then (d.timeSet v).1
  else if base = RegMap.dLPE_TIME_CFG.base then (if d.get R.LPE_TIME_CFG_SOURCE = 0 then d.put R.LPE_TIME_STAT_ADJ_PPB 0 else d)
  else if base = RegMap.dCLK_OUT_CFG.base then d.assignLand
  else if base = RegMap.dCFG_BOOT.base then { d with nvm := { d.nvm with prefer := d.get R.CFG_BOOT_PREFER } }
  else if base = RegMap.dCFG_CTL_CFG.base then { d with ctl := { d.ctl with tokens := min d.ctl.tokens (d.get R.CFG_CTL_CFG_BURST) } }
  else if base = RegMap.dCFG_SLOT_CTL.base then d.slotBegin (bitsOf v 0 2) (bitsOf v 2 1)
  else if base = RegMap.dCFG_SLOT_WIN.base then d.slotWrite (a - base) v
  else d

/-- A host write that has been found in order. -/
def Dev.writeDo (d : Dev) (a v : Nat) : Dev :=
  match RegMap.lookup RegMap.regs a with
  | none => d
  | some (r, i) =>
    let n := r.merge i (d.word a) v
    let d := if n = d.word a then d else d.setWord a n
    d.written r.base a v

/-- A host write of one register: the device and the status. -/
def Dev.hostWrite (d : Dev) (a v : Nat) : Dev × Nat :=
  let st := d.writeStatus a v
  (if st = St.ok then d.writeDo a v else d, st)

/-! ### The register opcodes (R578, R579) -/

/-- READ. -/
def Dev.readOp (d : Dev) (a : Nat) (payload : List Byte) : Dev × Option Answer :=
  if !payload.isEmpty then (d, some { status := St.malformed })
  else match d.readWord a with
    | none => (d, some { status := St.badAddress })
    | some v => (d.restartFields a, some { status := St.ok, payload := beBytes 8 v })

/-- WRITE; its journal entry holds the value before and after, least significant byte first (R3, Table 15.14). -/
def Dev.writeOp (d : Dev) (a : Nat) (payload : List Byte) : Dev × Option Answer :=
  if payload.length != 8 then (d, some { status := St.malformed })
  else
    let before := (d.readWord a).getD 0
    let (d, st) := d.hostWrite a (beNat payload)
    (d, some { status := st, detail := some (leBytes 8 before ++ leBytes 8 ((d.readWord a).getD 0)) })

/-- The addresses of a block of `n` words. -/
def blockAddrs (a n : Nat) : List Nat := (List.range n).map fun i => a + 8 * i

/-- Whether an address is no register's, or leaves the unit that the block began in. -/
def Dev.blockBad (d : Dev) (a x : Nat) : Bool := x / 2 ^ 32 != a / 2 ^ 32 || (d.readWord x).isNone

/-- Registers read in order. -/
def Dev.readAll (d : Dev) : List Nat → Dev × List Byte
  | [] => (d, [])
  | x :: xs =>
    let v := (d.readWord x).getD 0
    let (d, bs) := (d.restartFields x).readAll xs
    (d, beBytes 8 v ++ bs)

/-- READ_BLOCK. -/
def Dev.readBlockOp (d : Dev) (a : Nat) (payload : List Byte) : Dev × Option Answer :=
  let n := beAt payload 0 2
  if payload.length != 8 || (payload.drop 2).any (· != 0) || n = 0 || 1140 < n then (d, some { status := St.malformed })
  else if (blockAddrs a n).any (d.blockBad a) then (d, some { status := St.badAddress })
  else
    let (d, bs) := d.readAll (blockAddrs a n)
    (d, some { status := St.ok, payload := bs })

/-- The values of a block's payload. -/
def blockValues (payload : List Byte) : List Nat := (List.range (payload.length / 8)).map fun i => beAt payload (8 * i) 8

/-- The first word of a block refused for what it would write: its index and status. -/
def Dev.firstDenied (d : Dev) (a : Nat) : Nat → List Nat → Option (Nat × Nat)
  | _, [] => none
  | i, v :: vs => if d.writeStatus (a + 8 * i) v = St.ok then d.firstDenied a (i + 1) vs else some (i, d.writeStatus (a + 8 * i) v)

/-- The refusal of a block's write, if any (R579): `BAD_ADDRESS` when any address is no register's or leaves the unit, with the index of
the first such word; else the status and index of the first refused word. -/
def Dev.firstRefused (d : Dev) (a : Nat) (vs : List Nat) : Option (Nat × Nat) :=
  match (List.range vs.length).find? fun i => d.blockBad a (a + 8 * i) with
  | some i => some (i, St.badAddress)
  | none => d.firstDenied a 0 vs

/-- The words of a block written in order. -/
def Dev.writeAll (d : Dev) (a : Nat) (vs : List Nat) : Dev :=
  ((blockAddrs a vs.length).zip vs).foldl (fun d x => d.writeDo x.1 x.2) d

/-- The one-time write of the endorsement (R591): in MANUFACTURE, from offset 0, while none is held; its first word is the length,
and the block holds the endorsement whole. -/
def Dev.endorse (d : Dev) (vs : List Nat) : Dev × Nat :=
  let len := vs.headD 0
  if d.get R.LCS_STAT_STORED != 0 || !d.nvm.endorsement.isEmpty then (d, St.access)
  else if len = 0 || 8184 < len || 8 * (vs.length - 1) < len then (d, St.malformed)
  else ({ d with nvm := { d.nvm with endorsement := ((vs.drop 1).map (leBytes 8)).flatten.take len } }, St.ok)

/-- Whether a block is a write of the endorsement window from its start. -/
def isEndorse (a : Nat) (vs : List Nat) : Bool := a = RegMap.dDEV_ENDORSE.base && decide (vs.length ≤ 1024)

/-- WRITE_BLOCK: every word is checked before any is written; a refusal names the first refused word. -/
def Dev.writeBlockOp (d : Dev) (a : Nat) (payload : List Byte) : Dev × Option Answer :=
  let vs := blockValues payload
  if payload.length % 8 != 0 || vs.isEmpty || 1140 < vs.length then (d, some { status := St.malformed })
  else if isEndorse a vs then
    let (d, st) := d.endorse vs
    (d, some { status := st, payload := if st = St.ok then [] else beBytes 2 0 })
  else match d.firstRefused a vs with
    | some (i, st) => (d, some { status := st, payload := beBytes 2 i })
    | none => (d.writeAll a vs, some { status := St.ok })

/-- A WRITE request of a register and value executed. -/
def Dev.writeRequest (d : Dev) (a v : Nat) : Dev :=
  let p := beBytes 8 v
  d.requestBy 0x02 (fun r => r.addr = a && (r.payload = p || r.payload.length != 8)) p fun d p => d.writeOp a p

/-- A WRITE_BLOCK request executed. -/
def Dev.blockRequest (d : Dev) (a : Nat) (values : List Word) : Dev :=
  let p := (values.map fun v => beBytes 8 v.toNat).flatten
  let odd (r : Req) : Bool := r.payload.length % 8 != 0 || r.payload.isEmpty || decide (9120 < r.payload.length)
  d.requestBy 0x04 (fun r => r.addr = a && (r.payload = p || odd r)) p fun d p => d.writeBlockOp a p

/-! ### Checks on a request (R568 to R574, Table 15.9) -/

/-- A received control frame as a request. -/
def controlRequest (f : RxFrame) : Req :=
  let b := f.bytes
  let o := (etherOf b).2
  let h := o + 4
  { sp := f.sp, tag := if o = 16 then sub b 12 4 else [], sa := beAt b 6 6, vid := if o = 16 then some (beAt b 14 2 % 4096) else none,
    opcode := beAt b (h + 3) 1, seq := beAt b (h + 4) 4, addr := beAt b (h + 8) 6, len := beAt b (h + 14) 2,
    context := beAt b (h + 16) 1, header := padTo 32 (sub b h 32), payload := sub b (h + 32) (beAt b (h + 14) 2), begun := false }

/-- Check 1 (R572): the source is admitted. -/
def Dev.admitted (d : Dev) (r : Req) : Bool :=
  let on := (List.range 16).filter fun i => d.on (R.CFG_SRC_MAC_EN i)
  (on.isEmpty || on.any fun i => d.get (R.CFG_SRC_MAC_MAC i) = r.sa)
    && (!d.on R.CFG_SRC_VLAN_EN || r.vid = some (d.get R.CFG_SRC_VLAN_VID))

/-- Check 4: the frame is well formed, its reserved byte at offset 15 zero. -/
def requestFormed (f : RxFrame) (r : Req) : Bool :=
  let h := r.header
  r.payload.length = r.len && beAt h 0 2 = 0xCA05 && beAt h 2 1 = 1 && beAt h 17 1 = 0 && (h.drop 22).all (· = 0)
    && byteAt f.bytes ((etherOf f.bytes).2 + 3) = 0
    && beAt h 18 4 = (crc32c (overlay h 18 (zeros 4) ++ r.payload)).toNat

/-- Check 5 (R571): `SEQ` is newer for its source. -/
def seqNewer (last seq : Nat) : Bool := within 1 (2 ^ 31 - 1) ((seq + 2 ^ 32 - last) % 2 ^ 32)

/-- A refusal counted towards its source's `SUMMARY` entry, for at most 64 sources in a second (R581). -/
def Dev.noteRefused (d : Dev) (mac : Nat) (rate : Bool) : Dev :=
  let more (x : Refused) : Refused := if rate then { x with rate := x.rate + 1 } else { x with access := x.access + 1 }
  let c := d.ctl
  if c.refused.any fun x => x.mac = mac then
    { d with ctl := { c with refused := c.refused.map fun x => if x.mac = mac then more x else x } }
  else if c.refused.length < 64 then { d with ctl := { c with refused := c.refused ++ [more ⟨mac, 0, 0⟩] } }
  else { d with ctl := { c with surplus := more c.surplus } }

/-- A request refused at check 1 or 2: answered and counted, not journaled on its own. -/
def Dev.refuseEarly (d : Dev) (r : Req) (rate : Bool) : Dev :=
  let status := if rate then St.rateLimited else St.access
  let d := d.sendOwn r.sp ⟨d.response r status [], .plain⟩
  let d := (d.bump C.CFG_CTL_REFUSED).bump (if rate then C.CFG_CTL_RATE_LIMITED else C.CFG_CTL_SRC_REFUSED)
  ((d.health 7 r.sp).noteRefused r.sa rate).countRefused r.opcode r.payload

/-- The response of check 5: the source's last accepted `SEQ` and that request's final status. -/
def Dev.refuseStale (d : Dev) (r : Req) (e : SeqEntry) : Dev :=
  let d := ((d.bump (C.PORT_CTL_STALE r.sp)).health 6 r.sp).countRefused r.opcode r.payload
  d.reply r { status := St.stale, payload := beBytes 4 e.last ++ beBytes 1 (e.status.getD 0xFF) ++ zeros 3 }

/-- The sequence table with an entry most recently used; a new source evicts the least recently used of 256. -/
def Dev.useSeq (d : Dev) (e : SeqEntry) : Dev :=
  let others := d.ctl.seqs.filter fun x => x.mac != e.mac
  let full := 256 ≤ others.length
  let d := if full then d.bump C.CFG_SEQ_EVICTED else d
  { d with ctl := { d.ctl with seqs := (if full then others.drop 1 else others) ++ [e] } }

/-- Checks 6 to 8, and a place in the queue. -/
def Dev.acceptRequest (d : Dev) (r : Req) : Dev :=
  if !opcodeKnown r.opcode then d.respond r { status := St.badOpcode }
  else if !opcodeAccepted r.opcode (d.get R.LCS_STAT_STATE) then (d.countRefused r.opcode r.payload).respond r { status := St.lifecycle }
  else if 256 ≤ d.ctl.queue.length then ((d.bump C.CFG_CTL_QUEUE_FULL).countRefused r.opcode r.payload).respond r { status := St.busy }
  else d.setQueue (d.ctl.queue ++ [r])

/-- Checks 3 to 5 (R570, R571). -/
def Dev.checkRequest (d : Dev) (f : RxFrame) (r : Req) : Dev :=
  if 9120 < r.len then (d.countRefused r.opcode r.payload).reply r { status := St.tooLarge }
  else if !requestFormed f r then (d.countRefused r.opcode r.payload).reply r { status := St.malformed }
  else match d.ctl.seqs.find? fun e => e.mac = r.sa with
    | some e =>
      if seqNewer e.last r.seq then (d.useSeq ⟨r.sa, r.seq, none⟩).acceptRequest r else (d.useSeq e).refuseStale r e
    | none => (d.useSeq ⟨r.sa, r.seq, none⟩).acceptRequest r

/-- The control frame taken next: the oldest, and of those of one cycle the lowest sub-port's (Table 15.16). -/
def nextControl (f : RxFrame) (rest : List RxFrame) : RxFrame :=
  rest.foldl (fun best g => if g.rxTime = f.rxTime && g.sp < best.sp then g else best) f

/-- CONTROL_REQUEST_RECEIVE: the next control frame is checked in order and refused or queued (Table 15.9). -/
def Dev.controlReceive (d : Dev) : Dev :=
  match d.port.ctlRx with
  | [] => d
  | oldest :: others =>
    let f := nextControl oldest others
    let r := controlRequest f
    let d := ({ d with port := { d.port with ctlRx := (oldest :: others).erase f } }).bump C.CFG_CTL_REQUESTS
    if !d.admitted r then d.refuseEarly r false
    else if d.ctl.tokens = 0 then d.refuseEarly r true
    else ({ d with ctl := { d.ctl with tokens := d.ctl.tokens - 1 } }).checkRequest f r

/-- TOKEN_REFILL: at a whole multiple of 1,000,000 ns the bucket gains `RATE_PER_MS` tokens (R573). -/
def Dev.tokenRefill (d : Dev) : Dev :=
  let d := d.advance (d.multipleNow 1000000)
  { d with ctl := { d.ctl with tokens := min (d.get R.CFG_CTL_CFG_BURST) (d.ctl.tokens + d.get R.CFG_CTL_CFG_RATE_PER_MS) } }

/-- One `SUMMARY` entry. -/
def Dev.summaryEntry (d : Dev) (x : Refused) : Dev :=
  let what := if x.rate = 0 then 3 else if x.access = 0 then 0x0A else 0xFF
  (d.journal { kind := 2, seq := x.access + x.rate, mac := x.mac, detail := leBytes 1 what }).bump C.JRN_SUMMARY

/-- SUMMARY: the refusals of the second that ends (R581). -/
def Dev.summary (d : Dev) : Dev :=
  let d := d.advance (d.multipleNow 1000000000)
  let xs := d.ctl.refused ++ (if d.ctl.surplus.access + d.ctl.surplus.rate = 0 then [] else [{ d.ctl.surplus with mac := 0 }])
  d.each xs Dev.summaryEntry |> fun d => { d with ctl := { d.ctl with refused := [], surplus := ⟨0, 0, 0⟩ } }

/-! ### Slots and the journal -/

/-- SLOT_OP_DONE: the slot operation ends, its state and its journal entry (R565, Tables 15.5 and 15.14). -/
def Dev.slotOpDone (d : Dev) : Dev :=
  match d.ctl.slotOp with
  | none => d
  | some o =>
    let d : Dev := { d with ctl := { d.ctl with slotOp := none } }
    let r := if o.op = 1 then none else verifyImage (d.nvm.slot o.slot) d.sec.rootKey o.slot
    let code := (r.map fun r => r.code).getD 0
    let state := if o.op = 1 then 2 else if r.isNone then 4 else 5
    let d := if o.op = 1 then ({ d with nvm := d.nvm.setSlot o.slot [] }).put (R.CFG_SLOT_STAT_WRITTEN_KIB o.slot) 0 else d.countVerify r
    let d := (d.put (R.CFG_SLOT_STAT_STATE o.slot) state).put (R.CFG_SLOT_STAT_FAIL_CODE o.slot) code
    d.journal { kind := 6, detail := leBytes 1 o.slot ++ leBytes 1 o.op ++ leBytes 1 state ++ [0] ++ leBytes 2 code }

/-- JOURNAL_PULL (R585): stream 4 in the form of R547. -/
def Dev.journalPull (d : Dev) (payload : List Byte) : Dev × Option Answer :=
  if !pullOk payload [4] then (d, some { status := St.malformed })
  else
    let (pos, n) := pullRange payload (d.get R.JRN_STAT_OLDEST) (d.get R.JRN_STAT_HEAD) d.frameUnits
    d.pullAnswer pos (ringSlice d.nvm.journal pos (pos + 32 * n))

/-! ### Reset (R580, R586, R610) -/

/-- A standing-copy write under way, and the one queued behind it, complete (R552, R618). -/
def Dev.finishCopy (d : Dev) : Dev :=
  if d.lpe.copyBusy then
    let data := if d.lpe.copyQueued then d.standingBlock else d.lpe.copyData
    { d with nvm := { d.nvm with standing := data ++ shake256 data } }
  else d

/-- The device after a reset with a cause of Table 17.3: everything volatile is wiped, the flash and the lines stay; the rails are kept or
brought up anew, the PLLs lock before the start-up runs (Table 17.4), and the input's row still shows. -/
def Dev.afterReset (d : Dev) (cause : Nat) : Dev :=
  let d := d.finishCopy
  let up := cause = 2 || cause = 3
  let e : Dev := { Dev.reset with
    draws := d.draws, nvm := d.nvm, life := d.life, port := { Port.reset with sent := d.port.sent },
    sup := { d.sup with phase := if d.sup.resetLow then .held else .starting, cause := cause, startMs := 0, ppsIn := none,
                        barrierLow := true, ppsTakes := false, skewNs := 0, meters := [], unlocked := [],
                        heldTiers := if up then d.sup.heldTiers else [] } }
  (e.put R.PWR_STAT_VIN_HIGH (b2n (d.sup.vinRow = 1))).put R.PWR_STAT_VIN_LOW (b2n (d.sup.vinRow = 3))

/-- A background load that a reset ends: its request is journaled with status `BUSY` and no response (Table 15.16). -/
def Dev.dropBackground (d : Dev) : Dev :=
  match d.ctl.background with
  | none => d
  | some r =>
    d.journal { kind := 1, status := St.busy, opcode := r.opcode, context := r.context, seq := r.seq, sp := r.sp, vid := r.vid,
                mac := r.sa, len := r.len, addr := r.addr, digest := shake256 (r.header ++ r.payload) }

/-- What an accepted `RESET` or `TRANSITION` does before the device resets: the journal batch closes and is written, the exact
key indices are recorded (R580, R595, R607). -/
def Dev.closeForReset (d : Dev) : Dev := (d.dropBackground.closeBatch 0).recordIndices

/-- The answer of RESET. -/
def resetAnswer (payload : List Byte) : Answer :=
  if payload.length != 16 || 2 < beAt payload 0 1 || (payload.drop 1).any (· != 0) then { status := St.malformed } else { status := St.ok }

/-- RESET (R580). -/
def Dev.resetOp (d : Dev) (payload : List Byte) : Dev :=
  let turn := d.headIs 0x7F 0 payload || d.ctl.queue.isEmpty
  let d := d.request 0x7F 0 payload fun d => (d, some (resetAnswer payload))
  if turn && (resetAnswer payload).status = St.ok then
    let d := d.closeForReset
    ({ d with sup := { d.sup with nextSlot := beAt payload 0 1 } }).afterReset 3
  else d

/-! ### The commands -/

/-- CONTROL_REQUEST_RECEIVE (R570). -/
def execControlRequestReceive (s : State) := s.clocked (·.regionStopped 21) Dev.controlReceive

/-- READ (R578). -/
def execRead (addr : Nat) (s : State) :=
  s.clocked (·.regionStopped 21) fun d => d.requestBy 0x01 (fun r => r.addr = addr) [] fun d p => d.readOp addr p

/-- WRITE (R578). -/
def execWrite (addr : Nat) (value : Word) (s : State) := s.clocked (·.regionStopped 21) fun d => d.writeRequest addr value.toNat

/-- READ_BLOCK (R579). -/
def execReadBlock (addr n : Nat) (s : State) :=
  let p := beBytes 2 n ++ zeros 6
  let odd (r : Req) : Bool := r.payload.length != 8 || (r.payload.drop 2).any (· != 0)
  s.clocked (·.regionStopped 21) fun d => d.requestBy 0x03 (fun r => r.addr = addr && (r.payload = p || odd r)) p fun d p => d.readBlockOp addr p

/-- WRITE_BLOCK (R579). -/
def execWriteBlock (addr : Nat) (values : List Word) (s : State) := s.clocked (·.regionStopped 21) fun d => d.blockRequest addr values

/-- REGISTER_WRITE (R9): a host write of any register. -/
def execRegisterWrite (addr : Nat) (value : Word) (s : State) := s.clocked (·.regionStopped 21) fun d => d.writeRequest addr value.toNat

/-- JOURNAL_PULL (R585). -/
def execJournalPull (payload : List Byte) (s : State) :=
  s.clocked (·.regionStopped 21) fun d => d.request 0x50 0 payload fun d => d.journalPull payload

/-- RESET (R580). -/
def execReset (payload : List Byte) (s : State) := s.clocked (·.regionStopped 21) fun d => d.resetOp payload

/-- The control address of a byte offset of the slot window; an offset beyond it names no register. -/
def slotWinAddr (offset : Nat) : Nat := RegMap.dCFG_SLOT_WIN.base + min offset (768 * 2 ^ 20)

/-- SLOT_WIN_WRITE (R564). -/
def execSlotWinWrite (offset : Nat) (value : Word) (s : State) := s.clocked (·.regionStopped 21) fun d => d.writeRequest (slotWinAddr offset) value.toNat

/-- SLOT_ERASE (R565): `OP` 1. -/
def execSlotErase (slot : Fin 2) (s : State) := s.clocked (·.regionStopped 21) fun d => d.writeRequest RegMap.dCFG_SLOT_CTL.base (1 + 4 * slot.val)

/-- SLOT_VERIFY (R565): `OP` 2. -/
def execSlotVerify (slot : Fin 2) (s : State) := s.clocked (·.regionStopped 21) fun d => d.writeRequest RegMap.dCFG_SLOT_CTL.base (2 + 4 * slot.val)

/-- SLOT_OP_DONE (R565). -/
def execSlotOpDone (s : State) := s.clocked Dev.nvmStopped Dev.slotOpDone

/-- PREFER_WRITE (R566). -/
def execPreferWrite (value : Word) (s : State) := s.clocked (·.regionStopped 21) fun d => d.writeRequest RegMap.dCFG_BOOT.base value.toNat

/-- TOKEN_REFILL (R573). -/
def execTokenRefill (s : State) := s.clocked (·.regionStopped 21) Dev.tokenRefill

/-- SUMMARY (R581). -/
def execSummary (s : State) := s.clocked (·.regionStopped 21) Dev.summary

/-- JOURNAL_BATCH_CLOSE (R582). -/
def execJournalBatchClose (s : State) := s.clocked (·.regionStopped 21) Dev.journalBatchClose

/-- TX_FC_DISABLE (R68): a write of `PORT_CFG`. -/
def execTxFcDisable (value : Word) (s : State) := s.clocked (·.regionStopped 21) fun d => d.writeRequest RegMap.dPORT_CFG.base value.toNat

/-- SUBPORT_MODE_WRITE (R78): a write of `PORT_SUBPORT_CFG[n]`. -/
def execSubportModeWrite (n : Fin 8) (value : Word) (s : State) :=
  s.clocked (·.regionStopped 21) fun d => d.writeRequest (RegMap.dPORT_SUBPORT_CFG.base + 8 * n.val) value.toNat

/-- TICK_PERIOD_WRITE (R28, R29): a write of `TKP_TICK_CFG`. -/
def execTickPeriodWrite (value : Word) (s : State) := s.clocked (·.regionStopped 21) fun d => d.writeRequest RegMap.dTKP_TICK_CFG.base value.toNat

/-- BUDGET_WRITE (R419): a write of `APR_CFG`. -/
def execBudgetWrite (value : Word) (s : State) := s.clocked (·.regionStopped 21) fun d => d.writeRequest RegMap.dAPR_CFG.base value.toNat

/-- RESTART (R453): a write of `SYN_CTX_CTL[c]`. -/
def execRestart (context : Fin 256) (value : Word) (s : State) :=
  s.clocked (·.regionStopped 21) fun d => d.writeRequest (RegMap.dSYN_CTX_CTL.base + 8 * context.val) value.toNat

/-- COUNTER_VALUE_WRITE (R454): a write of `SYN_CTR[c][v]`. -/
def execCounterValueWrite (context : Fin 256) (v : BitVec 16) (value : Word) (s : State) :=
  s.clocked (·.regionStopped 21) fun d => d.writeRequest (RegMap.dSYN_CTR.base + 0x80000 * context.val + 8 * v.toNat) value.toNat

/-- TIME_SET (R516): a write of `LPE_TIME_SET`. -/
def execTimeSet (value : Word) (s : State) := s.clocked (·.regionStopped 21) fun d => d.writeRequest RegMap.dLPE_TIME_SET.base value.toNat

/-- CLK_OUT_WRITE (R643): a write of `CLK_OUT_CFG`. -/
def execClkOutWrite (value : Word) (s : State) := s.clocked (·.regionStopped 21) fun d => d.writeRequest RegMap.dCLK_OUT_CFG.base value.toNat

/-- ENDORSE_WRITE (R591): a `WRITE_BLOCK` to `DEV_ENDORSE` from offset 0. -/
def execEndorseWrite (values : List Word) (s : State) := s.clocked (·.regionStopped 21) fun d => d.blockRequest RegMap.dDEV_ENDORSE.base values

end Sys2Proof.Machine
end

