-- ==== Sys2Proof/Machine/Security.lean ====
section
/-! DEFINITION. Identity, attestation and life cycle (chapter 16): certificates and keys (R591, R592), the `ATTEST` operations
(R601, R602) and the `LIFECYCLE` operations (R604 to R609). -/

namespace Sys2Proof.Machine

/-! ### Keys and certificates (R590 to R592) -/

/-- The body of a certificate (Table 16.2). -/
def certBody (kind seq time : Nat) : List Byte :=
  leBytes 4 0xCA05CE27 ++ [1] ++ leBytes 1 kind ++ zeros 2 ++ leBytes 4 seq ++ zeros 4 ++ leBytes 8 time
    ++ publicKey kind seq ++ zeros 4 ++ identityDigest

/-- Attestation (1) or journal (2) key `k` generated anew, with the next `CERT_SEQ` and its certificate under the identity key; the
newest 64 certificates are kept (R592). -/
def Dev.newKey (d : Dev) (k : Nat) : Dev :=
  let seq := d.nvm.certNext
  let body := certBody k seq d.ns
  match d.sign 0 (shake256 body) with
  | none => d
  | some (sig, d) =>
    let d := d.modKey k fun _ => ⟨0, none, seq, 0⟩
    let certs := (⟨seq, k, body ++ sig⟩ :: d.nvm.certs).take 64
    let d : Dev := { d with nvm := { d.nvm with certs := certs, certNext := seq + 1 } }
    ((d.put (R.SEC_KEY_NEXT k) 0).put (R.SEC_KEY_RESERVED_TO k) 0).put (R.SEC_KEY_CERT_SEQ k) seq

/-- The certificate with a `CERT_SEQ`. -/
def Dev.certOf (d : Dev) (seq : Nat) : Option Cert := d.nvm.certs.find? fun c => c.seq = seq

/-! ### Attestation (R601, R602) -/

/-- The quote of Table 16.5 from the present state. -/
def Dev.quoteBytes (d : Dev) (nonce : List Byte) : List Byte :=
  let flags := b2n (d.on R.CFG_BOOT_FALLBACK) + 2 * b2n (d.on R.CFG_BOOT_NO_IMAGE) + 4 * b2n (d.on R.LPE_LIFE_STAT_RESTORED)
    + 8 * b2n (d.on R.SEC_STAT_JRN_UNSIGNED)
  let words (f : Nat → Fld) : List Byte := ([0, 1, 2, 3].map fun w => leBytes 8 (d.get (f w))).flatten
  let rule (s : Nat) : List Byte :=
    leBytes 1 (d.get (R.CLS_VER_VER s)) ++ leBytes 1 (d.get (R.CLS_VER_STATE s)) ++ zeros 6 ++ leBytes 8 (d.get (R.CLS_VER_COMMIT_SEQ s))
  let model (m : Nat) : List Byte :=
    leBytes 2 (d.get (R.SEQ_MODEL_GEN_CURRENT m)) ++ leBytes 2 (d.get (R.SEQ_MODEL_GEN_RETIRING m))
      ++ leBytes 1 (d.get (R.SEQ_MODEL_LINEAGE m)) ++ leBytes 1 (d.get (R.SEQ_MODEL_GSTATE m)) ++ zeros 2
  let head := leBytes 4 0xCA05A770 ++ [1] ++ leBytes 1 (d.get R.LCS_STAT_STATE) ++ leBytes 1 (d.get R.LCS_STAT_STORED) ++ leBytes 1 flags
    ++ leBytes 2 d.devId ++ leBytes 1 (d.get R.CFG_BOOT_RUN_SLOT) ++ [0] ++ leBytes 4 (d.get (R.SEC_KEY_CERT_SEQ 1))
    ++ leBytes 8 (d.nvm.quotes + 1) ++ leBytes 8 d.ns ++ leBytes 4 d.tick32 ++ leBytes 4 (d.get R.LCS_STAT_JTAG_WRITES)
  let ids := padTo 32 nonce ++ (if d.nvm.idKey then identityDigest else zeros 32) ++ words R.SEC_BOOT_DIGEST_DIGEST
    ++ words R.CFG_IMAGE_DIGEST_DIGEST ++ leBytes 8 (d.get R.CFG_IMAGE_INFO_BUILD_ID)
  let jrn := leBytes 8 (d.get R.JRN_STAT_LAST_BATCH) ++ leBytes 8 (d.get R.JRN_STAT_NEXT_JSEQ) ++ padTo 32 d.nvm.prevHdr
    ++ leBytes 8 d.nvm.lifeSeq
  head ++ ids ++ jrn ++ ((List.range 4).map rule).flatten ++ ((List.range 15).map model).flatten ++ zeros 32

/-- Whether the bytes of an `ATTEST` payload that its operation does not name are 0 (Table 16.4). -/
def attestFormed (p : List Byte) : Bool :=
  let zero (a n : Nat) : Bool := (sub p a n).all (· = 0)
  p.length = 48 && match beAt p 0 1 with
    | 1 => zero 1 15
    | 2 => zero 1 3 && zero 16 32
    | 3 => zero 1 1 && zero 4 44
    | _ => false

/-- `QUOTE`: signs a quote with the attestation key; the 4 newest signatures are kept. -/
def Dev.quoteOp (d : Dev) (p : List Byte) : Dev × Answer :=
  let q := d.quoteBytes (sub p 16 32)
  match d.sign 1 (shake256 q) with
  | none => (d, { status := St.denied })
  | some (sig, d) =>
    let n := d.nvm.quotes + 1
    let d : Dev := { d with nvm := { d.nvm with quotes := n }, sec := { d.sec with quotes := (⟨n, sig⟩ :: d.sec.quotes).take 4 } }
    (d.bump C.SEC_QUOTES, { status := St.ok, payload := q ++ sig.take 8192 })

/-- `FETCH`: later bytes of a kept signature. -/
def Dev.fetchOp (d : Dev) (p : List Byte) : Answer :=
  let o := beAt p 4 4
  match d.sec.quotes.find? fun q => q.seq = beAt p 8 8 with
  | some q => if 9892 < o then { status := St.badAddress } else { status := St.ok, payload := sub q.signature o 8192 }
  | none => { status := St.badAddress }

/-- `CERT`: the identity key with the endorsement, or a certificate. -/
def Dev.certOp (d : Dev) (p : List Byte) : Answer :=
  let item := beAt p 2 2
  let held (c : Option Cert) : Answer := match c with
    | some c => { status := St.ok, payload := c.bytes }
    | none => { status := St.badAddress }
  if item = 0 then
    if d.nvm.idKey then { status := St.ok, payload := publicKey 0 0 ++ beBytes 4 d.nvm.endorsement.length ++ d.nvm.endorsement }
    else { status := St.badAddress }
  else if item ≤ 2 then held (d.nvm.certs.find? fun c => c.kind = item)
  else if 0x100 ≤ item then held (d.certOf (item - 0x100))
  else { status := St.badAddress }

/-- ATTEST: the first status that applies (R601). -/
def Dev.attest (d : Dev) (p : List Byte) : Dev × Option Answer :=
  if !attestFormed p then (d, some { status := St.malformed })
  else if d.get R.LCS_STAT_STORED = 0 then (d, some { status := St.denied })
  else if beAt p 0 1 = 1 then
    let (d, a) := d.quoteOp p
    (d, some a)
  else if beAt p 0 1 = 2 then (d, some (d.fetchOp p))
  else (d, some (d.certOp p))

/-- An `ATTEST` request executed. -/
def Dev.attestRequest (d : Dev) (p : List Byte) : Dev :=
  d.requestBy 0x60 (fun r => (r.payload = p || !attestFormed r.payload)) p fun d p => d.attest p

/-! ### Life cycle (R604 to R609) -/

/-- The `AUTH` values that Table 16.7 accepts for a transition; none where the transition does not exist. -/
def transitionAuth (from_ to_ : Nat) : Option (List Nat) :=
  if from_ = 0 && to_ = 1 then some [2]
  else if (from_ = 1 && to_ = 2) || (from_ = 2 && to_ = 3) || (from_ = 3 && to_ = 2) then some [1]
  else if from_ = 3 && to_ = 4 then some [1, 2]
  else if from_ = 4 && to_ = 5 then some [2]
  else none

/-- The 50 bytes that a token signs (R605). -/
def tokenBytes (challenge : List Byte) (stored to_ : Nat) : List Byte :=
  [0x4E, 0x51, 0x31, 0x36, 0x2D, 0x4C, 0x43, 0x53] ++ beBytes 8 Config.serial.toNat ++ challenge ++ leBytes 1 stored ++ leBytes 1 to_

/-- Whether a token verifies against the live challenge under the key that `AUTH` names. -/
def Dev.tokenOk (d : Dev) (auth to_ : Nat) (token : List Byte) : Bool :=
  match d.sec.challenge with
  | none => false
  | some (c, _) =>
    let key := if auth = 1 then d.sec.ownerKey.getD [] else d.sec.rootKey
    XmssSet.single.verifies key (shake256 (tokenBytes c d.life.stored to_)) token

/-- The live challenge ends (R606). -/
def Dev.dropChallenge (d : Dev) : Dev :=
  ({ d with sec := { d.sec with challenge := none } }).put R.LCS_STAT_CHALLENGE_LIVE 0

/-- Whether a slot's image is good under R565. -/
def Dev.goodSlot (d : Dev) : Bool :=
  [0, 1].any fun s => d.get (R.CFG_SLOT_STAT_STATE s) = 4 || d.get (R.CFG_SLOT_STAT_STATE s) = 6

/-- Whether the identity key can sign `n` certificates more (R596). -/
def Dev.certsLeft (d : Dev) (n : Nat) : Bool := decide (d.get (R.SEC_KEY_NEXT 0) + n ≤ keyLimit 0)

/-- Whether a `LIFECYCLE` payload is well formed (Table 16.9, order 1). -/
def lifecycleFormed (p : List Byte) : Bool :=
  match beAt p 0 1 with
  | 1 => p.length = 16 && (p.drop 1).all (· = 0)
  | 2 => p.length = 2836 && within 1 2 (beAt p 2 1) && (sub p 3 13).all (· = 0)
  | 3 => p.length = 2836 && within 1 3 (beAt p 1 1) && within 1 2 (beAt p 2 1) && (sub p 3 13).all (· = 0)
  | _ => false

/-- The status of a well-formed `TRANSITION` (Table 16.9, orders 2 to 5). -/
def Dev.transitionStatus (d : Dev) (to_ auth : Nat) (token : List Byte) : Nat :=
  match transitionAuth d.life.stored to_ with
  | none => St.lifecycle
  | some auths =>
    if !auths.contains auth || (auth = 1 && (d.sec.ownerKey.isNone || !d.sec.imageLoaded)) then St.access
    else if !d.tokenOk auth to_ token then St.signature
    else if (to_ = 1 && d.nvm.endorsement.isEmpty) || (to_ = 2 && !d.goodSlot) then St.denied
    else St.ok

/-- The status of a well-formed `REKEY`. -/
def Dev.rekeyStatus (d : Dev) (keys auth : Nat) (token : List Byte) : Nat :=
  if d.get R.LCS_STAT_STATE != 3 then St.lifecycle
  else if auth = 1 && (d.sec.ownerKey.isNone || !d.sec.imageLoaded) then St.access
  else if !d.tokenOk auth (0x80 + keys) token then St.signature
  else if !d.certsLeft (popCount 2 keys) then St.denied
  else St.ok

/-- What a refusal counts (R614). -/
def Dev.countLifecycle (d : Dev) (live : Bool) (st : Nat) : Dev :=
  let d := if st = St.ok then d else d.bump C.SEC_LCS_REFUSED
  if st = St.signature && live then d.bump C.SEC_VERIFY_FAIL else d

/-- CHALLENGE (R605). -/
def Dev.challengeOp (d : Dev) : Dev × Answer :=
  let c := padTo 32 (Config.challenge d.draws)
  let d : Dev := { d with draws := d.draws + 1, sec := { d.sec with challenge := some (c, d.clockNs) } }
  (d.put R.LCS_STAT_CHALLENGE_LIVE 1, { status := St.ok, payload := c })

/-- TRANSITION, up to its answer: it and REKEY consume the challenge, whatever the outcome (R606). -/
def Dev.transitionOp (d : Dev) (p : List Byte) : Dev × Answer :=
  let to_ := beAt p 1 1
  let auth := beAt p 2 1
  let st := if lifecycleFormed p then d.transitionStatus to_ auth (p.drop 16) else St.malformed
  let live := d.sec.challenge.isSome
  let seq := if st = St.ok then d.life.seq + 1 else 0
  (d.dropChallenge.countLifecycle live st,
    { status := st, detail := some (lifecycleDetail d.life.stored to_ auth seq), kind := 5 })

/-- REKEY (R592, R605). -/
def Dev.rekeyOp (d : Dev) (p : List Byte) : Dev × Answer :=
  let keys := beAt p 1 1
  let auth := beAt p 2 1
  let st := if lifecycleFormed p then d.rekeyStatus keys auth (p.drop 16) else St.malformed
  let live := d.sec.challenge.isSome
  let a : Answer := { status := st, detail := some (lifecycleDetail d.life.stored (0x80 + keys) auth 0), kind := 5 }
  let d := d.dropChallenge.countLifecycle live st
  if st = St.ok then (d.each ([1, 2].filter fun k => bitsOf keys (k - 1) 1 = 1) Dev.newKey, a) else (d, a)

/-- LIFECYCLE by its operation. -/
def Dev.lifecycleOp (d : Dev) (p : List Byte) : Dev × Option Answer :=
  match beAt p 0 1 with
  | 2 => let (d, a) := d.transitionOp p; (d, some a)
  | 3 => let (d, a) := d.rekeyOp p; (d, some a)
  | _ =>
    if lifecycleFormed p then let (d, a) := d.challengeOp; (d, some a)
    else (d.bump C.SEC_LCS_REFUSED, some { status := St.malformed })

/-- The `LIFECYCLE` requests that a command with this payload stands for. -/
def isLifecycle (p : List Byte) (r : Req) : Bool := r.payload = p || !lifecycleFormed r.payload

/-- A `LIFECYCLE` request executed. -/
def Dev.lifecycleRequest (d : Dev) (p : List Byte) : Dev :=
  d.requestBy 0x70 (isLifecycle p) p fun d p => d.lifecycleOp p

/-- Whether a `LIFECYCLE` request is executed and answered `OK`. -/
def Dev.lifecycleAccepted (d : Dev) (p : List Byte) : Bool :=
  d.isTurn 0x70 (isLifecycle p) && (d.lifecycleRequest p).ctl.last.1 = St.ok

/-- CHALLENGE and REKEY: an accepted request closes the open journal batch, its own entry included (R582). -/
def Dev.lifecycleCloses (d : Dev) (p : List Byte) : Dev :=
  if d.lifecycleAccepted p then (d.lifecycleRequest p).closeBatch 0 else d.lifecycleRequest p

/-- The source address of the oldest request. -/
def Dev.requester (d : Dev) : Nat := match d.ctl.queue with | r :: _ => r.sa | [] => 0

/-- Whether a `TRANSITION` with this payload is in order (Table 16.9). -/
def Dev.transitionOk (d : Dev) (p : List Byte) : Bool :=
  lifecycleFormed p && d.transitionStatus (beAt p 1 1) (beAt p 2 1) (p.drop 16) = St.ok

/-- What an accepted transition does after its answer (R607): the journal closes, the indices are recorded, and the device resets.
Entry into RETURNED also clears the boot-region settings (Table 16.10). -/
def Dev.enterState (d : Dev) (to_ : Nat) : Dev :=
  let d := d.closeForReset
  let nvm := if to_ = 4 then { d.nvm with settings := [], prefer := 0 } else d.nvm
  ({ d with nvm := nvm, sup := { d.sup with nextSlot := 0 } }).afterReset 3

/-- TRANSITION: answered; an accepted one then resets the device. -/
def Dev.transition (d : Dev) (p : List Byte) : Dev :=
  let after := d.lifecycleRequest p
  if d.transitionOk p && d.lifecycleAccepted p then after.enterState (beAt p 1 1) else after

/-- The life-cycle records after a transition: the record of Table 16.13, the new stored state and the pending erasures (Table
16.7). `batch` is the journal batch that the transition closed. -/
def Life.enter (l : Life) (to_ auth time mac batch : Nat) : Life :=
  { l with stored := to_, erase := if to_ = 4 then 7 else l.erase ||| 1,
           log := (⟨l.seq + 1, l.stored, to_, auth, time, mac, batch⟩ :: l.log).take 64, seq := l.seq + 1 }

/-- The life-cycle records after TRANSITION: `d'` is the device after its answer and its reset. -/
def Dev.lifeAtTransition (p : List Byte) (d d' : Dev) : Life :=
  if d.transitionOk p && d.lifecycleAccepted p then
    d.life.enter (beAt p 1 1) (beAt p 2 1) d.ns d.requester d'.nvm.lastBatch
  else d.life

/-- CHALLENGE_LAPSE: 60 s after its issue (R606). -/
def Dev.challengeLapse (d : Dev) : Dev :=
  match d.sec.challenge with
  | none => d
  | some (_, t) => (d.advanceClock (t + 60000000000)).dropChallenge

/-! ### The commands -/

/-- QUOTE (R602). -/
def execQuote (nonce : List Byte) (s : State) :=
  s.clocked Dev.secStopped fun d => d.attestRequest ([1] ++ zeros 15 ++ padTo 32 nonce)

/-- FETCH (R601). -/
def execFetch (offset : Nat) (quoteSeq : Word) (s : State) :=
  s.clocked Dev.secStopped fun d => d.attestRequest ([2, 0, 0, 0] ++ beBytes 4 (min offset (2 ^ 32 - 1)) ++ beBytes 8 quoteSeq.toNat ++ zeros 32)

/-- CERT (R601). -/
def execCert (item : BitVec 16) (s : State) := s.clocked Dev.secStopped fun d => d.attestRequest ([3, 0] ++ beBytes 2 item.toNat ++ zeros 44)

/-- CHALLENGE (R605). -/
def execChallenge (s : State) := s.clocked Dev.secStopped fun d => d.lifecycleCloses ([1] ++ zeros 15)

/-- The payload of a `TRANSITION` or `REKEY` (Table 16.8). -/
def lifecyclePayload (op : Byte) (arg auth : Byte) (token : List Byte) : List Byte := [op, arg, auth] ++ zeros 13 ++ token

/-- TRANSITION (R607). -/
def execTransition (target auth : Byte) (token : List Byte) (s : State) :=
  s.clockedLife Dev.secStopped (fun d => d.transition (lifecyclePayload 2 target auth token)) (Dev.lifeAtTransition (lifecyclePayload 2 target auth token))

/-- REKEY (R605). -/
def execRekey (keys auth : Byte) (token : List Byte) (s : State) :=
  s.clocked Dev.secStopped fun d => d.lifecycleCloses (lifecyclePayload 3 keys auth token)

/-- CHALLENGE_LAPSE (R606). -/
def execChallengeLapse (s : State) := s.clocked Dev.secStopped Dev.challengeLapse

end Sys2Proof.Machine
end

