-- ==== Sys2Proof/Machine/LoadCheck.lean ====
section
/-! DEFINITION. The load checks of stage (g) of R560: the parse graph (Table 3.3), the registers of flows, rules, page tables
and learning, the forest models (Table 9.10), and the space of the general regions (R485). -/

namespace Sys2Proof.Machine

/-! ### The parse graph (R109) -/

/-- Whether a next-node value names a loaded node or END (R108). -/
def Dev.nextOk (d : Dev) (v : Nat) : Bool := v = 0x100 || decide (v < d.get R.PRS_GRAPH_INFO_NODE_COUNT)

/-- Rows 4 and 5 of Table 3.3 for one extraction: it leaves the header, it leaves the container area. -/
def Dev.extractRow (d : Dev) (k e : Nat) : Option Nat :=
  let len := bitsOf e 7 4 + 1
  if bitsOf e 0 1 = 0 then none
  else if d.get (R.PRS_NODE_MIN_LEN k) < bitsOf e 1 6 + len then some 4
  else if 104 < bitsOf e 11 7 + d.get (R.PRS_NODE_REP_MAX k) * d.get (R.PRS_NODE_REP_STRIDE k) + len then some 5
  else none

/-- The first row of Table 3.3, but the last, that node `k` breaks. -/
def Dev.nodeRow (d : Dev) (k : Nat) : Option Nat :=
  let minLen := d.get (R.PRS_NODE_MIN_LEN k)
  let selW := d.get (R.PRS_NODE_SEL_W k)
  let base := d.get (R.PRS_NODE_TRANS_BASE k)
  let count := d.get (R.PRS_NODE_TRANS_COUNT k)
  let rows := (d.extracts k).filterMap (d.extractRow k)
  if minLen < 1 then some 1
  else if minLen ≤ d.get (R.PRS_NODE_HLEN_OFF k)
      || (d.on (R.PRS_NODE_PLEN_EN k) && decide (minLen < d.get (R.PRS_NODE_PLEN_OFF k) + 2))
      || (d.get (R.PRS_NODE_FRAG_MODE k) = 2 && decide (minLen < d.get (R.PRS_NODE_FRAG_OFF k) + 2)) then some 2
  else if minLen < d.get (R.PRS_NODE_SEL_OFF k) + selW || selW = 3 then some 3
  else if rows.contains 4 then some 4
  else if rows.contains 5 then some 5
  else if 16 < count || 4096 < base + count then some 6
  else if d.get (R.PRS_NODE_FRAG_MODE k) = 3 || !d.nextOk (d.get (R.PRS_NODE_DEFAULT_NEXT k))
      || (range base count).any (fun i => !d.nextOk (d.get (R.PRS_TRANS_NEXT i))) then some 7
  else none

/-- The first failure of the parse graph: node or node value, row, sub-port. -/
def Dev.graphFault (d : Dev) : Option (Nat × Nat × Nat) :=
  let nodes := List.range (d.get R.PRS_GRAPH_INFO_NODE_COUNT)
  match nodes.findSome? fun k => (d.nodeRow k).map fun row => (k, row, 0) with
  | some x => some x
  | none =>
    (List.range 8).findSome? fun n =>
      let v := d.get (R.PRS_ENTRY_NODE n)
      if v < d.get R.PRS_GRAPH_INFO_NODE_COUNT then none else some (v, 8, n)

/-! ### Registers (R152, R177, R196, R198, R433, Table 10.9) -/

/-- The key profiles whose address length is out of range. -/
def Dev.keyProfileFault (d : Dev) : Option Nat :=
  ((List.range 8).find? fun i => d.on (R.FLW_KEY_PROFILE_ADDR_EN i) && !within 1 16 (d.get (R.FLW_KEY_PROFILE_ADDR_LEN i))).map
    fun i => (R.FLW_KEY_PROFILE_ADDR_EN i).addr

/-- The feature entries that hold a refused operation, width or direction. -/
def Dev.featureSetFault (d : Dev) : Option Nat :=
  ((List.range 64).find? fun x =>
    let (i, n) := (x / 8, x % 8)
    d.get (R.FLW_FEATURE_SET_OP i n) = 7 || d.get (R.FLW_FEATURE_SET_WIDTH i n) = 3 || d.get (R.FLW_FEATURE_SET_DIR i n) = 3).map
    fun x => (R.FLW_FEATURE_SET_OP (x / 8) (x % 8)).addr

/-- The entity tables: a size out of range, sizes above 16,777,216 in all, a policy with an absent table (R198). -/
def Dev.entityFault (d : Dev) : Option Nat :=
  let log (t : Nat) : Nat := d.get (R.FLW_ENT_TABLE_LOG2_SIZE t)
  let total := (List.range 8).foldl (fun n t => n + if log t = 0 then 0 else 2 ^ log t) 0
  match (List.range 8).find? fun t => log t != 0 && !within 16 24 (log t) with
  | some t => some (R.FLW_ENT_TABLE_LOG2_SIZE t).addr
  | none =>
    if 2 ^ 24 < total then some (R.FLW_ENT_TABLE_LOG2_SIZE 0).addr
    else
      ((List.range 16).find? fun p =>
        (d.on (R.FLW_POLICY_ENT0_EN p) && log (d.get (R.FLW_POLICY_ENT0_TABLE p)) = 0)
          || (d.on (R.FLW_POLICY_ENT1_EN p) && log (d.get (R.FLW_POLICY_ENT1_TABLE p)) = 0)).map
        fun p => (R.FLW_POLICY_ENT0_EN p).addr

/-- The local address of the first `STATIC` entity of a bucket for which the image gives more of them than its four ways, the bucket being
that of the entity's key (R199, R201). -/
def Dev.staticFault (d : Dev) : Option Nat :=
  (List.range 8).findSome? fun t =>
    let base := d.get (R.FLW_ENT_TABLE_BASE t)
    let at_ (j : Nat) : Nat := base + 64 * j
    let fixed := (d.listedEntries base (4 * d.ageSize (some t)) 64 16).filter fun j => leAt (d.memRead (at_ j) 64) 16 1 % 4 = 3
    let bucket (j : Nat) : Nat := crcNat (d.memRead (at_ j) 16) % d.ageSize (some t)
    (fixed.find? fun j => 4 < (fixed.filter fun k => bucket k = bucket j).length).map at_

/-- Whether a position has a value bit set under a mask bit of 0, which no stored entry has (R138). -/
def Dev.looseBits (d : Dev) (p : Nat) : Bool :=
  let mask := d.wideWord (posAddr p + 40) 5
  (d.wideWord (posAddr p) 5 &&& mask) != d.wideWord (posAddr p) 5

/-- The first entry or default of slot 0 that makes the image a bad image: an action word that R152 refuses, or an entry that
R138 rules out (DEDUCED, log entry 34). -/
def Dev.actionFault (d : Dev) : Option Nat :=
  match (d.positions.filter fun p => bitsOf (d.posSlots p) 0 1 = 1).find? fun p =>
      !d.actionOk (d.word (posAddr p + 80)) || d.looseBits p with
  | some p => some (posAddr p + (if d.looseBits p then 0 else 80))
  | none =>
    ((List.range 16).find? fun k => !d.actionOk (d.get (R.CLS_DEFAULT_ACTION_WORD 0 k))).map
      fun k => (R.CLS_DEFAULT_ACTION_WORD 0 k).addr

/-- The page table entries that are valid: control address, context, page. -/
def Dev.pageMap (d : Dev) : List (Nat × Nat × Nat) :=
  let lo := (R.SYN_MAP_PAGE 0 0).addr
  d.regs.filterMap fun w =>
    if lo ≤ w.1 && w.1 < lo + 256 * 0x800 && w.2.toNat.testBit 10 then
      some (w.1, (w.1 - lo) / 0x800, bitsOf w.2.toNat 0 10)
    else none

/-- A page mapped into two contexts, or more than 1,024 pages (R433). -/
def Dev.pageFault (d : Dev) : Option Nat :=
  let ps := d.pageMap
  match ps.find? fun p => ps.any fun q => q.2.2 = p.2.2 && q.2.1 != p.2.1 with
  | some p => some p.1
  | none => if 1024 < ps.length then (ps[1024]?).map fun p => p.1 else none

/-- A second network joined to the board line, or one joined without Board fabric (R444). -/
def Dev.boardFault (d : Dev) : Option Nat :=
  let joined := (List.range 16).filter fun b => d.on (R.SYN_BAR_BOARD b)
  match joined with
  | [] => none
  | b :: rest => if !d.on R.TKP_MODE_FABRIC_BOARD then some (R.SYN_BAR_BOARD b).addr else (rest.head?).map fun c => (R.SYN_BAR_BOARD c).addr

/-- A target kind that is refused (Table 10.9). -/
def Dev.targetFault (d : Dev) : Option Nat :=
  ((List.range 15).find? fun m => 2 ≤ d.get (R.SEQ_LEARN_CFG_TARGET_KIND m)).map fun m => (R.SEQ_LEARN_CFG_TARGET_KIND m).addr

/-- A route that is neither one hop, to the peer of its link, nor marked as two hops: it goes through more (R495; log entry 75, DEDUCED). -/
def Dev.routeFault (d : Dev) : Option Nat :=
  if (List.range 8).any fun x =>
      d.on (R.MIR_ROUTE_VALID x) && !d.on (R.MIR_ROUTE_VIA x) && d.get (R.MIR_CFG_PEER_ID (d.get (R.MIR_ROUTE_LINK x))) % 8 != x
  then some RegMap.dMIR_ROUTE.base else none

/-- A trace ring, where the image gives one, of a size outside 16 to 1,024 MiB (R539; log entry 72, DESIGN CHOICE). -/
def Dev.ringFault (d : Dev) : Option Nat :=
  let mib := d.get R.LPE_RING_TRACE_SIZE_MIB
  if mib = 0 || within 16 1024 mib then none else some R.LPE_RING_TRACE_SIZE_MIB.addr

/-- The control address of the first register check that fails. -/
def Dev.registerFault (d : Dev) : Option Nat :=
  (((((((d.actionFault.or d.keyProfileFault).or d.featureSetFault).or d.entityFault).or d.targetFault).or d.pageFault).or d.boardFault).or
    d.routeFault).or d.ringFault

/-! ### The general space (R485) -/

/-- The spill regions of the queues: entries, then two tag bits an entry (R455). -/
def Dev.spillExtents (d : Dev) : List (Nat × Nat) :=
  (List.range 4096).filterMap fun q =>
    let k := d.get (R.QUE_DESC_SPILL_64K q)
    if k = 0 then none else some (d.get (R.QUE_DESC_SPILL_BASE q), k * (65536 + 256))

/-- The DRAM bound to the placed stage programs (Table 1.3). -/
def Dev.boundExtents (d : Dev) : List (Nat × Nat) :=
  d.plan.placed.flatMap fun p => (p.bindings.filter fun b => b.kind = 2).map fun b => (b.base, b.size)

/-- An extent put among others in rising order of its address. -/
def insertExtent (x : Nat × Nat) : List (Nat × Nat) → List (Nat × Nat)
  | [] => [x]
  | y :: ys => if x.1 ≤ y.1 then x :: y :: ys else y :: insertExtent x ys

/-- The bytes at or above `low` that extents in rising order cover, each counted once. -/
def covered : Nat → List (Nat × Nat) → Nat
  | _, [] => 0
  | low, (a, n) :: xs => (a + n - max a low) + covered (max low (a + n)) xs

/-- The bytes of general space that the image's own extents cover: they may share bytes. -/
def generalCover (xs : List (Nat × Nat)) : Nat := covered 0 ((xs.filter fun x => x.1 < 0xDC0000000).foldr insertExtent [])

/-- Bytes that the general regions of an image need: slot sets, state and new-state blocks, output blocks, learning ring, staging region, step
areas, trace and counter rings (Table 15.7), and what the image places itself: spill regions, bound memory, `loads` (R485). -/
def Dev.generalNeed (d : Dev) (loads : List (Nat × Nat)) (outBlocks stepAreas : Nat) : Nat :=
  2 * (4 * 2 ^ 20) + 4 * 2 ^ 19 + 256 * outBlocks + 64 * 2 ^ 20 + 2 ^ 31 + 8192 * 576 * stepAreas
    + d.get R.LPE_RING_TRACE_SIZE_MIB * 2 ^ 20 + d.get R.LPE_RING_COUNTER_SIZE_MIB * 2 ^ 20
    + generalCover (d.spillExtents ++ d.boundExtents ++ loads)

end Sys2Proof.Machine
end

