-- ==== Sys2Proof/Machine/Load.lean ====
section
/-! DEFINITION. Loading a slot, stages (d), (f) and (g) of R560: register and memory loads (R557), models and their placement (R22,
R23, R340, R341, R381), region addresses, the load checks, and the load report (R567). -/

namespace Sys2Proof.Machine

/-! ### The load report (R567) -/

/-- An entry written to the report, if it has room; the first fatal code noted (Table 15.21). -/
def Dev.report (d : Dev) (r : Report) : Dev :=
  let n := d.get R.CFG_REPORT_INFO_COUNT
  let d := if r.severity = 2 && d.get R.CFG_REPORT_INFO_FIRST_FATAL = 0 then d.put R.CFG_REPORT_INFO_FIRST_FATAL r.code else d
  if 4096 ≤ n then d.put R.CFG_REPORT_INFO_OVERFLOW 1
  else
    let head := r.code % 2 ^ 16 + 2 ^ 16 * (r.severity % 256) + 2 ^ 24 * (r.slot % 256) + 2 ^ 32 * (r.subject % 2 ^ 32)
    let d := (d.put (R.CFG_REPORT_ENTRY n 0) head).put (R.CFG_REPORT_ENTRY n 1) r.value
    (d.put (R.CFG_REPORT_ENTRY n 2) r.value2).put R.CFG_REPORT_INFO_COUNT (n + 1)

/-- What a stage of a load gives: the device, and the fatal entry of its first failure. -/
structure Loading where
  dev : Dev
  fault : Option Report

/-- The next stage, unless one has failed. -/
def Loading.next (x : Loading) (f : Dev → Loading) : Loading := match x.fault with | some _ => x | none => f x.dev

/-- A stage that cannot fail. -/
def Loading.then_ (x : Loading) (f : Dev → Dev) : Loading := match x.fault with | some _ => x | none => ⟨f x.dev, none⟩

/-- A list of stages in order. -/
def Loading.each {α : Type} (xs : List α) (f : Dev → α → Loading) (x : Loading) : Loading :=
  xs.foldl (fun x a => x.next fun d => f d a) x

/-! ### Register loads (R557) -/

/-- The fields that the image does not load, at their first elements: those restored from the flash (R512), fused, strapped, or set by the
start-up, as their Reset columns say (log entry 9, DEDUCED). -/
def keptFields : List Fld :=
  [R.PORT_MAC_ADDR_MAC, R.LNS_FENCE_SUMMARY_FACETS, R.LNS_FENCE_SUMMARY_CORES, R.LNS_FENCE_SUMMARY_CLUSTERS, R.LNS_CLUSTER_STAT_FENCED 0,
    R.LNS_CORE_STAT_FENCED 0 0, R.LNS_FACET_STAT_STATE 0 0 0, R.GRT_STAT_STATE 0, R.FOR_ENGINE_STAT_STATE 0]
  ++ [⟨R.MEM_CFG_DEVICE_ID.addr, R.MEM_CFG_DEVICE_ID.lo, 3⟩, R.MEM_MAP_INFO_LIVE_CHANNELS, R.MEM_MAP_INFO_RETIRED, R.MEM_MAP_INFO_GENERAL_MIB,
    R.MEM_CHAN_STAT_STATE 0, R.MEM_CHAN_STAT_CAUSE 0, R.MIR_STAT_LANE_FAILED 0, R.LPE_LIFE_STAT_LAST_SEQ, R.CFG_BOOT_PREFER]
  ++ [R.JRN_STAT_NEXT_JSEQ, R.JRN_STAT_LAST_BATCH, R.JRN_STAT_HEAD, R.JRN_STAT_OLDEST, R.JRN_ROOT_ROOT 0, R.LCS_LOG_LCS_SEQ 0, R.LCS_LOG_FROM 0,
    R.LCS_LOG_TO 0, R.LCS_LOG_AUTH 0, R.LCS_LOG_TIME 0, R.LCS_LOG_SRC_MAC 0, R.LCS_LOG_JRN_BATCH 0, R.LCS_STAT_STATE, R.LCS_STAT_STORED]
  ++ [R.LCS_STAT_ERASE_PENDING, R.LCS_STAT_MIN_SVN, R.LCS_STAT_JTAG_WRITES, R.SEC_KEY_NEXT 0, R.SEC_KEY_RESERVED_TO 0, R.SEC_KEY_CERT_SEQ 0,
    R.DEV_INFO_STEPPING, R.DEV_SERIAL_SERIAL, R.DEV_ID_DIGEST_DIGEST 0, R.DEV_ENDORSE_DATA 0, R.RST_STAT_CAUSE, R.RST_STAT_STAGE,
    R.RST_STAT_START_MS]

/-- The bits of word `i` of a register that the image does not load. -/
def RegDesc.kept (r : RegDesc) (i : Nat) : Nat :=
  (keptFields.filter fun f => f.addr = r.base + 8 * i).foldl (fun m f => setBits m f.lo f.width (2 ^ f.width - 1)) 0

/-- One record: none when it names no register, a counter, or a register with a `WO` field. It writes the whole register, `RO` fields and all,
and each value as it stands, also one that a write is refused for (log entry 72, DESIGN CHOICE). -/
def Dev.loadRegister (d : Dev) (a v : Nat) : Option Dev :=
  if RegMap.isCounter a then none
  else
    match RegMap.lookup RegMap.regs a with
    | none => none
    | some (r, i) =>
      if r.fields.any fun f => f.acc = .wo then none
      else
        let all := r.mask i fun _ => true
        let kept := all &&& r.kept i
        some (d.setWord a ((v &&& (all ^^^ kept)) ||| (d.word a &&& kept)))

/-- The records of a register-load section, `i` the index of the first. -/
def Dev.loadRegisters (slot sec : Nat) : Nat → Nat → List Byte → Dev → Loading
  | 0, _, _, d => ⟨d, none⟩
  | fuel + 1, i, bs, d =>
    if bs.isEmpty then ⟨d, none⟩
    else if bs.length < 16 then ⟨d, some (.fatal slot 4 sec (16 * i) 0)⟩
    else
      match d.loadRegister (leAt bs 0 8) (leAt bs 8 8) with
      | none => ⟨d, some (.fatal slot 4 sec (16 * i) 0)⟩
      | some d => Dev.loadRegisters slot sec fuel (i + 1) (bs.drop 16) d

/-! ### Memory loads (R557) -/

/-- The records of a memory-load section, `off` the byte offset of the first. -/
def Dev.loadMemory (slot sec : Nat) : Nat → Nat → List Byte → Dev → Loading
  | 0, _, _, d => ⟨d, none⟩
  | fuel + 1, off, bs, d =>
    if bs.isEmpty then ⟨d, none⟩
    else
      let a := leAt bs 0 8
      let n := leAt bs 8 4
      if bs.length < 16 + n || n % 8 != 0 || (n != 0 && !d.mapped a n) then ⟨d, some (.fatal slot 4 sec off 0)⟩
      else Dev.loadMemory slot sec fuel (off + 16 + n) (bs.drop (16 + n)) (d.store a (sub bs 16 n))

/-- The register-load and memory-load sections in table order (stage (d)). -/
def Dev.loadSections (slot : Nat) (ws : Sparse Word) (d : Dev) : Loading :=
  let es := sections ws
  Loading.each ((List.range es.length).zip es) (fun d p =>
    let bs := p.2.bytes ws
    if p.2.kind = 1 then Dev.loadRegisters slot p.1 (bs.length / 16 + 1) 0 bs d
    else if p.2.kind = 2 then Dev.loadMemory slot p.1 bs.length 0 bs d
    else ⟨d, none⟩) ⟨d, none⟩

/-- The owner section key (R559): more than one, or one of another length, makes the section malformed. -/
def Dev.loadOwnerKey (slot : Nat) (ws : Sparse Word) (d : Dev) : Loading :=
  let es := sections ws
  let keys := ((List.range es.length).zip es).filter fun p => p.2.kind = 4
  match keys with
  | [] => ⟨d, none⟩
  | k :: more =>
    let bs := k.2.bytes ws
    match more with
    | x :: _ => ⟨d, some (.fatal slot 4 x.1 0 0)⟩
    | [] =>
      if bs.length != 68 then ⟨d, some (.fatal slot 4 k.1 0 0)⟩
      else ⟨{ d with sec := { d.sec with ownerKey := some bs } }, none⟩

/-! ### What follows the register loads -/

/-- Counters loaded through `SYN_CTR` take their counts and initial values at their physical counters (R435). -/
def Dev.loadCounters (d : Dev) : Dev :=
  let mine (w : Nat × Word) : Bool := within 0xA10000000 0xA17FFFFFF w.1
  let ws := d.regs.filter mine
  let d := { d with regs := d.regs.filter fun w => !mine w }
  d.each ws fun d w =>
    let v := w.2.toNat % 2 ^ 16
    match d.physCtr ((w.1 - 0xA10000000) / 0x80000) ((w.1 - 0xA10000000) % 0x80000 / 8) with
    | some p => d.setCtr p ⟨v, v, 0xFFFF⟩
    | none => d

/-- `MEMBERS` of a barrier network counts its masks (Table 12.14). -/
def Dev.countMembers (d : Dev) : Dev :=
  d.each (List.range 16) fun d n =>
    let cores := (List.range 4).foldl (fun s w => s + popCount 64 (d.get (R.SYN_BAR_MASK_CORES n w))) 0
    d.put (R.SYN_BAR_MEMBERS n) (cores + popCount 16 (d.get (R.SYN_BAR_MASK_GRT n)))

/-- Slot 0 holds the image's rule set as Current, commit 0; the other slots are Free, and no staging is open (R152, R165). -/
def Dev.loadRules (d : Dev) : Dev :=
  let ps := d.positions
  let d := d.each ps fun d p => d.setWord (posAddr p + 88) (bitsOf (d.posSlots p) 0 1)
  let d := d.each d.contentPositions fun d p => (d.setParity p (d.contentParity p)).copyRule p
  let d := d.each [1, 2, 3] fun d s => ((d.setWord (R.CLS_VER_VER s).addr 0).setWord (R.CLS_VER_COMMIT_SEQ s).addr 0)
  let d := ((d.put (R.CLS_VER_STATE 0) 2).put (R.CLS_VER_REFCOUNT 0) 0).put (R.CLS_VER_COMMIT_SEQ 0) 0
  let d := d.put (R.CLS_VER_ENTRIES 0) ((ps.filter fun p => bitsOf (d.posSlots p) 0 1 = 1).length)
  let d := (d.setWord R.CLS_STATE_CUR_VER.addr (d.get (R.CLS_VER_VER 0))).put R.CLS_COMMIT_SEQ_SEQ 0
  d.countFree

/-- What the planner and Aperture take from the image (R407, R410, R414, R419): `PERIOD_NS` and `FIXED_TIER` as loaded, also where R28 or
Table 1.11 give no such value (log entry 72, DESIGN CHOICE). -/
def Dev.loadPlan (d : Dev) : Dev :=
  let pairs := (List.range 15).flatMap fun m => [(m, 0), (m, 1), (m, 2), (m, 3)]
  let energy := pairs.foldl (fun (s : Sparse Nat) p =>
    Sparse.write (fun _ => 0) s (4 * p.1 + p.2) (d.get (R.TKP_ENERGY_E_UJ p.1 p.2))) []
  let d := d.put R.APR_STAT_TARGET_W (d.get R.APR_CFG_BUDGET_W)
  let p := d.plan
  { d with plan := { p with imageEnergy := energy, imageFixed := d.get R.APR_CREDIT_FIXED_W, period := d.get R.TKP_TICK_CFG_PERIOD_NS },
           front := { d.front with agePeriodMs := d.get R.FLW_CFG_AGE_SWEEP_MS } }

/-- Port modes as loaded (a `MODE` of 3 or a `PAUSE_CEIL_PCT` outside 10 to 100 too: R67 and R80 refuse a write only; log entry 72,
DESIGN CHOICE), and the land of `PPS_OUT` and `TICK_OUT` with its report entry (R78, R643). -/
def Dev.loadPort (slot : Nat) (d : Dev) : Dev :=
  let d := d.each (List.range 8) fun d n => d.put (R.PORT_SUBPORT_STAT_MODE_ACTIVE n) (d.get (R.PORT_SUBPORT_CFG_MODE n))
  let d := d.assignLand
  let stat := RegMap.dCLK_OUT_STAT.base
  if d.on R.CLK_OUT_CFG_PPS_OUT_EN && d.on R.CLK_OUT_CFG_TICK_OUT_EN then d.report ⟨0x40, 1, slot, 0, stat, stat⟩ else d

/-- The settings that follow the register loads. -/
def Dev.loaded (slot : Nat) (d : Dev) : Dev := Dev.loadPort slot d.loadCounters.countMembers.loadRules.loadPlan

/-! ### Models (R358, R381, R558) -/

/-- A model section of an image. -/
structure ModelSection where
  index : Nat
  model : Nat
  tiers : Nat
  gen : Nat
  lineage : Nat
  sig : Nat
  header : List Byte
  body : List Byte

/-- Whether a model has tier `t`. -/
def ModelSection.has (x : ModelSection) (t : Nat) : Bool := x.tiers.testBit t

/-- A model section read from its bytes: the fatal entry, or the section (Table 15.4, R11, R381). -/
def modelSection (slot index : Nat) (bs : List Byte) : Report ⊕ ModelSection :=
  let h := bs.take 64
  let body := sub bs 64 (leAt h 24 8)
  let bad (off : Nat) : Report ⊕ ModelSection := .inl (.fatal slot 4 index off 0)
  if bs.length < 64 || leAt h 0 4 != 0xCA053D5E then bad 0
  else if leAt h 4 2 != 1 then bad 4
  else if leAt h 6 2 != 0x0100 then .inl (.fatal slot 3 0 (leAt h 6 2) 0x0100)
  else if 14 < leAt h 8 1 then bad 8
  else if 16 ≤ leAt h 9 1 then bad 9
  else if leAt h 10 2 = 0 then bad 10
  else if bs.length < 64 + leAt h 24 8 then bad 24
  else if shake256 body != sub h 32 32 then bad 32
  else .inr ⟨index, leAt h 8 1, leAt h 9 1, leAt h 10 2, leAt h 12 1, leAt h 16 4, h, body⟩

/-- A section put among others in rising order of its model; none when the model is there. -/
def insertModel (x : ModelSection) : List ModelSection → Option (List ModelSection)
  | [] => some [x]
  | y :: ys =>
    if x.model = y.model then none
    else if x.model < y.model then some (x :: y :: ys) else (insertModel x ys).map (y :: ·)

/-- The models of an image in ascending number (stage (f)); two sections of one model are malformed. -/
def imageModels (slot : Nat) (ws : Sparse Word) : Report ⊕ List ModelSection :=
  let es := sections ws
  (((List.range es.length).zip es).filter fun p => p.2.kind = 3).foldl (fun r p =>
    match r with
    | .inl e => .inl e
    | .inr ms =>
      match modelSection slot p.1 (p.2.bytes ws) with
      | .inl e => .inl e
      | .inr x => match insertModel x ms with | some ms => .inr ms | none => .inl (.fatal slot 4 p.1 8 0)) (.inr [])

/-! ### Regions of the general space (Table 15.7, R485) -/

/-- An address in the general space for a region of `size` bytes: the firmware's choice, free but for its granule and the space
(log entry 13, DESIGN CHOICE). -/
def Dev.placeRegion (d : Dev) (size : Nat) : Nat × Dev :=
  let (p, d) := d.draw
  let room := 110 * 2 ^ 20 * d.liveChannels - size
  (p % (room / 64 + 1) * 64, d)

/-- A region placed and reported: kind, index, size. -/
def Dev.regionPlaced (d : Dev) (slot kind index size : Nat) : Nat × Dev :=
  let (a, d) := d.placeRegion size
  (a, d.report ⟨0x13, 0, slot, kind * 2 ^ 24 + index, a, size⟩)

/-- The contexts that the page tables or the placed programs use. -/
def Dev.usedContexts (d : Dev) : List Nat :=
  (List.range 256).filter fun c => d.pageMap.any (fun p => p.2.1 = c) || d.plan.placed.any fun p => p.context = c

/-- The general regions placed (R206, R356, R375, R383, R392, R539), and those of the models' output blocks. -/
def Dev.placeRegions (slot : Nat) (ms : List ModelSection) (d : Dev) : Dev :=
  let (s0, d) := d.regionPlaced slot 1 0 (4 * 2 ^ 20)
  let (s1, d) := d.regionPlaced slot 1 1 (4 * 2 ^ 20)
  let (b0, d) := d.regionPlaced slot 2 0 (8192 * 64)
  let (b1, d) := d.regionPlaced slot 2 1 (8192 * 64)
  let (n0, d) := d.placeRegion (8192 * 64)
  let (n1, d) := d.placeRegion (8192 * 64)
  let (ring, d) := d.regionPlaced slot 4 0 (64 * 2 ^ 20)
  let (stage, d) := d.regionPlaced slot 5 0 (2 ^ 31)
  let (trace, d) := d.regionPlaced slot 7 0 (d.get R.LPE_RING_TRACE_SIZE_MIB * 2 ^ 20)
  let (ctr, d) := d.regionPlaced slot 8 0 (2 ^ 28)
  let d := ((d.put R.LPE_RING_TRACE_BASE trace).put R.LPE_RING_COUNTER_BASE ctr).put R.LPE_RING_COUNTER_SIZE_MIB 256
  let d := { d with seq := { d.seq with slotSets := [s0, s1], stateBlocks := [b0, b1], newBlocks := [n0, n1], ringBase := ring,
                                        stagingBase := stage } }
  d.each (ms.flatMap fun x => (([0, 1, 2] : List Nat).filter x.has).map fun t => (x.model, t)) fun d p =>
    let (a, d) := d.regionPlaced slot 3 (4 * p.1 + p.2) 256
    let d := if p.2 = 0 then d.put (R.FOR_MODEL_OUT_BLOCK p.1) a else d
    { d with seq := { d.seq with outBlocks := Sparse.put d.seq.outBlocks (4 * p.1 + p.2) a } }

/-- A step area for each running context (R534). -/
def Dev.placeStepAreas (slot : Nat) (d : Dev) : Dev :=
  d.each d.usedContexts fun d c =>
    let (a, d) := d.regionPlaced slot 6 c (8192 * 576)
    { d with seq := { d.seq with stepAreas := Sparse.put d.seq.stepAreas c a } }

/-- The addresses and lengths of memory-load records. -/
def loadRecords : Nat → List Byte → List (Nat × Nat)
  | 0, _ => []
  | fuel + 1, bs => if bs.length < 16 then [] else (leAt bs 0 8, leAt bs 8 4) :: loadRecords fuel (bs.drop (16 + leAt bs 8 4))

/-- What a slot's memory-load sections and model sections write to memory. -/
def imageExtents (ws : Sparse Word) (ms : List ModelSection) : List (Nat × Nat) :=
  ((sections ws).filter fun e => e.kind = 2).flatMap (fun e => loadRecords e.length (e.bytes ws))
    ++ ms.flatMap fun x => (Config.sectionMemory x.body).map fun w => (w.1, w.2.length)

/-- R485: the regions fit the general space. -/
def Dev.spaceCheck (slot : Nat) (ws : Sparse Word) (ms : List ModelSection) (d : Dev) : Loading :=
  let outs := (ms.map fun x => (([0, 1, 2] : List Nat).filter x.has).length).sum
  let need := d.generalNeed (imageExtents ws ms) outs d.usedContexts.length
  let have_ := 110 * 2 ^ 20 * d.liveChannels
  if have_ < need then ⟨d, some (.fatal slot 0x30 0 d.liveChannels (need - have_))⟩ else ⟨d, none⟩

/-! ### Placement of forest models (R340, R341) -/

/-- A replica put on engines, stage `s` on the `s`-th, each reported. -/
def Dev.putReplica (slot : Nat) (x : ModelSection) (d : Dev) (r : Nat) (es : List Nat) : Dev :=
  let d := d.each ((List.range es.length).zip es) fun d se =>
    let d := d.loadStage se.2 ⟨Config.sectionForest x.body se.1, [], 0⟩
    let d := ((d.put (R.FOR_ENGINE_STAT_MODEL se.2) x.model).put (R.FOR_ENGINE_STAT_STAGE se.2) se.1).put (R.FOR_ENGINE_STAT_REPLICA se.2) r
    (d.bankUse se.2).report ⟨0x10, 0, slot, x.model * 256 + se.1, 0x2000 + se.2, es.headD 0⟩
  let p : Placed := ⟨3, r, (Config.sectionContext x.body).toNat, x.model, 0, false, es, true, []⟩
  { d with plan := { d.plan with placed := d.plan.placed ++ [p] } }

/-- Replicas 0, 1, 2 … placed while the lowest free engines last. -/
def Dev.putReplicas (slot : Nat) (x : ModelSection) (stages : Nat) : Nat → Nat → Dev → Dev
  | 0, _, d => d
  | left + 1, r, d =>
    let free := d.freeEngines
    if free.length < stages then d
    else Dev.putReplicas slot x stages left (r + 1) (Dev.putReplica slot x d r (free.take stages))

/-- The feature map of a model. -/
def Dev.putFeatures (x : ModelSection) (d : Dev) : Dev :=
  let fs := Config.sectionFeatures x.body
  let d := d.each fs fun d w =>
    let a := 0x700100000 + 0x800 * x.model + 8 * (w.1 % 256)
    let d := d.setWord a w.2.toNat
    { d with lens := { d.lens with forestCopy := Sparse.put d.lens.forestCopy a w.2 } }
  d.put (R.FOR_MODEL_FEATURES x.model) fs.length

/-- The forest tier of a model placed. -/
def Dev.placeForest (slot : Nat) (x : ModelSection) (d : Dev) : Loading :=
  let (stages, replicas) := Config.sectionForestShape x.body
  if stages = 0 && replicas = 0 then ⟨d, none⟩
  else if !within 1 32 stages || !within 1 32 replicas then ⟨d, some (.fatal slot 0x22 (x.model * 256) 9 0)⟩
  else
    let d := Dev.putReplicas slot x stages replicas 0 (Dev.putFeatures x d)
    let n := d.plan.placed.countP fun p => p.kind = 3 && p.model = x.model
    if n = 0 then ⟨d, some (.fatal slot 0x11 (x.model * 256 + d.freeEngines.length) 0 0)⟩
    else
      let d := ((d.put (R.FOR_MODEL_STAGES x.model) stages).put (R.FOR_MODEL_REPLICAS x.model) n).put (R.FOR_MODEL_REPLICAS_IMAGE x.model) replicas
      ⟨if n < replicas then d.report ⟨0x12, 1, slot, x.model, n, replicas⟩ else d, none⟩

/-! ### Placement of array models (R22, R23) -/

/-- The units that are fenced or taken: Facets by index, Gratings as 1,024 + g. -/
def Dev.busyUnits (d : Dev) : List Nat :=
  (List.range 1024).filter (fun f => d.facetFenced f || d.plan.placed.any fun p => p.facets.contains f)
    ++ ((List.range 16).filter fun g => d.gratingFenced g || d.plan.placed.any fun p => p.kind = 2 && p.units.contains g).map (1024 + ·)

/-- A placement row of the firmware as a placed program. -/
def placedRow (m : Nat) (row : List Nat) (bindings : List (Nat × Nat × Nat)) : Placed :=
  let units := row.drop 5
  let kind := row.getD 0 0
  ⟨kind, if kind = 2 then 1024 + units.headD 0 else units.foldl min (units.headD 0), row.getD 2 0 % 256, m, row.getD 3 0 % 3,
    row.getD 4 0 = 1, units, true, bindings.map fun b => ⟨b.1, b.2.1, b.2.2⟩⟩

/-- Whether a binding lies on its placement grain, inside what there is of its kind (Table 1.3): `general` bytes of DRAM. -/
def Binding.fits (general : Nat) (b : Binding) : Bool :=
  let on (grain room : Nat) : Bool := decide (b.base % grain = 0 ∧ b.size % grain = 0 ∧ b.base + b.size ≤ room)
  match b.kind with
  | 0 => on 4096 0x80000
  | 1 => on 0x10000 (12 * 2 ^ 20)
  | 2 => on (2 ^ 20) general
  | 3 => on 1 65536
  | 4 => on 1 48
  | 5 => on 1 16
  | 6 => on 1 4096
  | _ => false

/-- Whether the units of a row are those of one engine (Table 1.3): 1 to 4 Facets of one Lens core, the 16 Facets of one quad, or one
Grating. -/
def Placed.oneEngine (p : Placed) : Bool :=
  let f := p.units.headD 0
  match p.kind with
  | 0 => decide (1 ≤ p.units.length ∧ p.units.length ≤ 4) && p.units.all (fun u => u / 4 = f / 4) && p.units.eraseDups == p.units
  | 1 => decide (p.units.length = 16) && (range (f / 16 * 16) 16).all p.units.contains
  | 2 => decide (p.units.length = 1)
  | _ => false

/-- Whether a row names units that exist, are free and form one engine, and bindings on their grains. -/
def Placed.fits (p : Placed) (busy : List Nat) (general : Nat) : Bool :=
  p.oneEngine && p.bindings.all (Binding.fits general)
    && p.units.all fun u => if p.kind = 2 then decide (u < 16) && !busy.contains (1024 + u) else decide (u < 1024) && !busy.contains u

/-- The engine ID of an array program (Table 12.2). -/
def Placed.engine (p : Placed) : Nat := if p.kind = 2 then 0x1000 + (p.id - 1024) % 16 else p.id / 4 % 256

/-- The array programs of a model placed; stages are numbered after the forest's. -/
def Dev.placeArray (slot : Nat) (x : ModelSection) (d : Dev) : Loading :=
  let first := (Config.sectionForestShape x.body).1
  let rows := Config.sectionPlacement x.body d.busyUnits
  Loading.each ((List.range rows.length).zip rows) (fun d r =>
    let p := placedRow x.model r.2 (Config.sectionBindings x.body r.1)
    if !p.fits d.busyUnits (110 * 2 ^ 20 * d.liveChannels) then ⟨d, some (.fatal slot 0x11 (x.model * 256 + first + r.1) 0 0)⟩
    else
      let d : Dev := { d with plan := { d.plan with placed := d.plan.placed ++ [p] } }
      ⟨d.report ⟨0x10, 0, slot, x.model * 256 + first + r.1, p.engine, p.id⟩, none⟩) ⟨d, none⟩

/-! ### A model (stage (f)) -/

/-- What a section's generation puts in place, and the registers of its model (R381, R388, Table 10.13, Table 11.9). -/
def Dev.putModel (x : ModelSection) (d : Dev) : Dev :=
  let m := x.model
  let s : Section := ⟨x.header, x.body, [], []⟩
  let d := (d.installGen m (d.shadowOf m s)).takeMasters m
  let d := ((d.put (R.SEQ_MODEL_GEN_CURRENT m) x.gen).put (R.SEQ_MODEL_LINEAGE m) x.lineage).put (R.SEQ_MODEL_STATE_SIG m) x.sig
  let d := (d.put (R.SEQ_MODEL_GSTATE m) 1).put (R.SEQ_MODEL_SEQ_TIER m) (b2n (x.has 3))
  let d := if d.get (R.FOR_MODEL_STAGES m) = 0 then d else d.put (R.FOR_MODEL_GEN_ACTIVE m) x.gen
  let far := (Config.sectionRemote x.body).toNat
  let d := (d.put (R.TKP_ESC_T1_PRESENT m) (b2n (x.has 1))).put (R.TKP_ESC_T2_PRESENT m) (b2n (x.has 2))
  let d := ((d.put (R.TKP_ESC_T1_REMOTE m) far).put (R.TKP_ESC_T2_REMOTE m) (far / 2)).put (R.TKP_ESC_T2_EVERY m) (far / 4)
  d.each [0, 1, 2] fun d t => d.put (R.TKP_ENERGY_CAP m t) (if d.tierPlaced m t then 8192 else 0)

/-- A model placed and put in place, with the checks of its stage programs. -/
def Dev.placeModel (slot : Nat) (d : Dev) (x : ModelSection) : Loading :=
  let l := ((Dev.placeForest slot x d).next (Dev.placeArray slot x)).then_ (Dev.putModel x)
  l.next fun d =>
    match tensorFault d.memRead x.body with
    | none => ⟨d, none⟩
    | some (.desc a row) => ⟨d, some (.fatal slot 0x21 0 a row)⟩
    | some (.block a grating) => ⟨d, some (.fatal slot 0x23 (if grating then 0x0006 else 0x0005) a 0)⟩
    | some (.state a) => ⟨d, some (.fatal slot 0x23 0x0008 a 0)⟩

/-- Contexts with programs or pages run (Table 12.9), and the registers that show the placement. -/
def Dev.startContexts (d : Dev) : Dev :=
  let d := d.each d.usedContexts fun d c => d.put (R.SYN_CTX_STAT_STATE c) 1
  if d.plan.placed.isEmpty then d else d.showPlacement

/-! ### The load checks (stage (g)) -/

/-- The parse graph and the registers. -/
def Dev.checkRegisters (slot : Nat) (d : Dev) : Loading :=
  match d.graphFault with
  | some (k, row, n) => ⟨d, some (.fatal slot 0x20 k row n)⟩
  | none =>
    match d.registerFault with
    | some a => ⟨d, some (.fatal slot 0x23 (a / 2 ^ 32) a 0)⟩
    | none =>
      match d.staticFault with
      | some a => ⟨d, some (.fatal slot 0x23 4 a 0)⟩
      | none => ⟨d, none⟩

/-- The forest models. -/
def Dev.checkForests (slot : Nat) (ms : List ModelSection) (d : Dev) : Loading :=
  Loading.each (ms.filter fun x => d.get (R.FOR_MODEL_STAGES x.model) != 0) (fun d x =>
    match forestFault x.model x.body with
    | some (s, row) => ⟨d, some (.fatal slot 0x22 (x.model * 256 + s) row 0)⟩
    | none => ⟨d, none⟩) ⟨d, none⟩

/-! ### The load -/

/-- The registers that R562 copies to the boot region. -/
def settingAddrs : List Nat :=
  [RegMap.dPORT_CFG.base, RegMap.dPORT_LANE_POL.base, RegMap.dCFG_SRC_VLAN.base, RegMap.dCFG_CTL_CFG.base]
    ++ (List.range 8).map (RegMap.dPORT_SUBPORT_CFG.base + 8 * ·) ++ (List.range 16).map (RegMap.dCFG_SRC_MAC.base + 8 * ·)

/-- A slot that has loaded: its registers (R567, Tables 15.18 to 15.21), and the settings kept in the boot region as its records gave them (R562). -/
def Dev.slotLoaded (slot : Nat) (ws : Sparse Word) (settings : Sparse Word) (d : Dev) : Dev :=
  let dig := imageDigest ws
  let d := ((d.put R.CFG_BOOT_RUN_SLOT slot).put (R.CFG_SLOT_STAT_STATE slot) 6).put R.CFG_IMAGE_INFO_BUILD_ID (flashNat ws 24 8)
  let d := d.each [0, 1, 2, 3] fun d w => d.put (R.CFG_IMAGE_DIGEST_DIGEST w) (leAt dig (8 * w) 8)
  let d := { d with nvm := { d.nvm with settings := settings }, sec := { d.sec with imageLoaded := true },
                    ctl := { d.ctl with tokens := d.get R.CFG_CTL_CFG_BURST } }
  d.report ⟨0x01, 0, slot, 0, flashNat ws 24 8, imageLen ws⟩

/-- Stages (c) to (g) of R560 on a verified slot; `restore` makes stage (e). -/
def Dev.loadStages (slot : Nat) (ws : Sparse Word) (restore : Dev → Dev) (d : Dev) : Loading :=
  match verifySections ws slot with
  | some r => ⟨d, some r⟩
  | none =>
    let l := (Dev.loadSections slot ws d).next (Dev.loadOwnerKey slot ws)
    let settings := settingAddrs.map fun a => (a, BitVec.ofNat 64 (l.dev.word a))
    let l := l.then_ fun d => restore (Dev.loaded slot d)
    l.next fun d =>
      match imageModels slot ws with
      | .inl r => ⟨d, some r⟩
      | .inr ms =>
        let l : Loading := Loading.each ms (Dev.placeModel slot) ⟨Dev.placeRegions slot ms d, none⟩
        let l := l.next (Dev.spaceCheck slot ws ms)
        let l := l.then_ fun d => Dev.placeStepAreas slot d.startContexts
        let l := (l.next (Dev.checkRegisters slot)).next (Dev.checkForests slot ms)
        l.then_ (Dev.slotLoaded slot ws settings)

end Sys2Proof.Machine
end

