-- ==== Sys2Proof/Machine/StartUp.lean ====
section
/-! DEFINITION. The start-up (R630 to R636): the boot copy (R597), what the flash restores (R551, R584, R594, R595, R607, R613), wipe
and training (R509, R510), the slots and the fallback (R561 to R563), port bring-up and the start of ticking (R26, R27, R30, R638). -/

namespace Sys2Proof.Machine

/-! ### Identification and the boot copy (R597, R598, R632) -/

/-- What the internal reset leaves for the firmware: cause, straps, fixed addresses (R630, R632, Table 13.1). -/
def Dev.identify (env : StartEnv) (d : Dev) : Dev :=
  let d := d.put R.RST_STAT_CAUSE d.sup.cause
  let d := d.put R.MEM_CFG_DEVICE_ID (setBits d.devId 0 3 env.straps.toNat)
  let d := d.put R.FLW_TABLE_INFO_BASE 0xDC0000000
  { d with jrn := { d.jrn with exportPos := d.nvm.jrnHead } }

/-- `n` bytes of boot copy `c`. -/
def Dev.bootBytes (d : Dev) (c o n : Nat) : List Byte := flashBytes d.nvm.boot (7 * 2 ^ 20 * c + o) n

/-- Whether the boot region holds a copy `c`: one without `MAGIC`, or longer than its place, is none (log entry 23, DEDUCED). -/
def Dev.bootHeld (d : Dev) (c : Nat) : Bool :=
  leNat (d.bootBytes c 0 4) = 0xCA05B007 && decide (128 + leNat (d.bootBytes c 16 8) + 2820 ≤ 7 * 2 ^ 20)

/-- Whether the digests of a boot copy hold, and whether its signature does (R597). -/
def Dev.bootDigests (d : Dev) (c : Nat) : Bool :=
  shake256 (d.bootBytes c 24 68) = Config.romRootDigest
    && shake256 (d.bootBytes c 128 (leNat (d.bootBytes c 16 8))) = d.bootBytes c 96 32
def Dev.bootSigned (d : Dev) (c : Nat) : Bool :=
  let len := leNat (d.bootBytes c 16 8)
  XmssSet.single.verifies (d.bootBytes c 24 68) (shake256 (d.bootBytes c 0 (128 + len))) (d.bootBytes c (128 + len) 2820)

/-- Whether the `SVN` of a boot copy is high enough (R597). -/
def Dev.bootFresh (d : Dev) (c : Nat) : Bool := decide (d.life.minSvn ≤ leNat (d.bootBytes c 8 2))

/-- Whether boot copy `c` passes (R597). -/
def Dev.bootPasses (d : Dev) (c : Nat) : Bool := d.bootHeld c && d.bootDigests c && d.bootFresh c && d.bootSigned c

/-- Whether a digest or the signature of boot copy `c` fails in the order of R597 (R614). -/
def Dev.bootRejects (d : Dev) (c : Nat) : Bool := d.bootHeld c && (!d.bootDigests c || (d.bootFresh c && !d.bootSigned c))

/-- The copy that the boot ROM runs: the first that passes. -/
def Dev.bootCopy (d : Dev) : Option Nat := ([0, 1] : List Nat).find? d.bootPasses

/-- The copies checked before one runs that failed a digest or their signature are counted (R614). -/
def Dev.countBoot (d : Dev) : Dev :=
  d.bump C.SEC_VERIFY_FAIL ((([0, 1] : List Nat).filter fun c => c ≤ d.bootCopy.getD 1 && d.bootRejects c).length)

/-- What the running copy shows (Table 16.15, R597). -/
def Dev.runCopy (d : Dev) (c : Nat) : Dev :=
  let digest := shake256 (d.bootBytes c 0 (128 + leNat (d.bootBytes c 16 8)))
  let d := ((d.put R.SEC_STAT_BOOT_COPY c).put R.SEC_STAT_SVN (leNat (d.bootBytes c 8 2))).put R.SEC_STAT_FW_VER (leNat (d.bootBytes c 4 4))
  let d := d.each [0, 1, 2, 3] fun d w => d.put (R.SEC_BOOT_DIGEST_DIGEST w) (leAt digest (8 * w) 8)
  { d with sec := { d.sec with rootKey := d.bootBytes c 24 68, svn := leNat (d.bootBytes c 8 2) } }

/-- Neither copy passed: `BOOT_HALT` (Table 17.5). -/
def Dev.bootHalt (d : Dev) : Dev :=
  { d.put R.RST_STAT_STAGE 0x03 with sup := { d.sup with phase := .halted, nextSlot := 0 } }

/-! ### Erasures and the identity region (R584, R591 to R595, R607, R613) -/

/-- Pending erasures finished: bit 0 the user region, bits 1 and 2 the slots. -/
def Dev.finishErasures (d : Dev) : Dev :=
  let e := d.life.erase
  let v := d.nvm
  let v := if e.testBit 0 then { v with journal := [], jrnHead := 0, jrnOldest := 0 } else v
  let v := if e.testBit 1 then { v with slotA := [] } else v
  let v := if e.testBit 2 then { v with slotB := [] } else v
  { d with nvm := v, life := { d.life with erase := 0 }, jrn := { d.jrn with exportPos := v.jrnHead } }

/-- The signature state of a key: the exact next index where it was recorded, else `RESERVED_TO`. -/
def Dev.restoreKey (d : Dev) (k : Nat) : Dev :=
  match d.nvm.keys[k]? with
  | none => d
  | some s =>
    let next := s.exact_.getD s.reservedTo
    let d := ((d.put (R.SEC_KEY_NEXT k) next).put (R.SEC_KEY_RESERVED_TO k) s.reservedTo).put (R.SEC_KEY_CERT_SEQ k) s.certSeq
    d.modKey k fun s => { s with exact_ := none, used := next }

/-- The keys restored, and those generated that the life-cycle state asks for. -/
def Dev.restoreKeys (d : Dev) : Dev :=
  let skipped := d.nvm.keys.any fun s => s.exact_.isNone && decide (s.used < s.reservedTo)
  let d := if skipped then d.bump C.SEC_BLOCKS_ABANDONED else d
  let d := d.each [0, 1, 2] Dev.restoreKey
  let d := if d.life.stored = 0 && !d.nvm.idKey then ({ d with nvm := { d.nvm with idKey := true } }).newKey 2 else d
  let d := if d.life.stored = 1 && d.get (R.SEC_KEY_CERT_SEQ 1) = 0 then d.newKey 1 else d
  d.put R.SEC_STAT_KEYS_READY (b2n (d.get (R.SEC_KEY_CERT_SEQ 1) != 0 && d.get (R.SEC_KEY_CERT_SEQ 2) != 0))

/-- A transition record shown (Table 16.13). -/
def Dev.showRecord (d : Dev) (i : Nat) (r : LcsRecord) : Dev :=
  let d := ((d.put (R.LCS_LOG_LCS_SEQ i) r.seq).put (R.LCS_LOG_FROM i) r.from_).put (R.LCS_LOG_TO i) r.to_
  let d := (d.put (R.LCS_LOG_AUTH i) r.auth).put (R.LCS_LOG_TIME i) r.time
  (d.put (R.LCS_LOG_SRC_MAC i) r.mac).put (R.LCS_LOG_JRN_BATCH i) r.batch

/-- The life-cycle registers. -/
def Dev.restoreLife (d : Dev) : Dev :=
  let d := (d.put R.LCS_STAT_STORED d.life.stored).put R.LCS_STAT_ERASE_PENDING d.life.erase
  let d := (d.put R.LCS_STAT_MIN_SVN d.life.minSvn).put R.LCS_STAT_JTAG_WRITES d.life.jtagWrites
  d.each ((List.range 64).zip d.life.log) fun d p => d.showRecord p.1 p.2

/-- The journal's numbers; an open marker means its batch was lost. The answer is `LOST_FROM`. -/
def Dev.restoreJournal (d : Dev) : Nat × Dev :=
  let (lost, d) := match d.nvm.marker with
    | none => (0, d)
    | some (_, first) =>
      (first, ({ d with nvm := { d.nvm with nextJseq := first + 4096, marker := none } }).bump C.JRN_LOST_NUMBERS 4096)
  let v := d.nvm
  let d := ((d.put R.JRN_STAT_NEXT_JSEQ v.nextJseq).put R.JRN_STAT_LAST_BATCH v.lastBatch).put R.JRN_STAT_HEAD v.jrnHead
  let d := d.put R.JRN_STAT_OLDEST v.jrnOldest
  (lost, d.each [0, 1, 2, 3] fun d w => d.put (R.JRN_ROOT_ROOT w) (leAt v.jrnRoot (8 * w) 8))

/-- The fields of Table 0.4 that the flash restores. -/
def Dev.restoreFields (d : Dev) : Dev :=
  let d := (d.put R.PORT_MAC_ADDR_MAC d.nvm.mac).put R.CFG_BOOT_PREFER d.nvm.prefer
  (d.put R.LPE_LIFE_STAT_LAST_SEQ d.nvm.lifeSeq).restoreLife

/-! ### Fences, retirements and failed lanes (R551) -/

/-- Bit `i` of a byte string. -/
def bitAt (b : List Byte) (i : Nat) : Bool := (byteAt b (i / 8)).toNat.testBit (i % 8)

/-- The numbers below `n` whose bit is set from byte `off`. -/
def bitList (b : List Byte) (off n : Nat) : List Nat := (List.range n).filter fun i => bitAt b (8 * off + i)

/-- A channel retired at this start-up (Table 13.13); its flow buckets are redirected (R192). -/
def Dev.retireAtStart (d : Dev) (c cause : Nat) : Dev :=
  if d.get (R.MEM_CHAN_STAT_STATE c) = 1 then d
  else
    let d := (d.put (R.MEM_CHAN_STAT_STATE c) 1).put (R.MEM_CHAN_STAT_CAUSE c) cause
    d.put R.FLW_OCC_RETIRED_BUCKETS (d.get R.FLW_OCC_RETIRED_BUCKETS + 16384)

/-- The channels of a standing block (Table 14.10). -/
def Dev.restoreChannels (d : Dev) (b : List Byte) : Dev :=
  d.each (bitList b 168 512) fun d c => d.retireAtStart c (b2n (bitAt b (8 * 232 + 2 * c)) + 2 * b2n (bitAt b (8 * 232 + 2 * c + 1)))

/-- The units of a standing block. -/
def Dev.restoreUnits (d : Dev) (b : List Byte) : Dev :=
  let d := d.each (bitList b 0 1024) Dev.setFacetFenced
  let d := d.each (bitList b 128 256) Dev.setCoreFenced
  let d := d.each (bitList b 160 16) Dev.setClusterFenced
  let d := d.each (bitList b 162 16) Dev.setGratingFenced
  let d := d.each (bitList b 164 32) fun d e => d.put (R.FOR_ENGINE_STAT_STATE e) 3
  let d := d.restoreChannels b
  let d := d.each (bitList b 360 8) fun d l => d.put (R.PORT_LANE_STAT_FAILED l) 1
  d.each (bitList b 361 16) fun d i =>
    let f := R.MIR_STAT_LANE_FAILED (i / 4)
    d.put f (d.get f ||| 2 ^ (i % 4))

/-- The standing copy, when its digest verifies (R552). -/
def Nvm.standingCopy (v : Nvm) : Option (List Byte) :=
  if v.standing.isEmpty then none
  else if shake256 (v.standing.take 364) = v.standing.drop 364 then some (v.standing.take 364) else none

/-- The standing block of a life-record batch whose digest and signature verify; one that a power loss cut does not (R553). -/
def Nvm.batchBlock (v : Nvm) (b : RingBatch) : Option (List Byte) :=
  let at_ := 96 + 32 * leAt b.bytes 32 4
  let n := leAt b.bytes 36 4
  let digest := sub b.bytes (at_ + n) 32
  match v.certs.find? fun c => c.kind = 2 && c.seq = leAt b.bytes 40 4 with
  | none => none
  | some c =>
    if !v.lifeTorn.contains b.pos && shake256 (b.bytes.take (at_ + n)) = digest && XmssSet.multi.verifies (sub c.bytes 24 68) digest (sub b.bytes (at_ + n + 32) 9893)
    then some (sub b.bytes at_ n) else none

/-- The standing block of the newest batch that verifies. -/
def Nvm.lifeBlock (v : Nvm) : Option (List Byte) := v.life.reverse.findSome? v.batchBlock

/-- A standing copy whose digest fails, and the batches tried before the one that verifies, are counted (R551, R614). -/
def Dev.countRecords (d : Dev) : Dev :=
  let copy := b2n (!d.nvm.standing.isEmpty && d.nvm.standingCopy.isNone)
  d.bump C.SEC_VERIFY_FAIL (copy + (d.nvm.life.reverse.takeWhile fun b => (d.nvm.batchBlock b).isNone).length)

/-- The standing blocks that this start-up restores. -/
def Nvm.blocks (v : Nvm) : List (List Byte) := v.standingCopy.toList ++ v.lifeBlock.toList

/-- The breakout after the failed lanes, each moving it once as R55 moves it (R56). -/
def Dev.restoreBreakout (d : Dev) : Dev :=
  let failed := (List.range 8).filter fun l => d.on (R.PORT_LANE_STAT_FAILED l)
  let d := d.each failed fun d _ =>
    let b := d.get R.PORT_CFG_BREAKOUT
    if b = 3 then d else d.inheritConfig.put R.PORT_CFG_BREAKOUT (b + 1)
  if failed.isEmpty then d
  else d.each (List.range d.subPorts) fun d sp => d.put (R.PORT_SUBPORT_STAT_DOWN_BY_LANE sp) (b2n (d.hasFailedLane sp))

/-- Stage (e) of R560: everything restored, and how (Table 14.26). -/
def Dev.restoreStanding (d : Dev) : Dev :=
  let d := d.each d.nvm.blocks Dev.restoreUnits
  let d := if d.nvm.blocks.isEmpty then d else d.fenceSummary
  let d := (d.put R.LPE_LIFE_STAT_COPY_VALID (b2n d.nvm.standingCopy.isSome)).put R.LPE_LIFE_STAT_RESTORED (b2n d.nvm.lifeBlock.isSome)
  let d := if d.nvm.lifeBlock.isSome then d else (d.put R.LPE_LIFE_STAT_NONE_VALID 1).report ⟨0x32, 0, 0xFF, 0, 0, 0⟩
  d.restoreBreakout

/-! ### Wipe and training (R509, R510, R482) -/

/-- A channel that fails its wipe or its training is retired, and the decision recorded. -/
def Dev.channelFails (d : Dev) (c : Nat) : Dev :=
  if d.get (R.MEM_CHAN_STAT_STATE c) = 1 then d
  else
    let d := (d.retireAtStart c 1).bump C.MEM_RETIREMENTS
    ((d.health 0x13 c).lifeEntry 0x2B c (zeros 6 ++ leBytes 1 1) true).standingWrite

/-- The address map follows the live channels (R472). -/
def Dev.mapChannels (d : Dev) : Dev :=
  let retired := (List.range 512).countP fun c => d.get (R.MEM_CHAN_STAT_STATE c) = 1
  ((d.put R.MEM_MAP_INFO_LIVE_CHANNELS (512 - retired)).put R.MEM_MAP_INFO_RETIRED retired).put R.MEM_MAP_INFO_GENERAL_MIB (110 * (512 - retired))

/-- Steps 2 and 3: the wipe and the training, with the channels that fail them. What is restored stands already: the standing copy that a
failed channel has written holds it (R552). -/
def Dev.wipeAndTrain (env : StartEnv) (d : Dev) : Dev :=
  let d := d.each d.nvm.blocks Dev.restoreUnits
  let slow := !d.nvm.trained
  let (us, d) := d.draw
  let d := ((d.put R.MEM_WIPE_STAT_DRAM_DONE 1).put R.MEM_WIPE_STAT_SRAM_DONE 1).put R.MEM_WIPE_STAT_WIPE_SLOW (b2n slow)
  let d := d.put R.MEM_WIPE_STAT_WIPE_US (us % (if slow then 10001 else 5001))
  let d := d.each env.failWipe fun d c => ((d.channelFails c.val).bump C.MEM_WIPE_FAILED).report ⟨0x31, 1, 0xFF, c.val, 0, 0⟩
  let d := d.each env.failTraining fun d c => d.channelFails c.val
  ({ d with nvm := { d.nvm with trained := true } }).mapChannels

/-! ### Slots (R561 to R563) -/

/-- A slot's failure counted, reported and shown. -/
def Dev.slotFails (d : Dev) (slot : Nat) (r : Report) : Dev :=
  let d := (d.countVerify (some r)).report r
  d.put (if slot = 0 then R.CFG_BOOT_FAIL_A else R.CFG_BOOT_FAIL_B) r.code

/-- The other slot loaded after a failure in step 4: volatile memory is as the wipe left it (`base`), the report, the counts and
the draws of the failed load stay. -/
def Dev.againFrom (base failed : Dev) : Dev :=
  let keep (w : Nat × Word) : Bool :=
    within 0xE00000200 0xE00000207 w.1 || within 0xE00010000 0xE0002FFFF w.1 || w.1 = RegMap.dCFG_BOOT.base || w.1 = C.SEC_VERIFY_FAIL
  let regs := (failed.regs.filter keep).foldl (fun s w => Sparse.put s w.1 w.2) (base.regs.filter fun w => !keep w)
  { base with regs := regs, draws := failed.draws }

/-- Step 4 on a verified slot. -/
def Dev.loadSlot (slot : Nat) (d : Dev) : Loading := Dev.loadStages slot (d.nvm.slot slot) Dev.restoreStanding d

/-- The second slot, verified and loaded; the answer is the slot that has loaded, or none. -/
def Dev.secondSlot (slot : Nat) (prepare : Dev → Dev) (d : Dev) : Option Nat × Dev :=
  let d := d.put R.CFG_BOOT_FALLBACK 1
  match verifyTrailer (d.nvm.slot slot) d.sec.rootKey slot with
  | some r => (none, prepare (d.slotFails slot r))
  | none =>
    let base := prepare d
    match base.loadSlot slot with
    | ⟨d, none⟩ => (some slot, d)
    | ⟨d, some r⟩ => (none, base.againFrom (d.slotFails slot r))

/-- Both steps for the preferred slot, and the fallback (R561); `prepare` is the wipe and the training. -/
def Dev.loadSlots (first : Nat) (prepare : Dev → Dev) (d : Dev) : Option Nat × Dev :=
  match verifyTrailer (d.nvm.slot first) d.sec.rootKey first with
  | some r => Dev.secondSlot (1 - first) prepare (d.slotFails first r)
  | none =>
    let base := prepare d
    match base.loadSlot first with
    | ⟨d, none⟩ => (some first, d)
    | ⟨d, some r⟩ => Dev.secondSlot (1 - first) id (base.againFrom (d.slotFails first r))

/-- Without an image: the boot region's settings, or the reset values, and every sub-port Tap (R563, R603). -/
def Dev.withoutImage (d : Dev) : Dev :=
  let d := d.each d.nvm.settings fun d w => d.setWord w.1 w.2.toNat
  ({ d with ctl := { d.ctl with tokens := d.get R.CFG_CTL_CFG_BURST } }).restoreStanding

/-- Steps 1 to 4 as the stored state asks (Table 16.6): the loaded slot, and the device in its effective state. -/
def Dev.loadByState (env : StartEnv) (d : Dev) : Option Nat × Dev :=
  if within 1 3 d.life.stored then
    let first := if d.sup.nextSlot = 0 then d.get R.CFG_BOOT_PREFER else d.sup.nextSlot - 1
    match Dev.loadSlots first (Dev.wipeAndTrain env) d with
    | (some s, d) => (some s, d.put R.LCS_STAT_STATE d.life.stored)
    | (none, d) => (none, (d.withoutImage.put R.CFG_BOOT_NO_IMAGE 1).put R.LCS_STAT_STATE 3)
  else (none, ((Dev.wipeAndTrain env d).withoutImage).put R.LCS_STAT_STATE d.life.stored)

/-! ### Bring-up (R55, R489, R625, R634 step 5) -/

/-- The frequency of a clock domain in MHz (Table 17.2). -/
def clockMhz (c : Nat) : Nat :=
  ([3300, 2200, 2200, 1650, 1650, 1600, 1000, 0, 1000, 0, 1200, 800, 800, 1000, 200, 100, 156, 0] : List Nat).getD c 0

/-- Whether a clock domain is locked by a PLL (Table 17.2). -/
def hasPll (c : Nat) : Bool := c < 16 && c != 7 && c != 9

/-- The clocks run. -/
def Dev.startClocks (d : Dev) : Dev :=
  d.each (List.range 18) fun d c => (d.setMhz c (clockMhz c)).put (R.CLK_STAT_LOCKED c) (b2n (hasPll c))

/-- Sub-ports train and those whose partner trains come up; the Mirror links train. -/
def Dev.bringUp (env : StartEnv) (d : Dev) : Dev :=
  let d := d.each (List.range d.subPorts) fun d sp =>
    if d.on (R.PORT_SUBPORT_STAT_DOWN_BY_LANE sp) then d.put (R.PORT_SUBPORT_STAT_TRAINING sp) 0 else d.startTraining sp
  let d := d.each env.trained fun d sp => d.subportUp sp.val
  d.each [0, 1, 2, 3] fun d l =>
    if d.on (R.MIR_CFG_EN l) && popCount 4 (d.get (R.MIR_STAT_LANE_FAILED l)) < 2 then d.put (R.MIR_STAT_TRAINING l) 1 else d

/-! ### Ticking (R26, R27, R30, R638) -/

/-- Whether a register-load section gives an origin. -/
def imageGivesOrigin (ws : Sparse Word) : Bool :=
  (sections ws).any fun e =>
    e.kind = 1 && (List.range (e.length / 16)).any fun i => leAt (e.bytes ws) (16 * i) 8 = R.TKP_TICK_ORIGIN_ORIGIN.addr

/-- The board peers that the image names (R638). -/
def Dev.boardPeers (d : Dev) : List Nat :=
  (([0, 1, 2, 3] : List Nat).filter fun l => d.on (R.MIR_CFG_EN l)).map (fun l => d.get (R.MIR_CFG_PEER_ID l))
    ++ ((List.range 8).filter fun i => d.on (R.MIR_ROUTE_VALID i)).map fun i => setBits d.devId 0 3 i

/-- `DRIVER` or `FOLLOWER`, with Board fabric on. -/
def Dev.chooseDriver (d : Dev) : Dev :=
  if !d.on R.TKP_MODE_FABRIC_BOARD then d
  else
    let driver := d.boardPeers.all fun p => p = d.devId || decide (d.devId < p)
    (d.put R.TKP_TICK_STAT_DRIVER (b2n driver)).put R.TKP_TICK_STAT_FOLLOWER (b2n (!driver))

/-- Step 6: when the first boundary falls and which tick it begins; a follower waits for edges from then on (R30, R31). -/
def Dev.startTicking (slot : Nat) (d : Dev) : Dev :=
  let given := imageGivesOrigin (d.nvm.slot slot)
  let d := if given then d else d.put R.TKP_TICK_ORIGIN_ORIGIN d.ns
  let origin := d.get R.TKP_TICK_ORIGIN_ORIGIN
  let period := d.get R.TKP_TICK_CFG_PERIOD_NS
  let n := cdiv (d.ns - origin) period
  let p := d.plan
  let d := { d with plan := { p with ticking := true, tick := n, nextNs := origin + n * period, firstTick := none, period := period } }
  let d := d.chooseDriver
  if d.on R.TKP_TICK_STAT_FOLLOWER then { d with plan := { d.plan with nextNs := d.ns } } else d

/-! ### The entries of a start-up (R584, Tables 14.9 and 15.14) -/

/-- The reset entry of the life record and the `BOOT` entry of the journal, whose batch closes at once. -/
def Dev.bootEntries (env : StartEnv) (lost : Nat) (loaded : Option Nat) (d : Dev) : Dev :=
  let d := d.lifeEntry 0x2F d.sup.cause (zeros 2 ++ leBytes 4 (d.get R.LCS_STAT_STATE) ++ leBytes 8 env.startMs) false
  let digest := match loaded with | some s => imageDigest (d.nvm.slot s) | none => zeros 32
  let detail := leBytes 1 (d.get R.CFG_BOOT_RUN_SLOT) ++ leBytes 1 (d.get R.CFG_BOOT_FALLBACK) ++ zeros 6 ++ leBytes 8 lost
  (d.journal { kind := 4, digest := digest, detail := detail, close := 1 }).closeBatch 1

/-! ### The start-up -/

/-- The start-up after the boot firmware runs. -/
def Dev.bootRuns (env : StartEnv) (c : Nat) (d : Dev) : Dev :=
  let d := (d.runCopy c).finishErasures.restoreKeys.restoreFields.countRecords
  let (lost, d) := d.restoreJournal
  let (loaded, d) := Dev.loadByState env d
  let d := { d with ns := env.startMs * 1000000, sup := { d.sup with startMs := env.startMs },
                    front := { d.front with ageStartNs := env.startMs * 1000000, agePeriodMs := d.get R.FLW_CFG_AGE_SWEEP_MS } }
  let d := Dev.bringUp env (Dev.bootEntries env lost loaded d).startClocks
  let ticks := d.get R.LCS_STAT_STATE = 2
  let d := match loaded with
    | some s => if ticks then (Dev.startTicking s d).put R.RST_STAT_STAGE 0x0B else d.put R.RST_STAT_STAGE 0x0D
    | none => d.put R.RST_STAT_STAGE 0x0D
  let d := if ticks then d
    else d.each (List.range 8) fun d n =>
      (d.put (R.PORT_SUBPORT_STAT_MODE_ACTIVE n) 2).put (R.PORT_SUBPORT_STAT_MODE_PENDING n) 0
  { d with sup := { d.sup with phase := .running, nextSlot := 0 } }

/-- START_UP: the steps of R634 in order. -/
def Dev.startUp (env : StartEnv) (d : Dev) : Dev :=
  if d.sup.phase != .starting then d
  else
    let d := (Dev.identify env d).countBoot
    match d.bootCopy with
    | none => d.bootHalt
    | some c => Dev.bootRuns env c d

/-- The life-cycle records after a start-up: pending erasures are finished once a boot copy runs (R607). -/
def Dev.lifeAtStart (d : Dev) : Life :=
  if d.sup.phase = .starting && d.bootCopy.isSome then { d.life with erase := 0 } else d.life

/-! ### The command -/

/-- START_UP (R633). -/
def execStartUp (env : StartEnv) (s : State) := s.alwaysLife (fun d => d.startUp env) Dev.lifeAtStart

end Sys2Proof.Machine
end

