-- ==== Sys2Proof/Machine/Supply.lean ====
section
/-! DEFINITION. Supply, clocks, reset line and the IEEE 1149.1 port (chapter 17): input voltage and faults (R617 to R623), PLLs
and droop (R625 to R627), `RESET_N` (R631), the `PPS_OUT` pulse (R642), the JTAG instructions (R644, R645). -/

namespace Sys2Proof.Machine

/-! ### Off and on (R617, R618, R623, Table 17.3) -/

/-- The device in another phase. -/
def Dev.inPhase (d : Dev) (p : Phase) : Dev := { d with sup := { d.sup with phase := p } }

/-- Whether the device is dark: off, or shut down. -/
def Dev.dark (d : Dev) : Bool := d.sup.phase = .off || d.sup.phase = .shutDown

/-- An event that reaches the device while its rails are up: a JTAG event (R644), a DRAM rail (R622). -/
def Dev.powered (f : Dev → Dev) (d : Dev) : Dev := if d.dark then d else f d

/-- The power goes while the newest life-record batch is written: the page under way completes, and whether it was the last is free (R618, R553;
log entry 74, DESIGN CHOICE). -/
def Dev.cutLifeWrite (d : Dev) : Dev :=
  match d.nvm.life.getLast? with
  | none => d
  | some b =>
    if d.lpe.lifeWritten ≤ d.clockNs then d
    else
      let (x, d) := d.draw
      if x % 2 = 0 then d else { d with nvm := { d.nvm with lifeTorn := d.nvm.lifeTorn ++ [b.pos] } }

/-- Power-fail: the hold-up completes the standing copy, the rails go. The next start-up records cause 4, or 6 after a thermal
shutdown that no start-up has followed. -/
def Dev.powerDown (d : Dev) : Dev := (d.cutLifeWrite.afterReset (if d.dark && d.sup.cause = 6 then 6 else 4)).inPhase .off

/-- From off, with a good input: the start-up is about to run, or is held by `RESET_N` at the 20 ms row (R631). -/
def Dev.powerUp (d : Dev) : Dev := d.inPhase (if d.sup.resetLow then .held else .starting)

/-- The row of Table 17.1, from the highest voltage. -/
def vinRowOf (mv : Int) : Nat := if 13800 < mv then 0 else if 13200 < mv then 1 else if 10800 ≤ mv then 2 else if 10200 ≤ mv then 3 else 4

/-- The flags of a row in which the device runs outside 10.8 V to 13.2 V. -/
def Dev.vinFlags (d : Dev) (row : Nat) : Dev :=
  let d := (d.put R.PWR_STAT_VIN_HIGH (b2n (row = 1))).put R.PWR_STAT_VIN_LOW (b2n (row = 3))
  if row = 2 then d else (d.put R.PWR_STAT_VIN_EXCURSION 1).bump C.PWR_VIN_EXCURSIONS

/-- VIN_CHANGE: the input has stayed in a row of Table 17.1 for 20 µs. After an input above 13.8 V the device stays off until 10.8 V to 13.2 V, or
until the input has been away; after none it starts above 10.8 V (R615). -/
def Dev.vinChange (mv : Int) (d : Dev) : Dev :=
  let row := vinRowOf mv
  let old := d.sup.vinRow
  let held := d.sup.phase = .off && old = 0 && (row = 1 || row = 3)
  let d := { d with sup := { d.sup with vinRow := if held then 0 else row, vinMv := mv.toNat } }
  if held then d
  else if row = 4 then d.powerDown
  else if d.sup.phase = .shutDown then d
  else if row = 0 then d.powerDown
  else if d.sup.phase = .off then (if row = 3 then d else d.powerUp.vinFlags row)
  else if row = old then d
  else d.vinFlags row

/-- POWER_FAIL: the input has fallen below 10.2 V (R618). -/
def Dev.powerFail (d : Dev) : Dev := ({ d with sup := { d.sup with vinRow := 4, vinMv := 0 } }).powerDown

/-- Whether readings reach the thermal shutdown (R623). -/
def tooHot (temps : List TempReading) : Bool :=
  temps.any fun t => decide ((if t.sensor.val < 64 then 115 * 8 else 105 * 8) ≤ t.eighths)

/-- THERMAL_SHUTDOWN. -/
def Dev.thermal (temps : List TempReading) (d : Dev) : Dev :=
  if d.dark || !tooHot temps then d else (d.cutLifeWrite.afterReset 6).inPhase .shutDown

/-- COMPUTE_SUPPLY_FAULT, and the loss of lock of the `TIMEBASE` PLL: the start-up follows after 100 ms (R621). -/
def Dev.supplyFault (d : Dev) : Dev := if d.dark then d else d.cutLifeWrite.afterReset 5

/-- RESET_N_ASSERT: the line has been low for 10 µs; a write of the flash under way completes (R631, Table 17.10). -/
def Dev.resetAssert (d : Dev) : Dev :=
  if d.sup.resetLow then d
  else
    let d := { d with sup := { d.sup with resetLow := true, session := false } }
    if d.sup.phase = .off then d else d.afterReset (if d.sup.phase = .shutDown || (d.sup.phase = .starting && d.sup.cause = 6) then 6 else 2)

/-- RESET_N_RELEASE. -/
def Dev.resetRelease (d : Dev) : Dev :=
  if !d.sup.resetLow then d
  else
    let d := { d with sup := { d.sup with resetLow := false, session := false, nvmOp := none } }
    if d.sup.phase = .held then
      { d with sup := { d.sup with phase := .starting, cause := if d.sup.cause = 6 then 6 else 2 } }
    else d

/-! ### Events of a running device (R619, R620, R622, R626, R627, R642) -/

/-- POWER_LIMIT: an episode begins or ends; its stretched cycles are counted (R619). -/
def Dev.powerLimit (limiting : Bool) (stretched : Nat) (d : Dev) : Dev :=
  let begins := limiting && !d.on R.PWR_STAT_LIMITING
  let d := if begins then d.bump C.PWR_LIMIT_EVENTS else d
  let d := d.each [0, 1] fun d c => d.put (R.CLK_STAT_STRETCHING c) (b2n limiting)
  (d.put R.PWR_STAT_LIMITING (b2n limiting)).bump C.CLK_STRETCHED_CYCLES stretched

/-- PLL_UNLOCK: the units it clocks stop; the loss of the `TIMEBASE` PLL is a supply fault. -/
def Dev.pllUnlock (c : Nat) (d : Dev) : Dev :=
  if !hasPll c || d.sup.unlocked.contains c then d
  else if c = 13 then (d.bump C.CLK_UNLOCKS).supplyFault
  else
    let d := { d with sup := { d.sup with unlocked := d.sup.unlocked ++ [c] } }
    let d := (d.put (R.CLK_STAT_LOCKED c) 0).bump C.CLK_UNLOCKS
    d.each (domainRegions c) Dev.clockStops

/-- PLL_RELOCK: the units restart, but regions that another lost PLL or a power gate still holds. -/
def Dev.pllRelock (c : Nat) (d : Dev) : Dev :=
  if !d.sup.unlocked.contains c then d
  else
    let d := ({ d with sup := { d.sup with unlocked := d.sup.unlocked.filter (· != c) } }).put (R.CLK_STAT_LOCKED c) 1
    d.each ((domainRegions c).filter fun r => !(d.on (R.LPE_REGION_STAT_GATED r) || d.clockLost r)) Dev.regionResumed

/-- DROOP: an episode of at most 64 consecutive stretched cycles (R627). -/
def Dev.droop (cycles : Nat) (d : Dev) : Dev := (d.bump C.CLK_DROOP_EVENTS).bump C.CLK_STRETCHED_CYCLES (min cycles 64)

/-- DRAM_RAIL_FAULT: the tier is held until its rail returns (R622). -/
def Dev.railFault (tier : Nat) (d : Dev) : Dev :=
  if d.sup.heldTiers.contains tier then d else { d with sup := { d.sup with heldTiers := d.sup.heldTiers ++ [tier] } }

/-- DRAM_RAIL_RETURN. -/
def Dev.railReturn (tier : Nat) (d : Dev) : Dev := { d with sup := { d.sup with heldTiers := d.sup.heldTiers.filter (· != tier) } }

/-- PPS_OUT_PULSE: at the next whole second; a land that waits for it moves to `PPS_OUT` (R642, R643). -/
def Dev.ppsOut (d : Dev) : Dev :=
  if !d.on R.CLK_OUT_CFG_PPS_OUT_EN then d
  else
    let d := d.advance (d.nextMultiple 1000000000)
    let d := if d.sup.ppsTakes then
        (({ d with sup := { d.sup with ppsTakes := false } }).put R.CLK_OUT_STAT_LAND_FN 1).put R.CLK_OUT_STAT_TICK_OUT_STATUS 0x0B
      else d
    d.pulse 0 d.ns

/-! ### JTAG (R644, R645, Table 17.7) -/


/-- An instruction in the register, with what it makes of the low-speed lands. -/
def Dev.setIr (d : Dev) (ir lands : Nat) : Dev := { d with sup := { d.sup with ir := ir, lands := lands } }

/-- Bits shifted out at `TDO`. -/
def Dev.shiftOut (d : Dev) (bits : Nat) : Dev := { d with port := { d.port with sent := d.port.sent ++ [.jtag bits] } }

/-- The boundary register sampled, its 8 cells free values (log entry 12, DESIGN CHOICE), and loaded. -/
def Dev.boundary_ (d : Dev) (cells : Nat) : Dev :=
  let (x, d) := d.draw
  let d := d.shiftOut (x % 256)
  { d with sup := { d.sup with cells := cells } }

/-- The `STAGE_READ` register: `STAGE`, reset cause, `FALLBACK`; before the firmware runs the stage is that of rails and clocks. -/
def Dev.stageWord (d : Dev) : Nat :=
  if d.sup.phase = .running || d.sup.phase = .halted then
    d.get R.RST_STAT_STAGE + 2 ^ 8 * d.get R.RST_STAT_CAUSE + 2 ^ 12 * d.get R.CFG_BOOT_FALLBACK
  else 1 + 2 ^ 8 * (d.sup.cause % 16)

/-- Words of an `NVM_ACCESS` region: the boot copies, slot A, slot B. -/
def nvmWords (region : Nat) : Nat := if region = 0 then 1835008 else if region = 3 then 0 else 100663296

/-- Whether an `NVM_ACCESS` operation is taken (R645). -/
def Dev.nvmAllowed (d : Dev) (region offset : Nat) : Bool :=
  d.sup.phase = .held && d.sup.resetLow && d.life.stored != 5 && decide (offset < nvmWords region)

/-- The words of a region, and the flash with them replaced. -/
def Nvm.region (v : Nvm) (r : Nat) : Sparse Word := if r = 0 then v.boot else v.slot (r - 1)
def Nvm.setRegion (v : Nvm) (r : Nat) (ws : Sparse Word) : Nvm := if r = 0 then { v with boot := ws } else v.setSlot (r - 1) ws

/-- A refused operation. -/
def Dev.nvmRefuse (d : Dev) : Dev := { d with sup := { d.sup with nvmStatus := 2 } }

/-- NVM_READ. -/
def Dev.nvmRead (region offset : Nat) (d : Dev) : Dev :=
  let d := d.setIr 0x21 0
  if !d.nvmAllowed region offset then d.nvmRefuse
  else { d with sup := { d.sup with nvmData := ((d.nvm.region region).find offset).getD 0, nvmStatus := 0 } }

/-- A program or an erase begun, busy until it is done. -/
def Dev.nvmBegin (d : Dev) (op : NvmOp) (ws : Sparse Word) : Dev :=
  { d with nvm := d.nvm.setRegion op.region ws, sup := { d.sup with nvmStatus := 1, nvmOp := some op, session := true } }

/-- The life-cycle records after a program or an erase: the first of a session raises `JTAG_WRITES` (R611, R645). -/
def Dev.lifeAtAccess (region offset : Nat) (d : Dev) : Life :=
  if !d.dark && d.nvmAllowed region offset && !d.sup.session then { d.life with jtagWrites := d.life.jtagWrites + 1 } else d.life

/-- NVM_PROGRAM: bits that are erased are set (log entry 17, DEDUCED). -/
def Dev.nvmProgram (region offset : Nat) (data : Word) (d : Dev) : Dev :=
  let d := d.setIr 0x21 0
  if !d.nvmAllowed region offset then d.nvmRefuse
  else
    let ws := d.nvm.region region
    d.nvmBegin ⟨2, region, offset, data⟩ (Sparse.put ws offset ((ws.find offset).getD 0 ||| data))

/-- NVM_ERASE: the 64 KiB block that holds the offset. -/
def Dev.nvmErase (region offset : Nat) (d : Dev) : Dev :=
  let d := d.setIr 0x21 0
  if !d.nvmAllowed region offset then d.nvmRefuse
  else
    let lo := offset / 8192 * 8192
    d.nvmBegin ⟨3, region, offset, 0⟩ (Sparse.clear (d.nvm.region region) lo (lo + 8192))

/-- NVM_ACCESS_DONE. -/
def Dev.nvmDone (d : Dev) : Dev :=
  if d.sup.nvmOp.isSome then { d with sup := { d.sup with nvmStatus := 0, nvmOp := none } } else d

/-! ### The commands -/

/-- VIN_CHANGE (R617); at or beyond the absolute maximum ratings no behaviour is defined (R648). -/
def execVinChange (millivolts : Int) (s : State) : Host.Outcome State Fault Refusal :=
  if 14000 ≤ millivolts ∨ millivolts ≤ -300 then .fault .absoluteMaximum else s.always (Dev.vinChange millivolts)

/-- POWER_FAIL (R618). -/
def execPowerFail (s : State) := s.always Dev.powerFail

/-- POWER_LIMIT (R619). -/
def execPowerLimit (limiting : Bool) (stretched : Nat) (s : State) :=
  s.clocked (·.sup.unlocked.contains 14) (Dev.powerLimit limiting stretched)

/-- PHASE_SHED (R620): the remaining phases carry the share of the one that is shed. -/
def execPhaseShed (_rail : Nat) (s : State) := s.live fun d => d.bump C.PWR_PHASE_SHED

/-- COMPUTE_SUPPLY_FAULT (R621). -/
def execComputeSupplyFault (s : State) := s.always Dev.supplyFault

/-- DRAM_RAIL_FAULT (R622). -/
def execDramRailFault (tier : Fin 4) (s : State) := s.always (Dev.powered (Dev.railFault tier.val))

/-- DRAM_RAIL_RETURN (R622). -/
def execDramRailReturn (tier : Fin 4) (s : State) := s.always (Dev.powered (Dev.railReturn tier.val))

/-- THERMAL_SHUTDOWN (R623). -/
def execThermalShutdown (temps : List TempReading) (s : State) := s.always (Dev.thermal temps)

/-- PLL_UNLOCK (R626). -/
def execPllUnlock (domain : Fin 18) (s : State) := s.live (Dev.pllUnlock domain.val)

/-- PLL_RELOCK (R626). -/
def execPllRelock (domain : Fin 18) (s : State) := s.live (Dev.pllRelock domain.val)

/-- DROOP (R627). -/
def execDroop (_region : Fin 28) (cycles : Nat) (s : State) := s.live (Dev.droop cycles)

/-- RESET_N_ASSERT (R631). -/
def execResetNAssert (s : State) := s.always Dev.resetAssert

/-- RESET_N_RELEASE (R631). -/
def execResetNRelease (s : State) := s.always Dev.resetRelease

/-- PPS_OUT_PULSE (R642). -/
def execPpsOutPulse (s : State) := s.live Dev.ppsOut

/-- EXTEST: the cells drive the lands (R644). -/
def execExtest (cells : BitVec 8) (s : State) := s.always (Dev.powered fun d => (d.setIr 0x00 1).boundary_ cells.toNat)

/-- IDCODE (Table 17.7). -/
def execIdcode (s : State) :=
  s.always (Dev.powered fun d => (d.setIr 0x01 0).shiftOut (2 ^ 28 * (Config.stepping.toNat % 16) + 0x160056D))

/-- SAMPLE/PRELOAD (Table 17.7). -/
def execSamplePreload (cells : BitVec 8) (s : State) := s.always (Dev.powered fun d => (d.setIr 0x02 0).boundary_ cells.toNat)

/-- CLAMP: the cells hold the lands, bypass is selected. -/
def execClamp (s : State) := s.always (Dev.powered fun d => d.setIr 0x03 1)

/-- HIGHZ: the lands float, bypass is selected. -/
def execHighz (s : State) := s.always (Dev.powered fun d => d.setIr 0x04 2)

/-- BYPASS, or a code that Table 17.7 does not list. -/
def execBypass (code : Byte) (s : State) :=
  s.always (Dev.powered fun d => if [0x00, 0x01, 0x02, 0x03, 0x04, 0x20, 0x21].contains code.toNat then d else d.setIr code.toNat 0)

/-- STAGE_READ (R636). -/
def execStageRead (s : State) := s.always (Dev.powered fun d => (d.setIr 0x20 0).shiftOut d.stageWord)

/-- NVM_READ (R645). -/
def execNvmRead (region : BitVec 2) (offset : BitVec 27) (s : State) :=
  s.always (Dev.powered (Dev.nvmRead region.toNat offset.toNat))

/-- NVM_PROGRAM (R645). -/
def execNvmProgram (region : BitVec 2) (offset : BitVec 27) (data : Word) (s : State) :=
  s.alwaysLife (Dev.powered (Dev.nvmProgram region.toNat offset.toNat data)) (Dev.lifeAtAccess region.toNat offset.toNat)

/-- NVM_ERASE (R645). -/
def execNvmErase (region : BitVec 2) (offset : BitVec 27) (s : State) :=
  s.alwaysLife (Dev.powered (Dev.nvmErase region.toNat offset.toNat)) (Dev.lifeAtAccess region.toNat offset.toNat)

/-- NVM_ACCESS_DONE (R645). -/
def execNvmAccessDone (s : State) := s.always (Dev.powered Dev.nvmDone)

/-- TRST_N_ASSERT: Test-Logic-Reset, in which IDCODE is the instruction (IEEE 1149.1, log entry 25, PRESUMED). -/
def execTrstNAssert (s : State) := s.always (Dev.powered fun d => d.setIr 0x01 0)

end Sys2Proof.Machine
end

