-- ==== Sys2Proof/Machine/Dispatch.lean ====
section
/-! DEFINITION. Which meaning each command has: one arm per row of the table, in the table's order. -/

namespace Sys2Proof.Machine

/-- A command's effect on everything but the queue. -/
def exec (i : Instr) (s : State) : Host.Outcome State Fault Refusal :=
  match i with
  -- port (02_port_and_frames.md)
  | .receiveFrame sp bytes uncorrectable corrected => Sys2Proof.Machine.execReceiveFrame sp bytes uncorrectable corrected s
  | .pauseFrameReceive => Sys2Proof.Machine.execPauseFrameReceive s
  | .pauseWindowEnd => Sys2Proof.Machine.execPauseWindowEnd s
  | .pauseRepeat => Sys2Proof.Machine.execPauseRepeat s
  | .txFcDisable value => Sys2Proof.Machine.execTxFcDisable value s
  | .ptpDelayReqSend => Sys2Proof.Machine.execPtpDelayReqSend s
  | .portLaneFail lane => Sys2Proof.Machine.execPortLaneFail lane s
  | .trainingViolation lane => Sys2Proof.Machine.execTrainingViolation lane s
  | .subportModeWrite n value => Sys2Proof.Machine.execSubportModeWrite n value s
  | .packetRelease id => Sys2Proof.Machine.execPacketRelease id s
  | .packetTransmit sp => Sys2Proof.Machine.execPacketTransmit sp s
  | .recordFrameTransmit => Sys2Proof.Machine.execRecordFrameTransmit s
  -- Prism (03_prism_parse_graph.md)
  | .parsePassEnter => Sys2Proof.Machine.execParsePassEnter s
  | .parsePassEnd => Sys2Proof.Machine.execParsePassEnd s
  | .searchResult bad => Sys2Proof.Machine.execSearchResult bad s
  | .recircWithdrawn => Sys2Proof.Machine.execRecircWithdrawn s
  -- rule memory (04_rule_memory.md)
  | .ruleScrub bad => Sys2Proof.Machine.execRuleScrub bad s
  | .parityRewrite position => Sys2Proof.Machine.execParityRewrite position s
  | .ruleStage payload => Sys2Proof.Machine.execRuleStage payload s
  | .copySweepEnd => Sys2Proof.Machine.execCopySweepEnd s
  | .ruleCommit payload => Sys2Proof.Machine.execRuleCommit payload s
  | .ruleAbort payload => Sys2Proof.Machine.execRuleAbort payload s
  | .sweepEnd slot => Sys2Proof.Machine.execSweepEnd slot s
  -- flows (05_flows_and_features.md)
  | .bucketReadReturn bad => Sys2Proof.Machine.execBucketReadReturn bad s
  | .ageingSweepVisit table bucket => Sys2Proof.Machine.execAgeingSweepVisit table bucket s
  -- ticks and planner (01, 11)
  | .tickBoundary env => Sys2Proof.Machine.execTickBoundary env s
  | .tickSyncEdge env => Sys2Proof.Machine.execTickSyncEdge env s
  | .syncLost => Sys2Proof.Machine.execSyncLost s
  | .tickBlock link ops => Sys2Proof.Machine.execTickBlock link ops s
  | .tickPeriodWrite value => Sys2Proof.Machine.execTickPeriodWrite value s
  | .tierResultWritten slot tier raw => Sys2Proof.Machine.execTierResultWritten slot tier raw s
  | .admissionGroupTimeout => Sys2Proof.Machine.execAdmissionGroupTimeout s
  | .plannedEnd => Sys2Proof.Machine.execPlannedEnd s
  | .admissionGroupDecide => Sys2Proof.Machine.execAdmissionGroupDecide s
  | .learningAdmit phases => Sys2Proof.Machine.execLearningAdmit phases s
  | .slackRequest reqs => Sys2Proof.Machine.execSlackRequest reqs s
  | .decimHalve gap => Sys2Proof.Machine.execDecimHalve gap s
  | .energyRecalibrate telemetry => Sys2Proof.Machine.execEnergyRecalibrate telemetry s
  | .capRecompute spans => Sys2Proof.Machine.execCapRecompute spans s
  | .softStep temps => Sys2Proof.Machine.execSoftStep temps s
  | .budgetWrite value => Sys2Proof.Machine.execBudgetWrite value s
  | .throttleEnter temps => Sys2Proof.Machine.execThrottleEnter temps s
  -- Lens cores (06 to 08)
  | .tileIssue t bad => Sys2Proof.Machine.execTileIssue t bad s
  | .tileDone partition facet upsets cycles => Sys2Proof.Machine.execTileDone partition facet upsets cycles s
  | .outputSwap partition => Sys2Proof.Machine.execOutputSwap partition s
  | .gratingTileIssue t bad => Sys2Proof.Machine.execGratingTileIssue t bad s
  | .gratingTileDone grating upsets cycles => Sys2Proof.Machine.execGratingTileDone grating upsets cycles s
  | .moverOp op => Sys2Proof.Machine.execMoverOp op s
  | .moverComplete cluster bad => Sys2Proof.Machine.execMoverComplete cluster bad s
  | .elementwiseOp op bad => Sys2Proof.Machine.execElementwiseOp op bad s
  -- forest engines (09)
  | .forestSampleEnter model bad stallCycles => Sys2Proof.Machine.execForestSampleEnter model bad stallCycles s
  | .forestResult model => Sys2Proof.Machine.execForestResult model s
  | .forestScrub errors => Sys2Proof.Machine.execForestScrub errors s
  | .forestWordRewrite addr => Sys2Proof.Machine.execForestWordRewrite addr s
  | .shadowLoadDone model => Sys2Proof.Machine.execShadowLoadDone model s
  -- sequences and learning (10)
  | .stateReadEnd slot bad => Sys2Proof.Machine.execStateReadEnd slot bad s
  | .commitRequest model request => Sys2Proof.Machine.execCommitRequest model request s
  | .stateSweepEnd model => Sys2Proof.Machine.execStateSweepEnd model s
  | .modelStageOpen payload => Sys2Proof.Machine.execModelStageOpen payload s
  | .modelStageData payload => Sys2Proof.Machine.execModelStageData payload s
  | .modelStageClose payload => Sys2Proof.Machine.execModelStageClose payload s
  | .modelStageLoadDone => Sys2Proof.Machine.execModelStageLoadDone s
  | .modelStageAbort payload => Sys2Proof.Machine.execModelStageAbort payload s
  | .modelSwap payload => Sys2Proof.Machine.execModelSwap payload s
  -- `states` and `masters` are the step's writes of optimiser state and of master copies, held back until it completes (R333, R395)
  | .learningStepBegin model => Sys2Proof.Machine.execLearningStepBegin model s
  | .learningStepEnd model states masters => Sys2Proof.Machine.execLearningStepEnd model states masters s
  | .learningStepTimeout model => Sys2Proof.Machine.execLearningStepTimeout model s
  -- synchronisation and queues (12)
  | .counterSignal context v n engine => Sys2Proof.Machine.execCounterSignal context v n engine s
  | .counterWait context v n engine => Sys2Proof.Machine.execCounterWait context v n engine s
  | .tryTake context v n engine => Sys2Proof.Machine.execTryTake context v n engine s
  | .counterRead context v engine => Sys2Proof.Machine.execCounterRead context v engine s
  | .pinSet context core pin engine => Sys2Proof.Machine.execPinSet context core pin engine s
  | .pinClear context core pin engine => Sys2Proof.Machine.execPinClear context core pin engine s
  | .pinWait context core pin engine => Sys2Proof.Machine.execPinWait context core pin engine s
  | .pinTest context core pin engine => Sys2Proof.Machine.execPinTest context core pin engine s
  | .arrive network engine => Sys2Proof.Machine.execArrive network engine s
  | .boardBarrierHigh => Sys2Proof.Machine.execBoardBarrierHigh s
  | .watchdogFire context => Sys2Proof.Machine.execWatchdogFire context s
  | .restart context value => Sys2Proof.Machine.execRestart context value s
  | .counterValueWrite context v value => Sys2Proof.Machine.execCounterValueWrite context v value s
  | .queuePush push => Sys2Proof.Machine.execQueuePush push s
  | .queueRead queue engine => Sys2Proof.Machine.execQueueRead queue engine s
  | .queueTimeout queue => Sys2Proof.Machine.execQueueTimeout queue s
  | .clearNotice queue => Sys2Proof.Machine.execClearNotice queue s
  | .flush queue => Sys2Proof.Machine.execFlush queue s
  | .packetBoundaryFlush queue => Sys2Proof.Machine.execPacketBoundaryFlush queue s
  | .flushForced queue => Sys2Proof.Machine.execFlushForced queue s
  -- memory and fabric (13)
  | .remoteRequestIssue req => Sys2Proof.Machine.execRemoteRequestIssue req s
  | .load bad => Sys2Proof.Machine.execLoad bad s
  | .store => Sys2Proof.Machine.execStore s
  | .atomicAdd bad => Sys2Proof.Machine.execAtomicAdd bad s
  | .atomicCas bad => Sys2Proof.Machine.execAtomicCas bad s
  | .atomicMax bad => Sys2Proof.Machine.execAtomicMax bad s
  | .remoteSignal => Sys2Proof.Machine.execRemoteSignal s
  | .writeCommit src hall pseq bad => Sys2Proof.Machine.execWriteCommit src hall pseq bad s
  | .loadRsp => Sys2Proof.Machine.execLoadRsp s
  | .ack => Sys2Proof.Machine.execAck s
  | .atomicRsp => Sys2Proof.Machine.execAtomicRsp s
  | .nack => Sys2Proof.Machine.execNack s
  | .remoteTimeout dest hall pseq => Sys2Proof.Machine.execRemoteTimeout dest hall pseq s
  | .mirrorBlockReceive link block codewordBad => Sys2Proof.Machine.execMirrorBlockReceive link block codewordBad s
  | .replayRequest link seq => Sys2Proof.Machine.execReplayRequest link seq s
  | .replayTimeout link => Sys2Proof.Machine.execReplayTimeout link s
  | .idBlock link device peerLink roundTripNs => Sys2Proof.Machine.execIdBlock link device peerLink roundTripNs s
  | .peerSilent link => Sys2Proof.Machine.execPeerSilent link s
  | .mirrorLaneFail link lane => Sys2Proof.Machine.execMirrorLaneFail link lane s
  | .hallFrameReceive => Sys2Proof.Machine.execHallFrameReceive s
  | .hallRetransmit dest frameSeq => Sys2Proof.Machine.execHallRetransmit dest frameSeq s
  | .patrolScrub errors => Sys2Proof.Machine.execPatrolScrub errors s
  | .refreshDouble tier temps => Sys2Proof.Machine.execRefreshDouble tier temps s
  -- Loupe (14)
  | .epoch => Sys2Proof.Machine.execEpoch s
  | .sampleCapture => Sys2Proof.Machine.execSampleCapture s
  | .watchFire watch => Sys2Proof.Machine.execWatchFire watch s
  | .regionStop region gated => Sys2Proof.Machine.execRegionStop region gated s
  | .regionResumed region => Sys2Proof.Machine.execRegionResumed region s
  | .ppsInEdge => Sys2Proof.Machine.execPpsInEdge s
  | .holdover => Sys2Proof.Machine.execHoldover s
  | .timeSet value => Sys2Proof.Machine.execTimeSet value s
  | .healthEntry event object => Sys2Proof.Machine.execHealthEntry event object s
  | .lifeBatchClose => Sys2Proof.Machine.execLifeBatchClose s
  | .standingCopyWriteDone => Sys2Proof.Machine.execStandingCopyWriteDone s
  | .exportFrameSend stream => Sys2Proof.Machine.execExportFrameSend stream s
  | .tracePull payload => Sys2Proof.Machine.execTracePull payload s
  | .counterPull payload => Sys2Proof.Machine.execCounterPull payload s
  | .stepMode payload => Sys2Proof.Machine.execStepMode payload s
  | .stepCommand payload => Sys2Proof.Machine.execStepCommand payload s
  -- `ended`, `blocked` and `lastCmd` are of the stepped programs' commands that no other command of this list shows (log entry 47)
  | .stepDone context ended blocked lastCmd done => Sys2Proof.Machine.execStepDone context ended blocked lastCmd done s
  -- configuration and control (15)
  | .controlRequestReceive => Sys2Proof.Machine.execControlRequestReceive s
  | .read addr => Sys2Proof.Machine.execRead addr s
  | .write addr value => Sys2Proof.Machine.execWrite addr value s
  | .readBlock addr n => Sys2Proof.Machine.execReadBlock addr n s
  | .writeBlock addr values => Sys2Proof.Machine.execWriteBlock addr values s
  | .registerWrite addr value => Sys2Proof.Machine.execRegisterWrite addr value s
  | .journalPull payload => Sys2Proof.Machine.execJournalPull payload s
  | .reset payload => Sys2Proof.Machine.execReset payload s
  | .slotWinWrite offset value => Sys2Proof.Machine.execSlotWinWrite offset value s
  | .slotErase slot => Sys2Proof.Machine.execSlotErase slot s
  | .slotVerify slot => Sys2Proof.Machine.execSlotVerify slot s
  | .slotOpDone => Sys2Proof.Machine.execSlotOpDone s
  | .preferWrite value => Sys2Proof.Machine.execPreferWrite value s
  | .tokenRefill => Sys2Proof.Machine.execTokenRefill s
  | .summary => Sys2Proof.Machine.execSummary s
  | .journalBatchClose => Sys2Proof.Machine.execJournalBatchClose s
  -- security and life cycle (16)
  | .quote nonce => Sys2Proof.Machine.execQuote nonce s
  | .fetch offset quoteSeq => Sys2Proof.Machine.execFetch offset quoteSeq s
  | .cert item => Sys2Proof.Machine.execCert item s
  | .challenge => Sys2Proof.Machine.execChallenge s
  | .transition target auth token => Sys2Proof.Machine.execTransition target auth token s
  | .rekey keys auth token => Sys2Proof.Machine.execRekey keys auth token s
  | .challengeLapse => Sys2Proof.Machine.execChallengeLapse s
  | .endorseWrite values => Sys2Proof.Machine.execEndorseWrite values s
  -- supply, clocks, reset, package (17)
  | .startUp env => Sys2Proof.Machine.execStartUp env s
  | .vinChange millivolts => Sys2Proof.Machine.execVinChange millivolts s
  | .powerFail => Sys2Proof.Machine.execPowerFail s
  | .powerLimit limiting stretched => Sys2Proof.Machine.execPowerLimit limiting stretched s
  | .phaseShed rail => Sys2Proof.Machine.execPhaseShed rail s
  | .computeSupplyFault => Sys2Proof.Machine.execComputeSupplyFault s
  | .dramRailFault tier => Sys2Proof.Machine.execDramRailFault tier s
  | .thermalShutdown temps => Sys2Proof.Machine.execThermalShutdown temps s
  | .pllUnlock domain => Sys2Proof.Machine.execPllUnlock domain s
  | .pllRelock domain => Sys2Proof.Machine.execPllRelock domain s
  | .droop region cycles => Sys2Proof.Machine.execDroop region cycles s
  | .resetNAssert => Sys2Proof.Machine.execResetNAssert s
  | .resetNRelease => Sys2Proof.Machine.execResetNRelease s
  | .ppsOutPulse => Sys2Proof.Machine.execPpsOutPulse s
  | .clkOutWrite value => Sys2Proof.Machine.execClkOutWrite value s
  | .extest cells => Sys2Proof.Machine.execExtest cells s
  | .idcode => Sys2Proof.Machine.execIdcode s
  | .samplePreload cells => Sys2Proof.Machine.execSamplePreload cells s
  | .clamp => Sys2Proof.Machine.execClamp s
  | .highz => Sys2Proof.Machine.execHighz s
  | .bypass code => Sys2Proof.Machine.execBypass code s
  | .stageRead => Sys2Proof.Machine.execStageRead s
  | .nvmRead region offset => Sys2Proof.Machine.execNvmRead region offset s
  | .nvmProgram region offset data => Sys2Proof.Machine.execNvmProgram region offset data s
  | .nvmErase region offset => Sys2Proof.Machine.execNvmErase region offset s
  | .trstNAssert => Sys2Proof.Machine.execTrstNAssert s
  -- rows added at the table's end
  | .pauseQuantaExpiry sp cls => Sys2Proof.Machine.execPauseQuantaExpiry sp cls s
  | .pauseCeilingReached sp cls => Sys2Proof.Machine.execPauseCeilingReached sp cls s
  | .subportLinkUp sp => Sys2Proof.Machine.execSubportLinkUp sp s
  | .subportGoesDown sp => Sys2Proof.Machine.execSubportGoesDown sp s
  | .mirrorRetrainAttempt link trained => Sys2Proof.Machine.execMirrorRetrainAttempt link trained s
  | .dramRailReturn tier => Sys2Proof.Machine.execDramRailReturn tier s
  | .watchReadEnd watch => Sys2Proof.Machine.execWatchReadEnd watch s
  | .nvmAccessDone => Sys2Proof.Machine.execNvmAccessDone s
  | .dailyLifeEntries measures => Sys2Proof.Machine.execDailyLifeEntries measures s
  | .retentionScan margins => Sys2Proof.Machine.execRetentionScan margins s

end Sys2Proof.Machine
end

