-- ==== Sys2Proof/Safety.lean ====
section
/-! DEFINITION. The terms in which claims are stated: a running device, a command that completes, what a command leaves as it
was, and what a legal history of life-cycle records is (Table 16.7, Table 16.13). -/

namespace Sys2Proof

/-- The commands that act on a device that does not run: the start-up, the supply, the reset line, the JTAG port. -/
def Instr.actsStopped : Instr → Bool
  | .startUp _ | .vinChange _ | .powerFail | .computeSupplyFault | .thermalShutdown _ | .resetNAssert | .resetNRelease
  | .extest _ | .idcode | .samplePreload _ | .clamp | .highz | .bypass _ | .stageRead | .nvmRead _ _ | .nvmProgram _ _ _
  | .nvmErase _ _ | .nvmAccessDone | .trstNAssert => true
  | _ => false

/-- Whether the clock that a command's unit runs on has stopped, the domain without its PLL (R519, R626). The supply, the pins, the lines and
the events that stop or restart a region have no such clock. -/
def Instr.halted (c : Instr) (d : Machine.Dev) : Bool :=
  match c with
  | .receiveFrame .. | .pauseFrameReceive .. | .pauseWindowEnd .. | .pauseRepeat .. | .ptpDelayReqSend .. | .packetTransmit .. |
    .recordFrameTransmit .. | .pauseQuantaExpiry .. | .pauseCeilingReached .. | .subportLinkUp .. | .subportGoesDown ..
    => d.regionStopped 18
  | .txFcDisable .. | .subportModeWrite .. | .ruleStage .. | .ruleCommit .. | .ruleAbort .. | .tickPeriodWrite .. | .budgetWrite .. |
    .modelStageOpen .. | .modelStageData .. | .modelStageClose .. | .modelStageLoadDone .. | .modelStageAbort .. | .modelSwap .. |
    .restart .. | .counterValueWrite .. | .timeSet .. | .lifeBatchClose .. | .tracePull .. | .counterPull .. | .stepMode .. |
    .stepCommand .. | .controlRequestReceive .. | .read .. | .write .. | .readBlock .. | .writeBlock .. | .registerWrite .. |
    .journalPull .. | .reset .. | .slotWinWrite .. | .slotErase .. | .slotVerify .. | .preferWrite .. | .tokenRefill .. | .summary .. |
    .journalBatchClose .. | .endorseWrite .. | .clkOutWrite .. | .dailyLifeEntries .. | .retentionScan .. => d.regionStopped 21
  | .packetRelease .. | .tierResultWritten .. | .admissionGroupTimeout .. | .plannedEnd .. | .admissionGroupDecide .. |
    .learningAdmit .. | .slackRequest .. | .decimHalve .. | .energyRecalibrate .. | .capRecompute .. | .softStep .. |
    .throttleEnter .. | .learningStepBegin .. | .learningStepEnd .. | .learningStepTimeout .. | .counterSignal .. | .counterWait .. |
    .tryTake .. | .counterRead .. | .pinSet .. | .pinClear .. | .pinWait .. | .pinTest .. | .arrive .. | .boardBarrierHigh .. |
    .watchdogFire .. | .queuePush .. | .queueRead .. | .queueTimeout .. | .clearNotice .. | .flush .. | .packetBoundaryFlush .. |
    .flushForced .. | .remoteRequestIssue .. | .load .. | .store .. | .atomicAdd .. | .atomicCas .. | .atomicMax .. | .remoteSignal .. |
    .writeCommit .. | .loadRsp .. | .ack .. | .atomicRsp .. | .nack .. | .remoteTimeout .. | .hallFrameReceive .. | .hallRetransmit ..
    => d.regionStopped 20
  | .parsePassEnter .. | .parsePassEnd .. | .searchResult .. | .recircWithdrawn .. | .ruleScrub .. | .parityRewrite .. |
    .copySweepEnd .. | .sweepEnd .. | .bucketReadReturn .. | .ageingSweepVisit .. | .stateReadEnd .. | .commitRequest .. |
    .stateSweepEnd .. => d.regionStopped 17
  | .tickBlock .. | .mirrorBlockReceive .. | .replayRequest .. | .replayTimeout .. | .idBlock .. | .peerSilent .. | .mirrorLaneFail .. |
    .mirrorRetrainAttempt .. => d.regionStopped 19
  | .forestSampleEnter .. | .forestResult .. | .forestScrub .. | .forestWordRewrite .. | .shadowLoadDone .. => d.regionStopped 16
  | .patrolScrub .. => d.regionStopped 24
  | .sampleCapture .. | .watchFire .. | .healthEntry .. | .exportFrameSend .. | .stepDone .. | .watchReadEnd .. => d.regionStopped 23
  | .standingCopyWriteDone .. | .slotOpDone .. => d.nvmStopped
  | .quote .. | .fetch .. | .cert .. | .challenge .. | .transition .. | .rekey .. | .challengeLapse .. => d.secStopped
  | .powerLimit .. => d.sup.unlocked.contains 14
  | .tileIssue t _ | .gratingTileIssue t _ => d.tileStopped t
  | .tileDone _ facet _ _ => d.clusterStopped (facet / 64)
  | .gratingTileDone grating _ _ => d.clusterStopped grating.val
  | .outputSwap partition => d.clusterStopped (Machine.clusterOf partition)
  | .elementwiseOp op _ => d.clusterStopped (op.core.val / 16)
  | .moverOp op => d.clusterStopped op.cluster.val
  | .moverComplete cluster _ => d.clusterStopped cluster.val
  | .refreshDouble tier _ => d.regionStopped (24 + tier.val)
  | _ => false

end Sys2Proof

namespace Sys2Proof.Machine

/-- The device runs: its start-up has ended and nothing has shut it down. -/
abbrev State.Running (s : State) : Prop := s.dev.sup.phase = .running

/-- The device runs, with the clock of a region of Table 14.1. -/
abbrev State.RunsIn (s : State) (r : Nat) : Prop := s.Running ∧ s.dev.regionStopped r = false

/-- A command completes: it answers a next state, with the same commands waiting, whose device is as `post` says. -/
def Completes (c : Instr) (s : State) (post : Dev → Prop) : Prop :=
  ∃ t, exec c s = .next t ∧ t.pending = s.pending ∧ post t.dev

/-- Every register word but those named reads as it did. -/
def Dev.KeepsWords (d e : Dev) (but : List Nat) : Prop := ∀ a, a ∉ but → e.word a = d.word a

/-- Every byte of the shared memory and of the core memories reads as it did. -/
def Dev.KeepsMemory (d e : Dev) : Prop :=
  (∀ a, Memory.byte e.fab.mem a = Memory.byte d.fab.mem a) ∧ ∀ a, Memory.byte e.fab.core a = Memory.byte d.fab.core a

/-- The parts of a device beside its register words and its memories. -/
inductive Part where
  /-- The time base. -/
  | time
  | port | front | plan | lens | seq | sync
  /-- The fabric, apart from the memories. -/
  | fab
  | lpe | ctl | jrn | nvm | life | sec | sup
  deriving DecidableEq, Repr

/-- One part of a device is as it was. -/
def Part.Same (d e : Dev) : Part → Prop
  | .time => e.ns = d.ns ∧ e.frac = d.frac
  | .port => e.port = d.port
  | .front => e.front = d.front
  | .plan => e.plan = d.plan
  | .lens => e.lens = d.lens
  | .seq => e.seq = d.seq
  | .sync => e.sync = d.sync
  | .fab => { e.fab with mem := [], core := [] } = { d.fab with mem := [], core := [] }
  | .lpe => e.lpe = d.lpe
  | .ctl => e.ctl = d.ctl
  | .jrn => e.jrn = d.jrn
  | .nvm => e.nvm = d.nvm
  | .life => e.life = d.life
  | .sec => e.sec = d.sec
  | .sup => e.sup = d.sup

/-- Every part but those named is as it was. -/
def Dev.KeepsParts (d e : Dev) (but : List Part) : Prop := ∀ p, p ∉ but → p.Same d e

/-- The words that a change of the inline buffer's occupancy may move: its peak, and the counters of the pauses sent (R68). -/
def flowWords : List Nat :=
  R.PORT_INLINE_BUF_PEAK_KIB.addr :: (List.range 8).flatMap fun sp => [C.PORT_TX_PAUSE sp, C.PORT_TX_FRAMES sp, C.PORT_TX_BYTES sp]

/-- The words that a PTP message received on a sub-port may move (R62, R515). -/
def ptpWords (sp : Nat) : List Nat :=
  [C.PORT_PTP_RX sp, C.LPE_TIME_STEPS, R.LPE_TIME_STAT_LOCKED.addr, R.LPE_TIME_STAT_OFFSET_NS.addr, R.LPE_TIME_STAT_ADJ_PPB.addr]

/-- The words that the device's own frames, leaving on a sub-port, may move (R64, R77). -/
def ownWords (sp : Nat) : List Nat := [C.PORT_TX_FRAMES sp, C.PORT_TX_BYTES sp, C.JRN_EXPORT_FRAMES, C.LPE_EXPORT_FRAMES]

/-- The word of a sub-port's state and those of its lanes. -/
def Dev.linkWords (d : Dev) (sp : Nat) : List Nat :=
  (R.PORT_SUBPORT_STAT_LINK_UP sp).addr :: (d.lanesOf sp).map fun l => (R.PORT_LANE_STAT_TRAINED l).addr

/-- The words of a unit's registers and counters: of a Facet (Tables 6.17 and 6.18) or, from 1,024 on, a Grating (Table 6.19). -/
def unitWords (u : Nat) : List Nat :=
  (List.range 32).map fun w => 8 * w
    + if 1024 ≤ u then 0x600000000 + 0x100 * ((u - 1024) % 16)
      else 0x500010000 + 0x1000000 * (u / 64 % 16) + 0x1000 * (u / 4 % 16) + 0x100 * (u % 4)

/-- The words of a Lens core, numbered 0 to 255, beside its Facets'. -/
def coreWords (c : Nat) : List Nat := (List.range 32).map fun w => 0x500010400 + 0x1000000 * (c / 16) + 0x1000 * (c % 16) + 8 * w

/-- The words of a cluster beside its Lens cores'. -/
def clusterWords (c : Nat) : List Nat := (List.range 32).map fun w => 0x500000000 + 0x1000000 * c + 8 * w

/-- The counters of the command that an engine shows (Table 14.5). -/
def engineWords (engine : Nat) : List Nat := (List.range 4).map (cmdCtr engine)

/-- The words that a tile may move: those of its units and of the Facets that freeze with it, its Lens cores and cluster, its command, the
products of its weights' format. -/
def tileWords (t : Tile) (engine wgtFmt : Nat) : List Nat :=
  (t.units ++ t.frozenUnits).flatMap unitWords ++ (t.facets.map (· / 4)).flatMap coreWords ++ clusterWords t.region ++ engineWords engine
    ++ [C.LNS_MACS_BY_FMT wgtFmt]

/-- Everything but the registers is as it was. -/
def Dev.OnlyRegs (d e : Dev) : Prop := e = { d with regs := e.regs }

/-- A counter that has counted `n` more (R7). -/
def Dev.Counts (d e : Dev) (a n : Nat) : Prop := e.word a = (d.word a + n) % 2 ^ 64

/-- What is put on a Mirror link in a class leaves at once: the link is up, holds a credit of the class, nothing waits (R491). -/
structure Dev.LinkReady (d : Dev) (l cls : Nat) : Prop where
  /-- One of the four links. -/
  links : d.fab.links.length = 4
  /-- Its number. -/
  number : l < 4
  /-- It is up. -/
  up : d.linkUp l = true
  /-- Nothing waits for a credit. -/
  idle : (d.link l).waiting = []
  /-- A credit of the class is held. -/
  credit : (d.link l).credit cls ≠ 0

/-- One more block has left on a link: `TYPE` and `CLASS`, and its 240 operation bytes, as Table 13.3 has them. -/
def Dev.SendsBlock (d e : Dev) (l type cls : Nat) (ops : List Byte) : Prop :=
  ∃ b, e.port.sent = d.port.sent ++ [Sent.block l b] ∧ b.length = 256 ∧ beAt b 0 1 = type + 16 * cls ∧ b.drop 16 = padTo 240 ops

/-- The span's bytes can be written: in one region of the map, in no retired channel and no held tier, in no granule whose code is bad and in
no `STATIC` entry (R201, R473, R478, R483, R622). -/
def Dev.Writable (d : Dev) (a n : Nat) : Prop :=
  n ≠ 0 ∧ d.mapped a n = true ∧ ∀ g ∈ granules a n,
    d.inRetired (64 * g) = false ∧ d.inHeldTier (64 * g) = false ∧ d.granuleBad g = false ∧ d.staticEntity g = false

/-- Every byte of the shared memory outside a span, and every byte of the core memories, reads as it did. -/
def Dev.KeepsMemoryBut (d e : Dev) (a n : Nat) : Prop :=
  (∀ i, i < a ∨ a + n ≤ i → Memory.byte e.fab.mem i = Memory.byte d.fab.mem i)
    ∧ ∀ i, Memory.byte e.fab.core i = Memory.byte d.fab.core i

/-- The device's own frames that waited on a sub-port, which is up, have left it in their order, and nothing else has (R64, R65). -/
def Dev.OwnLeft (d e : Dev) (sp : Nat) : Prop :=
  e.ownQueue sp = []
    ∧ e.port.sent = d.port.sent ++ (d.ownQueue sp).map fun f => Sent.frame sp (padTo (max 60 f.bytes.length) f.bytes)

/-- A frame of the device's own, made for a sub-port that is up: it waits behind those that wait while `OWN_CLASS` is held there, else
they and it leave in their order (R64, R65). -/
def Dev.SendsOwn (d e : Dev) (sp : Nat) (frame : List Byte) : Prop :=
  let wait := (d.ownQueue sp).map (·.bytes) ++ [frame]
  if d.classPaused sp (d.get R.PORT_CFG_OWN_CLASS) then e.port.sent = d.port.sent ∧ (e.ownQueue sp).map (·.bytes) = wait
  else e.ownQueue sp = [] ∧ e.port.sent = d.port.sent ++ wait.map fun f => Sent.frame sp (padTo (max 60 f.length) f)

/-! ### Requests and their answers (R570 to R575, R581) -/

/-- It is the turn of a request with an opcode, an address (for the register accesses, `0x01` to `0x04`) and a payload: it is the oldest of
the queue and has not begun, or none is queued, when the command stands for a request whose frame the model does not see (log entry 5). `QUEUE_OCC` shows the places held (R574). -/
def Dev.Turn (d : Dev) (opcode addr : Nat) (payload : List Byte) : Prop :=
  d.ctl.queue = [] ∨ ∃ r rest, d.ctl.queue = r :: rest ∧ r.begun = false ∧ r.opcode = opcode ∧ (4 < opcode ∨ r.addr = addr)
    ∧ r.payload = payload ∧ r.sp < 8 ∧ d.get R.CFG_CTL_CFG_QUEUE_OCC = (r :: rest).length

/-- The words that a journal entry may move, the batch that it closes among them (R581 to R585, R594). -/
def journalWords : List Nat :=
  [R.JRN_STAT_NEXT_JSEQ.addr, R.JRN_STAT_LAST_BATCH.addr, R.JRN_STAT_HEAD.addr, R.JRN_STAT_OLDEST.addr, (R.JRN_ROOT_ROOT 0).addr,
   (R.JRN_ROOT_ROOT 1).addr, (R.JRN_ROOT_ROOT 2).addr, (R.JRN_ROOT_ROOT 3).addr, C.JRN_ENTRIES, C.JRN_BATCHES, C.JRN_EXPORT_SKIPPED,
   (R.SEC_KEY_RESERVED_TO 2).addr, (R.SEC_KEY_NEXT 2).addr, C.SEC_SIGNATURES, R.SEC_STAT_JRN_UNSIGNED.addr]
    ++ (List.range 8).flatMap ownWords

/-- The words that the answer of the oldest request may move beside its effect: none where none is queued. -/
def Dev.answerWords (d : Dev) : List Nat :=
  if d.ctl.queue = [] then []
  else [R.CFG_CTL_CFG_QUEUE_OCC.addr, C.CFG_CTL_OK, C.CFG_CTL_REFUSED] ++ (List.range 8).map C.PORT_CTL_MALFORMED ++ journalWords

/-- The parts that the answer of a request may move. -/
def Dev.answerParts (d : Dev) : List Part := if d.ctl.queue = [] then [.ctl] else [.ctl, .port, .lpe, .jrn, .nvm]

/-- The flash but for the journal and the keys' records. -/
def Nvm.apart (n : Nvm) : Nvm :=
  { n with journal := [], keys := [], nextJseq := 0, lastBatch := 0, jrnHead := 0, jrnOldest := 0, jrnRoot := [], prevHdr := [],
           marker := none }

/-- A request has been answered, and with it the oldest of the queue, which frees its place: its source's entry holds the status (R571,
R574). -/
def Dev.Answered (d e : Dev) (status : Nat) (payload : List Byte) : Prop :=
  e.ctl.last = (status, payload) ∧ e.ctl.queue = d.ctl.queue.drop 1
    ∧ ∀ r ∈ d.ctl.queue.head?, ∀ x ∈ d.ctl.seqs, x.mac = r.sa → x.last = r.seq → { x with status := some status } ∈ e.ctl.seqs

/-- What a request that changes no register, no memory and no flash slot leaves: all but its answer. -/
def Dev.OnlyAnswer (d e : Dev) (status : Nat) (payload : List Byte) : Prop :=
  d.Answered e status payload ∧ d.KeepsWords e d.answerWords ∧ d.KeepsParts e d.answerParts ∧ d.KeepsMemory e
    ∧ e.nvm.apart = d.nvm.apart

/-! ### Loupe's rings and the life cycle -/

/-- An address of the trace ring (R541). -/
def Dev.InTraceRing (d : Dev) (a : Nat) : Prop :=
  d.get R.LPE_RING_TRACE_BASE ≤ a ∧ a < d.get R.LPE_RING_TRACE_BASE + d.get R.LPE_RING_TRACE_SIZE_MIB * 2 ^ 20

/-- An address of the counter ring (R541). -/
def Dev.InCounterRing (d : Dev) (a : Nat) : Prop :=
  d.get R.LPE_RING_COUNTER_BASE ≤ a ∧ a < d.get R.LPE_RING_COUNTER_BASE + d.get R.LPE_RING_COUNTER_SIZE_MIB * 2 ^ 20

/-- Loupe has nothing staged and no drop to tell, and neither a granule's code nor a held tier brings an error to an access: what a command
then traces moves Loupe's own words and rings and no others. -/
def Dev.LoupeQuiet (d : Dev) : Prop :=
  d.lpe.staging = [] ∧ (∀ n ∈ d.lpe.lost, n = 0) ∧ d.fab.poison = [] ∧ d.sup.heldTiers = []

/-- The words that Loupe's reads and writes of the shared memory may move while it is quiet (R473, R480, R483). -/
def accessWords : List Nat := [C.MEM_UNMAPPED, C.MEM_RETIRED_WRITES, C.MEM_POISON_READS]

/-- The words that records traced and bytes written to Loupe's rings may move (R528, R540 to R543). -/
def ringWords : List Nat :=
  [R.LPE_RING_TRACE_HEAD.addr, R.LPE_RING_TRACE_OLDEST.addr, R.LPE_RING_COUNTER_HEAD.addr, R.LPE_RING_COUNTER_OLDEST.addr,
   C.LPE_RECORDS, C.LPE_TRACE_DENIED, R.LPE_STAT_DROPPING.addr] ++ accessWords
    ++ (List.range 5).map (fun k => C.LPE_DROPPED_CMD + 8 * k) ++ (List.range 64).map fun w => (R.LPE_WATCH_REPORTS w).addr

/-- The words that a batch of the life record may move (R540, R550, R594). -/
def lifeWords : List Nat :=
  [C.LPE_LIFE_BATCHES, C.LPE_LIFE_ENTRIES, R.LPE_LIFE_STAT_LAST_SEQ.addr, (R.SEC_KEY_RESERVED_TO 2).addr, (R.SEC_KEY_NEXT 2).addr,
   C.SEC_SIGNATURES, R.SEC_STAT_JRN_UNSIGNED.addr, R.LPE_STAT_TRACE_STATUS.addr]

/-- Every staged trace record has its 32 bytes (R520). -/
def Dev.StagedWhole (d : Dev) : Prop := ∀ r ∈ d.lpe.staging, r.length = 32

/-- The device after a reset, in a phase and with a cause of Table 17.3: everything volatile is as at reset, but that the input's row shows
(R580, R617, R633). -/
structure Dev.Wiped (e : Dev) (phase : Phase) (cause : Nat) : Prop where
  /-- The registers. -/
  words : ∀ a, a ≠ R.PWR_STAT_VIN_HIGH.addr → e.word a = Dev.reset.word a
  /-- The input's row. -/
  row : e.get R.PWR_STAT_VIN_HIGH = b2n (e.sup.vinRow = 1) ∧ e.get R.PWR_STAT_VIN_LOW = b2n (e.sup.vinRow = 3)
    ∧ e.get R.PWR_STAT_VIN_EXCURSION = 0
  /-- The time base. -/
  time : e.ns = 0 ∧ e.frac = 0
  /-- The units. -/
  units : e.front = Front.reset ∧ e.plan = Plan.reset ∧ e.lens = Lens.reset ∧ e.seq = Seq.reset ∧ e.sync = Sync.reset
    ∧ e.fab = Fabric.reset ∧ e.lpe = Loupe.reset ∧ e.ctl = Ctl.reset ∧ e.jrn = Journal.reset ∧ e.sec = Sec.reset
  /-- Nothing waits in the Port. -/
  port : e.port = { Port.reset with sent := e.port.sent }
  /-- The phase, the cause, the clocks and the lines. -/
  supply : e.sup.phase = phase ∧ e.sup.cause = cause ∧ e.sup.unlocked = [] ∧ e.sup.startMs = 0 ∧ e.sup.skewNs = 0
    ∧ e.sup.ppsIn = none ∧ e.sup.barrierLow = true ∧ e.sup.ppsTakes = false

/-- The flash after the loss of supply, or a reset: the standing copy's write under way and the one behind it complete, the newest life-record
batch may be left incomplete while it is written, all else stays (R552, R553, R618). -/
structure Dev.KeepsFlash (d e : Dev) : Prop where
  /-- All but the standing copy and the torn batches. -/
  same : { e.nvm with standing := [], lifeTorn := [] } = { d.nvm with standing := [], lifeTorn := [] }
  /-- The standing copy. -/
  copy : e.nvm.standing = if d.lpe.copyBusy then
      (let data := if d.lpe.copyQueued then d.standingBlock else d.lpe.copyData; data ++ shake256 data) else d.nvm.standing
  /-- The batch under way. -/
  torn : e.nvm.lifeTorn = d.nvm.lifeTorn
    ∨ ∃ b, d.nvm.life.getLast? = some b ∧ d.clockNs < d.lpe.lifeWritten ∧ e.nvm.lifeTorn = d.nvm.lifeTorn ++ [b.pos]

/-- The transitions of Table 16.7: from, to. -/
def lifeMoves : List (Nat × Nat) := [(0, 1), (1, 2), (2, 3), (3, 2), (3, 4), (4, 5)]

/-- The transition records, newest first, of a device whose stored state is `to_` after `seq` transitions: each follows the one
before it, and each is a row of Table 16.7. The records kept are the newest 64, so the oldest kept may have any beginning. -/
def LcsRecord.chain : List LcsRecord → Nat → Nat → Prop
  | [], _, _ => True
  | r :: rest, to_, seq => r.to_ = to_ ∧ r.seq = seq ∧ (r.from_, r.to_) ∈ lifeMoves ∧ LcsRecord.chain rest r.from_ (seq - 1)

/-- The life-cycle records of a device that only legal transitions have moved. -/
structure Life.Legal (l : Life) : Prop where
  /-- The stored state is one of Table 16.6. -/
  stored : l.stored ≤ 5
  /-- `ERASE_PENDING` has three bits (Table 16.14). -/
  erase : l.erase < 8
  /-- `LCS_LOG` holds 64 records (Table 16.13), and every transition up to the 64th. -/
  log : l.log.length = min l.seq 64
  /-- A die that has made no transition is in MANUFACTURE. -/
  fresh : l.seq = 0 → l.stored = 0
  /-- The records follow one another. -/
  chain : LcsRecord.chain l.log l.stored l.seq

end Sys2Proof.Machine
end

