-- ==== Sys2Proof/Certificates/Slice0/Obligations.lean ====
section
/-! DEFINITION. The statements for the provers, family by family. -/

open Sys2Proof Sys2Proof.Machine

/-- A step takes the command that has waited longest and executes it, with the rest of the queue waiting. -/
def Obligations.StepRunsFrontCommand : Prop :=
  ∀ (s : State) (c : Instr) (rest : List Instr), s.pending = c :: rest → step s = exec c { s with pending := rest }

/-- R514's count of the time base, as the step on an empty queue: log entry 1 makes that step one cycle of `TIMEBASE`. The count
is exact: whole ns and fraction together rise by 10⁹ + `ADJ_PPB` units of 10⁻⁹ ns. -/
def Obligations.IdleCountsTimeBase : Prop :=
  ∀ s : State, s.pending = [] → ∃ t, step s = .next t ∧ t.pending = []
    ∧ (s.dev.sup.phase ≠ .running → t = s)
    ∧ (s.Running → s.dev.frac < 1000000000 → t.dev.frac < 1000000000
        ∧ ((t.dev.ns : Int) * 1000000000 + t.dev.frac
            = (s.dev.ns : Int) * 1000000000 + s.dev.frac + 1000000000 + toSigned 24 (s.dev.get R.LPE_TIME_STAT_ADJ_PPB))
        ∧ (s.dev.lpe.staging = [] → (∀ n ∈ s.dev.lpe.lost, n = 0) → s.dev.jrn.exportPos = s.dev.get R.JRN_STAT_HEAD →
            t.dev = { s.dev with ns := t.dev.ns, frac := t.dev.frac }))

/-- Executing a command leaves the queue as it was: commands come from outside only. -/
def Obligations.ExecKeepsQueue : Prop :=
  ∀ (c : Instr) (s t : State), exec c s = .next t → t.pending = s.pending

/-- Nothing stops the machine but `VIN_12V` at or beyond −0.3 V or 14.0 V (R648, Table 17.9).
Where the model chose: log entry 16. -/
def Obligations.OnlyRatingsStop : Prop :=
  (∀ (c : Instr) (s : State), (∀ mv, c = .vinChange mv → -300 < mv ∧ mv < 14000) → ∃ t, exec c s = .next t)
    ∧ ∀ (mv : Int) (s : State), 14000 ≤ mv ∨ mv ≤ -300 → exec (.vinChange mv) s = .fault .absoluteMaximum

/-- A device that is off, shut down, halted, held in reset or not yet started takes no command of its running parts (log entry 4).
The rows named are those that R617, R618, R621, R623, R631, R633 and R644 give an effect outside the running phase. Nor does a unit act
whose clock has stopped (R519, R626; log entry 24). -/
def Obligations.OnlyRunningDeviceActs : Prop :=
  ∀ (c : Instr) (s : State), (s.dev.sup.phase ≠ .running → c.actsStopped = false → exec c s = .next s)
    ∧ (c.halted s.dev = true → exec c s = .next s)

/-- R604, over every step of the machine: the stored state moves only by a `TRANSITION`, along a row of Table 16.7, with a token
that verifies under a key that the row permits, and into OPERATIONAL only with a good slot. -/
def Obligations.OnlyTable167Moves : Prop :=
  ∀ s t : State, step s = .next t → t.dev.life.stored ≠ s.dev.life.stored →
    ∃ (to_ auth : Byte) (token : List Byte) (rest : List Instr),
      s.pending = .transition to_ auth token :: rest ∧ s.Running
      ∧ t.dev.life.stored = to_.toNat
      ∧ (s.dev.life.stored, to_.toNat) ∈ lifeMoves
      ∧ (∃ auths, transitionAuth s.dev.life.stored to_.toNat = some auths ∧ auth.toNat ∈ auths)
      ∧ (∃ challenge issued, s.dev.sec.challenge = some (challenge, issued)
          ∧ XmssSet.single.verifies (if auth.toNat = 1 then s.dev.sec.ownerKey.getD [] else s.dev.sec.rootKey)
              (shake256 (tokenBytes challenge s.dev.life.stored to_.toNat)) token = true)
      ∧ (to_.toNat = 2 → s.dev.goodSlot = true)

/-- The invariant of the life-cycle records: the 64 newest records of Table 16.13 are a walk of Table 16.7 that ends in the stored
state. It holds in every state that a step reaches from one in which it holds. -/
def Obligations.LifeRecordsStayLegal : Prop :=
  ∀ s t : State, step s = .next t → s.dev.life.Legal → t.dev.life.Legal

/-- The invariant holds at reset.
Where the model chose: log entry 2. -/
def Obligations.ResetRecordsLegal : Prop := State.reset.dev.life.Legal ∧ State.reset.dev.life.stored = 0 ∧ State.reset.dev.life.log = []

/-- R599, R607 and R611 as rules of the whole machine: what the identity region counts upward is never lowered, and what raises
it.
Where the model chose: log entry 37. -/
def Obligations.IdentityRegionMonotone : Prop :=
  ∀ s t : State, step s = .next t →
    s.dev.life.seq ≤ t.dev.life.seq
    ∧ (t.dev.life.minSvn = s.dev.life.minSvn
        ∨ (t.dev.life.minSvn = max s.dev.life.minSvn s.dev.sec.svn
            ∧ s.dev.plan.firstTick = none ∧ t.dev.plan.firstTick ≠ none))
    ∧ (t.dev.life.jtagWrites = s.dev.life.jtagWrites
        ∨ (t.dev.life.jtagWrites = s.dev.life.jtagWrites + 1 ∧ s.dev.sup.resetLow = true ∧ s.dev.sup.phase = .held
            ∧ s.dev.life.stored ≠ 5 ∧ ∃ (region : BitVec 2) (offset : BitVec 27) (rest : List Instr),
              (∃ data, s.pending = .nvmProgram region offset data :: rest) ∨ s.pending = .nvmErase region offset :: rest))

/-- The reset state, in values the spec states: Table 16.17, R49, R67 and the wiped memories of R509.
Where the model chose: log entry 6. -/
def Obligations.ResetValues : Prop :=
  State.reset.pending = []
    ∧ State.reset.dev.get R.DEV_INFO_VENDOR = 0xCA05 ∧ State.reset.dev.get R.DEV_INFO_PART = 0x1600
    ∧ State.reset.dev.get R.TKP_TICK_CFG_PERIOD_NS = 2000
    ∧ (∀ n < 8, State.reset.dev.get (R.PORT_SUBPORT_CFG_PAUSE_CEIL_PCT n) = 80)
    ∧ (∀ n < 8, State.reset.dev.word (C.PORT_RX_FRAMES n) = 0)
    ∧ State.reset.dev.word C.SEC_QUOTES = 0 ∧ State.reset.dev.word C.JRN_ENTRIES = 0
    ∧ (∀ a, Memory.byte State.reset.dev.fab.mem a = 0) ∧ (∀ a, Memory.byte State.reset.dev.fab.core a = 0)
    ∧ State.reset.dev.port.sent = []

/-- R59: what becomes of a frame that fails its check. -/
def Obligations.BadFrameDiscarded : Prop :=
  ∀ (s : State) (sp : Fin 8) (bytes : List Byte) (unc cor : Nat), s.RunsIn 18 → s.dev.up sp.val = true →
    64 ≤ bytes.length → bytes.length ≤ 9216 →
    (unc ≠ 0 ∨ bytes.drop (bytes.length - 4) ≠ fcsBytes (bytes.take (bytes.length - 4))) →
    Completes (.receiveFrame sp bytes unc cor) s fun d =>
      s.dev.Counts d (C.PORT_RX_FCS_ERR sp.val) 1 ∧ s.dev.Counts d (C.PORT_FEC_UNCORR sp.val) unc
        ∧ s.dev.Counts d (C.PORT_FEC_CORR sp.val) cor
        ∧ s.dev.KeepsWords d [C.PORT_RX_FCS_ERR sp.val, C.PORT_FEC_UNCORR sp.val, C.PORT_FEC_CORR sp.val]
        ∧ d.port = s.dev.port ∧ d.front = s.dev.front ∧ s.dev.KeepsParts d [.lpe] ∧ s.dev.KeepsMemory d

/-- R17's first step with R58, R60, R64 and R78, for every reception.
Completes, under conditions on the state and the operands alone, with the effect said: RECEIVE_FRAME.
Where the model chose: log entries 22 and 42. -/
def Obligations.ReceptionSorted : Prop :=
  ∀ (s : State) (sp : Fin 8) (bytes : List Byte) (unc cor : Nat), s.RunsIn 18 →
    let f := bytes.take (bytes.length - 4)
    let rx : RxFrame := ⟨sp.val, f, s.dev.rxStamp bytes.length⟩
    let coded (d : Dev) : Prop := s.dev.Counts d (C.PORT_FEC_UNCORR sp.val) unc ∧ s.dev.Counts d (C.PORT_FEC_CORR sp.val) cor
    let taken (d : Dev) : Prop :=
      coded d ∧ s.dev.Counts d (C.PORT_RX_FRAMES sp.val) 1 ∧ s.dev.Counts d (C.PORT_RX_BYTES sp.val) bytes.length ∧ s.dev.KeepsMemory d
    let words := [C.PORT_FEC_UNCORR sp.val, C.PORT_FEC_CORR sp.val, C.PORT_RX_FRAMES sp.val, C.PORT_RX_BYTES sp.val]
    let control : Bool := (etherOf f).1 = 0x88B5 && (byteAt f ((etherOf f).2 + 2)).toNat = 1
    let hall : Bool := (etherOf f).1 = 0x88B6 && s.dev.on R.TKP_MODE_FABRIC_HALL && sp.val = s.dev.get R.PORT_CFG_HALL_SUBPORT
    let room : Bool := s.dev.mode sp.val != 0 || decide (s.dev.inlineBytes + heldBytes f.length ≤ 8 * 2 ^ 20)
    (s.dev.up sp.val = false → exec (.receiveFrame sp bytes unc cor) s = .next s)
    ∧ (s.dev.up sp.val = true → bytes.length < 64 → Completes (.receiveFrame sp bytes unc cor) s fun d =>
        coded d ∧ s.dev.Counts d (C.PORT_RX_RUNT sp.val) 1 ∧ s.dev.KeepsWords d (C.PORT_RX_RUNT sp.val :: words)
          ∧ s.dev.KeepsParts d [.lpe] ∧ s.dev.KeepsMemory d)
    ∧ (s.dev.up sp.val = true → 9216 < bytes.length → Completes (.receiveFrame sp bytes unc cor) s fun d =>
        coded d ∧ s.dev.Counts d (C.PORT_RX_OVERSIZE sp.val) 1 ∧ s.dev.KeepsWords d (C.PORT_RX_OVERSIZE sp.val :: words)
          ∧ s.dev.KeepsParts d [.lpe] ∧ s.dev.KeepsMemory d)
    ∧ (s.dev.up sp.val = true → 64 ≤ bytes.length → bytes.length ≤ 9216 → unc = 0 →
        bytes.drop (bytes.length - 4) = fcsBytes f →
      (beAt f 12 2 = 0x8808 → Completes (.receiveFrame sp bytes unc cor) s fun d =>
        taken d ∧ d.port = { s.dev.port with macCtl := s.dev.port.macCtl ++ [rx] } ∧ s.dev.KeepsWords d words
          ∧ s.dev.KeepsParts d [.port])
      ∧ (control = true → Completes (.receiveFrame sp bytes unc cor) s fun d =>
        taken d ∧ d.port = { s.dev.port with ctlRx := s.dev.port.ctlRx ++ [rx] } ∧ s.dev.KeepsWords d words
          ∧ s.dev.KeepsParts d [.port])
      ∧ (hall = true → Completes (.receiveFrame sp bytes unc cor) s fun d =>
        taken d ∧ d.port = { s.dev.port with hallRx := s.dev.port.hallRx ++ [rx] } ∧ s.dev.KeepsWords d words
          ∧ s.dev.KeepsParts d [.port])
      ∧ (beAt f 12 2 ≠ 0x8808 → control = false → hall = false →
        (s.dev.get R.LCS_STAT_STATE ≠ 2 → Completes (.receiveFrame sp bytes unc cor) s fun d =>
          taken d ∧ s.dev.KeepsWords d (words ++ ptpWords sp.val) ∧ s.dev.KeepsParts d [.lpe, .time, .sup])
        ∧ (s.dev.get R.LCS_STAT_STATE = 2 → room = false → Completes (.receiveFrame sp bytes unc cor) s fun d =>
          taken d ∧ s.dev.Counts d (C.PORT_RX_BUF_FULL sp.val) 1
            ∧ s.dev.KeepsWords d (C.PORT_RX_BUF_FULL sp.val :: words ++ ptpWords sp.val) ∧ s.dev.KeepsParts d [.lpe, .time, .sup])
        ∧ (s.dev.get R.LCS_STAT_STATE = 2 → room = true → Completes (.receiveFrame sp bytes unc cor) s fun d =>
          taken d ∧ (∃ p : Packet, d.front = { s.dev.front with packets := s.dev.front.packets ++ [p] } ∧ p.id = s.dev.port.nextPacket
              ∧ p.frame = f ∧ p.sp = sp.val ∧ p.rxTime = s.dev.rxStamp bytes.length ∧ p.mode = s.dev.mode sp.val
              ∧ p.cls = s.dev.classOf sp.val f ∧ p.stage = .arrived)
            ∧ d.port.nextPacket = s.dev.port.nextPacket + 1
            ∧ d.port.macCtl = s.dev.port.macCtl ∧ d.port.ctlRx = s.dev.port.ctlRx ∧ d.port.hallRx = s.dev.port.hallRx
            ∧ (s.dev.on R.PORT_CFG_TX_FC_EN = false → d.port = { s.dev.port with nextPacket := s.dev.port.nextPacket + 1 })
            ∧ s.dev.KeepsWords d (words ++ ptpWords sp.val ++ flowWords) ∧ s.dev.KeepsParts d [.front, .port, .lpe, .time, .sup])))

/-- R65 to R67: how holding ends.
Completes, under conditions on the state and the operands alone, with the effect said: PAUSE_WINDOW_END, PAUSE_QUANTA_EXPIRY,
PAUSE_CEILING_REACHED.
Where the model chose: log entries 3 and 4. -/
def Obligations.PauseEnds : Prop :=
  ∀ s : State, s.RunsIn 18 →
    (∀ sp cls : Fin 8,
      let p := s.dev.pause sp.val cls.val
      let ended (d : Dev) : Prop :=
        d.classPaused sp.val cls.val = false
          ∧ d.get (R.PORT_SUBPORT_STAT_PAUSED sp.val) = setBits (s.dev.get (R.PORT_SUBPORT_STAT_PAUSED sp.val)) cls.val 1 0
          ∧ d.port = { s.dev.port with subs := d.port.subs, sent := d.port.sent }
          ∧ (∀ x, x ≠ sp.val → d.port.subs[x]? = s.dev.port.subs[x]?)
          ∧ (∀ c, c ≠ cls.val → d.pause sp.val c = s.dev.pause sp.val c)
          ∧ (cls.val = s.dev.get R.PORT_CFG_OWN_CLASS → s.dev.up sp.val = true → sp.val < s.dev.port.subs.length →
              s.dev.OwnLeft d sp.val)
          ∧ (s.dev.ownQueue sp.val = [] → d.port.sent = s.dev.port.sent)
          ∧ s.dev.KeepsParts d [.time, .port, .lpe] ∧ s.dev.KeepsMemory d
      (s.dev.classPaused sp.val cls.val = true →
        Completes (.pauseQuantaExpiry sp cls) s fun d =>
          ended d ∧ d.clockNs = max s.dev.clockNs p.until_
            ∧ d.get (R.PORT_SUBPORT_STAT_STORM sp.val) = s.dev.get (R.PORT_SUBPORT_STAT_STORM sp.val)
            ∧ (sp.val < s.dev.port.subs.length → cls.val < (s.dev.port.subs.getD sp.val SubPort.empty).pause.length →
                d.pause sp.val cls.val = { p with held := p.held + (p.until_ - p.since) })
            ∧ s.dev.KeepsWords d ((R.PORT_SUBPORT_STAT_PAUSED sp.val).addr :: ownWords sp.val)
            ∧ (s.dev.ownQueue sp.val = [] → s.dev.KeepsWords d [(R.PORT_SUBPORT_STAT_PAUSED sp.val).addr]))
      ∧ (s.dev.classPaused sp.val cls.val = true → s.dev.get (R.PORT_SUBPORT_CFG_PAUSE_CEIL_PCT sp.val) < 100 →
        Completes (.pauseCeilingReached sp cls) s fun d =>
          ended d ∧ d.clockNs = max s.dev.clockNs (p.since + (s.dev.ceilNs sp.val - p.held))
            ∧ d.get (R.PORT_SUBPORT_STAT_STORM sp.val) = setBits (s.dev.get (R.PORT_SUBPORT_STAT_STORM sp.val)) cls.val 1 1
            ∧ s.dev.Counts d (C.PORT_PAUSE_STORM sp.val) 1
            ∧ (sp.val < s.dev.port.subs.length → cls.val < (s.dev.port.subs.getD sp.val SubPort.empty).pause.length →
                d.pause sp.val cls.val = { p with held := s.dev.ceilNs sp.val, ignoring := true })
            ∧ s.dev.KeepsWords d ((R.PORT_SUBPORT_STAT_PAUSED sp.val).addr :: C.PORT_PAUSE_STORM sp.val :: ownWords sp.val)
            ∧ (s.dev.ownQueue sp.val = [] →
                s.dev.KeepsWords d [(R.PORT_SUBPORT_STAT_PAUSED sp.val).addr, C.PORT_PAUSE_STORM sp.val]))
      ∧ (s.dev.classPaused sp.val cls.val = false →
          exec (.pauseQuantaExpiry sp cls) s = .next s ∧ exec (.pauseCeilingReached sp cls) s = .next s)
      ∧ (100 ≤ s.dev.get (R.PORT_SUBPORT_CFG_PAUSE_CEIL_PCT sp.val) → exec (.pauseCeilingReached sp cls) s = .next s))
    ∧ Completes .pauseWindowEnd s fun d =>
        s.dev.port.pauseWindow < d.port.pauseWindow ∧ d.port.pauseWindow = d.ns / 1000000
          ∧ d.ns = max s.dev.ns (d.port.pauseWindow * 1000000)
          ∧ (∀ sub ∈ d.port.subs, ∀ p ∈ sub.pause, p.ignoring = false ∧ p.held = 0)
          ∧ (d.port.subs.map fun x => (x.pause.map fun p => p.until_)) = (s.dev.port.subs.map fun x => (x.pause.map fun p => p.until_))
          ∧ (d.port.subs.map fun x => { x with pause := [] }) = (s.dev.port.subs.map fun x => { x with pause := [] })
          ∧ d.port = { s.dev.port with subs := d.port.subs, pauseWindow := d.port.pauseWindow }
          ∧ s.dev.KeepsWords d [] ∧ s.dev.KeepsParts d [.time, .port] ∧ s.dev.KeepsMemory d

/-- R65: the frame at the front of the MAC Control sublayer, in each of its kinds; a PFC frame is honoured in exactly the classes
that its vector enables and that do not ignore pause.
Completes, under conditions on the state and the operands alone, with the effect said: PAUSE_FRAME_RECEIVE.
Where the model chose: log entries 3 and 4. -/
def Obligations.MacControlTaken : Prop :=
  (∀ s : State, s.RunsIn 18 → s.dev.port.macCtl = [] → exec .pauseFrameReceive s = .next s)
  ∧ ∀ (s : State) (f : RxFrame) (rest : List RxFrame), s.RunsIn 18 → s.dev.port.macCtl = f :: rest → f.sp < 8 →
    let da := beAt f.bytes 0 6
    let op := beAt f.bytes 14 2
    let vec := beAt f.bytes 16 2
    let pfc := s.dev.on (R.PORT_SUBPORT_CFG_PFC_EN f.sp)
    let named (c : Nat) : Bool := op = 0x0001 || bitsOf vec c 1 = 1
    let heeds (c : Nat) : Bool := named c && !(s.dev.pause f.sp c).ignoring
    let quanta (c : Nat) : Nat := if op = 0x0001 then vec else beAt f.bytes (18 + 2 * c) 2
    ((da ≠ 0x0180C2000001 ∧ da ≠ s.dev.get R.PORT_MAC_ADDR_MAC) ∨ (op = 0x0001 ∧ pfc = true) ∨ (op = 0x0101 ∧ pfc = false)
        ∨ (op = 0x0101 ∧ 256 ≤ vec) ∨ (op ≠ 0x0001 ∧ op ≠ 0x0101) →
      Completes .pauseFrameReceive s fun d =>
        d.port = { s.dev.port with macCtl := rest } ∧ s.dev.Counts d (C.PORT_RX_MACCTL_BAD f.sp) 1
          ∧ s.dev.KeepsWords d [C.PORT_RX_MACCTL_BAD f.sp] ∧ s.dev.KeepsParts d [.port, .lpe] ∧ s.dev.KeepsMemory d)
    ∧ ((da = 0x0180C2000001 ∨ da = s.dev.get R.PORT_MAC_ADDR_MAC) →
        (op = 0x0001 ∧ pfc = false) ∨ (op = 0x0101 ∧ pfc = true ∧ vec < 256) →
      Completes .pauseFrameReceive s fun d =>
        d.port.macCtl = rest
          ∧ s.dev.Counts d (C.PORT_RX_PAUSE f.sp) (if (List.range 8).any heeds then 1 else 0)
          ∧ (∀ c < 8, heeds c = true → d.classPaused f.sp c = decide (quanta c ≠ 0))
          ∧ (∀ c < 8, heeds c = true → quanta c ≠ 0 → f.sp < s.dev.port.subs.length →
              c < (s.dev.port.subs.getD f.sp SubPort.empty).pause.length →
              (d.pause f.sp c).until_ = s.dev.clockNs + quanta c * 512 * s.dev.subPorts / 1600)
          ∧ (∀ c < 8, heeds c = false → d.classPaused f.sp c = s.dev.classPaused f.sp c ∧ d.pause f.sp c = s.dev.pause f.sp c)
          ∧ (∀ x, x ≠ f.sp → d.port.subs[x]? = s.dev.port.subs[x]?)
          ∧ s.dev.KeepsWords d (C.PORT_RX_PAUSE f.sp :: (R.PORT_SUBPORT_STAT_PAUSED f.sp).addr :: ownWords f.sp)
          ∧ (s.dev.ownQueue f.sp = [] →
              s.dev.KeepsWords d [C.PORT_RX_PAUSE f.sp, (R.PORT_SUBPORT_STAT_PAUSED f.sp).addr] ∧ d.port.sent = s.dev.port.sent)
          ∧ ((List.range 8).any heeds = false → s.dev.KeepsWords d [] ∧ d.port = { s.dev.port with macCtl := rest })
          ∧ s.dev.KeepsParts d [.port, .lpe] ∧ s.dev.KeepsMemory d)

/-- R20, R44, R63, R68, R72 and R76: what the port sends.
Completes, under conditions on the state and the operands alone, with the effect said: PAUSE_REPEAT, PTP_DELAY_REQ_SEND,
PACKET_TRANSMIT, RECORD_FRAME_TRANSMIT.
Where the model chose: log entries 11 and 22. -/
def Obligations.PortSends : Prop :=
  ∀ s : State, s.RunsIn 18 →
    (s.dev.on R.PORT_CFG_TX_FC_EN = true → s.dev.pausedPartners ≠ [] →
      Completes .pauseRepeat s fun d =>
        (∀ sp ∈ s.dev.inlineUp, s.dev.Counts d (C.PORT_TX_PAUSE sp) 1
            ∧ ∃ f, .frame sp f ∈ d.port.sent.drop s.dev.port.sent.length ∧ beAt f 0 6 = 0x0180C2000001 ∧ beAt f 12 2 = 0x8808
              ∧ (s.dev.on R.PORT_CFG_TX_FC_PFC = false → beAt f 14 4 = 0x0001FFFF)
              ∧ (s.dev.on R.PORT_CFG_TX_FC_PFC = true → beAt f 14 4 = 0x010100FF ∧ ∀ c < 8, beAt f (18 + 2 * c) 2 = 0xFFFF))
          ∧ d.port.sent.length = s.dev.port.sent.length + s.dev.inlineUp.length
          ∧ d.clockNs = max s.dev.clockNs (s.dev.port.pauseSentNs + s.dev.quantaNs 0xFFFF / 2) ∧ d.port.pauseSentNs = d.clockNs
          ∧ s.dev.KeepsWords d flowWords ∧ d.get R.PORT_INLINE_BUF_PEAK_KIB = s.dev.get R.PORT_INLINE_BUF_PEAK_KIB
          ∧ s.dev.KeepsParts d [.time, .port] ∧ s.dev.KeepsMemory d)
    ∧ (s.dev.on R.PORT_CFG_TX_FC_EN = false ∨ s.dev.pausedPartners = [] → exec .pauseRepeat s = .next s)
    ∧ (s.dev.on R.PORT_CFG_PTP_EN = true → s.dev.up (s.dev.get R.PORT_CFG_PTP_SUBPORT) = true → s.dev.on R.CFG_BOOT_NO_IMAGE = false →
      Completes .ptpDelayReqSend s fun d =>
        let sp := s.dev.get R.PORT_CFG_PTP_SUBPORT
        let frame := Config.delayReq s.dev.lpe.servo.delaySent
        (sp < s.dev.port.subs.length → s.dev.SendsOwn d sp frame)
          ∧ d.lpe.servo.delaySent = s.dev.lpe.servo.delaySent + 1
          ∧ (s.dev.classPaused sp (s.dev.get R.PORT_CFG_OWN_CLASS) = true → s.dev.KeepsWords d [])
          ∧ (s.dev.classPaused sp (s.dev.get R.PORT_CFG_OWN_CLASS) = false → s.dev.ownQueue sp = [] → sp < s.dev.port.subs.length →
              s.dev.Counts d (C.PORT_TX_FRAMES sp) 1)
          ∧ s.dev.KeepsWords d (ownWords sp) ∧ s.dev.KeepsParts d [.port, .lpe] ∧ s.dev.KeepsMemory d)
    ∧ (s.dev.on R.PORT_CFG_PTP_EN = false ∨ s.dev.up (s.dev.get R.PORT_CFG_PTP_SUBPORT) = false ∨ s.dev.on R.CFG_BOOT_NO_IMAGE = true →
        exec .ptpDelayReqSend s = .next s)
    ∧ (∀ sp : Fin 8,
        let queue (d : Dev) : List EgressItem := (d.port.subs.getD sp.val SubPort.empty).egress
        (∀ (before : List EgressItem) (e : EgressItem) (rest : List EgressItem), s.dev.up sp.val = true →
          queue s.dev = before ++ e :: rest → (e.dropped = true ∨ s.dev.classPaused sp.val e.cls = false) →
          (∀ x ∈ before, x.dropped = false ∧ s.dev.classPaused sp.val x.cls = true ∧ (x.flow ≠ e.flow ∨ e.flow = none)) →
          Completes (.packetTransmit sp) s fun d =>
            queue d = before ++ rest
              ∧ (e.dropped = false → (.frame sp.val (padTo (max 60 e.bytes.length) e.bytes)) ∈ d.port.sent.drop s.dev.port.sent.length)
              ∧ (e.dropped = true → s.dev.Counts d (C.PORT_TX_DROP_ACTION sp.val) 1)
              ∧ (s.dev.on R.PORT_CFG_TX_FC_EN = false → d.port.sent.length = s.dev.port.sent.length + (if e.dropped then 0 else 1))
              ∧ (e.dropped = false → s.dev.KeepsWords d flowWords) ∧ s.dev.KeepsWords d (C.PORT_TX_DROP_ACTION sp.val :: flowWords)
              ∧ (∀ x, x ≠ sp.val → (d.port.subs.getD x SubPort.empty).egress = (s.dev.port.subs.getD x SubPort.empty).egress)
              ∧ s.dev.KeepsParts d [.port] ∧ s.dev.KeepsMemory d)
        ∧ (s.dev.up sp.val = false ∨ queue s.dev = [] → exec (.packetTransmit sp) s = .next s))
    ∧ (∀ (before : List RecordFrame) (f : RecordFrame) (rest : List RecordFrame), s.dev.port.records = before ++ f :: rest → f.sp < 8 →
      (∀ g ∈ before, s.dev.up g.sp = true ∧ s.dev.classPaused g.sp (s.dev.get R.PORT_CFG_OWN_CLASS) = true) →
      (s.dev.up f.sp = true → s.dev.classPaused f.sp (s.dev.get R.PORT_CFG_OWN_CLASS) = false →
        Completes .recordFrameTransmit s fun d =>
          d.port.records = before ++ rest
            ∧ (∃ bytes, d.port = { s.dev.port with records := before ++ rest, sent := s.dev.port.sent ++ [.frame f.sp bytes] }
                ∧ bytes = padTo (max 60 (s.dev.recordFrame f).length) (s.dev.recordFrame f)
                ∧ beAt bytes 0 6 = s.dev.get (R.PORT_SIDECAR_DA_DA f.sp))
            ∧ s.dev.Counts d (C.PORT_RECORDS_TX f.sp) f.records.length ∧ s.dev.Counts d (C.PORT_RECORD_FRAMES_TX f.sp) 1
            ∧ s.dev.KeepsWords d [C.PORT_RECORDS_TX f.sp, C.PORT_RECORD_FRAMES_TX f.sp, C.PORT_TX_FRAMES f.sp, C.PORT_TX_BYTES f.sp]
            ∧ s.dev.KeepsParts d [.port] ∧ s.dev.KeepsMemory d)
      ∧ (s.dev.up f.sp = false →
        Completes .recordFrameTransmit s fun d =>
          d.port = { s.dev.port with records := before ++ rest } ∧ s.dev.Counts d (C.PORT_RECORD_DROP f.sp) f.records.length
            ∧ s.dev.KeepsWords d [C.PORT_RECORD_DROP f.sp] ∧ s.dev.KeepsParts d [.port] ∧ s.dev.KeepsMemory d))
    ∧ (s.dev.port.records = [] → exec .recordFrameTransmit s = .next s)

/-- R55 to R57 and R92: what lanes and links do.
Completes, under conditions on the state and the operands alone, with the effect said: PORT_LANE_FAIL, TRAINING_VIOLATION,
SUBPORT_LINK_UP, SUBPORT_GOES_DOWN.
Where the model chose: log entries 4 and 28. -/
def Obligations.LinksAndLanes : Prop :=
  ∀ s : State, s.Running →
    (∀ lane : Fin 8, s.dev.on (R.PORT_LANE_STAT_FAILED lane.val) = false →
      Completes (.portLaneFail lane) s fun d =>
        let b := s.dev.get R.PORT_CFG_BREAKOUT
        d.get (R.PORT_LANE_STAT_FAILED lane.val) = 1 ∧ d.get (R.PORT_LANE_STAT_TRAINED lane.val) = 0
          ∧ d.get R.PORT_CFG_BREAKOUT = min 3 (b + 1)
          ∧ (b = 3 → d.up lane.val = false ∧ d.get (R.PORT_SUBPORT_STAT_DOWN_BY_LANE lane.val) = 1
              ∧ ∀ sp < 8, sp ≠ lane.val → d.up sp = s.dev.up sp)
          ∧ (b < 3 → (∀ sp < 2 ^ b, d.up sp = false)
              ∧ ∀ n < 2 ^ (b + 1),
                d.word (R.PORT_SUBPORT_CFG_MODE n).addr = s.dev.word (R.PORT_SUBPORT_CFG_MODE (n / 2)).addr
                  ∧ d.get (R.PORT_SIDECAR_DA_DA n) = s.dev.get (R.PORT_SIDECAR_DA_DA (n / 2)) ∧ d.mode n = s.dev.mode (n / 2)
                  ∧ d.get (R.PORT_SUBPORT_STAT_DOWN_BY_LANE n) = b2n (d.hasFailedLane n)
                  ∧ d.get (R.PORT_SUBPORT_STAT_TRAINING n) = b2n (!d.hasFailedLane n))
          ∧ (∀ l < 8, l ≠ lane.val → d.get (R.PORT_LANE_STAT_FAILED l) = s.dev.get (R.PORT_LANE_STAT_FAILED l))
          ∧ d.lpe.lifePend.length = s.dev.lpe.lifePend.length + 1 ∧ d.lpe.copyBusy = true
          ∧ (s.dev.lpe.copyBusy = true → d.lpe.copyQueued = true)
          ∧ s.dev.KeepsParts d [.port, .front, .lpe] ∧ s.dev.KeepsMemory d)
    ∧ (∀ lane : Fin 8, s.dev.on (R.PORT_LANE_STAT_FAILED lane.val) = true → exec (.portLaneFail lane) s = .next s)
    ∧ (∀ lane : Fin 8, s.dev.on (R.PORT_SUBPORT_STAT_TRAINING (s.dev.laneSub lane.val)) = true →
      Completes (.trainingViolation lane) s fun d =>
        let sp := s.dev.laneSub lane.val
        let retrain (d : Dev) : Nat := (d.port.subs.getD sp SubPort.empty).retrainNs
        d.get (R.PORT_LANE_STAT_TRAIN_FAILS lane.val) = min 255 (s.dev.get (R.PORT_LANE_STAT_TRAIN_FAILS lane.val) + 1)
          ∧ s.dev.Counts d (C.PORT_TRAIN_VIOL sp) 1
          ∧ d.clockNs = max s.dev.clockNs (retrain s.dev)
          ∧ (sp < s.dev.port.subs.length → d.failedOften sp = true → retrain d = d.clockNs + 100000000)
          ∧ (d.failedOften sp = false → retrain d = retrain s.dev)
          ∧ s.dev.KeepsWords d [(R.PORT_LANE_STAT_TRAIN_FAILS lane.val).addr, C.PORT_TRAIN_VIOL sp]
          ∧ s.dev.KeepsParts d [.time, .port, .lpe] ∧ s.dev.KeepsMemory d)
    ∧ (∀ lane : Fin 8, s.dev.on (R.PORT_SUBPORT_STAT_TRAINING (s.dev.laneSub lane.val)) = false → exec (.trainingViolation lane) s = .next s)
    ∧ (∀ sp : Fin 8, s.dev.regionStopped 18 = false →
        let ready : Bool := decide (sp.val < s.dev.subPorts) && s.dev.on (R.PORT_SUBPORT_STAT_TRAINING sp.val)
          && !s.dev.on (R.PORT_SUBPORT_STAT_DOWN_BY_LANE sp.val)
        (ready = true →
          Completes (.subportLinkUp sp) s fun d =>
            d.up sp.val = true ∧ d.get (R.PORT_SUBPORT_STAT_TRAINING sp.val) = 0
              ∧ (∀ l ∈ s.dev.lanesOf sp.val, d.get (R.PORT_LANE_STAT_TRAINED l) = 1)
              ∧ (∀ l ∈ s.dev.lanesOf sp.val, d.get (R.PORT_LANE_STAT_TRAIN_FAILS l) = 0)
              ∧ (∀ x < 8, x ≠ sp.val → d.up x = s.dev.up x)
              ∧ d.clockNs = max s.dev.clockNs (s.dev.port.subs.getD sp.val SubPort.empty).retrainNs
              ∧ d.port = { s.dev.port with subs := d.port.subs } ∧ s.dev.KeepsWords d (s.dev.linkWords sp.val)
              ∧ s.dev.KeepsParts d [.time, .port] ∧ s.dev.KeepsMemory d)
        ∧ (ready = false → exec (.subportLinkUp sp) s = .next s))
    ∧ (∀ sp : Fin 8, s.dev.regionStopped 18 = false →
        (s.dev.up sp.val = true →
          Completes (.subportGoesDown sp) s fun d =>
            d.up sp.val = false ∧ d.get (R.PORT_SUBPORT_STAT_TRAINING sp.val) = 1
              ∧ (d.port.subs.getD sp.val SubPort.empty).egress = [] ∧ d.ownQueue sp.val = []
              ∧ d.get (R.PORT_SUBPORT_STAT_PAUSED sp.val) = 0
              ∧ (∀ l ∈ s.dev.lanesOf sp.val, d.get (R.PORT_LANE_STAT_TRAINED l) = 0)
              ∧ s.dev.Counts d (C.PORT_TX_LINK_DOWN sp.val) ((s.dev.port.subs.getD sp.val SubPort.empty).egress.length
                  + (s.dev.front.packets.filter fun p => p.sp = sp.val && p.mode = 0 && !p.gone).length)
              ∧ (∀ x < 8, x ≠ sp.val → d.up x = s.dev.up x)
              ∧ s.dev.KeepsWords d (C.PORT_TX_LINK_DOWN sp.val :: s.dev.linkWords sp.val ++ flowWords)
              ∧ s.dev.KeepsParts d [.port, .front] ∧ s.dev.KeepsMemory d)
        ∧ (s.dev.up sp.val = false → exec (.subportGoesDown sp) s = .next s))

/-- Table 0.4 and R9, bit by bit, for a word of any register: `has k` says that a field of access `k` covers the bit.
Where the model chose: log entry 5. -/
def Obligations.WriteMergesFields : Prop :=
  ∀ (r : RegDesc) (i cur v b : Nat),
    let has (k : Access) : Bool := (r.mask i fun f => f.acc = k).testBit b
    (has .rw = true → has .w1c = false → has .w1s = false → (r.merge i cur v).testBit b = v.testBit b)
    ∧ (has .w1s = true → has .rw = false → has .w1c = false → (r.merge i cur v).testBit b = (cur.testBit b || v.testBit b))
    ∧ (has .w1c = true → has .rw = false → has .w1s = false → (r.merge i cur v).testBit b = (cur.testBit b && !v.testBit b))
    ∧ (has .rw = false → has .w1s = false → has .w1c = false → (r.merge i cur v).testBit b = cur.testBit b)

/-- R578's `WRITE` with R4, R7, R8, R9 and R576, for the row `WRITE` and the row `REGISTER_WRITE`.
Completes, under conditions on the state and the operands alone, with the effect said: WRITE, REGISTER_WRITE.
Where the model chose: log entries 5 and 18. -/
def Obligations.WriteTakesOrRefuses : Prop :=
  ∀ (s : State) (a : Nat) (v : Word), s.RunsIn 21 → s.dev.Turn 0x02 a (beBytes 8 v.toNat) →
    ∀ c ∈ [Instr.write a v, Instr.registerWrite a v],
      (s.dev.get R.LCS_STAT_STATE < 4 → ∀ (r : RegDesc) (i : Nat), s.dev.writeStatus a v.toNat = St.ok →
          RegMap.lookup RegMap.regs a = some (r, i) → a ∉ s.dev.answerWords →
          r.base ∉ [RegMap.dPORT_CFG.base, RegMap.dPORT_SUBPORT_CFG.base, RegMap.dPORT_INLINE_BUF.base, RegMap.dTKP_TICK_CFG.base,
            RegMap.dAPR_CFG.base, RegMap.dSYN_CTX_CTL.base, RegMap.dSYN_CTR.base, RegMap.dQUE_STAT.base, RegMap.dQUE_CTL.base,
            RegMap.dLPE_CFG.base, RegMap.dLPE_TIME_SET.base, RegMap.dLPE_TIME_CFG.base, RegMap.dCLK_OUT_CFG.base,
            RegMap.dCFG_BOOT.base, RegMap.dCFG_CTL_CFG.base, RegMap.dCFG_SLOT_CTL.base, RegMap.dCFG_SLOT_WIN.base] →
        Completes c s fun d =>
          d.word a = r.merge i (s.dev.word a) v.toNat % 2 ^ 64 ∧ s.dev.Answered d St.ok []
            ∧ s.dev.KeepsWords d (a :: s.dev.answerWords) ∧ s.dev.KeepsParts d s.dev.answerParts ∧ s.dev.KeepsMemory d)
      ∧ (s.dev.get R.LCS_STAT_STATE < 4 → s.dev.writeStatus a v.toNat = St.ok → RegMap.lookup RegMap.regs a = none →
        Completes c s fun d => s.dev.OnlyAnswer d St.ok [])
      ∧ (s.dev.get R.LCS_STAT_STATE < 4 → s.dev.writeStatus a v.toNat ≠ St.ok →
        Completes c s fun d => s.dev.OnlyAnswer d (s.dev.writeStatus a v.toNat) [])
      ∧ (a % 8 ≠ 0 ∨ 0x10 < a / 2 ^ 32 → s.dev.writeStatus a v.toNat = St.badAddress)
      ∧ (4 ≤ s.dev.get R.LCS_STAT_STATE →
        Completes c s fun d => s.dev.OnlyAnswer d St.lifecycle [])

/-- R28, R29, R68, R78 and R419: writes that take effect later, or at once on the partners.
Completes, under conditions on the state and the operands alone, with the effect said: TX_FC_DISABLE, SUBPORT_MODE_WRITE,
TICK_PERIOD_WRITE, BUDGET_WRITE.
Where the model chose: log entry 5. -/
def Obligations.WritesTakeEffectLater : Prop :=
  ∀ (s : State) (v : Word), s.RunsIn 21 → s.dev.get R.LCS_STAT_STATE < 4 →
    let turn (base : Nat) : Prop := s.dev.Turn 0x02 base (beBytes 8 v.toNat)
    let stored (r : RegDesc) (a : Nat) (d : Dev) : Prop :=
      d.word a = r.merge 0 (s.dev.word a) v.toNat % 2 ^ 64 ∧ s.dev.Answered d St.ok [] ∧ s.dev.KeepsMemory d
    (turn RegMap.dTKP_TICK_CFG.base →
      (500 ≤ bitsOf v.toNat 0 14 ∧ bitsOf v.toNat 0 14 ≤ 16000 →
        Completes (.tickPeriodWrite v) s fun d =>
          stored RegMap.dTKP_TICK_CFG RegMap.dTKP_TICK_CFG.base d
            ∧ d.get R.TKP_TICK_CFG_PERIOD_NS = bitsOf v.toNat 0 14 ∧ d.get R.TKP_TICK_STAT_PERIOD_PENDING = 1
            ∧ s.dev.KeepsWords d ([R.TKP_TICK_CFG_PERIOD_NS.addr, R.TKP_TICK_STAT_PERIOD_PENDING.addr] ++ s.dev.answerWords)
            ∧ s.dev.KeepsParts d s.dev.answerParts)
      ∧ (¬(500 ≤ bitsOf v.toNat 0 14 ∧ bitsOf v.toNat 0 14 ≤ 16000) →
        Completes (.tickPeriodWrite v) s fun d => s.dev.OnlyAnswer d St.malformed []))
    ∧ (turn RegMap.dAPR_CFG.base →
      let good : Bool := within 150 560 (bitsOf v.toNat 0 10) && within 60 100 (bitsOf v.toNat 16 7) && within 60 90 (bitsOf v.toNat 24 7)
      (good = true →
        Completes (.budgetWrite v) s fun d =>
          stored RegMap.dAPR_CFG RegMap.dAPR_CFG.base d
            ∧ d.get R.APR_CFG_BUDGET_W = bitsOf v.toNat 0 10 ∧ d.plan = { s.dev.plan with budgetPending := true }
            ∧ s.dev.KeepsWords d (R.APR_CFG_BUDGET_W.addr :: s.dev.answerWords) ∧ s.dev.KeepsParts d (.plan :: s.dev.answerParts))
      ∧ (good = false → Completes (.budgetWrite v) s fun d => s.dev.OnlyAnswer d St.malformed []))
    ∧ (∀ n : Fin 8, turn (RegMap.dPORT_SUBPORT_CFG.base + 8 * n.val) →
      let good : Bool := bitsOf v.toNat 0 2 != 3 && within 10 100 (bitsOf v.toNat 6 7)
      (good = true →
        Completes (.subportModeWrite n v) s fun d =>
          stored RegMap.dPORT_SUBPORT_CFG (RegMap.dPORT_SUBPORT_CFG.base + 8 * n.val) d
            ∧ d.get (R.PORT_SUBPORT_CFG_MODE n.val) = bitsOf v.toNat 0 2 ∧ d.mode n.val = s.dev.mode n.val
            ∧ (d.get (R.PORT_SUBPORT_STAT_MODE_PENDING n.val) = 1 ↔ bitsOf v.toNat 0 2 ≠ s.dev.mode n.val)
            ∧ s.dev.KeepsWords d ([(R.PORT_SUBPORT_CFG_MODE n.val).addr, (R.PORT_SUBPORT_STAT_MODE_PENDING n.val).addr]
                ++ s.dev.answerWords)
            ∧ s.dev.KeepsParts d s.dev.answerParts)
      ∧ (good = false → Completes (.subportModeWrite n v) s fun d => s.dev.OnlyAnswer d St.malformed []))
    ∧ (turn RegMap.dPORT_CFG.base →
      Completes (.txFcDisable v) s fun d =>
        let pfc := d.on R.PORT_CFG_TX_FC_PFC
        stored RegMap.dPORT_CFG RegMap.dPORT_CFG.base d
          ∧ s.dev.KeepsWords d (R.PORT_CFG_TX_FC_EN.addr :: flowWords ++ (List.range 8).flatMap ownWords ++ s.dev.answerWords)
          ∧ s.dev.KeepsParts d (.port :: .lpe :: s.dev.answerParts)
          ∧ (bitsOf v.toNat 20 1 = 0 → d.on R.PORT_CFG_TX_FC_EN = false ∧ d.pausedPartners = []
              ∧ ∀ sp ∈ s.dev.pausedPartners, s.dev.up sp = true → s.dev.Counts d (C.PORT_TX_PAUSE sp) 1
                ∧ ∃ f, .frame sp f ∈ d.port.sent.drop s.dev.port.sent.length ∧ beAt f 0 6 = 0x0180C2000001 ∧ beAt f 12 2 = 0x8808
                  ∧ beAt f 14 2 = (if pfc then 0x0101 else 0x0001) ∧ (pfc = true → beAt f 16 2 = 0x00FF)
                  ∧ ∀ b ∈ f.drop (if pfc then 18 else 16), b = 0)
          ∧ (bitsOf v.toNat 20 1 = 1 → d.on R.PORT_CFG_TX_FC_EN = true
              ∧ (s.dev.get R.PORT_INLINE_BUF_XON_KIB * 1024 < s.dev.inlineBytes → s.dev.pausedPartners ≠ [] →
                  d.pausedPartners = s.dev.pausedPartners)))

/-- R453, R454, R516, R566 and R643: writes whose effect lies beyond the register.
Completes, under conditions on the state and the operands alone, with the effect said: RESTART, COUNTER_VALUE_WRITE, TIME_SET,
PREFER_WRITE, CLK_OUT_WRITE.
Where the model chose: log entries 5, 27 and 40. -/
def Obligations.WritesActElsewhere : Prop :=
  ∀ (s : State) (v : Word), s.RunsIn 21 → s.dev.get R.LCS_STAT_STATE < 4 →
    let turn (a : Nat) : Prop := s.dev.Turn 0x02 a (beBytes 8 v.toNat)
    (∀ c : Fin 256, turn (RegMap.dSYN_CTX_CTL.base + 8 * c.val) →
      (v.toNat % 2 = 1 → s.dev.get (R.SYN_CTX_STAT_STATE c.val) = 2 →
        Completes (.restart c v) s fun d =>
          d.get (R.SYN_CTX_STAT_STATE c.val) = 3 ∧ d.get (R.SYN_CTX_STAT_CAUSE c.val) = s.dev.get (R.SYN_CTX_STAT_CAUSE c.val)
            ∧ s.dev.Answered d St.ok [] ∧ s.dev.KeepsWords d ((R.SYN_CTX_STAT_STATE c.val).addr :: s.dev.answerWords)
            ∧ s.dev.KeepsParts d s.dev.answerParts ∧ s.dev.KeepsMemory d)
      ∧ (v.toNat % 2 = 1 → s.dev.get (R.SYN_CTX_STAT_STATE c.val) ≠ 2 →
        Completes (.restart c v) s fun d => s.dev.OnlyAnswer d St.busy [])
      ∧ (v.toNat % 2 = 0 → Completes (.restart c v) s fun d => s.dev.OnlyAnswer d St.ok []))
    ∧ (∀ (c : Fin 256) (n : BitVec 16), turn (RegMap.dSYN_CTR.base + 0x80000 * c.val + 8 * n.toNat) →
      let may := s.dev.faulted c.val || s.dev.stepping c.val
      let set (p : Nat) : Dev := s.dev.setCtr p { s.dev.ctr p with value := v.toNat % 65536 }
      let frame (d : Dev) : Prop :=
        s.dev.Answered d St.ok [] ∧ s.dev.KeepsWords d s.dev.answerWords ∧ s.dev.KeepsParts d (.sync :: s.dev.answerParts)
          ∧ s.dev.KeepsMemory d
      (∀ p, may = true → s.dev.physCtr c.val n.toNat = some p →
        ((∀ w ∈ s.dev.sync.waits, (set p).covered w = false ∨ s.dev.waitsOn p w = false) →
          Completes (.counterValueWrite c n v) s fun d =>
            frame d ∧ d.ctr p = { s.dev.ctr p with value := v.toNat % 65536 } ∧ (∀ x ≠ p, d.ctr x = s.dev.ctr x)
              ∧ d.sync.waits = s.dev.sync.waits ∧ d.sync.queues = s.dev.sync.queues)
        ∧ (∀ (before : List Wait) (w : Wait) (rest : List Wait) (u m : Nat), s.dev.sync.waits = before ++ w :: rest → w.on = .counter u m →
            s.dev.physCtr w.context u = some p → (∀ x ∈ before, (set p).covered x = false ∨ s.dev.waitsOn p x = false) → (set p).covered w = true →
            (∀ x ∈ ((set p).releaseWait w (before ++ rest)).sync.waits, ((set p).releaseWait w (before ++ rest)).covered x = false) →
          Completes (.counterValueWrite c n v) s fun d =>
            frame d ∧ d.ctr p = { s.dev.ctr p with value := v.toNat % 65536 - m } ∧ (∀ x ≠ p, d.ctr x = s.dev.ctr x)
              ∧ d.sync.waits.length + 1 = s.dev.sync.waits.length ∧ d.sync.answers.find w.engine = some .released))
      ∧ (may = true → s.dev.physCtr c.val n.toNat = none → Completes (.counterValueWrite c n v) s fun d => s.dev.OnlyAnswer d St.ok [])
      ∧ (may = false → Completes (.counterValueWrite c n v) s fun d => s.dev.OnlyAnswer d St.access []))
    ∧ (turn RegMap.dLPE_TIME_SET.base →
      (s.dev.plan.firstTick = none → Completes (.timeSet v) s fun d =>
          d.ns = v.toNat ∧ d.frac = 0 ∧ d.clockNs = s.dev.clockNs ∧ s.dev.Answered d St.ok [] ∧ s.dev.KeepsWords d s.dev.answerWords
            ∧ s.dev.KeepsParts d (.time :: .sup :: s.dev.answerParts) ∧ s.dev.KeepsMemory d)
      ∧ (s.dev.plan.firstTick ≠ none → Completes (.timeSet v) s fun d => s.dev.OnlyAnswer d St.busy []))
    ∧ (turn RegMap.dCLK_OUT_CFG.base → Completes (.clkOutWrite v) s fun d =>
        let pps := bitsOf v.toNat 0 1 = 1
        let tick := bitsOf v.toNat 1 1 = 1
        let waits := pps ∧ tick ∧ s.dev.get R.CLK_OUT_STAT_LAND_FN = 2
        d.word RegMap.dCLK_OUT_CFG.base = RegMap.dCLK_OUT_CFG.merge 0 (s.dev.word RegMap.dCLK_OUT_CFG.base) v.toNat % 2 ^ 64
          ∧ (waits → d.get R.CLK_OUT_STAT_LAND_FN = 2 ∧ d.sup.ppsTakes = true)
          ∧ (¬waits → d.sup.ppsTakes = false ∧ (pps → d.get R.CLK_OUT_STAT_LAND_FN = 1)
              ∧ (¬pps → tick → d.get R.CLK_OUT_STAT_LAND_FN = 2) ∧ (¬pps → ¬tick → d.get R.CLK_OUT_STAT_LAND_FN = 0))
          ∧ d.get R.CLK_OUT_STAT_TICK_OUT_STATUS = (if pps ∧ tick ∧ ¬waits then 0x0B else 0)
          ∧ d.sup = { s.dev.sup with ppsTakes := d.sup.ppsTakes } ∧ s.dev.Answered d St.ok []
          ∧ s.dev.KeepsWords d ([R.CLK_OUT_CFG_PPS_OUT_EN.addr, R.CLK_OUT_STAT_LAND_FN.addr] ++ s.dev.answerWords)
          ∧ s.dev.KeepsParts d (.sup :: s.dev.answerParts) ∧ s.dev.KeepsMemory d)
    ∧ (turn RegMap.dCFG_BOOT.base → Completes (.preferWrite v) s fun d =>
        d.get R.CFG_BOOT_PREFER = bitsOf v.toNat 2 1 ∧ d.nvm.apart = { s.dev.nvm.apart with prefer := bitsOf v.toNat 2 1 }
          ∧ (s.dev.ctl.queue = [] → d.nvm = { s.dev.nvm with prefer := bitsOf v.toNat 2 1 })
          ∧ d.get R.CFG_BOOT_RUN_SLOT = s.dev.get R.CFG_BOOT_RUN_SLOT ∧ s.dev.Answered d St.ok []
          ∧ s.dev.KeepsWords d (R.CFG_BOOT_PREFER.addr :: s.dev.answerWords)
          ∧ s.dev.KeepsParts d (.nvm :: s.dev.answerParts) ∧ s.dev.KeepsMemory d)

/-- R564, R565 and Table 15.5.
Completes, under conditions on the state and the operands alone, with the effect said: SLOT_WIN_WRITE, SLOT_ERASE, SLOT_VERIFY,
SLOT_OP_DONE.
Where the model chose: log entries 5, 17, 18 and 38. -/
def Obligations.SlotOperations : Prop :=
  ∀ s : State, s.Running →
    (s.dev.regionStopped 21 = false → s.dev.get R.LCS_STAT_STATE < 4 →
      (∀ (o : Nat) (v : Word), s.dev.Turn 0x02 (slotWinAddr o) (beBytes 8 v.toNat) →
        let other := s.dev.otherSlot
        let erased := s.dev.get (R.CFG_SLOT_STAT_STATE other) = 2
        let inWindow := o % 8 = 0 ∧ o < 768 * 2 ^ 20
        let runs := s.dev.get R.CFG_BOOT_RUN_SLOT ≠ 3
        (inWindow → runs → erased → (s.dev.nvm.slot other).find (o / 8) = none →
          Completes (.slotWinWrite o v) s fun d =>
            (∀ w, (d.nvm.slot other).find w = if w = o / 8 then some v else (s.dev.nvm.slot other).find w)
              ∧ d.nvm.slot (1 - other) = s.dev.nvm.slot (1 - other)
              ∧ { d.nvm.apart with slotA := [], slotB := [] } = { s.dev.nvm.apart with slotA := [], slotB := [] }
              ∧ s.dev.Answered d St.ok []
              ∧ s.dev.KeepsWords d ((R.CFG_SLOT_STAT_WRITTEN_KIB other).addr :: slotWinAddr o :: s.dev.answerWords)
              ∧ s.dev.KeepsParts d (.nvm :: s.dev.answerParts) ∧ s.dev.KeepsMemory d)
        ∧ (inWindow → ¬runs ∨ (erased ∧ (s.dev.nvm.slot other).find (o / 8) ≠ none) →
          Completes (.slotWinWrite o v) s fun d => s.dev.OnlyAnswer d St.access [])
        ∧ (inWindow → runs → ¬erased → Completes (.slotWinWrite o v) s fun d => s.dev.OnlyAnswer d St.busy [])
        ∧ (¬inWindow → Completes (.slotWinWrite o v) s fun d => s.dev.OnlyAnswer d St.badAddress []))
      ∧ (∀ slot : Fin 2, ∀ c ∈ [Instr.slotErase slot, Instr.slotVerify slot],
        let op := if c = .slotErase slot then 1 else 2
        s.dev.Turn 0x02 RegMap.dCFG_SLOT_CTL.base (beBytes 8 (op + 4 * slot.val)) →
        (s.dev.ctl.slotOp = none → s.dev.get R.CFG_BOOT_RUN_SLOT ≠ slot.val →
          Completes c s fun d =>
            d.ctl.slotOp = some ⟨op, slot.val⟩ ∧ d.get (R.CFG_SLOT_STAT_STATE slot.val) = (if op = 1 then 1 else 3)
              ∧ d.nvm.apart = s.dev.nvm.apart ∧ s.dev.Answered d St.ok []
              ∧ s.dev.KeepsWords d ([(R.CFG_SLOT_STAT_STATE slot.val).addr, RegMap.dCFG_SLOT_CTL.base] ++ s.dev.answerWords)
              ∧ s.dev.KeepsParts d s.dev.answerParts ∧ s.dev.KeepsMemory d)
        ∧ (s.dev.ctl.slotOp ≠ none →
          Completes c s fun d => s.dev.OnlyAnswer d St.busy [] ∧ d.ctl.slotOp = s.dev.ctl.slotOp)
        ∧ (s.dev.ctl.slotOp = none → s.dev.get R.CFG_BOOT_RUN_SLOT = slot.val →
          Completes c s fun d => s.dev.OnlyAnswer d St.access [] ∧ d.ctl.slotOp = none)))
    ∧ (s.dev.nvmStopped = false →
      (∀ o : SlotOp, s.dev.ctl.slotOp = some o → o.slot < 2 → o.op = 1 ∨ o.op = 2 →
        Completes .slotOpDone s fun d =>
          d.ctl = { s.dev.ctl with slotOp := none } ∧ s.dev.Counts d C.JRN_ENTRIES 1
            ∧ (o.op = 1 → d.nvm.slot o.slot = [] ∧ d.get (R.CFG_SLOT_STAT_STATE o.slot) = 2)
            ∧ (o.op = 2 → d.nvm.slot o.slot = s.dev.nvm.slot o.slot ∧ d.get (R.CFG_SLOT_STAT_STATE o.slot)
                = if (verifyImage (s.dev.nvm.slot o.slot) s.dev.sec.rootKey o.slot).isNone then 4 else 5)
            ∧ d.nvm.slot (1 - o.slot) = s.dev.nvm.slot (1 - o.slot)
            ∧ s.dev.KeepsWords d ((R.CFG_SLOT_STAT_STATE o.slot).addr :: C.SEC_VERIFY_FAIL :: journalWords)
            ∧ s.dev.KeepsParts d [.ctl, .nvm, .jrn, .port, .lpe] ∧ s.dev.KeepsMemory d)
      ∧ (s.dev.ctl.slotOp = none → exec .slotOpDone s = .next s))

/-- R578, R579 and R591.
Completes, under conditions on the state and the operands alone, with the effect said: READ, READ_BLOCK, WRITE_BLOCK,
ENDORSE_WRITE.
Where the model chose: log entries 5, 18 and 39. -/
def Obligations.BlockAccesses : Prop :=
  ∀ s : State, s.RunsIn 21 →
    let restarted := [R.PORT_INLINE_BUF_PEAK_KIB.addr, R.PRS_RECIRC_STAT_PEAK.addr, R.SEQ_RING_STAT_PEAK.addr, R.APR_TEMP_COMPUTE_PEAK_C.addr]
    let given (st : Nat) (d : Dev) : Prop :=
      d.ctl.last.1 = st ∧ s.dev.Answered d st d.ctl.last.2 ∧ s.dev.KeepsWords d (restarted ++ s.dev.answerWords)
        ∧ s.dev.KeepsParts d s.dev.answerParts ∧ s.dev.KeepsMemory d
    (∀ a, s.dev.Turn 0x01 a [] →
      (∀ v, s.dev.readWord a = some v → Completes (.read a) s fun d =>
          given St.ok d ∧ d.ctl.last.2 = beBytes 8 v
            ∧ (∀ r ∈ s.dev.ctl.queue.head?, s.dev.up r.sp = true → r.sp < s.dev.port.subs.length →
                s.dev.SendsOwn d r.sp (s.dev.response r St.ok (beBytes 8 v))))
      ∧ (s.dev.readWord a = none → Completes (.read a) s fun d => s.dev.OnlyAnswer d St.badAddress []))
    ∧ (∀ a n, s.dev.Turn 0x03 a (beBytes 2 n ++ zeros 6) → n < 65536 →
      (1 ≤ n → n ≤ 1140 → (∀ i < n, s.dev.blockBad a (a + 8 * i) = false) →
        Completes (.readBlock a n) s fun d => given St.ok d ∧ d.ctl.last.2.length = 8 * n
          ∧ ∀ v, s.dev.readWord a = some v → d.ctl.last.2.take 8 = beBytes 8 v)
      ∧ (1 ≤ n → n ≤ 1140 → (∃ i < n, s.dev.blockBad a (a + 8 * i) = true) →
        Completes (.readBlock a n) s fun d => s.dev.OnlyAnswer d St.badAddress [])
      ∧ (n = 0 ∨ 1140 < n → Completes (.readBlock a n) s fun d => s.dev.OnlyAnswer d St.malformed []))
    ∧ (∀ (a : Nat) (vs : List Word), s.dev.get R.LCS_STAT_STATE < 4 →
        s.dev.Turn 0x04 a (vs.map fun v => beBytes 8 v.toNat).flatten →
      (1 ≤ vs.length → vs.length ≤ 1140 → a ≠ RegMap.dDEV_ENDORSE.base →
        (∀ i < vs.length, (∀ j < i, s.dev.blockBad a (a + 8 * j) = false) → s.dev.blockBad a (a + 8 * i) = true →
          Completes (.writeBlock a vs) s fun d => s.dev.OnlyAnswer d St.badAddress (beBytes 2 i))
        ∧ ((∀ i < vs.length, s.dev.blockBad a (a + 8 * i) = false) →
          (∀ i st, (hi : i < vs.length) → (∀ j, (hj : j < i) → s.dev.writeStatus (a + 8 * j) (vs[j]'(by omega)).toNat = St.ok) →
              s.dev.writeStatus (a + 8 * i) vs[i].toNat = st → st ≠ St.ok →
            Completes (.writeBlock a vs) s fun d => s.dev.OnlyAnswer d st (beBytes 2 i))
          ∧ ((∀ j, (hj : j < vs.length) → s.dev.writeStatus (a + 8 * j) vs[j].toNat = St.ok
                ∧ ∃ r i, RegMap.lookup RegMap.regs (a + 8 * j) = some (r, i) ∧ r.base = RegMap.dLPE_SEL.base) →
            Completes (.writeBlock a vs) s fun d =>
              s.dev.Answered d St.ok [] ∧ s.dev.KeepsWords d (blockAddrs a vs.length ++ s.dev.answerWords)
                ∧ s.dev.KeepsParts d s.dev.answerParts ∧ s.dev.KeepsMemory d
                ∧ ∀ j, (hj : j < vs.length) → ∀ r i, RegMap.lookup RegMap.regs (a + 8 * j) = some (r, i) →
                    d.word (a + 8 * j) = r.merge i (s.dev.word (a + 8 * j)) vs[j].toNat % 2 ^ 64)))
      ∧ (vs = [] ∨ 1140 < vs.length → Completes (.writeBlock a vs) s fun d => s.dev.OnlyAnswer d St.malformed []))
    ∧ (∀ vs : List Word, s.dev.get R.LCS_STAT_STATE < 4 → vs.length ≤ 1024 → vs ≠ [] →
        s.dev.Turn 0x04 RegMap.dDEV_ENDORSE.base (vs.map fun v => beBytes 8 v.toNat).flatten →
      let len := (vs.headD 0).toNat
      let fits := 1 ≤ len ∧ len ≤ 8184 ∧ len ≤ 8 * (vs.length - 1)
      let may := s.dev.get R.LCS_STAT_STORED = 0 ∧ s.dev.nvm.endorsement = []
      (may → fits →
        Completes (.endorseWrite vs) s fun d =>
          s.dev.Answered d St.ok [] ∧ d.nvm.endorsement.length = len
            ∧ (∀ i < len, byteAt d.nvm.endorsement i = BitVec.ofNat 8 (((vs.getD (i / 8 + 1) 0).toNat >>> (8 * (i % 8)))))
            ∧ { d.nvm.apart with endorsement := [] } = { s.dev.nvm.apart with endorsement := [] }
            ∧ s.dev.KeepsWords d s.dev.answerWords ∧ s.dev.KeepsParts d (.nvm :: s.dev.answerParts) ∧ s.dev.KeepsMemory d)
      ∧ (may → ¬fits → Completes (.endorseWrite vs) s fun d => s.dev.OnlyAnswer d St.malformed (beBytes 2 0))
      ∧ (¬may → Completes (.endorseWrite vs) s fun d => s.dev.OnlyAnswer d St.access (beBytes 2 0)))

/-- R570 to R576: Table 15.9 up to check 8. `before` and `after` are the frames that wait with `f`.
Completes, under conditions on the state and the operands alone, with the effect said: CONTROL_REQUEST_RECEIVE.
Where the model chose: log entry 18. -/
def Obligations.RequestChecked : Prop :=
  (∀ s : State, s.RunsIn 21 → s.dev.port.ctlRx = [] → exec .controlRequestReceive s = .next s)
  ∧ ∀ (s : State) (before : List RxFrame) (f : RxFrame) (after : List RxFrame), s.RunsIn 21 →
    s.dev.port.ctlRx = before ++ f :: after → f.sp < 8 → (∀ g ∈ before.head?, g.rxTime = f.rxTime) →
    (∀ g ∈ before, g.rxTime = f.rxTime → f.sp < g.sp) → (∀ g ∈ after, g.rxTime = f.rxTime → f.sp ≤ g.sp) →
    let r := controlRequest f
    let known := s.dev.ctl.seqs.find? fun e => e.mac = r.sa
    let fresh : Bool := known.all fun e => seqNewer e.last r.seq
    let taken (d : Dev) : Prop :=
      d.port.ctlRx = before ++ after ∧ s.dev.Counts d C.CFG_CTL_REQUESTS 1
        ∧ d.port.macCtl = s.dev.port.macCtl ∧ d.port.hallRx = s.dev.port.hallRx
        ∧ s.dev.KeepsParts d [.port, .ctl, .lpe, .jrn, .nvm] ∧ d.nvm.apart = s.dev.nvm.apart ∧ s.dev.KeepsMemory d
    let sends (st : Nat) (payload : List Byte) (d : Dev) : Prop :=
      s.dev.up f.sp = true → f.sp < s.dev.port.subs.length → s.dev.SendsOwn d f.sp (s.dev.response r st payload)
    let early (st c : Nat) : Prop := Completes .controlRequestReceive s fun d =>
      taken d ∧ s.dev.Counts d C.CFG_CTL_REFUSED 1 ∧ s.dev.Counts d c 1 ∧ sends st [] d ∧ d.ctl.queue = s.dev.ctl.queue
        ∧ d.ctl.seqs = s.dev.ctl.seqs ∧ d.ctl.tokens = s.dev.ctl.tokens ∧ d.jrn = s.dev.jrn ∧ d.nvm = s.dev.nvm
    let refused (st : Nat) (payload : List Byte) (more : Dev → Prop) : Prop := Completes .controlRequestReceive s fun d =>
      taken d ∧ s.dev.Counts d C.CFG_CTL_REFUSED 1 ∧ d.ctl.queue = s.dev.ctl.queue ∧ d.ctl.tokens = s.dev.ctl.tokens - 1
        ∧ (opcodeChanging r.opcode = false → sends st payload d ∧ d.jrn = s.dev.jrn)
        ∧ (opcodeChanging r.opcode = true → s.dev.Counts d C.JRN_ENTRIES 1) ∧ more d
    (s.dev.admitted r = false → early St.access C.CFG_CTL_SRC_REFUSED)
    ∧ (s.dev.admitted r = true → s.dev.ctl.tokens = 0 → early St.rateLimited C.CFG_CTL_RATE_LIMITED)
    ∧ (s.dev.admitted r = true → 0 < s.dev.ctl.tokens →
      (9120 < r.len → refused St.tooLarge [] fun d => d.ctl.seqs = s.dev.ctl.seqs)
      ∧ (r.len ≤ 9120 → requestFormed f r = false → refused St.malformed [] fun d =>
          d.ctl.seqs = s.dev.ctl.seqs ∧ s.dev.Counts d (C.PORT_CTL_MALFORMED f.sp) 1)
      ∧ (r.len ≤ 9120 → requestFormed f r = true →
        (∀ e, known = some e → seqNewer e.last r.seq = false →
          refused St.stale (beBytes 4 e.last ++ beBytes 1 (e.status.getD 0xFF) ++ zeros 3) fun d =>
            s.dev.Counts d (C.PORT_CTL_STALE f.sp) 1)
        ∧ (fresh = true → opcodeKnown r.opcode = false → refused St.badOpcode [] fun d =>
            ∃ e ∈ d.ctl.seqs, e.mac = r.sa ∧ e.last = r.seq ∧ e.status = some St.badOpcode)
        ∧ (fresh = true → opcodeKnown r.opcode = true → opcodeAccepted r.opcode (s.dev.get R.LCS_STAT_STATE) = false →
            refused St.lifecycle [] fun d => ∃ e ∈ d.ctl.seqs, e.mac = r.sa ∧ e.last = r.seq ∧ e.status = some St.lifecycle)
        ∧ (fresh = true → opcodeKnown r.opcode = true → opcodeAccepted r.opcode (s.dev.get R.LCS_STAT_STATE) = true →
            256 ≤ s.dev.ctl.queue.length → refused St.busy [] fun d => s.dev.Counts d C.CFG_CTL_QUEUE_FULL 1)
        ∧ (fresh = true → opcodeKnown r.opcode = true → opcodeAccepted r.opcode (s.dev.get R.LCS_STAT_STATE) = true →
            s.dev.ctl.queue.length < 256 →
          Completes .controlRequestReceive s fun d =>
            taken d ∧ d.port = { s.dev.port with ctlRx := before ++ after } ∧ d.ctl.queue = s.dev.ctl.queue ++ [r]
              ∧ d.get R.CFG_CTL_CFG_QUEUE_OCC = s.dev.ctl.queue.length + 1 ∧ d.ctl.tokens = s.dev.ctl.tokens - 1
              ∧ (∃ e ∈ d.ctl.seqs, e.mac = r.sa ∧ e.last = r.seq ∧ e.status = none) ∧ d.jrn = s.dev.jrn ∧ d.nvm = s.dev.nvm
              ∧ s.dev.KeepsWords d [C.CFG_CTL_REQUESTS, C.CFG_SEQ_EVICTED, R.CFG_CTL_CFG_QUEUE_OCC.addr])))

/-- R573, R581, R582, R584 and R585.
Completes, under conditions on the state and the operands alone, with the effect said: JOURNAL_PULL, TOKEN_REFILL, SUMMARY,
JOURNAL_BATCH_CLOSE.
Where the model chose: log entries 3, 5 and 19. -/
def Obligations.JournalKeeps : Prop :=
  ∀ s : State, s.RunsIn 21 →
    (Completes .tokenRefill s fun d =>
        d.ns % 1000000 = 0 ∧ s.dev.ns ≤ d.ns ∧ d.ns < s.dev.ns + 1000000 ∧ s.dev.KeepsWords d [] ∧ s.dev.KeepsMemory d
          ∧ d.ctl = { s.dev.ctl with tokens := min (s.dev.get R.CFG_CTL_CFG_BURST) (s.dev.ctl.tokens + s.dev.get R.CFG_CTL_CFG_RATE_PER_MS) }
          ∧ s.dev.KeepsParts d [.time, .ctl])
    ∧ (Completes .summary s fun d =>
        d.ns % 1000000000 = 0 ∧ s.dev.ns ≤ d.ns ∧ d.ns < s.dev.ns + 1000000000
          ∧ d.ctl = { s.dev.ctl with refused := [], surplus := ⟨0, 0, 0⟩ }
          ∧ s.dev.KeepsWords d (C.JRN_SUMMARY :: journalWords) ∧ s.dev.KeepsParts d [.time, .ctl, .jrn, .nvm, .port, .lpe]
          ∧ d.nvm.apart = s.dev.nvm.apart ∧ s.dev.KeepsMemory d
          ∧ ∃ n, (n = s.dev.ctl.refused.length ∨ n = s.dev.ctl.refused.length + 1)
            ∧ (n = s.dev.ctl.refused.length + 1 ↔ s.dev.ctl.surplus.access + s.dev.ctl.surplus.rate ≠ 0)
            ∧ s.dev.Counts d C.JRN_SUMMARY n ∧ s.dev.Counts d C.JRN_ENTRIES n)
    ∧ (s.dev.jrn.entries = [] → exec .journalBatchClose s = .next s)
    ∧ (s.dev.jrn.entries ≠ [] → Completes .journalBatchClose s fun d =>
        d.jrn.entries = [] ∧ d.nvm.lastBatch = s.dev.nvm.lastBatch + 1 ∧ d.nvm.marker = none
          ∧ d.nvm.nextJseq = s.dev.nvm.nextJseq ∧ s.dev.nvm.jrnHead < d.nvm.jrnHead ∧ s.dev.Counts d C.JRN_BATCHES 1
          ∧ d.clockNs = max s.dev.clockNs (s.dev.jrn.openClock + 1000000000) ∧ (∃ b ∈ d.nvm.journal, b.pos = s.dev.nvm.jrnHead)
          ∧ s.dev.KeepsWords d journalWords ∧ s.dev.KeepsParts d [.time, .jrn, .nvm, .port, .lpe]
          ∧ d.nvm.apart = s.dev.nvm.apart ∧ s.dev.KeepsMemory d)
    ∧ (∀ payload : List Byte, s.dev.Turn 0x50 0 payload →
      let ok := payload.length = 16 ∧ beAt payload 0 1 = 4 ∧ 1 ≤ beAt payload 2 2 ∧ beAt payload 2 2 ≤ 256 ∧ beAt payload 8 8 % 32 = 0
      let pos := max (s.dev.get R.JRN_STAT_OLDEST) (beAt payload 8 8)
      let n := min (min (beAt payload 2 2) s.dev.frameUnits) ((s.dev.get R.JRN_STAT_HEAD - pos) / 32)
      (¬ok → Completes (.journalPull payload) s fun d => s.dev.OnlyAnswer d St.malformed [])
      ∧ (ok → Completes (.journalPull payload) s fun d =>
          s.dev.Answered d St.ok (beBytes 8 pos ++ ringSlice s.dev.nvm.journal pos (pos + 32 * n)) ∧ s.dev.KeepsWords d s.dev.answerWords
            ∧ s.dev.KeepsParts d (.lpe :: s.dev.answerParts) ∧ d.jrn = s.dev.jrn ∧ d.nvm = s.dev.nvm ∧ s.dev.KeepsMemory d))

/-- R580 with R595 and Table 16.10.
Completes, under conditions on the state and the operands alone, with the effect said: RESET.
Where the model chose: log entries 5 and 20. -/
def Obligations.ResetWipes : Prop :=
  ∀ (s : State) (payload : List Byte), s.RunsIn 21 → s.dev.Turn 0x7F 0 payload →
    (payload.length = 16 → beAt payload 0 1 ≤ 2 → (∀ b ∈ payload.drop 1, b = 0) →
      Completes (.reset payload) s fun d =>
        (∀ a, a ≠ R.PWR_STAT_VIN_LOW.addr → d.word a = Dev.reset.word a)
          ∧ d.get R.PWR_STAT_VIN_HIGH = b2n (s.dev.sup.vinRow = 1) ∧ d.get R.PWR_STAT_VIN_LOW = b2n (s.dev.sup.vinRow = 3)
          ∧ d.fab = Fabric.reset ∧ d.front = Front.reset ∧ d.plan = Plan.reset ∧ d.lens = Lens.reset ∧ d.seq = Seq.reset
          ∧ d.sync = Sync.reset ∧ d.ctl = Ctl.reset ∧ d.jrn = Journal.reset ∧ d.sec = Sec.reset ∧ d.lpe = Loupe.reset
          ∧ d.port = { Port.reset with sent := d.port.sent } ∧ d.ns = 0
          ∧ d.sup.phase = (if s.dev.sup.resetLow then .held else .starting) ∧ d.sup.cause = 3 ∧ d.sup.nextSlot = beAt payload 0 1
          ∧ d.sup.unlocked = [] ∧ d.sup.heldTiers = s.dev.sup.heldTiers ∧ d.sup.vinRow = s.dev.sup.vinRow
          ∧ (s.dev.jrn.entries ≠ [] ∨ s.dev.ctl.queue ≠ [] → s.dev.nvm.lastBatch < d.nvm.lastBatch)
          ∧ (s.dev.jrn.entries ≠ [] → s.dev.ctl.queue = [] → d.nvm.lastBatch = s.dev.nvm.lastBatch + 1)
          ∧ (s.dev.nvm.keys.length = 3 → ∀ k ∈ d.nvm.keys, k.exact_.isSome = true)
          ∧ { d.nvm.apart with standing := [] } = { s.dev.nvm.apart with standing := [] } ∧ d.life = s.dev.life)
    ∧ (¬(payload.length = 16 ∧ beAt payload 0 1 ≤ 2 ∧ ∀ b ∈ payload.drop 1, b = 0) →
      Completes (.reset payload) s fun d => s.dev.OnlyAnswer d St.malformed [])

/-- Table 12.1 with R434 and R437 to R439.
Completes, under conditions on the state and the operands alone, with the effect said: COUNTER_SIGNAL, COUNTER_WAIT, TRY_TAKE,
COUNTER_READ.
Where the model chose: log entry 59. -/
def Obligations.CounterOperations : Prop :=
  ∀ (s : State) (c : Fin 256) (v n : BitVec 16) (e : EngineId), s.RunsIn 20 → 1 ≤ n.toNat →
    let only (ws : List Nat) (d : Dev) : Prop := s.dev.KeepsWords d ws ∧ s.dev.KeepsParts d [.sync] ∧ s.dev.KeepsMemory d
    (∀ p, s.dev.physCtr c.val v.toNat = some p →
      let x := s.dev.ctr p
      let raised : Ctr := { x with value := x.value + n.toNat, signaller := e.toNat }
      let free := s.dev.sync.waits.any (s.dev.waitsOn p) = false
      (free → x.value + n.toNat ≤ 65535 → s.dev.sync.written ≠ some (p, s.dev.ns) →
        Completes (.counterSignal c v n e) s fun d =>
          d.ctr p = raised ∧ (∀ y ≠ p, d.ctr y = s.dev.ctr y) ∧ s.dev.Counts d C.SYN_SIGNALS 1
            ∧ d.sync.waits = s.dev.sync.waits ∧ only [C.SYN_SIGNALS] d)
      ∧ (free → x.value + n.toNat ≤ 65535 → s.dev.sync.written = some (p, s.dev.ns) →
        Completes (.counterSignal c v n e) s fun d =>
          (d.ctr p = x ∨ d.ctr p = raised) ∧ (∀ y ≠ p, d.ctr y = s.dev.ctr y) ∧ s.dev.Counts d C.SYN_SIGNALS 1
            ∧ d.sync.waits = s.dev.sync.waits ∧ only [C.SYN_SIGNALS] d)
      ∧ (free → 65535 < x.value + n.toNat → s.dev.sync.written ≠ some (p, s.dev.ns) →
        Completes (.counterSignal c v n e) s fun d =>
          d.ctr p = x ∧ (∀ y, s.dev.sync.waits.any (s.dev.waitsOn y) = false → d.ctr y = s.dev.ctr y)
            ∧ s.dev.Counts d C.SYN_SIGNALS 1 ∧ s.dev.Counts d C.SYN_OVERFLOW 1 ∧ d.get (R.SYN_CTX_STAT_STATE c.val) = 2
            ∧ s.dev.KeepsMemory d)
      ∧ (free → n.toNat ≤ x.value →
        Completes (.counterWait c v n e) s fun d =>
          d.ctr p = { x with value := x.value - n.toNat } ∧ (∀ y ≠ p, d.ctr y = s.dev.ctr y)
            ∧ d.sync.answers.find e.toNat = some .released ∧ d.sync.waits = s.dev.sync.waits ∧ only [] d)
      ∧ (¬free ∨ x.value < n.toNat →
        Completes (.counterWait c v n e) s fun d =>
          (∀ y, d.ctr y = s.dev.ctr y) ∧ s.dev.Counts d C.SYN_WAITS_BLOCKED 1
            ∧ (∃ w : Wait, d.sync.waits = s.dev.sync.waits ++ [w] ∧ w.on = .counter v.toNat n.toNat ∧ w.context = c.val
                ∧ w.engine = e.toNat ∧ w.ticks = 0)
            ∧ only [C.SYN_WAITS_BLOCKED, C.SYN_STORE_FULL] d)
      ∧ (n.toNat ≤ x.value →
        Completes (.tryTake c v n e) s fun d =>
          d.ctr p = { x with value := x.value - n.toNat } ∧ (∀ y ≠ p, d.ctr y = s.dev.ctr y)
            ∧ d.sync.answers.find e.toNat = some (.taken true) ∧ d.sync.waits = s.dev.sync.waits ∧ only [] d)
      ∧ (x.value < n.toNat →
        Completes (.tryTake c v n e) s fun d =>
          (∀ y, d.ctr y = s.dev.ctr y) ∧ s.dev.Counts d C.SYN_UNDERFLOW 1
            ∧ d.sync.answers.find e.toNat = some (.taken false) ∧ d.sync.waits = s.dev.sync.waits ∧ only [C.SYN_UNDERFLOW] d)
      ∧ Completes (.counterRead c v e) s fun d =>
          d.sync.answers.find e.toNat = some (.count x.value) ∧ (∀ y, d.ctr y = s.dev.ctr y)
            ∧ d.sync.waits = s.dev.sync.waits ∧ only [] d)
    ∧ (s.dev.physCtr c.val v.toNat = none →
      ∀ i ∈ [Instr.counterSignal c v n e, .counterWait c v n e, .tryTake c v n e, .counterRead c v e],
        Completes i s fun d => (∀ y, s.dev.sync.waits.any (s.dev.waitsOn y) = false → d.ctr y = s.dev.ctr y)
          ∧ d.get (R.SYN_CTX_STAT_STATE c.val) = 2
          ∧ s.dev.Counts d C.SYN_CTX_FAULTS 1 ∧ s.dev.KeepsMemory d)

/-- R439 for the waiter at the front of a counter's order.
Completes, under conditions on the state and the operands alone, with the effect said: COUNTER_SIGNAL.
Where the model chose: log entry 59. -/
def Obligations.SignalReleasesWaiter : Prop :=
  ∀ (s : State) (c : Fin 256) (v n : BitVec 16) (e : EngineId) (p k : Nat) (w : Wait) (v' : Nat), s.RunsIn 20 →
    s.dev.physCtr c.val v.toNat = some p → s.dev.sync.written ≠ some (p, s.dev.ns) → w.on = .counter v' k → w.stored = true →
    s.dev.physCtr w.context v' = some p → (s.dev.ctr p).value + n.toNat ≤ 65535 →
    let only (d : Dev) : Prop := s.dev.KeepsWords d [C.SYN_SIGNALS] ∧ s.dev.KeepsParts d [.sync] ∧ s.dev.KeepsMemory d
    let raised : Dev := s.dev.setCtr p { s.dev.ctr p with value := (s.dev.ctr p).value + n.toNat, signaller := e.toNat }
    (s.dev.sync.waits = [w] → k ≤ (s.dev.ctr p).value + n.toNat →
      Completes (.counterSignal c v n e) s fun d =>
        (d.ctr p).value = (s.dev.ctr p).value + n.toNat - k ∧ (d.ctr p).signaller = e.toNat ∧ d.sync.waits = []
          ∧ d.sync.answers.find w.engine = some .released ∧ (∀ x ≠ p, d.ctr x = s.dev.ctr x) ∧ only d)
    ∧ (s.dev.sync.waits = [w] → (s.dev.ctr p).value + n.toNat < k →
      Completes (.counterSignal c v n e) s fun d =>
        (d.ctr p).value = (s.dev.ctr p).value + n.toNat ∧ (d.ctr p).signaller = e.toNat ∧ d.sync.waits = [w]
          ∧ d.sync.answers = s.dev.sync.answers ∧ (∀ x ≠ p, d.ctr x = s.dev.ctr x) ∧ only d)
    ∧ (∀ before rest : List Wait, s.dev.sync.waits = before ++ w :: rest → raised.covered w = true →
        (∀ x ∈ before, raised.covered x = false ∨ s.dev.waitsOn p x = false) →
        (∀ x ∈ (raised.releaseWait w (before ++ rest)).sync.waits, (raised.releaseWait w (before ++ rest)).covered x = false) →
      Completes (.counterSignal c v n e) s fun d =>
        (d.ctr p).value = (s.dev.ctr p).value + n.toNat - k ∧ (d.ctr p).signaller = e.toNat
          ∧ d.sync.waits.length + 1 = s.dev.sync.waits.length ∧ d.sync.answers.find w.engine = some .released
          ∧ (∀ x ≠ p, d.ctr x = s.dev.ctr x) ∧ only d)

/-- R440 and R441. That an operation by a context or cluster that has no right to the signal changes nothing is the model's choice
(log entry 30).
Completes, under conditions on the state and the operands alone, with the effect said: PIN_SET, PIN_CLEAR, PIN_WAIT, PIN_TEST. -/
def Obligations.PinnedSignals : Prop :=
  ∀ (s : State) (c core : Fin 256) (pin : Fin 48) (e : EngineId), s.RunsIn 20 →
    let word := (R.SYN_PIN_SET core.val pin.val).addr
    let set (d : Dev) : Nat := d.get (R.SYN_PIN_SET core.val pin.val)
    let only (ws : List Nat) (ps : List Part) (d : Dev) : Prop := s.dev.KeepsWords d ws ∧ s.dev.KeepsParts d ps ∧ s.dev.KeepsMemory d
    let waiting : Wait → Bool := fun w => w.on = .pin core.val pin.val
    (s.dev.pinAllowed c.val core.val pin.val e.toNat = true →
      (set s.dev = 0 → s.dev.sync.waits.any waiting = false →
        Completes (.pinSet c core pin e) s fun d =>
          set d = 1 ∧ d.get (R.SYN_PIN_LAST_SIGNALLER core.val pin.val) = e.toNat ∧ only [word] [] d)
      ∧ (set s.dev = 0 →
        Completes (.pinWait c core pin e) s fun d =>
          set d = 0 ∧ d.get (R.SYN_PIN_WAITING core.val pin.val) = 1
            ∧ (∃ w : Wait, d.sync.waits = s.dev.sync.waits ++ [w] ∧ w.on = .pin core.val pin.val ∧ w.engine = e.toNat ∧ w.context = c.val)
            ∧ s.dev.Counts d C.SYN_WAITS_BLOCKED 1 ∧ only [word, C.SYN_WAITS_BLOCKED] [.sync] d)
      ∧ (∀ (before : List Wait) (w : Wait) (rest : List Wait), set s.dev = 0 → s.dev.sync.waits = before ++ w :: rest → waiting w = true →
          before.any waiting = false →
        Completes (.pinSet c core pin e) s fun d =>
          set d = 0 ∧ d.get (R.SYN_PIN_WAITING core.val pin.val) = b2n (rest.any waiting)
            ∧ d.get (R.SYN_PIN_LAST_SIGNALLER core.val pin.val) = e.toNat
            ∧ d.sync.waits.length = before.length + rest.length ∧ (before ++ rest = [] → d.sync.waits = [])
            ∧ d.sync.answers.find w.engine = some .released ∧ only [word] [.sync] d)
      ∧ (set s.dev = 1 →
        Completes (.pinSet c core pin e) s (fun d =>
          set d = 1 ∧ s.dev.Counts d C.SYN_OVERFLOW 1 ∧ d.get (R.SYN_CTX_STAT_STATE c.val) = 2 ∧ s.dev.KeepsMemory d)
        ∧ Completes (.pinWait c core pin e) s fun d =>
          set d = 0 ∧ d.sync.answers.find e.toNat = some .released ∧ d.sync.waits = s.dev.sync.waits ∧ only [word] [.sync] d)
      ∧ Completes (.pinClear c core pin e) s (fun d =>
          set d = 0 ∧ d.get (R.SYN_PIN_LAST_SIGNALLER core.val pin.val) = s.dev.get (R.SYN_PIN_LAST_SIGNALLER core.val pin.val)
            ∧ only [word] [] d)
      ∧ Completes (.pinTest c core pin e) s fun d =>
          d.sync.answers.find e.toNat = some (.bit (set s.dev = 1)) ∧ d.sync.waits = s.dev.sync.waits ∧ only [] [.sync] d)
    ∧ (s.dev.pinAllowed c.val core.val pin.val e.toNat = false →
      ∀ i ∈ [Instr.pinSet c core pin e, .pinClear c core pin e, .pinWait c core pin e, .pinTest c core pin e],
        Completes i s fun d => d = s.dev)

/-- R442, R444 and R448.
Completes, under conditions on the state and the operands alone, with the effect said: ARRIVE, BOARD_BARRIER_HIGH, WATCHDOG_FIRE.
Where the model chose: log entry 8. -/
def Obligations.BarriersAndWatchdog : Prop :=
  ∀ s : State, s.RunsIn 20 →
    (∀ (b : Fin 16) (e : EngineId) (m : Nat), memberBit e.toNat = some m → s.dev.on (R.SYN_BAR_ALLOCATED b.val) = true →
        (s.dev.barMask b.val).testBit m = true → (s.dev.arrivedBits b.val).testBit m = false →
      let bits := s.dev.arrivedBits b.val + 2 ^ m
      let mask := s.dev.barMask b.val
      let board := s.dev.on (R.SYN_BAR_BOARD b.val) && s.dev.on R.TKP_MODE_FABRIC_BOARD
      let generation (d : Dev) : Nat := d.get (R.SYN_BAR_GENERATION b.val)
      let only (ps : List Part) (d : Dev) : Prop :=
        s.dev.KeepsWords d [(R.SYN_BAR_ARRIVED b.val).addr, (R.SYN_BAR_GENERATION b.val).addr, C.SYN_WAITS_BLOCKED, C.SYN_BAR_RELEASES]
          ∧ s.dev.KeepsParts d ps ∧ s.dev.KeepsMemory d
      let blocked (d : Dev) : Prop :=
        d.arrivedBits b.val = bits ∧ d.get (R.SYN_BAR_ARRIVED b.val) = popCount 272 bits
          ∧ (∃ w : Wait, d.sync.waits = s.dev.sync.waits ++ [w] ∧ w.on = .barrier b.val ∧ w.engine = e.toNat)
          ∧ generation d = generation s.dev ∧ s.dev.Counts d C.SYN_WAITS_BLOCKED 1
      (bits &&& mask ≠ mask → Completes (.arrive b e) s fun d => blocked d ∧ d.sync.boardReleased = s.dev.sync.boardReleased ∧ only [.sync] d)
      ∧ (bits &&& mask = mask →
        (board = false →
          Completes (.arrive b e) s fun d =>
            d.get (R.SYN_BAR_ARRIVED b.val) = 0 ∧ d.arrivedBits b.val = 0 ∧ generation d = (generation s.dev + 1) % 2 ^ 32
              ∧ s.dev.Counts d C.SYN_BAR_RELEASES 1 ∧ (∀ w ∈ d.sync.waits, w.on ≠ .barrier b.val)
              ∧ d.sync.answers.find e.toNat = some .released ∧ only [.sync] d)
        ∧ (board = true → s.dev.get R.RST_STAT_STAGE = 0x0C →
          Completes (.arrive b e) s fun d =>
            blocked d ∧ d.sync.boardReleased = true ∧ d.sup = { s.dev.sup with barrierLow := false } ∧ only [.sync, .sup] d)
        ∧ (board = true → s.dev.get R.RST_STAT_STAGE ≠ 0x0C →
          Completes (.arrive b e) s fun d => blocked d ∧ d.sync.boardReleased = s.dev.sync.boardReleased ∧ only [.sync] d)))
    ∧ (∀ (b : Fin 16) (e : EngineId), (∀ m, memberBit e.toNat = some m → s.dev.on (R.SYN_BAR_ALLOCATED b.val) = false
          ∨ (s.dev.barMask b.val).testBit m = false ∨ (s.dev.arrivedBits b.val).testBit m = true) →
        Completes (.arrive b e) s fun d => d = s.dev)
    ∧ (∀ b < 16, s.dev.sync.boardReleased = true → s.dev.on (R.SYN_BAR_ALLOCATED b) = true → s.dev.on (R.SYN_BAR_BOARD b) = true →
        (∀ x < b, s.dev.on (R.SYN_BAR_ALLOCATED x) = false ∨ s.dev.on (R.SYN_BAR_BOARD x) = false) →
      Completes .boardBarrierHigh s fun d =>
        d.sync.boardReleased = false ∧ d.sup = { s.dev.sup with barrierLow := true }
          ∧ d.get (R.SYN_BAR_GENERATION b) = (s.dev.get (R.SYN_BAR_GENERATION b) + 1) % 2 ^ 32 ∧ d.get (R.SYN_BAR_ARRIVED b) = 0
          ∧ (∀ w ∈ d.sync.waits, w.on ≠ .barrier b) ∧ s.dev.Counts d C.SYN_BAR_RELEASES 1
          ∧ s.dev.KeepsWords d [(R.SYN_BAR_ARRIVED b).addr, (R.SYN_BAR_GENERATION b).addr, C.SYN_BAR_RELEASES]
          ∧ s.dev.KeepsParts d [.sync, .sup] ∧ s.dev.KeepsMemory d)
    ∧ (s.dev.sync.boardReleased = false → exec .boardBarrierHigh s = .next s)
    ∧ (∀ c : Fin 256,
      ((∃ w ∈ s.dev.sync.waits, w.context = c.val ∧ s.dev.get (R.SYN_CTX_CFG_WDOG_TICKS c.val) ≤ w.ticks) →
        Completes (.watchdogFire c) s fun d =>
          s.dev.Counts d C.SYN_WDOG_FIRES 1 ∧ s.dev.Counts d C.SYN_CTX_FAULTS 1 ∧ d.get (R.SYN_CTX_STAT_STATE c.val) = 2
            ∧ (s.dev.faulted c.val = false → d.get (R.SYN_CTX_STAT_CAUSE c.val) = 1))
      ∧ ((∀ w ∈ s.dev.sync.waits, w.context = c.val → w.ticks < s.dev.get (R.SYN_CTX_CFG_WDOG_TICKS c.val)) →
        Completes (.watchdogFire c) s fun d => d = s.dev))

/-- Table 12.6 and R458, R459.
Completes, under conditions on the state and the operands alone, with the effect said: QUEUE_PUSH, QUEUE_READ.
Where the model chose: log entry 60. -/
def Obligations.QueuePushRead : Prop :=
  ∀ s : State, s.RunsIn 20 →
    let others (q : Nat) (d : Dev) : Prop := ∀ r, r ≠ q → d.queue r = s.dev.queue r
    let only (q : Nat) (ws : List Nat) (d : Dev) : Prop :=
      others q d ∧ s.dev.KeepsWords d ((R.QUE_STAT_LEVEL q).addr :: ws) ∧ s.dev.KeepsParts d [.sync] ∧ s.dev.KeepsMemory d
    (∀ p : PushReq, s.dev.on (R.QUE_DESC_ENABLE p.queue.val) = false → exec (.queuePush p) s = .next s)
    ∧ (∀ p : PushReq, s.dev.on (R.QUE_DESC_ENABLE p.queue.val) = true →
      let q := p.queue.val
      let x := s.dev.queue q
      let level := x.entries.length
      let going : Prop := s.dev.itemOpen q = true ∧ s.dev.on (R.QUE_STAT_DISCARDING q) = false
      let fits : Prop := (p.soi = true ∧ s.dev.itemOpen q = false) ∨ (p.soi = false ∧ going ∧ level - x.visible < 32)
      let quiet : Prop := s.dev.on (R.QUE_DESC_ITEM_NOTICE q) = false ∧ s.dev.on (R.QUE_DESC_EVENT_EN q) = false ∧ level < 64
        ∧ ∀ e ∈ x.entries, e.spilledAt = none
      let answers (ok : Bool) (d : Dev) : Prop := d.sync.answers.find p.engine.toNat = some (.pushed ok)
      let kept (d : Dev) : Prop := (d.queue q).entries = x.entries ∧ (d.queue q).visible = x.visible
      (s.dev.faulted (s.dev.get (R.QUE_DESC_CONTEXT q)) = true →
        Completes (.queuePush p) s fun d =>
          kept d ∧ s.dev.Counts d C.QUE_DROPPED_FAULTED 1 ∧ answers true d ∧ only q [C.QUE_DROPPED_FAULTED] d)
      ∧ (s.dev.faulted (s.dev.get (R.QUE_DESC_CONTEXT q)) = false →
        (fits → level < s.dev.queueCap q → Completes (.queuePush p) s fun d =>
            (d.queue q).entries.length = level + 1
              ∧ (d.queue q).entries.getLast? = some ⟨padTo 64 p.entry, p.soi, p.eoi, none⟩
              ∧ (d.queue q).visible = (if p.eoi then level + 1 else x.visible)
              ∧ s.dev.Counts d (C.QUE_ITEMS_IN q) (b2n p.eoi) ∧ answers true d
              ∧ (quiet → (d.queue q).entries = x.entries ++ [⟨padTo 64 p.entry, p.soi, p.eoi, none⟩]
                  ∧ only q [(R.QUE_STAT_WM_MAX q).addr, (R.QUE_STAT_WM_CROSSINGS q).addr, C.QUE_ITEMS_IN q, C.QUE_WM_NOTICES] d))
        ∧ (fits → s.dev.queueCap q ≤ level → p.blocking = false → Completes (.queuePush p) s fun d =>
            kept d ∧ s.dev.Counts d C.QUE_PUSH_REFUSED 1 ∧ answers false d ∧ only q [C.QUE_PUSH_REFUSED] d)
        ∧ (fits → s.dev.queueCap q ≤ level → p.blocking = true → Completes (.queuePush p) s fun d =>
            kept d ∧ s.dev.Counts d C.SYN_WAITS_BLOCKED 1
              ∧ (∃ w : Wait, d.sync.waits = s.dev.sync.waits ++ [w] ∧ w.on = .push q p.entry p.soi p.eoi ∧ w.engine = p.engine.toNat)
              ∧ only q [C.SYN_WAITS_BLOCKED] d)
        ∧ (p.soi = false → s.dev.itemOpen q = false ∨ s.dev.on (R.QUE_STAT_DISCARDING q) = true → Completes (.queuePush p) s fun d =>
            kept d ∧ s.dev.Counts d C.QUE_DISCARDED_ENTRIES 1 ∧ answers true d ∧ only q [C.QUE_DISCARDED_ENTRIES] d)
        ∧ (p.soi = true → s.dev.itemOpen q = true → Completes (.queuePush p) s fun d =>
            (d.queue q).entries.length = min x.visible level + 1 ∧ s.dev.Counts d (C.QUE_TORN_ITEMS q) 1
              ∧ (d.queue q).entries.getLast? = some ⟨padTo 64 p.entry, p.soi, p.eoi, none⟩ ∧ answers true d
              ∧ (quiet → (d.queue q).entries = x.entries.take x.visible ++ [⟨padTo 64 p.entry, p.soi, p.eoi, none⟩]
                  ∧ only q [(R.QUE_STAT_WM_MAX q).addr, (R.QUE_STAT_WM_CROSSINGS q).addr, C.QUE_ITEMS_IN q, C.QUE_WM_NOTICES,
                    C.QUE_TORN_ITEMS q] d))
        ∧ (p.soi = false → going → 32 ≤ level - x.visible →
          Completes (.queuePush p) s fun d =>
            (d.queue q).entries = x.entries.take x.visible ∧ d.get (R.QUE_STAT_DISCARDING q) = 1
              ∧ d.itemOpen q = false ∧ s.dev.Counts d C.QUE_ITEM_TOO_LONG 1 ∧ answers true d
              ∧ only q [C.QUE_ITEM_TOO_LONG] d)))
    ∧ (∀ (q : Fin 4096) (e : EngineId),
      let x := s.dev.queue q.val
      (∀ (y : QEntry) (rest : List QEntry), x.entries = y :: rest → 0 < x.visible →
          (∀ w ∈ s.dev.sync.waits, ∀ data soi eoi, w.on ≠ .push q.val data soi eoi) →
        Completes (.queueRead q e) s fun d =>
          d.sync.answers.find e.toNat = some (.entry y.data y.soi y.eoi) ∧ (d.queue q.val).entries.length = rest.length
            ∧ (d.queue q.val).visible = x.visible - 1 ∧ (d.queue q.val).lastRead = some y.data
            ∧ (d.queue q.val).timedOut = false ∧ (d.queue q.val).lastReadNs = s.dev.ns
            ∧ s.dev.Counts d (C.QUE_ITEMS_OUT q.val) (b2n y.eoi)
            ∧ (rest.length ≤ 64 → (∀ z ∈ rest, z.spilledAt = none) →
                (d.queue q.val).entries = rest ∧ only q.val [(R.QUE_STAT_CONS_MID_ITEM q.val).addr, C.QUE_ITEMS_OUT q.val] d))
      ∧ (x.visible = 0 ∨ x.entries = [] →
        Completes (.queueRead q e) s fun d =>
          d.get (R.QUE_STAT_UNDERRUN q.val) = 1 ∧ s.dev.Counts d (C.QUE_UNDERRUNS q.val) 1
            ∧ d.queue q.val = { x with lastReadNs := s.dev.ns, timedOut := false }
            ∧ d.sync.answers.find e.toNat = some (.entry (x.lastRead.getD (zeros 64)) false false)
            ∧ only q.val [(R.QUE_STAT_UNDERRUN q.val).addr, C.QUE_UNDERRUNS q.val] d))

/-- R462, R463 and R465 to R467.
Completes, under conditions on the state and the operands alone, with the effect said: QUEUE_TIMEOUT, CLEAR_NOTICE, FLUSH,
PACKET_BOUNDARY_FLUSH, FLUSH_FORCED.
Where the model chose: log entry 60. -/
def Obligations.QueueNoticesFlushes : Prop :=
  ∀ (s : State) (q : Fin 4096), s.RunsIn 20 →
    let x := s.dev.queue q.val
    let stat := [(R.QUE_STAT_LEVEL q.val).addr, (R.QUE_STAT_TIMEOUT_HIT q.val).addr, (R.QUE_STAT_FLUSH_PENDING q.val).addr]
    let only (ws : List Nat) (ps : List Part) (d : Dev) : Prop :=
      (∀ r, r ≠ q.val → d.queue r = s.dev.queue r) ∧ s.dev.KeepsWords d (stat ++ ws) ∧ s.dev.KeepsParts d ps ∧ s.dev.KeepsMemory d
    let idle : Prop := ∀ w ∈ s.dev.sync.waits, ∀ data soi eoi, w.on ≠ .push q.val data soi eoi
    let kept : Nat := if s.dev.on (R.QUE_STAT_CONS_MID_ITEM q.val) then min x.visible (restOfItem x.entries) else 0
    let flushed (d : Dev) : Prop := d.get (R.QUE_STAT_FLUSH_PENDING q.val) = 0 ∧ s.dev.Counts d C.QUE_FLUSHES 1
      ∧ (d.queue q.val).flushTicks = 0
      ∧ (idle → (d.queue q.val).entries = x.entries.take kept
          ∧ s.dev.Counts d C.QUE_FLUSHED_ITEMS (((x.entries.take x.visible).drop kept).countP fun e => e.eoi)
          ∧ s.dev.Counts d (C.QUE_TORN_ITEMS q.val) (b2n (s.dev.itemOpen q.val)) ∧ d.itemOpen q.val = false
          ∧ only [C.QUE_FLUSHES, C.QUE_FLUSHED_ITEMS, C.QUE_TORN_ITEMS q.val, C.QUE_FLUSH_FORCED] [.sync] d)
    (s.dev.get (R.QUE_DESC_TIMEOUT_NS q.val) ≠ 0 → x.visible ≠ 0 → x.timedOut = false →
      Completes (.queueTimeout q) s fun d =>
        d.get (R.QUE_STAT_TIMEOUT_HIT q.val) = 1 ∧ s.dev.Counts d C.QUE_TIMEOUT_NOTICES 1
          ∧ d.ns = max s.dev.ns (max x.lastReadNs x.firstVisibleNs + s.dev.get (R.QUE_DESC_TIMEOUT_NS q.val))
          ∧ d.queue q.val = { x with timedOut := true }
          ∧ (s.dev.on (R.QUE_DESC_EVENT_EN q.val) = false → only [C.QUE_TIMEOUT_NOTICES] [.sync, .time] d))
    ∧ (s.dev.get (R.QUE_DESC_TIMEOUT_NS q.val) = 0 ∨ x.visible = 0 ∨ x.timedOut = true →
      Completes (.queueTimeout q) s fun d => d = s.dev)
    ∧ (x.entries.length < 2 ^ 15 → Completes (.clearNotice q) s fun d =>
        d.get (R.QUE_STAT_WM_HIT q.val) = 0 ∧ d.get (R.QUE_STAT_WM_CROSSINGS q.val) = 0
          ∧ d.get (R.QUE_STAT_WM_MAX q.val) = x.entries.length
          ∧ s.dev.KeepsWords d [(R.QUE_STAT_WM_HIT q.val).addr, (R.QUE_STAT_WM_CROSSINGS q.val).addr, (R.QUE_STAT_WM_MAX q.val).addr]
          ∧ s.dev.KeepsParts d [] ∧ s.dev.KeepsMemory d)
    ∧ (s.dev.on R.TKP_MODE_FLUSH_COMPAT = false → Completes (.flush q) s flushed)
    ∧ (s.dev.on R.TKP_MODE_FLUSH_COMPAT = true → s.dev.on (R.QUE_STAT_FLUSH_PENDING q.val) = false → Completes (.flush q) s fun d =>
        d.get (R.QUE_STAT_FLUSH_PENDING q.val) = 1 ∧ d.queue q.val = { x with flushTicks := 0 } ∧ only [] [.sync] d)
    ∧ (s.dev.on R.TKP_MODE_FLUSH_COMPAT = true → s.dev.on (R.QUE_STAT_FLUSH_PENDING q.val) = true → Completes (.flush q) s fun d => d = s.dev)
    ∧ (s.dev.on (R.QUE_STAT_FLUSH_PENDING q.val) = true → s.dev.itemOpen q.val = false → Completes (.packetBoundaryFlush q) s flushed)
    ∧ (s.dev.on (R.QUE_STAT_FLUSH_PENDING q.val) = false ∨ s.dev.itemOpen q.val = true →
        Completes (.packetBoundaryFlush q) s fun d => d = s.dev)
    ∧ (s.dev.on (R.QUE_STAT_FLUSH_PENDING q.val) = true → 4 ≤ x.flushTicks → Completes (.flushForced q) s fun d =>
        flushed d ∧ s.dev.Counts d C.QUE_FLUSH_FORCED 1)
    ∧ (s.dev.on (R.QUE_STAT_FLUSH_PENDING q.val) = false ∨ x.flushTicks < 4 → Completes (.flushForced q) s fun d => d = s.dev)

/-- R97, R103, R118 to R122, R129, R131 and R153: a pass from its entry to its outcome.
Completes, under conditions on the state and the operands alone, with the effect said: PARSE_PASS_ENTER, PARSE_PASS_END.
Where the model chose: log entry 29. -/
def Obligations.PassesWalkTheGraph : Prop :=
  ∀ s : State, s.RunsIn 17 →
    (∀ p : Packet, s.dev.front.packets.find? (fun p => decide (p.stage = .arrived)) = some p → p.passes = 0 →
      Completes .parsePassEnter s fun d =>
        { p with stage := .parsing (s.dev.word R.PRS_CFG_STEP_LIMIT.addr) 0 (s.dev.get (R.PRS_ENTRY_NODE p.sp))
                   (s.dev.get (R.CLS_ENTRY_PROFILE_PROFILE p.sp)), passes := 1, firstEntry := s.dev.clockNs } ∈ d.front.packets
          ∧ d.front = { s.dev.front with packets := d.front.packets, parsing := s.dev.front.parsing ++ [p.id] }
          ∧ (∀ q, q.id ≠ p.id → (q ∈ d.front.packets ↔ q ∈ s.dev.front.packets))
          ∧ s.dev.Counts d C.PRS_PASSES 1 ∧ s.dev.Counts d C.PRS_PACKETS 1
          ∧ s.dev.KeepsWords d [C.PRS_PASSES, C.PRS_PACKETS] ∧ s.dev.KeepsParts d [.front] ∧ s.dev.KeepsMemory d)
    ∧ (∀ (p : Packet) (id : Nat) (rest : List Nat) (node slot profile : Nat), (∀ q ∈ s.dev.front.packets, q.stage ≠ .arrived) →
        s.dev.front.recircs = id :: rest → s.dev.packet? id = some p → p.stage = .recirc node slot profile → p.passes ≠ 0 →
      (s.dev.clockNs < p.firstEntry + 400 → Completes .parsePassEnter s fun d =>
        { p with stage := .parsing (s.dev.word R.PRS_CFG_STEP_LIMIT.addr) (leAt p.pass.fv (12 + 2 * slot) 2) node profile,
                 passes := p.passes + 1 } ∈ d.front.packets
          ∧ d.front = { s.dev.front with packets := d.front.packets, recircs := rest, parsing := s.dev.front.parsing ++ [id] }
          ∧ (∀ q, q.id ≠ id → (q ∈ d.front.packets ↔ q ∈ s.dev.front.packets))
          ∧ s.dev.Counts d C.PRS_PASSES 1 ∧ s.dev.Counts d C.PRS_RECIRC_PASSES 1
          ∧ s.dev.KeepsWords d [C.PRS_PASSES, C.PRS_RECIRC_PASSES, R.PRS_RECIRC_STAT_OCC.addr] ∧ s.dev.KeepsParts d [.front]
          ∧ s.dev.KeepsMemory d)
      ∧ (p.firstEntry + 400 ≤ s.dev.clockNs → exec .parsePassEnter s = .next s))
    ∧ ((∀ q ∈ s.dev.front.packets, q.stage ≠ .arrived) → s.dev.front.recircs = [] → exec .parsePassEnter s = .next s)
    ∧ (s.dev.front.parsing = [] → exec .parsePassEnd s = .next s)
    ∧ (∀ (p : Packet) (id : Nat) (rest : List Nat) (cfg start node profile : Nat), s.dev.front.parsing = id :: rest →
        s.dev.packet? id = some p → p.stage = .parsing cfg start node profile → p.sp < 8 → p.slot < 4 →
      let r := s.dev.parsePass p.frame cfg start node
      let cur := s.dev.get R.CLS_STATE_CUR_SLOT
      let outcome := if r.outcome = 0 then C.PRS_NORMAL else if r.outcome = 1 then C.PRS_DEPTH_EXCEEDED
        else if r.outcome = 2 then C.PRS_MALFORMED_LENGTH else C.PRS_FRAGMENTS
      let counted (d : Dev) : Prop := s.dev.Counts d C.PRS_STEPS r.walk.steps ∧ s.dev.Counts d outcome 1
        ∧ s.dev.Counts d C.PRS_WINDOW_END (if r.outcome = 1 ∧ r.windowEnd = true then 1 else 0) ∧ d.front.parsing = rest
        ∧ s.dev.KeepsMemory d
      let gone (d : Dev) : Prop := counted d ∧ (∀ q ∈ d.front.packets, q.id ≠ id)
        ∧ (∀ q, q.id ≠ id → (q ∈ d.front.packets ↔ q ∈ s.dev.front.packets))
        ∧ d.front = { s.dev.front with packets := d.front.packets, parsing := rest, sweeps := d.front.sweeps }
        ∧ s.dev.KeepsWords d ([C.PRS_STEPS, outcome, C.PRS_WINDOW_END, C.PRS_DEPTH_DROP, (R.CLS_VER_REFCOUNT p.slot).addr,
            R.CLS_STATE_SWEEP_BUSY.addr, C.PORT_TX_LINK_DOWN p.sp] ++ flowWords)
        ∧ s.dev.KeepsParts d [.front, .port]
      (r.outcome = 0 ∨ r.outcome = 3 ∨ (r.outcome = 1 ∧ bitsOf cfg 5 2 = 0) →
        Completes .parsePassEnd s fun d => counted d
          ∧ (∃ q ∈ d.front.packets, q.id = id ∧ q.stage = .searching cfg profile ∧ q.pass.outcome = r.outcome
            ∧ q.pass.flags = (if r.outcome = 1 then 0x004 else if r.outcome = 3 then 0x010 else 0)
            ∧ q.pass.fv = s.dev.fieldVector r (p.passes - 1) p.sp p.frame.length
            ∧ (p.passes = 1 → q.slot = cur ∧ q.ver = s.dev.get (R.CLS_VER_VER cur) ∧ q.refHeld = true)
            ∧ (p.passes ≠ 1 → q.slot = p.slot ∧ q.ver = p.ver ∧ q.refHeld = p.refHeld))
          ∧ (∀ q, q.id ≠ id → (q ∈ d.front.packets ↔ q ∈ s.dev.front.packets))
          ∧ d.front = { s.dev.front with packets := d.front.packets, parsing := rest, searching := s.dev.front.searching ++ [id] }
          ∧ (p.passes = 1 → d.get (R.CLS_VER_REFCOUNT cur) = (s.dev.get (R.CLS_VER_REFCOUNT cur) + 1) % 2 ^ 20)
          ∧ s.dev.KeepsWords d ([C.PRS_STEPS, outcome, C.PRS_WINDOW_END]
              ++ if p.passes = 1 then [(R.CLS_VER_REFCOUNT cur).addr] else [])
          ∧ s.dev.KeepsParts d [.front])
      ∧ (∀ reason, (r.outcome = 2 ∧ reason = 4) ∨ (r.outcome = 1 ∧ bitsOf cfg 5 2 = 2 ∧ reason = 3) →
        Completes .parsePassEnd s fun d => gone d
            ∧ (p.mode = 0 → p.gone = false → s.dev.up p.sp = true → p.sp < s.dev.port.subs.length →
              ∃ e : EgressItem, (d.port.subs.getD p.sp SubPort.empty).egress = (s.dev.port.subs.getD p.sp SubPort.empty).egress ++ [e]
                ∧ e.packet = id ∧ e.bytes = p.frame.take 12 ++ s.dev.shimTag
                    { flags := if reason = 4 then 0x008 else 0x004, ruleVer := s.dev.get R.CLS_STATE_CUR_VER, tier := 0xF,
                      reason := reason, gen := 0, cls := s.dev.get R.PRS_MAL_VERDICT_MAL_CLASS, score := 0x7E00,
                      action := s.dev.get R.PRS_MAL_VERDICT_MAL_ACTION, tick := s.dev.tick32 } ++ p.frame.drop 12)
            ∧ (p.mode ≠ 0 ∨ p.gone = true ∨ s.dev.up p.sp = false →
                ∀ x, (d.port.subs.getD x SubPort.empty).egress = (s.dev.port.subs.getD x SubPort.empty).egress))
      ∧ (r.outcome = 1 → bitsOf cfg 5 2 = 1 →
        Completes .parsePassEnd s fun d => gone d ∧ s.dev.Counts d C.PRS_DEPTH_DROP 1
          ∧ ∀ x, (d.port.subs.getD x SubPort.empty).egress = (s.dev.port.subs.getD x SubPort.empty).egress))

/-- R157, R158, R160, R162 to R164 and R172, with R574's order of execution.
Completes, under conditions on the state and the operands alone, with the effect said: RULE_STAGE, COPY_SWEEP_END, RULE_COMMIT.
Where the model chose: log entries 5 and 21. -/
def Obligations.RulesStagedAndCommitted : Prop :=
  ∀ s : State, s.Running →
    let k := s.dev.get R.CLS_STATE_STAGE_SLOT
    let cur := s.dev.get R.CLS_STATE_CUR_SLOT
    let stageRefused (st : Nat) (answer : List Byte) (d : Dev) : Prop :=
      s.dev.Answered d st answer ∧ s.dev.Counts d C.CLS_STAGE_REFUSED 1 ∧ s.dev.KeepsWords d (C.CLS_STAGE_REFUSED :: s.dev.answerWords)
        ∧ s.dev.KeepsParts d s.dev.answerParts ∧ s.dev.KeepsMemory d
    (∀ payload : List Byte, s.dev.regionStopped 21 = false → s.dev.front.opening = none → s.dev.Turn 0x10 0 payload →
      let n := payload.length / 96
      let reserved : Bool := (recordsOf n payload).any recordReserved
      (s.dev.get R.LCS_STAT_STATE ≠ 2 → Completes (.ruleStage payload) s (stageRefused St.lifecycle []))
      ∧ (s.dev.get R.LCS_STAT_STATE = 2 → 9120 < payload.length → Completes (.ruleStage payload) s (stageRefused St.tooLarge []))
      ∧ (s.dev.get R.LCS_STAT_STATE = 2 → payload.length ≤ 9120 → payload.length = 0 ∨ payload.length % 96 ≠ 0 →
          Completes (.ruleStage payload) s (stageRefused St.malformed []))
      ∧ (s.dev.get R.LCS_STAT_STATE = 2 → 96 ≤ payload.length → payload.length ≤ 9120 → payload.length % 96 = 0 →
        (s.dev.on R.CLS_STATE_STAGE_OPEN = false →
          (∀ st i, reserved = true → s.dev.stageRefusal cur n [] payload 0 = some (st, i) →
            Completes (.ruleStage payload) s (stageRefused st (beBytes 2 i)))
          ∧ (∀ f, reserved = false → (List.range 4).find? (fun x => decide (s.dev.get (R.CLS_VER_STATE x) = 0)) = some f →
            Completes (.ruleStage payload) s fun d =>
              d.get (R.CLS_VER_STATE f) = 1 ∧ d.get R.CLS_STATE_STAGE_OPEN = 1 ∧ d.get R.CLS_STATE_STAGE_SLOT = f
                ∧ d.get R.CLS_STATE_SWEEP_BUSY = 1 ∧ d.ctl.last = s.dev.ctl.last
                ∧ d.front = { s.dev.front with opening := some payload, sweeps := s.dev.front.sweeps ++ [⟨f, true⟩] }
                ∧ s.dev.KeepsWords d [(R.CLS_VER_STATE f).addr, R.CLS_STATE_STAGE_OPEN.addr] ∧ s.dev.KeepsParts d [.front, .ctl]
                ∧ s.dev.KeepsMemory d)
          ∧ (reserved = false → (∀ x < 4, s.dev.get (R.CLS_VER_STATE x) ≠ 0) →
            Completes (.ruleStage payload) s (stageRefused St.busy [])))
        ∧ (s.dev.on R.CLS_STATE_STAGE_OPEN = true →
          (∀ st i, s.dev.stageRecords k n payload = .inl (st, i) → Completes (.ruleStage payload) s (stageRefused st (beBytes 2 i)))
          ∧ (∀ x, s.dev.stageRecords k n payload = .inr x → Completes (.ruleStage payload) s fun d =>
              s.dev.Answered d St.ok [] ∧ s.dev.Counts d C.CLS_STAGE_RECORDS n ∧ d.front = x.front
                ∧ x.KeepsWords d ([C.CLS_STAGE_RECORDS, R.CLS_FREE_FREE.addr] ++ s.dev.answerWords)
                ∧ s.dev.KeepsParts d (.front :: s.dev.answerParts) ∧ s.dev.KeepsMemory d)
          ∧ (payload.length = 96 → beAt payload 0 1 = 1 → beAt payload 1 1 < 32 → beAt payload 2 2 < 16384 → beAt payload 92 4 = 0 →
              beAt payload 4 40 &&& beAt payload 44 40 = beAt payload 4 40 → s.dev.actionOk (beAt payload 84 8) = true →
              s.dev.posSlots (beAt payload 1 1 * 16384 + beAt payload 2 2) = 0 →
            Completes (.ruleStage payload) s fun d =>
              let p := beAt payload 1 1 * 16384 + beAt payload 2 2
              s.dev.Answered d St.ok [] ∧ d.wideWord (posAddr p) 5 = beAt payload 4 40
                ∧ d.wideWord (posAddr p + 40) 5 = beAt payload 44 40 ∧ d.word (posAddr p + 80) = beAt payload 84 8 ∧ d.posSlots p = 2 ^ k
                ∧ d.get (R.CLS_VER_ENTRIES k) = (s.dev.get (R.CLS_VER_ENTRIES k) + 1) % 2 ^ 20
                ∧ s.dev.Counts d C.CLS_STAGE_RECORDS 1
                ∧ s.dev.KeepsWords d ([(R.CLS_VER_ENTRIES 0).addr, (R.CLS_VER_ENTRIES 1).addr, (R.CLS_VER_ENTRIES 2).addr,
                    (R.CLS_VER_ENTRIES 3).addr, R.CLS_FREE_FREE.addr, C.CLS_STAGE_RECORDS]
                    ++ (List.range 12).map (fun w => posAddr p + 8 * w) ++ s.dev.answerWords)
                ∧ s.dev.KeepsParts d (.front :: s.dev.answerParts) ∧ s.dev.KeepsMemory d))))
    ∧ (s.dev.regionStopped 17 = false → s.dev.front.opening = none → exec .copySweepEnd s = .next s)
    ∧ (∀ payload : List Byte, s.dev.regionStopped 17 = false → s.dev.front.opening = some payload → s.dev.front.ruleWaits = [] → k ≠ cur →
        (s.dev.ctl.queue = [] ∨ ∃ r rest, s.dev.ctl.queue = r :: rest ∧ r.begun = true ∧ r.opcode = 0x10 ∧ r.sp < 8) →
      let e : Dev := (s.dev.dropSweep k).copyCurrent k
      let e' : Dev := { e with front := { e.front with opening := none } }
      (∀ p < 0x80000, ∀ x < 4, bitsOf (e.posSlots p) x 1
          = if x = k ∧ bitsOf (s.dev.posSlots p) cur 1 = 1 then 1 else bitsOf (s.dev.posSlots p) x 1)
      ∧ (∀ f < 16, e.word (R.CLS_DEFAULT_ACTION_WORD k f).addr = s.dev.word (R.CLS_DEFAULT_ACTION_WORD cur f).addr)
      ∧ (∀ st i, e'.stageRecords k (payload.length / 96) payload = .inl (st, i) → Completes .copySweepEnd s fun d =>
          s.dev.Answered d st (beBytes 2 i) ∧ d.front = e'.front ∧ (∀ w ∈ d.front.sweeps, w.slot ≠ k)
            ∧ e.KeepsWords d (C.CLS_STAGE_REFUSED :: s.dev.answerWords) ∧ s.dev.Counts d C.CLS_STAGE_REFUSED 1
            ∧ s.dev.KeepsParts d (.front :: s.dev.answerParts) ∧ s.dev.KeepsMemory d)
      ∧ (∀ x, e'.stageRecords k (payload.length / 96) payload = .inr x → Completes .copySweepEnd s fun d =>
          s.dev.Answered d St.ok [] ∧ d.front = x.front ∧ (∀ w ∈ d.front.sweeps, w.slot ≠ k)
            ∧ x.KeepsWords d ([C.CLS_STAGE_RECORDS, R.CLS_FREE_FREE.addr] ++ s.dev.answerWords)
            ∧ s.dev.KeepsParts d (.front :: s.dev.answerParts) ∧ s.dev.KeepsMemory d))
    ∧ (s.dev.regionStopped 17 = false → s.dev.regionStopped 21 = false → s.dev.front.opening.isSome = true →
        ∀ (payload : List Byte), ∀ c ∈ [(Instr.ruleStage payload, 0x10), (Instr.ruleCommit payload, 0x11), (Instr.ruleAbort payload, 0x12)],
        ∀ waits, s.dev.front.ruleWaits = waits ++ [(c.2, payload)] →
      let before : State := { s with dev := { s.dev with front := { s.dev.front with ruleWaits := waits } } }
      ∃ t, exec .copySweepEnd before = .next t ∧ exec .copySweepEnd s = exec c.1 t)
    ∧ (s.dev.regionStopped 21 = false → s.dev.front.opening.isSome = true → ∀ payload : List Byte,
      ∀ c ∈ [(Instr.ruleStage payload, 0x10), (Instr.ruleCommit payload, 0x11), (Instr.ruleAbort payload, 0x12)],
        Completes c.1 s fun d => d = { s.dev with front := { s.dev.front with ruleWaits := s.dev.front.ruleWaits ++ [(c.2, payload)] } })
    ∧ (∀ payload : List Byte, s.dev.regionStopped 21 = false → s.dev.front.opening = none → s.dev.Turn 0x11 0 payload →
      let newVer := (s.dev.get R.CLS_STATE_CUR_VER + 1) % 256
      (s.dev.get R.LCS_STAT_STATE ≠ 2 → Completes (.ruleCommit payload) s fun d => s.dev.OnlyAnswer d St.lifecycle [])
      ∧ (s.dev.get R.LCS_STAT_STATE = 2 → payload ≠ [] ∨ s.dev.on R.CLS_STATE_STAGE_OPEN = false →
        Completes (.ruleCommit payload) s fun d => s.dev.OnlyAnswer d St.malformed [])
      ∧ (s.dev.get R.LCS_STAT_STATE = 2 → payload = [] → s.dev.on R.CLS_STATE_STAGE_OPEN = true → 128 ≤ s.dev.versionSpan newVer →
        Completes (.ruleCommit payload) s fun d =>
          s.dev.Answered d St.versionLimit [] ∧ s.dev.Counts d C.CLS_VERSION_LIMIT 1
            ∧ s.dev.KeepsWords d (C.CLS_VERSION_LIMIT :: s.dev.answerWords) ∧ s.dev.KeepsParts d s.dev.answerParts ∧ s.dev.KeepsMemory d)
      ∧ (s.dev.get R.LCS_STAT_STATE = 2 → payload = [] → s.dev.on R.CLS_STATE_STAGE_OPEN = true → k ≠ cur →
          s.dev.versionSpan newVer < 128 →
        Completes (.ruleCommit payload) s fun d =>
          let n := s.dev.get R.CLS_COMMIT_SEQ_SEQ + 1
          d.get R.CLS_STATE_CUR_SLOT = k ∧ d.get R.CLS_STATE_CUR_VER = newVer ∧ d.get R.CLS_STATE_STAGE_OPEN = 0
            ∧ d.get (R.CLS_VER_STATE k) = 2 ∧ d.get (R.CLS_VER_VER k) = newVer ∧ d.get (R.CLS_VER_COMMIT_SEQ k) = n % 2 ^ 64
            ∧ d.get R.CLS_COMMIT_SEQ_SEQ = n % 2 ^ 64
            ∧ d.get (R.CLS_VER_STATE cur) = (if s.dev.get (R.CLS_VER_REFCOUNT cur) = 0 then 4 else 3)
            ∧ d.front = { s.dev.front with sweeps := d.front.sweeps }
            ∧ d.front.sweeps = s.dev.front.sweeps ++ (if s.dev.get (R.CLS_VER_REFCOUNT cur) = 0 then [⟨cur, false⟩] else [])
            ∧ s.dev.Counts d C.CLS_COMMITS 1 ∧ s.dev.Answered d St.ok (beBytes 1 newVer ++ zeros 7 ++ beBytes 8 n)
            ∧ s.dev.KeepsWords d ([R.CLS_STATE_CUR_VER.addr, R.CLS_COMMIT_SEQ_SEQ.addr, (R.CLS_VER_VER k).addr,
                (R.CLS_VER_COMMIT_SEQ k).addr, (R.CLS_VER_STATE cur).addr, C.CLS_COMMITS] ++ s.dev.answerWords)
            ∧ s.dev.KeepsParts d (.front :: s.dev.answerParts) ∧ s.dev.KeepsMemory d))

/-- R161. A copy sweep under way (`opening`) is the time in which the staging's opening request has not been answered, and in which
R574 has a later request wait (`ruleWaits`). That the row runs without a request in the queue is log entry 5; when the bits of a swept
slot change is log entry 21.
Completes, under conditions on the state and the operands alone, with the effect said: RULE_ABORT, SWEEP_END. -/
def Obligations.AbortSweepsTheSlot : Prop :=
  ∀ s : State, s.Running →
    (∀ payload : List Byte, s.dev.regionStopped 21 = false → s.dev.front.opening = none → s.dev.Turn 0x12 0 payload →
      (s.dev.get R.LCS_STAT_STATE ≠ 2 → Completes (.ruleAbort payload) s fun d => s.dev.OnlyAnswer d St.lifecycle [])
      ∧ (s.dev.get R.LCS_STAT_STATE = 2 → payload ≠ [] ∨ s.dev.on R.CLS_STATE_STAGE_OPEN = false →
        Completes (.ruleAbort payload) s fun d => s.dev.OnlyAnswer d St.malformed [])
      ∧ (s.dev.get R.LCS_STAT_STATE = 2 → payload = [] → s.dev.on R.CLS_STATE_STAGE_OPEN = true →
        Completes (.ruleAbort payload) s fun d =>
          let k := s.dev.get R.CLS_STATE_STAGE_SLOT
          d.get R.CLS_STATE_STAGE_OPEN = 0 ∧ d.get (R.CLS_VER_STATE k) = 4
            ∧ d.front = { s.dev.front with sweeps := s.dev.front.sweeps ++ [⟨k, false⟩] }
            ∧ d.get R.CLS_STATE_SWEEP_BUSY = 1 ∧ s.dev.Counts d C.CLS_ABORTS 1 ∧ s.dev.Answered d St.ok []
            ∧ s.dev.KeepsWords d ([R.CLS_STATE_STAGE_OPEN.addr, (R.CLS_VER_STATE k).addr, C.CLS_ABORTS] ++ s.dev.answerWords)
            ∧ s.dev.KeepsParts d (.front :: s.dev.answerParts) ∧ s.dev.KeepsMemory d))
    ∧ (∀ payload : List Byte, s.dev.regionStopped 21 = false → s.dev.front.opening.isSome = true →
        Completes (.ruleAbort payload) s fun d =>
          d = { s.dev with front := { s.dev.front with ruleWaits := s.dev.front.ruleWaits ++ [(0x12, payload)] } })
    ∧ (∀ k : Fin 4, s.dev.regionStopped 17 = false →
      ((⟨k.val, false⟩ : Sweep) ∈ s.dev.front.sweeps → Completes (.sweepEnd k) s fun d =>
        (∀ p < 0x80000, bitsOf (d.posSlots p) k.val 1 = 0
            ∧ (∀ x < 4, x ≠ k.val → bitsOf (d.posSlots p) x 1 = bitsOf (s.dev.posSlots p) x 1)
            ∧ ∀ w < 11, d.word (posAddr p + 8 * w) = s.dev.word (posAddr p + 8 * w))
          ∧ d.get (R.CLS_VER_STATE k.val) = 0 ∧ d.front.sweeps = (s.dev.front.sweeps.filter fun w => w.slot != k.val)
          ∧ d.get R.CLS_FREE_FREE = 0x80000 - (d.positions.filter fun p => d.posSlots p != 0).length
          ∧ (∀ x < 4, d.get (R.CLS_VER_VER x) = s.dev.get (R.CLS_VER_VER x)
              ∧ d.get (R.CLS_VER_REFCOUNT x) = s.dev.get (R.CLS_VER_REFCOUNT x))
          ∧ (∀ a, a < posAddr 0 ∨ posAddr 0x80000 ≤ a → a ∉ [R.CLS_STATE_SWEEP_BUSY.addr, R.CLS_FREE_FREE.addr] →
              (∀ x < 4, a ≠ (R.CLS_VER_STATE x).addr) → (∀ x < 4, a ≠ (R.CLS_VER_ENTRIES x).addr) → d.word a = s.dev.word a)
          ∧ s.dev.KeepsParts d [.front] ∧ s.dev.KeepsMemory d)
      ∧ ((⟨k.val, false⟩ : Sweep) ∉ s.dev.front.sweeps → exec (.sweepEnd k) s = .next s))

/-- R142, R168 and R169. The premise on the store is the model's invariant `Obligations.StoresStayCanonical`.
Completes, under conditions on the state and the operands alone, with the effect said: RULE_SCRUB, PARITY_REWRITE.
Where the model chose: log entry 29. -/
def Obligations.ParityAndSearch : Prop :=
  ∀ s : State, s.RunsIn 17 →
    (∀ named : List Nat,
      let bad := named.filter fun p => decide (p < 0x80000)
      Completes (.ruleScrub named) s fun d =>
        (∀ p ∈ bad, bitsOf (d.word (posAddr p + 88)) 4 1 = 1) ∧ s.dev.Counts d C.CLS_PARITY_ERR bad.length
          ∧ (∀ p < 0x80000, d.posSlots p = s.dev.posSlots p) ∧ (∀ p ∈ bad, d.parityOk p = false)
          ∧ d.front = { s.dev.front with parity := d.front.parity }
          ∧ (∀ p < 0x80000, p ∉ bad → d.parityBit p = s.dev.parityBit p)
          ∧ s.dev.KeepsWords d (C.CLS_PARITY_ERR :: bad.map fun p => posAddr p + 88) ∧ s.dev.KeepsParts d [.front, .lpe]
          ∧ s.dev.KeepsMemory d)
    ∧ (∀ p : Nat,
      (p < 0x80000 → bitsOf (s.dev.word (posAddr p + 88)) 4 1 = 1 →
        Completes (.parityRewrite p) s fun d =>
          (∀ w < 11, d.word (posAddr p + 8 * w) = (Sparse.read (fun _ => 0) s.dev.front.ruleCopy (posAddr p + 8 * w) : Word).toNat)
            ∧ d.word (posAddr p + 88) = setBits (Sparse.read (fun _ => 0) s.dev.front.ruleCopy (posAddr p + 88) : Word).toNat 4 1 0
            ∧ d.parityOk p = true ∧ d.front = { s.dev.front with parity := d.front.parity }
            ∧ (∀ q < 0x80000, q ≠ p → d.parityBit q = s.dev.parityBit q)
            ∧ s.dev.KeepsWords d ((List.range 12).map fun w => posAddr p + 8 * w) ∧ s.dev.KeepsParts d [.front] ∧ s.dev.KeepsMemory d)
      ∧ (0x80000 ≤ p ∨ bitsOf (s.dev.word (posAddr p + 88)) 4 1 = 0 → exec (.parityRewrite p) s = .next s))
    ∧ (∀ key slot p bad, bitsOf (s.dev.word (posAddr p + 88)) 4 1 = 1 ∨ s.dev.parityOk p = false ∨ p ∈ bad → s.dev.posMatches key slot bad p = false)
    ∧ (∀ profile slot fv bad p, Sparse.wf resetWord s.dev.regs = true → slot < 4 → s.dev.search profile slot fv bad = some p →
        s.dev.posMatches (s.dev.key profile fv) slot bad p = true ∧ p / 16384 ∈ s.dev.bankList profile
          ∧ (∀ q < p, q / 16384 = p / 16384 → s.dev.posMatches (s.dev.key profile fv) slot bad q = false)
          ∧ ∀ before after_, s.dev.bankList profile = before ++ (p / 16384) :: after_ →
              ∀ q < 0x80000, q / 16384 ∈ before → s.dev.posMatches (s.dev.key profile fv) slot bad q = false)

/-- R128 to R132, R145, R168, R173, R183 and R185. The premise on the store is the model's invariant `Obligations.StoresStayCanonical`.
Completes, under conditions on the state and the operands alone, with the effect said: SEARCH_RESULT, RECIRC_WITHDRAWN,
BUCKET_READ_RETURN.
Where the model chose: log entries 29 and 31. -/
def Obligations.SearchesAndLookups : Prop :=
  ∀ s : State, s.RunsIn 17 →
    let flowKey (p : Packet) (aw : Nat) : FlowKey := s.dev.packetKey { p with action := aw }
    let direct (p : Packet) (aw : Nat) : Prop :=
      s.dev.front.lookups = [] ∧ (s.dev.cacheSet ((flowKey p aw).hash % 2 ^ 16)).any (fun l => feIs l.data (flowKey p aw)) = true
        ∧ s.dev.on (R.FLW_POLICY_ENT0_EN (policyOf aw)) = false ∧ s.dev.on (R.FLW_POLICY_ENT1_EN (policyOf aw)) = false
    let refWords (p : Packet) : List Nat := [(R.CLS_VER_REFCOUNT p.slot).addr, R.CLS_STATE_SWEEP_BUSY.addr]
    let waits (p : Packet) (aw : Nat) (d : Dev) : Prop :=
      (∃ q ∈ d.front.packets, q.id = p.id ∧ q.stage = .flow ∧ q.action = aw ∧ q.refHeld = false ∧ q.key = some (flowKey p aw) ∧ q.pass = p.pass)
        ∧ (∀ q, q.id ≠ p.id → (q ∈ d.front.packets ↔ q ∈ s.dev.front.packets))
        ∧ d.front.lookups = s.dev.front.lookups ++ [p.id] ∧ s.dev.Counts d C.FLW_LOOKUPS 1
        ∧ s.dev.Counts d C.FLW_FRAG_PACKETS (b2n (flowKey p aw).frag)
        ∧ (p.refHeld = true → d.get (R.CLS_VER_REFCOUNT p.slot) = (s.dev.get (R.CLS_VER_REFCOUNT p.slot) - 1) % 2 ^ 20)
    let ended (p : Packet) (aw : Nat) (d : Dev) : Prop :=
      (p.mode = 0 → p.gone = false → ∃ q ∈ d.front.packets, q.id = p.id ∧ q.stage = .held ∧ q.action = aw ∧ q.frame = p.frame)
        ∧ (p.mode ≠ 0 ∨ p.gone = true → ∀ q ∈ d.front.packets, q.id ≠ p.id)
        ∧ s.dev.KeepsParts d [.port, .front, .plan, .seq, .fab, .lpe]
    (s.dev.front.searching = [] → ∀ bad, exec (.searchResult bad) s = .next s)
    ∧ (∀ (p : Packet) (id : Nat) (rest : List Nat) (cfg profile : Nat) (bad : List Nat), Sparse.wf resetWord s.dev.regs = true →
        s.dev.front.searching = id :: rest → s.dev.packet? id = some p → p.stage = .searching cfg profile → p.slot < 4 → profile < 16 →
      let win := s.dev.search profile p.slot p.pass.fv bad
      let aw := match win with | some q => s.dev.word (posAddr q + 80) | none => s.dev.word (R.CLS_DEFAULT_ACTION_WORD p.slot profile).addr
      let slot := bitsOf aw 58 2
      let met := bad.filter fun q => (s.dev.bankList profile).contains (q / 16384)
      let searchWords := [C.CLS_SEARCHES, C.CLS_HITS, C.CLS_MISSES, C.CLS_PROFILE_HITS profile, C.CLS_PROFILE_MISSES profile,
        C.CLS_PARITY_ERR] ++ met.map fun q => posAddr q + 88
      let searched (d : Dev) : Prop := d.front.searching = rest ∧ s.dev.Counts d C.CLS_SEARCHES 1
        ∧ s.dev.Counts d C.CLS_HITS (b2n win.isSome) ∧ s.dev.Counts d C.CLS_MISSES (b2n win.isNone)
        ∧ s.dev.Counts d (C.CLS_PROFILE_HITS profile) (b2n win.isSome) ∧ s.dev.Counts d (C.CLS_PROFILE_MISSES profile) (b2n win.isNone)
        ∧ s.dev.Counts d C.CLS_PARITY_ERR met.length ∧ (∀ q ∈ met, bitsOf (d.word (posAddr q + 88)) 4 1 = 1)
      let alone (d : Dev) (words : List Nat) : Prop :=
        s.dev.KeepsWords d (searchWords ++ words) ∧ s.dev.KeepsParts d [.front, .lpe] ∧ s.dev.KeepsMemory d
      let refused : Option Nat := if bitsOf cfg 7 2 ≤ p.passes then some C.PRS_RECIRC_LIMIT
        else if leAt p.pass.fv (12 + 2 * slot) 2 = 0xFFFF then some C.PRS_RECIRC_UNMARKED
        else if 256 ≤ s.dev.front.recircs.length then some C.PRS_RECIRC_FULL
        else if p.firstEntry + 400 ≤ s.dev.clockNs then some C.PRS_RECIRC_WITHDRAWN else none
      (bitsOf aw 49 1 = 1 → refused = none →
        Completes (.searchResult bad) s fun d => searched d ∧ s.dev.Counts d C.CLS_RECIRC_REQ 1
          ∧ d.front.recircs = s.dev.front.recircs ++ [id] ∧ d.front.lookups = s.dev.front.lookups
          ∧ (∃ q ∈ d.front.packets, q.id = id ∧ q.stage = .recirc (bitsOf aw 50 8) slot (bitsOf aw 60 4) ∧ q.refHeld = p.refHeld)
          ∧ alone d [C.CLS_RECIRC_REQ, R.PRS_RECIRC_STAT_OCC.addr])
      ∧ (¬direct p aw → bitsOf aw 49 1 = 0 →
        Completes (.searchResult bad) s fun d => searched d ∧ waits p aw d ∧ d.front.recircs = s.dev.front.recircs
          ∧ alone d ([C.FLW_LOOKUPS, C.FLW_FRAG_PACKETS] ++ refWords p))
      ∧ (∀ c ∈ refused, ¬direct p aw → bitsOf aw 49 1 = 1 →
        Completes (.searchResult bad) s fun d => searched d ∧ waits p aw d ∧ s.dev.Counts d C.CLS_RECIRC_REQ 1 ∧ s.dev.Counts d c 1
          ∧ d.front.recircs = s.dev.front.recircs
          ∧ alone d ([C.FLW_LOOKUPS, C.FLW_FRAG_PACKETS, C.CLS_RECIRC_REQ, c] ++ refWords p))
      ∧ (direct p aw → bitsOf aw 49 1 = 0 ∨ refused ≠ none →
        Completes (.searchResult bad) s fun d =>
          searched d ∧ s.dev.Counts d C.FLW_LOOKUPS 1 ∧ s.dev.Counts d C.FLW_CACHE_HITS 1 ∧ d.front.lookups = []
            ∧ d.front.recircs = s.dev.front.recircs ∧ ended p aw d))
    ∧ (s.dev.recircDue = none → exec .recircWithdrawn s = .next s)
    ∧ (∀ p : Packet, s.dev.recircDue = some p → p.slot < 4 →
      p.id ∈ s.dev.front.recircs ∧ (∀ j ∈ s.dev.front.recircs, ∀ q, s.dev.packet? j = some q → p.firstEntry ≤ q.firstEntry)
        ∧ (¬direct p p.action → Completes .recircWithdrawn s fun d =>
            d.front.recircs = (s.dev.front.recircs.filter fun j => j != p.id) ∧ d.clockNs = max s.dev.clockNs (p.firstEntry + 400)
              ∧ s.dev.Counts d C.PRS_RECIRC_WITHDRAWN 1 ∧ waits p p.action d
              ∧ s.dev.KeepsWords d ([C.PRS_RECIRC_WITHDRAWN, R.PRS_RECIRC_STAT_OCC.addr, C.FLW_LOOKUPS, C.FLW_FRAG_PACKETS] ++ refWords p)
              ∧ s.dev.KeepsParts d [.time, .front] ∧ s.dev.KeepsMemory d)
        ∧ (direct p p.action → Completes .recircWithdrawn s fun d =>
            d.front.recircs = (s.dev.front.recircs.filter fun j => j != p.id) ∧ d.clockNs = max s.dev.clockNs (p.firstEntry + 400)
              ∧ s.dev.Counts d C.PRS_RECIRC_WITHDRAWN 1 ∧ s.dev.Counts d C.FLW_LOOKUPS 1 ∧ d.front.lookups = []
              ∧ (p.mode = 0 → p.gone = false → ∃ q ∈ d.front.packets, q.id = p.id ∧ q.stage = .held ∧ q.action = p.action)
              ∧ (p.mode ≠ 0 ∨ p.gone = true → ∀ q ∈ d.front.packets, q.id ≠ p.id)
              ∧ s.dev.KeepsParts d [.time, .port, .front, .plan, .seq, .fab, .lpe]))
    ∧ (∀ bad : List MemEvent, s.dev.front.lookups = [] → exec (.bucketReadReturn bad) s = .next s)
    ∧ (∀ (p : Packet) (id : Nat) (rest : List Nat) (bad : List MemEvent), s.dev.front.lookups = id :: rest → s.dev.packet? id = some p →
      Completes (.bucketReadReturn bad) s fun d =>
        d.front.lookups = rest ∧ d.front.recircs = s.dev.front.recircs ∧ d.front.searching = s.dev.front.searching
          ∧ d.front.parsing = s.dev.front.parsing ∧ ended p p.action d)

/-- R41 with R20 and R57; R190 and R201.
Completes, under conditions on the state and the operands alone, with the effect said: PACKET_RELEASE, AGEING_SWEEP_VISIT.
Where the model chose: log entries 22 and 31. -/
def Obligations.ReleaseAndAgeing : Prop :=
  ∀ s : State, s.Running →
    (∀ (p : Packet) (sh : Shim), s.dev.regionStopped 20 = false → s.dev.packet? p.id = some p → p.stage = .held → p.sp < 8 →
        p.sp < s.dev.port.subs.length → s.dev.mayRelease p = true →
        ((∃ v, p.verdict = some v ∧ sh = { Shim.ofBytes v with
            tick := if (Shim.ofBytes v).tier = 0xF then s.dev.tick32 else (Shim.ofBytes v).tick })
          ∨ (p.verdict = none ∧ p.sample = none ∧ sh = s.dev.unsampledShim p)) →
      let left (d : Dev) : Prop := (∀ q ∈ d.front.packets, q.id ≠ p.id)
        ∧ (∀ q, q.id ≠ p.id → (q ∈ d.front.packets ↔ q ∈ s.dev.front.packets))
        ∧ d.front = { s.dev.front with packets := d.front.packets } ∧ s.dev.KeepsMemory d
        ∧ (p.verdict ≠ none ∨ p.flow = none ∨ (∃ f, p.flow = some f ∧ (s.dev.readFlow f).1 = s.dev) →
            s.dev.KeepsWords d (C.PORT_TX_LINK_DOWN p.sp :: flowWords) ∧ s.dev.KeepsParts d [.front, .port])
      let egress (d : Dev) (x : Nat) : List EgressItem := (d.port.subs.getD x SubPort.empty).egress
      (s.dev.up p.sp = true → p.gone = false → Completes (.packetRelease p.id) s fun d => left d
          ∧ (∃ e : EgressItem, egress d p.sp = egress s.dev p.sp ++ [e]
              ∧ e.packet = p.id ∧ e.cls = p.cls ∧ e.dropped = decide (bitsOf sh.action 15 1 = 1)
              ∧ e.bytes = p.frame.take 12 ++ s.dev.shimTag sh ++ p.frame.drop 12)
          ∧ ∀ x, x ≠ p.sp → egress d x = egress s.dev x)
      ∧ (s.dev.up p.sp = false → p.gone = false → Completes (.packetRelease p.id) s fun d => left d
          ∧ s.dev.Counts d (C.PORT_TX_LINK_DOWN p.sp) 1 ∧ ∀ x, egress d x = egress s.dev x)
      ∧ (p.gone = true → Completes (.packetRelease p.id) s fun d => left d ∧ d.port = s.dev.port))
    ∧ (s.dev.regionStopped 20 = false → (∀ id, s.dev.packet? id = none → exec (.packetRelease id) s = .next s)
      ∧ ∀ p : Packet, s.dev.packet? p.id = some p → (p.stage ≠ .held ∨ (p.sample ≠ none ∧ p.verdict = none) ∨ s.dev.mayRelease p = false) →
        exec (.packetRelease p.id) s = .next s)
    ∧ (∀ (t : Option (Fin 8)) (b : Nat), s.dev.regionStopped 17 = false → b < s.dev.ageSize (t.map (·.val)) →
        (∀ f < 16, s.dev.get (R.FLW_POLICY_IDLE_MS f) = 0) → (∀ t < 8, s.dev.get (R.FLW_ENT_TABLE_IDLE_MS t) = 0) →
      Completes (.ageingSweepVisit t b) s fun d =>
        (∀ a ∈ [C.FLW_AGED, C.FLW_ENT_AGED, R.FLW_OCC_LIVE_FLOWS.addr], d.word a = s.dev.word a) ∧ s.dev.KeepsMemory d
          ∧ d.front.cache = s.dev.front.cache ∧ s.dev.clockNs ≤ d.clockNs
          ∧ (d.front.ageVisited = s.dev.ageFirst (t.map (·.val)) + b + 1 ∨ d.front.ageVisited = 0)
          ∧ s.dev.KeepsParts d [.time, .front, .plan, .fab, .lpe])
    ∧ (∀ (t : Option (Fin 8)) (b : Nat), s.dev.regionStopped 17 = false → s.dev.ageSize (t.map (·.val)) ≤ b →
        exec (.ageingSweepVisit t b) s = .next s)
    ∧ (∀ b : Nat, s.dev.regionStopped 17 = false → b < 2 ^ 23 → s.dev.front.ageVisited = b → s.dev.chanRetired (b % 512) = true →
      Completes (.ageingSweepVisit none b) s fun d =>
        s.dev.KeepsWords d [] ∧ s.dev.KeepsMemory d ∧ d.clockNs = max s.dev.clockNs (s.dev.ageDue b) ∧ s.dev.KeepsParts d [.time, .front])
    ∧ (∀ b : Nat, s.dev.regionStopped 17 = false → b < 2 ^ 23 → s.dev.front.ageVisited = b → s.dev.chanRetired (b % 512) = false →
        s.dev.front.cache = [] → (∀ x < 4, s.dev.readable (s.dev.flowAddr (4 * b + x)) 192 = true) →
      let now := (s.dev.advanceClock (s.dev.ageDue b)).ns
      let e (x : Nat) : List Byte := s.dev.memRead (s.dev.flowAddr (4 * b + x)) 192
      let stale (x : Nat) : Prop := feValid (e x) = true
        ∧ s.dev.get (R.FLW_POLICY_IDLE_MS (leAt (e x) 43 1 / 16)) ≠ 0
        ∧ leAt (e x) 64 8 + s.dev.get (R.FLW_POLICY_IDLE_MS (leAt (e x) 43 1 / 16)) * 1000000 ≤ now
      ((∀ x < 4, ¬stale x) → Completes (.ageingSweepVisit none b) s fun d =>
        d.ns = now ∧ s.dev.KeepsWords d [] ∧ s.dev.KeepsMemory d ∧ s.dev.KeepsParts d [.time, .front])
      ∧ (∀ w < 4, stale w → (∀ x < 4, x ≠ w → ¬stale x) → s.dev.Writable (s.dev.flowAddr (4 * b + w)) 192 →
        Completes (.ageingSweepVisit none b) s fun d =>
          s.dev.Counts d C.FLW_AGED 1 ∧ feValid (d.memRead (s.dev.flowAddr (4 * b + w)) 192) = false ∧ d.ns = now
            ∧ (s.dev.get R.FLW_OCC_LIVE_FLOWS ≠ 0 → d.get R.FLW_OCC_LIVE_FLOWS = s.dev.get R.FLW_OCC_LIVE_FLOWS - 1)
            ∧ s.dev.KeepsMemoryBut d (s.dev.flowAddr (4 * b + w)) 192
            ∧ s.dev.KeepsWords d [C.FLW_AGED, R.FLW_OCC_LIVE_FLOWS.addr] ∧ s.dev.KeepsParts d [.time, .front, .fab]))
    ∧ (∀ (t : Fin 8) (b : Nat), s.dev.regionStopped 17 = false → b < s.dev.ageSize (some t.val) →
        s.dev.get (R.FLW_ENT_TABLE_BASE t.val) % 64 = 0 → s.dev.front.ageVisited = s.dev.ageFirst (some t.val) + b →
      let a (w : Nat) : Nat := s.dev.get (R.FLW_ENT_TABLE_BASE t.val) + 256 * b + 64 * w
      let now := (s.dev.advanceClock (s.dev.ageDue (s.dev.ageFirst (some t.val) + b))).ns
      let stale (w : Nat) : Prop := bitsOf (leAt (s.dev.memRead (a w) 64) 16 1) 0 1 = 1
        ∧ bitsOf (leAt (s.dev.memRead (a w) 64) 16 1) 1 1 = 0 ∧ s.dev.get (R.FLW_ENT_TABLE_IDLE_MS t.val) ≠ 0
        ∧ leAt (s.dev.memRead (a w) 64) 40 8 + s.dev.get (R.FLW_ENT_TABLE_IDLE_MS t.val) * 1000000 ≤ now
      (∀ x < 4, s.dev.readable (a x) 64 = true) →
      ((∀ w < 4, ¬stale w) → Completes (.ageingSweepVisit (some t) b) s fun d =>
        d.ns = now ∧ s.dev.KeepsWords d [] ∧ s.dev.KeepsMemory d ∧ s.dev.KeepsParts d [.time, .front])
      ∧ (∀ w < 4, stale w → (∀ x < 4, x ≠ w → ¬stale x) →
        Completes (.ageingSweepVisit (some t) b) s fun d =>
          s.dev.Counts d C.FLW_ENT_AGED 1 ∧ bitsOf (leAt (d.memRead (a w) 64) 16 1) 0 1 = 0 ∧ d.ns = now
            ∧ s.dev.KeepsMemoryBut d (a w) 64 ∧ s.dev.KeepsWords d [C.FLW_ENT_AGED] ∧ s.dev.KeepsParts d [.time, .front, .fab]))

/-- R26, R30, R31, R33, R34 and R497: what begins a tick and what a boundary turns.
Completes, under conditions on the state and the operands alone, with the effect said: TICK_BOUNDARY, TICK_SYNC_EDGE, SYNC_LOST.
Where the model chose: log entries 3, 43 and 46. -/
def Obligations.TicksBeginAtBoundaries : Prop :=
  ∀ (s : State) (env : BoundaryEnv), s.Running →
    let begins (time num : Nat) (d : Dev) : Prop :=
      d.plan.tick = num ∧ d.plan.tickNs = time ∧ d.plan.firstTick = some (s.dev.plan.firstTick.getD num)
        ∧ d.plan.nextNs = time + d.plan.period ∧ time ≤ d.ns ∧ s.dev.ns ≤ d.ns
        ∧ d.plan.computing.map (·.number) = s.dev.plan.collecting.map (·.number)
        ∧ ∃ b, d.plan.collecting = some b ∧ b.number = num % 2 ^ 32 ∧ b.samples = []
            ∧ b.set = match s.dev.plan.collecting with | some c => 1 - c.set | none => 0
    (s.dev.plan.ticking = true → s.dev.on R.TKP_TICK_STAT_FOLLOWER = false →
      Completes (.tickBoundary env) s (begins s.dev.plan.nextNs
        (if s.dev.plan.firstTick.isSome then s.dev.plan.tick + 1 else s.dev.plan.tick)))
    ∧ (s.dev.plan.ticking = true → s.dev.on R.TKP_TICK_STAT_FOLLOWER = true → 2 ≤ s.dev.plan.missed →
      Completes (.tickBoundary env) s (begins s.dev.plan.nextNs (s.dev.unwrapTick s.dev.nextEdge)))
    ∧ (s.dev.plan.ticking = false ∨ (s.dev.on R.TKP_TICK_STAT_FOLLOWER = true ∧ s.dev.plan.missed < 2) →
      exec (.tickBoundary env) s = .next s)
    ∧ (s.dev.plan.ticking = true → s.dev.on R.TKP_TICK_STAT_FOLLOWER = true → s.dev.on R.TKP_MODE_FABRIC_BOARD = true →
      let time := s.dev.ns - s.dev.get R.CLK_OUT_CFG_TICK_SYNC_DELAY_NS
      (s.dev.plan.numbered = true ∨ s.dev.plan.firstTick ≠ none →
        Completes (.tickSyncEdge env) s fun d => begins time (s.dev.unwrapTick s.dev.nextEdge) d ∧ d.plan.missed = 0)
      ∧ (s.dev.plan.numbered = false → s.dev.plan.firstTick = none →
        Completes (.tickSyncEdge env) s fun d =>
          d.plan.edges.getLast? = some (time, s.dev.nextEdge) ∧ d.plan.tick = s.dev.plan.tick ∧ d.plan.missed = 0
            ∧ d.plan.collecting = s.dev.plan.collecting ∧ s.dev.KeepsWords d [] ∧ s.dev.KeepsParts d [.plan] ∧ s.dev.KeepsMemory d))
    ∧ (s.dev.plan.ticking = false ∨ s.dev.on R.TKP_TICK_STAT_FOLLOWER = false ∨ s.dev.on R.TKP_MODE_FABRIC_BOARD = false →
      exec (.tickSyncEdge env) s = .next s)
    ∧ (s.dev.plan.ticking = true → s.dev.on R.TKP_TICK_STAT_FOLLOWER = true → s.dev.plan.missed < 2 →
      Completes .syncLost s fun d =>
        d.get R.TKP_TICK_STAT_SYNC_LOST = 1 ∧ d.plan.missed = 2
          ∧ d.plan.nextNs = (match s.dev.plan.edges.getLast? with | some e => e.1 | none => s.dev.plan.nextNs) + 2 * s.dev.plan.period
          ∧ d.plan.nextNs ≤ d.ns ∧ d.plan = { s.dev.plan with missed := 2, nextNs := d.plan.nextNs } ∧ s.dev.KeepsWords d [R.TKP_TICK_STAT_SYNC_LOST.addr]
          ∧ s.dev.KeepsParts d [.time, .plan] ∧ s.dev.KeepsMemory d)
    ∧ (s.dev.plan.ticking = false ∨ s.dev.on R.TKP_TICK_STAT_FOLLOWER = false ∨ 2 ≤ s.dev.plan.missed →
      exec .syncLost s = .next s)

/-- R414, R415, R420, R421 and R423.
Completes, under conditions on the state and the operands alone, with the effect said: DECIM_HALVE, ENERGY_RECALIBRATE,
CAP_RECOMPUTE, SOFT_STEP, THROTTLE_ENTER.
Where the model chose: log entries 43, 44 and 45. -/
def Obligations.ApertureAdjusts : Prop :=
  ∀ s : State, s.RunsIn 20 →
    let sensorWords := R.APR_TEMP_COMPUTE_MAX_C.addr :: ((List.range 96).map fun i => (R.PWR_TEMP_TEMP i).addr)
      ++ (List.range 4).map fun i => (R.MEM_REFRESH_HOT_C i).addr
    (∀ g : Gap,
      (s.dev.get g.field ≠ 0 → bitsOf s.dev.plan.planCfg 32 16 ≤ (s.dev.gapState g).quiet →
        Completes (.decimHalve g) s fun d =>
          d.get g.field = s.dev.get g.field / 2 ∧ (d.gapState g).quiet = 0 ∧ s.dev.Counts d C.TKP_DECIM_STEPS 1
            ∧ s.dev.KeepsWords d [g.field.addr, C.TKP_DECIM_STEPS] ∧ s.dev.KeepsParts d [.plan] ∧ s.dev.KeepsMemory d)
      ∧ (s.dev.get g.field = 0 ∨ (s.dev.gapState g).quiet < bitsOf s.dev.plan.planCfg 32 16 →
        exec (.decimHalve g) s = .next s))
    ∧ (∀ ms : List RegionEnergy,
      (s.dev.plan.firstTick ≠ none → s.dev.plan.recalsTick + 1024 ≤ s.dev.plan.tick →
        Completes (.energyRecalibrate ms) s fun d =>
          d.plan.energyNext = s.dev.plan.energyNext ++ (s.dev.plan.completed.map fun x => (x.1,
              recalibrated (s.dev.get (R.TKP_ENERGY_E_UJ (x.1 / 4) (x.1 % 4))) (perItem ms x.1 x.2)
                ((s.dev.plan.imageEnergy.find x.1).getD 0)))
            ∧ d.plan.completed = [] ∧ d.plan.recalsTick = s.dev.plan.tick ∧ s.dev.Counts d C.APR_RECALS 1
            ∧ d.plan = { s.dev.plan with energyNext := d.plan.energyNext, completed := [], recalsTick := s.dev.plan.tick }
            ∧ s.dev.KeepsWords d [C.APR_RECALS] ∧ s.dev.KeepsParts d [.plan] ∧ s.dev.KeepsMemory d)
      ∧ (s.dev.plan.firstTick = none ∨ s.dev.plan.tick < s.dev.plan.recalsTick + 1024 →
        exec (.energyRecalibrate ms) s = .next s))
    ∧ (∀ spans : List SpanMeasure,
      (s.dev.capTick = true → (∃ m < 15, ∃ t < 3, (s.dev.tierUse m t).windows ≠ 0) →
        Completes (.capRecompute spans) s fun d =>
          (∀ m < 15, ∀ t < 3,
            let u := s.dev.tierUse m t
            let old := s.dev.get (R.TKP_ENERGY_CAP m t)
            let cap := if s.dev.tierPlaced m t = false then 0
              else match spans.find? fun x => x.model.val = m && x.tier.val = t with
                | some x => if u.admitted = 0 ∨ u.windows = 0 then old else capOf u.admitted u.windows x.spanSum x.windows s.dev.plan.period
                | none => old
            d.get (R.TKP_ENERGY_CAP m t) = (if u.overran then capCut cap else cap)
              ∧ (d.tierUse m t).left = d.get (R.TKP_ENERGY_CAP m t) ∧ (d.tierUse m t).admitted = 0 ∧ (d.tierUse m t).windows = 0
              ∧ (d.tierUse m t).overran = false ∧ d.get (R.TKP_ENERGY_E_UJ m t) = s.dev.get (R.TKP_ENERGY_E_UJ m t))
            ∧ d.plan = { s.dev.plan with use := d.plan.use }
            ∧ s.dev.KeepsWords d (allTiers.map fun p => (R.TKP_ENERGY_CAP p.1 p.2).addr) ∧ s.dev.KeepsParts d [.plan] ∧ s.dev.KeepsMemory d)
      ∧ (s.dev.capTick = false ∨ (∀ m < 15, ∀ t < 3, (s.dev.tierUse m t).windows = 0) → exec (.capRecompute spans) s = .next s))
    ∧ (∀ (ts : List TempReading) (f : Nat), s.dev.plan.firstTick = some f → s.dev.plan.tick ≠ f →
        (s.dev.plan.tick - f) % 1000 = 0 → s.dev.plan.softTick ≠ some s.dev.plan.tick →
      let c := (s.dev.takeTemps ts).hottest 0 64
      let m := (s.dev.takeTemps ts).hottest 64 32
      let lc : Int := s.dev.get R.APR_CFG_SOFT_COMPUTE_C * 8
      let lm : Int := s.dev.get R.APR_CFG_SOFT_DRAM_C * 8
      let t := s.dev.get R.APR_STAT_TARGET_W
      let b := s.dev.get R.APR_CFG_BUDGET_W
      Completes (.softStep ts) s fun d =>
        d.plan.softTick = some s.dev.plan.tick ∧ d.get R.APR_CFG_BUDGET_W = b ∧ s.dev.KeepsMemory d
          ∧ ((lc ≤ c ∨ lm ≤ m) → d.get R.APR_STAT_TARGET_W = max 150 (t - 5) ∧ d.get R.APR_STAT_SOFT_SEEN = 1
              ∧ d.get R.APR_STAT_SOFT_ACTIVE = (if max 150 (t - 5) = b then 0 else 1) ∧ s.dev.Counts d C.APR_SOFT_DOWN 1)
          ∧ (c + 24 ≤ lc → m + 24 ≤ lm → t < b → d.get R.APR_STAT_TARGET_W = min b (t + 5) ∧ s.dev.Counts d C.APR_SOFT_UP 1
              ∧ (t + 5 < b → d.get R.APR_STAT_SOFT_ACTIVE = s.dev.get R.APR_STAT_SOFT_ACTIVE)
              ∧ (b ≤ t + 5 → d.get R.APR_STAT_SOFT_ACTIVE = 0))
          ∧ (c < lc → m < lm → (lc < c + 24 ∨ lm < m + 24 ∨ b ≤ t) → d.get R.APR_STAT_TARGET_W = t
              ∧ d.word C.APR_SOFT_DOWN = s.dev.word C.APR_SOFT_DOWN ∧ d.word C.APR_SOFT_UP = s.dev.word C.APR_SOFT_UP)
          ∧ d.plan = { s.dev.plan with temps := d.plan.temps, softTick := some s.dev.plan.tick }
          ∧ s.dev.KeepsWords d ([R.APR_STAT_TARGET_W.addr, C.APR_SOFT_DOWN, C.APR_SOFT_UP] ++ sensorWords) ∧ s.dev.KeepsParts d [.plan])
    ∧ (∀ ts : List TempReading, s.dev.plan.firstTick = none ∨ s.dev.plan.firstTick = some s.dev.plan.tick
          ∨ s.dev.plan.softTick = some s.dev.plan.tick ∨ (∃ f, s.dev.plan.firstTick = some f ∧ (s.dev.plan.tick - f) % 1000 ≠ 0) →
        exec (.softStep ts) s = .next s)
    ∧ (∀ ts : List TempReading,
      let hot : Prop := 105 * 8 ≤ (s.dev.takeTemps ts).hottest 0 64 ∨ 95 * 8 ≤ (s.dev.takeTemps ts).hottest 64 32
      (s.dev.on R.APR_STAT_THROTTLE = false → hot →
        Completes (.throttleEnter ts) s fun d =>
          d.lens.running = []
            ∧ (s.dev.lens.running = [] → d.get R.APR_STAT_THROTTLE = 1 ∧ d.get R.APR_STAT_THROTTLE_SEEN = 1
                ∧ s.dev.Counts d C.APR_THROTTLES 1 ∧ d.get (R.CLK_STAT_FREQ_MHZ 0) = 1650
                ∧ d.plan = { s.dev.plan with temps := d.plan.temps }
                ∧ s.dev.KeepsWords d ([R.APR_STAT_THROTTLE.addr, C.APR_THROTTLES, (R.CLK_STAT_FREQ_MHZ 0).addr] ++ sensorWords)
                ∧ s.dev.KeepsParts d [.plan, .lpe, .sup] ∧ s.dev.KeepsMemory d))
      ∧ (s.dev.on R.APR_STAT_THROTTLE = true ∨ ¬hot →
        Completes (.throttleEnter ts) s fun d =>
          d.plan = { s.dev.plan with temps := d.plan.temps } ∧ s.dev.KeepsWords d sensorWords ∧ s.dev.KeepsParts d [.plan]
            ∧ s.dev.KeepsMemory d))

/-- R40, R412, R417, R418, R421 and R537.
Completes, under conditions on the state and the operands alone, with the effect said: LEARNING_ADMIT, SLACK_REQUEST.
Where the model chose: log entries 43, 44 and 67. -/
def Obligations.PlannerGrants : Prop :=
  ∀ s : State, s.RunsIn 20 →
    (∀ (m : Fin 15) (st : LearnStep), (s.dev.learner m.val).step = some st →
        (∀ c, s.dev.seqContext m.val = some c → s.dev.stepping c = false ∧ s.dev.faulted c = false) →
        s.dev.verdictsDone = true → s.dev.on R.APR_STAT_THROTTLE = false → bitsOf s.dev.plan.mode 0 1 = 1 →
      let e := s.dev.get (R.TKP_ENERGY_E_UJ m.val 3)
      (fpLt s.dev.plan.left e = false →
        Completes (.learningAdmit [m]) s fun d =>
          d.plan.phases = s.dev.plan.phases ++ [m.val] ∧ d.plan.left = fpSub s.dev.plan.left e
            ∧ d.plan.charged = fpAdd s.dev.plan.charged e
            ∧ (d.learner m.val).step = some { st with startTick := some (st.startTick.getD s.dev.plan.tick) }
            ∧ (∀ x < 15, x ≠ m.val → d.learner x = s.dev.learner x)
            ∧ s.dev.KeepsWords d [] ∧ s.dev.KeepsParts d [.plan, .seq] ∧ s.dev.KeepsMemory d)
      ∧ (fpLt s.dev.plan.left e = true → exec (.learningAdmit [m]) s = .next s))
    ∧ (∀ m : Fin 15, (s.dev.learner m.val).step = none
          ∨ (∃ c, s.dev.seqContext m.val = some c ∧ (s.dev.stepping c = true ∨ s.dev.faulted c = true)) →
        exec (.learningAdmit [m]) s = .next s)
    ∧ exec (.learningAdmit []) s = .next s
    ∧ (∀ (ms rest : List (Fin 15)) (m : Fin 15),
        (m :: rest).map (·.val) = (ms.map (·.val)).foldl (fun l x => s.dev.insertPrio x l) [] →
      ∃ t, exec (.learningAdmit [m]) s = .next t ∧ exec (.learningAdmit ms) s = exec (.learningAdmit rest) t)
    ∧ (∀ ms : List (Fin 15), s.dev.verdictsDone = false ∨ s.dev.on R.APR_STAT_THROTTLE = true ∨ bitsOf s.dev.plan.mode 0 1 = 0 →
      exec (.learningAdmit ms) s = .next s)
    ∧ exec (.slackRequest []) s = .next s
    ∧ (∀ (rs rest : List SlackReq) (r : SlackReq), slackOrder rs = r :: rest →
      ∃ t, exec (.slackRequest [r]) s = .next t ∧ exec (.slackRequest rs) s = exec (.slackRequest rest) t)
    ∧ (∀ p work : Nat,
      let asked := s.dev.lens.stopped.find? fun x => decide (x.tile.partition = p) && !x.granted
        && (decide (x.cause = 3) || decide (x.cause = 5) || decide (x.cause = 6))
      let only (d : Dev) (w w' : StoppedTile) (a : Nat) : Prop :=
        d.lens = { s.dev.lens with stopped := s.dev.lens.stopped.map fun x => if x = w then w' else x }
          ∧ s.dev.Counts d a 1 ∧ s.dev.KeepsWords d [a] ∧ s.dev.KeepsParts d [.lens] ∧ s.dev.KeepsMemory d
      (asked = none → exec (.slackRequest [⟨.reissue, p, work⟩]) s = .next s)
      ∧ ∀ w, asked = some w →
        (s.dev.slackFits w.tile.context.val w.tile.tier.val work = true → (∀ t ∈ s.dev.plan.reissued, sameTile w.tile t = false) →
          Completes (.slackRequest [⟨.reissue, p, work⟩]) s fun d => only d w { w with granted := true } C.TKP_REISSUE_GRANTED)
        ∧ (s.dev.slackFits w.tile.context.val w.tile.tier.val work = false ∨ (∃ t ∈ s.dev.plan.reissued, sameTile w.tile t = true) →
          Completes (.slackRequest [⟨.reissue, p, work⟩]) s fun d => only d w { w with cause := w.cause + 8 } C.TKP_REISSUE_REFUSED))
    ∧ (∀ slot work : Nat,
      let failed := takeFirst (fun (q : Nat × Nat) => decide (q.2 = slot)) s.dev.lens.failed
      (failed = none ∨ s.dev.sample? slot = none → exec (.slackRequest [⟨.reevaluate, slot, work⟩]) s = .next s)
      ∧ ∀ q rest x, failed = some (q, rest) → s.dev.sample? slot = some x →
        (s.dev.slackFits x.context 0 work = true → Completes (.slackRequest [⟨.reevaluate, slot, work⟩]) s fun d =>
          d.lens = { s.dev.lens with failed := rest, reeval := s.dev.lens.reeval ++ [q] } ∧ s.dev.Counts d C.TKP_REISSUE_GRANTED 1
            ∧ s.dev.KeepsWords d [C.TKP_REISSUE_GRANTED] ∧ s.dev.KeepsParts d [.lens] ∧ s.dev.KeepsMemory d)
        ∧ (s.dev.slackFits x.context 0 work = false → Completes (.slackRequest [⟨.reevaluate, slot, work⟩]) s fun d =>
          d.lens = { s.dev.lens with failed := rest } ∧ s.dev.Counts d C.TKP_REISSUE_REFUSED 1
            ∧ s.dev.KeepsWords d [C.TKP_REISSUE_REFUSED] ∧ s.dev.KeepsParts d [.lens] ∧ s.dev.KeepsMemory d))
    ∧ (∀ part work : Nat,
      let asked := takeFirst (fun (p : Pass) => decide (p.partition = part)) s.dev.lens.widen
      (asked = none → exec (.slackRequest [⟨.widen, part, work⟩]) s = .next s)
      ∧ ∀ p rest, asked = some (p, rest) →
        let w := if (widerWgt (descFmt p.wgtDesc)).isSome then 2 * work else work
        (s.dev.slackFits p.context p.tier w = true →
          Completes (.slackRequest [⟨.widen, part, work⟩]) s fun d =>
            d.lens = { s.dev.lens with widen := rest, granted := s.dev.lens.granted ++ [p] } ∧ s.dev.Counts d C.TKP_WIDEN_GRANTED 1
              ∧ (∀ i ∈ p.slots, ∀ x, d.sample? i = some x → x.widened = true) ∧ (∀ i, i ∉ p.slots → d.sample? i = s.dev.sample? i)
              ∧ s.dev.KeepsWords d [C.TKP_WIDEN_GRANTED] ∧ s.dev.KeepsParts d [.plan, .lens] ∧ s.dev.KeepsMemory d)
        ∧ (s.dev.slackFits p.context p.tier w = false →
          Completes (.slackRequest [⟨.widen, part, work⟩]) s fun d =>
            s.dev.Counts d C.TKP_WIDEN_REFUSED 1 ∧ (∀ q ∈ d.lens.widen, q ∈ rest) ∧ ∀ q ∈ d.lens.granted, q ∈ s.dev.lens.granted))

/-- R403 to R408, R411 and R416.
Completes, under conditions on the state and the operands alone, with the effect said: TIER_RESULT_WRITTEN,
ADMISSION_GROUP_TIMEOUT, PLANNED_END, ADMISSION_GROUP_DECIDE.
Where the model chose: log entries 32 and 55. -/
def Obligations.VerdictsAndAdmission : Prop :=
  ∀ s : State, s.RunsIn 20 →
    let readable (b : Batch) (x : Sample) : Bool := s.dev.readable (s.dev.slotAddr b.set x.slot) 512
    let verdict (y : Sample) (tier flags reason : Nat) (d : Dev) : Prop :=
      (∃ z, d.sample? y.slot = some z ∧ z.done = true ∧ z.raw = y.raw ∧ z.ys = y.ys)
        ∧ s.dev.Counts d C.TKP_VERDICTS 1 ∧ d.plan.openGroup = s.dev.plan.openGroup
        ∧ (y.mode = 0 → ∀ p, s.dev.packet? y.packet = some p → ∃ q ∈ d.front.packets, q.id = p.id ∧ q.verdict
            = some (s.dev.verdictShim y (some tier) flags (if y.merged then (if reason = 0 then 7 else min reason 7) else reason)).v2)
    (∀ (slot : Nat) (tier : Fin 3) (raw : List Word32), s.dev.plan.computing = none ∨ s.dev.sample? slot = none →
        exec (.tierResultWritten slot tier raw) s = .next s)
    ∧ (∀ (b : Batch) (slot : Nat) (tier : Fin 3) (raw : List Word32) (x : Sample), s.dev.plan.computing = some b →
        s.dev.sample? slot = some x →
      ((x.model, tier.val) ∈ s.dev.plan.lost ∨ (x.raw.getD tier.val none).isSome = true ∨ (tier.val ≠ 0 ∧ tier.val ∉ x.admitted) →
        exec (.tierResultWritten slot tier raw) s = .next s)
      ∧ ((x.model, tier.val) ∉ s.dev.plan.lost → x.raw.getD tier.val none = none → (tier.val = 0 ∨ tier.val ∈ x.admitted) →
          x.raw.length = 3 → x.ys.length = 3 →
        let r := raw.map fun w => w.toNat
        let ys := (linkY (s.dev.outBlock x.model tier.val) r s.dev).2
        let y : Sample := { x with raw := x.raw.set tier.val (some r), ys := x.ys.set tier.val (some ys) }
        let kept (d : Dev) : Prop :=
          d.sample? slot = some y ∧ (∀ i, i ≠ slot → d.sample? i = s.dev.sample? i) ∧ d.plan.openGroup = s.dev.plan.openGroup
            ∧ d.plan.closedGroups = s.dev.plan.closedGroups ∧ d.plan.left = s.dev.plan.left ∧ s.dev.KeepsWords d []
            ∧ s.dev.KeepsParts d [.plan] ∧ s.dev.KeepsMemory d
        let waits : Prop := ∃ t ∈ x.admitted, tier.val < t
        let last : Prop := tier.val = 2 ∨ (tier.val = 1 ∧ bitsOf s.dev.plan.mode 1 1 = 1)
        (x.done = true ∨ x.dead = true → Completes (.tierResultWritten slot tier raw) s kept)
        ∧ (x.done = false → x.dead = false → tier.val ≠ 0 → s.dev.faulted x.context = true ∨ s.dev.stepping x.context = true →
          Completes (.tierResultWritten slot tier raw) s kept)
        ∧ (x.done = false → x.dead = false → tier.val = 0 → readable b x = true →
          (s.dev.faulted x.context = true → Completes (.tierResultWritten slot tier raw) s
            (verdict y 0 (if s.dev.stepping x.context then 0x440 else 0x400) 1))
          ∧ (s.dev.faulted x.context = false → s.dev.stepping x.context = true →
            Completes (.tierResultWritten slot tier raw) s (verdict y 0 0x040 2)))
        ∧ (x.done = false → x.dead = false → s.dev.faulted x.context = false → s.dev.stepping x.context = false →
          (waits → Completes (.tierResultWritten slot tier raw) s kept)
          ∧ (¬waits → last → readable b x = true → Completes (.tierResultWritten slot tier raw) s (verdict y tier.val 0 0))
          ∧ (¬waits → ¬last → s.dev.wants y tier.val ys = none → readable b x = true →
            Completes (.tierResultWritten slot tier raw) s (verdict y tier.val 0 0))
          ∧ (¬waits → last ∨ s.dev.wants y tier.val ys = none → readable b x = false →
            Completes (.tierResultWritten slot tier raw) s fun d =>
              (∃ z, d.sample? slot = some z ∧ z.dead = true ∧ z.done = false) ∧ d.word C.TKP_VERDICTS = s.dev.word C.TKP_VERDICTS)
          ∧ (∀ ts dist, ¬waits → ¬last → s.dev.wants y tier.val ys = some (ts, dist) →
            (s.dev.plan.plannedEnd = false →
              Completes (.tierResultWritten slot tier raw) s fun d =>
                (∃ z, d.sample? slot = some z ∧ z.candidate = true ∧ z.done = false ∧ z.raw = y.raw ∧ z.ys = y.ys)
                  ∧ (s.dev.plan.openGroup.length + 1 < bitsOf s.dev.plan.planCfg 0 10 →
                      d.plan.openGroup = s.dev.plan.openGroup ++ [⟨x.slot, ts, dist⟩] ∧ d.plan.closedGroups = s.dev.plan.closedGroups)
                  ∧ (bitsOf s.dev.plan.planCfg 0 10 ≤ s.dev.plan.openGroup.length + 1 → d.plan.openGroup = []
                      ∧ d.plan.closedGroups = s.dev.plan.closedGroups ++ [s.dev.plan.openGroup ++ [⟨x.slot, ts, dist⟩]])
                  ∧ s.dev.Counts d C.TKP_CANDIDATES 1 ∧ s.dev.KeepsWords d [C.TKP_CANDIDATES] ∧ s.dev.KeepsParts d [.plan]
                  ∧ s.dev.KeepsMemory d)
            ∧ (s.dev.plan.plannedEnd = true → readable b x = true → ∀ best, y.best = some best →
              Completes (.tierResultWritten slot tier raw) s fun d =>
                verdict y best 0x002 6 d ∧ (∃ z, d.sample? slot = some z ∧ z.refused = true ∧ z.candidate = false)
                  ∧ s.dev.Counts d C.TKP_REFUSED_CAP 1)))))
    ∧ (s.dev.plan.openGroup ≠ [] → Completes .admissionGroupTimeout s fun d =>
        d.plan = { s.dev.plan with openGroup := [], closedGroups := s.dev.plan.closedGroups ++ [s.dev.plan.openGroup] }
          ∧ d.ns = max s.dev.ns (s.dev.plan.openSince + bitsOf s.dev.plan.planCfg 16 8) ∧ s.dev.KeepsWords d []
          ∧ s.dev.KeepsParts d [.time, .plan] ∧ s.dev.KeepsMemory d)
    ∧ (s.dev.plan.openGroup = [] → exec .admissionGroupTimeout s = .next s)
    ∧ (s.dev.plan.computing ≠ none → s.dev.plan.plannedEnd = false → Completes .plannedEnd s fun d =>
        d.plan = { s.dev.plan with plannedEnd := true, openGroup := [], closedGroups := d.plan.closedGroups }
          ∧ d.plan.closedGroups = s.dev.plan.closedGroups ++ (if s.dev.plan.openGroup = [] then [] else [s.dev.plan.openGroup])
          ∧ d.ns = max s.dev.ns (s.dev.plan.tickNs + s.dev.plan.period * 88 / 100) ∧ s.dev.KeepsWords d []
          ∧ s.dev.KeepsParts d [.time, .plan] ∧ s.dev.KeepsMemory d)
    ∧ (s.dev.plan.computing = none ∨ s.dev.plan.plannedEnd = true → exec .plannedEnd s = .next s)
    ∧ (s.dev.plan.computing = none ∨ s.dev.plan.closedGroups = [] → exec .admissionGroupDecide s = .next s)
    ∧ (∀ (b : Batch) (c : Cand) (rest : List (List Cand)) (x : Sample), s.dev.plan.computing = some b →
        s.dev.plan.closedGroups = [c] :: rest → s.dev.sample? c.slot = some x → x.model < 15 →
      let e := s.dev.charge x.model c.tiers
      let pays : Prop := s.dev.on R.APR_STAT_THROTTLE = false ∧ fpLt s.dev.plan.left 0 = false ∧ fpLe e s.dev.plan.left = true
      let room : Prop := ∀ t ∈ c.tiers, (s.dev.tierUse x.model t).left ≠ 0
      let turned (d : Dev) : Prop := d.plan.closedGroups = rest ∧ d.plan.left = s.dev.plan.left
        ∧ ∃ z, d.sample? c.slot = some z ∧ z.refused = true ∧ z.done = true ∧ z.admitted = x.admitted
      (x.done = true → Completes .admissionGroupDecide s fun d => d = { s.dev with plan := { s.dev.plan with closedGroups := rest } })
      ∧ (x.done = false → pays → room → Completes .admissionGroupDecide s fun d =>
        d.plan.closedGroups = rest ∧ d.plan.left = fpSub s.dev.plan.left e ∧ d.plan.charged = fpAdd s.dev.plan.charged e
          ∧ (∃ z, d.sample? c.slot = some z ∧ z.admitted = x.admitted ++ c.tiers ∧ z.candidate = false ∧ z.done = false)
          ∧ s.dev.Counts d C.TKP_ADMITTED_T1 (c.tiers.filter (· = 1)).length
          ∧ s.dev.Counts d C.TKP_ADMITTED_T2 (c.tiers.filter (· ≠ 1)).length
          ∧ (∀ t ∈ c.tiers, c.tiers.Nodup → (d.tierUse x.model t).left = (s.dev.tierUse x.model t).left - 1))
      ∧ (∀ best, x.done = false → ¬pays → x.best = some best → readable b x = true → Completes .admissionGroupDecide s fun d =>
        turned d ∧ verdict { x with refused := true } best 0x002 6 d ∧ s.dev.Counts d C.TKP_REFUSED_CREDIT 1)
      ∧ (∀ best, x.done = false → pays → ¬room → x.best = some best → readable b x = true → Completes .admissionGroupDecide s fun d =>
        turned d ∧ verdict { x with refused := true } best 0x002 6 d ∧ s.dev.Counts d C.TKP_REFUSED_CAP 1))

/-- R216, R218, R223 to R227, R232, R235, R248 to R250, R253 and R262. The check that fails, if any, is `RunTile.checkFail` of the running
tile, which compares its sums with those of its checksum columns and rows (R220 to R222).
Completes, under conditions on the state and the operands alone, with the effect said: TILE_ISSUE, TILE_DONE, GRATING_TILE_ISSUE,
GRATING_TILE_DONE.
Where the model chose: log entries 12, 64 and 65. -/
def Obligations.TilesRun : Prop :=
  ∀ s : State, s.Running →
    (∀ (t : Tile) (bad : List MemEvent), (t.onGrating = true → exec (.tileIssue t bad) s = .next s)
      ∧ (t.onGrating = false → exec (.gratingTileIssue t bad) s = .next s))
    ∧ (∀ t : Tile, s.dev.tileStopped t = false →
      let c (bad : List MemEvent) : Instr := if t.onGrating then .gratingTileIssue t bad else .tileIssue t bad
      let g := t.partition - 1024
      let shown (d : Dev) (p : Pass) : Prop :=
        (t.onGrating = true → d.get (R.GRT_STAT_STATE g) = 1 ∧ d.get (R.GRT_STAT_CONTEXT g) = t.context.val
            ∧ d.get (R.GRT_STAT_A_BITS g) = gratingBits p.actFmt ∧ d.get (R.GRT_STAT_W_BITS g) = gratingBits p.wgtFmt)
          ∧ ∀ f ∈ t.facets,
            let (i, j, k) := (f / 64, f / 4 % 16, f % 4)
            d.get (R.LNS_FACET_STAT_STATE i j k) = 1 ∧ d.get (R.LNS_FACET_STAT_CONTEXT i j k) = t.context.val
              ∧ d.get (R.LNS_FACET_STAT_PARTITION i j k) = t.partition ∧ d.get (R.LNS_FACET_STAT_SHARED i j k) = b2n (t.form = .shared)
              ∧ d.get (R.LNS_FACET_STAT_GANG i j k) = b2n (t.form = .gang)
      let lost (d : Dev) : Prop := d.lens.running = s.dev.lens.running
        ∧ d.lens.stopped = s.dev.lens.stopped ++ [⟨t, 5, false, s.dev.plan.tick, t.m * t.k * t.n⟩]
      (∀ bad, s.dev.mayIssue t = false → exec (c bad) s = .next s)
      ∧ (s.dev.mayIssue t = true → s.dev.lens.stopped.find? (fun x => s.dev.isReissue x t) = none →
        (∀ bad e, s.dev.passFor t bad = (e, none) → Completes (c bad) s lost)
        ∧ (∀ bad e p, s.dev.passFor t bad = (e, some p) →
          let ok : Bool := p.takes t && p.reaches t && s.dev.accumulatorsFor p t
          let acts := e.readPieces p.actFmt (p.actPieces t) bad
          let wgts := acts.1.weights p t bad
          (ok = false → exec (c bad) s = .next s)
          ∧ (ok = true → acts.2 = none ∨ wgts.2 = none → Completes (c bad) s lost)
          ∧ (∀ a w, ok = true → acts.2 = some a → wgts.2 = some w →
            Completes (c bad) s fun d =>
              d.lens.running = s.dev.lens.running ++ [⟨t, false, s.dev.regionCycles t.region, a, w⟩] ∧ shown d p
                ∧ d.lens.stopped = s.dev.lens.stopped
                ∧ (∀ u ∈ t.units, (d.lens.banks.find u).map (·.active) = some (t.weightsOf p.perRow w u))
                ∧ (∃ q ∈ d.lens.passes, q.isOf t = true)
                ∧ (e = s.dev → acts.1 = e → wgts.1 = { e with lens := wgts.1.lens } →
                    d.lens.passes.length = s.dev.lens.passes.length ∧ s.dev.KeepsWords d (t.units.flatMap unitWords)
                      ∧ s.dev.KeepsParts d [.lens] ∧ s.dev.KeepsMemory d))))
      ∧ (∀ x bad, s.dev.mayIssue t = true → s.dev.lens.stopped.find? (fun x => s.dev.isReissue x t) = some x →
        (x.granted = false → exec (c bad) s = .next s)
        ∧ (x.granted = true → Completes (c bad) s fun d =>
            d.plan.reissued = s.dev.plan.reissued ++ [t] ∧ (x.left ≤ t.m * t.k * t.n → x ∉ d.lens.stopped)
              ∧ (t.m * t.k * t.n < x.left → { x with left := x.left - t.m * t.k * t.n } ∈ d.lens.stopped)
              ∧ (t.onGrating = true → s.dev.Counts d (C.GRT_TILES_REISSUED g) 1)
              ∧ (t.onGrating = false →
                  s.dev.Counts d (C.LNS_TILES_REISSUED (t.facet / 64 % 16) (t.facet / 4 % 16) (t.facet % 4)) 1)
              ∧ (s.dev.steps t.context.val t.tier.val t.learning = false →
                  ∀ i ∈ t.slots, ∀ y, d.sample? i = some y → y.rerun = true))))
    ∧ (∀ (mine : RunTile → Bool) (cluster : Nat) (c : List Upset → FacetCycles → Instr) (us : List Upset) (y : FacetCycles),
        ((∃ part facet, mine = (fun r => decide (r.tile.partition = part) && r.tile.facets.contains facet) ∧ c = .tileDone part facet
            ∧ cluster = facet / 64)
          ∨ (∃ g : Fin 16, mine = (fun r => r.tile.onGrating && decide (r.tile.partition = 1024 + g.val)) ∧ c = .gratingTileDone g
            ∧ cluster = g.val)) →
        s.dev.clusterStopped cluster = false →
      (s.dev.lens.running.find? mine = none → exec (c us y) s = .next s)
      ∧ ∀ r p, s.dev.lens.running.find? mine = some r → r.tile.fits = true → s.dev.passOf r.tile = some p → p.wgtFmt < 17 →
        let fails := r.checkFail p us (s.dev.get R.LNS_CFG_FP_CHK_SHIFT)
        let words := tileWords r.tile (unitEngine p.unit) p.wgtFmt
        (fails = none → Completes (c us y) s fun d =>
          d.lens.running = s.dev.lens.running.filter (fun q => !(q = r))
            ∧ { (r.addTo us p).hold r.tile with lastDone := p.lastDone || r.tile.lastOfPass } ∈ d.lens.passes
            ∧ d.lens.stopped = s.dev.lens.stopped
            ∧ (∀ f ∈ r.tile.facets, s.dev.Counts d (C.LNS_TILES (f / 64) (f / 4 % 16) (f % 4)) 1)
            ∧ (r.tile.onGrating = true → s.dev.Counts d (C.GRT_VECTORS (r.tile.partition - 1024)) r.tile.m)
            ∧ s.dev.KeepsWords d words ∧ s.dev.KeepsParts d [.lens, .lpe] ∧ s.dev.KeepsMemory d)
        ∧ ∀ fail, fails = some fail →
          let counted (d : Dev) : Prop := d.lens.running.contains r = false
            ∧ (r.tile.onGrating = true → s.dev.Counts d (C.GRT_CHK_MISMATCH (r.tile.partition - 1024)) 1)
            ∧ (r.tile.onGrating = false → ∀ f ∈ failedFacets r.tile fail,
                s.dev.Counts d (C.LNS_CHK_MISMATCH (f / 64 % 16) (f / 4 % 16) (f % 4)) 1)
          (r.again = false → Completes (c us y) s fun d => counted d
            ∧ d.lens.running = s.dev.lens.running.filter (fun q => !(q = r))
            ∧ d.lens.stopped = s.dev.lens.stopped ++ [⟨r.tile, 6, false, s.dev.plan.tick, r.tile.m * r.tile.k * r.tile.n⟩]
            ∧ d.lens.passes = s.dev.lens.passes ∧ s.dev.KeepsWords d words ∧ s.dev.KeepsParts d [.plan, .lens, .lpe]
            ∧ s.dev.KeepsMemory d)
          ∧ (r.again = true → Completes (c us y) s fun d => counted d ∧ d.faulted r.tile.context.val = true))

/-- R241, R242, R255 to R258 and R290.
Completes, under conditions on the state and the operands alone, with the effect said: OUTPUT_SWAP, MOVER_OP, MOVER_COMPLETE,
ELEMENTWISE_OP.
Where the model chose: log entries 12, 14, 65 and 66. -/
def Obligations.OutputsAndMoves : Prop :=
  ∀ s : State, s.Running →
    let takes (c v p : Nat) : Prop := s.dev.physCtr c v = some p ∧ (s.dev.ctr p).value + 1 ≤ 65535
      ∧ s.dev.sync.waits.any (s.dev.waitsOn p) = false ∧ s.dev.sync.written ≠ some (p, s.dev.ns)
    (∀ part : Nat, s.dev.clusterStopped (clusterOf part) = false →
      let done := s.dev.lens.passes.find? fun p => decide (p.partition = part) && s.dev.complete p
      (done = none → exec (.outputSwap part) s = .next s)
      ∧ ∀ p, done = some p →
      let bytes := packElems p.outFmt (p.outputs.map fun o => o.conv.code)
      let scale := leAt p.qblock 16 8 + 4
      Completes (.outputSwap part) s (fun d => ∀ q ∈ d.lens.passes, ¬(q.partition = part ∧ q.cmdId = p.cmdId))
      ∧ (∀ k, p.partition < 1040 → p.context < 256 → s.dev.faulted p.context = false → s.dev.on R.LPE_CFG_TRACE_EN = false →
          takes p.context p.completion k → descClip p.outDesc = 0 → descFallback p.outDesc = false →
        let signalled (d : Dev) : Prop := (d.ctr k).value = (s.dev.ctr k).value + 1 ∧ (d.ctr k).signaller = p.engine
          ∧ (p.swap ∈ d.lens.swapped) ∧ s.dev.KeepsParts d [.plan, .lens, .seq, .sync, .fab, .lpe]
        (∀ a, p.out = .shared a → s.dev.Writable a bytes.length →
            (p.statAddr + 16 ≤ a ∨ a + bytes.length ≤ p.statAddr) → (scale + 4 ≤ a ∨ a + bytes.length ≤ scale) →
          Completes (.outputSwap part) s fun d =>
            d.memRead a bytes.length = bytes ∧ signalled d
              ∧ (∀ x, (x < a ∨ a + bytes.length ≤ x) → (x < p.statAddr ∨ p.statAddr + 16 ≤ x) → (x < scale ∨ scale + 4 ≤ x) →
                  Memory.byte d.fab.mem x = Memory.byte s.dev.fab.mem x)
              ∧ ∀ x, Memory.byte d.fab.core x = Memory.byte s.dev.fab.core x)
        ∧ (∀ (core : Fin 256) (a : Nat), p.out = .core core a → a + bytes.length ≤ 0x80000 →
          Completes (.outputSwap part) s fun d =>
            d.coreRead core.val a bytes.length = bytes ∧ signalled d
              ∧ (∀ x, x < core.val * 0x80000 + a ∨ core.val * 0x80000 + a + bytes.length ≤ x →
                  Memory.byte d.fab.core x = Memory.byte s.dev.fab.core x)
              ∧ (∀ x, (x < p.statAddr ∨ p.statAddr + 16 ≤ x) → (x < scale ∨ scale + 4 ≤ x) →
                  Memory.byte d.fab.mem x = Memory.byte s.dev.fab.mem x))))
    ∧ (∀ o : MoverOp, s.dev.clusterStopped o.cluster.val = false →
      let may : Bool := o.fits && !s.dev.clusterFenced o.cluster.val
        && s.dev.mayOperate o.partition o.context.val o.model.val o.tier.val o.learning
      (may = true → Completes (.moverOp o) s fun d => d.lens = { s.dev.lens with movers := s.dev.lens.movers ++ [o] }
          ∧ ((s.dev.shownCmd (moverEngine o.cluster.val)).isSome = true → s.dev.stepsMover o = false →
              s.dev.KeepsWords d [] ∧ s.dev.KeepsParts d [.lens] ∧ s.dev.KeepsMemory d)
          ∧ (s.dev.on R.LPE_CFG_TRACE_EN = false → s.dev.KeepsWords d (engineWords (moverEngine o.cluster.val))
              ∧ s.dev.KeepsParts d [.lens, .lpe] ∧ s.dev.KeepsMemory d))
      ∧ (may = false → exec (.moverOp o) s = .next s))
    ∧ (∀ (c : Fin 16) (bad : List MemEvent), s.dev.clusterStopped c.val = false →
      let next := takeFirst (fun (o : MoverOp) => decide (o.cluster.val = c.val)) s.dev.lens.movers
      (next = none → exec (.moverComplete c bad) s = .next s)
      ∧ ∀ o rest, next = some (o, rest) →
        ((s.dev.moverSource o bad).2 = none → Completes (.moverComplete c bad) s fun d => d.faulted o.context.val = true
          ∧ ∀ q ∈ d.lens.movers, q ∈ rest)
        ∧ ∀ rows k, (s.dev.moverSource o bad).2 = some rows → s.dev.on R.LPE_CFG_TRACE_EN = false → takes o.context.val o.signal.toNat k →
          let lines := (if o.transpose then transposed rows o.cols else rows).map (rowBytes o.elemBits)
          let n := (lines.map List.length).sum
          Completes (.moverComplete c bad) s fun d =>
            d.lens.movers = rest ∧ s.dev.Counts d (C.LNS_MOVER_OPS c.val) 1 ∧ s.dev.Counts d (C.LNS_MOVER_BYTES c.val) n
              ∧ s.dev.Counts d (C.LNS_MOVER_TRANSPOSED_BYTES c.val) (if o.transpose then n else 0)
              ∧ (d.ctr k).value = (s.dev.ctr k).value + 1 ∧ (d.ctr k).signaller = moverEngine c.val
              ∧ s.dev.KeepsParts d [.plan, .lens, .seq, .sync, .fab, .lpe]
              ∧ (∀ a, o.dst = .shared a →
                (bad = [] → (∀ l ∈ lines, l.length ≤ o.dstPitch) → (∀ i l, lines[i]? = some l → s.dev.Writable (a + i * o.dstPitch) l.length) →
                  ∀ i l, lines[i]? = some l → d.memRead (a + i * o.dstPitch) l.length = l)
                ∧ (∀ x, (∀ i l, lines[i]? = some l → x < a + i * o.dstPitch ∨ a + i * o.dstPitch + l.length ≤ x) →
                    Memory.byte d.fab.mem x = Memory.byte s.dev.fab.mem x)
                ∧ ∀ x, Memory.byte d.fab.core x = Memory.byte s.dev.fab.core x)
              ∧ (∀ core a, o.dst = .core core a → ∀ x, Memory.byte d.fab.mem x = Memory.byte s.dev.fab.mem x))
    ∧ (∀ (e : EltCmd) (bad : List MemEvent), s.dev.clusterStopped (e.core.val / 16) = false →
      let may : Bool := e.fits && !s.dev.coreFenced e.core.val
        && s.dev.mayOperate e.partition e.context.val e.model.val e.tier.val e.learning
      let k := eltArity e.op
      let opA := (s.dev.eltOperand true e.a e.aFmt.val e.count bad).2
      let opB := (s.dev.eltOperand (2 ≤ k) e.b e.bFmt.val e.count bad).2
      let opC := (s.dev.eltOperand (3 ≤ k) e.c e.cFmt.val e.count bad).2
      let (cl, j) := (e.core.val / 16, e.core.val % 16)
      (may = false → exec (.elementwiseOp e bad) s = .next s)
      ∧ (may = true → opA = none ∨ opB = none ∨ opC = none →
          Completes (.elementwiseOp e bad) s fun d => d.faulted e.context.val = true)
      ∧ ∀ xs ys zs, may = true → s.dev.on R.LPE_CFG_TRACE_EN = false → opA = some xs → opB = some ys → opC = some zs →
        let places := [e.a, e.out] ++ (if 2 ≤ k then [e.b] else []) ++ if 3 ≤ k then [e.c] else []
        let run := (s.dev.cmemWait cl places).eltRun e.op (xs.zip (ys.zip zs))
        let outs := run.2.1.map fun r => drainConvert e.outFmt.val 0 r false
        let bytes := packElems e.outFmt.val (outs.map fun o => o.conv.code)
        Completes (.elementwiseOp e bad) s fun d =>
          s.dev.Counts d (C.LNS_CLIPPED cl j) (outs.countP fun o => o.conv.clipped)
            ∧ s.dev.Counts d (C.LNS_NAN_SQUASHED cl j) (run.2.2.nans + outs.countP fun o => o.conv.squashed)
            ∧ s.dev.Counts d (C.LNS_INT32_SATURATED cl j) (run.2.2.sats + outs.countP fun o => o.saturated)
            ∧ s.dev.KeepsParts d [.plan, .seq, .fab, .lpe]
            ∧ (∀ a, e.out = .shared a → s.dev.KeepsMemoryBut d a bytes.length
                ∧ (bad = [] → s.dev.Writable a bytes.length → d.memRead a bytes.length = bytes))
            ∧ (∀ core a, e.out = .core core a → a + bytes.length ≤ 0x80000 → d.coreRead core.val a bytes.length = bytes
                ∧ (∀ x, x < core.val * 0x80000 + a ∨ core.val * 0x80000 + a + bytes.length ≤ x →
                    Memory.byte d.fab.core x = Memory.byte s.dev.fab.core x)
                ∧ ∀ x, Memory.byte d.fab.mem x = Memory.byte s.dev.fab.mem x))

/-- R343 to R345, R351, R353, R354, R360 to R362 and R451.
Completes, under conditions on the state and the operands alone, with the effect said: FOREST_SAMPLE_ENTER, FOREST_RESULT,
FOREST_SCRUB, FOREST_WORD_REWRITE, SHADOW_LOAD_DONE.
Where the model chose: log entries 13 and 55. -/
def Obligations.ForestScores : Prop :=
  ∀ s : State, s.RunsIn 16 →
    let states := (List.range 32).map fun e => (R.FOR_ENGINE_STAT_STATE e).addr
    let commands := C.LPE_CMDS 2 :: (List.range 32).flatMap fun e => engineWords (0x2000 + e)
    (∀ (m : Fin 15) (b : Batch) (x : Sample) (again : Bool) (stall : Nat), s.dev.plan.computing = some b → s.dev.forestPlaced m.val = true →
      let j := (s.dev.lens.entered.find m.val).getD 0
      let rs := s.dev.replicaList m.val
      let r := rs.getD (j % max 1 rs.length) 0
      let engines := s.dev.replicaEngines m.val r
      let late := s.dev.lens.jobs.map fun y => if y.model = m.val ∧ y.replica = r then { y with issued := y.issued + stall } else y
      let stalls := engines.map C.FOR_STALL_FEED
      let kept (jobs : List ForestJob) (d : Dev) : Prop := d.lens.jobs = jobs ∧ d.lens.entered.find m.val = some (j + 1)
        ∧ s.dev.Counts d C.FOR_REEVALUATED (b2n again)
        ∧ (∃ y, d.sample? x.slot = some y ∧ (again = true → y.rerun = true))
      let noT0 (d : Dev) : Prop := ∃ y, d.sample? x.slot = some y ∧ y.dead = true
      x.model = m.val → s.dev.sample? x.slot = some x →
      (again = false → (s.dev.modelSamples m.val)[j]? = some x) →
      (again = true → (s.dev.modelSamples m.val)[j]? = none
        ∧ (s.dev.lens.reeval.find? fun q => decide (q.1 = m.val)) = some (m.val, x.slot)) →
      (s.dev.replicaRuns m.val r = false → ∀ bad, Completes (.forestSampleEnter m bad stall) s fun d =>
        kept s.dev.lens.jobs d ∧ noT0 d ∧ s.dev.KeepsWords d [C.FOR_REEVALUATED] ∧ s.dev.KeepsParts d [.plan, .lens] ∧ s.dev.KeepsMemory d)
      ∧ (s.dev.replicaRuns m.val r = true → s.dev.readable (s.dev.slotAddr b.set x.slot) 512 = true →
          s.dev.on R.LPE_CFG_TRACE_EN = false →
        let fs := (List.range (s.dev.get (R.FOR_MODEL_FEATURES m.val))).map fun f =>
          s.dev.feat m.val f (s.dev.memRead (s.dev.slotAddr b.set x.slot) 512)
        Completes (.forestSampleEnter m [] stall) s fun d =>
          kept (late ++ [⟨m.val, x.slot, r, fs, s.dev.regionCycles 16, [], none⟩]) d
            ∧ (∀ e ∈ engines, s.dev.Counts d (C.FOR_STALL_FEED e) stall)
            ∧ s.dev.Counts d C.FOR_MISSING (fs.countP fun f => decide (f = .missing))
            ∧ s.dev.Counts d C.FOR_NAN (fs.countP fun f => decide (f = .nan))
            ∧ s.dev.Counts d C.FOR_CAT_RANGE (fs.countP fun f => match f with | .cat v => decide (255 < v) | _ => false)
            ∧ (again = false → d.plan = s.dev.plan)
            ∧ s.dev.KeepsWords d ([C.FOR_MISSING, C.FOR_NAN, C.FOR_CAT_RANGE, C.FOR_REEVALUATED] ++ stalls ++ states ++ commands)
            ∧ s.dev.KeepsParts d [.plan, .lens, .lpe] ∧ s.dev.KeepsMemory d)
      ∧ (∀ bad, s.dev.replicaRuns m.val r = true → (s.dev.fetch (s.dev.slotAddr b.set x.slot) 512 bad).2 = none →
        Completes (.forestSampleEnter m bad stall) s fun d =>
          kept late d ∧ noT0 d ∧ (∀ e ∈ engines, s.dev.Counts d (C.FOR_STALL_FEED e) stall) ∧ s.dev.KeepsMemory d))
    ∧ (∀ (m : Fin 15) (bad : List MemEvent) (n : Nat),
        s.dev.plan.computing = none ∨ s.dev.forestPlaced m.val = false
          ∨ ((s.dev.modelSamples m.val).length ≤ (s.dev.lens.entered.find m.val).getD 0 ∧ ∀ q ∈ s.dev.lens.reeval, q.1 ≠ m.val) →
      exec (.forestSampleEnter m bad n) s = .next s)
    ∧ (∀ m : Fin 15, (∀ j ∈ s.dev.lens.jobs, j.model ≠ m.val) → exec (.forestResult m) s = .next s)
    ∧ (∀ (m : Fin 15) (before after : List ForestJob) (j : ForestJob), s.dev.lens.jobs = before ++ j :: after →
        (∀ y ∈ before, y.model ≠ m.val) → j.model = m.val →
      let stages := s.dev.replicaStages m.val j.replica
      let first := 0x2000 + (s.dev.replicaEngines m.val j.replica).headD 0
      let d0 : Dev := { s.dev with lens := { s.dev.lens with jobs := before ++ after } }
      let run := (forestRun j stages (d0.cmdWork first first (forestCmd m.val) [1, 1, 0, 1]) [] (s.dev.baseLanes m.val)).2
      let fails (p : Nat × Nat) : Bool := decide (j.failed = some p.1)
        || (j.failed.isNone && s.dev.on (R.FOR_ENGINE_STAT_WORD_BAD p.2) && !j.past.contains p.1)
      (stages.find? fails = none → ∃ raw, run = some raw ∧ ∀ x, s.dev.sample? j.slot = some x → x.raw.length = 3 → x.raw.getD 0 none = none →
          s.dev.plan.lost.contains (x.model, 0) = false →
        Completes (.forestResult m) s fun d =>
          d.lens.jobs = before ++ after ∧ d.lens.failed = s.dev.lens.failed
            ∧ (∃ y, d.sample? j.slot = some y ∧ (y.raw.getD 0 none = some raw ∨ y.dead = true))
            ∧ (x.mode ≠ 1 → s.dev.Counts d C.FOR_RESULTS 1))
      ∧ (∀ p, stages.find? fails = some p → s.dev.on R.LPE_CFG_TRACE_EN = false → Completes (.forestResult m) s fun d =>
          d.lens = { s.dev.lens with jobs := before ++ after, failed := s.dev.lens.failed ++ [(m.val, j.slot)] }
            ∧ s.dev.Counts d (C.FOR_SAMPLES_FAILED p.2) 1
            ∧ s.dev.KeepsWords d (states ++ commands
                ++ stages.flatMap fun q => [C.FOR_BUSY_CYCLES q.2, C.FOR_SAMPLES q.2, C.FOR_SAMPLES_FAILED q.2])
            ∧ s.dev.KeepsParts d [.lens, .lpe] ∧ s.dev.KeepsMemory d))
    ∧ (∀ xs : List EccError,
      let fresh (x : EccError) (e : Nat) : Bool := decide (forestEngine x.addr = some e) && !s.dev.lens.badWords.contains x.addr
      let lost (e : Nat) : List Nat := ((xs.filter fun x => fresh x e && !x.corrected).map (·.addr)).eraseDups
      Completes (.forestScrub xs) s fun d =>
        (∀ e < 32,
          s.dev.Counts d (C.FOR_MEM_CORRECTED e)
              (xs.countP fun x => fresh x e && x.corrected && !xs.any fun y => decide (y.addr = x.addr) && !y.corrected)
            ∧ s.dev.Counts d (C.FOR_MEM_UNCORR e) (lost e).length
            ∧ (lost e ≠ [] → d.get (R.FOR_ENGINE_STAT_WORD_BAD e) = 1)
            ∧ (lost e = [] → d.get (R.FOR_ENGINE_STAT_WORD_BAD e) = s.dev.get (R.FOR_ENGINE_STAT_WORD_BAD e)))
          ∧ (∀ a, a ∈ d.lens.badWords ↔ a ∈ s.dev.lens.badWords ∨ ∃ e < 32, a ∈ lost e)
          ∧ (∀ a e, xs = [⟨a, false⟩] → lost e = [a] → s.dev.on (R.FOR_ENGINE_STAT_WORD_BAD e) = false →
              let st := s.dev.get (R.FOR_ENGINE_STAT_STAGE e)
              d.lens.jobs = s.dev.lens.jobs.map fun j =>
                if j.model = s.dev.get (R.FOR_ENGINE_STAT_MODEL e) ∧ j.replica = s.dev.get (R.FOR_ENGINE_STAT_REPLICA e)
                    ∧ j.issued + 20 + 8 * st ≤ s.dev.regionCycles 16 then { j with past := st :: j.past } else j)
          ∧ d.lens = { s.dev.lens with badWords := d.lens.badWords, jobs := d.lens.jobs }
          ∧ s.dev.KeepsWords d ((List.range 32).flatMap fun e =>
              [C.FOR_MEM_CORRECTED e, C.FOR_MEM_UNCORR e, (R.FOR_ENGINE_STAT_WORD_BAD e).addr])
          ∧ s.dev.KeepsParts d [.plan, .lens, .lpe] ∧ s.dev.KeepsMemory d)
    ∧ (∀ (a e : Nat), forestEngine a = some e → a ∈ s.dev.lens.badWords →
      Completes (.forestWordRewrite a) s fun d =>
        d.word a = (Sparse.read resetWord s.dev.lens.forestCopy a).toNat
          ∧ d.lens = { s.dev.lens with badWords := s.dev.lens.badWords.filter (· != a), jobs := d.lens.jobs }
          ∧ (d.get (R.FOR_ENGINE_STAT_WORD_BAD e) = 1 → d.lens.jobs = s.dev.lens.jobs)
          ∧ (s.dev.on (R.FOR_ENGINE_STAT_WORD_BAD e) = true →
              (d.get (R.FOR_ENGINE_STAT_WORD_BAD e) = 1 ↔ ∃ b ∈ s.dev.lens.badWords, b ≠ a ∧ forestEngine b = some e))
          ∧ s.dev.KeepsWords d [a, (R.FOR_ENGINE_STAT_WORD_BAD e).addr] ∧ s.dev.KeepsParts d [.lens] ∧ s.dev.KeepsMemory d)
    ∧ (∀ a, a ∉ s.dev.lens.badWords → exec (.forestWordRewrite a) s = .next s)
    ∧ (∀ m : Fin 15,
      ((∃ e ∈ s.dev.modelEngines m.val, s.dev.on (R.FOR_ENGINE_STAT_SHADOW_LOADING e) = true) →
        Completes (.shadowLoadDone m) s fun d =>
          d.get (R.FOR_MODEL_SHADOW_READY m.val) = 1 ∧ (∀ e ∈ s.dev.modelEngines m.val, d.get (R.FOR_ENGINE_STAT_SHADOW_LOADING e) = 0)
            ∧ d.get (R.FOR_MODEL_GEN_SHADOW m.val) = s.dev.get (R.FOR_MODEL_GEN_SHADOW m.val)
            ∧ s.dev.KeepsWords d ((R.FOR_MODEL_SHADOW_READY m.val).addr
                :: (s.dev.modelEngines m.val).map fun e => (R.FOR_ENGINE_STAT_SHADOW_LOADING e).addr)
            ∧ s.dev.KeepsParts d [] ∧ s.dev.KeepsMemory d)
      ∧ ((∀ e ∈ s.dev.modelEngines m.val, s.dev.on (R.FOR_ENGINE_STAT_SHADOW_LOADING e) = false) →
        exec (.shadowLoadDone m) s = .next s))

/-- R371, R373 to R375, R377, R378, R390, R423 and R537.
Completes, under conditions on the state and the operands alone, with the effect said: STATE_READ_END, COMMIT_REQUEST,
STATE_SWEEP_END.
Where the model chose: log entry 58. -/
def Obligations.StateCommits : Prop :=
  ∀ s : State, s.RunsIn 17 →
    let wanted (slot : Nat) (o : Option Batch) : Option Sample :=
      o.bind fun b => b.samples.find? fun x => decide (x.slot = slot) && decide (x.stateRead = 1)
    let pending (x : Sample) : Prop := ∃ c, s.dev.plan.computing = some c ∧ ∃ t ∈ c.samples, t.oneFlow x = true ∧ s.dev.updatePending t = true
    (∀ (now : Bool) (b : Batch) (x : Sample) (slot : Nat), (if now then s.dev.plan.computing else s.dev.plan.collecting) = some b →
        wanted slot (some b) = some x → (now = false → wanted slot s.dev.plan.computing = none ∧ ¬ pending x) →
      let earlier := b.samples.find? fun t => decide (t.slot < slot) && t.sameFlow x && decide (t.stateRead = 3)
      let source := match earlier with | some t => s.dev.stateBlock b.set t.slot | none => s.dev.seqState x.flow.index
      let place := s.dev.stateBlock b.set slot
      let copied := earlier.any (·.initial)
      let isRead (fails : Bool) (d : Dev) : Prop := ∃ c y, (if now then d.plan.computing else d.plan.collecting) = some c
        ∧ c.samples.find? (fun t => decide (t.slot = slot)) = some y ∧ y.stateRead = 3 ∧ y.initial = fails
      let last : Prop := ∃ c, s.dev.plan.computing = some c ∧ ∀ t ∈ c.samples, t.stateRead = 1 → now = true ∧ t.slot = slot
      let ready (d : Dev) : Prop := d.seq.readySent = true ↔ s.dev.seq.readySent = true ∨ last
      let fresh (lost : Bool) : Nat := b2n ((copied || lost) && !x.initial && x.admitted.contains 2)
      (s.dev.readable source 64 = true → s.dev.Writable place 64 → Completes (.stateReadEnd slot []) s fun d =>
        isRead (x.initial || copied) d ∧ ready d
          ∧ d.memRead place 64 = (if x.initial || copied then s.dev.initialState x.model else s.dev.memRead source 64)
          ∧ s.dev.KeepsMemoryBut d place 64
          ∧ (s.dev.seq.readySent = true ∨ ¬ last → s.dev.Counts d (C.SEQ_INITIAL x.model) (fresh false)
              ∧ s.dev.KeepsWords d [C.SEQ_INITIAL x.model] ∧ s.dev.KeepsParts d [.plan]))
      ∧ (∀ bad, (s.dev.fetch source 64 bad).2 = none → Completes (.stateReadEnd slot bad) s fun d =>
        isRead true d ∧ ready d ∧ s.dev.KeepsMemoryBut d place 64
          ∧ (s.dev.seq.readySent = true ∨ ¬ last → s.dev.Counts d (C.SEQ_INITIAL x.model) (fresh true))))
    ∧ (∀ (slot : Nat) (bad : List MemEvent), wanted slot s.dev.plan.computing = none →
        (∀ x, wanted slot s.dev.plan.collecting = some x → pending x) →
      exec (.stateReadEnd slot bad) s = .next s)
    ∧ (∀ (m : Fin 15) (req : Word),
      let c := (s.dev.seqContext m.val).getD 0
      let first := bitsOf req.toNat 0 13
      let last := bitsOf req.toNat 16 13
      let names (o : Option Batch) : Option Batch := o.filter fun b => decide (b.number % 65536 = bitsOf req.toNat 32 16)
      let window := C.LPE_CMDS 4 :: engineWords 0x4000
      (s.dev.stepping c = true →
        (s.dev.mayStep c (s.dev.commitProgram c m.val) = false → exec (.commitRequest m req) s = .next s)
        ∧ (s.dev.mayStep c (s.dev.commitProgram c m.val) = true → s.dev.on R.LPE_CFG_TRACE_EN = false →
          Completes (.commitRequest m req) s fun d =>
            s.dev.Counts d C.LPE_STEP_CMDS 1 ∧ s.dev.KeepsWords d (C.LPE_STEP_CMDS :: window) ∧ s.dev.KeepsParts d [.lpe] ∧ s.dev.KeepsMemory d))
      ∧ (s.dev.stepping c = false → s.dev.on R.LPE_CFG_TRACE_EN = false →
        (∀ b xs, names s.dev.plan.computing = some b → s.dev.learningOn m.val = false →
          let due (x : Sample) : Bool := decide (x.model = m.val) && s.dev.carrier x && x.admitted.contains 2 && !x.committed
            && decide (first ≤ x.slot) && decide (x.slot ≤ last) && s.dev.seq.newStates.contains x.slot
            && !s.dev.faulted x.context && decide (x.stateRead = 3)
          let live := xs.filter fun x => (s.dev.flowEntry x.flow).isSome
          let at_ (x : Sample) : Nat := s.dev.seqState x.flow.index
          let source (x : Sample) : Nat := s.dev.newBlock b.set x.slot
          let start (x : Sample) : Nat := if x.initial then 0 else leAt (s.dev.memRead (s.dev.stateBlock b.set x.slot + 2) 2) 0 2
          b.samples.filter due = xs → (xs.map fun x => x.flow.index).Nodup →
          (∀ x ∈ live, s.dev.Writable (at_ x) 64 ∧ s.dev.readable (source x + 8) 56 = true
            ∧ s.dev.readable (s.dev.stateBlock b.set x.slot + 2) 2 = true
            ∧ ∀ y ∈ live, (source x + 64 ≤ at_ y ∨ at_ y + 64 ≤ source x)
              ∧ (s.dev.stateBlock b.set x.slot + 64 ≤ at_ y ∨ at_ y + 64 ≤ s.dev.stateBlock b.set x.slot)) →
          Completes (.commitRequest m req) s fun d =>
            (∀ x ∈ live, d.memRead (at_ x) 64 = leBytes 1 (m.val + 16) ++ leBytes 1 (s.dev.get (R.SEQ_MODEL_LINEAGE m.val))
                ++ leBytes 2 (min (start x + 1) 65535) ++ leBytes 4 b.number ++ s.dev.memRead (source x + 8) 56)
              ∧ (∀ x ∈ live, ∃ y, d.sample? x.slot = some y ∧ y.committed = true)
              ∧ (∀ i, (∀ x ∈ live, i < at_ x ∨ at_ x + 64 ≤ i) → Memory.byte d.fab.mem i = Memory.byte s.dev.fab.mem i)
              ∧ s.dev.Counts d (C.SEQ_TOKENS m.val) live.length ∧ s.dev.Counts d (C.SEQ_COMMIT_STALE m.val) (xs.length - live.length)
              ∧ s.dev.KeepsWords d (C.SEQ_TOKENS m.val :: C.SEQ_COMMIT_STALE m.val :: window) ∧ s.dev.KeepsParts d [.plan, .lpe])
        ∧ (names s.dev.plan.computing = none →
          let late (n : Nat) (d : Dev) : Prop := s.dev.Counts d (C.SEQ_COMMIT_LATE m.val) n
            ∧ (∀ g, s.dev.plan.gaps[m.val]? = some g → d.plan.gaps[m.val]? = some { g with event := g.event || decide (n ≠ 0) })
            ∧ d.plan = { s.dev.plan with gaps := d.plan.gaps }
            ∧ s.dev.KeepsWords d (C.SEQ_COMMIT_LATE m.val :: window) ∧ s.dev.KeepsParts d [.plan, .lpe] ∧ s.dev.KeepsMemory d
          (∀ b, names s.dev.plan.past = some b →
            Completes (.commitRequest m req) s (late (s.dev.dueCarriers b m.val first last).length))
          ∧ (∀ b, names s.dev.plan.past = none → names s.dev.plan.collecting = some b →
            Completes (.commitRequest m req) s (late (s.dev.carriersSoFar b m.val first last).length))
          ∧ (names s.dev.plan.past = none → names s.dev.plan.collecting = none →
            Completes (.commitRequest m req) s fun d => ∃ n, n ≤ last + 1 - first ∧ late n d))))
    ∧ (∀ m : Fin 15,
      (s.dev.on (R.SEQ_MODEL_SWEEP_BUSY m.val) = true →
        let a (i : Nat) : Nat := s.dev.seqState i
        let old := s.dev.statedFlows.filter fun i => s.dev.readable (a i) 64 && decide (leAt (s.dev.memRead (a i) 2) 0 1 % 16 = m.val)
          && decide (leAt (s.dev.memRead (a i) 2) 1 1 ≠ s.dev.get (R.SEQ_MODEL_LINEAGE m.val))
        Completes (.stateSweepEnd m) s fun d =>
          d.get (R.SEQ_MODEL_SWEEP_BUSY m.val) = 0 ∧ d.get (R.SEQ_MODEL_GSTATE m.val) = 1 ∧ d.get (R.SEQ_MODEL_GEN_RETIRING m.val) = 0
            ∧ d.get (R.SEQ_MODEL_GEN_CURRENT m.val) = s.dev.get (R.SEQ_MODEL_GEN_CURRENT m.val)
            ∧ (∀ i ∈ old, s.dev.Writable (a i) 64 → d.memRead (a i) 64 = zeros 64)
            ∧ (m.val ≠ 0 → s.dev.Counts d (C.SEQ_SWEEP_RESETS m.val) old.length)
            ∧ (∀ x, (∀ i ∈ old, x < a i ∨ a i + 64 ≤ x) → Memory.byte d.fab.mem x = Memory.byte s.dev.fab.mem x)
            ∧ ((∀ i ∈ old, s.dev.Writable (a i) 64) →
              s.dev.KeepsWords d [(R.SEQ_MODEL_SWEEP_BUSY m.val).addr, (R.SEQ_MODEL_GSTATE m.val).addr, (R.SEQ_MODEL_GEN_RETIRING m.val).addr,
                  C.SEQ_SWEEP_RESETS m.val, C.MEM_POISON_READS] ∧ s.dev.KeepsParts d []))
      ∧ (s.dev.on (R.SEQ_MODEL_SWEEP_BUSY m.val) = false → exec (.stateSweepEnd m) s = .next s))

/-- R362, R382 to R387, R398, R574 and R614.
Completes, under conditions on the state and the operands alone, with the effect said: OPEN, DATA, CLOSE, CLOSE_LOAD_DONE, ABORT,
MODEL_SWAP.
Where the model chose: log entries 5, 49 and 56. -/
def Obligations.GenerationsStaged : Prop :=
  ∀ s : State, s.RunsIn 21 →
    let gstate (m : Nat) : Nat := s.dev.get (R.SEQ_MODEL_GSTATE m)
    let same (ws : List Nat) (ps : List Part) (d : Dev) : Prop := s.dev.KeepsWords d (ws ++ s.dev.answerWords)
      ∧ s.dev.KeepsParts d (ps ++ s.dev.answerParts) ∧ d.nvm.apart = s.dev.nvm.apart
    let refused (c : Instr) (m st : Nat) : Prop := Completes c s fun d => s.dev.Answered d st []
      ∧ (m < 15 → s.dev.Counts d (C.SEQ_STAGE_REFUSED m) 1) ∧ same (if m < 15 then [C.SEQ_STAGE_REFUSED m] else []) [] d ∧ s.dev.KeepsMemory d
    let stage (op : Nat) (payload : List Byte) : Instr :=
      if op = 1 then .modelStageOpen payload else if op = 2 then .modelStageData payload
      else if op = 3 then .modelStageClose payload else .modelStageAbort payload
    (∀ (payload : List Byte) (op : Nat), 1 ≤ op → op ≤ 4 → 16 ≤ payload.length → 1 ≤ beAt payload 0 1 → beAt payload 0 1 ≤ 4 →
      beAt payload 0 1 ≠ op → exec (stage op payload) s = .next s)
    ∧ (∀ (payload : List Byte), s.dev.Turn 0x20 0 payload → s.dev.get R.LCS_STAT_STATE = 2 →
      let m := beAt payload 1 1
      let off := beAt payload 8 8
      let ok (op : Nat) : Prop := s.dev.stageCheck payload = none ∧ beAt payload 0 1 = op
      (∀ op st, 1 ≤ op → op ≤ 4 → (beAt payload 0 1 = op ∨ payload.length < 16 ∨ beAt payload 0 1 = 0 ∨ 4 < beAt payload 0 1) →
        s.dev.stageCheck payload = some st → refused (stage op payload) (stageModel 0x20 payload) st)
      ∧ (ok 1 →
        let staging : Prop := (∃ k < 15, gstate k = 2 ∨ gstate k = 3) ∨ gstate m = 4 ∨ gstate m = 5
        (staging → refused (.modelStageOpen payload) m St.busy)
        ∧ (¬ staging → off = 0 ∨ off % 1024 ≠ 0 → refused (.modelStageOpen payload) m St.malformed)
        ∧ (¬ staging → off ≠ 0 → off % 1024 = 0 → 2 ^ 31 < off → refused (.modelStageOpen payload) m St.tooLarge)
        ∧ (¬ staging → off ≠ 0 → off % 1024 = 0 → off ≤ 2 ^ 31 → Completes (.modelStageOpen payload) s fun d =>
          d.seq = { s.dev.seq with staging := some ⟨m, off, [], none⟩ } ∧ d.get (R.SEQ_MODEL_GSTATE m) = 2 ∧ d.get R.SEQ_STAGE_STAT_OPEN = 1
            ∧ d.get R.SEQ_STAGE_STAT_MODEL = m ∧ d.get R.SEQ_STAGE_STAT_KIB_RECEIVED = 0 ∧ s.dev.Answered d St.ok []
            ∧ same [R.SEQ_STAGE_STAT_OPEN.addr, (R.SEQ_MODEL_GSTATE m).addr] [.seq] d ∧ s.dev.KeepsMemory d))
      ∧ (ok 2 ∨ ok 3 → (∀ st, s.dev.seq.staging = some st → st.model ≠ m) →
        refused (stage (beAt payload 0 1) payload) m St.malformed)
      ∧ (ok 2 → ∀ st, s.dev.seq.staging = some st → st.model = m →
        let data := payload.drop 16
        (off % 1024 ≠ 0 ∨ st.length < off + data.length → refused (.modelStageData payload) m St.badAddress)
        ∧ (off % 1024 = 0 → off + data.length ≤ st.length →
          let a := s.dev.seq.stagingBase + off
          Completes (.modelStageData payload) s fun d =>
            s.dev.KeepsMemoryBut d a data.length ∧ s.dev.Answered d St.ok []
              ∧ (∃ st', d.seq = { s.dev.seq with staging := some st' } ∧ st' = { st with blocks := st'.blocks }
                ∧ (∀ k, k ∈ st'.blocks ↔ k ∈ st.blocks ∨ (off / 1024 ≤ k ∧ k < off / 1024 + data.length / 1024))
                ∧ d.get R.SEQ_STAGE_STAT_KIB_RECEIVED = st'.blocks.length % 2 ^ R.SEQ_STAGE_STAT_KIB_RECEIVED.width)
              ∧ (data = [] ∨ s.dev.Writable a data.length → d.memRead a data.length = data ∧ same [R.SEQ_STAGE_STAT_OPEN.addr] [.seq] d)))
      ∧ (ok 3 → ∀ st, s.dev.seq.staging = some st → st.model = m →
        let fails (code status verify : Nat) (idx : Option Nat) (d : Dev) : Prop := d.seq = { s.dev.seq with staging := none }
          ∧ d.get (R.SEQ_MODEL_GSTATE m) = 1 ∧ d.get R.SEQ_STAGE_STAT_FAIL_CODE = code ∧ d.get R.SEQ_STAGE_STAT_OPEN = 0
          ∧ s.dev.Answered d status [] ∧ s.dev.Counts d (C.SEQ_STAGE_REFUSED m) 1 ∧ s.dev.Counts d C.SEC_VERIFY_FAIL verify
          ∧ (∀ i, idx = some i → d.get R.SEC_OWNER_IDX_INDEX = i)
          ∧ same ([R.SEQ_STAGE_STAT_OPEN.addr, R.SEQ_STAGE_STAT_FAIL_CODE.addr, (R.SEQ_MODEL_GSTATE m).addr, C.SEQ_STAGE_REFUSED m, C.SEC_VERIFY_FAIL]
              ++ if idx.isSome then [R.SEC_OWNER_IDX_INDEX.addr] else []) [.seq] d
          ∧ s.dev.KeepsMemory d
        (st.blocks.length * 1024 < st.length → Completes (.modelStageClose payload) s (fails 1 St.malformed 0 none))
        ∧ (st.length ≤ st.blocks.length * 1024 → st.length ≠ 0 → s.dev.readable s.dev.seq.stagingBase st.length = true →
          Completes (.modelStageClose payload) s fun d =>
            match sectionOf (s.dev.memRead s.dev.seq.stagingBase st.length) with
            | none => fails 2 St.signature 1 none d
            | some sec =>
              let e := s.dev.put R.SEC_OWNER_IDX_INDEX (beAt sec.sig 0 4)
              let idx := some (beAt sec.sig 0 4)
              if s.dev.sectionSigned sec = false then fails 2 St.signature (b2n (s.dev.sectionForged sec)) none d
              else if e.sectionChecks m sec = false then fails 3 St.malformed 0 idx d
              else if Config.stageGraphSameShape m sec.body = false then fails 4 St.denied 0 idx d
              else (∃ st' g, d.seq = { s.dev.seq with staging := some st' } ∧ st' = { st with gen := some g } ∧ g.sig = leAt sec.header 16 4)
                ∧ d.get R.SEC_OWNER_IDX_INDEX = beAt sec.sig 0 4 ∧ d.ctl.last = s.dev.ctl.last
                ∧ d.ctl.queue = s.dev.ctl.queue.drop 1 ∧ d.ctl.seqs = s.dev.ctl.seqs
                ∧ (∀ r ∈ s.dev.ctl.queue.head?, d.ctl.background = some { r with begun := true })
                ∧ s.dev.KeepsWords d ([R.SEC_OWNER_IDX_INDEX.addr, R.SEQ_STAGE_STAT_OPEN.addr, R.CFG_CTL_CFG_QUEUE_OCC.addr,
                    (R.FOR_MODEL_GEN_SHADOW m).addr] ++ (s.dev.modelEngines m).map fun e => (R.FOR_ENGINE_STAT_SHADOW_LOADING e).addr)
                ∧ s.dev.KeepsParts d [.lens, .seq, .ctl] ∧ s.dev.KeepsMemory d))
      ∧ (ok 4 →
        (gstate m = 2 ∨ gstate m = 3 → Completes (.modelStageAbort payload) s fun d =>
          d.seq = { s.dev.seq with staging := none, staged := d.seq.staged } ∧ d.seq.staged.find m = none
            ∧ d.get (R.SEQ_MODEL_GSTATE m) = 1 ∧ d.get R.SEQ_STAGE_STAT_OPEN = 0 ∧ d.get (R.FOR_MODEL_SHADOW_READY m) = 0
            ∧ (∀ e ∈ s.dev.modelEngines m, d.get (R.FOR_ENGINE_STAT_SHADOW_LOADING e) = 0) ∧ s.dev.Answered d St.ok []
            ∧ same ([R.SEQ_STAGE_STAT_OPEN.addr, (R.SEQ_MODEL_GSTATE m).addr, (R.FOR_MODEL_SHADOW_READY m).addr]
                ++ (s.dev.modelEngines m).map fun e => (R.FOR_ENGINE_STAT_SHADOW_LOADING e).addr) [.lens, .seq] d ∧ s.dev.KeepsMemory d)
        ∧ (gstate m ≠ 2 → gstate m ≠ 3 → refused (.modelStageAbort payload) m St.malformed)))
    ∧ (∀ payload : List Byte, s.dev.Turn 0x21 0 payload → s.dev.get R.LCS_STAT_STATE = 2 →
      let m := beAt payload 0 1
      let flags := beAt payload 1 1
      let ahead := (beAt payload 4 4 + 2 ^ 32 - s.dev.tick32) % 2 ^ 32
      let early : Option Nat :=
        if payload.length ≠ 16 then some St.malformed
        else if 14 < m ∨ gstate m = 0 then some St.badAddress
        else if 4 ≤ flags ∨ beAt payload 2 2 ≠ 0 ∨ beAt payload 8 8 ≠ 0 then some St.malformed
        else if gstate m = 4 ∨ gstate m = 5 ∨ s.dev.stageLoading m = true then some St.busy
        else none
      (∀ st, early = some st → refused (.modelSwap payload) (stageModel 0x21 payload) st)
      ∧ (early = none → s.dev.seq.staged.find m = none → refused (.modelSwap payload) m St.malformed)
      ∧ (early = none → ∀ g, s.dev.seq.staged.find m = some g →
        let fits : Prop := (flags.testBit 0 = true → 2 ≤ ahead ∧ ahead < 2 ^ 31)
          ∧ (flags.testBit 1 = false → s.dev.on (R.SEQ_MODEL_SEQ_TIER m) = true → g.sig = s.dev.get (R.SEQ_MODEL_STATE_SIG m))
        (¬ fits → refused (.modelSwap payload) m St.malformed)
        ∧ (fits →
          let tick := s.dev.plan.tick + if flags.testBit 0 then ahead else 2
          let gen := nextGen (s.dev.get (R.SEQ_MODEL_GEN_CURRENT m))
          Completes (.modelSwap payload) s fun d =>
            d.get (R.SEQ_MODEL_GSTATE m) = 4 ∧ d.get (R.SEQ_MODEL_SWAP_TICK m) = tick % 2 ^ 32
              ∧ d.seq = { s.dev.seq with swaps := s.dev.seq.swaps ++ [⟨m, flags.testBit 1, false, gen, tick⟩], learners := d.seq.learners }
              ∧ d.get (R.SEQ_MODEL_PUBLISH_PENDING m) = 0 ∧ d.get (R.SEQ_MODEL_GEN_CURRENT m) = s.dev.get (R.SEQ_MODEL_GEN_CURRENT m)
              ∧ s.dev.Answered d St.ok (beBytes 2 gen ++ zeros 2 ++ beBytes 4 tick ++ zeros 8)
              ∧ same [(R.SEQ_MODEL_GSTATE m).addr, (R.SEQ_MODEL_SWAP_TICK m).addr, (R.SEQ_MODEL_PUBLISH_PENDING m).addr] [.seq] d
              ∧ s.dev.KeepsMemory d)))
    ∧ ((∀ st, s.dev.seq.staging = some st → st.gen = none) → exec .modelStageLoadDone s = .next s)
    ∧ (∀ (st : Staging) (g : ShadowGen), s.dev.seq.staging = some st → st.gen = some g → st.model < 15 →
        (∀ r, s.dev.ctl.background = some r → r.sp < 8) →
      let m := st.model
      let answer := if s.dev.ctl.background = none then [] else C.CFG_CTL_OK :: journalWords
      Completes .modelStageLoadDone s fun d =>
        d.seq = { s.dev.seq with staging := none, staged := d.seq.staged } ∧ d.seq.staged.find m = some g ∧ d.get (R.SEQ_MODEL_GSTATE m) = 3
          ∧ d.get R.SEQ_STAGE_STAT_OPEN = 0 ∧ d.ctl.last = (St.ok, []) ∧ d.ctl.background = none ∧ d.ctl.queue = s.dev.ctl.queue
          ∧ (∀ r, s.dev.ctl.background = some r → ∀ x ∈ s.dev.ctl.seqs, x.mac = r.sa → x.last = r.seq →
              { x with status := some St.ok } ∈ d.ctl.seqs)
          ∧ s.dev.KeepsWords d ([R.SEQ_STAGE_STAT_OPEN.addr, (R.SEQ_MODEL_GSTATE m).addr, (R.FOR_MODEL_SHADOW_READY m).addr]
              ++ (s.dev.modelEngines m).map (fun e => (R.FOR_ENGINE_STAT_SHADOW_LOADING e).addr) ++ answer)
          ∧ s.dev.KeepsParts d [.port, .seq, .lpe, .ctl, .jrn, .nvm] ∧ d.nvm.apart = s.dev.nvm.apart ∧ s.dev.KeepsMemory d)

/-- R306, R333 to R335, R393 and R395 to R397.
Completes, under conditions on the state and the operands alone, with the effect said: LEARNING_STEP_BEGIN, LEARNING_STEP_END,
LEARNING_STEP_TIMEOUT.
Where the model chose: log entry 57. -/
def Obligations.LearningSteps : Prop :=
  ∀ (s : State) (m : Fin 15), s.RunsIn 20 →
    let l := s.dev.learner m.val
    let n := 2 ^ s.dev.get (R.SEQ_LEARN_CFG_STEP_LOG2 m.val)
    let head (p : Nat) : List Byte := s.dev.memRead (s.dev.ringAddr p) 4
    let mine := s.dev.seq.ringLive.filter fun p => decide (leAt (head p) 0 1 % 16 = m.val) && !s.dev.stepping (leAt (head p) 1 1)
    let isNew (p : Nat) : Bool := decide (leAt (head p) 2 2 = s.dev.get (R.SEQ_MODEL_GEN_CURRENT m.val))
    let taken := (mine.filter isNew).take n
    let old := (mine.takeWhile fun p => taken.getLast? != some p).filter fun p => !isNew p
    let inStep : Prop := ∃ c, s.dev.seqContext m.val = some c ∧ s.dev.stepping c = true
    (l.step = none → s.dev.learningOn m.val = true → ¬ inStep → s.dev.seq.ringLive.Nodup →
        (∀ p ∈ s.dev.seq.ringLive, s.dev.readable (s.dev.ringAddr p) 4 = true) →
      (n ≤ (mine.filter isNew).length → Completes (.learningStepBegin m) s fun d =>
        d.learner m.val = { l with step := some ⟨none, 0, taken, s.dev.get (R.SEQ_LEARN_CFG_STEP_MAX_TICKS m.val),
              s.dev.get (R.SEQ_LEARN_CFG_PUBLISH_STEPS m.val)⟩ }
          ∧ d.seq = { s.dev.seq with ringLive := s.dev.seq.ringLive.filter (fun p => !taken.contains p && !old.contains p),
                                      learners := d.seq.learners }
          ∧ d.get R.SEQ_RING_STAT_OCC = d.seq.ringLive.length % 2 ^ R.SEQ_RING_STAT_OCC.width
          ∧ s.dev.Counts d (C.SEQ_LEARN_DISCARDED m.val) old.length
          ∧ s.dev.KeepsWords d [R.SEQ_RING_STAT_OCC.addr, R.SEQ_RING_STAT_PEAK.addr, C.SEQ_LEARN_DISCARDED m.val]
          ∧ s.dev.KeepsParts d [.seq] ∧ s.dev.KeepsMemory d)
      ∧ ((mine.filter isNew).length < n → exec (.learningStepBegin m) s = .next s))
    ∧ (l.step ≠ none ∨ s.dev.learningOn m.val = false ∨ inStep → exec (.learningStepBegin m) s = .next s)
    ∧ (l.step = none → (∀ us ws, exec (.learningStepEnd m us ws) s = .next s) ∧ exec (.learningStepTimeout m) s = .next s)
    ∧ (∀ st, l.step = some st →
      let apart (a k b j : Nat) : Prop := a + k ≤ b ∨ b + j ≤ a
      let spans := l.undo.filterMap fun w => match w.place with | .shared a => some (a, w.bytes) | .core .. => none
      let takenBack (d : Dev) : Prop := ∀ a bs, (a, bs) ∈ spans → s.dev.Writable a bs.length →
        (∀ b cs, (b, cs) ∈ spans → (b, cs) = (a, bs) ∨ apart a bs.length b cs.length) → (∀ o ∈ l.overflows, apart a bs.length o.desc 24) →
        d.memRead a bs.length = bs
      (st.startTick ≠ none → st.attempt < 2 → s.dev.phaseOpen m.val = true →
        (∀ us ws : List (Nat × List Byte), l.overflows = [] → l.skips.Nodup →
          let all := us ++ ws
          (∀ f ∈ s.dev.seq.fallback, f.2.1 ≠ m.val) → (∀ w ∈ all, s.dev.Writable w.1 w.2.length) → (∀ a ∈ l.skips, s.dev.Writable (a + 12) 1) →
          all.Pairwise (fun x y => apart x.1 x.2.length y.1 y.2.length) → (∀ w ∈ all, ∀ a ∈ l.skips, apart w.1 w.2.length (a + 12) 1) →
          Completes (.learningStepEnd m us ws) s fun d =>
            (∀ w ∈ all, d.memRead w.1 w.2.length = w.2) ∧ (∀ a ∈ l.skips, d.memRead (a + 12) 1 = [0])
              ∧ (∀ x, (∀ w ∈ all, x < w.1 ∨ w.1 + w.2.length ≤ x) → (∀ a ∈ l.skips, x ≠ a + 12) →
                  Memory.byte d.fab.mem x = Memory.byte s.dev.fab.mem x)
              ∧ d.learner m.val = { Learner.idle with sincePublish := l.sincePublish + 1 }
              ∧ d.seq = { s.dev.seq with learners := d.seq.learners }
              ∧ (st.publishSteps ≤ l.sincePublish + 1 → d.get (R.SEQ_MODEL_PUBLISH_PENDING m.val) = 1)
              ∧ (l.sincePublish + 1 < st.publishSteps → s.dev.KeepsWords d [C.SEQ_STEPS m.val])
              ∧ s.dev.Counts d (C.SEQ_STEPS m.val) 1 ∧ s.dev.KeepsWords d [C.SEQ_STEPS m.val, (R.SEQ_MODEL_PUBLISH_PENDING m.val).addr]
              ∧ s.dev.KeepsParts d [.seq])
        ∧ (∀ us ws : List (Nat × List Byte), l.overflows ≠ [] → l.overflows.Pairwise (fun x y => apart x.desc 24 y.desc 24) →
            (∀ o ∈ l.overflows, s.dev.Writable o.desc 24 ∧ s.dev.readable o.desc 24 = true) →
            (∀ o ∈ l.overflows, ∀ a bs, (a, bs) ∈ spans → apart a bs.length o.desc 24) →
          let at_ (o : Overflow) : List Byte := s.dev.memRead o.desc 24
          let skipped (o : Overflow) : Bool := decide (leAt (at_ o) 12 1 = 1)
          let core := s.dev.learnCore m.val
          Completes (.learningStepEnd m us ws) s fun d =>
            (∀ o ∈ l.overflows,
              let b := at_ o
              let scale := if o.finite then scaleFrom o.amax (descHeadroom b) (scaleFmt b) else fpMul (descScale b) (fpOfNat 256)
              let new := leAt (d.memRead (o.desc + 4) 4) 0 4
              fpNormal new = true ∧ (fpNormal scale = true → new = scale)
                ∧ (leAt b 12 1 = 0 → d.memRead (o.desc + 12) 1 = [1] ∧ o.desc ∈ (d.learner m.val).skips)
                ∧ (skipped o = true → d.memRead (o.desc + 12) 1 = [0] ∧ descFallback (d.memRead o.desc 24) = true
                    ∧ (descFallback b = false → d.memRead (o.desc + 11) 1 = [64] ∧ (d.seq.fallback.find o.desc).map (·.1) = some m.val)))
              ∧ takenBack d ∧ (d.learner m.val).overflows = [] ∧ (d.learner m.val).undo = []
              ∧ (∀ x, (∀ o ∈ l.overflows, x < o.desc ∨ o.desc + 24 ≤ x) → (∀ a bs, (a, bs) ∈ spans → x < a ∨ a + bs.length ≤ x) →
                  Memory.byte d.fab.mem x = Memory.byte s.dev.fab.mem x)
              ∧ (l.overflows.any skipped = false → (d.learner m.val).step = some { st with attempt := st.attempt + 1 })
              ∧ (l.overflows.any skipped = true → (d.learner m.val).step = none ∧ s.dev.Counts d (C.SEQ_STEPS_DROPPED m.val) 1)
              ∧ s.dev.Counts d (C.LNS_STEP_SKIPS (core / 16) (core % 16)) 1))
      ∧ (st.startTick = none ∨ 2 ≤ st.attempt ∨ s.dev.phaseOpen m.val = false → ∀ us ws, exec (.learningStepEnd m us ws) s = .next s)
      ∧ (st.startTick = none → exec (.learningStepTimeout m) s = .next s)
      ∧ (∀ t, st.startTick = some t →
        (t + st.maxTicks ≤ s.dev.plan.tick → Completes (.learningStepTimeout m) s fun d =>
          d.learner m.val = { l with step := none, overflows := [], undo := [] }
            ∧ (∀ r ∈ d.lens.running, ¬(r.tile.learning = true ∧ r.tile.model.val = m.val))
            ∧ (s.dev.on R.LPE_CFG_TRACE_EN = false → takenBack d
              ∧ ∀ x, (∀ a bs, (a, bs) ∈ spans → x < a ∨ a + bs.length ≤ x) → Memory.byte d.fab.mem x = Memory.byte s.dev.fab.mem x)
            ∧ ((∀ r ∈ s.dev.lens.running, ¬(r.tile.learning = true ∧ r.tile.model.val = m.val)) →
                (∀ p ∈ s.dev.lens.passes, ¬(p.learning = true ∧ p.model = m.val)) → l.undo = [] →
                s.dev.Counts d (C.SEQ_STEPS_DROPPED m.val) 1 ∧ s.dev.KeepsWords d [C.SEQ_STEPS_DROPPED m.val]
                  ∧ s.dev.KeepsParts d [.lens, .seq] ∧ s.dev.KeepsMemory d))
        ∧ (s.dev.plan.tick < t + st.maxTicks → exec (.learningStepTimeout m) s = .next s)))

/-- R487, R499, R501, R503 and R507 at the source.
Completes, under conditions on the state and the operands alone, with the effect said: REMOTE_REQUEST_ISSUE.
Where the model chose: log entries 61 and 63. -/
def Obligations.RemoteRequestsLeave : Prop :=
  ∀ (s : State) (r : RemoteReq), s.RunsIn 20 →
    let opc := r.opc.toNat
    let dest := r.dest.toNat
    let a := r.target.toNat % 2 ^ 52
    let isFence := opc = 6 ∧ r.fenceAll = true
    let mine := s.dev.fab.out.filter fun o => decide (o.context = r.context.val) && isWrite o.opc
    let ready : Prop := if isFence then mine = [] ∧ ∀ h ∈ s.dev.fab.held, ¬(h.context = r.context.val ∧ isWrite h.opc = true)
      else ∀ h ∈ s.dev.fab.held, h.fence = true ∨ h.dest ≠ dest
    let kept (ws : List Nat) (ps : List Part) (d : Dev) : Prop := s.dev.KeepsWords d ws ∧ s.dev.KeepsParts d ps ∧ s.dev.KeepsMemory d
    let answered (data : Option (List Byte)) (d : Dev) : Prop := d.fab.answers = s.dev.fab.answers ++ [⟨r.engine.toNat, 0, data⟩]
    let holds (ws : List Nat) : Prop := Completes (.remoteRequestIssue r) s fun d =>
      (∃ h : HeldOp, d.fab = { s.dev.fab with held := s.dev.fab.held ++ [h] } ∧ h.opc = opc ∧ h.dest = dest ∧ h.context = r.context.val
          ∧ h.target = r.target.toNat ∧ h.payload = r.payload ∧ h.fence = decide isFence ∧ (isFence ∨ h.release = r.release)
          ∧ h.waitsFor = if isFence then mine.map fun o => (o.dest, o.hall, o.pseq) else [])
        ∧ (∀ w ∈ ws, s.dev.Counts d w 1) ∧ kept ws [.fab] d
    (opc = 0 ∨ 6 < opc → exec (.remoteRequestIssue r) s = .next s)
    ∧ (dest = s.dev.devId → ¬ isFence ∨ ready →
      (opc = 2 → s.dev.Writable a r.payload.length →
        Completes (.remoteRequestIssue r) s fun d =>
          d.memRead a r.payload.length = r.payload ∧ s.dev.KeepsMemoryBut d a r.payload.length ∧ s.dev.KeepsWords d [] ∧ s.dev.KeepsParts d [])
      ∧ (opc = 1 → s.dev.readable a r.len = true →
        Completes (.remoteRequestIssue r) s fun d => answered (some (s.dev.memRead a r.len)) d ∧ kept [] [.fab] d)
      ∧ (opc = 1 ∨ (3 ≤ opc ∧ opc ≤ 5) → (s.dev.fetch a (if opc = 1 then r.len else 8) []).2 = none →
        Completes (.remoteRequestIssue r) s fun d => answered none d ∧ s.dev.Counts d C.MEM_POISON_READS 1 ∧ s.dev.KeepsMemory d)
      ∧ (3 ≤ opc → opc ≤ 5 → s.dev.readable a 8 = true → s.dev.Writable a 8 →
        let old := leNat (s.dev.memRead a 8)
        Completes (.remoteRequestIssue r) s fun d =>
          answered (some (beBytes 8 old)) d ∧ d.memRead a 8 = leBytes 8 (atomicNew opc old r.payload) ∧ s.dev.KeepsMemoryBut d a 8
            ∧ s.dev.KeepsWords d [] ∧ s.dev.KeepsParts d [.fab])
      ∧ (∀ p, opc = 6 → s.dev.physCtr (a / 2 ^ 16 % 256) (a % 2 ^ 16) = some p → s.dev.sync.written ≠ some (p, s.dev.ns) →
          s.dev.sync.waits.any (s.dev.waitsOn p) = false →
        let n := beAt r.payload 0 8 % 2 ^ 16
        ((s.dev.ctr p).value + n ≤ 65535 → Completes (.remoteRequestIssue r) s fun d =>
          d.ctr p = { s.dev.ctr p with value := (s.dev.ctr p).value + n, signaller := r.engine.toNat } ∧ s.dev.Counts d C.SYN_SIGNALS 1
            ∧ kept [C.SYN_SIGNALS] [.sync] d)
        ∧ (65535 < (s.dev.ctr p).value + n → Completes (.remoteRequestIssue r) s fun d =>
          d.ctr p = s.dev.ctr p ∧ s.dev.Counts d C.SYN_OVERFLOW 1 ∧ d.get (R.SYN_CTX_STAT_STATE r.context.val) = 2 ∧ s.dev.KeepsMemory d))
      ∧ (opc = 6 → s.dev.physCtr (a / 2 ^ 16 % 256) (a % 2 ^ 16) = none →
        Completes (.remoteRequestIssue r) s fun d => d.get (R.SYN_CTX_STAT_STATE r.context.val) = 2 ∧ s.dev.KeepsMemory d))
    ∧ (1 ≤ opc → opc ≤ 6 → isFence ∨ dest ≠ s.dev.devId → ¬ ready → holds (if isFence then [C.MEM_FENCE_WAITS] else []))
    ∧ (dest ≠ s.dev.devId → 1 ≤ opc → opc ≤ 6 → ready →
      let tooLong := s.dev.get R.MEM_HALL_CFG_HALL_MTU < 56 + s.dev.ownTag.length + r.payload.length
      (s.dev.route dest = none ∨ (s.dev.route dest = some none ∧ tooLong) →
        let lost := opc = 1 ∨ (3 ≤ opc ∧ opc ≤ 5)
        Completes (.remoteRequestIssue r) s fun d =>
          s.dev.Counts d C.MEM_NO_ROUTE 1 ∧ (lost → answered none d) ∧ (opc = 1 → s.dev.Counts d C.MEM_POISON_READS 1)
            ∧ d.fab = { s.dev.fab with answers := d.fab.answers } ∧ (¬ lost → d.fab = s.dev.fab)
            ∧ kept (C.MEM_NO_ROUTE :: if opc = 1 then [C.MEM_POISON_READS] else []) [.fab] d)
      ∧ (∀ link : Option Nat, s.dev.route dest = some link → (link = none → ¬ tooLong) →
        (32768 ≤ s.dev.outstanding dest link.isNone → holds [])
        ∧ (s.dev.outstanding dest link.isNone < 32768 →
          let p := s.dev.pairTx dest link.isNone
          let len := if opc = 1 then r.len else r.payload.length
          let flags := b2n (r.release || decide isFence) + 2 * b2n (decide isFence)
          let op := opBytes opc flags len p.next p.next (dest * 2 ^ 52 + a) r.payload
          let blocks := (op.length + 239) / 240
          let sp := s.dev.get R.PORT_CFG_HALL_SUBPORT
          let x := s.dev.hallPair dest
          Completes (.remoteRequestIssue r) s fun d =>
            d.fab.out = s.dev.fab.out ++ [⟨dest, link.isNone, opc, p.next, r.context.val, r.engine.toNat, r.target.toNat, len, s.dev.clockNs⟩]
              ∧ d.fab.held = s.dev.fab.held ∧ (d.pairTx dest link.isNone).next = (p.next + 1) % 2 ^ 16
              ∧ s.dev.Counts d C.MEM_RMT_OPS_TX 1
              ∧ (s.dev.on R.LPE_CFG_TRACE_EN = false →
                kept (C.MEM_RMT_OPS_TX :: (match link with | some l => [C.MIR_BLOCKS_TX l] | none => ownWords sp)) [.port, .fab] d)
              ∧ (∀ l, link = some l → s.dev.fab.links.length = 4 → l < 4 → (s.dev.link l).waiting = [] →
                (blocks ≤ (s.dev.link l).creditReq →
                  ∃ bs : List (List Byte), d.port.sent = s.dev.port.sent ++ bs.map (Sent.block l) ∧ bs.length = blocks
                    ∧ (∀ b ∈ bs, b.length = 256 ∧ beAt b 0 1 = 1) ∧ (bs.map (·.drop 16)).flatten = padTo (240 * blocks) op
                    ∧ s.dev.Counts d (C.MIR_BLOCKS_TX l) blocks)
                ∧ ((s.dev.link l).creditReq = 0 → d.port = s.dev.port ∧ ((d.link l).waiting.map (·.bytes)).flatten = op))
              ∧ (link = none → x.waiting = [] →
                (x.unacked.length < 64 →
                  (d.hallPair dest).unacked = x.unacked ++ [⟨x.next, op, s.dev.clockNs, 0⟩] ∧ (d.hallPair dest).next = (x.next + 1) % 2 ^ 32
                    ∧ (s.dev.up sp = true → sp < s.dev.port.subs.length → s.dev.SendsOwn d sp (s.dev.hallFrame dest x.next op)))
                ∧ (64 ≤ x.unacked.length → d.port = s.dev.port ∧ (d.hallPair dest).waiting.map (·.bytes) = [op])))))

/-- R501, R502, R507 and R513 at the requester.
Completes, under conditions on the state and the operands alone, with the effect said: LOAD_RSP, ACK, ATOMIC_RSP, NACK,
REMOTE_TIMEOUT.
Where the model chose: log entry 63. -/
def Obligations.RemoteAnswersComplete : Prop :=
  ∀ s : State, s.RunsIn 20 →
    let gone (o : OutOp) (d : Dev) : Prop := d.fab.out = s.dev.fab.out.erase o
    let ended (o : OutOp) (code count : Nat) (d : Dev) : Prop :=
      gone o d ∧ s.dev.Counts d count 1
        ∧ (o.opc = 1 → code ≠ 4 → code ≠ 5 → d.fab.answers = s.dev.fab.answers ++ [⟨o.engine, o.pseq, none⟩]
            ∧ s.dev.Counts d C.MEM_POISON_READS 1 ∧ s.dev.KeepsWords d [count, C.MEM_POISON_READS])
        ∧ (isWrite o.opc = true ∨ code = 4 ∨ code = 5 → o.context < 256 →
            d.get (R.SYN_CTX_STAT_STATE o.context) = 2
              ∧ (s.dev.faulted o.context = false →
                  d.get (R.SYN_CTX_STAT_CAUSE o.context) = if code = 4 then 4 else if code = 5 then 2 else 6))
        ∧ (isWrite o.opc = false → code ≠ 4 → code ≠ 5 → s.dev.KeepsParts d [.time, .port, .fab] ∧ s.dev.KeepsMemory d
            ∧ (o.opc ≠ 1 → d.fab.answers = s.dev.fab.answers ∧ s.dev.KeepsWords d [count]))
    (∀ (c : Instr) (opc : Nat), (c, opc) ∈ [(Instr.loadRsp, 0x81), (.ack, 0x82), (.atomicRsp, 0x83), (.nack, 0x84)] →
      ((∀ x ∈ s.dev.fab.inOps, x.opc ≠ opc) → exec c s = .next s)
      ∧ (∀ before x after, s.dev.fab.inOps = before ++ x :: after → (∀ y ∈ before, y.opc ≠ opc) → x.opc = opc →
        let count := if opc = 0x84 then [C.MEM_RMT_NACK] else []
        let taken (d : Dev) : Prop := d.fab.inOps = before ++ after
          ∧ (x.hall = true ∨ x.frees = 0 ∨ s.dev.linkUp x.link = false → d.port = s.dev.port)
        (s.dev.requestOf x = none → Completes c s fun d =>
          taken d ∧ d.fab.out = s.dev.fab.out ∧ d.fab.answers = s.dev.fab.answers ∧ d.fab.held = s.dev.fab.held
            ∧ (∀ w ∈ count, s.dev.Counts d w 1) ∧ s.dev.KeepsWords d count ∧ s.dev.KeepsParts d [.port, .fab] ∧ s.dev.KeepsMemory d)
        ∧ (∀ o, s.dev.requestOf x = some o →
          (opc ≠ 0x84 → s.dev.fab.held = [] → Completes c s fun d =>
            taken d ∧ gone o d ∧ s.dev.KeepsWords d [] ∧ s.dev.KeepsParts d [.port, .fab] ∧ s.dev.KeepsMemory d
              ∧ d.fab.answers = (if opc = 0x82 then s.dev.fab.answers else s.dev.fab.answers ++ [⟨o.engine, o.pseq, some x.payload⟩]))
          ∧ (∀ h l, opc = 0x82 → s.dev.fab.held = [h] → h.fence = true → h.opc = 6 → h.waitsFor = [(o.dest, o.hall, o.pseq)] →
              h.dest ≠ s.dev.devId → s.dev.route h.dest = some (some l) → s.dev.outstanding h.dest false < 32768 →
            Completes c s fun d =>
              d.fab.inOps = before ++ after ∧ d.fab.held = [] ∧ s.dev.Counts d C.MEM_RMT_OPS_TX 1
                ∧ ∃ u : OutOp, d.fab.out = s.dev.fab.out.erase o ++ [u] ∧ u.opc = 6 ∧ u.dest = h.dest ∧ u.hall = false
                  ∧ u.context = h.context ∧ u.pseq = (s.dev.pairTx h.dest false).next)
          ∧ (opc = 0x84 → s.dev.fab.held = [] → Completes c s fun d => taken d ∧ ended o (x.flags / 16 % 16) C.MEM_RMT_NACK d))))
    ∧ (∀ (dest : BitVec 12) (hall : Bool) (pseq : BitVec 16),
      (∀ before o after, s.dev.fab.out = before ++ o :: after →
          (∀ y ∈ before, ¬(y.dest = dest.toNat ∧ y.hall = hall ∧ y.pseq = pseq.toNat)) →
          o.dest = dest.toNat → o.hall = hall → o.pseq = pseq.toNat → s.dev.fab.held = [] →
        Completes (.remoteTimeout dest hall pseq) s fun d =>
          d.clockNs = max s.dev.clockNs (o.issuedNs + 1000 * s.dev.get R.MEM_CFG_RMT_TIMEOUT_US) ∧ ended o 2 C.MEM_RMT_TIMEOUT d
            ∧ d.fab.inOps = s.dev.fab.inOps ∧ d.port = s.dev.port)
      ∧ ((∀ o ∈ s.dev.fab.out, ¬(o.dest = dest.toNat ∧ o.hall = hall ∧ o.pseq = pseq.toNat)) →
        exec (.remoteTimeout dest hall pseq) s = .next s))

/-- R501, R502 and R504 to R506 at the destination.
Completes, under conditions on the state and the operands alone, with the effect said: LOAD, STORE, ATOMIC_ADD, ATOMIC_CAS,
ATOMIC_MAX, SIGNAL, WRITE_COMMIT.
Where the model chose: log entries 63 and 68. -/
def Obligations.RemoteOperationsServed : Prop :=
  ∀ s : State, s.RunsIn 20 →
    let reply (hall : Bool) (link src : Nat) (idle : Nat) (op : List Byte) (d : Dev) : Prop :=
      (hall = false → s.dev.LinkReady link 1 → op.length ≤ 240 →
        ∃ pre b, d.port.sent = s.dev.port.sent ++ pre ++ [Sent.block link b] ∧ pre.length = idle ∧ b.length = 256 ∧ beAt b 0 1 = 17
          ∧ b.drop 16 = padTo 240 op)
        ∧ (hall = true → s.dev.hallFits op = true → (s.dev.hallPair src).waiting = [] → (s.dev.hallPair src).unacked.length < 64 →
          (d.hallPair src).unacked = (s.dev.hallPair src).unacked ++ [⟨(s.dev.hallPair src).next, op, s.dev.clockNs, 0⟩])
    let answers (x : InOp) (d : Dev) (opc code : Nat) (payload : List Byte) : Prop :=
      reply x.hall x.link x.src (if x.frees = 0 then 0 else 1) (opBytes opc (16 * code) payload.length x.pseq x.tag (x.src * 2 ^ 52) payload) d
    let replyWords (hall : Bool) (link : Nat) : List Nat :=
      if hall then ownWords (s.dev.get R.PORT_CFG_HALL_SUBPORT) else [C.MIR_BLOCKS_TX link]
    let only (x : InOp) (ws : List Nat) (ps : List Part) (d : Dev) : Prop := s.dev.on R.LPE_CFG_TRACE_EN = false →
      s.dev.KeepsWords d (ws ++ replyWords x.hall x.link) ∧ s.dev.KeepsParts d ([.port, .fab] ++ ps)
    let still (x : InOp) : Prop := (s.dev.pairRx x.src x.hall x.link).releases = []
    let waits (opc : Nat) (x : InOp) : Bool := decide (opc = 1) && s.dev.loadWaits x
    (∀ (c : Instr) (opc : Nat) (bad : List MemEvent), (c, opc) ∈ [(Instr.load bad, 1), (.store, 2), (.atomicAdd bad, 3), (.atomicCas bad, 4),
        (.atomicMax bad, 5), (.remoteSignal, 6)] →
      ((∀ x ∈ s.dev.fab.inOps, x.opc ≠ opc ∨ waits opc x = true) → exec c s = .next s)
      ∧ ∀ before x after, s.dev.fab.inOps = before ++ x :: after → (∀ y ∈ before, y.opc ≠ opc ∨ waits opc y = true) → x.opc = opc →
          waits opc x = false →
        let size := if opc = 1 then x.len else if opc = 2 then x.payload.length else 8
        let taken (d : Dev) : Prop := d.fab.inOps = before ++ after
        let v := x.target % 2 ^ 16
        let n := beAt x.payload 0 8 % 2 ^ 16
        let p := s.dev.pairRx x.src x.hall x.link
        let far := 64 ≤ (x.pseq + 2 ^ 16 - p.mark) % 2 ^ 16
        let now := x.flags % 2 = 0 ∨ reached p.mark x.pseq = true
        let ctx := x.target / 2 ^ 16 % 256
        (s.dev.on R.MEM_CFG_REMOTE_EN = false → still x →
          Completes c s fun d => taken d ∧ answers x d 0x84 3 [] ∧ d.fab.openWrites = s.dev.fab.openWrites ∧ only x [] [] d ∧ s.dev.KeepsMemory d)
        ∧ (s.dev.on R.MEM_CFG_REMOTE_EN = true → opc ≠ 6 → still x → s.dev.mapped x.target size = false →
          Completes c s fun d =>
            taken d ∧ answers x d 0x84 1 [] ∧ s.dev.Counts d C.MEM_UNMAPPED 1 ∧ d.fab.openWrites = s.dev.fab.openWrites
              ∧ only x [C.MEM_UNMAPPED] [] d ∧ s.dev.KeepsMemory d)
        ∧ (s.dev.on R.MEM_CFG_REMOTE_EN = true → s.dev.mapped x.target size = true →
          (opc = 1 → bad = [] → s.dev.readable x.target x.len = true → Completes c s fun d =>
            taken d ∧ answers x d 0x81 0 (s.dev.memRead x.target x.len) ∧ only x [] [] d ∧ s.dev.KeepsMemory d)
          ∧ (opc ≠ 2 → opc ≠ 6 → still x → (s.dev.fetch x.target size bad).2 = none → Completes c s fun d =>
            taken d ∧ answers x d 0x84 2 [] ∧ s.dev.KeepsMemory d)
          ∧ (opc = 2 → Completes c s fun d =>
            taken d ∧ d.fab.openWrites = s.dev.fab.openWrites ++ [⟨x.src, x.hall, x.link, x.pseq, x.tag, x.target, x.payload⟩]
              ∧ s.dev.KeepsWords d [] ∧ s.dev.KeepsParts d [.port, .fab] ∧ s.dev.KeepsMemory d)
          ∧ (3 ≤ opc → opc ≤ 5 → bad = [] → still x → s.dev.readable x.target 8 = true → s.dev.Writable x.target 8 →
            let old := leNat (s.dev.memRead x.target 8)
            Completes c s fun d =>
              taken d ∧ d.memRead x.target 8 = leBytes 8 (atomicNew opc old x.payload) ∧ s.dev.KeepsMemoryBut d x.target 8
                ∧ answers x d 0x83 0 (beBytes 8 old) ∧ only x [] [] d))
        ∧ (opc = 6 → s.dev.on R.MEM_CFG_REMOTE_EN = true →
          (now → s.dev.physCtr ctx v = none → Completes c s fun d =>
            taken d ∧ d.sync = s.dev.sync ∧ answers x d 0x84 4 [] ∧ only x [] [] d ∧ s.dev.KeepsMemory d)
          ∧ (∀ k, now → s.dev.physCtr ctx v = some k → s.dev.sync.waits.any (s.dev.waitsOn k) = false →
              s.dev.sync.written ≠ some (k, s.dev.ns) →
            ((s.dev.ctr k).value + n ≤ 65535 → Completes c s fun d =>
              taken d ∧ d.ctr k = { s.dev.ctr k with value := (s.dev.ctr k).value + n, signaller := 0x7000 + x.src }
                ∧ s.dev.Counts d C.SYN_SIGNALS 1 ∧ answers x d 0x82 0 [] ∧ only x [C.SYN_SIGNALS] [.sync] d ∧ s.dev.KeepsMemory d)
            ∧ (65535 < (s.dev.ctr k).value + n → Completes c s fun d =>
              taken d ∧ d.sync = s.dev.sync ∧ s.dev.Counts d C.SYN_OVERFLOW 1 ∧ answers x d 0x84 5 []
                ∧ only x [C.SYN_SIGNALS, C.SYN_OVERFLOW] [] d ∧ s.dev.KeepsMemory d))
          ∧ (¬ now → ¬(far ∧ 256 ≤ s.dev.parkedIn x.hall x.link) → Completes c s fun d =>
            taken d ∧ (d.pairRx x.src x.hall x.link).releases = p.releases ++ [⟨x.pseq, ctx, v, n, x.tag⟩]
              ∧ s.dev.Counts d C.MEM_RELEASE_WAITS 1
              ∧ s.dev.KeepsWords d (C.MEM_RELEASE_WAITS :: if far ∧ x.hall = false then [C.MIR_PARKED x.link] else [])
              ∧ s.dev.KeepsParts d [.port, .fab] ∧ s.dev.KeepsMemory d)
          ∧ (¬ now → far → 256 ≤ s.dev.parkedIn x.hall x.link → Completes c s fun d =>
            taken d ∧ d.get (R.SYN_CTX_STAT_STATE ctx) = 2 ∧ s.dev.KeepsMemory d
              ∧ (s.dev.faulted ctx = false → x.link < 4 → d.get (R.SYN_CTX_STAT_CAUSE ctx) = 7))))
    ∧ (∀ (src : BitVec 12) (hall : Bool) (pseq : BitVec 16),
      let mine (w : OpenWrite) : Prop := w.src = src.toNat ∧ w.hall = hall ∧ w.pseq = pseq.toNat
      (∀ before w after, s.dev.fab.openWrites = before ++ w :: after → (∀ y ∈ before, ¬ mine y) → mine w →
        let p := s.dev.pairRx src.toNat hall w.link
        (s.dev.Writable w.addr w.data.length → Completes (.writeCommit src hall pseq []) s fun d =>
          d.fab.openWrites = before ++ after ∧ d.memRead w.addr w.data.length = w.data ∧ s.dev.KeepsMemoryBut d w.addr w.data.length
            ∧ (p.releases = [] → reply hall w.link w.src 0 (opBytes 0x82 0 0 pseq.toNat w.tag (src.toNat * 2 ^ 52) []) d
                ∧ (s.dev.on R.LPE_CFG_TRACE_EN = false → s.dev.KeepsWords d (replyWords hall w.link) ∧ s.dev.KeepsParts d [.port, .fab]))
            ∧ ∀ r k, p.mark = pseq.toNat → p.seen = [⟨pseq.toNat, true⟩] → p.releases = [r] → r.pseq = (pseq.toNat + 1) % 2 ^ 16 →
                s.dev.sync.waits.any (s.dev.waitsOn k) = false → s.dev.sync.written ≠ some (k, s.dev.ns) →
                s.dev.physCtr r.context r.counter = some k → (s.dev.ctr k).value + r.amount ≤ 65535 →
              (d.ctr k).value = (s.dev.ctr k).value + r.amount ∧ (d.pairRx src.toNat hall w.link).releases = [])
        ∧ (∀ bad, Completes (.writeCommit src hall pseq bad) s fun d =>
            d.fab.openWrites = before ++ after ∧ s.dev.KeepsMemoryBut d w.addr w.data.length))
      ∧ ((∀ w ∈ s.dev.fab.openWrites, ¬ mine w) → ∀ bad, exec (.writeCommit src hall pseq bad) s = .next s))

/-- R489 to R497.
Completes, under conditions on the state and the operands alone, with the effect said: TICK_BLOCK, MIRROR_BLOCK_RECEIVE,
REPLAY_REQUEST, REPLAY_TIMEOUT, ID_BLOCK, PEER_SILENT, MIRROR_LANE_FAIL, MIRROR_RETRAIN_ATTEMPT.
Where the model chose: log entries 3 and 61. -/
def Obligations.MirrorLinksRun : Prop :=
  ∀ (s : State) (l : Fin 4), s.RunsIn 19 → s.dev.fab.links.length = 4 →
    let x := s.dev.link l.val
    let stat := (R.MIR_STAT_UP l.val).addr
    let only (ws : List Nat) (ps : List Part) (d : Dev) : Prop := s.dev.KeepsWords d ws ∧ s.dev.KeepsParts d ps ∧ s.dev.KeepsMemory d
    let sends (type seq : Nat) (d : Dev) : Prop := ∃ b, d.port.sent = s.dev.port.sent ++ [Sent.block l.val b] ∧ b.length = 256
      ∧ beAt b 0 1 = type ∧ beAt b 2 3 = seq
    let lost (d : Dev) : Prop := d.linkUp l.val = false ∧ d.get (R.MIR_STAT_TRAINING l.val) = b2n (decide (s.dev.failedLanes l.val < 2))
      ∧ (d.link l.val).gap = none ∧ (d.link l.val).trained = false
    (∀ block bad, s.dev.linkUp l.val = false → exec (.mirrorBlockReceive l block bad) s = .next s)
    ∧ (∀ block bad, s.dev.linkUp l.val = true →
      let b := padTo 256 block
      let good := bad = false ∧ beAt b 12 4 = (crc32c (overlay b 12 (zeros 4))).toNat
      let seq := beAt b 2 3
      let type := beAt b 0 1 % 16
      let cls := beAt b 0 1 / 16 % 2
      let header (y : Link) : Link :=
        { y with lastValidNs := s.dev.clockNs, unacked := y.unacked.filter fun u => beforeMod 24 (beAt b 5 3) u.seq,
                 creditReq := min 64 (y.creditReq + beAt b 8 1), creditRsp := min 64 (y.creditRsp + beAt b 9 1) }
      let t : State := { s with dev := s.dev.modLink l.val header }
      (¬good → Completes (.mirrorBlockReceive l block bad) s fun d =>
        s.dev.Counts d (C.MIR_BLOCK_ERR l.val) 1 ∧ only [C.MIR_BLOCK_ERR l.val] [] d)
      ∧ (good → type ≠ 1 → type ≠ 2 → type ≠ 4 →
        (x.waiting = [] → exec (.mirrorBlockReceive l block bad) s = .next t)
        ∧ (∀ w, x.waiting = [w] → w.mark = none → w.bytes.length ≤ 240 → (t.dev.link l.val).credit w.cls ≠ 0 → w.cls < 2 →
          Completes (.mirrorBlockReceive l block bad) s fun d => s.dev.SendsBlock d l.val 1 w.cls w.bytes ∧ (d.link l.val).waiting = []
            ∧ only [C.MIR_BLOCKS_TX l.val] [.port, .fab] d))
      ∧ (good → x.waiting = [] →
        (type = 2 → exec (.mirrorBlockReceive l block bad) s = exec (.replayRequest l (BitVec.ofNat 24 seq)) t)
        ∧ (type = 4 → exec (.mirrorBlockReceive l block bad) s = exec (.tickBlock l (sub b 16 16)) t)
        ∧ (type = 1 →
          let credit := if cls = 0 then x.peerReq else x.peerRsp
          let recent := x.overruns.filter fun t => decide (s.dev.clockNs < t + 1000000000)
          (credit = 0 → Completes (.mirrorBlockReceive l block bad) s fun d =>
            (d.link l.val).rxNext = x.rxNext ∧ s.dev.Counts d (C.MIR_CREDIT_OVERRUN l.val) 1
              ∧ (15 ≤ recent.length → lost d ∧ s.dev.Counts d (C.MIR_RETRAINS l.val) 1
                  ∧ only [C.MIR_CREDIT_OVERRUN l.val, C.MIR_RETRAINS l.val, stat] [.fab, .lpe] d)
              ∧ (recent.length < 15 → (d.link l.val).overruns = s.dev.clockNs :: recent ∧ only [C.MIR_CREDIT_OVERRUN l.val] [.fab, .lpe] d))
          ∧ (credit ≠ 0 → seq ≠ x.rxNext → Completes (.mirrorBlockReceive l block bad) s fun d =>
            (d.link l.val).rxNext = x.rxNext ∧ s.dev.Counts d (C.MIR_SEQ_GAP l.val) 1 ∧ sends 2 (x.rxNext % 2 ^ 24) d
              ∧ d.fab.inOps = s.dev.fab.inOps ∧ only [C.MIR_SEQ_GAP l.val] [.port, .fab, .lpe] d
              ∧ (d.link l.val).gap = (if beforeMod 24 seq x.rxNext = false ∧ x.gap = none then some (x.rxNext, s.dev.clockNs, 0) else x.gap))
          ∧ (credit ≠ 0 → seq = x.rxNext →
            let part := if cls = 0 then x.partReq else x.partRsp
            let all := part ++ sub b 16 (min 240 (beAt b 10 2))
            let ops := (splitOps all.length all).1
            Completes (.mirrorBlockReceive l block bad) s fun d =>
              (d.link l.val).rxNext = (x.rxNext + 1) % 2 ^ 24 ∧ (d.link l.val).gap = none ∧ s.dev.Counts d (C.MIR_BLOCKS_RX l.val) 1
                ∧ (∃ b' more, d.port.sent = s.dev.port.sent ++ Sent.block l.val b' :: more ∧ beAt b' 0 1 = 0
                    ∧ beAt b' 5 3 = seq % 2 ^ 24)
                ∧ ((∀ op ∈ ops, opDest op = s.dev.devId) → (∀ i < 8, s.dev.on (R.MIR_ROUTE_VIA i) = false) →
                  d.fab.inOps = s.dev.fab.inOps ++ ((List.range ops.length).zip ops).map fun p =>
                    ⟨s.dev.get (R.MIR_CFG_PEER_ID l.val), false, l.val, beAt p.2 0 1, beAt p.2 1 1, beAt p.2 2 2, beAt p.2 4 2, beAt p.2 6 2,
                      beAt p.2 8 8 % 2 ^ 52, p.2.drop 16, b2n (p.1 + 1 = ops.length)⟩)
                ∧ (∀ op, ops = [op] → opDest op ≠ s.dev.devId → d.fab.inOps = s.dev.fab.inOps
                  ∧ (let own := opDest op / 8 = s.dev.devId / 8 ∧ s.dev.on (R.MIR_ROUTE_VALID (opDest op % 8)) = true
                    (own → s.dev.Counts d (C.MIR_FORWARDED l.val) 1) ∧ (¬ own → s.dev.Counts d (C.MIR_FOREIGN l.val) 1
                      ∧ only [C.MIR_BLOCKS_RX l.val, C.MIR_FOREIGN l.val] [.port, .fab] d)))))))
    ∧ (∀ seq : BitVec 24,
      let again := x.unacked.filter fun b => decide (b.seq = seq.toNat) || beforeMod 24 seq.toNat b.seq
      (s.dev.linkUp l.val = true → again ≠ [] → Completes (.replayRequest l seq) s fun d =>
        d.port = { s.dev.port with sent := s.dev.port.sent ++ again.map (fun b => Sent.block l.val b.bytes) }
          ∧ s.dev.Counts d (C.MIR_REPLAYS l.val) 1 ∧ s.dev.Counts d (C.MIR_BLOCKS_TX l.val) again.length
          ∧ only [C.MIR_REPLAYS l.val, C.MIR_BLOCKS_TX l.val] [.port] d)
      ∧ (s.dev.linkUp l.val = false ∨ again = [] → exec (.replayRequest l seq) s = .next s))
    ∧ (x.gap = none → exec (.replayTimeout l) s = .next s)
    ∧ (∀ m t k, x.gap = some (m, t, k) →
      Completes (.replayTimeout l) s fun d =>
        d.clockNs = max s.dev.clockNs (t + 2000)
          ∧ (k < 2 → (d.link l.val).gap = some (m, d.clockNs, k + 1) ∧ sends 2 (x.rxNext % 2 ^ 24) d ∧ only [] [.time, .port, .fab] d)
          ∧ (2 ≤ k → lost d ∧ s.dev.Counts d (C.MIR_RETRAINS l.val) 1 ∧ only [C.MIR_RETRAINS l.val, stat] [.time, .fab] d))
    ∧ (let down := s.dev.on (R.MIR_CFG_EN l.val) = true ∧ s.dev.linkUp l.val = false ∧ s.dev.failedLanes l.val < 2
      (∀ ok, ¬down → exec (.mirrorRetrainAttempt l ok) s = .next s)
      ∧ (∀ ok, down → Completes (.mirrorRetrainAttempt l ok) s fun d =>
        d.linkUp l.val = false ∧ d.get (R.MIR_STAT_TRAINING l.val) = 1 ∧ d.clockNs = max s.dev.clockNs (x.retryNs.getD 0)
          ∧ (d.link l.val).trained = ok ∧ (d.link l.val).retryNs = (if ok then none else some (d.clockNs + 1000000))
          ∧ d.get (R.MIR_STAT_TRAIN_FAILS l.val) = (if ok then 0 else min 255 (s.dev.get (R.MIR_STAT_TRAIN_FAILS l.val) + 1))
          ∧ (ok = true → sends 3 (x.txSeq % 2 ^ 24) d) ∧ (ok = false → d.port = s.dev.port) ∧ only [stat] [.time, .port, .fab] d)
      ∧ (∀ (device : BitVec 12) (peer : Fin 4) (rt : Nat),
        let ready := down ∧ x.trained = true
        (¬ready → exec (.idBlock l device peer rt) s = .next s)
        ∧ (ready → device.toNat ≠ s.dev.get (R.MIR_CFG_PEER_ID l.val) → Completes (.idBlock l device peer rt) s fun d =>
          d.linkUp l.val = false ∧ d.get (R.MIR_STAT_PEER_MISMATCH l.val) = 1 ∧ d.get (R.MIR_STAT_PEER_SEEN l.val) = device.toNat
            ∧ d.link l.val = { x with retryNs := some (s.dev.clockNs + 1000000), trained := false } ∧ only [stat] [.fab] d)
        ∧ (ready → device.toNat = s.dev.get (R.MIR_CFG_PEER_ID l.val) → x.waiting = [] → Completes (.idBlock l device peer rt) s fun d =>
          d.linkUp l.val = true ∧ d.get (R.MIR_STAT_LATENCY_NS l.val) = rt / 2 % 2 ^ 12 ∧ d.get (R.MIR_STAT_TRAINING l.val) = 0
            ∧ d.get (R.MIR_STAT_PEER_SEEN l.val) = device.toNat ∧ (d.link l.val).lastValidNs = s.dev.clockNs ∧ (d.link l.val).retryNs = none
            ∧ (∃ echo, d.port.sent = s.dev.port.sent ++ Sent.block l.val echo :: x.unacked.map (fun b => Sent.block l.val b.bytes)
                ∧ beAt echo 0 1 = 3)
            ∧ s.dev.Counts d (C.MIR_BLOCKS_TX l.val) x.unacked.length ∧ only [stat, C.MIR_BLOCKS_TX l.val] [.port, .fab] d)))
    ∧ (s.dev.linkUp l.val = true → Completes (.peerSilent l) s fun d =>
        lost d ∧ s.dev.Counts d (C.MIR_PEER_SILENT l.val) 1 ∧ d.clockNs = max s.dev.clockNs (x.lastValidNs + 10000)
          ∧ (d.link l.val).retryNs = some (d.clockNs + 1000000) ∧ only [stat, C.MIR_PEER_SILENT l.val] [.time, .fab, .lpe] d)
    ∧ (s.dev.linkUp l.val = false → exec (.peerSilent l) s = .next s)
    ∧ (∀ lane : Fin 4,
      let f := s.dev.get (R.MIR_STAT_LANE_FAILED l.val)
      let due := 8 ≤ s.dev.get (R.MIR_STAT_TRAIN_FAILS l.val) ∧ s.dev.linkUp l.val = false ∧ f.testBit lane.val = false
      let remote := allTiers.filter fun p => s.dev.tierRemote p.1 p.2
      (due → Completes (.mirrorLaneFail l lane) s fun d =>
        d.get (R.MIR_STAT_LANE_FAILED l.val) = f + 2 ^ lane.val ∧ d.lpe.lifePend.length = s.dev.lpe.lifePend.length + 1
          ∧ d.lpe.copyBusy = true ∧ d.linkUp l.val = false ∧ d.get (R.MIR_STAT_TRAINING l.val) = b2n (decide (d.failedLanes l.val < 2))
          ∧ (∀ p ∈ remote, d.get (R.TKP_ENERGY_CAP p.1 p.2) = s.dev.get (R.TKP_ENERGY_CAP p.1 p.2) * d.mirrorLanes / max 1 s.dev.mirrorLanes)
          ∧ only (stat :: remote.map fun p => (R.TKP_ENERGY_CAP p.1 p.2).addr) [.lpe] d)
      ∧ (¬due → exec (.mirrorLaneFail l lane) s = .next s))
    ∧ (∀ ops : List Byte,
      let takes := s.dev.on R.TKP_MODE_FABRIC_BOARD = true ∧ s.dev.on R.TKP_TICK_STAT_FOLLOWER = true ∧ s.dev.linkUp l.val = true
      let others := if beAt ops 10 1 = 0 then [0, 1, 2, 3].filter fun k => k != l.val && s.dev.linkUp k else []
      let tick := beAt ops 0 4
      let at_ : Int := (s.dev.ns : Int) - s.dev.get (R.MIR_STAT_LATENCY_NS l.val) - beAt ops 12 4
      (¬takes → exec (.tickBlock l ops) s = .next s)
      ∧ (takes → Completes (.tickBlock l ops) s fun d =>
        (∃ bs : List (List Byte), d.port = { s.dev.port with sent := s.dev.port.sent ++ (others.zip bs).map fun p => Sent.block p.1 p.2 }
            ∧ bs.length = others.length ∧ ∀ b ∈ bs, b.length = 256 ∧ beAt b 0 1 = 4 ∧ beAt b 16 4 = tick ∧ beAt b 20 4 = beAt ops 4 4
              ∧ beAt b 24 2 = beAt ops 8 2 ∧ beAt b 26 1 = 1)
          ∧ only [R.TKP_TICK_STAT_RENUMBERED.addr, C.TKP_RENUMBERED] [.port, .plan] d
          ∧ (nearestEdge at_ s.dev.plan.edges = none → d.plan = s.dev.plan ∧ s.dev.KeepsWords d [])
          ∧ ∀ e, nearestEdge at_ s.dev.plan.edges = some e →
            let shift := tick + 2 ^ 32 - e.2 % 2 ^ 32
            let first := s.dev.plan.numbered = false ∧ s.dev.plan.firstTick = none
            let shifted := { s.dev.plan with numbered := true, edges := s.dev.plan.edges.map fun y => (y.1, (y.2 + shift) % 2 ^ 32) }
            (first → d.plan = shifted ∧ s.dev.KeepsWords d [])
              ∧ (¬ first → shift % 2 ^ 32 = 0 → d.plan = s.dev.plan ∧ s.dev.KeepsWords d [])
              ∧ (¬ first → shift % 2 ^ 32 ≠ 0 → d.plan = shifted
                  ∧ d.get R.TKP_TICK_STAT_RENUMBERED = 1 ∧ s.dev.Counts d C.TKP_RENUMBERED 1)))

/-- R478 to R482 and R498 to R502.
Completes, under conditions on the state and the operands alone, with the effect said: HALL_FRAME_RECEIVE, HALL_RETRANSMIT,
PATROL_SCRUB, REFRESH_DOUBLE.
Where the model chose: log entries 62 and 68. -/
def Obligations.HallPathAndScrub : Prop :=
  ∀ s : State, s.Running →
    let only (ws : List Nat) (ps : List Part) (d : Dev) : Prop := s.dev.KeepsWords d ws ∧ s.dev.KeepsParts d ps ∧ s.dev.KeepsMemory d
    let out := s.dev.get R.PORT_CFG_HALL_SUBPORT
    (s.dev.regionStopped 20 = false →
      (s.dev.port.hallRx = [] → exec .hallFrameReceive s = .next s)
      ∧ (∀ rx rest, s.dev.port.hallRx = rx :: rest →
        let f := rx.bytes
        let o := (etherOf f).2 + 2
        let src := beAt f (o + 2) 2 % 4096
        let n := beAt f (o + 18) 2
        let seq := beAt f (o + 6) 4
        let own := beAt f (o + 4) 2 % 4096 = s.dev.devId
        let good := beAt f o 1 = 1 ∧ o + 22 ≤ f.length ∧ n ≤ f.length - (o + 22) ∧ (n = f.length - (o + 22) ∨ f.length ≤ 60)
        let x := s.dev.hallPair src
        let left := x.unacked.filter fun u => !(decide (u.seq = beAt f (o + 10) 4) || beforeMod 32 u.seq (beAt f (o + 10) 4)
          || (let i := (u.seq + 2 ^ 32 - (beAt f (o + 10) 4 + 1)) % 2 ^ 32
              decide (i < 32) && (beAt f (o + 14) 4).testBit i))
        let ops := (splitOps n (sub f (o + 22) n)).1
        let known := seq = x.ack ∨ beforeMod 32 seq x.ack = true ∨ seq ∈ x.beyond
        (¬own → rx.sp < 8 → Completes .hallFrameReceive s fun d =>
          d.port = { s.dev.port with hallRx := rest } ∧ s.dev.Counts d (C.PORT_FAB_FOREIGN rx.sp) 1
            ∧ only [C.PORT_FAB_FOREIGN rx.sp] [.port, .lpe] d)
        ∧ (own → ¬good → Completes .hallFrameReceive s fun d =>
          d.port = { s.dev.port with hallRx := rest } ∧ s.dev.Counts d C.MEM_HALL_BAD 1 ∧ only [C.MEM_HALL_BAD] [.port] d)
        ∧ (own → good → x.waiting = [] →
          (n = 0 → Completes .hallFrameReceive s fun d =>
            d.port = { s.dev.port with hallRx := rest } ∧ (d.hallPair src).unacked = left ∧ (d.hallPair src).ack = x.ack
              ∧ d.fab = { s.dev.fab with hall := d.fab.hall } ∧ only [] [.port, .fab] d)
          ∧ (n ≠ 0 → known → Completes .hallFrameReceive s fun d =>
            d.port.hallRx = rest ∧ (d.hallPair src).unacked = left ∧ d.fab = { s.dev.fab with hall := d.fab.hall }
              ∧ only (ownWords out) [.port, .fab] d)
          ∧ (n ≠ 0 → ¬ known → Completes .hallFrameReceive s fun d =>
            let y := d.hallPair src
            d.port.hallRx = rest ∧ y.unacked = left ∧ (seq = y.ack ∨ beforeMod 32 seq y.ack = true ∨ seq ∈ y.beyond)
              ∧ d.fab.inOps = s.dev.fab.inOps ++ ops.map (fun op =>
                  ⟨src, true, 0, beAt op 0 1, beAt op 1 1, beAt op 2 2, beAt op 4 2, beAt op 6 2, beAt op 8 8 % 2 ^ 52, op.drop 16, 0⟩)
              ∧ ((∀ p ∈ s.dev.fab.pairRx, p.src = src → p.hall = true → p.releases = []) →
                s.dev.Counts d C.MEM_RMT_OPS_RX (ops.countP fun op => decide (beAt op 0 1 < 0x80))
                  ∧ (s.dev.on R.LPE_CFG_TRACE_EN = false → only (C.MEM_RMT_OPS_RX :: ownWords out) [.port, .fab] d))))
        ∧ (∀ w, own → good → n = 0 → x.waiting = [w] → left.length < 64 → w.mark = none → Completes .hallFrameReceive s fun d =>
            d.port.hallRx = rest ∧ (d.hallPair src).waiting = []
              ∧ (d.hallPair src).unacked = left ++ [⟨x.next, w.bytes, s.dev.clockNs, 0⟩] ∧ only (ownWords out) [.port, .fab] d))
      ∧ (∀ (dest : BitVec 12) (seq : Word32),
        let x := s.dev.hallPair dest.toNat
        (x.unacked.find? (fun u => decide (u.seq = seq.toNat)) = none → exec (.hallRetransmit dest seq) s = .next s)
        ∧ (∀ u, x.unacked.find? (fun u => decide (u.seq = seq.toNat)) = some u →
          let due := max s.dev.clockNs (u.sentNs + 1000 * s.dev.get R.MEM_HALL_CFG_RETX_US)
          (u.resends < 8 → Completes (.hallRetransmit dest seq) s fun d =>
            d.clockNs = due ∧ s.dev.Counts d C.MEM_HALL_RETX 1
              ∧ (d.hallPair dest.toNat).unacked.find? (fun u => decide (u.seq = seq.toNat)) = some { u with sentNs := due, resends := u.resends + 1 }
              ∧ d.fab = { s.dev.fab with hall := d.fab.hall } ∧ only (C.MEM_HALL_RETX :: ownWords out) [.time, .port, .fab] d
              ∧ (s.dev.up out = true → out < s.dev.port.subs.length →
                  s.dev.SendsOwn d out (s.dev.hallFrame dest.toNat seq.toNat u.ops)))
          ∧ (8 ≤ u.resends → s.dev.fab.held = [] → Completes (.hallRetransmit dest seq) s fun d =>
            let gone := s.dev.fab.out.filter fun o => o.hall && decide (o.dest = dest.toNat)
            d.clockNs = due ∧ (d.hallPair dest.toNat).unacked = [] ∧ (d.hallPair dest.toNat).waiting = []
              ∧ d.fab.out = s.dev.fab.out.filter (fun o => !(o.hall && decide (o.dest = dest.toNat)))
              ∧ (s.dev.fab.out.Nodup → s.dev.Counts d C.MEM_RMT_TIMEOUT gone.length
                ∧ ((∀ o ∈ gone, o.opc = 1) → s.dev.Counts d C.MEM_POISON_READS gone.length
                  ∧ d.fab.answers = s.dev.fab.answers ++ gone.map (fun o => ⟨o.engine, o.pseq, none⟩)
                  ∧ only [C.MEM_RMT_TIMEOUT, C.MEM_POISON_READS] [.time, .fab] d))))))
    ∧ (s.dev.regionStopped 24 = false →
      (∀ es : List MemEvent,
        let live := es.filter fun e => !s.dev.inRetired e.addr
        let cluster (e : MemEvent) : Option Nat := match s.dev.region e.addr with | .cluster c => some c | _ => none
        let bad (e : MemEvent) : Bool := decide (e.kind = .uncorrectable) || decide (e.kind = .exhausted)
        (live = [] → exec (.patrolScrub es) s = .next s)
        ∧ Completes (.patrolScrub es) s fun d =>
          s.dev.Counts d C.MEM_ECC_CORRECTED (live.countP fun e => (cluster e).isNone && decide (e.kind = .corrected))
            ∧ s.dev.Counts d C.MEM_ECC_UNCORR (live.countP fun e => (cluster e).isNone && bad e)
            ∧ s.dev.Counts d C.MEM_POISON_READS (live.countP fun e => if (cluster e).isSome then !decide (e.kind = .corrected) else bad e)
            ∧ (∀ c < 16, s.dev.Counts d (C.LNS_MEM_CORRECTED_CLUSTER c) (live.countP fun e => decide (cluster e = some c) && decide (e.kind = .corrected))
                ∧ s.dev.Counts d (C.LNS_MEM_UNCORR_CLUSTER c) (live.countP fun e => decide (cluster e = some c) && !decide (e.kind = .corrected)))
            ∧ only ([C.MEM_ECC_CORRECTED, C.MEM_ECC_UNCORR, C.MEM_POISON_READS, C.MEM_CRC_RETRIES]
                ++ (List.range 16).flatMap fun c => [C.LNS_MEM_CORRECTED_CLUSTER c, C.LNS_MEM_UNCORR_CLUSTER c]) [.plan, .fab, .lpe] d)
      ∧ (∀ a c : Nat, s.dev.channelOf a = some c → s.dev.chanRetired c = false →
        let recent := ((s.dev.fab.chanErrs.find c).getD ⟨[], []⟩).uncorr.filter fun t => decide (s.dev.plan.tick < t + 1000)
        Completes (.patrolScrub [⟨a, .uncorrectable⟩]) s fun d =>
          (2 ≤ recent.length → (∀ p ∈ s.dev.fab.retiring, p.1 ≠ c) →
              d.fab.retiring = s.dev.fab.retiring ++ [(c, 3)] ∧ d.lpe.copyBusy = true)
            ∧ (recent.length < 2 → d.fab.retiring = s.dev.fab.retiring)))
    ∧ (∀ (tier : Fin 4) (ts : List TempReading), s.dev.regionStopped (24 + tier.val) = false →
      let h := (s.dev.takeTemps ts).hottest (64 + 8 * tier.val) 8
      let read : Prop := ∃ t ∈ ts, t.sensor.val / 8 = 8 + tier.val
      Completes (.refreshDouble tier ts) s fun d =>
        d.get (R.MEM_REFRESH_DOUBLE tier.val) = (if 85 * 8 < h then 1 else if h ≤ 82 * 8 then 0 else s.dev.get (R.MEM_REFRESH_DOUBLE tier.val))
          ∧ d.get (R.MEM_REFRESH_HOT_C tier.val) = (h / 8).toNat % 2 ^ 8
          ∧ d.plan = { s.dev.plan with temps := d.plan.temps } ∧ (¬ read → ∀ i, 64 + 8 * tier.val ≤ i → i < 72 + 8 * tier.val →
              d.plan.temps.find i = s.dev.plan.temps.find i)
          ∧ only (R.APR_TEMP_COMPUTE_MAX_C.addr :: ((List.range 96).map fun i => (R.PWR_TEMP_TEMP i).addr)
              ++ (List.range 4).map fun i => (R.MEM_REFRESH_HOT_C i).addr) [.plan] d)

/-- R515, R518, R519, R522, R524, R528, R529, R542 and R641.
Completes, under conditions on the state and the operands alone, with the effect said: EPOCH, SAMPLE_CAPTURE, WATCH_FIRE,
REGION_STOP, REGION_RESUMED, PPS_IN_EDGE, HOLDOVER, WATCH_READ_END.
Where the model chose: log entries 50 and 51. -/
def Obligations.LoupeRecords : Prop :=
  ∀ s : State, s.Running → s.dev.StagedWhole →
    let traced (d : Dev) : Prop := (∀ a, ¬s.dev.InTraceRing a → Memory.byte d.fab.mem a = Memory.byte s.dev.fab.mem a)
      ∧ ∀ a, Memory.byte d.fab.core a = Memory.byte s.dev.fab.core a
    let ringed (d : Dev) : Prop :=
      (∀ a, ¬s.dev.InTraceRing a → ¬s.dev.InCounterRing a → Memory.byte d.fab.mem a = Memory.byte s.dev.fab.mem a)
        ∧ ∀ a, Memory.byte d.fab.core a = Memory.byte s.dev.fab.core a
    let only (ws : List Nat) (ps : List Part) (d : Dev) : Prop := s.dev.KeepsWords d ws ∧ s.dev.KeepsParts d ps
    let clock := s.dev.regionStopped 23 = false
    let size := s.dev.get R.LPE_RING_COUNTER_SIZE_MIB * 2 ^ 20
    let head := s.dev.get R.LPE_RING_COUNTER_HEAD
    let place := s.dev.get R.LPE_RING_COUNTER_BASE + head % size
    let traceHead := s.dev.get R.LPE_RING_TRACE_HEAD
    (let e := s.dev.advance (s.dev.multipleNow (2 ^ 32))
     let r := record 3 0 0xFFFF e.ns (zeros 6 ++ leBytes 8 e.ns ++ leBytes 4 s.dev.tick32 ++ leBytes 4 s.dev.plan.period)
     Completes .epoch s fun d =>
      d.ns = e.ns ∧ d.ns % 2 ^ 32 = 0 ∧ s.dev.ns ≤ d.ns ∧ d.ns < s.dev.ns + 2 ^ 32 ∧ s.dev.Counts d C.LPE_EPOCHS 1 ∧ ringed d
        ∧ (size ≠ 0 → d.get R.LPE_RING_COUNTER_HEAD = (head + 32) % 2 ^ 64)
        ∧ (size ≠ 0 → head % size + 32 ≤ size → s.dev.Writable place 32 → (∀ i < 128, ¬s.dev.InTraceRing (place / 64 * 64 + i)) →
            d.memRead place 32 = r)
        ∧ (s.dev.LoupeQuiet → only (C.LPE_EPOCHS :: ringWords) [.time, .lpe] d
            ∧ (e.ringRoom 1 = true → d.lpe.staging = [] ∧ d.get R.LPE_RING_TRACE_HEAD = (traceHead + 32) % 2 ^ 64)
            ∧ (e.ringRoom 1 = false → d.lpe.staging = [r] ∧ d.get R.LPE_RING_TRACE_HEAD = traceHead)))
    ∧ (clock → s.dev.on R.LPE_CFG_SAMPLE_EN = false → exec .sampleCapture s = .next s)
    ∧ (clock → s.dev.on R.LPE_CFG_SAMPLE_EN = true →
      let n := 32 + 16 * s.dev.selections.length
      let e := s.dev.advance (s.dev.multipleNow (s.dev.get R.LPE_CFG_SAMPLE_US * 1000))
      let room := size ≠ 0 ∧ e.dramRoom n = true
      Completes .sampleCapture s fun d =>
        d.ns = e.ns ∧ s.dev.ns ≤ d.ns ∧ (s.dev.get R.LPE_CFG_SAMPLE_US ≠ 0 → d.ns % (s.dev.get R.LPE_CFG_SAMPLE_US * 1000) = 0)
          ∧ d.lpe.sampleNo = (s.dev.lpe.sampleNo + 1) % 2 ^ 32
          ∧ (room → s.dev.Counts d C.LPE_SAMPLES 1 ∧ ringed d ∧ d.get R.LPE_RING_COUNTER_HEAD = (head + n) % 2 ^ 64
              ∧ (head % size + n ≤ size → s.dev.Writable place n → (∀ i < n, ¬s.dev.InTraceRing (place + i)) →
                  leAt (d.memRead place 32) 0 1 = 0x10 ∧ leAt (d.memRead place 32) 12 4 = s.dev.lpe.sampleNo % 2 ^ 32
                    ∧ leAt (d.memRead place 32) 16 2 = s.dev.selections.length % 2 ^ 16
                    ∧ d.memRead (place + 32) (16 * s.dev.selections.length) = s.dev.selections.flatMap e.sampleEntry))
          ∧ (¬room → s.dev.Counts d C.LPE_DROPPED_SAMPLE 1 ∧ d.get R.LPE_STAT_DROPPING = 1 ∧ d.get R.LPE_RING_COUNTER_HEAD = head ∧ traced d)
          ∧ (s.dev.LoupeQuiet → only (C.LPE_SAMPLES :: ringWords) [.time, .lpe] d))
    ∧ (clock → ∀ w : Fin 64,
      let x := s.dev.watchRun w.val
      let a := s.dev.get (R.LPE_WATCH_ADDR w.val)
      let flags := s.dev.get (R.LPE_WATCH_MODE w.val) = 0
      (x.due = none → exec (.watchFire w) s = .next s)
      ∧ (∀ p, x.due = some p →
        let fires := s.dev.on (R.LPE_WATCH_EN w.val) = true ∧ s.dev.faulted (s.dev.get (R.LPE_WATCH_CONTEXT w.val)) = false
        let at_ := if flags then leNat (s.dev.memRead (a + 16) 8) else a
        let good := s.dev.readable p.stat 16 = true ∧ (flags → s.dev.readable (a + 16) 8 = true) ∧ s.dev.readable at_ 24 = true
        let r := s.dev.memRead p.stat 16
        let b := s.dev.memRead at_ 24
        let fmt := if leAt r 7 1 % 2 = 1 then (widerOut (descFmt b)).getD (descFmt b) else if descFallback b then 13 else descFmt b
        Completes (.watchFire w) s fun d =>
          (d.watchRun w.val).due = none ∧ (d.watchRun w.val).pubs = x.pubs ∧ s.dev.KeepsMemory d
            ∧ (fires → good → only [] [.lpe] d
                ∧ (d.watchRun w.val).reading
                  = some ⟨p.place, p.cmdId, fmt, overlay b 4 (leBytes 4 p.scale), if flags then leAt r 4 3 else 0, leAt r 11 1, s.dev.clockNs⟩)
            ∧ (¬(fires ∧ good) → (d.watchRun w.val).reading = x.reading) ∧ (¬fires → only [] [.lpe] d)
            ∧ (s.dev.LoupeQuiet → only accessWords [.lpe] d))
      ∧ (x.reading = none → exec (.watchReadEnd w) s = .next s)
      ∧ (∀ q, x.reading = some q →
        let n := s.dev.get (R.LPE_WATCH_BYTES w.val)
        let dram := s.dev.dramBytes q.place n
        let before := (dram - 1) / 786000
        let e := s.dev.advanceClock (q.beganNs + 1000 * before)
        let last := dram - 786000 * before
        Completes (.watchReadEnd w) s fun d =>
          (d.watchRun w.val).reading = none ∧ d.ns = e.ns ∧ traced d
            ∧ (e.dramRoom last = false → s.dev.Counts d C.LPE_DROPPED_WATCH 1 ∧ d.get R.LPE_STAT_DROPPING = 1)
            ∧ (s.dev.LoupeQuiet → only ringWords [.time, .lpe] d
                ∧ (e.dramRoom last = true → (s.dev.placeFetch q.place 0 n []).2 = none →
                    d.lpe.staging = [] ∧ s.dev.KeepsWords d accessWords ∧ s.dev.KeepsMemory d)
                ∧ (e.dramRoom last = true → ∀ bs, (s.dev.placeFetch q.place 0 n []).2 = some bs → s.dev.traceRoom 3 = true →
                  (s.dev.on R.LPE_RING_TRACE_SIZE_MIB = true → e.dramRoom (last + 96) = true →
                    d.lpe.staging = [] ∧ d.get R.LPE_RING_TRACE_HEAD = (traceHead + 96) % 2 ^ 64 ∧ s.dev.Counts d C.LPE_RECORDS 3
                      ∧ s.dev.Counts d (R.LPE_WATCH_REPORTS w.val).addr 1)
                  ∧ (s.dev.on R.LPE_RING_TRACE_SIZE_MIB = false ∨ e.dramRoom (last + 96) = false →
                    d.get R.LPE_RING_TRACE_HEAD = traceHead ∧ s.dev.Counts d (R.LPE_WATCH_REPORTS w.val).addr 0
                      ∧ ∃ y u v : List Byte, d.lpe.staging = [y, u, v] ∧ leAt y 0 1 = 5 ∧ leAt u 0 1 = 6 ∧ leAt v 0 1 = 7
                        ∧ (∀ z ∈ [y, u, v], leAt z 10 1 = w.val) ∧ leAt u 12 4 = q.cmdId % 2 ^ 32
                        ∧ leAt y 24 4 = (bs.length * 8 / fmtContainer q.fmt) % 2 ^ 32 ∧ leAt y 28 3 = q.clipped % 2 ^ 24
                        ∧ sub u 16 16 ++ sub v 16 16 = shake256 bs)))))
    ∧ (∀ (r : Fin 28) (gated : Bool),
      let stat := (R.LPE_REGION_STAT_STOPPED r.val).addr
      let may := s.dev.regionStopped r.val = false ∧ (r.val ≤ 16 ∨ r.val = 19) ∧ (gated = true → s.dev.mayGate r.val = true)
      let runs := s.dev.regionStopped r.val = true ∧ s.dev.clockLost r.val = false
      (may → Completes (.regionStop r gated) s fun d =>
        d.get (R.LPE_REGION_STAT_STOPPED r.val) = 1 ∧ d.get (R.LPE_REGION_STAT_GATED r.val) = b2n gated
          ∧ d.lpe = { s.dev.lpe with stopTime := Sparse.put s.dev.lpe.stopTime r.val s.dev.ns } ∧ only [stat] [.lpe, .sup] d ∧ s.dev.KeepsMemory d)
      ∧ (¬may → exec (.regionStop r gated) s = .next s)
      ∧ (runs → Completes (.regionResumed r) s fun d =>
        d.get (R.LPE_REGION_STAT_STOPPED r.val) = 0 ∧ d.get (R.LPE_REGION_STAT_GATED r.val) = 0
          ∧ d.lpe.stopTime = Sparse.drop s.dev.lpe.stopTime r.val ∧ s.dev.Counts d C.LPE_REGION_RESUMES 1 ∧ traced d
          ∧ (s.dev.LoupeQuiet → only (stat :: C.LPE_REGION_RESUMES :: ringWords) [.lpe, .sup] d))
      ∧ (¬runs → exec (.regionResumed r) s = .next s))
    ∧ (∀ t, s.dev.sup.ppsIn = some t → s.dev.clockNs < t + 900000000 → exec .ppsInEdge s = .next s)
    ∧ ((∀ t, s.dev.sup.ppsIn = some t → t + 900000000 ≤ s.dev.clockNs) →
      let source := s.dev.get R.LPE_TIME_CFG_SOURCE
      let x : Int := (s.dev.ns : Int) - s.dev.get R.LPE_TIME_CFG_PPS_DELAY_NS
      let off := x - (x + 500000000) / 1000000000 * 1000000000
      Completes .ppsInEdge s fun d =>
        d.sup.ppsIn = some s.dev.clockNs ∧ s.dev.KeepsMemory d
          ∧ (source = 0 ∨ source = 1 → only [] [.sup] d)
          ∧ (source = 2 ∨ source = 3 → only [R.LPE_TIME_STAT_LOCKED.addr, C.LPE_TIME_STEPS] [.time, .lpe, .sup] d
              ∧ d.get R.LPE_TIME_STAT_OFFSET_NS = ofSigned 32 off ∧ d.lpe.servo.heardNs = some s.dev.clockNs ∧ d.get R.LPE_TIME_STAT_HOLDOVER = 0
              ∧ d.lpe.servo.good = (if off.natAbs ≤ 100 then s.dev.lpe.servo.good + 1 else 0)
              ∧ d.get R.LPE_TIME_STAT_LOCKED = (if off.natAbs ≤ 100 ∧ 15 ≤ s.dev.lpe.servo.good then 1 else if 1000 < off.natAbs then 0
                  else s.dev.get R.LPE_TIME_STAT_LOCKED)
              ∧ (1000 < off.natAbs → s.dev.plan.firstTick = none →
                  d.ns = ((s.dev.ns : Int) - off).toNat ∧ d.get R.LPE_TIME_STAT_STEPPED = 1 ∧ s.dev.Counts d C.LPE_TIME_STEPS 1)
              ∧ (off.natAbs ≤ 1000 ∨ s.dev.plan.firstTick ≠ none →
                  d.ns = s.dev.ns ∧ s.dev.Counts d C.LPE_TIME_STEPS 0
                    ∧ ∃ a : Int, a.natAbs ≤ 100000 ∧ d.get R.LPE_TIME_STAT_ADJ_PPB = ofSigned 24 a)))
    ∧ (∀ t, s.dev.lpe.servo.heardNs = some t → s.dev.get R.LPE_TIME_CFG_SOURCE ≠ 0 → s.dev.on R.LPE_TIME_STAT_HOLDOVER = false →
      Completes .holdover s fun d =>
        d.get R.LPE_TIME_STAT_HOLDOVER = 1 ∧ d.clockNs = max s.dev.clockNs (t + 3000000000) ∧ s.dev.Counts d C.LPE_TIME_HOLDOVERS 1
          ∧ d.get R.LPE_TIME_STAT_ADJ_PPB = s.dev.get R.LPE_TIME_STAT_ADJ_PPB
          ∧ only [R.LPE_TIME_STAT_HOLDOVER.addr, C.LPE_TIME_HOLDOVERS] [.time] d ∧ s.dev.KeepsMemory d)
    ∧ (s.dev.lpe.servo.heardNs = none ∨ s.dev.get R.LPE_TIME_CFG_SOURCE = 0 ∨ s.dev.on R.LPE_TIME_STAT_HOLDOVER = true →
      exec .holdover s = .next s)

/-- R540, R548 to R550 and R552.
Completes, under conditions on the state and the operands alone, with the effect said: HEALTH_ENTRY, LIFE_BATCH_CLOSE,
STANDING_COPY_WRITE_DONE, DAILY_LIFE_ENTRIES, RETENTION_SCAN.
Where the model chose: log entries 51 and 52. -/
def Obligations.HealthAndLifeRecords : Prop :=
  ∀ s : State, s.Running → s.dev.StagedWhole →
    let l := s.dev.lpe
    let only (ws : List Nat) (ps : List Part) (d : Dev) : Prop := s.dev.KeepsWords d ws ∧ s.dev.KeepsParts d ps
    let traced (d : Dev) : Prop := (∀ a, ¬s.dev.InTraceRing a → Memory.byte d.fab.mem a = Memory.byte s.dev.fab.mem a)
      ∧ ∀ a, Memory.byte d.fab.core a = Memory.byte s.dev.fab.core a
    (s.dev.regionStopped 23 = false → ∀ (event : BitVec 8) (object : Word32),
      let mine (a : HealthAcc) : Bool := decide (a.event = event.toNat) && decide (a.inst = object.toNat) && a.count != 0
      (l.healthAcc.find? mine = none → exec (.healthEntry event object) s = .next s)
      ∧ (∀ a, l.healthAcc.find? mine = some a →
        let e := match a.lastNs with | some t => s.dev.advanceClock (t + 1000000000) | none => s.dev
        let merged := mergeHealth a.event a.inst a.count l.health
        let begun (d : Dev) : List HealthAcc := l.healthAcc.map fun x =>
          if x.event = event.toNat ∧ x.inst = object.toNat then { x with count := 0, lastNs := some d.clockNs } else x
        Completes (.healthEntry event object) s fun d =>
          d.ns = e.ns ∧ (∀ t, a.lastNs = some t → t + 1000000000 ≤ d.clockNs)
            ∧ (s.dev.bufferFull = false →
                d.lpe.health = l.health ++ [record 0x0D 0 (healthUnit a.event a.inst) e.ns
                    (leBytes 1 a.event ++ [0] ++ leBytes 4 a.inst ++ leBytes 8 a.count ++ leBytes 8 a.detail)]
                  ∧ (∀ x ∈ d.lpe.healthAcc, x.event = event.toNat → x.inst = object.toNat → x.count = 0 ∧ x.lastNs = some d.clockNs)
                  ∧ s.dev.Counts d C.LPE_HEALTH_ENTRIES 1 ∧ d.get R.LPE_STAT_TRACE_STATUS = (if d.healthLent = 0 then 0 else 0x0B) ∧ traced d
                  ∧ (s.dev.LoupeQuiet → d.lpe.healthAcc = begun d
                      ∧ only (C.LPE_HEALTH_ENTRIES :: R.LPE_STAT_TRACE_STATUS.addr :: ringWords) [.time, .lpe] d))
            ∧ (∀ es, s.dev.bufferFull = true → merged = some es →
                d.lpe = { l with health := es, healthAcc := begun d } ∧ s.dev.Counts d C.LPE_HEALTH_MERGED 1
                  ∧ only [C.LPE_HEALTH_MERGED] [.time, .lpe] d ∧ s.dev.KeepsMemory d)
            ∧ (s.dev.bufferFull = true → merged = none → only [] [.time] d ∧ s.dev.KeepsMemory d)))
    ∧ (s.dev.regionStopped 21 = false →
      let adds (c : Instr) (all : List (List Byte)) (days : List (Nat × Nat)) : Prop :=
        let n := all.length
        (n < 2048 → Completes c s fun d =>
          d.lpe.lifePend = all ∧ d.lpe.dayCounts = days ∧ d.lpe.lifeDecision = l.lifeDecision ∧ d.lpe.health = l.health ∧ only [] [.lpe] d
            ∧ s.dev.KeepsMemory d)
        ∧ (l.lifePend.length < 2048 → Completes c s fun d =>
          d.lpe.lifePend = all.drop (n / 2048 * 2048) ∧ d.lpe.dayCounts = days ∧ s.dev.Counts d C.LPE_LIFE_BATCHES (n / 2048)
            ∧ s.dev.Counts d C.LPE_LIFE_ENTRIES (n / 2048 * 2048) ∧ only lifeWords [.lpe, .nvm] d ∧ s.dev.KeepsMemory d)
      (∀ ms : List DailyMeasure,
        let day (c : Nat × Nat) : List Byte :=
          let inst := c.1 % 2 ^ 32
          if 2 ^ 40 ≤ c.1 then record 0x25 0 (inst / 32) s.dev.ns (leBytes 1 (inst % 32) ++ zeros 5 ++ leBytes 8 c.2)
          else if c.1 / 2 ^ 32 = 0x11 then record 0x29 0 inst s.dev.ns (zeros 6 ++ leBytes 8 c.2)
          else record 0x2E 0 (c.1 / 2 ^ 32) s.dev.ns (zeros 2 ++ leBytes 4 inst ++ leBytes 8 c.2)
        adds (.dailyLifeEntries ms) (l.lifePend
          ++ (ms.filter fun m => dailyKind m.kind.toNat).map (fun m => record m.kind.toNat 0 m.source.toNat s.dev.ns m.body)
          ++ l.dayCounts.map day) [])
      ∧ (∀ ms : List (Fin 512 × Word32), adds (.retentionScan ms)
          (l.lifePend ++ ms.map fun m => record 0x26 0 m.1.val s.dev.ns (zeros 2 ++ leBytes 4 m.2.toNat)) l.dayCounts)
      ∧ (l.lifePend = [] → exec .lifeBatchClose s = .next s)
      ∧ (l.lifePend ≠ [] →
        let n := l.lifePend.length
        let m := min n 2048
        let es := (l.lifePend.take 2048).flatten
        let block := s.dev.standingBlock
        let base (t : Nat) : Nat := ((t : Int) + s.dev.sup.skewNs).toNat
        let due := (s.dev.multipleNow 86400000000000, 0) :: (l.lifeDecision.toList.map (fun t => (base (t + 1000000000), 1))
          ++ if l.lifeFirst then [] else [(base (s.dev.sup.startMs * 1000000 + 60000000000), 3)])
        Completes .lifeBatchClose s fun d =>
          d.lpe.lifePend = l.lifePend.drop 2048 ∧ d.lpe.lifeDecision = (if n ≤ 2048 then none else l.lifeDecision)
            ∧ d.nvm.lifeSeq = s.dev.nvm.lifeSeq + 1 ∧ s.dev.Counts d C.LPE_LIFE_BATCHES 1 ∧ s.dev.Counts d C.LPE_LIFE_ENTRIES m
            ∧ d.lpe.health = [] ∧ d.lpe.healthPos = l.healthPos + 32 * l.health.length
            ∧ only lifeWords [.time, .lpe, .nvm] d ∧ s.dev.KeepsMemory d
            ∧ ∃ b : RingBatch, d.nvm.life.getLast? = some b ∧ b.pos = s.dev.nvm.lifePos ∧ d.nvm.lifePos = b.pos + b.bytes.length
              ∧ b.bytes.length % 4096 = 0 ∧ leAt b.bytes 0 4 = 0xCA0511FE ∧ leAt b.bytes 8 8 = (s.dev.nvm.lifeSeq + 1) % 2 ^ 64
              ∧ leAt b.bytes 16 8 = l.lifeOpen % 2 ^ 64 ∧ leAt b.bytes 24 8 = d.ns % 2 ^ 64 ∧ leAt b.bytes 32 4 = m
              ∧ sub b.bytes 48 32 = padTo 32 (lastLifeDigest s.dev.nvm.life) ∧ sub b.bytes 96 es.length = es
              ∧ sub b.bytes (96 + es.length) block.length = block
              ∧ sub b.bytes (96 + es.length + block.length) 32 = shake256 (b.bytes.take (96 + es.length + block.length))
              ∧ (2048 ≤ n → leAt b.bytes 5 1 = 2 ∧ d.ns = s.dev.ns)
              ∧ (n < 2048 → ∀ x ∈ due, (∀ y ∈ due, x.1 < y.1 ∨ (x.1 = y.1 ∧ x.2 ≤ y.2)) →
                  leAt b.bytes 5 1 = x.2 ∧ d.ns = max s.dev.ns x.1)))
    ∧ (s.dev.nvmStopped = false →
      (l.copyBusy = false → exec .standingCopyWriteDone s = .next s)
      ∧ (l.copyBusy = true → Completes .standingCopyWriteDone s fun d =>
        d.nvm = { s.dev.nvm with standing := l.copyData ++ shake256 l.copyData } ∧ d.lpe.copyBusy = l.copyQueued ∧ d.lpe.copyQueued = false
          ∧ (l.copyQueued = true → d.lpe.copyData = s.dev.standingBlock) ∧ only [] [.lpe, .nvm] d ∧ s.dev.KeepsMemory d))

/-- R533, R535, R536, R542 and R545 to R547.
Completes, under conditions on the state and the operands alone, with the effect said: EXPORT_FRAME_SEND, TRACE_PULL, COUNTER_PULL,
STEP_MODE, STEP, STEP_DONE.
Where the model chose: log entries 5, 47 and 53. -/
def Obligations.ExportsPullsSteps : Prop :=
  ∀ s : State, s.Running →
    let l := s.dev.lpe
    let oldest := s.dev.get R.JRN_STAT_OLDEST
    let journalSent := s.dev.jrn.exportPos = s.dev.get R.JRN_STAT_HEAD ∧ oldest ≤ s.dev.get R.JRN_STAT_HEAD
    let only (ws : List Nat) (ps : List Part) (d : Dev) : Prop :=
      s.dev.KeepsWords d (ws ++ s.dev.answerWords) ∧ s.dev.KeepsParts d (ps ++ s.dev.answerParts) ∧ s.dev.KeepsMemory d
    (s.dev.regionStopped 23 = false → s.dev.LoupeQuiet → journalSent → ∀ stream : Fin 2,
      let sends := s.dev.on R.LPE_CFG_EXPORT_EN = true ∧ s.dev.on R.CFG_BOOT_NO_IMAGE = false
      (¬sends → exec (.exportFrameSend stream) s = .next s)
      ∧ (sends → l.exportPos.length = 2 → l.exportSeq.length = 2 →
        let f := ringFields stream.val
        let old := l.exportPos.getD stream.val 0
        let start := max old (s.dev.get f.2.2.2)
        let units := min 256 ((s.dev.get f.2.2.1 - start) / 32)
        let sp := s.dev.get R.LPE_CFG_EXPORT_SUBPORT
        let t := s.dev.ownTag.length
        let goes := units ≠ 0 ∧ s.dev.up sp = true ∧ 36 + t + 32 * units ≤ s.dev.frameLeft sp ∧ s.dev.dramRoom (32 * units) = true
        Completes (.exportFrameSend stream) s fun d =>
          s.dev.Counts d C.LPE_EXPORT_SKIPPED (s.dev.get f.2.2.2 - old) ∧ s.dev.KeepsMemory d
            ∧ s.dev.KeepsWords d ([C.LPE_EXPORT_SKIPPED, R.LPE_STAT_EXPORT_BEHIND.addr] ++ accessWords ++ ownWords sp)
            ∧ s.dev.KeepsParts d [.port, .lpe]
            ∧ (old < s.dev.get f.2.2.2 → d.get R.LPE_STAT_EXPORT_BEHIND = 1)
            ∧ (goes → sp < s.dev.port.subs.length → d.lpe.exportPos.getD stream.val 0 = start + 32 * units
                ∧ d.lpe.exportSeq.getD stream.val 0 = (l.exportSeq.getD stream.val 0 + 1) % 2 ^ 32
                ∧ (s.dev.classPaused sp (s.dev.get R.PORT_CFG_OWN_CLASS) = false → s.dev.ownQueue sp = [] →
                    s.dev.Counts d C.LPE_EXPORT_FRAMES 1)
                ∧ ∃ b, s.dev.SendsOwn d sp b ∧ beAt b (14 + t) 1 = 4 ∧ beAt b (16 + t) 2 = s.dev.devId % 2 ^ 16 ∧ beAt b (18 + t) 1 = stream.val
                  ∧ beAt b (19 + t) 1 + 1 = units ∧ beAt b (20 + t) 4 = l.exportSeq.getD stream.val 0 % 2 ^ 32
                  ∧ beAt b (24 + t) 8 = start % 2 ^ 64
                  ∧ sub b (32 + t) (32 * units) = (s.dev.streamRead stream.val start (32 * units)).2)
            ∧ (¬goes → d.lpe = { l with exportPos := l.exportPos.set stream.val start } ∧ d.port = s.dev.port
                ∧ d.word C.LPE_EXPORT_FRAMES = s.dev.word C.LPE_EXPORT_FRAMES)))
    ∧ (s.dev.regionStopped 21 = false → s.dev.get R.LCS_STAT_STATE < 4 → ∀ (c : Instr) (op : Nat) (payload : List Byte) (streams : List Nat),
        (c, op, streams) ∈ [(Instr.tracePull payload, 0x40, [0, 2, 3]), (.counterPull payload, 0x41, [1])] → s.dev.Turn op 0 payload →
      let stream := beAt payload 0 1
      let wanted := beAt payload 2 2
      let f := ringFields stream
      let from_ (old head room : Nat) : Nat × Nat :=
        let pos := max old (beAt payload 8 8)
        (pos, min (min wanted room) ((head - pos) / 32))
      let ok := payload.length = 16 ∧ stream ∈ streams ∧ 1 ≤ wanted ∧ wanted ≤ 256 ∧ beAt payload 8 8 % 32 = 0
      let gives (ws : List Nat) (pos : Nat) (bs : List Byte) : Prop :=
        Completes c s fun d => s.dev.Answered d St.ok (beBytes 8 pos ++ bs) ∧ only ws [.lpe] d
      (¬ok → Completes c s fun d => s.dev.OnlyAnswer d St.malformed [])
      ∧ (ok → s.dev.LoupeQuiet →
        (stream ≤ 1 →
          let p := from_ (s.dev.get f.2.2.2) (s.dev.get f.2.2.1) s.dev.pullRoom
          gives accessWords p.1 (s.dev.streamRead stream p.1 (32 * p.2)).2)
        ∧ (stream = 2 →
          let p := from_ l.healthPos (l.healthPos + 32 * l.health.length) s.dev.frameUnits
          gives [] p.1 (sub l.health.flatten (p.1 - l.healthPos) (32 * p.2)))
        ∧ (stream = 3 →
          let p := from_ ((s.dev.nvm.life.head?.map (·.pos)).getD s.dev.nvm.lifePos) s.dev.nvm.lifePos s.dev.frameUnits
          gives [] p.1 (ringSlice s.dev.nvm.life p.1 (p.1 + 32 * p.2)))))
    ∧ (s.dev.regionStopped 21 = false → s.dev.get R.LCS_STAT_STATE = 2 → ∀ payload : List Byte,
      let c := beAt payload 0 1
      let on := beAt payload 1 1
      (s.dev.Turn 0x31 0 payload →
        let rest0 := (∀ b ∈ payload.drop 2, b = 0)
        let answers (st : Nat) : Prop := Completes (.stepMode payload) s fun d => s.dev.OnlyAnswer d st []
        (payload.length ≠ 16 → answers St.malformed)
        ∧ (payload.length = 16 → s.dev.get (R.SYN_CTX_STAT_STATE c) = 0 → answers St.badAddress)
        ∧ (payload.length = 16 → s.dev.get (R.SYN_CTX_STAT_STATE c) ≠ 0 → ¬(on < 2 ∧ rest0) → answers St.malformed)
        ∧ (payload.length = 16 → on = 1 → rest0 → s.dev.faulted c = true → answers St.busy)
        ∧ (payload.length = 16 → s.dev.get (R.SYN_CTX_STAT_STATE c) ≠ 0 → on < 2 → rest0 → (on = 1 → s.dev.faulted c = false) →
          Completes (.stepMode payload) s fun d =>
            s.dev.Answered d St.ok [] ∧ (d.lpe.stepPend.find c).getD (s.dev.stepping c) = decide (on = 1) ∧ only [] [.lpe] d))
      ∧ (s.dev.Turn 0x30 0 payload →
        let n := beAt payload 2 2
        let well := payload.length = 16 ∧ s.dev.stepping c = true ∧ on = 0 ∧ n ≠ 0 ∧ ∀ b ∈ payload.drop 6, b = 0
        let busy := s.dev.faulted c = true ∨ ∃ x ∈ l.steps, x.context = c
        let finished := ∃ b, l.stepBatches.find c = some b ∧ b.finished = true
        let answers (st : Nat) (bs : List Byte) : Prop := Completes (.stepCommand payload) s fun d =>
          s.dev.Answered d st bs ∧ s.dev.Counts d C.LPE_STEPS 1 ∧ only [C.LPE_STEPS] [] d
        (¬well → answers St.malformed [])
        ∧ (well → busy → answers St.busy [])
        ∧ (well → ¬busy → finished → answers St.ok (zeros 8 ++ [1] ++ zeros 7))
        ∧ (well → ¬busy → ¬finished → Completes (.stepCommand payload) s fun d =>
          d.lpe = { l with steps := l.steps ++ [⟨c, n, beAt payload 4 2, [], [], 0⟩] } ∧ d.ctl.last = s.dev.ctl.last
            ∧ d.ctl.queue.length = s.dev.ctl.queue.length ∧ (∀ r ∈ d.ctl.queue.head?, r.begun = true)
            ∧ s.dev.KeepsWords d [] ∧ s.dev.KeepsParts d [.lpe, .ctl] ∧ s.dev.KeepsMemory d)))
    ∧ (s.dev.regionStopped 23 = false → ∀ (c : Fin 256) (ended blocked : Nat) (last : Option Word32) (done : Bool),
      ((∀ x ∈ l.steps, x.context ≠ c.val) → exec (.stepDone c ended blocked last done) s = .next s)
      ∧ (∀ before x after, l.steps = before ++ x :: after → (∀ y ∈ before, y.context ≠ c.val) → x.context = c.val →
        let ends := s.dev.stepRuns x = false ∧ (done = true ∨ s.dev.stepHalts x = true ∨ ended ≠ 0 ∨ blocked ≠ 0)
        let late := s.dev.ctl.queue = [] ∨ ∃ r rest, s.dev.ctl.queue = r :: rest ∧ r.begun = true ∧ r.opcode = 0x30 ∧ r.sp < 8
          ∧ s.dev.get R.CFG_CTL_CFG_QUEUE_OCC = (r :: rest).length
        (¬ends → exec (.stepDone c ended blocked last done) s = .next s)
        ∧ (ends → late → Completes (.stepDone c ended blocked last done) s fun d =>
          s.dev.Answered d St.ok (beBytes 2 (min (x.endedAll + ended) 0xFFFF) ++ beBytes 2 (min (s.dev.stepBlocked x + blocked) 0xFFFF)
              ++ beBytes 4 ((last.map (·.toNat)).getD x.lastCmd) ++ beBytes 1 (b2n done) ++ zeros 7)
            ∧ d.lpe.steps = before ++ after
            ∧ (d.lpe.stepBatches.find c.val = some ⟨((l.stepBatches.find c.val).map (·.samples)).getD [], done⟩)
            ∧ s.dev.Counts d C.LPE_STEPS 1 ∧ s.dev.Counts d C.LPE_STEP_CMDS ended ∧ only [C.LPE_STEPS, C.LPE_STEP_CMDS] [.lpe] d)))

/-- R592, R601, R602, R605 to R607 and R614.
Completes, under conditions on the state and the operands alone, with the effect said: QUOTE, FETCH, CERT, CHALLENGE, TRANSITION,
REKEY, CHALLENGE_LAPSE.
Where the model chose: log entries 5, 10, 41 and 42. -/
def Obligations.AttestationAndLifecycle : Prop :=
  ∀ s : State, s.Running → s.dev.secStopped = false →
    let live := R.LCS_STAT_CHALLENGE_LIVE
    let only (ws : List Nat) (ps : List Part) (d : Dev) : Prop :=
      s.dev.KeepsWords d (ws ++ s.dev.answerWords) ∧ s.dev.KeepsParts d (ps ++ s.dev.answerParts) ∧ s.dev.KeepsMemory d
    let answers (c : Instr) (st : Nat) (bs : List Byte) : Prop := Completes c s fun d => s.dev.OnlyAnswer d st bs
    (∀ nonce : List Byte,
      let k := s.dev.get (R.SEC_KEY_NEXT 1)
      s.dev.Turn 0x60 0 ([1] ++ zeros 15 ++ padTo 32 nonce) →
      (s.dev.get R.LCS_STAT_STORED = 0 ∨ 2 ^ 40 ≤ k → answers (.quote nonce) St.denied [])
      ∧ (s.dev.get R.LCS_STAT_STORED ≠ 0 → k < 2 ^ 40 → Completes (.quote nonce) s fun d =>
        (∃ sig : List Byte, sig.length = 9893 ∧ d.sec = { s.dev.sec with quotes := (⟨s.dev.nvm.quotes + 1, sig⟩ :: s.dev.sec.quotes).take 4 }
            ∧ s.dev.Answered d St.ok (s.dev.quoteBytes (padTo 32 nonce) ++ sig.take 8192))
          ∧ d.nvm.quotes = s.dev.nvm.quotes + 1 ∧ { d.nvm.apart with quotes := 0 } = { s.dev.nvm.apart with quotes := 0 }
          ∧ d.get (R.SEC_KEY_NEXT 1) = k + 1 ∧ s.dev.Counts d C.SEC_QUOTES 1 ∧ s.dev.Counts d C.SEC_SIGNATURES 1
          ∧ (k < s.dev.get (R.SEC_KEY_RESERVED_TO 1) → d.get (R.SEC_KEY_RESERVED_TO 1) = s.dev.get (R.SEC_KEY_RESERVED_TO 1))
          ∧ only [(R.SEC_KEY_NEXT 1).addr, (R.SEC_KEY_RESERVED_TO 1).addr, C.SEC_QUOTES, C.SEC_SIGNATURES] [.nvm, .sec] d))
    ∧ (∀ (o : Nat) (q : Word), s.dev.Turn 0x60 0 ([2, 0, 0, 0] ++ beBytes 4 (min o (2 ^ 32 - 1)) ++ beBytes 8 q.toNat ++ zeros 32) →
      let kept := s.dev.sec.quotes.find? fun x => decide (x.seq = q.toNat)
      (s.dev.get R.LCS_STAT_STORED = 0 → answers (.fetch o q) St.denied [])
      ∧ (s.dev.get R.LCS_STAT_STORED ≠ 0 →
        (kept = none ∨ 9892 < o → answers (.fetch o q) St.badAddress [])
        ∧ ∀ x, kept = some x → o ≤ 9892 → answers (.fetch o q) St.ok (sub x.signature o 8192)))
    ∧ (∀ item : BitVec 16, s.dev.Turn 0x60 0 ([3, 0] ++ beBytes 2 item.toNat ++ zeros 44) →
      let cert := if item.toNat ≤ 2 then s.dev.nvm.certs.find? fun c => decide (c.kind = item.toNat)
        else if 0x100 ≤ item.toNat then s.dev.nvm.certs.find? fun c => decide (c.seq = item.toNat - 0x100) else none
      (s.dev.get R.LCS_STAT_STORED = 0 → answers (.cert item) St.denied [])
      ∧ (s.dev.get R.LCS_STAT_STORED ≠ 0 →
        (item = 0 → s.dev.nvm.idKey = true →
            answers (.cert item) St.ok (publicKey 0 0 ++ beBytes 4 s.dev.nvm.endorsement.length ++ s.dev.nvm.endorsement))
        ∧ (item = 0 → s.dev.nvm.idKey = false → answers (.cert item) St.badAddress [])
        ∧ (item ≠ 0 → ∀ x, cert = some x → answers (.cert item) St.ok x.bytes)
        ∧ (item ≠ 0 → cert = none → answers (.cert item) St.badAddress [])))
    ∧ (s.dev.Turn 0x70 0 ([1] ++ zeros 15) → Completes .challenge s fun d =>
        (∃ c : List Byte, c.length = 32 ∧ d.sec = { s.dev.sec with challenge := some (c, s.dev.clockNs) } ∧ s.dev.Answered d St.ok c)
          ∧ d.get live = 1 ∧ d.jrn.entries = [] ∧ only (live.addr :: journalWords) [.sec, .port, .lpe, .jrn, .nvm] d
          ∧ d.nvm.apart = s.dev.nvm.apart)
    ∧ (s.dev.sec.challenge = none → exec .challengeLapse s = .next s)
    ∧ (∀ c t, s.dev.sec.challenge = some (c, t) → Completes .challengeLapse s fun d =>
        d.sec = { s.dev.sec with challenge := none } ∧ d.get live = 0 ∧ d.clockNs = max s.dev.clockNs (t + 60000000000)
          ∧ s.dev.KeepsWords d [live.addr] ∧ s.dev.KeepsParts d [.time, .sec] ∧ s.dev.KeepsMemory d)
    ∧ (∀ (auth : Byte) (token : List Byte),
      let formed := token.length = 2820 ∧ (auth.toNat = 1 ∨ auth.toNat = 2)
      let noKey := auth.toNat = 1 ∧ (s.dev.sec.ownerKey = none ∨ s.dev.sec.imageLoaded = false)
      let refuses (c : Instr) (st : Nat) : Prop := Completes c s fun d =>
        d.sec = { s.dev.sec with challenge := none } ∧ d.get live = 0 ∧ s.dev.Answered d st [] ∧ s.dev.Counts d C.SEC_LCS_REFUSED 1
          ∧ s.dev.Counts d C.SEC_VERIFY_FAIL (if st = St.signature ∧ s.dev.sec.challenge ≠ none then 1 else 0)
          ∧ only [live.addr, C.SEC_LCS_REFUSED, C.SEC_VERIFY_FAIL] [.sec] d ∧ d.nvm.apart = s.dev.nvm.apart
      (∀ target : Byte, s.dev.Turn 0x70 0 ([2, target, auth] ++ zeros 13 ++ token) →
        let st := if ¬formed then St.malformed else match transitionAuth s.dev.life.stored target.toNat with
          | none => St.lifecycle
          | some auths => if auth.toNat ∉ auths ∨ noKey then St.access
            else if s.dev.tokenOk auth.toNat target.toNat token = false then St.signature
            else if (target.toNat = 1 ∧ s.dev.nvm.endorsement = []) ∨ (target.toNat = 2 ∧ s.dev.goodSlot = false) then St.denied else St.ok
        (st ≠ St.ok → refuses (.transition target auth token) st)
        ∧ (st = St.ok → Completes (.transition target auth token) s fun d =>
          d.Wiped (if s.dev.sup.resetLow then .held else .starting) 3 ∧ d.sup.heldTiers = s.dev.sup.heldTiers ∧ d.sup.nextSlot = 0
            ∧ d.life.stored = target.toNat ∧ d.life.seq = s.dev.life.seq + 1 ∧ d.life.erase = (if target.toNat = 4 then 7 else s.dev.life.erase ||| 1)
            ∧ (∃ r, d.life.log.head? = some r ∧ r.from_ = s.dev.life.stored ∧ r.to_ = target.toNat ∧ r.auth = auth.toNat
                ∧ r.seq = s.dev.life.seq + 1 ∧ r.time = s.dev.ns ∧ r.batch = d.nvm.lastBatch ∧ ∀ q ∈ s.dev.ctl.queue.head?, r.mac = q.sa)
            ∧ { d.life with stored := 0, erase := 0, log := [], seq := 0 } = { s.dev.life with stored := 0, erase := 0, log := [], seq := 0 }
            ∧ (target.toNat = 4 → d.nvm.settings = [] ∧ d.nvm.prefer = 0)
            ∧ (target.toNat ≠ 4 → d.nvm.settings = s.dev.nvm.settings ∧ d.nvm.prefer = s.dev.nvm.prefer)
            ∧ d.nvm.slotA = s.dev.nvm.slotA ∧ d.nvm.slotB = s.dev.nvm.slotB ∧ d.nvm.boot = s.dev.nvm.boot ∧ d.nvm.certs = s.dev.nvm.certs))
      ∧ (∀ keys : Byte, s.dev.Turn 0x70 0 ([3, keys, auth] ++ zeros 13 ++ token) →
        let n := popCount 2 keys.toNat
        let first := s.dev.get (R.SEC_KEY_NEXT 0)
        let st := if ¬(formed ∧ 1 ≤ keys.toNat ∧ keys.toNat ≤ 3) then St.malformed
          else if s.dev.get R.LCS_STAT_STATE ≠ 3 then St.lifecycle else if noKey then St.access
          else if s.dev.tokenOk auth.toNat (0x80 + keys.toNat) token = false then St.signature
          else if 2 ^ 20 < first + n then St.denied else St.ok
        let given (k seq : Nat) (d : Dev) : Prop := d.get (R.SEC_KEY_CERT_SEQ k) = seq % 2 ^ 23
          ∧ (∃ x ∈ d.nvm.certs, x.kind = k ∧ x.seq = seq ∧ x.bytes.take (certBody k seq s.dev.ns).length = certBody k seq s.dev.ns)
          ∧ (k = 1 ∨ (s.dev.ctl.queue = [] ∧ s.dev.jrn.entries = []) → d.get (R.SEC_KEY_NEXT k) = 0)
        (st ≠ St.ok → refuses (.rekey keys auth token) st)
        ∧ (st = St.ok → Completes (.rekey keys auth token) s fun d =>
          d.sec = { s.dev.sec with challenge := none } ∧ d.get live = 0 ∧ s.dev.Answered d St.ok [] ∧ d.jrn.entries = []
            ∧ d.nvm.certNext = s.dev.nvm.certNext + n ∧ d.get (R.SEC_KEY_NEXT 0) = first + n
            ∧ (keys.toNat % 2 = 1 → given 1 s.dev.nvm.certNext d) ∧ (2 ≤ keys.toNat → given 2 (s.dev.nvm.certNext + keys.toNat % 2) d)
            ∧ only (live.addr :: journalWords ++ [0, 1, 2].flatMap fun k => [(R.SEC_KEY_NEXT k).addr, (R.SEC_KEY_RESERVED_TO k).addr,
                (R.SEC_KEY_CERT_SEQ k).addr]) [.sec, .port, .lpe, .jrn, .nvm] d
            ∧ { d.nvm.apart with certs := [], certNext := 0 } = { s.dev.nvm.apart with certs := [], certNext := 0 })))

/-- R617, R618, R621, R623, R626, R630 and R631.
Completes, under conditions on the state and the operands alone, with the effect said: VIN_CHANGE, POWER_FAIL,
COMPUTE_SUPPLY_FAULT, THERMAL_SHUTDOWN, PLL_UNLOCK, RESET_N_ASSERT, RESET_N_RELEASE.
Where the model chose: log entries 24 and 36. -/
def Obligations.SupplyMovesThePhase : Prop :=
  ∀ s : State,
    let sup := s.dev.sup
    let dark := sup.phase = .off ∨ sup.phase = .shutDown
    let begins := if sup.resetLow then Phase.held else .starting
    let wiped (phase : Phase) (cause : Nat) (d : Dev) : Prop :=
      d.Wiped phase cause ∧ s.dev.KeepsFlash d ∧ d.life = s.dev.life ∧ d.sup.heldTiers = [] ∧ d.port.sent = s.dev.port.sent
    let offCause := if dark ∧ sup.cause = 6 then 6 else 4
    let stat := R.PWR_STAT_VIN_HIGH.addr
    let flags (mv : Int) (d : Dev) : Prop :=
      d.get R.PWR_STAT_VIN_HIGH = b2n (decide (13200 < mv)) ∧ d.get R.PWR_STAT_VIN_LOW = b2n (decide (mv < 10800))
        ∧ (13200 < mv ∨ mv < 10800 → d.get R.PWR_STAT_VIN_EXCURSION = 1 ∧ s.dev.Counts d C.PWR_VIN_EXCURSIONS 1)
        ∧ (10800 ≤ mv → mv ≤ 13200 → s.dev.Counts d C.PWR_VIN_EXCURSIONS 0)
        ∧ s.dev.KeepsWords d [stat, C.PWR_VIN_EXCURSIONS] ∧ s.dev.KeepsParts d [.sup] ∧ s.dev.KeepsMemory d
    (∀ mv : Int, -300 < mv → mv < 14000 →
      let row := vinRowOf mv
      let moved (k : Nat) : Supply := { sup with vinRow := k, vinMv := mv.toNat }
      let next (k : Nat) : Prop := exec (.vinChange mv) s = .next { s with dev := { s.dev with sup := moved k } }
      (mv < 10200 ∨ (13800 < mv ∧ sup.phase ≠ .shutDown) →
        Completes (.vinChange mv) s fun d => wiped .off offCause d ∧ d.sup.vinRow = row)
      ∧ (10200 ≤ mv → sup.phase = .shutDown → next row)
      ∧ (10200 ≤ mv → mv ≤ 13800 → sup.phase = .off →
        let good := (10800 ≤ mv ∧ mv ≤ 13200) ∨ (13200 < mv ∧ sup.vinRow ≠ 0)
        (good → Completes (.vinChange mv) s fun d => d.sup = { moved row with phase := begins } ∧ flags mv d)
        ∧ (¬good → next (if sup.vinRow = 0 then 0 else row)))
      ∧ (10200 ≤ mv → mv ≤ 13800 → ¬dark → row ≠ sup.vinRow → Completes (.vinChange mv) s fun d => d.sup = moved row ∧ flags mv d)
      ∧ (10200 ≤ mv → mv ≤ 13800 → ¬dark → row = sup.vinRow → next row))
    ∧ Completes .powerFail s (wiped .off offCause)
    ∧ (dark → exec .computeSupplyFault s = .next s)
    ∧ (¬dark → Completes .computeSupplyFault s (wiped begins 5))
    ∧ (s.Running → 13 ∉ sup.unlocked → Completes (.pllUnlock 13) s (wiped begins 5))
    ∧ (∀ ts : List TempReading,
      let hot := ∃ t ∈ ts, (if t.sensor.val < 64 then 920 else 840) ≤ t.eighths
      (dark ∨ ¬hot → exec (.thermalShutdown ts) s = .next s)
      ∧ (¬dark → hot → Completes (.thermalShutdown ts) s (wiped .shutDown 6)))
    ∧ (sup.resetLow = true → exec .resetNAssert s = .next s)
    ∧ (sup.resetLow = false → sup.phase = .off →
        exec .resetNAssert s = .next { s with dev := { s.dev with sup := { sup with resetLow := true, session := false } } })
    ∧ (sup.resetLow = false → sup.phase ≠ .off →
      let cause := if sup.phase = .shutDown ∨ (sup.phase = .starting ∧ sup.cause = 6) then 6 else 2
      Completes .resetNAssert s fun d =>
        d.Wiped .held cause ∧ s.dev.KeepsFlash d ∧ d.nvm.lifeTorn = s.dev.nvm.lifeTorn ∧ d.life = s.dev.life ∧ d.sup.resetLow = true
          ∧ d.sup.heldTiers = (if cause = 2 then sup.heldTiers else []) ∧ d.port.sent = s.dev.port.sent)
    ∧ (sup.resetLow = false → exec .resetNRelease s = .next s)
    ∧ (sup.resetLow = true →
      let up : Supply := { sup with resetLow := false, session := false, nvmOp := none }
      (sup.phase = .held → exec .resetNRelease s
        = .next { s with dev := { s.dev with sup := { up with phase := .starting, cause := if sup.cause = 6 then 6 else 2 } } })
      ∧ (sup.phase ≠ .held → exec .resetNRelease s = .next { s with dev := { s.dev with sup := up } }))

/-- R611, R619, R620, R622, R626, R627, R636 and R642 to R645.
Completes, under conditions on the state and the operands alone, with the effect said: POWER_LIMIT, PHASE_SHED, DRAM_RAIL_FAULT,
PLL_UNLOCK, PLL_RELOCK, DROOP, PPS_OUT_PULSE, EXTEST, IDCODE, SAMPLE_PRELOAD, CLAMP, HIGHZ, BYPASS, STAGE_READ, NVM_READ,
NVM_PROGRAM, NVM_ERASE, TRST_N_ASSERT, DRAM_RAIL_RETURN, NVM_ACCESS_DONE.
Where the model chose: log entries 24, 25, 36 and 37. -/
def Obligations.PowerClocksJtag : Prop :=
  ∀ s : State,
    let sup := s.dev.sup
    let dark := sup.phase = .off ∨ sup.phase = .shutDown
    let only (ws : List Nat) (ps : List Part) (d : Dev) : Prop := s.dev.KeepsWords d ws ∧ s.dev.KeepsParts d ps ∧ s.dev.KeepsMemory d
    let stats (c : Nat) : List Nat := (domainRegions c).map fun r => (R.LPE_REGION_STAT_STOPPED r).addr
    (s.Running →
      (∀ (on : Bool) (n : Nat), 14 ∉ sup.unlocked → Completes (.powerLimit on n) s fun d =>
        d.get R.PWR_STAT_LIMITING = b2n on ∧ d.get (R.CLK_STAT_STRETCHING 0) = b2n on ∧ d.get (R.CLK_STAT_STRETCHING 1) = b2n on
          ∧ s.dev.Counts d C.PWR_LIMIT_EVENTS (if on = true ∧ s.dev.on R.PWR_STAT_LIMITING = false then 1 else 0)
          ∧ s.dev.Counts d C.CLK_STRETCHED_CYCLES n
          ∧ only [R.PWR_STAT_LIMITING.addr, (R.CLK_STAT_STRETCHING 0).addr, (R.CLK_STAT_STRETCHING 1).addr, C.PWR_LIMIT_EVENTS,
              C.CLK_STRETCHED_CYCLES] [] d)
      ∧ (∀ rail, Completes (.phaseShed rail) s fun d => s.dev.Counts d C.PWR_PHASE_SHED 1 ∧ s.dev.KeepsWords d [C.PWR_PHASE_SHED] ∧ s.dev.OnlyRegs d)
      ∧ (∀ (r : Fin 28) (n : Nat), Completes (.droop r n) s fun d =>
        s.dev.Counts d C.CLK_DROOP_EVENTS 1 ∧ s.dev.Counts d C.CLK_STRETCHED_CYCLES (min n 64) ∧ s.dev.OnlyRegs d
          ∧ s.dev.KeepsWords d [C.CLK_DROOP_EVENTS, C.CLK_STRETCHED_CYCLES])
      ∧ (∀ c : Fin 18,
        (hasPll c.val = true → c.val ≠ 13 → c.val ∉ sup.unlocked → Completes (.pllUnlock c) s fun d =>
          d.get (R.CLK_STAT_LOCKED c.val) = 0 ∧ s.dev.Counts d C.CLK_UNLOCKS 1 ∧ d.sup.unlocked = sup.unlocked ++ [c.val]
            ∧ (∀ r ∈ domainRegions c.val, d.regionStopped r = true ∧ (s.dev.regionStopped r = false → d.lpe.stopTime.find r = some s.dev.ns))
            ∧ only ((R.CLK_STAT_LOCKED c.val).addr :: C.CLK_UNLOCKS :: stats c.val) [.lpe, .sup] d)
        ∧ (hasPll c.val = false ∨ c.val ∈ sup.unlocked → exec (.pllUnlock c) s = .next s)
        ∧ (c.val ∈ sup.unlocked → Completes (.pllRelock c) s fun d =>
          d.get (R.CLK_STAT_LOCKED c.val) = 1 ∧ d.sup.unlocked = sup.unlocked.filter (· != c.val)
            ∧ (∀ r ∈ domainRegions c.val, s.dev.on (R.LPE_REGION_STAT_GATED r) = false →
              (∀ x ∈ sup.unlocked, x ≠ c.val → r ∉ domainRegions x) → d.regionStopped r = false)
            ∧ (s.dev.LoupeQuiet → s.dev.KeepsParts d [.lpe, .sup]
                ∧ s.dev.KeepsWords d ((R.CLK_STAT_LOCKED c.val).addr :: C.LPE_REGION_RESUMES :: stats c.val ++ ringWords)))
        ∧ (c.val ∉ sup.unlocked → exec (.pllRelock c) s = .next s))
      ∧ (s.dev.on R.CLK_OUT_CFG_PPS_OUT_EN = false → exec .ppsOutPulse s = .next s)
      ∧ (s.dev.on R.CLK_OUT_CFG_PPS_OUT_EN = true → Completes .ppsOutPulse s fun d =>
        d.ns = (s.dev.ns / 1000000000 + 1) * 1000000000 ∧ d.sup = { sup with ppsTakes := false }
          ∧ d.port = { s.dev.port with sent := s.dev.port.sent ++ if sup.lands = 0 then [Sent.pulse 0 d.ns] else [] }
          ∧ only [R.CLK_OUT_STAT_LAND_FN.addr, R.CLK_OUT_STAT_TICK_OUT_STATUS.addr] [.time, .port, .sup] d
          ∧ (sup.ppsTakes = true → d.get R.CLK_OUT_STAT_LAND_FN = 1 ∧ d.get R.CLK_OUT_STAT_TICK_OUT_STATUS = 0x0B)
          ∧ (sup.ppsTakes = false → s.dev.KeepsWords d [])))
    ∧ (dark → ∀ (x : BitVec 8) (r : BitVec 2) (o : BitVec 27) (w : Word) (t : Fin 4),
        ∀ c ∈ [Instr.extest x, .idcode, .samplePreload x, .clamp, .highz, .bypass x, .stageRead, .nvmRead r o, .nvmProgram r o w, .nvmErase r o,
            .nvmAccessDone, .trstNAssert, .dramRailFault t, .dramRailReturn t],
          exec c s = .next s)
    ∧ (¬dark →
      let sets (c : Instr) (x : Supply) : Prop := exec c s = .next { s with dev := { s.dev with sup := x } }
      let shifts (c : Instr) (x : Supply) (bits : Nat) : Prop := exec c s
        = .next { s with dev := { s.dev with sup := x, port := { s.dev.port with sent := s.dev.port.sent ++ [Sent.jtag bits] } } }
      (∀ t : Fin 4,
        Completes (.dramRailFault t) s (fun d => (∀ k, k ∈ d.sup.heldTiers ↔ k ∈ sup.heldTiers ∨ k = t.val) ∧ only [] [.sup] d
          ∧ d.sup = { sup with heldTiers := d.sup.heldTiers })
        ∧ sets (.dramRailReturn t) { sup with heldTiers := sup.heldTiers.filter (· != t.val) })
      ∧ (∀ (x : BitVec 8) (c : Instr) (i lands : Nat), (c, i, lands) ∈ [(Instr.extest x, 0, 1), (.samplePreload x, 2, 0)] →
        Completes c s fun d => d.sup = { sup with ir := i, lands := lands, cells := x.toNat } ∧ only [] [.sup, .port] d
          ∧ ∃ y < 256, d.port = { s.dev.port with sent := s.dev.port.sent ++ [Sent.jtag y] })
      ∧ (∃ v : Nat, v < 16 ∧ shifts .idcode { sup with ir := 1, lands := 0 } (2 ^ 28 * v + 0x160056D))
      ∧ sets .clamp { sup with ir := 3, lands := 1 } ∧ sets .highz { sup with ir := 4, lands := 2 }
      ∧ (∀ x : BitVec 8, x.toNat ∉ [0, 1, 2, 3, 4, 0x20, 0x21] → sets (.bypass x) { sup with ir := x.toNat, lands := 0 })
      ∧ (∀ x : BitVec 8, x.toNat ∈ [0, 1, 2, 3, 4, 0x20, 0x21] → exec (.bypass x) s = .next s)
      ∧ shifts .stageRead { sup with ir := 0x20, lands := 0 } (if sup.phase = .running ∨ sup.phase = .halted
          then s.dev.get R.RST_STAT_STAGE + 2 ^ 8 * s.dev.get R.RST_STAT_CAUSE + 2 ^ 12 * s.dev.get R.CFG_BOOT_FALLBACK
          else 1 + 2 ^ 8 * (sup.cause % 16))
      ∧ sets .trstNAssert { sup with ir := 1, lands := 0 }
      ∧ (sup.nvmOp = none → exec .nvmAccessDone s = .next s) ∧ (sup.nvmOp ≠ none → sets .nvmAccessDone { sup with nvmStatus := 0, nvmOp := none })
      ∧ (∀ (r : BitVec 2) (o : BitVec 27) (w : Word),
        let words (d : Dev) (k : Nat) : Word := ((d.nvm.region r.toNat).find k).getD 0
        let may := sup.phase = .held ∧ sup.resetLow = true ∧ s.dev.life.stored ≠ 5 ∧ o.toNat < nvmWords r.toNat
        let begun (op : NvmOp) (d : Dev) : Prop :=
          d.sup = { sup with ir := 0x21, lands := 0, nvmStatus := 1, nvmOp := some op, session := true }
            ∧ d.life = { s.dev.life with jtagWrites := s.dev.life.jtagWrites + b2n (!sup.session) } ∧ only [] [.sup, .nvm, .life] d
            ∧ (∀ q < 3, q ≠ r.toNat → d.nvm.region q = s.dev.nvm.region q)
            ∧ { d.nvm with boot := [], slotA := [], slotB := [] } = { s.dev.nvm with boot := [], slotA := [], slotB := [] }
        (may →
          sets (.nvmRead r o) { sup with ir := 0x21, lands := 0, nvmData := words s.dev o.toNat, nvmStatus := 0 }
          ∧ Completes (.nvmProgram r o w) s (fun d =>
            words d o.toNat = words s.dev o.toNat ||| w ∧ (∀ k, k ≠ o.toNat → words d k = words s.dev k) ∧ begun ⟨2, r.toNat, o.toNat, w⟩ d)
          ∧ Completes (.nvmErase r o) s fun d =>
            (∀ k, k / 8192 = o.toNat / 8192 → words d k = 0) ∧ (∀ k, k / 8192 ≠ o.toNat / 8192 → words d k = words s.dev k)
              ∧ begun ⟨3, r.toNat, o.toNat, 0⟩ d)
        ∧ (¬may → ∀ c ∈ [Instr.nvmRead r o, .nvmProgram r o w, .nvmErase r o], sets c { sup with ir := 0x21, lands := 0, nvmStatus := 2 })))

/-- R30, R563, R597, R603, R607, R633 and R634; that nothing ticks outside OPERATIONAL and that the sub-ports are then in Tap follow
log entry 33.
Completes, under conditions on the state and the operands alone, with the effect said: START_UP. -/
def Obligations.StartUpEnds : Prop :=
  ∀ (s : State) (env : StartEnv),
    (s.dev.sup.phase ≠ .starting → exec (.startUp env) s = .next s)
    ∧ (s.dev.sup.phase = .starting →
      (s.dev.bootCopy = none → Completes (.startUp env) s fun d =>
        d.sup = { s.dev.sup with phase := .halted, nextSlot := 0 } ∧ d.get R.RST_STAT_STAGE = 0x03 ∧ d.get R.RST_STAT_CAUSE = s.dev.sup.cause % 2 ^ 4
          ∧ s.dev.KeepsWords d [R.RST_STAT_STAGE.addr, R.RST_STAT_CAUSE.addr, R.MEM_CFG_DEVICE_ID.addr, R.FLW_TABLE_INFO_BASE.addr, C.SEC_VERIFY_FAIL]
          ∧ s.dev.KeepsParts d [.sup, .jrn] ∧ s.dev.KeepsMemory d)
      ∧ (∀ c, s.dev.bootCopy = some c → Completes (.startUp env) s fun d =>
          let state := d.get R.LCS_STAT_STATE
          d.sup.phase = .running ∧ d.ns = env.startMs * 1000000 ∧ d.sup.startMs = env.startMs ∧ d.sup.nextSlot = 0
            ∧ d.life = { s.dev.life with erase := 0 } ∧ (∀ k < 18, d.get (R.CLK_STAT_LOCKED k) = b2n (hasPll k))
            ∧ (s.dev.life.stored = 0 ∨ s.dev.life.stored = 4 ∨ s.dev.life.stored = 5 → state = s.dev.life.stored)
            ∧ (1 ≤ s.dev.life.stored → s.dev.life.stored ≤ 3 → state = s.dev.life.stored ∨ state = 3)
            ∧ (state ≠ 2 → d.get R.RST_STAT_STAGE = 0x0D ∧ d.plan.ticking = s.dev.plan.ticking
                ∧ ∀ sp < 8, d.get (R.PORT_SUBPORT_STAT_MODE_ACTIVE sp) = 2 ∧ d.get (R.PORT_SUBPORT_STAT_MODE_PENDING sp) = 0)
            ∧ (state = 2 → d.get R.RST_STAT_STAGE = 0x0B
                → d.plan.ticking = true ∧ d.plan.firstTick = none ∧ (0 < d.plan.period → d.ns ≤ d.plan.nextNs))))

/-- The invariant of the three stores: equal contents are equal data. The canonical form is the model's own (memory entry of the log);
what an unlisted key reads as is the reset value (R4) and the wiped byte (R509).
Where the model chose: log entry 6. -/
def Obligations.StoresStayCanonical : Prop :=
  (Sparse.wf resetWord State.reset.dev.regs = true ∧ Memory.wf State.reset.dev.fab.mem = true ∧ Memory.wf State.reset.dev.fab.core = true)
    ∧ ∀ s t : State, step s = .next t →
      Sparse.wf resetWord s.dev.regs = true → Memory.wf s.dev.fab.mem = true → Memory.wf s.dev.fab.core = true →
      Sparse.wf resetWord t.dev.regs = true ∧ Memory.wf t.dev.fab.mem = true ∧ Memory.wf t.dev.fab.core = true
end

