-- ==== Sys2Proof/Laws/Xmss.lean ====
section
/-! SUPPORT. The lengths of the hashes, and that a signature made by the chains of a one-time key verifies (R590). -/

namespace Sys2Proof.Machine

theorem leBytes_length (k n : Nat) : (leBytes k n).length = k := by
  induction k generalizing n with
  | zero => rfl
  | succ k ih => simp [leBytes, ih]

theorem keccakRound_length (a : List (BitVec 64)) (rc : BitVec 64) : (keccakRound a rc).length = 25 := by
  simp [keccakRound, List.range, List.range.loop]

theorem keccakF_length (a : List (BitVec 64)) : (keccakF a).length = 25 := by
  have h : keccakRC = keccakRC.dropLast ++ [0x8000000080008008#64] := rfl
  rw [keccakF, h, List.foldl_append]
  exact keccakRound_length _ _

theorem keccakAbsorb_length (k : Nat) (a : List (BitVec 64)) (bs : List Byte) (h : a.length = 25) : (keccakAbsorb k a bs).length = 25 := by
  induction k generalizing a bs with
  | zero => exact h
  | succ k ih => exact ih _ _ (keccakF_length _)

/-- A digest has 32 bytes. -/
theorem shake256_length (bs : List Byte) : (shake256 bs).length = 32 := by
  simp [shake256, List.length_flatMap, leBytes_length, keccakAbsorb_length, List.map_const']

theorem xmssHash_length (fn : Nat) (key m : List Byte) : (xmssHash fn key m).length = 32 := shake256_length _

theorem XmssTree.chain_length (t : XmssTree) (ots c n j : Nat) (x : List Byte) (h : x.length = 32) : (t.chain ots c n j x).length = 32 := by
  induction n generalizing j x with
  | zero => exact h
  | succ n ih => exact ih _ _ (xmssHash_length _ _ _)

/-- A chain goes on where it stands. -/
theorem XmssTree.chain_add (t : XmssTree) (ots c a b j : Nat) (x : List Byte) :
    t.chain ots c b (j + a) (t.chain ots c a j x) = t.chain ots c (a + b) j x := by
  induction a generalizing j x with
  | zero => simp [chain]
  | succ a ih =>
    rw [Nat.add_right_comm, chain, chain, ← ih, Nat.add_assoc, Nat.add_comm 1 a]

theorem XmssTree.rootOf_length (t : XmssTree) (leaf height : Nat) (auth node : List Byte) :
    (t.rootOf leaf (height + 1) auth node).length = 32 := by
  simp only [rootOf, List.range_succ, List.foldl_append, List.foldl_cons, List.foldl_nil]
  split <;> exact xmssHash_length _ _ _

/-- The digits of a digest are 67, each below 16. -/
theorem hexDigits_lt (bs : List Byte) : ∀ d ∈ hexDigits bs, d < 16 := by
  simp only [hexDigits, List.mem_flatMap, List.mem_cons, List.not_mem_nil, or_false]
  rintro d ⟨b, -, rfl | rfl⟩
  · have := b.isLt; omega
  · omega

theorem hexDigits_length (bs : List Byte) : (hexDigits bs).length = 2 * bs.length := by
  simp [hexDigits, List.length_flatMap, List.map_const', Nat.mul_comm]

theorem wotsDigits_length (bs : List Byte) (h : bs.length = 32) : (wotsDigits bs).length = 67 := by
  simp [wotsDigits, hexDigits_length, h, beBytes, leBytes_length]

theorem wotsDigits_lt (bs : List Byte) : ∀ d ∈ wotsDigits bs, d < 16 := by
  intro d h
  rcases List.mem_append.1 h with h | h
  · exact hexDigits_lt _ d h
  · exact hexDigits_lt _ d (List.mem_of_mem_take h)

/-- A piece of 32 bytes among others. -/
theorem sub_flatMap {α : Type} (l : List α) (f : α → List Byte) (rest : List Byte) (h : ∀ x ∈ l, (f x).length = 32) (i : Nat)
    (hi : i < l.length) : sub (l.flatMap f ++ rest) (32 * i) 32 = f l[i] := by
  induction l generalizing i with
  | nil => simp at hi
  | cons a l ih =>
    have ha := h a (by simp)
    cases i with
    | zero => simp [sub, ← ha]
    | succ i =>
      have := ih (fun x hx => h x (by simp [hx])) i (by simpa using hi)
      simpa [sub, Nat.mul_add, ← ha, List.drop_append, Nat.add_comm, ← List.drop_drop] using this

/-- The leaf of a one-time key: the ends of its chains from zero. -/
theorem XmssTree.leafOf_chains (t : XmssTree) (msg rest : List Byte) (h : msg.length = 32) :
    t.leafOf 0 (((List.range 67).zip (wotsDigits msg)).flatMap (fun x => t.chain 0 x.1 x.2 0 (zeros 32)) ++ rest) msg
      = t.lRoot 0 ((List.range 67).map fun i => t.chain 0 i 15 0 (zeros 32)) := by
  have hl := wotsDigits_length msg h
  have hd := wotsDigits_lt msg
  simp only [leafOf, hl]
  congr 1
  apply List.ext_getElem (by simp [hl])
  intro i h1 h2
  have hi : i < 67 := by simpa using h2
  have hs := sub_flatMap ((List.range 67).zip (wotsDigits msg)) (fun x => t.chain 0 x.1 x.2 0 (zeros 32)) rest
    (fun x _ => t.chain_length 0 _ _ _ _ (by simp [zeros])) i (by simp [hl, hi])
  simp only [List.getElem_zip, List.getElem_range] at hs
  have hlt : (wotsDigits msg)[i]'(by omega) < 16 := hd _ (List.getElem_mem _)
  simp only [List.getElem_map, List.getElem_zip, List.getElem_range, hs]
  have := t.chain_add 0 i ((wotsDigits msg)[i]'(by omega)) (15 - (wotsDigits msg)[i]'(by omega)) 0 (zeros 32)
  rw [Nat.zero_add] at this
  rw [this]
  congr 1
  omega

/-- Every digest has a signature that verifies under some key. -/
theorem XmssSet.single_signs (digest : List Byte) : ∃ key sig, XmssSet.single.verifies key digest sig = true ∧ sig.length = 2820 := by
  let t : XmssTree := ⟨zeros 32, 0, 0⟩
  obtain ⟨root, hroot⟩ : ∃ r, r = t.rootOf 0 20 (zeros 640) (t.lRoot 0 ((List.range 67).map fun i => t.chain 0 i 15 0 (zeros 32))) := ⟨_, rfl⟩
  have hr : root.length = 32 := by rw [hroot]; exact t.rootOf_length _ 19 _ _
  obtain ⟨msg, hmsg⟩ : ∃ m, m = xmssHash 2 (zeros 32 ++ root ++ beBytes 32 0) digest := ⟨_, rfl⟩
  have hm : msg.length = 32 := by rw [hmsg]; exact xmssHash_length _ _ _
  obtain ⟨ots, hots⟩ : ∃ o, o = ((List.range 67).zip (wotsDigits msg)).flatMap (fun x => t.chain 0 x.1 x.2 0 (zeros 32)) := ⟨_, rfl⟩
  have ho : ots.length = 2144 := by
    have hc : ∀ x ∈ (List.range 67).zip (wotsDigits msg), (t.chain 0 x.1 x.2 0 (zeros 32)).length = 32 :=
      fun x _ => t.chain_length 0 _ _ _ _ (by simp [zeros])
    rw [hots, List.length_flatMap, List.map_congr_left hc]
    simp [List.map_const', wotsDigits_length msg hm]
  have hz (n : Nat) : (zeros n).length = n := List.length_replicate ..
  refine ⟨beBytes 4 0x12 ++ (root ++ zeros 32), zeros 4 ++ (zeros 32 ++ (ots ++ zeros 640)), ?_, by simp [ho, hz]⟩
  have hk : sub (beBytes 4 0x12 ++ (root ++ zeros 32)) 4 32 = root := by
    rw [sub, List.drop_left' (show (beBytes 4 0x12).length = 4 from rfl), List.take_left' hr]
  have hs : sub (beBytes 4 0x12 ++ (root ++ zeros 32)) 36 32 = zeros 32 := by
    rw [sub, ← List.append_assoc, List.drop_left' (by simp [hr]; rfl), List.take_of_length_le (by simp [hz])]
  have h4 (a b : List Byte) (h : a.length = 4) : beAt (a ++ b) 0 4 = beNat a := by
    simp [beAt, sub, padTo, ← h, zeros]
  have hi := h4 (zeros 4) (zeros 32 ++ (ots ++ zeros 640)) (hz 4)
  have ho4 := h4 (beBytes 4 0x12) (root ++ zeros 32) rfl
  have hn : sub (zeros 4 ++ (zeros 32 ++ (ots ++ zeros 640))) 4 32 = zeros 32 := by
    rw [sub, List.drop_left' (hz 4), List.take_left' (hz 32)]
  have hd : (zeros 4 ++ (zeros 32 ++ (ots ++ zeros 640))).drop 36 = ots ++ zeros 640 := by
    rw [← List.append_assoc, List.drop_left' (by simp [hz])]
  have ha : sub (ots ++ zeros 640) 2144 640 = zeros 640 := by
    rw [sub, List.drop_left' ho, List.take_of_length_le (by simp [hz])]
  have ht : xmssTop (zeros 32) 20 1 0 0 (ots ++ zeros 640) msg = root := by
    show t.rootOf 0 20 (sub (ots ++ zeros 640) 2144 640) (t.leafOf 0 (ots ++ zeros 640) msg) = root
    rw [ha, hots, t.leafOf_chains msg _ hm, hroot]
  have hb : (beBytes 4 0x12).length = 4 ∧ beNat (beBytes 4 0x12) = 0x12 ∧ beNat (zeros 4) = 0 := by decide
  simp only [verifies, single, hk, hs, hi, hn, ho4, hd, hb, ← hmsg, ht]
  simp [hr, ho, hb, hz, sigBytes]

end Sys2Proof.Machine
end

