-- ==== Sys2Proof/Laws/Flash.lean ====
section
/-! SUPPORT. Bytes put into flash as words read back as they are. -/

namespace Sys2Proof.Machine

/-- A byte string as flash words, from word 0. -/
def flashOf (m : Nat) (bs : List Byte) : Sparse Word := (List.range m).map fun i => (i, BitVec.ofNat 64 (leNat (sub bs (8 * i) 8)))

theorem Sparse.find_range {α : Type} (f : Nat → α) (j k m : Nat) (h : j < m) (hk : k ≤ j) :
    Sparse.find ((List.range' k (m - k)).map fun i => (i, f i)) j = some (f j) := by
  obtain ⟨n, hn⟩ : ∃ n, m - k = n + 1 := ⟨m - k - 1, by omega⟩
  induction n generalizing k with
  | zero => obtain rfl : j = k := by omega
            simp [hn, Sparse.find]
  | succ n ih =>
    rw [hn, List.range'_succ, List.map_cons, Sparse.find]
    split
    · simp_all
    · have := ih (k + 1) (by omega) (by omega)
      rw [show m - (k + 1) = n + 1 by omega] at this
      exact this

theorem leBytes_leNat (bs : List Byte) : leBytes bs.length (leNat bs) = bs := by
  induction bs with
  | nil => rfl
  | cons b bs ih =>
    have hb := b.isLt
    have hd : (b.toNat + 256 * leNat bs) / 256 = leNat bs := by omega
    simp only [List.length_cons, leBytes, leNat, hd, ih, List.cons.injEq, and_true]
    apply BitVec.eq_of_toNat_eq
    simp only [BitVec.toNat_ofNat]
    omega

theorem leNat_lt (bs : List Byte) : leNat bs < 256 ^ bs.length := by
  induction bs with
  | nil => simp [leNat]
  | cons b bs ih =>
    have hb := b.isLt
    rw [leNat, List.length_cons, Nat.pow_succ]
    omega

theorem sub_length (bs : List Byte) (o n : Nat) (h : o + n ≤ bs.length) : (sub bs o n).length = n := by
  simp only [sub, List.length_take, List.length_drop]
  omega

/-- Flash words hold the bytes that they were made of. -/
theorem flashBytes_flashOf (m : Nat) (bs : List Byte) (hm : bs.length = 8 * m) (o n : Nat) (h : o + n ≤ bs.length) :
    flashBytes (flashOf m bs) o n = sub bs o n := by
  have word (j : Nat) (hj : j < m) : leBytes 8 (((flashOf m bs).find j).getD 0).toNat = sub bs (8 * j) 8 := by
    have hl : (sub bs (8 * j) 8).length = 8 := sub_length _ _ _ (by omega)
    have hf := Sparse.find_range (fun i => BitVec.ofNat 64 (leNat (sub bs (8 * i) 8))) j 0 m hj (Nat.zero_le _)
    rw [Nat.sub_zero, ← List.range_eq_range'] at hf
    have hlt := leNat_lt (sub bs (8 * j) 8)
    rw [hl] at hlt
    rw [flashOf, hf, Option.getD_some, BitVec.toNat_ofNat, Nat.mod_eq_of_lt (by simpa using hlt)]
    exact (congrArg (leBytes · _) hl).symm.trans (leBytes_leNat _)
  have words (w k : Nat) (hk : w + k ≤ m) :
      ((List.range k).map fun i => leBytes 8 (((flashOf m bs).find (w + i)).getD 0).toNat).flatten = sub bs (8 * w) (8 * k) := by
    induction k with
    | zero => simp [sub]
    | succ k ih =>
      rw [List.range_succ, List.map_append, List.flatten_append, ih (by omega)]
      simp only [List.map_cons, List.map_nil, List.flatten_cons, List.flatten_nil, List.append_nil]
      rw [word _ (by omega)]
      simp only [sub, Nat.mul_add]
      rw [← List.drop_drop, Nat.mul_one, List.take_add]
  have hc : cdiv (o % 8 + n) 8 = (o % 8 + n + 7) / 8 := by simp [cdiv]
  simp only [flashBytes]
  rw [words _ _ (by rw [hc]; omega)]
  simp only [sub]
  rw [List.drop_take, List.drop_drop, List.take_take, hc]
  congr 1
  · omega
  · congr 1; omega

end Sys2Proof.Machine
end

