-- ==== Sys2Proof/Laws/Sparse.lean ====
section
/-! SUPPORT. Sparse stores and memories: a read after a write, and the canonical form under every operation. -/

namespace Sys2Proof.Machine

variable {α : Type}

theorem Sparse.find_put_same (s : Sparse α) (a : Nat) (v : α) : (s.put a v).find a = some v := by
  induction s with
  | nil => simp [Sparse.put, Sparse.find]
  | cons e rest ih =>
    obtain ⟨k, w⟩ := e
    simp only [Sparse.put]
    split
    · rename_i h; simp [Sparse.find, h]
    · split
      · simp [Sparse.find]
      · rename_i h _; simp [Sparse.find, h, ih]

theorem Sparse.find_put_other (s : Sparse α) {a b : Nat} (v : α) (h : b ≠ a) : (s.put a v).find b = s.find b := by
  induction s with
  | nil => simp [Sparse.put, Sparse.find, h]
  | cons e rest ih =>
    obtain ⟨k, w⟩ := e
    simp only [Sparse.put]
    split
    · rename_i hk; subst hk; simp [Sparse.find, h]
    · split
      · simp [Sparse.find, h]
      · simp [Sparse.find, ih]

theorem Sparse.find_filter (s : Sparse α) (p : Nat → Bool) (a : Nat) :
    Sparse.find (s.filter fun e => p e.1) a = if p a then Sparse.find s a else none := by
  induction s with
  | nil => simp [Sparse.find]
  | cons e rest ih =>
    obtain ⟨k, w⟩ := e
    by_cases hk : p k <;> by_cases ha : a = k
    · subst ha; simp [Sparse.find, hk]
    · simp [Sparse.find, hk, ha, ih]
    · subst ha; simp [hk, ih]
    · simp [Sparse.find, hk, ha, ih]

theorem Sparse.find_drop_same (s : Sparse α) (a : Nat) : (s.drop a).find a = none := by
  simp [Sparse.drop, Sparse.find_filter s (fun k => k != a)]

theorem Sparse.find_drop_other (s : Sparse α) {a b : Nat} (h : b ≠ a) : (s.drop a).find b = s.find b := by
  simp [Sparse.drop, Sparse.find_filter s (fun k => k != a), h]

theorem Sparse.read_write_same [DecidableEq α] (f : Nat → α) (s : Sparse α) (a : Nat) (v : α) :
    Sparse.read f (Sparse.write f s a v) a = v := by
  unfold Sparse.write
  split
  · rename_i h; simp [Sparse.read, Sparse.find_drop_same, h]
  · simp [Sparse.read, Sparse.find_put_same]

theorem Sparse.read_write_other [DecidableEq α] (f : Nat → α) (s : Sparse α) {a b : Nat} (v : α) (h : b ≠ a) :
    Sparse.read f (Sparse.write f s a v) b = Sparse.read f s b := by
  unfold Sparse.write
  split
  · simp [Sparse.read, Sparse.find_drop_other s h]
  · simp [Sparse.read, Sparse.find_put_other s v h]

theorem Sparse.wfFrom_mono [DecidableEq α] {f : Nat → α} {lo lo' : Nat} {s : Sparse α} (h : Sparse.wfFrom f lo s = true)
    (hl : lo' ≤ lo) : Sparse.wfFrom f lo' s = true := by
  cases s with
  | nil => rfl
  | cons e rest =>
    obtain ⟨k, w⟩ := e
    simp only [Sparse.wfFrom, Bool.and_eq_true, decide_eq_true_eq] at h ⊢
    exact ⟨⟨by omega, h.1.2⟩, h.2⟩

theorem Sparse.wfFrom_put [DecidableEq α] {f : Nat → α} {lo a : Nat} {v : α} {s : Sparse α} (h : Sparse.wfFrom f lo s = true)
    (ha : lo ≤ a) (hv : v ≠ f a) : Sparse.wfFrom f lo (s.put a v) = true := by
  induction s generalizing lo with
  | nil => simp [Sparse.put, Sparse.wfFrom, ha, hv]
  | cons e rest ih =>
    obtain ⟨k, w⟩ := e
    simp only [Sparse.wfFrom, Bool.and_eq_true, decide_eq_true_eq] at h
    simp only [Sparse.put]
    split
    · rename_i hk; subst hk; simp [Sparse.wfFrom, ha, hv, h.2]
    · split
      · rename_i hlt
        simp only [Sparse.wfFrom, Bool.and_eq_true, decide_eq_true_eq]
        exact ⟨⟨ha, hv⟩, ⟨by omega, h.1.2⟩, h.2⟩
      · rename_i hne hlt
        simp only [Sparse.wfFrom, Bool.and_eq_true, decide_eq_true_eq]
        exact ⟨h.1, ih h.2 (by omega)⟩

theorem Sparse.wfFrom_filter [DecidableEq α] {f : Nat → α} {lo : Nat} {s : Sparse α} (p : Nat × α → Bool)
    (h : Sparse.wfFrom f lo s = true) : Sparse.wfFrom f lo (s.filter p) = true := by
  induction s generalizing lo with
  | nil => rfl
  | cons e rest ih =>
    obtain ⟨k, w⟩ := e
    simp only [Sparse.wfFrom, Bool.and_eq_true, decide_eq_true_eq] at h
    rw [List.filter_cons]
    split
    · simp only [Sparse.wfFrom, Bool.and_eq_true, decide_eq_true_eq]
      exact ⟨h.1, ih h.2⟩
    · exact ih (Sparse.wfFrom_mono h.2 (by omega))

/-- A write keeps the canonical form. -/
theorem Sparse.wf_write [DecidableEq α] {f : Nat → α} {s : Sparse α} (a : Nat) (v : α) (h : Sparse.wf f s = true) :
    Sparse.wf f (Sparse.write f s a v) = true := by
  unfold Sparse.write
  split
  · exact Sparse.wfFrom_filter _ h
  · rename_i hv; exact Sparse.wfFrom_put h (Nat.zero_le _) hv

/-- Clearing a range keeps the canonical form. -/
theorem Sparse.wf_clear [DecidableEq α] {f : Nat → α} {s : Sparse α} (lo hi : Nat) (h : Sparse.wf f s = true) :
    Sparse.wf f (s.clear lo hi) = true := Sparse.wfFrom_filter _ h

/-- What a cleared store lists. -/
theorem Sparse.find_clear (s : Sparse α) (lo hi a : Nat) :
    (s.clear lo hi).find a = if lo ≤ a ∧ a < hi then none else s.find a := by
  rw [Sparse.clear, Sparse.find_filter s (fun k => decide (k < lo) || decide (hi ≤ k))]
  by_cases h : lo ≤ a ∧ a < hi
  · simp [h]
  · rw [if_neg h, if_pos]; simp; omega

/-! ### Memory -/

theorem Memory.byte_setByte_same (m : List Host.Cell) (a : Nat) (b : Byte) : Memory.byte (Memory.setByte m a b) a = b :=
  Sparse.read_write_same _ _ _ _

theorem Memory.byte_setByte_other (m : List Host.Cell) {a b : Nat} (v : Byte) (h : b ≠ a) :
    Memory.byte (Memory.setByte m a v) b = Memory.byte m b := Sparse.read_write_other _ _ _ h

/-- Every byte outside the written ones reads as before. -/
theorem Memory.byte_write_outside (m : List Host.Cell) (a : Nat) (bs : List Byte) {x : Nat}
    (h : x < a ∨ a + bs.length ≤ x) : Memory.byte (Memory.write m a bs) x = Memory.byte m x := by
  induction bs generalizing m a with
  | nil => rfl
  | cons b bs ih =>
    simp only [List.length_cons] at h
    rw [Memory.write, ih _ _ (by omega), Memory.byte_setByte_other _ _ (by omega)]

/-- A written byte reads as written. -/
theorem Memory.byte_write_inside (m : List Host.Cell) (a : Nat) (bs : List Byte) (i : Nat) (h : i < bs.length) :
    Memory.byte (Memory.write m a bs) (a + i) = bs[i] := by
  induction bs generalizing m a i with
  | nil => simp at h
  | cons b bs ih =>
    cases i with
    | zero =>
      simp only [Memory.write, Nat.add_zero, List.getElem_cons_zero]
      rw [Memory.byte_write_outside _ _ _ (Or.inl (by omega)), Memory.byte_setByte_same]
    | succ j =>
      simp only [List.length_cons] at h
      have := ih (Memory.setByte m a b) (a + 1) j (by omega)
      rw [show a + (j + 1) = a + 1 + j by omega]
      simpa [Memory.write] using this

theorem Memory.length_read (m : List Host.Cell) (a n : Nat) : (Memory.read m a n).length = n := by
  induction n generalizing a with
  | zero => rfl
  | succ n ih => simp [Memory.read, ih]

/-- A read after the write of the same bytes gives them. -/
theorem Memory.read_write_same (m : List Host.Cell) (a : Nat) (bs : List Byte) :
    Memory.read (Memory.write m a bs) a bs.length = bs := by
  induction bs generalizing m a with
  | nil => rfl
  | cons b bs ih =>
    simp only [Memory.write, List.length_cons, Memory.read]
    rw [ih, Memory.byte_write_outside _ _ _ (Or.inl (by omega)), Memory.byte_setByte_same]

/-- A read away from the written bytes gives what it gave. -/
theorem Memory.read_write_apart (m : List Host.Cell) (a : Nat) (bs : List Byte) (x n : Nat)
    (h : x + n ≤ a ∨ a + bs.length ≤ x) : Memory.read (Memory.write m a bs) x n = Memory.read m x n := by
  induction n generalizing x with
  | zero => rfl
  | succ n ih =>
    simp only [Memory.read]
    rw [ih (x + 1) (by omega), Memory.byte_write_outside _ _ _ (by omega)]

/-- Every memory operation keeps the canonical form. -/
theorem Memory.wf_setByte {m : List Host.Cell} (a : Nat) (b : Byte) (h : Memory.wf m = true) :
    Memory.wf (Memory.setByte m a b) = true := Sparse.wf_write a b h

theorem Memory.wf_write {m : List Host.Cell} (a : Nat) (bs : List Byte) (h : Memory.wf m = true) :
    Memory.wf (Memory.write m a bs) = true := by
  induction bs generalizing m a with
  | nil => exact h
  | cons b bs ih => exact ih (a + 1) (Memory.wf_setByte a b h)

theorem Memory.wf_zero {m : List Host.Cell} (a n : Nat) (h : Memory.wf m = true) : Memory.wf (Memory.zero m a n) = true :=
  Sparse.wf_clear _ _ h

theorem Memory.byte_zero (m : List Host.Cell) (a n x : Nat) :
    Memory.byte (Memory.zero m a n) x = if a ≤ x ∧ x < a + n then 0 else Memory.byte m x := by
  unfold Memory.byte Memory.zero Sparse.read
  rw [Sparse.find_clear]
  split <;> simp [Memory.dflt]

end Sys2Proof.Machine
end

