-- ==== Sys2Proof/Laws/State.lean ====
section
/-! SUPPORT. One lemma per field of the device per update: what an update of the device leaves as it was. -/

namespace Sys2Proof.Machine

/-! ### The register word updates: every part but the registers is kept -/

@[simp] theorem Dev.setWord_draws (d : Dev) (a v : Nat) : (d.setWord a v).draws = d.draws := rfl
@[simp] theorem Dev.setWord_ns (d : Dev) (a v : Nat) : (d.setWord a v).ns = d.ns := rfl
@[simp] theorem Dev.setWord_frac (d : Dev) (a v : Nat) : (d.setWord a v).frac = d.frac := rfl
@[simp] theorem Dev.setWord_port (d : Dev) (a v : Nat) : (d.setWord a v).port = d.port := rfl
@[simp] theorem Dev.setWord_front (d : Dev) (a v : Nat) : (d.setWord a v).front = d.front := rfl
@[simp] theorem Dev.setWord_plan (d : Dev) (a v : Nat) : (d.setWord a v).plan = d.plan := rfl
@[simp] theorem Dev.setWord_lens (d : Dev) (a v : Nat) : (d.setWord a v).lens = d.lens := rfl
@[simp] theorem Dev.setWord_seq (d : Dev) (a v : Nat) : (d.setWord a v).seq = d.seq := rfl
@[simp] theorem Dev.setWord_sync (d : Dev) (a v : Nat) : (d.setWord a v).sync = d.sync := rfl
@[simp] theorem Dev.setWord_fab (d : Dev) (a v : Nat) : (d.setWord a v).fab = d.fab := rfl
@[simp] theorem Dev.setWord_lpe (d : Dev) (a v : Nat) : (d.setWord a v).lpe = d.lpe := rfl
@[simp] theorem Dev.setWord_ctl (d : Dev) (a v : Nat) : (d.setWord a v).ctl = d.ctl := rfl
@[simp] theorem Dev.setWord_jrn (d : Dev) (a v : Nat) : (d.setWord a v).jrn = d.jrn := rfl
@[simp] theorem Dev.setWord_nvm (d : Dev) (a v : Nat) : (d.setWord a v).nvm = d.nvm := rfl
@[simp] theorem Dev.setWord_life (d : Dev) (a v : Nat) : (d.setWord a v).life = d.life := rfl
@[simp] theorem Dev.setWord_sec (d : Dev) (a v : Nat) : (d.setWord a v).sec = d.sec := rfl
@[simp] theorem Dev.setWord_sup (d : Dev) (a v : Nat) : (d.setWord a v).sup = d.sup := rfl

@[simp] theorem Dev.put_draws (d : Dev) (r : Fld) (v : Nat) : (d.put r v).draws = d.draws := rfl
@[simp] theorem Dev.put_ns (d : Dev) (r : Fld) (v : Nat) : (d.put r v).ns = d.ns := rfl
@[simp] theorem Dev.put_frac (d : Dev) (r : Fld) (v : Nat) : (d.put r v).frac = d.frac := rfl
@[simp] theorem Dev.put_port (d : Dev) (r : Fld) (v : Nat) : (d.put r v).port = d.port := rfl
@[simp] theorem Dev.put_front (d : Dev) (r : Fld) (v : Nat) : (d.put r v).front = d.front := rfl
@[simp] theorem Dev.put_plan (d : Dev) (r : Fld) (v : Nat) : (d.put r v).plan = d.plan := rfl
@[simp] theorem Dev.put_lens (d : Dev) (r : Fld) (v : Nat) : (d.put r v).lens = d.lens := rfl
@[simp] theorem Dev.put_seq (d : Dev) (r : Fld) (v : Nat) : (d.put r v).seq = d.seq := rfl
@[simp] theorem Dev.put_sync (d : Dev) (r : Fld) (v : Nat) : (d.put r v).sync = d.sync := rfl
@[simp] theorem Dev.put_fab (d : Dev) (r : Fld) (v : Nat) : (d.put r v).fab = d.fab := rfl
@[simp] theorem Dev.put_lpe (d : Dev) (r : Fld) (v : Nat) : (d.put r v).lpe = d.lpe := rfl
@[simp] theorem Dev.put_ctl (d : Dev) (r : Fld) (v : Nat) : (d.put r v).ctl = d.ctl := rfl
@[simp] theorem Dev.put_jrn (d : Dev) (r : Fld) (v : Nat) : (d.put r v).jrn = d.jrn := rfl
@[simp] theorem Dev.put_nvm (d : Dev) (r : Fld) (v : Nat) : (d.put r v).nvm = d.nvm := rfl
@[simp] theorem Dev.put_life (d : Dev) (r : Fld) (v : Nat) : (d.put r v).life = d.life := rfl
@[simp] theorem Dev.put_sec (d : Dev) (r : Fld) (v : Nat) : (d.put r v).sec = d.sec := rfl
@[simp] theorem Dev.put_sup (d : Dev) (r : Fld) (v : Nat) : (d.put r v).sup = d.sup := rfl

@[simp] theorem Dev.bump_draws (d : Dev) (a n : Nat) : (d.bump a n).draws = d.draws := by unfold Dev.bump; split <;> rfl
@[simp] theorem Dev.bump_ns (d : Dev) (a n : Nat) : (d.bump a n).ns = d.ns := by unfold Dev.bump; split <;> rfl
@[simp] theorem Dev.bump_frac (d : Dev) (a n : Nat) : (d.bump a n).frac = d.frac := by unfold Dev.bump; split <;> rfl
@[simp] theorem Dev.bump_port (d : Dev) (a n : Nat) : (d.bump a n).port = d.port := by unfold Dev.bump; split <;> rfl
@[simp] theorem Dev.bump_front (d : Dev) (a n : Nat) : (d.bump a n).front = d.front := by unfold Dev.bump; split <;> rfl
@[simp] theorem Dev.bump_plan (d : Dev) (a n : Nat) : (d.bump a n).plan = d.plan := by unfold Dev.bump; split <;> rfl
@[simp] theorem Dev.bump_lens (d : Dev) (a n : Nat) : (d.bump a n).lens = d.lens := by unfold Dev.bump; split <;> rfl
@[simp] theorem Dev.bump_seq (d : Dev) (a n : Nat) : (d.bump a n).seq = d.seq := by unfold Dev.bump; split <;> rfl
@[simp] theorem Dev.bump_sync (d : Dev) (a n : Nat) : (d.bump a n).sync = d.sync := by unfold Dev.bump; split <;> rfl
@[simp] theorem Dev.bump_fab (d : Dev) (a n : Nat) : (d.bump a n).fab = d.fab := by unfold Dev.bump; split <;> rfl
@[simp] theorem Dev.bump_lpe (d : Dev) (a n : Nat) : (d.bump a n).lpe = d.lpe := by unfold Dev.bump; split <;> rfl
@[simp] theorem Dev.bump_ctl (d : Dev) (a n : Nat) : (d.bump a n).ctl = d.ctl := by unfold Dev.bump; split <;> rfl
@[simp] theorem Dev.bump_jrn (d : Dev) (a n : Nat) : (d.bump a n).jrn = d.jrn := by unfold Dev.bump; split <;> rfl
@[simp] theorem Dev.bump_nvm (d : Dev) (a n : Nat) : (d.bump a n).nvm = d.nvm := by unfold Dev.bump; split <;> rfl
@[simp] theorem Dev.bump_life (d : Dev) (a n : Nat) : (d.bump a n).life = d.life := by unfold Dev.bump; split <;> rfl
@[simp] theorem Dev.bump_sec (d : Dev) (a n : Nat) : (d.bump a n).sec = d.sec := by unfold Dev.bump; split <;> rfl
@[simp] theorem Dev.bump_sup (d : Dev) (a n : Nat) : (d.bump a n).sup = d.sup := by unfold Dev.bump; split <;> rfl

@[simp] theorem Dev.peak_draws (d : Dev) (r : Fld) (v : Nat) : (d.peak r v).draws = d.draws := by unfold Dev.peak; split <;> rfl
@[simp] theorem Dev.peak_ns (d : Dev) (r : Fld) (v : Nat) : (d.peak r v).ns = d.ns := by unfold Dev.peak; split <;> rfl
@[simp] theorem Dev.peak_frac (d : Dev) (r : Fld) (v : Nat) : (d.peak r v).frac = d.frac := by unfold Dev.peak; split <;> rfl
@[simp] theorem Dev.peak_port (d : Dev) (r : Fld) (v : Nat) : (d.peak r v).port = d.port := by unfold Dev.peak; split <;> rfl
@[simp] theorem Dev.peak_front (d : Dev) (r : Fld) (v : Nat) : (d.peak r v).front = d.front := by unfold Dev.peak; split <;> rfl
@[simp] theorem Dev.peak_plan (d : Dev) (r : Fld) (v : Nat) : (d.peak r v).plan = d.plan := by unfold Dev.peak; split <;> rfl
@[simp] theorem Dev.peak_lens (d : Dev) (r : Fld) (v : Nat) : (d.peak r v).lens = d.lens := by unfold Dev.peak; split <;> rfl
@[simp] theorem Dev.peak_seq (d : Dev) (r : Fld) (v : Nat) : (d.peak r v).seq = d.seq := by unfold Dev.peak; split <;> rfl
@[simp] theorem Dev.peak_sync (d : Dev) (r : Fld) (v : Nat) : (d.peak r v).sync = d.sync := by unfold Dev.peak; split <;> rfl
@[simp] theorem Dev.peak_fab (d : Dev) (r : Fld) (v : Nat) : (d.peak r v).fab = d.fab := by unfold Dev.peak; split <;> rfl
@[simp] theorem Dev.peak_lpe (d : Dev) (r : Fld) (v : Nat) : (d.peak r v).lpe = d.lpe := by unfold Dev.peak; split <;> rfl
@[simp] theorem Dev.peak_ctl (d : Dev) (r : Fld) (v : Nat) : (d.peak r v).ctl = d.ctl := by unfold Dev.peak; split <;> rfl
@[simp] theorem Dev.peak_jrn (d : Dev) (r : Fld) (v : Nat) : (d.peak r v).jrn = d.jrn := by unfold Dev.peak; split <;> rfl
@[simp] theorem Dev.peak_nvm (d : Dev) (r : Fld) (v : Nat) : (d.peak r v).nvm = d.nvm := by unfold Dev.peak; split <;> rfl
@[simp] theorem Dev.peak_life (d : Dev) (r : Fld) (v : Nat) : (d.peak r v).life = d.life := by unfold Dev.peak; split <;> rfl
@[simp] theorem Dev.peak_sec (d : Dev) (r : Fld) (v : Nat) : (d.peak r v).sec = d.sec := by unfold Dev.peak; split <;> rfl
@[simp] theorem Dev.peak_sup (d : Dev) (r : Fld) (v : Nat) : (d.peak r v).sup = d.sup := by unfold Dev.peak; split <;> rfl

/-! ### The time base -/

@[simp] theorem Dev.advance_regs (d : Dev) (t : Nat) : (d.advance t).regs = d.regs := by unfold Dev.advance; split <;> rfl
@[simp] theorem Dev.advance_draws (d : Dev) (t : Nat) : (d.advance t).draws = d.draws := by unfold Dev.advance; split <;> rfl
@[simp] theorem Dev.advance_port (d : Dev) (t : Nat) : (d.advance t).port = d.port := by unfold Dev.advance; split <;> rfl
@[simp] theorem Dev.advance_front (d : Dev) (t : Nat) : (d.advance t).front = d.front := by unfold Dev.advance; split <;> rfl
@[simp] theorem Dev.advance_plan (d : Dev) (t : Nat) : (d.advance t).plan = d.plan := by unfold Dev.advance; split <;> rfl
@[simp] theorem Dev.advance_lens (d : Dev) (t : Nat) : (d.advance t).lens = d.lens := by unfold Dev.advance; split <;> rfl
@[simp] theorem Dev.advance_seq (d : Dev) (t : Nat) : (d.advance t).seq = d.seq := by unfold Dev.advance; split <;> rfl
@[simp] theorem Dev.advance_sync (d : Dev) (t : Nat) : (d.advance t).sync = d.sync := by unfold Dev.advance; split <;> rfl
@[simp] theorem Dev.advance_fab (d : Dev) (t : Nat) : (d.advance t).fab = d.fab := by unfold Dev.advance; split <;> rfl
@[simp] theorem Dev.advance_lpe (d : Dev) (t : Nat) : (d.advance t).lpe = d.lpe := by unfold Dev.advance; split <;> rfl
@[simp] theorem Dev.advance_ctl (d : Dev) (t : Nat) : (d.advance t).ctl = d.ctl := by unfold Dev.advance; split <;> rfl
@[simp] theorem Dev.advance_jrn (d : Dev) (t : Nat) : (d.advance t).jrn = d.jrn := by unfold Dev.advance; split <;> rfl
@[simp] theorem Dev.advance_nvm (d : Dev) (t : Nat) : (d.advance t).nvm = d.nvm := by unfold Dev.advance; split <;> rfl
@[simp] theorem Dev.advance_life (d : Dev) (t : Nat) : (d.advance t).life = d.life := by unfold Dev.advance; split <;> rfl
@[simp] theorem Dev.advance_sec (d : Dev) (t : Nat) : (d.advance t).sec = d.sec := by unfold Dev.advance; split <;> rfl
@[simp] theorem Dev.advance_sup (d : Dev) (t : Nat) : (d.advance t).sup = d.sup := by unfold Dev.advance; split <;> rfl
@[simp] theorem Dev.advance_ns (d : Dev) (t : Nat) : (d.advance t).ns = max d.ns t := by
  unfold Dev.advance; split <;> simp <;> omega

/-! ### Memories -/

@[simp] theorem Dev.memWrite_regs (d : Dev) (a : Nat) (bs : List Byte) : (d.memWrite a bs).regs = d.regs := rfl
@[simp] theorem Dev.memWrite_draws (d : Dev) (a : Nat) (bs : List Byte) : (d.memWrite a bs).draws = d.draws := rfl
@[simp] theorem Dev.memWrite_ns (d : Dev) (a : Nat) (bs : List Byte) : (d.memWrite a bs).ns = d.ns := rfl
@[simp] theorem Dev.memWrite_frac (d : Dev) (a : Nat) (bs : List Byte) : (d.memWrite a bs).frac = d.frac := rfl
@[simp] theorem Dev.memWrite_port (d : Dev) (a : Nat) (bs : List Byte) : (d.memWrite a bs).port = d.port := rfl
@[simp] theorem Dev.memWrite_front (d : Dev) (a : Nat) (bs : List Byte) : (d.memWrite a bs).front = d.front := rfl
@[simp] theorem Dev.memWrite_plan (d : Dev) (a : Nat) (bs : List Byte) : (d.memWrite a bs).plan = d.plan := rfl
@[simp] theorem Dev.memWrite_lens (d : Dev) (a : Nat) (bs : List Byte) : (d.memWrite a bs).lens = d.lens := rfl
@[simp] theorem Dev.memWrite_seq (d : Dev) (a : Nat) (bs : List Byte) : (d.memWrite a bs).seq = d.seq := rfl
@[simp] theorem Dev.memWrite_sync (d : Dev) (a : Nat) (bs : List Byte) : (d.memWrite a bs).sync = d.sync := rfl
@[simp] theorem Dev.memWrite_lpe (d : Dev) (a : Nat) (bs : List Byte) : (d.memWrite a bs).lpe = d.lpe := rfl
@[simp] theorem Dev.memWrite_ctl (d : Dev) (a : Nat) (bs : List Byte) : (d.memWrite a bs).ctl = d.ctl := rfl
@[simp] theorem Dev.memWrite_jrn (d : Dev) (a : Nat) (bs : List Byte) : (d.memWrite a bs).jrn = d.jrn := rfl
@[simp] theorem Dev.memWrite_nvm (d : Dev) (a : Nat) (bs : List Byte) : (d.memWrite a bs).nvm = d.nvm := rfl
@[simp] theorem Dev.memWrite_life (d : Dev) (a : Nat) (bs : List Byte) : (d.memWrite a bs).life = d.life := rfl
@[simp] theorem Dev.memWrite_sec (d : Dev) (a : Nat) (bs : List Byte) : (d.memWrite a bs).sec = d.sec := rfl
@[simp] theorem Dev.memWrite_sup (d : Dev) (a : Nat) (bs : List Byte) : (d.memWrite a bs).sup = d.sup := rfl
@[simp] theorem Dev.memWrite_fab_mem (d : Dev) (a : Nat) (bs : List Byte) : (d.memWrite a bs).fab.mem = Memory.write d.fab.mem a bs := rfl
@[simp] theorem Dev.memWrite_fab_core (d : Dev) (a : Nat) (bs : List Byte) : (d.memWrite a bs).fab.core = d.fab.core := rfl
@[simp] theorem Dev.memWrite_fab_poison (d : Dev) (a : Nat) (bs : List Byte) : (d.memWrite a bs).fab.poison = d.fab.poison := rfl
@[simp] theorem Dev.memWrite_fab_chanErrs (d : Dev) (a : Nat) (bs : List Byte) : (d.memWrite a bs).fab.chanErrs = d.fab.chanErrs := rfl
@[simp] theorem Dev.memWrite_fab_retiring (d : Dev) (a : Nat) (bs : List Byte) : (d.memWrite a bs).fab.retiring = d.fab.retiring := rfl
@[simp] theorem Dev.memWrite_fab_inOps (d : Dev) (a : Nat) (bs : List Byte) : (d.memWrite a bs).fab.inOps = d.fab.inOps := rfl
@[simp] theorem Dev.memWrite_fab_openWrites (d : Dev) (a : Nat) (bs : List Byte) : (d.memWrite a bs).fab.openWrites = d.fab.openWrites := rfl
@[simp] theorem Dev.memWrite_fab_out (d : Dev) (a : Nat) (bs : List Byte) : (d.memWrite a bs).fab.out = d.fab.out := rfl
@[simp] theorem Dev.memWrite_fab_held (d : Dev) (a : Nat) (bs : List Byte) : (d.memWrite a bs).fab.held = d.fab.held := rfl
@[simp] theorem Dev.memWrite_fab_answers (d : Dev) (a : Nat) (bs : List Byte) : (d.memWrite a bs).fab.answers = d.fab.answers := rfl
@[simp] theorem Dev.memWrite_fab_pairTx (d : Dev) (a : Nat) (bs : List Byte) : (d.memWrite a bs).fab.pairTx = d.fab.pairTx := rfl
@[simp] theorem Dev.memWrite_fab_pairRx (d : Dev) (a : Nat) (bs : List Byte) : (d.memWrite a bs).fab.pairRx = d.fab.pairRx := rfl
@[simp] theorem Dev.memWrite_fab_links (d : Dev) (a : Nat) (bs : List Byte) : (d.memWrite a bs).fab.links = d.fab.links := rfl
@[simp] theorem Dev.memWrite_fab_hall (d : Dev) (a : Nat) (bs : List Byte) : (d.memWrite a bs).fab.hall = d.fab.hall := rfl
@[simp] theorem Dev.coreWrite_regs (d : Dev) (c a : Nat) (bs : List Byte) : (d.coreWrite c a bs).regs = d.regs := rfl
@[simp] theorem Dev.coreWrite_draws (d : Dev) (c a : Nat) (bs : List Byte) : (d.coreWrite c a bs).draws = d.draws := rfl
@[simp] theorem Dev.coreWrite_ns (d : Dev) (c a : Nat) (bs : List Byte) : (d.coreWrite c a bs).ns = d.ns := rfl
@[simp] theorem Dev.coreWrite_frac (d : Dev) (c a : Nat) (bs : List Byte) : (d.coreWrite c a bs).frac = d.frac := rfl
@[simp] theorem Dev.coreWrite_port (d : Dev) (c a : Nat) (bs : List Byte) : (d.coreWrite c a bs).port = d.port := rfl
@[simp] theorem Dev.coreWrite_front (d : Dev) (c a : Nat) (bs : List Byte) : (d.coreWrite c a bs).front = d.front := rfl
@[simp] theorem Dev.coreWrite_plan (d : Dev) (c a : Nat) (bs : List Byte) : (d.coreWrite c a bs).plan = d.plan := rfl
@[simp] theorem Dev.coreWrite_lens (d : Dev) (c a : Nat) (bs : List Byte) : (d.coreWrite c a bs).lens = d.lens := rfl
@[simp] theorem Dev.coreWrite_seq (d : Dev) (c a : Nat) (bs : List Byte) : (d.coreWrite c a bs).seq = d.seq := rfl
@[simp] theorem Dev.coreWrite_sync (d : Dev) (c a : Nat) (bs : List Byte) : (d.coreWrite c a bs).sync = d.sync := rfl
@[simp] theorem Dev.coreWrite_lpe (d : Dev) (c a : Nat) (bs : List Byte) : (d.coreWrite c a bs).lpe = d.lpe := rfl
@[simp] theorem Dev.coreWrite_ctl (d : Dev) (c a : Nat) (bs : List Byte) : (d.coreWrite c a bs).ctl = d.ctl := rfl
@[simp] theorem Dev.coreWrite_jrn (d : Dev) (c a : Nat) (bs : List Byte) : (d.coreWrite c a bs).jrn = d.jrn := rfl
@[simp] theorem Dev.coreWrite_nvm (d : Dev) (c a : Nat) (bs : List Byte) : (d.coreWrite c a bs).nvm = d.nvm := rfl
@[simp] theorem Dev.coreWrite_life (d : Dev) (c a : Nat) (bs : List Byte) : (d.coreWrite c a bs).life = d.life := rfl
@[simp] theorem Dev.coreWrite_sec (d : Dev) (c a : Nat) (bs : List Byte) : (d.coreWrite c a bs).sec = d.sec := rfl
@[simp] theorem Dev.coreWrite_sup (d : Dev) (c a : Nat) (bs : List Byte) : (d.coreWrite c a bs).sup = d.sup := rfl
@[simp] theorem Dev.coreWrite_fab_mem (d : Dev) (c a : Nat) (bs : List Byte) : (d.coreWrite c a bs).fab.mem = d.fab.mem := rfl
@[simp] theorem Dev.coreWrite_fab_core (d : Dev) (c a : Nat) (bs : List Byte) : (d.coreWrite c a bs).fab.core = Memory.write d.fab.core (c * 0x80000 + a) bs := rfl
@[simp] theorem Dev.coreWrite_fab_poison (d : Dev) (c a : Nat) (bs : List Byte) : (d.coreWrite c a bs).fab.poison = d.fab.poison := rfl
@[simp] theorem Dev.coreWrite_fab_chanErrs (d : Dev) (c a : Nat) (bs : List Byte) : (d.coreWrite c a bs).fab.chanErrs = d.fab.chanErrs := rfl
@[simp] theorem Dev.coreWrite_fab_retiring (d : Dev) (c a : Nat) (bs : List Byte) : (d.coreWrite c a bs).fab.retiring = d.fab.retiring := rfl
@[simp] theorem Dev.coreWrite_fab_inOps (d : Dev) (c a : Nat) (bs : List Byte) : (d.coreWrite c a bs).fab.inOps = d.fab.inOps := rfl
@[simp] theorem Dev.coreWrite_fab_openWrites (d : Dev) (c a : Nat) (bs : List Byte) : (d.coreWrite c a bs).fab.openWrites = d.fab.openWrites := rfl
@[simp] theorem Dev.coreWrite_fab_out (d : Dev) (c a : Nat) (bs : List Byte) : (d.coreWrite c a bs).fab.out = d.fab.out := rfl
@[simp] theorem Dev.coreWrite_fab_held (d : Dev) (c a : Nat) (bs : List Byte) : (d.coreWrite c a bs).fab.held = d.fab.held := rfl
@[simp] theorem Dev.coreWrite_fab_answers (d : Dev) (c a : Nat) (bs : List Byte) : (d.coreWrite c a bs).fab.answers = d.fab.answers := rfl
@[simp] theorem Dev.coreWrite_fab_pairTx (d : Dev) (c a : Nat) (bs : List Byte) : (d.coreWrite c a bs).fab.pairTx = d.fab.pairTx := rfl
@[simp] theorem Dev.coreWrite_fab_pairRx (d : Dev) (c a : Nat) (bs : List Byte) : (d.coreWrite c a bs).fab.pairRx = d.fab.pairRx := rfl
@[simp] theorem Dev.coreWrite_fab_links (d : Dev) (c a : Nat) (bs : List Byte) : (d.coreWrite c a bs).fab.links = d.fab.links := rfl
@[simp] theorem Dev.coreWrite_fab_hall (d : Dev) (c a : Nat) (bs : List Byte) : (d.coreWrite c a bs).fab.hall = d.fab.hall := rfl

/-! ### Loupe's records -/

@[simp] theorem Dev.health_regs (d : Dev) (e i x : Nat) : (d.health e i x).regs = d.regs := rfl
@[simp] theorem Dev.health_draws (d : Dev) (e i x : Nat) : (d.health e i x).draws = d.draws := rfl
@[simp] theorem Dev.health_ns (d : Dev) (e i x : Nat) : (d.health e i x).ns = d.ns := rfl
@[simp] theorem Dev.health_frac (d : Dev) (e i x : Nat) : (d.health e i x).frac = d.frac := rfl
@[simp] theorem Dev.health_port (d : Dev) (e i x : Nat) : (d.health e i x).port = d.port := rfl
@[simp] theorem Dev.health_front (d : Dev) (e i x : Nat) : (d.health e i x).front = d.front := rfl
@[simp] theorem Dev.health_plan (d : Dev) (e i x : Nat) : (d.health e i x).plan = d.plan := rfl
@[simp] theorem Dev.health_lens (d : Dev) (e i x : Nat) : (d.health e i x).lens = d.lens := rfl
@[simp] theorem Dev.health_seq (d : Dev) (e i x : Nat) : (d.health e i x).seq = d.seq := rfl
@[simp] theorem Dev.health_sync (d : Dev) (e i x : Nat) : (d.health e i x).sync = d.sync := rfl
@[simp] theorem Dev.health_fab (d : Dev) (e i x : Nat) : (d.health e i x).fab = d.fab := rfl
@[simp] theorem Dev.health_ctl (d : Dev) (e i x : Nat) : (d.health e i x).ctl = d.ctl := rfl
@[simp] theorem Dev.health_jrn (d : Dev) (e i x : Nat) : (d.health e i x).jrn = d.jrn := rfl
@[simp] theorem Dev.health_nvm (d : Dev) (e i x : Nat) : (d.health e i x).nvm = d.nvm := rfl
@[simp] theorem Dev.health_life (d : Dev) (e i x : Nat) : (d.health e i x).life = d.life := rfl
@[simp] theorem Dev.health_sec (d : Dev) (e i x : Nat) : (d.health e i x).sec = d.sec := rfl
@[simp] theorem Dev.health_sup (d : Dev) (e i x : Nat) : (d.health e i x).sup = d.sup := rfl
@[simp] theorem Dev.lifeEntry_regs (d : Dev) (k s : Nat) (b : List Byte) (c : Bool) : (d.lifeEntry k s b c).regs = d.regs := rfl
@[simp] theorem Dev.lifeEntry_draws (d : Dev) (k s : Nat) (b : List Byte) (c : Bool) : (d.lifeEntry k s b c).draws = d.draws := rfl
@[simp] theorem Dev.lifeEntry_ns (d : Dev) (k s : Nat) (b : List Byte) (c : Bool) : (d.lifeEntry k s b c).ns = d.ns := rfl
@[simp] theorem Dev.lifeEntry_frac (d : Dev) (k s : Nat) (b : List Byte) (c : Bool) : (d.lifeEntry k s b c).frac = d.frac := rfl
@[simp] theorem Dev.lifeEntry_port (d : Dev) (k s : Nat) (b : List Byte) (c : Bool) : (d.lifeEntry k s b c).port = d.port := rfl
@[simp] theorem Dev.lifeEntry_front (d : Dev) (k s : Nat) (b : List Byte) (c : Bool) : (d.lifeEntry k s b c).front = d.front := rfl
@[simp] theorem Dev.lifeEntry_plan (d : Dev) (k s : Nat) (b : List Byte) (c : Bool) : (d.lifeEntry k s b c).plan = d.plan := rfl
@[simp] theorem Dev.lifeEntry_lens (d : Dev) (k s : Nat) (b : List Byte) (c : Bool) : (d.lifeEntry k s b c).lens = d.lens := rfl
@[simp] theorem Dev.lifeEntry_seq (d : Dev) (k s : Nat) (b : List Byte) (c : Bool) : (d.lifeEntry k s b c).seq = d.seq := rfl
@[simp] theorem Dev.lifeEntry_sync (d : Dev) (k s : Nat) (b : List Byte) (c : Bool) : (d.lifeEntry k s b c).sync = d.sync := rfl
@[simp] theorem Dev.lifeEntry_fab (d : Dev) (k s : Nat) (b : List Byte) (c : Bool) : (d.lifeEntry k s b c).fab = d.fab := rfl
@[simp] theorem Dev.lifeEntry_ctl (d : Dev) (k s : Nat) (b : List Byte) (c : Bool) : (d.lifeEntry k s b c).ctl = d.ctl := rfl
@[simp] theorem Dev.lifeEntry_jrn (d : Dev) (k s : Nat) (b : List Byte) (c : Bool) : (d.lifeEntry k s b c).jrn = d.jrn := rfl
@[simp] theorem Dev.lifeEntry_nvm (d : Dev) (k s : Nat) (b : List Byte) (c : Bool) : (d.lifeEntry k s b c).nvm = d.nvm := rfl
@[simp] theorem Dev.lifeEntry_life (d : Dev) (k s : Nat) (b : List Byte) (c : Bool) : (d.lifeEntry k s b c).life = d.life := rfl
@[simp] theorem Dev.lifeEntry_sec (d : Dev) (k s : Nat) (b : List Byte) (c : Bool) : (d.lifeEntry k s b c).sec = d.sec := rfl
@[simp] theorem Dev.lifeEntry_sup (d : Dev) (k s : Nat) (b : List Byte) (c : Bool) : (d.lifeEntry k s b c).sup = d.sup := rfl
@[simp] theorem Dev.standingWrite_regs (d : Dev) : (d.standingWrite).regs = d.regs := by unfold Dev.standingWrite; split <;> rfl
@[simp] theorem Dev.standingWrite_draws (d : Dev) : (d.standingWrite).draws = d.draws := by unfold Dev.standingWrite; split <;> rfl
@[simp] theorem Dev.standingWrite_ns (d : Dev) : (d.standingWrite).ns = d.ns := by unfold Dev.standingWrite; split <;> rfl
@[simp] theorem Dev.standingWrite_frac (d : Dev) : (d.standingWrite).frac = d.frac := by unfold Dev.standingWrite; split <;> rfl
@[simp] theorem Dev.standingWrite_port (d : Dev) : (d.standingWrite).port = d.port := by unfold Dev.standingWrite; split <;> rfl
@[simp] theorem Dev.standingWrite_front (d : Dev) : (d.standingWrite).front = d.front := by unfold Dev.standingWrite; split <;> rfl
@[simp] theorem Dev.standingWrite_plan (d : Dev) : (d.standingWrite).plan = d.plan := by unfold Dev.standingWrite; split <;> rfl
@[simp] theorem Dev.standingWrite_lens (d : Dev) : (d.standingWrite).lens = d.lens := by unfold Dev.standingWrite; split <;> rfl
@[simp] theorem Dev.standingWrite_seq (d : Dev) : (d.standingWrite).seq = d.seq := by unfold Dev.standingWrite; split <;> rfl
@[simp] theorem Dev.standingWrite_sync (d : Dev) : (d.standingWrite).sync = d.sync := by unfold Dev.standingWrite; split <;> rfl
@[simp] theorem Dev.standingWrite_fab (d : Dev) : (d.standingWrite).fab = d.fab := by unfold Dev.standingWrite; split <;> rfl
@[simp] theorem Dev.standingWrite_ctl (d : Dev) : (d.standingWrite).ctl = d.ctl := by unfold Dev.standingWrite; split <;> rfl
@[simp] theorem Dev.standingWrite_jrn (d : Dev) : (d.standingWrite).jrn = d.jrn := by unfold Dev.standingWrite; split <;> rfl
@[simp] theorem Dev.standingWrite_nvm (d : Dev) : (d.standingWrite).nvm = d.nvm := by unfold Dev.standingWrite; split <;> rfl
@[simp] theorem Dev.standingWrite_life (d : Dev) : (d.standingWrite).life = d.life := by unfold Dev.standingWrite; split <;> rfl
@[simp] theorem Dev.standingWrite_sec (d : Dev) : (d.standingWrite).sec = d.sec := by unfold Dev.standingWrite; split <;> rfl
@[simp] theorem Dev.standingWrite_sup (d : Dev) : (d.standingWrite).sup = d.sup := by unfold Dev.standingWrite; split <;> rfl
@[simp] theorem Dev.dramUse_regs (d : Dev) (n : Nat) : (d.dramUse n).regs = d.regs := rfl
@[simp] theorem Dev.dramUse_draws (d : Dev) (n : Nat) : (d.dramUse n).draws = d.draws := rfl
@[simp] theorem Dev.dramUse_ns (d : Dev) (n : Nat) : (d.dramUse n).ns = d.ns := rfl
@[simp] theorem Dev.dramUse_frac (d : Dev) (n : Nat) : (d.dramUse n).frac = d.frac := rfl
@[simp] theorem Dev.dramUse_port (d : Dev) (n : Nat) : (d.dramUse n).port = d.port := rfl
@[simp] theorem Dev.dramUse_front (d : Dev) (n : Nat) : (d.dramUse n).front = d.front := rfl
@[simp] theorem Dev.dramUse_plan (d : Dev) (n : Nat) : (d.dramUse n).plan = d.plan := rfl
@[simp] theorem Dev.dramUse_lens (d : Dev) (n : Nat) : (d.dramUse n).lens = d.lens := rfl
@[simp] theorem Dev.dramUse_seq (d : Dev) (n : Nat) : (d.dramUse n).seq = d.seq := rfl
@[simp] theorem Dev.dramUse_sync (d : Dev) (n : Nat) : (d.dramUse n).sync = d.sync := rfl
@[simp] theorem Dev.dramUse_fab (d : Dev) (n : Nat) : (d.dramUse n).fab = d.fab := rfl
@[simp] theorem Dev.dramUse_ctl (d : Dev) (n : Nat) : (d.dramUse n).ctl = d.ctl := rfl
@[simp] theorem Dev.dramUse_jrn (d : Dev) (n : Nat) : (d.dramUse n).jrn = d.jrn := rfl
@[simp] theorem Dev.dramUse_nvm (d : Dev) (n : Nat) : (d.dramUse n).nvm = d.nvm := rfl
@[simp] theorem Dev.dramUse_life (d : Dev) (n : Nat) : (d.dramUse n).life = d.life := rfl
@[simp] theorem Dev.dramUse_sec (d : Dev) (n : Nat) : (d.dramUse n).sec = d.sec := rfl
@[simp] theorem Dev.dramUse_sup (d : Dev) (n : Nat) : (d.dramUse n).sup = d.sup := rfl

/-! ### Life-cycle records -/

@[simp] theorem Dev.withLife_regs (d : Dev) (l : Life) : (d.withLife l).regs = d.regs := rfl
@[simp] theorem Dev.withLife_draws (d : Dev) (l : Life) : (d.withLife l).draws = d.draws := rfl
@[simp] theorem Dev.withLife_ns (d : Dev) (l : Life) : (d.withLife l).ns = d.ns := rfl
@[simp] theorem Dev.withLife_frac (d : Dev) (l : Life) : (d.withLife l).frac = d.frac := rfl
@[simp] theorem Dev.withLife_port (d : Dev) (l : Life) : (d.withLife l).port = d.port := rfl
@[simp] theorem Dev.withLife_front (d : Dev) (l : Life) : (d.withLife l).front = d.front := rfl
@[simp] theorem Dev.withLife_plan (d : Dev) (l : Life) : (d.withLife l).plan = d.plan := rfl
@[simp] theorem Dev.withLife_lens (d : Dev) (l : Life) : (d.withLife l).lens = d.lens := rfl
@[simp] theorem Dev.withLife_seq (d : Dev) (l : Life) : (d.withLife l).seq = d.seq := rfl
@[simp] theorem Dev.withLife_sync (d : Dev) (l : Life) : (d.withLife l).sync = d.sync := rfl
@[simp] theorem Dev.withLife_fab (d : Dev) (l : Life) : (d.withLife l).fab = d.fab := rfl
@[simp] theorem Dev.withLife_lpe (d : Dev) (l : Life) : (d.withLife l).lpe = d.lpe := rfl
@[simp] theorem Dev.withLife_ctl (d : Dev) (l : Life) : (d.withLife l).ctl = d.ctl := rfl
@[simp] theorem Dev.withLife_jrn (d : Dev) (l : Life) : (d.withLife l).jrn = d.jrn := rfl
@[simp] theorem Dev.withLife_nvm (d : Dev) (l : Life) : (d.withLife l).nvm = d.nvm := rfl
@[simp] theorem Dev.withLife_sec (d : Dev) (l : Life) : (d.withLife l).sec = d.sec := rfl
@[simp] theorem Dev.withLife_sup (d : Dev) (l : Life) : (d.withLife l).sup = d.sup := rfl
@[simp] theorem Dev.withLife_life (d : Dev) (l : Life) : (d.withLife l).life = l := rfl
@[simp] theorem Dev.word_withLife (d : Dev) (l : Life) (a : Nat) : (d.withLife l).word a = d.word a := rfl
@[simp] theorem Dev.get_withLife (d : Dev) (l : Life) (f : Fld) : (d.withLife l).get f = d.get f := rfl
@[simp] theorem Dev.on_withLife (d : Dev) (l : Life) (f : Fld) : (d.withLife l).on f = d.on f := rfl

/-! ### How a command meets the state -/

theorem State.live_running {s : State} (f : Dev → Dev) (h : s.dev.sup.phase = .running) :
    s.live f = .next { s with dev := (f s.dev).withLife s.dev.life } := by simp [State.live, h]

theorem State.live_idle {s : State} (f : Dev → Dev) (h : s.dev.sup.phase ≠ .running) : s.live f = .next s := by
  simp [State.live, h]

theorem State.liveLife_running {s : State} (f : Dev → Dev) (g : Dev → Dev → Life) (h : s.dev.sup.phase = .running) :
    s.liveLife f g = .next { s with dev := (f s.dev).withLife (g s.dev (f s.dev)) } := by simp [State.liveLife, h]

theorem State.liveLife_idle {s : State} (f : Dev → Dev) (g : Dev → Dev → Life) (h : s.dev.sup.phase ≠ .running) :
    s.liveLife f g = .next s := by simp [State.liveLife, h]

theorem State.clocked_runs {halted : Dev → Bool} {s : State} (f : Dev → Dev) (h : s.dev.sup.phase = .running) (r : halted s.dev = false) :
    s.clocked halted f = .next { s with dev := (f s.dev).withLife s.dev.life } := by simp [State.clocked, State.live, h, r]

/-- A command of a unit that has stopped changes nothing. -/
theorem State.clocked_halted {halted : Dev → Bool} {s : State} (f : Dev → Dev) (r : halted s.dev = true) : s.clocked halted f = .next s := by
  simp only [State.clocked, State.live, r, ite_true]; split <;> rfl

theorem State.clockedLife_runs {halted : Dev → Bool} {s : State} (f : Dev → Dev) (g : Dev → Dev → Life)
    (h : s.dev.sup.phase = .running) (r : halted s.dev = false) :
    s.clockedLife halted f g = .next { s with dev := (f s.dev).withLife (g s.dev (f s.dev)) } := by
  simp [State.clockedLife, State.liveLife, h, r]

theorem State.clockedLife_halted {halted : Dev → Bool} {s : State} (f : Dev → Dev) (g : Dev → Dev → Life) (r : halted s.dev = true) :
    s.clockedLife halted f g = .next s := by
  simp only [State.clockedLife, State.liveLife, r, ite_true]; split <;> rfl

/-- Everything a `clocked` command can do, as `State.live_spec`; of a stopped unit it leaves the state as it was. -/
theorem State.clocked_spec (halted : Dev → Bool) (s : State) (f : Dev → Dev) : ∃ t, s.clocked halted f = .next t ∧ t.pending = s.pending
    ∧ t.dev.life = s.dev.life ∧ (s.dev.sup.phase ≠ .running ∨ halted s.dev = true → t = s) := by
  refine ⟨_, rfl, rfl, ?_, ?_⟩
  · dsimp only; split <;> rfl
  · rintro (h | h)
    · simp [h]
    · simp only [h, ite_true]; split <;> rfl

/-- Everything a `live` command can do: it answers a next state, keeps the queue and the life-cycle records, and leaves a device
that is not running as it was. -/
theorem State.live_spec (s : State) (f : Dev → Dev) : ∃ t, s.live f = .next t ∧ t.pending = s.pending
    ∧ t.dev.life = s.dev.life ∧ (s.dev.sup.phase ≠ .running → t = s) := by
  refine ⟨_, rfl, rfl, ?_, ?_⟩
  · dsimp only; split <;> rfl
  · intro h; simp [h]

/-- Everything a `liveLife` command can do. -/
theorem State.liveLife_spec (s : State) (f : Dev → Dev) (g : Dev → Dev → Life) : ∃ t, s.liveLife f g = .next t
    ∧ t.pending = s.pending ∧ (t.dev.life = s.dev.life ∨ t.dev.life = g s.dev (f s.dev))
    ∧ (s.dev.sup.phase ≠ .running → t = s) := by
  refine ⟨_, rfl, rfl, ?_, ?_⟩
  · dsimp only; split
    · exact Or.inr rfl
    · exact Or.inl rfl
  · intro h; simp [h]

/-- Everything an `always` command can do. -/
theorem State.always_spec (s : State) (f : Dev → Dev) : ∃ t, s.always f = .next t ∧ t.pending = s.pending
    ∧ t.dev = (f s.dev).withLife s.dev.life := ⟨_, rfl, rfl, rfl⟩

/-- Everything an `alwaysLife` command can do. -/
theorem State.alwaysLife_spec (s : State) (f : Dev → Dev) (g : Dev → Life) : ∃ t, s.alwaysLife f g = .next t
    ∧ t.pending = s.pending ∧ t.dev = (f s.dev).withLife (g s.dev) := ⟨_, rfl, rfl, rfl⟩

end Sys2Proof.Machine
end

