-- ==== Sys2Proof/Laws/Regs.lean ====
section
/-! SUPPORT. Registers: a field read after a write of it, of another field, of another word; counters. -/

namespace Sys2Proof.Machine

/-! ### Bit fields -/

theorem bitsOf_lt (n lo w : Nat) : bitsOf n lo w < 2 ^ w := Nat.mod_lt _ (Nat.two_pow_pos w)

theorem setBits_testBit (n lo w v i : Nat) :
    (setBits n lo w v).testBit i = if lo ≤ i ∧ i < lo + w then v.testBit (i - lo) else n.testBit i := by
  have e : setBits n lo w v = 2 ^ (lo + w) * (n / 2 ^ (lo + w)) + (2 ^ lo * (v % 2 ^ w) + n % 2 ^ lo) := by
    unfold setBits; ring
  have h1 : n % 2 ^ lo < 2 ^ lo := Nat.mod_lt _ (Nat.two_pow_pos _)
  have h2 : 2 ^ lo * (v % 2 ^ w) + n % 2 ^ lo < 2 ^ (lo + w) := by
    have hv : v % 2 ^ w < 2 ^ w := Nat.mod_lt _ (Nat.two_pow_pos _)
    rw [pow_add]
    nlinarith [Nat.two_pow_pos lo]
  rw [e, Nat.testBit_two_pow_mul_add _ h2, Nat.testBit_two_pow_mul_add _ h1]
  by_cases ha : i < lo
  · have : i < lo + w := by omega
    simp [ha, this, Nat.testBit_mod_two_pow]
  · by_cases hb : i < lo + w
    · have : lo ≤ i := by omega
      simp [ha, hb, this, Nat.testBit_mod_two_pow]
      intro; omega
    · simp [hb, Nat.testBit_div_two_pow]
      congr 1; omega

theorem bitsOf_testBit (n lo w i : Nat) : (bitsOf n lo w).testBit i = (decide (i < w) && n.testBit (lo + i)) := by
  simp [bitsOf, Nat.testBit_mod_two_pow, Nat.testBit_shiftRight]

/-- A field read back from where it was set. -/
theorem bitsOf_setBits_same (n lo w v : Nat) : bitsOf (setBits n lo w v) lo w = v % 2 ^ w := by
  apply Nat.eq_of_testBit_eq
  intro i
  rw [bitsOf_testBit, setBits_testBit, Nat.testBit_mod_two_pow]
  by_cases h : i < w
  · simp [h]
  · simp [h]

/-- A field that does not overlap the one set. -/
theorem bitsOf_setBits_apart (n lo w v lo' w' : Nat) (h : lo' + w' ≤ lo ∨ lo + w ≤ lo') :
    bitsOf (setBits n lo w v) lo' w' = bitsOf n lo' w' := by
  apply Nat.eq_of_testBit_eq
  intro i
  rw [bitsOf_testBit, setBits_testBit, bitsOf_testBit]
  by_cases hi : i < w'
  · have : ¬(lo ≤ lo' + i ∧ lo' + i < lo + w) := by omega
    simp [this]
  · simp [hi]

theorem setBits_lt (n lo w v k : Nat) (hn : n < 2 ^ k) (hk : lo + w ≤ k) : setBits n lo w v < 2 ^ k := by
  apply Nat.lt_pow_two_of_testBit
  intro i hi
  rw [setBits_testBit, if_neg (by omega)]
  exact Nat.testBit_lt_two_pow (lt_of_lt_of_le hn (Nat.pow_le_pow_right (by omega) hi))

/-! ### Words -/

theorem Dev.word_lt (d : Dev) (a : Nat) : d.word a < 2 ^ 64 := BitVec.isLt _

theorem Dev.word_setWord_same (d : Dev) (a v : Nat) : (d.setWord a v).word a = v % 2 ^ 64 := by
  simp [Dev.word, Dev.setWord, Sparse.read_write_same]

theorem Dev.word_setWord_other (d : Dev) {a b : Nat} (v : Nat) (h : b ≠ a) : (d.setWord a v).word b = d.word b := by
  simp [Dev.word, Dev.setWord, Sparse.read_write_other _ _ _ h]

/-- The registers alone decide what a word reads. -/
theorem Dev.word_congr {d e : Dev} (h : d.regs = e.regs) (a : Nat) : d.word a = e.word a := by simp [Dev.word, h]

theorem Dev.get_congr {d e : Dev} (h : d.regs = e.regs) (f : Fld) : d.get f = e.get f := by
  simp [Dev.get, Dev.word_congr h]

/-! ### Fields -/

theorem Dev.get_lt (d : Dev) (f : Fld) : d.get f < 2 ^ f.width := bitsOf_lt _ _ _

/-- A field reads as it was set, cut to its width. -/
theorem Dev.get_put_same (d : Dev) (f : Fld) (v : Nat) (h : f.lo + f.width ≤ 64) : (d.put f v).get f = v % 2 ^ f.width := by
  unfold Dev.get Dev.put
  rw [Dev.word_setWord_same, Nat.mod_eq_of_lt (setBits_lt _ _ _ _ _ (d.word_lt _) h), bitsOf_setBits_same]

/-- A field of another word reads as before. -/
theorem Dev.get_put_other (d : Dev) (f g : Fld) (v : Nat) (h : g.addr ≠ f.addr) : (d.put f v).get g = d.get g := by
  unfold Dev.get Dev.put
  rw [Dev.word_setWord_other _ _ h]

/-- A field of the same word that does not overlap reads as before. -/
theorem Dev.get_put_apart (d : Dev) (f g : Fld) (v : Nat) (hf : f.lo + f.width ≤ 64)
    (h : g.lo + g.width ≤ f.lo ∨ f.lo + f.width ≤ g.lo) : (d.put f v).get g = d.get g := by
  by_cases ha : g.addr = f.addr
  · unfold Dev.get Dev.put
    rw [ha, Dev.word_setWord_same, Nat.mod_eq_of_lt (setBits_lt _ _ _ _ _ (d.word_lt _) hf), bitsOf_setBits_apart _ _ _ _ _ _ h]
  · exact Dev.get_put_other d f g v ha

/-- A word that holds no bit of the field reads as before. -/
theorem Dev.word_put_other (d : Dev) (f : Fld) (v : Nat) {a : Nat} (h : a ≠ f.addr) : (d.put f v).word a = d.word a :=
  Dev.word_setWord_other _ _ h

theorem Dev.on_eq (d : Dev) (f : Fld) : d.on f = decide (d.get f ≠ 0) := by simp [Dev.on, bne, beq_eq_decide]

/-! ### Counters -/

/-- A counter rises by the amount, modulo 2⁶⁴ (R7). -/
theorem Dev.word_bump_same (d : Dev) (a n : Nat) : (d.bump a n).word a = (d.word a + n) % 2 ^ 64 := by
  unfold Dev.bump
  split
  · rename_i h; subst h; exact (Nat.mod_eq_of_lt (d.word_lt a)).symm
  · exact Dev.word_setWord_same _ _ _

theorem Dev.word_bump_other (d : Dev) {a b : Nat} (n : Nat) (h : b ≠ a) : (d.bump a n).word b = d.word b := by
  unfold Dev.bump
  split
  · rfl
  · exact Dev.word_setWord_other _ _ h

theorem Dev.get_bump_other (d : Dev) (a n : Nat) (f : Fld) (h : f.addr ≠ a) : (d.bump a n).get f = d.get f := by
  unfold Dev.get; rw [Dev.word_bump_other _ _ h]

theorem Dev.word_peak_other (d : Dev) (f : Fld) (v : Nat) {a : Nat} (h : a ≠ f.addr) : (d.peak f v).word a = d.word a := by
  unfold Dev.peak
  split
  · exact Dev.word_put_other _ _ _ h
  · rfl

theorem Dev.get_peak_other (d : Dev) (f g : Fld) (v : Nat) (h : g.addr ≠ f.addr) : (d.peak f v).get g = d.get g := by
  unfold Dev.get; rw [Dev.word_peak_other _ _ _ h]

/-! ### Updates that touch no register -/

@[simp] theorem Dev.word_advance (d : Dev) (t a : Nat) : (d.advance t).word a = d.word a := Dev.word_congr (Dev.advance_regs d t) a

@[simp] theorem Dev.get_advance (d : Dev) (t : Nat) (f : Fld) : (d.advance t).get f = d.get f := Dev.get_congr (Dev.advance_regs d t) f

@[simp] theorem Dev.word_health (d : Dev) (e i x a : Nat) : (d.health e i x).word a = d.word a := rfl

@[simp] theorem Dev.get_health (d : Dev) (e i x : Nat) (f : Fld) : (d.health e i x).get f = d.get f := rfl

@[simp] theorem Dev.word_lifeEntry (d : Dev) (k s : Nat) (b : List Byte) (c : Bool) (a : Nat) :
    (d.lifeEntry k s b c).word a = d.word a := rfl

@[simp] theorem Dev.get_lifeEntry (d : Dev) (k s : Nat) (b : List Byte) (c : Bool) (f : Fld) :
    (d.lifeEntry k s b c).get f = d.get f := rfl

@[simp] theorem Dev.word_standingWrite (d : Dev) (a : Nat) : d.standingWrite.word a = d.word a :=
  Dev.word_congr (Dev.standingWrite_regs d) a

@[simp] theorem Dev.get_standingWrite (d : Dev) (f : Fld) : d.standingWrite.get f = d.get f :=
  Dev.get_congr (Dev.standingWrite_regs d) f

@[simp] theorem Dev.word_memWrite (d : Dev) (a : Nat) (bs : List Byte) (b : Nat) : (d.memWrite a bs).word b = d.word b := rfl

@[simp] theorem Dev.get_memWrite (d : Dev) (a : Nat) (bs : List Byte) (f : Fld) : (d.memWrite a bs).get f = d.get f := rfl

@[simp] theorem Dev.word_coreWrite (d : Dev) (c a : Nat) (bs : List Byte) (b : Nat) : (d.coreWrite c a bs).word b = d.word b := rfl

@[simp] theorem Dev.get_coreWrite (d : Dev) (c a : Nat) (bs : List Byte) (f : Fld) : (d.coreWrite c a bs).get f = d.get f := rfl

/-! ### Lists of updates -/

/-- What every element's update keeps, the fold keeps. -/
theorem Dev.each_keeps {α β : Type} (p : Dev → β) (xs : List α) (f : Dev → α → Dev) (d : Dev)
    (h : ∀ d x, p (f d x) = p d) : p (d.each xs f) = p d := by
  unfold Dev.each
  induction xs generalizing d with
  | nil => rfl
  | cons x xs ih => rw [List.foldl_cons, ih, h]

/-- What every element's update establishes from itself, the fold keeps. -/
theorem Dev.each_inv {α : Type} (P : Dev → Prop) (xs : List α) (f : Dev → α → Dev) (d : Dev) (h0 : P d)
    (h : ∀ d x, P d → P (f d x)) : P (d.each xs f) := by
  unfold Dev.each
  induction xs generalizing d with
  | nil => exact h0
  | cons x xs ih => exact ih _ (h _ _ h0)

end Sys2Proof.Machine
end

