-- ==== Sys2Proof/Laws/Steps.lean ====
section
/-! SUPPORT. From an update of the device to a command that completes with it. -/

namespace Sys2Proof.Machine

/-- A command of a running device, whose update of the device is `x`, completes as `post` says of it. -/
theorem Completes.live {c : Instr} {s : State} {x : Dev} {post : Dev → Prop} (hr : s.Running)
    (hc : exec c s = .next { s with dev := if s.dev.sup.phase = .running then x.withLife s.dev.life else s.dev })
    (h : post (x.withLife s.dev.life)) : Completes c s post :=
  ⟨_, hc, rfl, by rw [if_pos hr]; exact h⟩

/-- A command of the supply, the reset line or the JTAG port, whose update of the device is `x`. -/
theorem Completes.always {c : Instr} {s : State} {x : Dev} {l : Life} {post : Dev → Prop}
    (hc : exec c s = .next { s with dev := x.withLife l }) (h : post (x.withLife l)) : Completes c s post := ⟨_, hc, rfl, h⟩

/-- A device with the memories of another keeps its bytes. -/
theorem Dev.keepsMemory_of {d e : Dev} (h : e.fab = d.fab) : d.KeepsMemory e := by simp [Dev.KeepsMemory, h]

/-- A device with the registers of another keeps its words. -/
theorem Dev.keepsWords_of {d e : Dev} (but : List Nat) (h : e.regs = d.regs) : d.KeepsWords e but :=
  fun a _ => Dev.word_congr h a

end Sys2Proof.Machine
end

