-- ==== Sys2Proof/Laws/Port.lean ====
section
/-! SUPPORT. What sending, pausing and flow control can touch: the port and the registers, nothing else. -/

namespace Sys2Proof.Machine

/-- A device without its registers and its port: what an operation of the port leaves as it was. -/
def Dev.sansPort (d : Dev) : Dev := { d with regs := [], port := Port.reset }

theorem Dev.front_of_sansPort {d e : Dev} (h : e.sansPort = d.sansPort) : e.front = d.front := by
  have := congrArg Dev.front h; exact this
theorem Dev.fab_of_sansPort {d e : Dev} (h : e.sansPort = d.sansPort) : e.fab = d.fab := by
  have := congrArg Dev.fab h; exact this
theorem Dev.ns_of_sansPort {d e : Dev} (h : e.sansPort = d.sansPort) : e.ns = d.ns := by
  have := congrArg Dev.ns h; exact this
theorem Dev.ctl_of_sansPort {d e : Dev} (h : e.sansPort = d.sansPort) : e.ctl = d.ctl := by
  have := congrArg Dev.ctl h; exact this

@[simp] theorem Dev.put_sansPort (d : Dev) (f : Fld) (v : Nat) : (d.put f v).sansPort = d.sansPort := rfl
@[simp] theorem Dev.setWord_sansPort (d : Dev) (a v : Nat) : (d.setWord a v).sansPort = d.sansPort := rfl
@[simp] theorem Dev.bump_sansPort (d : Dev) (a n : Nat) : (d.bump a n).sansPort = d.sansPort := by
  unfold Dev.bump; split <;> rfl
@[simp] theorem Dev.peak_sansPort (d : Dev) (f : Fld) (v : Nat) : (d.peak f v).sansPort = d.sansPort := by
  unfold Dev.peak; split <;> rfl
@[simp] theorem Dev.modSub_sansPort (d : Dev) (sp : Nat) (f : SubPort → SubPort) : (d.modSub sp f).sansPort = d.sansPort := rfl
@[simp] theorem Dev.setPause_sansPort (d : Dev) (sp c : Nat) (p : ClassPause) (b : Bool) :
    (d.setPause sp c p b).sansPort = d.sansPort := by
  unfold Dev.setPause; dsimp only; rw [Dev.put_sansPort, Dev.modSub_sansPort]

@[simp] theorem Dev.send_sansPort (d : Dev) (sp : Nat) (f : List Byte) : (d.send sp f).sansPort = d.sansPort := by
  unfold Dev.send
  split
  · simp; rfl
  · rfl

@[simp] theorem Dev.sendPause_sansPort (d : Dev) (sp q : Nat) : (d.sendPause sp q).sansPort = d.sansPort := by
  unfold Dev.sendPause; dsimp only
  generalize (if d.on R.PORT_CFG_TX_FC_PFC then _ else _ : List Byte) = body
  split <;> simp

@[simp] theorem Dev.pausePartners_sansPort (d : Dev) : d.pausePartners.sansPort = d.sansPort := by
  unfold Dev.pausePartners
  exact Dev.each_keeps Dev.sansPort _ _ d (by intro d x; simp)

@[simp] theorem Dev.releasePartners_sansPort (d : Dev) : d.releasePartners.sansPort = d.sansPort := by
  unfold Dev.releasePartners
  exact Dev.each_keeps Dev.sansPort _ _ d (by intro d x; simp)

/-- Flow control touches only the port and the registers. -/
@[simp] theorem Dev.flowControl_sansPort (d : Dev) : d.flowControl.sansPort = d.sansPort := by
  unfold Dev.flowControl; dsimp only
  repeat' split
  all_goals simp

/-- What has been received and not yet taken. -/
def Port.received (p : Port) : List RxFrame × List RxFrame × List RxFrame := (p.macCtl, p.ctlRx, p.hallRx)

@[simp] theorem Dev.send_received (d : Dev) (sp : Nat) (f : List Byte) : (d.send sp f).port.received = d.port.received := by
  unfold Dev.send
  split
  · simp [Port.received]
  · rfl

@[simp] theorem Dev.sendPause_received (d : Dev) (sp q : Nat) : (d.sendPause sp q).port.received = d.port.received := by
  unfold Dev.sendPause; dsimp only
  generalize (if d.on R.PORT_CFG_TX_FC_PFC then _ else _ : List Byte) = body
  split <;> simp

@[simp] theorem Dev.modSub_received (d : Dev) (sp : Nat) (f : SubPort → SubPort) :
    (d.modSub sp f).port.received = d.port.received := rfl

/-- Flow control takes nothing that has been received. -/
@[simp] theorem Dev.flowControl_received (d : Dev) : d.flowControl.port.received = d.port.received := by
  have hp (e : Dev) : e.pausePartners.port.received = e.port.received :=
    Dev.each_keeps (fun d => d.port.received) _ _ e (by intro d x; simp)
  have hr (e : Dev) : e.releasePartners.port.received = e.port.received :=
    Dev.each_keeps (fun d => d.port.received) _ _ e (by intro d x; simp)
  unfold Dev.flowControl; dsimp only
  repeat' split
  all_goals simp [hp, hr]

/-! ### Pause -/

/-- A class's `PAUSED` bit written leaves the other words. -/
theorem Dev.word_setPause (d : Dev) (sp c : Nat) (p : ClassPause) (b : Bool) {a : Nat}
    (h : a ≠ (R.PORT_SUBPORT_STAT_PAUSED sp).addr) : (d.setPause sp c p b).word a = d.word a := by
  unfold Dev.setPause; dsimp only
  rw [Dev.word_put_other _ _ _ h]; rfl

/-- The `PAUSED` bits after one class's is written. -/
theorem Dev.paused_setPause (d : Dev) (sp c : Nat) (p : ClassPause) (b : Bool) (hc : c < 8) :
    (d.setPause sp c p b).get (R.PORT_SUBPORT_STAT_PAUSED sp) = setBits (d.get (R.PORT_SUBPORT_STAT_PAUSED sp)) c 1 (b2n b) := by
  unfold Dev.setPause; dsimp only
  rw [Dev.get_put_same _ _ _ (by simp [R.PORT_SUBPORT_STAT_PAUSED])]
  exact Nat.mod_eq_of_lt (setBits_lt _ _ _ _ _ (Dev.get_lt _ _) (by simp [R.PORT_SUBPORT_STAT_PAUSED]; omega))

/-- Whether a class is held after one class's pause is written. -/
theorem Dev.classPaused_setPause (d : Dev) (sp c : Nat) (p : ClassPause) (b : Bool) (hc : c < 8) (x : Nat) :
    (d.setPause sp c p b).classPaused sp x = if x = c then b else d.classPaused sp x := by
  unfold Dev.classPaused
  rw [Dev.paused_setPause _ _ _ _ _ hc]
  by_cases h : x = c
  · subst h; rw [bitsOf_setBits_same]; cases b <;> simp [b2n]
  · rw [bitsOf_setBits_apart _ _ _ _ _ _ (by omega)]; simp [h]

end Sys2Proof.Machine
end

