-- ==== Sys2Proof/Tests/Slice0.lean ====
section
/-! SUPPORT. Tests: small devices, commands that the check refuses, the worked examples of the spec on single operations, and for
every obligation with hypotheses a theorem that shows states and operands meeting those of each clause. -/

namespace Sys2Proof.Tests
open Sys2Proof.Machine
set_option Elab.async false

/-! ### Small devices -/

/-- A device that runs, OPERATIONAL. -/
def dev0 : Dev := ({ Dev.reset with sup := { Supply.reset with phase := .running } }).put R.LCS_STAT_STATE 2
/-- The device with an empty queue. -/
def T (d : Dev) : State := ⟨d, []⟩

/-- A frame with its FCS. -/
def framed (bs : List Byte) : List Byte := bs ++ fcsBytes bs
def frame60 (type : Nat) (body : List Byte) : List Byte := padTo 60 (beBytes 6 0x0A0B0C0D0E0F ++ beBytes 6 0x102030405060 ++ beBytes 2 type ++ body)
def dPort : Dev := (dev0.put (R.PORT_SUBPORT_STAT_LINK_UP 0) 1).put (R.PORT_SUBPORT_STAT_MODE_ACTIVE 0) 0

def macFrame (op : Nat) (body : List Byte) : List Byte := padTo 60 (beBytes 6 0x0180C2000001 ++ beBytes 6 0x102030405060 ++ beBytes 2 0x8808 ++ beBytes 2 op ++ body)
def dMac (f : List Byte) (pfc : Nat) : Dev := ({ dPort with port := { dPort.port with macCtl := [⟨0, f, 0⟩, ⟨7, f, 0⟩] } }).put (R.PORT_SUBPORT_CFG_PFC_EN 0) pfc
def ignoring (d : Dev) : Dev := { d with port := { d.port with subs := d.port.subs.map fun s => { s with pause := s.pause.map fun p => { p with ignoring := true } } } }
def dPaused : Dev := (dPort.put (R.PORT_SUBPORT_STAT_PAUSED 0) 0x81).put (R.PORT_SUBPORT_STAT_PAUSED 7) 0x80

def dSend : Dev := (((dPort.put R.PORT_CFG_TX_FC_EN 1).put R.PORT_CFG_PTP_EN 1).put R.PORT_CFG_PTP_SUBPORT 0)
def egr (n : Nat) (dr : Bool) : EgressItem := ⟨n, 1, frame60 0x800 [], 0, dr, none⟩
def dEgress (dr : Bool) : Dev := { dSend with port := { dSend.port with subs := dSend.port.subs.modify 0 fun s => { s with partnerPaused := true, egress := [egr 3 dr, egr 4 false] }, records := [⟨0, 5, [zeros 32], 1⟩, ⟨1, 5, [zeros 32], 1⟩] } }
def dRecDown : Dev := { dSend with port := { dSend.port with records := [⟨7, 5, [zeros 32, zeros 32], 1⟩] } }

/-- A control request frame (R570): opcode, SEQ, address, payload. -/
def reqHead (op seq addr len : Nat) (crc : Nat) : List Byte :=
  beBytes 2 0xCA05 ++ beBytes 1 1 ++ beBytes 1 op ++ beBytes 4 seq ++ beBytes 6 addr ++ beBytes 2 len ++ zeros 2 ++ beBytes 4 crc ++ zeros 10
def reqFrame (op seq addr : Nat) (pl : List Byte) : List Byte :=
  beBytes 6 0x0A0B0C0D0E0F ++ beBytes 6 0x102030405060 ++ beBytes 2 0x88B5 ++ [0, 0] ++ reqHead op seq addr pl.length (crc32c (reqHead op seq addr pl.length 0 ++ pl)).toNat ++ pl
def dReq (seqs : List SeqEntry) (tokens : Nat) (q : List Req) : Dev :=
  { dPort with port := { dPort.port with ctlRx := [⟨0, reqFrame 1 5 0x10 [], 0⟩, ⟨7, [], 0⟩] }, ctl := { dPort.ctl with seqs := seqs, tokens := tokens, queue := q } }
def dSlot (run st : Nat) (w : Sparse Word) : Dev := { ((dev0.put R.CFG_BOOT_RUN_SLOT run).put (R.CFG_SLOT_STAT_STATE 1) st) with nvm := { dev0.nvm with slotB := w } }
def dSlotOp (o : SlotOp) : Dev := { dSlot 0 1 [(0, 5)] with ctl := { dev0.ctl with slotOp := some o } }
def dJrn : Dev := { dev0 with jrn := { dev0.jrn with entries := [zeros 64], openNs := 7 }, ctl := { dev0.ctl with tokens := 1, refused := [⟨1, 2, 3⟩], surplus := ⟨0, 1, 1⟩ } }

/-- Context 0's page 0 maps to physical page 3; the counter holds `v`. -/
def dCtr (v : Nat) (ws : List Wait) : Dev :=
  let d := (dev0.put (R.SYN_MAP_VALID 0 0) 1).put (R.SYN_MAP_PAGE 0 0) 3
  { d with sync := { d.sync with ctrs := if v = 0 then [] else [(768, ⟨v, 0, 0⟩)], waits := ws } }
def wCtr (k : Nat) : Wait := ⟨.counter 0 k, 0, 77, 0, true⟩
/-- Pin 0 of core 0 is context 0's. -/
def dPin (set : Nat) (ws : List Wait) : Dev :=
  let d := ((dev0.put (R.SYN_PIN_ALLOCATED 0 0) 1).put (R.SYN_PIN_CONTEXT 0 0) 0).put (R.SYN_PIN_SET 0 0) set
  { d with sync := { d.sync with waits := ws } }
def wPin : Wait := ⟨.pin 0 0, 0, 0, 0, true⟩
/-- Network 0 has the Lens cores 0 and 1. -/
def dBar (arr : Nat) (board : Nat) (ws : List Wait) : Dev :=
  let d := (((dev0.put (R.SYN_BAR_ALLOCATED 0) 1).put (R.SYN_BAR_MASK_CORES 0 0) 3).put (R.SYN_BAR_BOARD 0) board).put R.TKP_MODE_FABRIC_BOARD board
  let d := d.setArrived 0 arr
  { d with sync := { d.sync with waits := ws } }
def wBar : Wait := ⟨.barrier 0, 0, 0, 5, true⟩
def qe (soi eoi : Bool) : QEntry := ⟨List.replicate 64 7, soi, eoi, none⟩
/-- Queue 0 holds `n` entries, the first `vis` visible. -/
def dQue (n vis : Nat) (open_ : Bool) (ws : List Wait) (spill : Nat := 0) : Dev :=
  let d := ((dev0.put (R.QUE_DESC_ENABLE 0) 1).put (R.QUE_DESC_SPILL_64K 0) spill)
  let d := d.setQue 0 { Queue.empty with entries := List.replicate n (qe true true), visible := vis, headN := min n 32, midN := 0 } open_
  { d with sync := { d.sync with waits := ws } }
def push (soi eoi blk : Bool) : PushReq := ⟨0, 5, List.replicate 64 9, soi, eoi, blk⟩

/-- One packet of sub-port 0 at a stage, numbered 9, with the lists that name it. -/
def pk (st : Stage) (passes mode : Nat) (gone : Bool := false) : Packet :=
  { id := 9, sp := 0, frame := frame60 0x800 [], rxTime := 0, mode := mode, cls := 1, stage := st, passes := passes, firstEntry := 10, pass := ⟨0, 0, zeros 128⟩,
    slot := 0, ver := 0, refHeld := true, action := 0, flow := none, sample := none, why := .other, malformed := none, verdict := none, gone := gone }
def dFront (p : Packet) (f : Front → Front) (next : Nat := 0x100) : Dev :=
  { dPort.put (R.PRS_NODE_DEFAULT_NEXT 0) next with front := f { Front.reset with packets := [p] } }

/-- A rule staging under way in slot 1; the Current version is in slot 0. -/
def dStage : Dev := (((dev0.put R.CLS_STATE_STAGE_OPEN 1).put R.CLS_STATE_STAGE_SLOT 1).put (R.CLS_VER_STATE 1) 1).put (R.CLS_VER_STATE 0) 2
def addRec (bank idx value mask action : Nat) : List Byte :=
  beBytes 1 1 ++ beBytes 1 bank ++ beBytes 2 idx ++ beBytes 40 value ++ beBytes 40 mask ++ beBytes 8 action ++ zeros 4

/-- Flow 0 (bucket 0, way 0), valid, policy 0, idle since time 0; the time is `ns`. -/
def dAge (ns : Nat) : Dev :=
  let d := (dev0.put R.FLW_TABLE_INFO_BASE 0xDC0000000).put (R.FLW_POLICY_IDLE_MS 0) 1
  { (d.put R.FLW_OCC_LIVE_FLOWS 1).memWrite 0xDC0000000 (zeros 43 ++ [1] ++ zeros 148) with ns := ns }
/-- Entity table 0 at the same base with 4 ways, its way 2 stale at `ns` 1000000. -/
def dEnt (ns : Nat) : Dev :=
  let d := ((dev0.put (R.FLW_ENT_TABLE_BASE 0) 0xDC0000000).put (R.FLW_ENT_TABLE_IDLE_MS 0) 1).put (R.FLW_ENT_TABLE_LOG2_SIZE 0) 2
  { d.memWrite (0xDC0000000 + 128) (zeros 16 ++ [1] ++ zeros 47) with ns := ns }

def dPlan (f : Plan → Plan) : Dev := { dev0 with plan := f Plan.reset }
def smp (slot : Nat) : Sample :=
  { slot := slot, packet := 9, sp := 0, mode := 0, ver := 0, action := 0, own := 0, rxTime := 0, flow := ⟨0, 0, 0⟩, model := 0, context := 0,
    raw := [none, none, none], ys := [none, none, none], admitted := [], candidate := false, refused := false, merged := false, decimated := false,
    rerun := false, widened := false, dead := false, stateRead := 0, committed := false, initial := false, done := false }
def dTick (follower numbered : Bool) (missed : Nat) (edges : List (Nat × Nat)) : Dev :=
  let d := dPlan fun p => { p with ticking := true, tick := 7, firstTick := some 7, nextNs := 5000, numbered := numbered, missed := missed, edges := edges }
  ((d.put R.TKP_TICK_STAT_FOLLOWER (b2n follower)).put R.TKP_MODE_FABRIC_BOARD (b2n follower))
def dBatch (xs : List Sample) (f : Plan → Plan := id) : Dev := dPlan fun p => f { p with ticking := true, tick := 64, firstTick := some 0, computing := some ⟨63, 0, xs⟩ }
def tile0 : Tile :=
  { partition := 0, facet := 0, context := 0, model := 0, tier := 0, learning := false, form := .facet, qblock := 0x1000, kBase := 0, k := 1, kTotal := 1,
    nBase := 0, n := 1, nTotal := 1, mBase := 0, m := 1, mTotal := 1, part := 0, lastOfPass := true, act := .shared 0, actPitch := 16, wgt := .shared 64,
    wgtPitch := 16, out := .core 0 0x2000, completion := 0, slots := [0], reads := [], cmdId := 1 }
def pass0 : Pass :=
  { partition := 0, homes := [0], actCode := 6, gang := false, context := 0, model := 0, tier := 0, learning := false, cmdId := 1, qaddr := 0x1000, qblock := zeros 64, actDesc := zeros 24, wgtDesc := zeros 24,
    outDesc := zeros 24, biases := [], rescale := [], side := [], wide := false, nTotal := 1, mTotal := 1, kTotal := 1, out := .core 0 0x2000, completion := 0,
    slots := [0], acc := [], groups := [], lastDone := true, beganNs := 0, reissues := 0 }
/-- Credit of 1.0 (FP32) and, in T1 of model 0, room for `left`. -/
def dAdmit (credit left : Nat) (x : Sample) (tiers : List Nat) : Dev :=
  let d := dBatch [x] fun p => { p with left := credit, use := [(1, ⟨0, 1, left, false⟩)], closedGroups := [[⟨0, tiers, (0, 1)⟩], []] }
  d.put (R.TKP_ENERGY_E_UJ 0 1) 0x3F000000

def dMap : Dev := ((dev0.put R.MEM_MAP_INFO_LIVE_CHANNELS 512).put (R.SYN_MAP_VALID 0 0) 1).put (R.SYN_MAP_PAGE 0 0) 3
def desc (fmt scale : Nat) : List Byte := leBytes 1 fmt ++ zeros 3 ++ leBytes 4 scale ++ zeros 16
/-- The quantisation block of `tile0` with three INT8 tensors. -/
def dTile : Dev := ((((dMap.memWrite 0x1000 (leBytes 8 0x3000 ++ leBytes 8 0x3040 ++ leBytes 8 0x3080 ++ zeros 40)).memWrite 0x3000 (desc 6 0x3F800000)).memWrite 0x3040 (desc 6 0x3F800000)).memWrite 0x3080 (desc 6 0x3F800000)).memWrite 0 [3]
def prog (k : Nat) (us : List Nat) : Placed := ⟨k, us.headD 0, 0, 0, 0, false, us, true, []⟩
def homed (d : Dev) : Dev := { d with plan := { d.plan with placed := [prog 0 [0], { prog 2 [0] with id := 1024 }] } }
def lens (d : Dev) (f : Lens → Lens) : Dev := { d with lens := f d.lens }
def gbase : Nat := 0xF000000000000
def gtile : Tile := { tile0 with partition := 1024, form := .grating, act := .shared gbase, wgt := .shared (gbase + 64), out := .shared (gbase + 0x2000) }
def mover0 : MoverOp := { cluster := 0, context := 0, src := .shared 0x4000, dst := .shared 0x5000, rows := 2, cols := 3, elemBits := 8, srcPitch := 3, dstPitch := 4, transpose := false, signal := 0, cmdId := 2 }
def elt0 : EltCmd := { core := 0, context := 0, op := .add, count := 2, a := .shared 0x4000, aFmt := 6, b := .shared 0x4040, bFmt := 6, c := .shared 0x4080, cFmt := 6, out := .shared 0x5000, outFmt := 6, cmdId := 3 }

/-- Model 0 in engine 0, one replica of one stage; sample 0 of batch 63 is its; slot sets in DRAM. -/
def dFor (xs : List Sample) : Dev :=
  let d := (dBatch xs fun p => p)
  let d := (((d.put (R.FOR_MODEL_STAGES 0) 1).put (R.FOR_MODEL_REPLICAS 0) 1).put (R.FOR_MODEL_FEATURES 0) 2).put R.MEM_MAP_INFO_LIVE_CHANNELS 512
  let d := (d.put (R.FOR_ENGINE_STAT_MODEL 0) 0).put (R.FOR_FEATURE_SENT_EN 0 1) 1
  { d with seq := { d.seq with slotSets := [0x10000, 0x20000], outBlocks := [(0, 0x30000)] } }
def job0 : ForestJob := ⟨0, 0, 0, [.uint 5, .missing], 3, [], none⟩
/-- Flow 0 valid in DRAM with incarnation 0; model 0 a sequence tier in context 0. -/
def dSeq (xs : List Sample) : Dev :=
  let d := dBatch xs fun p => { p with placed := [⟨0, 0, 0, 0, 2, false, [0], true, []⟩] }
  let d := (((d.put R.MEM_MAP_INFO_LIVE_CHANNELS 512).put R.FLW_TABLE_INFO_BASE 0xDC0000000).put (R.SEQ_MODEL_SEQ_TIER 0) 1).put (R.SEQ_MODEL_LINEAGE 0) 9
  let d := d.memWrite 0xDC0000000 (zeros 43 ++ [1] ++ zeros 148)
  { d with seq := { d.seq with stateBlocks := [0x40000, 0x50000], newBlocks := [0x60000, 0x70000], readySent := true } }
def stageReq (op m off : Nat) (data : List Byte) : List Byte := beBytes 1 op ++ beBytes 1 m ++ zeros 6 ++ beBytes 8 off ++ data
def dGen (g : Nat) (st : Option Staging) (sg : Sparse ShadowGen := []) : Dev :=
  let d := (dev0.put R.MEM_MAP_INFO_LIVE_CHANNELS 512).put (R.SEQ_MODEL_GSTATE 0) g
  { d with seq := { d.seq with staging := st, staged := sg, stagingBase := 0x100000 } }
def sg0 : ShadowGen := ⟨7, none, [], [], none, none⟩
/-- Model 0 learns; two records of it in the ring. -/
def dLearn (l : Option Learner) : Dev :=
  let d := dBatch [{ smp 0 with done := true }] fun p => { p with mode := 1, phases := [0], placed := [⟨0, 0, 0, 0, 3, true, [0], true, []⟩] }
  let d := ((((d.put R.MEM_MAP_INFO_LIVE_CHANNELS 512).put (R.SEQ_LEARN_CFG_LEARN_EN 0) 1).put (R.SEQ_MODEL_GEN_CURRENT 0) 4).put
    (R.SEQ_LEARN_CFG_STEP_LOG2 0) 0).put (R.SEQ_LEARN_CFG_STEP_MAX_TICKS 0) 9
  let d := (d.memWrite 0x80000 (leBytes 1 0 ++ leBytes 1 0 ++ leBytes 2 3 ++ zeros 252)).memWrite 0x80100 (leBytes 1 0 ++ leBytes 1 0 ++ leBytes 2 4)
  { d with seq := { d.seq with ringBase := 0x80000, ringLive := [0, 1], learners := match l with | some l => [(0, l)] | none => [] } }

/-- Device 0 of a board: links up, link 1 leads to device 1; context 0's page 0 maps to page 3. -/
def dFab (hall : Bool := false) : Dev :=
  let d := dMap.put R.TKP_MODE_FABRIC_BOARD (b2n !hall)
  let d := ((d.put (R.MIR_ROUTE_VALID 1) 1).put (R.MIR_ROUTE_LINK 1) 1).put R.MEM_CFG_REMOTE_EN 1
  let d := (d.each (range 0 4) fun d l => (d.put (R.MIR_STAT_UP l) 1).put (R.MIR_CFG_EN l) 1)
  let d := ((d.put R.TKP_MODE_FABRIC_HALL (b2n hall)).put (R.PORT_SUBPORT_STAT_LINK_UP 0) 1).put R.MEM_HALL_CFG_HALL_MTU 1500
  d.memWrite 0x2000 (leBytes 8 5)
def fabm (d : Dev) (f : Fabric → Fabric) : Dev := { d with fab := f d.fab }
def rreq (opc dest : Nat) (tgt : Nat) (pl : List Byte) (len : Nat := 8) (fence : Bool := false) (rel : Bool := false) : RemoteReq :=
  { opc := .ofNat 8 opc, dest := .ofNat 12 dest, context := 0, engine := 5, release := rel, fenceAll := fence, len := len, target := .ofNat 64 tgt, payload := pl }
def out0 (opc pseq : Nat) (ctx : Nat := 0) : OutOp := ⟨1, false, opc, pseq, ctx, 5, 0x2000, 8, 3⟩
def in0 (opc : Nat) (tgt : Nat) (pl : List Byte) (flags : Nat := 0) (pseq : Nat := 0) : InOp := ⟨1, false, 1, opc, flags, 8, pseq, 7, tgt, pl, 0⟩
def blkBody (seq cls type : Nat) (ops : List Byte) : List Byte :=
  beBytes 1 (type + 16 * cls) ++ zeros 1 ++ beBytes 3 seq ++ zeros 7 ++ zeros 4 ++ padTo 240 ops
/-- The block with its CRC. -/
def blk (seq cls type : Nat) (ops : List Byte) : List Byte :=
  let b := blkBody seq cls type ops
  overlay b 12 (beBytes 4 (crc32c b).toNat)

def qreq (op addr : Nat) (payload : List Byte) : Req := ⟨0, [], 0x102030405060, none, op, 9, addr, payload.length, 0, zeros 32, payload, false⟩
def dBoardWait : Dev := { dBar 1 1 [wBar] with sync := { (dBar 1 1 [wBar]).sync with boardReleased := true } }
def dWdog (n : Nat) : Dev := (dBar 1 1 [wBar]).put (R.SYN_CTX_CFG_WDOG_TICKS 0) n
/-- Queue 0 with a flush requested, a time-out of 50 ns and 4 ticks gone. -/
def dFlush : Dev :=
  let d := (((dQue 2 1 false []).put (R.QUE_STAT_FLUSH_PENDING 0) 1).put R.TKP_MODE_FLUSH_COMPAT 1).put (R.QUE_DESC_TIMEOUT_NS 0) 50
  d.setQue 0 { d.queue 0 with flushTicks := 4 } false
def dAt (d : Dev) (ns : Nat) : Dev := { d with ns := ns }
/-- Packet 9 parsed by node 0 with the words given. -/
def dParse (cfg minLen mode next : Nat) : Dev :=
  (dFront (pk (.parsing cfg 0 0 0) 1 mode) (fun f => { f with parsing := [9] }) next).put (R.PRS_NODE_MIN_LEN 0) minLen
/-- Packet 9 at the search, with the default action and field vector given. -/
def pSearch (cfg : Nat) (fv : List Byte) : Packet := { pk (.searching cfg 0) 1 0 with pass := ⟨0, 0, fv⟩ }
def dSearch (cfg action : Nat) (fv : List Byte) : Dev :=
  (dFront (pSearch cfg fv) fun f => { f with searching := [9] }).put (R.CLS_DEFAULT_ACTION_WORD 0 0) action
/-- The same with the flow's entry in the cache. -/
def dDirect : Dev :=
  let d := dSearch 0 0 (zeros 128)
  let key := d.flowKey (d.get (R.FLW_POLICY_KEY_PROFILE 0)) 0 0 (zeros 128)
  let e := key.key ++ [BitVec.ofNat 8 (b2n key.frag + 4 * key.profile), 1] ++ leBytes 4 key.hash ++ zeros 144
  { d with front := { d.front with cache := [(key.hash % 65536, [⟨4 * (key.hash % 2^23), e, false⟩])] } }
def pHeld : Packet := { pk .held 1 0 with verdict := some (zeros 16), sample := some (0, 0) }
def dOpening : Dev := { dStage with front := { dStage.front with opening := some (addRec 0 0 5 7 0), sweeps := [⟨1, true⟩, ⟨3, false⟩] } }
/-- Position 0 carries PARITY_BAD. -/
def dPar : Dev := dev0.setWord (posAddr 0 + 88) (16 + 1)
def dPlaced : Dev := { dBatch [smp 0] fun p => { p with use := [(0, ⟨5, 2, 3, true⟩)], completed := [(1, 4)], placed := [⟨0, 0, 0, 0, 0, false, [0], true, []⟩] } with ns := 0 }
def dTock (tick recals : Nat) : Dev := { dPlaced with plan := { dPlaced.plan with tick := tick, recalsTick := recals } }
def step0 (b : Option Nat) : LearnStep := ⟨b, 0, [], 5, 1⟩
/-- Models 0 and 1 have a learning step, model 1's begun at tick 3. -/
def dPhase : Dev :=
  let d := dBatch [{ smp 0 with done := true }] fun p => { p with mode := 1, left := 0x3F800000 }
  { d with seq := { d.seq with learners := [(0, ⟨some (step0 none), 0, [], [], []⟩), (1, ⟨some (step0 (some 3)), 0, [], [], []⟩)] } }
def stopped0 : StoppedTile := ⟨tile0, 5, false, 64, 1⟩
def pass1 : Pass := { pass0 with partition := 1 }
def dSlack (fault : Nat) : Dev :=
  let d := dBatch [smp 0] fun p => { p with tickNs := 0 }
  { d.put (R.SYN_CTX_STAT_STATE 0) fault with lens := { d.lens with stopped := [stopped0], failed := [(0, 0)], widen := [pass0, pass1] } }
def esc1 : Sparse Word := [((R.TKP_ESC_T1_PRESENT 0).addr, .ofNat 64 (2 ^ (R.TKP_ESC_T1_PRESENT 0).lo))]
def dEsc (ended : Bool) : Dev := dBatch [smp 0] fun p => { p with mode := 6, esc := esc1, plannedEnd := ended, planCfg := 2 }
def smpT0 : Sample := { smp 0 with raw := [some [0], none, none], ys := [some [0], none, none] }
def d1Fmt : List Byte := desc 6 0x3F800000
def passG : Pass := { pass0 with partition := 1024, homes := [1024], out := gtile.out }
def passF (p : Pass) : Pass := { p with actDesc := d1Fmt, wgtDesc := d1Fmt, outDesc := d1Fmt }
def dLens (f : Lens → Lens) : Dev := lens (homed dTile) f
def dRun (r : RunTile) : Dev := dLens fun l => { l with passes := [passF pass0, passF passG], running := [r] }
def run0 : RunTile := ⟨tile0, false, 0, [3], [5]⟩
def runG : RunTile := ⟨gtile, false, 0, [3], [2]⟩
/-- A finished pass of one output, written to `out`. -/
def passDone (out : Sys2Proof.Place) : Pass :=
  { passF pass0 with acc := [(0, 0x40400000)], qblock := leBytes 8 0x3000 ++ leBytes 8 0x3040 ++ leBytes 8 0x3080 ++ zeros 40, out := out }
def dDone (out : Sys2Proof.Place) : Dev := dLens fun l => { l with passes := [passDone out] }
def dCopy : Dev := lens (homed (dMap.memWrite 0x4000 ((List.range 80).map fun i => BitVec.ofNat 8 (3 * i + 1)))) fun l => { l with movers := [mover0] }
def dForJobs : Dev := lens ((dFor [smp 0]).put (R.FOR_ENGINE_STAT_WORD_BAD 0) 1) fun l => { l with jobs := [job0], entered := [(0, 1)], badWords := [0x710000008, 0x710000010] }
def nodeWord : Nat := 0x710000008
def smpS (r : Nat) : Sample := { smp 0 with stateRead := r, admitted := [2] }
def dCommit : Dev := { dSeq [smpS 3] with seq := { (dSeq [smpS 3]).seq with newStates := [0] } }
def learner0 (b : Option Nat) (os : List Overflow) : Learner := ⟨some ⟨b, 0, [1], 9, 1⟩, 0, [], os, []⟩
def lstep (b : Option Nat) : LearnStep := ⟨b, 0, [1], 9, 1⟩
def over0 : Overflow := ⟨0x90000, 0x40000000, true, none⟩
def dOut : Dev := fabm dFab fun f => { f with out := [out0 2 0] }
def dReqFab (x : InOp) : Dev := fabm dFab fun f => { f with out := [out0 1 7], inOps := [x] }
def dIn (x : InOp) : Dev := fabm dFab fun f => { f with inOps := [x] }
def parked (n : Nat) : List Release := List.replicate n ⟨100, 0, 0, 1, 1⟩
def dFull : Dev := fabm (dIn (in0 6 0 (beBytes 8 3) 1 70)) fun f => { f with pairRx := [⟨1, false, 1, 0, [], 0, 0, parked 256⟩] }
def ow0 : OpenWrite := ⟨1, false, 1, 7, 3, 0x2000, [8, 9]⟩
def dOw : Dev := fabm dFab fun f => { f with openWrites := [ow0] }
def lk (d : Dev) (f : Machine.Link → Machine.Link) : Dev := fabm d fun x => { x with links := x.links.map f }
def sblk (n : Nat) : SentBlock := ⟨n, 0, blk n 0 1 []⟩
def tickOps (t c : Nat) : List Byte := beBytes 4 t ++ zeros 6 ++ beBytes 1 c ++ zeros 1 ++ beBytes 4 10
def dEdges (n : Bool) : Dev := { dFab.put R.TKP_TICK_STAT_FOLLOWER 1 with ns := 6000, plan := { dFab.plan with edges := [(4000, 20), (6000, 21)], numbered := n } }
/-- Link 1 is down. -/
def dDown : Dev := dFab.put (R.MIR_STAT_UP 1) 0
def hallFrame (dst typ seq : Nat) (pl : List Byte) : List Byte :=
  beBytes 6 0x0A0B0C0D0E0F ++ beBytes 6 0x102030405060 ++ beBytes 2 0x88B6 ++ beBytes 1 typ ++ zeros 1 ++ beBytes 2 1 ++ beBytes 2 dst
    ++ beBytes 4 seq ++ beBytes 4 1 ++ beBytes 4 0 ++ beBytes 2 pl.length ++ zeros 2 ++ pl
def hallOp : List Byte := opBytes 2 0 3 0 0 0x2000 [1, 2, 3]
def rxHall (f : List Byte) : RxFrame := ⟨0, f, 1⟩
def dHall (f : List Byte) (h : List HallPair := []) : Dev := { dFab true with port := { (dFab true).port with hallRx := [rxHall f] }, fab := { (dFab true).fab with hall := h } }
def unacked (resends : Nat) : HallSent := ⟨2, hallOp, 7, resends⟩
def dUnacked (r : Nat) : Dev := fabm (dFab true) fun f => { f with hall := [⟨1, 4, [unacked r], [], 5, [7]⟩], out := [⟨1, true, 1, 3, 0, 5, 0, 8, 1⟩, out0 1 4] }
def lpe (d : Dev) (f : Loupe → Loupe) : Dev := { d with lpe := f d.lpe }
/-- The trace and counter rings lie in DRAM. -/
def dL : Dev :=
  let d := ((dMap.put R.LPE_RING_COUNTER_BASE 0x100000).put R.LPE_RING_COUNTER_SIZE_MIB 1).put R.LPE_CFG_SAMPLE_US 10
  (d.put R.LPE_RING_TRACE_BASE 0x300000).put R.LPE_RING_TRACE_SIZE_MIB 1
def dWatch (x : WatchRun) (on : Nat) : Dev := lpe (dL.put (R.LPE_WATCH_EN 0) on) fun l => { l with watches := [(0, x)] }
def watched : Sys2Proof.Place := .shared 0x2000
def dPps (pps : Option Nat) (heard : Option Nat) : Dev :=
  let d := dL.put R.LPE_TIME_CFG_SOURCE 3
  { lpe d (fun l => { l with servo := { l.servo with heardNs := heard } }) with ns := 1000001200, sup := { d.sup with ppsIn := pps } }
def acc0 (l : Option Nat) : HealthAcc := ⟨5, 2, 3, 77, l⟩
def dAcc (l : Option Nat) : Dev := lpe dL fun y => { y with healthAcc := [acc0 l] }
def dExp : Dev := (((dL.put R.LPE_CFG_EXPORT_EN 1).put (R.PORT_SUBPORT_STAT_LINK_UP 0) 1).put R.LPE_RING_COUNTER_HEAD 96).put R.LPE_RING_TRACE_HEAD 64
def stepReq (c on n e : Nat) : List Byte := beBytes 1 c ++ beBytes 1 on ++ beBytes 2 n ++ beBytes 2 e ++ zeros 10
def pull (s n pos : Nat) : List Byte := beBytes 1 s ++ zeros 1 ++ beBytes 2 n ++ zeros 4 ++ beBytes 8 pos
def dStepping : Dev := (dExp.put (R.SYN_CTX_STAT_STATE 0) 1).put (R.SYN_CTX_STAT_STEPPING 0) 1
def srun0 : StepRun := ⟨0, 2, 0xFFFF, [(3, 1)], [(3, 70000)], 77⟩
def dStepRun (x : StepRun) : Dev := lpe dStepping fun l => { l with steps := [x] }
def sec (d : Dev) (f : Sec → Sec) : Dev := { d with sec := f d.sec }
def nvm (d : Dev) (f : Nvm → Nvm) : Dev := { d with nvm := f d.nvm }
/-- The stored and the life-cycle state are `n`; a challenge is live. -/
def dLife (n : Nat) : Dev :=
  let d := { (dev0.put R.LCS_STAT_STORED n).put R.LCS_STAT_STATE n with life := { dev0.life with stored := n } }
  sec d fun x => { x with challenge := some (List.replicate 32 7, 9), ownerKey := some [1], imageLoaded := true, rootKey := zeros 68 }
def supp (d : Dev) (f : Supply → Supply) : Dev := { d with sup := f d.sup }
def dSup (ph : Phase) (low : Bool) (row : Nat := 2) : Dev :=
  supp (dMap.put (R.CLK_STAT_LOCKED 3) 0) fun x => { x with phase := ph, resetLow := low, vinRow := row, cause := 1, unlocked := [3] }

def dFollows : Dev := { dTick true false 0 [] with plan := { (dTick true false 0 []).plan with firstTick := none } }
def smpDead : Sample := { smp 0 with dead := true }
def dStopped (granted : Bool) : Dev := dLens fun l => { l with passes := [passF pass0], stopped := [⟨tile0, 5, granted, 0, 1⟩] }
def smpStale : Sample := { smpS 3 with flow := ⟨0, 3, 0⟩ }
def dStale : Dev := { dSeq [smpStale] with seq := { (dSeq [smpStale]).seq with newStates := [0] } }
def dPast : Dev := { dSeq [smpS 3] with plan := { (dSeq [smpS 3]).plan with past := some ⟨62, 1, [smpS 3]⟩ } }
def dForJobs0 : Dev := lens (dFor [smp 0]) fun l => { l with jobs := [job0] }

def regW1s : RegDesc := { RegMap.dPORT_SUBPORT_STAT with fields := [⟨0, 1, 1, 0, .w1s, 0⟩] }
def words2 : List Word := [8, 0x1122334455667788]
def ctrMax : Ctr := ⟨65535, 0, 5⟩
def reqNow : Word := 63 * 2 ^ 32
def reqPast : Word := 62 * 2 ^ 32
def passOdd : Pass := { passF pass0 with wgtDesc := desc 31 0x3F800000 }
def dOdd : Dev := dLens fun l => { l with passes := [passOdd] }
def dEntAge (ns : Nat) : Dev :=
  let d := (dEnt ns).put R.MEM_MAP_INFO_LIVE_CHANNELS 512
  { d with front := { d.front with ageVisited := d.ageFirst (some 0) } }
def noLink : Option Nat := none
def tWarm : List TempReading := [⟨0, 919⟩, ⟨64, 839⟩]
def tHot : List TempReading := [⟨63, 920⟩]
def tHotDram : List TempReading := [⟨64, 840⟩]
def words12 : List Word := [1, 2]
/-- A die that a transition has moved to PROVISIONED. -/
def dMoved : Dev := { dev0 with life := { dev0.life with stored := 1, seq := 1, log := [⟨1, 0, 1, 2, 0, 0, 0⟩] } }
def dEndorsed : Dev := { dev0 with nvm := { dev0.nvm with endorsement := [1] } }
def dNoSlot : Dev := dev0.each (range 0 4) fun d x => d.put (R.CLS_VER_STATE x) 2
def dRecirc : Dev := dFront (pk (.recirc 0 0 0) 1 0) fun f => { f with recircs := [9] }
def dLookup : Dev := dFront (pk .flow 1 0) fun f => { f with lookups := [9] }
def pUnsampled : Packet := { pk .held 1 0 with why := .noSlot, sp := 1 }
def dUnsampled : Dev := dFront pUnsampled id
def dGroup : Dev := dBatch [smp 0] fun p => { p with openGroup := [⟨0, [1], (0, 1)⟩] }
def dPass : Dev := dLens fun l => { l with passes := [passF pass0] }
def smpNext : Sample := { smp 0 with stateRead := 1 }
def inStray : InOp := { in0 0x81 0 (zeros 8) with tag := 99 }
def dNoCredit : Dev := lk dFab fun l => { l with peerReq := 0 }
def dLastSeq : Dev := lk dFab fun l => { l with rxNext := 2^24 - 1 }
def dSent : Dev := lk dFab fun l => { l with unacked := [sblk 3, sblk 4] }
def dGap : Dev := lk dFab fun l => { l with gap := some (1, 7, 2) }
def dLifePend : Dev := lpe dL fun l => { l with lifePend := [zeros 32] }
def dCopyBusy : Dev := lpe dL fun l => { l with copyBusy := true, copyData := [1, 2] }
def dBatchDone : Dev := lpe dStepping fun l => { l with stepBatches := [(0, ⟨[smp 0], true⟩)] }

/-- Sub-port 0 is the Hall sub-port. -/
def dHallPort : Dev := (dPort.put R.TKP_MODE_FABRIC_HALL 1).put R.PORT_CFG_HALL_SUBPORT 0
/-- The inline buffer has no room. -/
def dBufFull : Dev := { dPort with port := { dPort.port with subs := dPort.port.subs.modify 0 fun s => { s with egress := [⟨3, 1, [], 2^23, false, none⟩] } } }
/-- Class 1 is held behind which a packet of class 2 may leave. -/
def dBehind : Dev :=
  { dSend.put (R.PORT_SUBPORT_STAT_PAUSED 0) 2 with port := { dSend.port with subs := dSend.port.subs.modify 0 fun s => { s with egress := [egr 3 false, { egr 4 false with cls := 2 }] } } }
/-- A request of which only the head is right: its payload and its CRC are not. -/
def reqRaw (op len : Nat) : List Byte :=
  beBytes 6 0x0A0B0C0D0E0F ++ beBytes 6 0x102030405060 ++ beBytes 2 0x88B5 ++ [0, 0] ++ reqHead op 5 0 len 0
def dAsk (f : List Byte) : Dev := { dReq [] 3 [] with port := { dPort.port with ctlRx := [⟨0, f, 0⟩, ⟨7, [], 0⟩] } }
/-- Two requests of one cycle. -/
def dTwoAtOnce : Dev :=
  { dReq [] 3 [] with port := { dPort.port with ctlRx := [⟨3, reqFrame 1 5 0x10 [], 0⟩, ⟨0, reqFrame 1 5 0x10 [], 0⟩, ⟨7, [], 0⟩] } }
/-- The counter is being written in this cycle. -/
def dRaced (v : Nat) (ws : List Wait) : Dev := { dCtr v ws with sync := { (dCtr v ws).sync with written := some (768, (dCtr v ws).ns) } }
def wordsBadSel : List Word := [0xD01000000, 0x1000D01007000]
def wordsLong : List Word := [8185]
def wordsShort : List Word := [9, 1]
def noWords : List Word := []
def words1141 : List Word := List.replicate 1141 0
def rightOf (d : Dev) (x : (Nat × Nat) ⊕ Dev) : Dev := match x with | .inr e => e | .inl _ => d
/-- A record whose reserved bytes are not zero. -/
def recReserved : List Byte := overlay (addRec 0 0 5 7 0) 95 [1]
def dOpeningBad : Dev := { dStage with front := { dStage.front with opening := some (addRec 33 0 5 7 0) } }
def dOpeningWaits : Dev := { dOpening with front := { dOpening.front with ruleWaits := [(0x11, []), (0x12, [])] } }
/-- Position 16385 matches every key in slot 0; profile 0 searches banks 0 and 1. -/
def dHit : Dev := (((dPar.put (R.CLS_PROFILE_BANK_COUNT 0) 2).put (R.CLS_PROFILE_BANK1 0) 1).setWord (posAddr 16385 + 88) 1).setParity 16385 true
/-- The device when its copy sweep has ended. -/
def swept (d : Dev) : Dev :=
  let e := (d.dropSweep 1).copyCurrent 1
  { e with front := { e.front with opening := none } }
/-- The packet that waits for a pass has its flow in the cache. -/
def dRecircDirect : Dev :=
  let key := dRecirc.flowKey (dRecirc.get (R.FLW_POLICY_KEY_PROFILE 0)) 0 0 (zeros 128)
  let e := key.key ++ [BitVec.ofNat 8 (b2n key.frag + 4 * key.profile), 1] ++ leBytes 4 key.hash ++ zeros 144
  { dRecirc with front := { dRecirc.front with cache := [(key.hash % 65536, [⟨4 * (key.hash % 2^23), e, false⟩])] } }
def pGone : Packet := { pHeld with gone := true }
/-- The slot sets can be read. -/
def seen (d : Dev) : Dev := { d.put R.MEM_MAP_INFO_LIVE_CHANNELS 512 with seq := { d.seq with slotSets := [0x10000, 0x20000] } }
def smpA : Sample := { smpT0 with admitted := [1] }
def smpB : Sample := { smp 0 with admitted := [1] }
def smpDone : Sample := { smpT0 with done := true }
def stepped0 (d : Dev) : Dev := (d.put (R.SYN_CTX_STAT_STATE 0) 1).put (R.SYN_CTX_STAT_STEPPING 0) 1
/-- The forest's program does not run. -/
def dForOff : Dev := { dFor [smp 0] with plan := { (dFor [smp 0]).plan with placed := [{ prog 3 [0] with running := false }] } }
/-- The model's sample has entered and is evaluated again. -/
def dForAgain : Dev := lens (dFor [smp 0]) fun l => { l with entered := [(0, 1)], reeval := [(0, 0)] }
def runAgain : RunTile := { run0 with again := true }
/-- A Grating's tile with its quantisation block and its operands in the cluster's memory. -/
def gtile2 : Tile := { gtile with qblock := gbase + 0x1000 }
def dTileG : Dev :=
  homed ((((dMap.memWrite (gbase + 0x1000) (leBytes 8 (gbase + 0x3000) ++ leBytes 8 (gbase + 0x3040) ++ leBytes 8 (gbase + 0x3080) ++ leBytes 8 (gbase + 0x4000) ++ zeros 32)).memWrite
    (gbase + 0x3000) (desc 6 0x3F800000)).memWrite (gbase + 0x3040) (desc 6 0x3F800000)).memWrite (gbase + 0x3080) (desc 6 0x3F800000))
def dColl : Dev := { dSeq [] with plan := { (dSeq []).plan with collecting := some ⟨64, 1, [smpNext]⟩ } }
def dStepCommit : Dev := lpe (stepped0 dCommit) fun l => { l with steps := [⟨0, 2, 0xFFFF, [], [], 77⟩] }
def req64 : Word := 64 * 2 ^ 32
def req7 : Word := 7 * 2 ^ 32 + 5 * 65536
def dQuoted : Dev := sec (dLife 2) fun x => { x with quotes := [⟨5, [1]⟩] }
def dIdKey : Dev := nvm (dLife 2) fun n => { n with idKey := true }
def dCert : Dev := nvm (dLife 2) fun n => { n with certs := [⟨7, 1, [1, 2]⟩] }
def dNvmOp : Dev := supp (dSup .held true) fun x => { x with nvmOp := some ⟨3, 1, 1, 0⟩ }
def pub0 : Published := ⟨0x1000, watched, 9, 0x3F800000⟩
def read0 : WatchRead := ⟨watched, 9, 6, desc 6 0x3F800000, 0, 0, 0⟩
def writes0 : List (Nat × List Byte) := [(0x91000, [1, 2])]
def noWrites : List (Nat × List Byte) := []
def srunNew : StepRun := ⟨0, 2, 0xFFFF, [], [], 77⟩

/-- Link 1 is down and its electrical training has succeeded. -/
def dTrained : Dev := lk dDown fun l => { l with trained := true }
def wait1 : WaitBlock := ⟨0, [1, 2], none⟩
def dWaits : Dev := lk dFab fun l => { l with waiting := [wait1] }
def dRemOff (x : InOp) : Dev := (dIn x).put R.MEM_CFG_REMOTE_EN 0
def dFenced (x : InOp) : Dev := fabm (dReqFab x) fun f => { f with held := [⟨[(1, false, 7)], 6, 1, 0, 5, false, true, 8, 0, beBytes 8 3⟩] }
def hallWaits : HallPair := ⟨1, 4, [], [wait1], 0, []⟩
def badCtr : Nat := 0x40000
def dFullCtr (x : InOp) : Dev := (dIn x).setCtr 768 ctrMax
def dMany : Dev := { dFab with fab := { dFab.fab with out := List.replicate 32768 (out0 1 0) } }

/-- Region `w` has stopped. -/
def dRegionOff (w : Nat) : Dev := dev0.put (R.LPE_REGION_STAT_STOPPED w) 1
def dStepProg : Dev :=
  let d := lpe dStepping fun l => { l with steps := [srun0], cmds := [⟨0, 0, 0, 0, 3, [], true, 5, []⟩] }
  { d with plan := { d.plan with placed := [⟨0, 0, 0, 0, 1, false, [0], true, []⟩] } }
/-- A wait on the context's counter 1. -/
def wOther : Wait := ⟨.counter 1 9, 0, 78, 0, true⟩
/-- The stored state is `n`, a challenge is live, and the root key is given. -/
def dRoot (n : Nat) (key : List Byte) : Dev := sec (dLife n) fun x => { x with rootKey := key }

/-! ### Commands that the check refuses -/

theorem test_wf_long_frame : (Instr.receiveFrame 0 (List.replicate 16385 0) 0 0).wellFormed = false := by decide +kernel

theorem test_wf_longest_frame : (Instr.receiveFrame 0 (List.replicate 16384 0) 0 0).wellFormed = true := by decide +kernel

theorem test_wf_reading :
    (Instr.tickBoundary ⟨0, [⟨0, 32768⟩]⟩).wellFormed = false ∧ (Instr.tickSyncEdge ⟨0, [⟨0, -32769⟩]⟩).wellFormed = false
      ∧ (Instr.refreshDouble 0 [⟨0, 32768⟩]).wellFormed = false ∧ (Instr.softStep [⟨0, 32768⟩]).wellFormed = false
      ∧ (Instr.throttleEnter [⟨0, 32768⟩]).wellFormed = false ∧ (Instr.thermalShutdown [⟨0, -32769⟩]).wellFormed = false := by decide

theorem test_wf_tick_block : (Instr.tickBlock 0 (zeros 15)).wellFormed = false := by decide

theorem test_wf_tier_result :
    (Instr.tierResultWritten 8192 0 [0]).wellFormed = false ∧ (Instr.tierResultWritten 0 0 []).wellFormed = false
      ∧ (Instr.tierResultWritten 0 0 (List.replicate 17 0)).wellFormed = false := by decide

theorem test_wf_tile : (Instr.tileIssue tile0 []).wellFormed = true ∧ (Instr.gratingTileIssue gtile []).wellFormed = true := by decide

theorem test_wf_tile_vectors : (Instr.tileIssue { tile0 with m := 257, mTotal := 257 } []).wellFormed = false := by decide

theorem test_wf_tile_rows : (Instr.tileIssue { tile0 with k := 33, kTotal := 33 } []).wellFormed = false := by decide

theorem test_wf_tile_columns : (Instr.tileIssue { tile0 with n := 17, nTotal := 17 } []).wellFormed = false := by decide

theorem test_wf_tile_past_operand : (Instr.tileIssue { tile0 with kBase := tile0.kTotal } []).wellFormed = false := by decide

theorem test_wf_tile_place : (Instr.tileIssue { tile0 with partition := 1024 } []).wellFormed = false := by decide

theorem test_wf_tile_form :
    (Instr.tileIssue gtile []).wellFormed = false ∧ (Instr.gratingTileIssue tile0 []).wellFormed = false := by decide

theorem test_wf_mover : (Instr.moverOp mover0).wellFormed = true ∧ (Instr.moverOp { mover0 with cols := 4097, srcPitch := 4097, dstPitch := 4097 }).wellFormed = false := by decide

theorem test_wf_mover_element : (Instr.moverOp { mover0 with elemBits := 12 }).wellFormed = false := by decide

theorem test_wf_mover_pitch : (Instr.moverOp { mover0 with dstPitch := 0 }).wellFormed = false := by decide

theorem test_wf_mover_place :
    (Instr.moverOp { mover0 with src := .core 16 0 }).wellFormed = false ∧ (Instr.moverOp { mover0 with dst := .core 0 0x7FFFF }).wellFormed = false := by decide

theorem test_wf_mover_nibbles : (Instr.moverOp { mover0 with elemBits := 4, transpose := true }).wellFormed = false := by decide

theorem test_wf_elementwise :
    (Instr.elementwiseOp { elt0 with count := 0 } []).wellFormed = false ∧ (Instr.elementwiseOp { elt0 with a := .core 1 0 } []).wellFormed = false := by decide

theorem test_wf_push : (Instr.queuePush { push true true false with entry := zeros 63 }).wellFormed = false := by decide

theorem test_wf_remote :
    (Instr.remoteRequestIssue (rreq 1 1 0x2000 [] 63)).wellFormed = false ∧ (Instr.remoteRequestIssue (rreq 3 1 0x2004 (zeros 8))).wellFormed = false
      ∧ (Instr.remoteRequestIssue (rreq 7 1 0x2000 [])).wellFormed = false := by decide

theorem test_wf_mirror_block : (Instr.mirrorBlockReceive 0 (zeros 255) false).wellFormed = false := by decide +kernel

theorem test_wf_stage_data : (Instr.modelStageData (zeros 65536)).wellFormed = false := by
  simp only [Instr.wellFormed, zeros, List.length_replicate]
  decide

theorem test_wf_write_block : (Instr.writeBlock 0 (List.replicate 8192 0)).wellFormed = false := by
  simp only [Instr.wellFormed, List.length_replicate]
  decide

theorem test_wf_endorse : (Instr.endorseWrite (List.replicate 2049 0)).wellFormed = false := by
  simp only [Instr.wellFormed, List.length_replicate]
  decide

theorem test_wf_nonce : (Instr.quote (zeros 65)).wellFormed = false := by decide

/-! ### The spec's worked examples -/

/-- Table 7.11, INT4. -/
theorem test_convert_int4 :
    convert 4 (.fin false 7 2) = ⟨4, false, false, false⟩ ∧ convert 4 (.fin true 5 2) = ⟨13, false, false, false⟩
      ∧ convert 4 (.fin false 744 100) = ⟨7, false, false, false⟩ ∧ convert 4 (.fin false 15 2) = ⟨7, true, false, false⟩
      ∧ convert 4 (.fin true 17 2) = ⟨8, true, false, false⟩ ∧ convert 4 (.nan false) = ⟨0, false, true, false⟩ := by decide

/-- Table 7.11, NQ4. -/
theorem test_convert_nq4 :
    convert 9 (.fin false 1 2) = ⟨5, false, false, false⟩ ∧ convert 9 (.fin false 123 256) = ⟨5, false, false, false⟩
      ∧ convert 9 (.fin true 2 100) = ⟨8, false, false, false⟩ ∧ convert 9 (.fin false 0 1) = ⟨0, false, false, false⟩
      ∧ convert 9 (.fin false 11 10) = ⟨7, false, false, false⟩ ∧ convert 9 (.fin false 12 10) = ⟨7, true, false, false⟩ := by decide

/-- Table 7.11, E4M3. -/
theorem test_convert_e4m3 :
    convert 11 (.fin false 300 1) = ⟨0x79, false, false, false⟩ ∧ convert 11 (.fin false 304 1) = ⟨0x7A, false, false, false⟩
      ∧ convert 11 (.fin false 460 1) = ⟨0x7E, false, false, false⟩ ∧ convert 11 (.fin false 464 1) = ⟨0x7E, true, false, false⟩
      ∧ convert 11 (.inf false) = ⟨0x7E, true, false, false⟩ ∧ convert 11 (.fin false 1 1024) = ⟨1, false, false, false⟩
      ∧ convert 11 (.fin false 1 2048) = ⟨0, false, false, true⟩ ∧ convert 11 (.nan false) = ⟨0x7F, false, false, false⟩ := by decide +kernel

/-- The tree of Table 9.13 as tree 0 of engine 9, and set 0. -/
def dTree : Dev :=
  let d := (((dev0.setWord 0x710090000 0x0008040200000004).setWord 0x710090008 0x00000400447A0000).setWord 0x710090010 0x0018160100000000).setWord
    0x710090018 0x0010150300000400
  (((d.put (R.FOR_TREE_NODE_COUNT 9 0) 4).put (R.FOR_TREE_LEAF_COUNT 9 0) 5).put (R.FOR_TREE_VALID 9 0) 1).setWord 0x740048000 0x40

/-- The example of Table 9.13: sample S1 leaves at C. -/
theorem test_tree_s1 : dTree.exitLeaf 9 0 [.float 0x437A0000, .cat 6, .uint 4, .uint 443] = some 2 := by decide +kernel

/-- Sample S2 leaves at B. -/
theorem test_tree_s2 : dTree.exitLeaf 9 0 [.missing, .cat 17, .uint 1, .missing] = some 1 := by decide +kernel

/-- The length bins of Table 5.9 and the text below it. -/
theorem test_length_bins : lenBin 74 = 0 ∧ lenBin 1514 = 8 ∧ iatBin 900 = 3 ∧ iatBin 500 = 2 := by decide +kernel

/-- The flow's entry after packet `n + 1` of Table 5.9. -/
def flow59 (n : Nat) : List Byte :=
  let fv (len : Nat) : List Byte := overlay (zeros 512) 4 (leBytes 2 len)
  let d := dev0.put (R.FLW_POLICY_IAT_SHIFT 0) 2
  let fwd : FlowKey := ⟨zeros 42, true, false, 0, 0, false⟩
  let e0 := dev0.newEntry fwd 0 0 10000
  let e1 := (d.features e0 fwd 0 10000 (fv 74) true).1
  let e2 := (d.features e1 { fwd with srcLow := false } 0 10900 (fv 74) false).1
  let e3 := (d.features e2 fwd 0 11400 (fv 1514) false).1
  [e1, e2, e3].getD n []

/-- Table 5.9: the entry after the third packet. -/
theorem test_flow_counts :
    leAt (flow59 2) 96 4 = 2 ∧ leAt (flow59 2) 100 4 = 1 ∧ leAt (flow59 2) 104 6 = 1588 ∧ leAt (flow59 2) 110 6 = 74
      ∧ leAt (flow59 2) 116 2 = 74 ∧ leAt (flow59 2) 118 2 = 1514 := by decide +kernel

/-- Table 5.9: its times and histograms. -/
theorem test_flow_times :
    leAt (flow59 2) 128 4 = 500 ∧ leAt (flow59 2) 132 4 = 900 ∧ leAt (flow59 2) 144 8 = 0x0000000100000002
      ∧ leAt (flow59 2) 152 8 = 0x1100 := by decide +kernel

/-- Table 5.9: `IAT_MEAN` 900 then 800, `IAT_DEV` 0 then 100. -/
theorem test_flow_means :
    leAt (flow59 1) 136 4 = 0x44610000 ∧ leAt (flow59 1) 140 4 = 0 ∧ leAt (flow59 2) 136 4 = 0x44480000 ∧ leAt (flow59 2) 140 4 = 0x42C80000 := by
  decide +kernel

/-- SHAKE256 of the empty string (R589, R590), as FIPS 202 gives it: its first 32 bytes. -/
theorem test_shake256_empty :
    shake256 [] = beBytes 32 0x46b9dd2b0ba88d13233b3feb743eeb243fcd52ea62b81b82b50c27646ed5762f := by decide +kernel

/-! ### States and operands that meet the hypotheses of the obligations -/

/-- States and operands that meet the hypotheses of each clause of `Obligations.IdleCountsTimeBase`. -/
theorem witness_IdleCountsTimeBase :
    (T dev0).pending = [] := by
  decide +kernel

/-- A command that has a next state (`Obligations.ExecKeepsQueue`). -/
theorem witness_ExecKeepsQueue : exec .pauseRepeat ⟨dev0, [.powerFail]⟩ = .next ⟨dev0, [.powerFail]⟩ := by
  rfl

/-- States and operands that meet the hypotheses of each clause of `Obligations.OnlyRatingsStop`. -/
theorem witness_OnlyRatingsStop :
    (14000 ≤ -300 ∨ -300 ≤ -300)
    ∧ (14000 ≤ 14000 ∨ 14000 ≤ -300) := by
  decide +kernel

/-- Supply voltages on either side of the absolute maximum ratings (`Obligations.OnlyRatingsStop`). -/
theorem witness_OnlyRatingsStop_next :
    (∀ mv : Int, Instr.vinChange (-299) = .vinChange mv → -300 < mv ∧ mv < 14000)
      ∧ ∀ mv : Int, Instr.vinChange 13999 = .vinChange mv → -300 < mv ∧ mv < 14000 := by
  refine ⟨?_, ?_⟩ <;> intro mv h <;> cases h <;> decide

/-- States and operands that meet the hypotheses of each clause of `Obligations.OnlyRunningDeviceActs`. -/
theorem witness_OnlyRunningDeviceActs :
    (dSup Phase.halted false).sup.phase ≠ Phase.running
    ∧ Instr.pauseRepeat.actsStopped = false
    ∧ Instr.pauseWindowEnd.halted (dRegionOff 18) = true := by
  decide +kernel

/-- The fields of a `TRANSITION` to state 5 under a Level 2 token. -/
theorem pay_formed (token : List Byte) (h : token.length = 2820) :
    lifecycleFormed (lifecyclePayload 2 5 2 token) = true ∧ beAt (lifecyclePayload 2 5 2 token) 0 1 = 2
      ∧ beAt (lifecyclePayload 2 5 2 token) 1 1 = 5 ∧ beAt (lifecyclePayload 2 5 2 token) 2 1 = 2
      ∧ (lifecyclePayload 2 5 2 token).drop 16 = token := by
  have hb (i : Nat) (hi : i < 3) : beAt (lifecyclePayload 2 5 2 token) i 1 = beAt [2, 5, 2] i 1 := by
    match i, hi with
    | 0, _ => rfl
    | 1, _ => rfl
    | 2, _ => rfl
  have h0 := hb 0 (by decide)
  have h1 := hb 1 (by decide)
  have h2 := hb 2 (by decide)
  have hz : sub (lifecyclePayload 2 5 2 token) 3 13 = zeros 13 := rfl
  have hl : (lifecyclePayload 2 5 2 token).length = 2836 := by simp [lifecyclePayload, zeros, h]
  refine ⟨?_, h0, h1, h2, rfl⟩
  have hw : within 1 2 (beAt (lifecyclePayload 2 5 2 token) 2 1) = true := by rw [h2]; decide
  have ha : (zeros 13).all (fun x => x = 0) = true := by decide
  rw [lifecycleFormed, h0]
  show (decide _ && _ && List.all (sub (lifecyclePayload 2 5 2 token) 3 13) _) = true
  rw [hw, hz, ha, hl]
  rfl

/-- A Level 2 transition out of state 4 is in order under a token that verifies. -/
theorem status_ok (key token : List Byte) (h : (dRoot 4 key).tokenOk 2 5 token = true) : (dRoot 4 key).transitionStatus 5 2 token = St.ok := by
  have ha : transitionAuth (dRoot 4 key).life.stored 5 = some [2] := rfl
  simp [Dev.transitionStatus, ha, h]

/-- So its request is answered OK. -/
theorem request_ok (key token p : List Byte) (h : (dRoot 4 key).tokenOk 2 5 token = true)
    (hp : lifecycleFormed p = true ∧ beAt p 0 1 = 2 ∧ beAt p 1 1 = 5 ∧ beAt p 2 1 = 2 ∧ p.drop 16 = token) :
    (dRoot 4 key).transitionOk p = true ∧ (dRoot 4 key).lifecycleAccepted p = true := by
  obtain ⟨h0, h1, h2, h3, h4⟩ := hp
  have hq : (dRoot 4 key).ctl.queue = [] := rfl
  have ho : opcodeAccepted 0x70 ((dRoot 4 key).get R.LCS_STAT_STATE) = true :=
    (by decide +kernel : opcodeAccepted 0x70 ((dLife 4).get R.LCS_STAT_STATE) = true)
  refine ⟨by simp [Dev.transitionOk, h0, h2, h3, h4, status_ok key token h], ?_⟩
  simp [Dev.lifecycleAccepted, Dev.isTurn, Dev.lifecycleRequest, Dev.requestBy, hq, Dev.ifAccepted, ho, Dev.lifecycleOp, h1,
    Dev.transitionOp, h0, h2, h3, h4, status_ok key token h, Dev.noteAnswer, Dev.countStage]

/-- A step that moves the stored state (`Obligations.OnlyTable167Moves`). -/
theorem witness_OnlyTable167Moves :
    ∃ key token t, step ⟨dRoot 4 key, [.transition 5 2 token]⟩ = .next t ∧ t.dev.life.stored ≠ (dRoot 4 key).life.stored := by
  obtain ⟨key, token, h, hl⟩ := XmssSet.single_signs (shake256 (tokenBytes (List.replicate 32 7) 4 5))
  refine ⟨key, token, _, rfl, ?_⟩
  have hp := pay_formed token hl
  obtain ⟨ok, ha⟩ := request_ok key token _ h hp
  have ht : beAt (lifecyclePayload 2 5 2 token) 1 1 = 5 := hp.2.2.1
  show (Dev.lifeAtTransition (lifecyclePayload 2 5 2 token) (dRoot 4 key) _).stored ≠ 4
  rw [Dev.lifeAtTransition, ok, ha, ht]
  simp [Life.enter]

/-- A step from a state with one life-cycle record (`Obligations.LifeRecordsStayLegal`). -/
theorem witness_LifeRecordsStayLegal :
    step ⟨dMoved, [.pauseRepeat]⟩ = .next (T dMoved) ∧ dMoved.life.Legal := by
  refine ⟨rfl, ⟨by decide, by decide, by decide, by decide, ?_⟩⟩
  simp [dMoved, LcsRecord.chain, lifeMoves]

/-- A step that has a next state (`Obligations.IdentityRegionMonotone`). -/
theorem witness_IdentityRegionMonotone : step ⟨dev0, [.pauseRepeat]⟩ = .next (T dev0) := by
  rfl

/-- States and operands that meet the hypotheses of each clause of `Obligations.BadFrameDiscarded`. -/
theorem witness_BadFrameDiscarded :
    -- RECEIVE_FRAME
    (T dPort).RunsIn 18
    ∧ dPort.up 0 = true
    ∧ 64 ≤ (zeros 64).length
    ∧ (zeros 64).length ≤ 9216
    ∧ (1 ≠ 0 ∨ List.drop ((zeros 64).length - 4) (zeros 64) ≠ fcsBytes (List.take ((zeros 64).length - 4) (zeros 64)))
    -- RECEIVE_FRAME
    ∧ 64 ≤ (zeros 9216).length
    ∧ (zeros 9216).length ≤ 9216
    ∧ (1 ≠ 0 ∨ List.drop ((zeros 9216).length - 4) (zeros 9216) ≠ fcsBytes (List.take ((zeros 9216).length - 4) (zeros 9216))) := by
  decide +kernel

/-- States and operands that meet the hypotheses of each clause of `Obligations.ReceptionSorted`. -/
theorem witness_ReceptionSorted :
    (T dev0).RunsIn 18
    ∧ dev0.up 7 = false
    -- RECEIVE_FRAME
    ∧ (T dPort).RunsIn 18
    ∧ dPort.up 0 = true
    ∧ (zeros 63).length < 64
    -- RECEIVE_FRAME
    ∧ 9216 < (zeros 9217).length
    -- RECEIVE_FRAME
    ∧ 64 ≤ (framed (frame60 34824 [])).length
    ∧ (framed (frame60 34824 [])).length ≤ 9216
    ∧ List.drop ((framed (frame60 34824 [])).length - 4) (framed (frame60 34824 [])) = fcsBytes (List.take ((framed (frame60
        34824 [])).length - 4) (framed (frame60 34824 [])))
    ∧ beAt (List.take ((framed (frame60 34824 [])).length - 4) (framed (frame60 34824 []))) 12 2 = 34824
    -- RECEIVE_FRAME
    ∧ 64 ≤ (framed (frame60 34997 [1])).length
    ∧ (framed (frame60 34997 [1])).length ≤ 9216
    ∧ List.drop ((framed (frame60 34997 [1])).length - 4) (framed (frame60 34997 [1])) = fcsBytes (List.take ((framed
        (frame60 34997 [1])).length - 4) (framed (frame60 34997 [1])))
    ∧ (decide ((etherOf (List.take ((framed (frame60 34997 [1])).length - 4) (framed (frame60 34997 [1])))).1 = 34997) &&
        decide (BitVec.toNat (byteAt (List.take ((framed (frame60 34997 [1])).length - 4) (framed (frame60 34997 [1])))
        ((etherOf (List.take ((framed (frame60 34997 [1])).length - 4) (framed (frame60 34997 [1])))).2 + 2)) = 1)) = true
    -- RECEIVE_FRAME
    ∧ (T dHallPort).RunsIn 18
    ∧ dHallPort.up 0 = true
    ∧ 64 ≤ (framed (frame60 34998 [])).length
    ∧ (framed (frame60 34998 [])).length ≤ 9216
    ∧ List.drop ((framed (frame60 34998 [])).length - 4) (framed (frame60 34998 [])) = fcsBytes (List.take ((framed (frame60
        34998 [])).length - 4) (framed (frame60 34998 [])))
    ∧ (decide ((etherOf (List.take ((framed (frame60 34998 [])).length - 4) (framed (frame60 34998 [])))).1 = 34998) &&
        dHallPort.on R.TKP_MODE_FABRIC_HALL && decide (0 = dHallPort.get R.PORT_CFG_HALL_SUBPORT)) = true
    -- RECEIVE_FRAME
    ∧ (T (dPort.put R.LCS_STAT_STATE 3)).RunsIn 18
    ∧ (dPort.put R.LCS_STAT_STATE 3).up 0 = true
    ∧ 64 ≤ (framed (frame60 2048 [])).length
    ∧ (framed (frame60 2048 [])).length ≤ 9216
    ∧ List.drop ((framed (frame60 2048 [])).length - 4) (framed (frame60 2048 [])) = fcsBytes (List.take ((framed (frame60
        2048 [])).length - 4) (framed (frame60 2048 [])))
    ∧ beAt (List.take ((framed (frame60 2048 [])).length - 4) (framed (frame60 2048 []))) 12 2 ≠ 34824
    ∧ (decide ((etherOf (List.take ((framed (frame60 2048 [])).length - 4) (framed (frame60 2048 [])))).1 = 34997) && decide
        (BitVec.toNat (byteAt (List.take ((framed (frame60 2048 [])).length - 4) (framed (frame60 2048 []))) ((etherOf
        (List.take ((framed (frame60 2048 [])).length - 4) (framed (frame60 2048 [])))).2 + 2)) = 1)) = false
    ∧ (decide ((etherOf (List.take ((framed (frame60 2048 [])).length - 4) (framed (frame60 2048 [])))).1 = 34998) &&
        (dPort.put R.LCS_STAT_STATE 3).on R.TKP_MODE_FABRIC_HALL && decide (0 = (dPort.put R.LCS_STAT_STATE 3).get
        R.PORT_CFG_HALL_SUBPORT)) = false
    ∧ (dPort.put R.LCS_STAT_STATE 3).get R.LCS_STAT_STATE ≠ 2
    -- RECEIVE_FRAME
    ∧ (T dBufFull).RunsIn 18
    ∧ dBufFull.up 0 = true
    ∧ (decide ((etherOf (List.take ((framed (frame60 2048 [])).length - 4) (framed (frame60 2048 [])))).1 = 34998) &&
        dBufFull.on R.TKP_MODE_FABRIC_HALL && decide (0 = dBufFull.get R.PORT_CFG_HALL_SUBPORT)) = false
    ∧ dBufFull.get R.LCS_STAT_STATE = 2
    ∧ (dBufFull.mode 0 != 0 || decide (dBufFull.inlineBytes + heldBytes (List.take ((framed (frame60 2048 [])).length - 4)
        (framed (frame60 2048 []))).length ≤ 8 * 2 ^ 20)) = false
    -- RECEIVE_FRAME
    ∧ (decide ((etherOf (List.take ((framed (frame60 2048 [])).length - 4) (framed (frame60 2048 [])))).1 = 34998) &&
        dPort.on R.TKP_MODE_FABRIC_HALL && decide (0 = dPort.get R.PORT_CFG_HALL_SUBPORT)) = false
    ∧ dPort.get R.LCS_STAT_STATE = 2
    ∧ (dPort.mode 0 != 0 || decide (dPort.inlineBytes + heldBytes (List.take ((framed (frame60 2048 [])).length - 4) (framed
        (frame60 2048 []))).length ≤ 8 * 2 ^ 20)) = true := by
  refine ⟨?_, ?_, ?_, ?_, ?_, ?_, ?_, ?_, ?_, ?_, ?_, ?_, ?_, ?_, ?_, ?_, ?_, ?_, ?_, ?_, ?_, ?_, ?_, ?_, ?_, ?_, ?_, ?_, ?_, ?_,
    ?_, ?_, ?_, ?_, ?_, ?_, ?_⟩ <;> decide +kernel

/-- States and operands that meet the hypotheses of each clause of `Obligations.PauseEnds`. -/
theorem witness_PauseEnds :
    -- PAUSE_QUANTA_EXPIRY
    (T dPaused).RunsIn 18
    ∧ dPaused.classPaused 0 7 = true
    -- PAUSE_CEILING_REACHED
    ∧ dPaused.get (R.PORT_SUBPORT_CFG_PAUSE_CEIL_PCT 0) < 100
    ∧ (T dPort).RunsIn 18
    ∧ dPort.classPaused 0 7 = false
    ∧ (T (dPaused.put (R.PORT_SUBPORT_CFG_PAUSE_CEIL_PCT 0) 100)).RunsIn 18
    ∧ 100 ≤ (dPaused.put (R.PORT_SUBPORT_CFG_PAUSE_CEIL_PCT 0) 100).get (R.PORT_SUBPORT_CFG_PAUSE_CEIL_PCT 0) := by
  decide +kernel

/-- States and operands that meet the hypotheses of each clause of `Obligations.MacControlTaken`. -/
theorem witness_MacControlTaken :
    (T dPort).RunsIn 18
    ∧ dPort.port.macCtl = []
    -- PAUSE_FRAME_RECEIVE
    ∧ (T (dMac (macFrame 1 (beBytes 2 100)) 1)).RunsIn 18
    ∧ (dMac (macFrame 1 (beBytes 2 100)) 1).port.macCtl =
        [{ sp := 0, bytes := macFrame 1 (beBytes 2 100), rxTime := 0 : RxFrame },
        { sp := 7, bytes := macFrame 1 (beBytes 2 100), rxTime := 0 : RxFrame }]
    ∧ 0 < 8
    ∧ (beAt (macFrame 1 (beBytes 2 100)) 0 6 ≠ 1652522221569 ∧ beAt (macFrame 1 (beBytes 2 100)) 0 6 ≠ (dMac (macFrame 1
        (beBytes 2 100)) 1).get R.PORT_MAC_ADDR_MAC ∨ beAt (macFrame 1 (beBytes 2 100)) 14 2 = 1 ∧ (dMac (macFrame 1 (beBytes
        2 100)) 1).on (R.PORT_SUBPORT_CFG_PFC_EN 0) = true ∨ beAt (macFrame 1 (beBytes 2 100)) 14 2 = 257 ∧ (dMac (macFrame 1
        (beBytes 2 100)) 1).on (R.PORT_SUBPORT_CFG_PFC_EN 0) = false ∨ beAt (macFrame 1 (beBytes 2 100)) 14 2 = 257 ∧ 256 ≤
        beAt (macFrame 1 (beBytes 2 100)) 16 2 ∨ beAt (macFrame 1 (beBytes 2 100)) 14 2 ≠ 1 ∧ beAt (macFrame 1 (beBytes 2
        100)) 14 2 ≠ 257)
    -- PAUSE_FRAME_RECEIVE
    ∧ (T (ignoring (dMac (macFrame 1 (beBytes 2 0)) 0))).RunsIn 18
    ∧ (ignoring (dMac (macFrame 1 (beBytes 2 0)) 0)).port.macCtl =
        [{ sp := 0, bytes := macFrame 1 (beBytes 2 0), rxTime := 0 : RxFrame },
        { sp := 7, bytes := macFrame 1 (beBytes 2 0), rxTime := 0 : RxFrame }]
    ∧ (beAt (macFrame 1 (beBytes 2 0)) 0 6 = 1652522221569 ∨ beAt (macFrame 1 (beBytes 2 0)) 0 6 = (ignoring (dMac (macFrame
        1 (beBytes 2 0)) 0)).get R.PORT_MAC_ADDR_MAC)
    ∧ (beAt (macFrame 1 (beBytes 2 0)) 14 2 = 1 ∧ (ignoring (dMac (macFrame 1 (beBytes 2 0)) 0)).on
        (R.PORT_SUBPORT_CFG_PFC_EN 0) = false ∨ beAt (macFrame 1 (beBytes 2 0)) 14 2 = 257 ∧ (ignoring (dMac (macFrame 1
        (beBytes 2 0)) 0)).on (R.PORT_SUBPORT_CFG_PFC_EN 0) = true ∧ beAt (macFrame 1 (beBytes 2 0)) 16 2 < 256) := by
  decide +kernel

/-- States and operands that meet the hypotheses of each clause of `Obligations.PortSends`. -/
theorem witness_PortSends :
    -- PAUSE_REPEAT
    (T (dEgress false)).RunsIn 18
    ∧ (dEgress false).on R.PORT_CFG_TX_FC_EN = true
    ∧ (dEgress false).pausedPartners ≠ []
    ∧ (T dPort).RunsIn 18
    ∧ (dPort.on R.PORT_CFG_TX_FC_EN = false ∨ dPort.pausedPartners = [])
    -- PTP_DELAY_REQ_SEND
    ∧ (dEgress false).on R.PORT_CFG_PTP_EN = true
    ∧ (dEgress false).up ((dEgress false).get R.PORT_CFG_PTP_SUBPORT) = true
    ∧ (dEgress false).on R.CFG_BOOT_NO_IMAGE = false
    ∧ (dPort.on R.PORT_CFG_PTP_EN = false ∨ dPort.up (dPort.get R.PORT_CFG_PTP_SUBPORT) = false ∨ dPort.on
        R.CFG_BOOT_NO_IMAGE = true)
    -- PACKET_TRANSMIT
    ∧ (dEgress false).up 0 = true
    ∧ ((dEgress false).port.subs.getD 0 SubPort.empty).egress = [] ++ [egr 3 false, egr 4 false]
    ∧ ((egr 3 false).dropped = true ∨ (dEgress false).classPaused 0 (egr 3 false).cls = false)
    ∧ (T dBehind).RunsIn 18
    ∧ dBehind.up 0 = true
    ∧ (dBehind.port.subs.getD 0 SubPort.empty).egress = [egr 3 false] ++ [{ egr 4 false with cls := 2 : EgressItem }]
    ∧ ((egr 4 false).dropped = true ∨ dBehind.classPaused 0 2 = false)
    ∧ ((egr 3 false).dropped = false ∧ dBehind.classPaused 0 (egr 3 false).cls = true ∧ ((egr 3 false).flow ≠ (egr 4
        false).flow ∨ (egr 4 false).flow = none))
    ∧ (dPort.up 0 = false ∨ (dPort.port.subs.getD 0 SubPort.empty).egress = [])
    -- RECORD_FRAME_TRANSMIT
    ∧ (dEgress false).port.records = [] ++ [{ sp := 0, batch := 5, records := [zeros 32], seq := 1 : RecordFrame },
        { sp := 1, batch := 5, records := [zeros 32], seq := 1 : RecordFrame }]
    ∧ 0 < 8
    ∧ (dEgress false).classPaused 0 ((dEgress false).get R.PORT_CFG_OWN_CLASS) = false
    -- RECORD_FRAME_TRANSMIT
    ∧ (T dRecDown).RunsIn 18
    ∧ dRecDown.port.records = [] ++ [{ sp := 7, batch := 5, records := [zeros 32, zeros 32], seq := 1 : RecordFrame }]
    ∧ 7 < 8
    ∧ dRecDown.up 7 = false
    ∧ dPort.port.records = [] := by
  refine ⟨?_, ?_, ?_, ?_, ?_, ?_, ?_, ?_, ?_, ?_, ?_, ?_, ?_, ?_, ?_, ?_, ?_, ?_, ?_, ?_, ?_, ?_, ?_, ?_, ?_, ?_⟩ <;> decide +kernel

/-- States and operands that meet the hypotheses of each clause of `Obligations.LinksAndLanes`. -/
theorem witness_LinksAndLanes :
    -- PORT_LANE_FAIL
    (T (dPort.put R.PORT_CFG_BREAKOUT 3)).Running
    ∧ (dPort.put R.PORT_CFG_BREAKOUT 3).on (R.PORT_LANE_STAT_FAILED 7) = false
    ∧ (T (dPort.put (R.PORT_LANE_STAT_FAILED 0) 1)).Running
    ∧ (dPort.put (R.PORT_LANE_STAT_FAILED 0) 1).on (R.PORT_LANE_STAT_FAILED 0) = true
    -- TRAINING_VIOLATION
    ∧ (T ((dPort.put R.PORT_CFG_BREAKOUT 3).put (R.PORT_SUBPORT_STAT_TRAINING 7) 1)).Running
    ∧ ((dPort.put R.PORT_CFG_BREAKOUT 3).put (R.PORT_SUBPORT_STAT_TRAINING 7) 1).on (R.PORT_SUBPORT_STAT_TRAINING
        (((dPort.put R.PORT_CFG_BREAKOUT 3).put (R.PORT_SUBPORT_STAT_TRAINING 7) 1).laneSub 7)) = true
    ∧ (T dPort).Running
    ∧ dPort.on (R.PORT_SUBPORT_STAT_TRAINING (dPort.laneSub 0)) = false
    -- SUBPORT_LINK_UP
    ∧ (T (dPort.put (R.PORT_SUBPORT_STAT_TRAINING 0) 1)).Running
    ∧ (dPort.put (R.PORT_SUBPORT_STAT_TRAINING 0) 1).regionStopped 18 = false
    ∧ (decide (0 < (dPort.put (R.PORT_SUBPORT_STAT_TRAINING 0) 1).subPorts) && (dPort.put (R.PORT_SUBPORT_STAT_TRAINING 0)
        1).on (R.PORT_SUBPORT_STAT_TRAINING 0) && !(dPort.put (R.PORT_SUBPORT_STAT_TRAINING 0) 1).on
        (R.PORT_SUBPORT_STAT_DOWN_BY_LANE 0)) = true
    ∧ dPort.regionStopped 18 = false
    ∧ (decide (0 < dPort.subPorts) && dPort.on (R.PORT_SUBPORT_STAT_TRAINING 0) && !dPort.on
        (R.PORT_SUBPORT_STAT_DOWN_BY_LANE 0)) = false
    -- SUBPORT_GOES_DOWN
    ∧ dPort.up 0 = true
    ∧ (dPort.put R.PORT_CFG_BREAKOUT 3).regionStopped 18 = false
    ∧ (dPort.put R.PORT_CFG_BREAKOUT 3).up 7 = false := by
  refine ⟨?_, ?_, ?_, ?_, ?_, ?_, ?_, ?_, ?_, ?_, ?_, ?_, ?_, ?_, ?_, ?_⟩ <;> decide +kernel

/-- States and operands that meet the hypotheses of each clause of `Obligations.WriteMergesFields`. -/
theorem witness_WriteMergesFields :
    (RegMap.dPORT_SUBPORT_CFG.mask 0 fun (f : RegField) => decide (f.acc = Access.rw)).testBit 0 = true
    ∧ (RegMap.dPORT_SUBPORT_CFG.mask 0 fun (f : RegField) => decide (f.acc = Access.w1c)).testBit 0 = false
    ∧ (RegMap.dPORT_SUBPORT_CFG.mask 0 fun (f : RegField) => decide (f.acc = Access.w1s)).testBit 0 = false
    ∧ (regW1s.mask 0 fun (f : RegField) => decide (f.acc = Access.w1s)).testBit 0 = true
    ∧ (regW1s.mask 0 fun (f : RegField) => decide (f.acc = Access.rw)).testBit 0 = false
    ∧ (regW1s.mask 0 fun (f : RegField) => decide (f.acc = Access.w1c)).testBit 0 = false
    ∧ (RegMap.dPORT_SUBPORT_STAT.mask 0 fun (f : RegField) => decide (f.acc = Access.w1c)).testBit 11 = true
    ∧ (RegMap.dPORT_SUBPORT_STAT.mask 0 fun (f : RegField) => decide (f.acc = Access.rw)).testBit 11 = false
    ∧ (RegMap.dPORT_SUBPORT_STAT.mask 0 fun (f : RegField) => decide (f.acc = Access.w1s)).testBit 11 = false
    ∧ (RegMap.dPORT_SUBPORT_STAT.mask 0 fun (f : RegField) => decide (f.acc = Access.rw)).testBit 0 = false
    ∧ (RegMap.dPORT_SUBPORT_STAT.mask 0 fun (f : RegField) => decide (f.acc = Access.w1s)).testBit 0 = false
    ∧ (RegMap.dPORT_SUBPORT_STAT.mask 0 fun (f : RegField) => decide (f.acc = Access.w1c)).testBit 0 = false := by
  decide +kernel

/-- States and operands that meet the hypotheses of each clause of `Obligations.WriteTakesOrRefuses`. -/
theorem witness_WriteTakesOrRefuses :
    (T dev0).RunsIn 21
    ∧ dev0.ctl.queue = []
    ∧ Instr.write RegMap.dLPE_SEL.base 5 ∈ [Instr.write RegMap.dLPE_SEL.base 5, Instr.registerWrite RegMap.dLPE_SEL.base 5]
    ∧ dev0.get R.LCS_STAT_STATE < 4
    ∧ dev0.writeStatus RegMap.dLPE_SEL.base 5 = St.ok
    ∧ RegMap.lookup RegMap.regs RegMap.dLPE_SEL.base = some (RegMap.dLPE_SEL, 0)
    ∧ RegMap.dLPE_SEL.base ∉ dev0.answerWords
    ∧ RegMap.dLPE_SEL.base ∉ [RegMap.dPORT_CFG.base, RegMap.dPORT_SUBPORT_CFG.base, RegMap.dPORT_INLINE_BUF.base,
        RegMap.dTKP_TICK_CFG.base, RegMap.dAPR_CFG.base, RegMap.dSYN_CTX_CTL.base, RegMap.dSYN_CTR.base,
        RegMap.dQUE_STAT.base, RegMap.dQUE_CTL.base, RegMap.dLPE_CFG.base, RegMap.dLPE_TIME_SET.base,
        RegMap.dLPE_TIME_CFG.base, RegMap.dCLK_OUT_CFG.base, RegMap.dCFG_BOOT.base, RegMap.dCFG_CTL_CFG.base,
        RegMap.dCFG_SLOT_CTL.base, RegMap.dCFG_SLOT_WIN.base]
    ∧ Instr.registerWrite (C.PORT_RX_FRAMES 0) 5 ∈ [Instr.write (C.PORT_RX_FRAMES 0) 5, Instr.registerWrite
        (C.PORT_RX_FRAMES 0) 5]
    ∧ dev0.writeStatus (C.PORT_RX_FRAMES 0) 5 = St.ok
    ∧ RegMap.lookup RegMap.regs (C.PORT_RX_FRAMES 0) = none
    ∧ Instr.write 73014444032 5 ∈ [Instr.write 73014444032 5, Instr.registerWrite 73014444032 5]
    ∧ dev0.writeStatus 73014444032 5 ≠ St.ok
    ∧ (73014444032 % 8 ≠ 0 ∨ 16 < 73014444032 / 2 ^ 32)
    ∧ (T (dev0.put R.LCS_STAT_STATE 4)).RunsIn 21
    ∧ (dev0.put R.LCS_STAT_STATE 4).ctl.queue = []
    ∧ Instr.write 0 5 ∈ [Instr.write 0 5, Instr.registerWrite 0 5]
    ∧ 4 ≤ (dev0.put R.LCS_STAT_STATE 4).get R.LCS_STAT_STATE := by
  refine ⟨?_, ?_, ?_, ?_, ?_, ?_, ?_, ?_, ?_, ?_, ?_, ?_, ?_, ?_, ?_, ?_, ?_, ?_⟩ <;> decide +kernel

/-- States and operands that meet the hypotheses of each clause of `Obligations.WritesTakeEffectLater`. -/
theorem witness_WritesTakeEffectLater :
    -- TICK_PERIOD_WRITE
    (T dev0).RunsIn 21
    ∧ dev0.get R.LCS_STAT_STATE < 4
    ∧ dev0.ctl.queue = []
    ∧ (500 ≤ bitsOf 500 0 14 ∧ bitsOf 500 0 14 ≤ 16000)
    -- TICK_PERIOD_WRITE
    ∧ (500 ≤ bitsOf 16000 0 14 ∧ bitsOf 16000 0 14 ≤ 16000)
    -- TICK_PERIOD_WRITE
    ∧ (¬(500 ≤ bitsOf 499 0 14 ∧ bitsOf 499 0 14 ≤ 16000))
    -- TICK_PERIOD_WRITE
    ∧ (¬(500 ≤ bitsOf 16001 0 14 ∧ bitsOf 16001 0 14 ≤ 16000))
    -- BUDGET_WRITE
    ∧ (within 150 560 (bitsOf (BitVec.ofNat 64 (150 + 60 * 65536 + 60 * 2 ^ 24)).toNat 0 10) && within 60 100 (bitsOf
        (BitVec.ofNat 64 (150 + 60 * 65536 + 60 * 2 ^ 24)).toNat 16 7) && within 60 90 (bitsOf (BitVec.ofNat 64 (150 + 60 *
        65536 + 60 * 2 ^ 24)).toNat 24 7)) = true
    -- BUDGET_WRITE
    ∧ (within 150 560 (bitsOf 500 0 10) && within 60 100 (bitsOf 500 16 7) && within 60 90 (bitsOf 500 24 7)) = false
    -- SUBPORT_MODE_WRITE
    ∧ (bitsOf 640 0 2 != 3 && within 10 100 (bitsOf 640 6 7)) = true
    -- SUBPORT_MODE_WRITE
    ∧ (bitsOf 6402 0 2 != 3 && within 10 100 (bitsOf 6402 6 7)) = true
    -- SUBPORT_MODE_WRITE
    ∧ (bitsOf 643 0 2 != 3 && within 10 100 (bitsOf 643 6 7)) = false
    -- TX_FC_DISABLE
    ∧ (T (dEgress false)).RunsIn 21
    ∧ (dEgress false).get R.LCS_STAT_STATE < 4
    ∧ (dEgress false).ctl.queue = [] := by
  refine ⟨?_, ?_, ?_, ?_, ?_, ?_, ?_, ?_, ?_, ?_, ?_, ?_, ?_, ?_, ?_⟩ <;> decide +kernel

/-- States and operands that meet the hypotheses of each clause of `Obligations.WritesActElsewhere`. -/
theorem witness_WritesActElsewhere :
    -- RESTART
    (T (dev0.put (R.SYN_CTX_STAT_STATE 5) 2)).RunsIn 21
    ∧ (dev0.put (R.SYN_CTX_STAT_STATE 5) 2).get R.LCS_STAT_STATE < 4
    ∧ (dev0.put (R.SYN_CTX_STAT_STATE 5) 2).ctl.queue = []
    ∧ 1 % 2 = 1
    ∧ (dev0.put (R.SYN_CTX_STAT_STATE 5) 2).get (R.SYN_CTX_STAT_STATE 5) = 2
    -- RESTART
    ∧ (T dev0).RunsIn 21
    ∧ dev0.get R.LCS_STAT_STATE < 4
    ∧ dev0.ctl.queue = []
    ∧ dev0.get (R.SYN_CTX_STAT_STATE 255) ≠ 2
    -- RESTART
    ∧ 2 % 2 = 0
    -- COUNTER_VALUE_WRITE
    ∧ (T ((dCtr 1 [wCtr 9]).put (R.SYN_CTX_STAT_STATE 0) 2)).RunsIn 21
    ∧ ((dCtr 1 [wCtr 9]).put (R.SYN_CTX_STAT_STATE 0) 2).get R.LCS_STAT_STATE < 4
    ∧ ((dCtr 1 [wCtr 9]).put (R.SYN_CTX_STAT_STATE 0) 2).ctl.queue = []
    ∧ (((dCtr 1 [wCtr 9]).put (R.SYN_CTX_STAT_STATE 0) 2).faulted 0 || ((dCtr 1 [wCtr 9]).put (R.SYN_CTX_STAT_STATE 0)
        2).stepping 0) = true
    ∧ ((dCtr 1 [wCtr 9]).put (R.SYN_CTX_STAT_STATE 0) 2).physCtr 0 0 = some 768
    ∧ (∀ w ∈ ((dCtr 1 [wCtr 9]).put (R.SYN_CTX_STAT_STATE 0) 2).sync.waits, (((dCtr 1 [wCtr 9]).put (R.SYN_CTX_STAT_STATE 0)
        2).setCtr 768
        { value := 7 % 65536, init := (((dCtr 1 [wCtr 9]).put (R.SYN_CTX_STAT_STATE 0) 2).ctr 768).init, signaller := (((dCtr 1 [wCtr 9]).put (R.SYN_CTX_STAT_STATE 0) 2).ctr 768).signaller : Ctr }).covered
        w = false ∨ ((dCtr 1 [wCtr 9]).put (R.SYN_CTX_STAT_STATE 0) 2).waitsOn 768 w = false)
    -- COUNTER_VALUE_WRITE
    ∧ ((dCtr 1 [wCtr 9]).put (R.SYN_CTX_STAT_STATE 0) 2).sync.waits = [] ++ [wCtr 9]
    ∧ (wCtr 9).on = WaitOn.counter 0 9
    ∧ ((dCtr 1 [wCtr 9]).put (R.SYN_CTX_STAT_STATE 0) 2).physCtr (wCtr 9).context 0 = some 768
    ∧ (((dCtr 1 [wCtr 9]).put (R.SYN_CTX_STAT_STATE 0) 2).setCtr 768
        { value := 70009 % 65536, init := (((dCtr 1 [wCtr 9]).put (R.SYN_CTX_STAT_STATE 0) 2).ctr 768).init, signaller := (((dCtr 1 [wCtr 9]).put (R.SYN_CTX_STAT_STATE 0) 2).ctr 768).signaller : Ctr }).covered
        (wCtr 9) = true
    ∧ (∀ x ∈ ((((dCtr 1 [wCtr 9]).put (R.SYN_CTX_STAT_STATE 0) 2).setCtr 768
        { value := 70009 % 65536, init := (((dCtr 1 [wCtr 9]).put (R.SYN_CTX_STAT_STATE 0) 2).ctr 768).init, signaller := (((dCtr 1 [wCtr 9]).put (R.SYN_CTX_STAT_STATE 0) 2).ctr 768).signaller : Ctr }).releaseWait
        (wCtr 9) ([] ++ [])).sync.waits, ((((dCtr 1 [wCtr 9]).put (R.SYN_CTX_STAT_STATE 0) 2).setCtr 768
        { value := 70009 % 65536, init := (((dCtr 1 [wCtr 9]).put (R.SYN_CTX_STAT_STATE 0) 2).ctr 768).init, signaller := (((dCtr 1 [wCtr 9]).put (R.SYN_CTX_STAT_STATE 0) 2).ctr 768).signaller : Ctr }).releaseWait
        (wCtr 9) ([] ++ [])).covered x = false)
    -- COUNTER_VALUE_WRITE
    ∧ (T (dev0.put (R.SYN_CTX_STAT_STATE 0) 2)).RunsIn 21
    ∧ (dev0.put (R.SYN_CTX_STAT_STATE 0) 2).get R.LCS_STAT_STATE < 4
    ∧ (dev0.put (R.SYN_CTX_STAT_STATE 0) 2).ctl.queue = []
    ∧ ((dev0.put (R.SYN_CTX_STAT_STATE 0) 2).faulted 0 || (dev0.put (R.SYN_CTX_STAT_STATE 0) 2).stepping 0) = true
    ∧ (dev0.put (R.SYN_CTX_STAT_STATE 0) 2).physCtr 0 0 = none
    -- COUNTER_VALUE_WRITE
    ∧ (dev0.faulted 0 || dev0.stepping 0) = false
    -- TIME_SET
    ∧ dev0.plan.firstTick = none
    -- TIME_SET
    ∧ (T (dTick false false 0 [])).RunsIn 21
    ∧ (dTick false false 0 []).get R.LCS_STAT_STATE < 4
    ∧ (dTick false false 0 []).ctl.queue = []
    ∧ (dTick false false 0 []).plan.firstTick ≠ none := by
  refine ⟨?_, ?_, ?_, ?_, ?_, ?_, ?_, ?_, ?_, ?_, ?_, ?_, ?_, ?_, ?_, ?_, ?_, ?_, ?_, ?_, ?_, ?_, ?_, ?_, ?_, ?_, ?_, ?_, ?_, ?_,
    ?_, ?_⟩ <;> decide +kernel

/-- States and operands that meet the hypotheses of each clause of `Obligations.SlotOperations`. -/
theorem witness_SlotOperations :
    -- SLOT_WIN_WRITE
    (T (dSlot 0 2 [(0, 5)])).Running
    ∧ (dSlot 0 2 [(0, 5)]).regionStopped 21 = false
    ∧ (dSlot 0 2 [(0, 5)]).get R.LCS_STAT_STATE < 4
    ∧ (dSlot 0 2 [(0, 5)]).ctl.queue = []
    ∧ ((768 * 2 ^ 20 - 8) % 8 = 0 ∧ 768 * 2 ^ 20 - 8 < 768 * 2 ^ 20)
    ∧ (dSlot 0 2 [(0, 5)]).get R.CFG_BOOT_RUN_SLOT ≠ 3
    ∧ (dSlot 0 2 [(0, 5)]).get (R.CFG_SLOT_STAT_STATE (dSlot 0 2 [(0, 5)]).otherSlot) = 2
    ∧ ((dSlot 0 2 [(0, 5)]).nvm.slot (dSlot 0 2 [(0, 5)]).otherSlot).find ((768 * 2 ^ 20 - 8) / 8) = none
    -- SLOT_WIN_WRITE
    ∧ (T (dSlot 3 2 [])).Running
    ∧ (dSlot 3 2 []).regionStopped 21 = false
    ∧ (dSlot 3 2 []).get R.LCS_STAT_STATE < 4
    ∧ (dSlot 3 2 []).ctl.queue = []
    ∧ (0 % 8 = 0 ∧ 0 < 768 * 2 ^ 20)
    ∧ (¬(dSlot 3 2 []).get R.CFG_BOOT_RUN_SLOT ≠ 3 ∨ (dSlot 3 2 []).get (R.CFG_SLOT_STAT_STATE (dSlot 3 2 []).otherSlot) = 2
        ∧ ((dSlot 3 2 []).nvm.slot (dSlot 3 2 []).otherSlot).find (0 / 8) ≠ none)
    -- SLOT_WIN_WRITE
    ∧ (¬(dSlot 0 2 [(0, 5)]).get R.CFG_BOOT_RUN_SLOT ≠ 3 ∨ (dSlot 0 2 [(0, 5)]).get (R.CFG_SLOT_STAT_STATE (dSlot 0 2 [(0,
        5)]).otherSlot) = 2 ∧ ((dSlot 0 2 [(0, 5)]).nvm.slot (dSlot 0 2 [(0, 5)]).otherSlot).find (0 / 8) ≠ none)
    -- SLOT_WIN_WRITE
    ∧ (T (dSlot 0 0 [])).Running
    ∧ (dSlot 0 0 []).regionStopped 21 = false
    ∧ (dSlot 0 0 []).get R.LCS_STAT_STATE < 4
    ∧ (dSlot 0 0 []).ctl.queue = []
    ∧ (dSlot 0 0 []).get R.CFG_BOOT_RUN_SLOT ≠ 3
    ∧ (¬(dSlot 0 0 []).get (R.CFG_SLOT_STAT_STATE (dSlot 0 0 []).otherSlot) = 2)
    -- SLOT_WIN_WRITE
    ∧ (T (dSlot 0 2 [])).Running
    ∧ (dSlot 0 2 []).regionStopped 21 = false
    ∧ (dSlot 0 2 []).get R.LCS_STAT_STATE < 4
    ∧ (dSlot 0 2 []).ctl.queue = []
    ∧ (¬(768 * 2 ^ 20 % 8 = 0 ∧ 768 * 2 ^ 20 < 768 * 2 ^ 20))
    -- SLOT_WIN_WRITE
    ∧ (¬(4 % 8 = 0 ∧ 4 < 768 * 2 ^ 20))
    ∧ Instr.slotErase 1 ∈ [Instr.slotErase 1, Instr.slotVerify 1]
    ∧ (dSlot 0 2 []).ctl.slotOp = none
    ∧ (dSlot 0 2 []).get R.CFG_BOOT_RUN_SLOT ≠ 1
    ∧ (T (dSlotOp { op := 1, slot := 1 : SlotOp })).Running
    ∧ (dSlotOp { op := 1, slot := 1 : SlotOp }).regionStopped 21 = false
    ∧ (dSlotOp { op := 1, slot := 1 : SlotOp }).get R.LCS_STAT_STATE < 4
    ∧ Instr.slotVerify 1 ∈ [Instr.slotErase 1, Instr.slotVerify 1]
    ∧ (dSlotOp { op := 1, slot := 1 : SlotOp }).ctl.queue = []
    ∧ (dSlotOp { op := 1, slot := 1 : SlotOp }).ctl.slotOp ≠ none
    ∧ Instr.slotErase 0 ∈ [Instr.slotErase 0, Instr.slotVerify 0]
    ∧ (dSlot 0 2 []).get R.CFG_BOOT_RUN_SLOT = 0
    -- SLOT_OP_DONE
    ∧ (dSlotOp { op := 1, slot := 1 : SlotOp }).nvmStopped = false
    ∧ (dSlotOp { op := 1, slot := 1 : SlotOp }).ctl.slotOp = some { op := 1, slot := 1 : SlotOp }
    ∧ 1 < 2
    ∧ (1 = 1 ∨ 1 = 2)
    ∧ (T dev0).Running
    ∧ dev0.nvmStopped = false
    ∧ dev0.ctl.slotOp = none := by
  refine ⟨?_, ?_, ?_, ?_, ?_, ?_, ?_, ?_, ?_, ?_, ?_, ?_, ?_, ?_, ?_, ?_, ?_, ?_, ?_, ?_, ?_, ?_, ?_, ?_, ?_, ?_, ?_, ?_, ?_, ?_,
    ?_, ?_, ?_, ?_, ?_, ?_, ?_, ?_, ?_, ?_, ?_, ?_, ?_, ?_, ?_⟩ <;> decide +kernel

/-- States and operands that meet the hypotheses of each clause of `Obligations.BlockAccesses`. -/
theorem witness_BlockAccesses :
    -- READ
    (T dev0).RunsIn 21
    ∧ dev0.ctl.queue = []
    ∧ dev0.readWord RegMap.dLPE_SEL.base = some 0
    -- READ
    ∧ dev0.readWord 1 = none
    -- READ_BLOCK
    ∧ 2 < 65536
    ∧ 1 ≤ 2
    ∧ 2 ≤ 1140
    ∧ (∀ i < 2, dev0.blockBad RegMap.dLPE_SEL.base (RegMap.dLPE_SEL.base + 8 * i) = false)
    -- READ_BLOCK
    ∧ (∃ i < 2, dev0.blockBad 73014444032 (73014444032 + 8 * i) = true)
    -- READ_BLOCK
    ∧ 0 < 65536
    ∧ (0 = 0 ∨ 1140 < 0)
    -- WRITE_BLOCK
    ∧ dev0.get R.LCS_STAT_STATE < 4
    ∧ 1 ≤ words12.length
    ∧ words12.length ≤ 1140
    ∧ RegMap.dLPE_SEL.base + 8 * 16383 ≠ RegMap.dDEV_ENDORSE.base
    ∧ 1 < words12.length
    ∧ (∀ j < 1, dev0.blockBad (RegMap.dLPE_SEL.base + 8 * 16383) (RegMap.dLPE_SEL.base + 8 * 16383 + 8 * j) = false)
    ∧ dev0.blockBad (RegMap.dLPE_SEL.base + 8 * 16383) (RegMap.dLPE_SEL.base + 8 * 16383 + 8 * 1) = true
    -- WRITE_BLOCK
    ∧ 1 ≤ wordsBadSel.length
    ∧ wordsBadSel.length ≤ 1140
    ∧ RegMap.dLPE_SEL.base ≠ RegMap.dDEV_ENDORSE.base
    ∧ (∀ i < wordsBadSel.length, dev0.blockBad RegMap.dLPE_SEL.base (RegMap.dLPE_SEL.base + 8 * i) = false)
    ∧ 1 < wordsBadSel.length
    ∧ St.malformed ≠ St.ok
    -- WRITE_BLOCK
    ∧ (noWords = [] ∨ 1140 < noWords.length)
    -- WRITE_BLOCK
    ∧ (words1141 = [] ∨ 1140 < words1141.length)
    -- ENDORSE_WRITE
    ∧ (T (dev0.put R.LCS_STAT_STATE 0)).RunsIn 21
    ∧ (dev0.put R.LCS_STAT_STATE 0).get R.LCS_STAT_STATE < 4
    ∧ words2.length ≤ 1024
    ∧ words2 ≠ []
    ∧ (dev0.put R.LCS_STAT_STATE 0).ctl.queue = []
    ∧ ((dev0.put R.LCS_STAT_STATE 0).get R.LCS_STAT_STORED = 0 ∧ (dev0.put R.LCS_STAT_STATE 0).nvm.endorsement = [])
    ∧ (1 ≤ BitVec.toNat (words2.headD 0) ∧ BitVec.toNat (words2.headD 0) ≤ 8184 ∧ BitVec.toNat (words2.headD 0) ≤ 8 *
        (words2.length - 1))
    -- ENDORSE_WRITE
    ∧ wordsLong.length ≤ 1024
    ∧ wordsLong ≠ []
    ∧ (¬(1 ≤ BitVec.toNat (wordsLong.headD 0) ∧ BitVec.toNat (wordsLong.headD 0) ≤ 8184 ∧ BitVec.toNat (wordsLong.headD 0) ≤
        8 * (wordsLong.length - 1)))
    -- ENDORSE_WRITE
    ∧ wordsShort.length ≤ 1024
    ∧ wordsShort ≠ []
    ∧ (¬(1 ≤ BitVec.toNat (wordsShort.headD 0) ∧ BitVec.toNat (wordsShort.headD 0) ≤ 8184 ∧ BitVec.toNat (wordsShort.headD
        0) ≤ 8 * (wordsShort.length - 1)))
    -- ENDORSE_WRITE
    ∧ (T dEndorsed).RunsIn 21
    ∧ dEndorsed.get R.LCS_STAT_STATE < 4
    ∧ [1].length ≤ 1024
    ∧ [1] ≠ []
    ∧ dEndorsed.ctl.queue = []
    ∧ (¬(dEndorsed.get R.LCS_STAT_STORED = 0 ∧ dEndorsed.nvm.endorsement = [])) := by
  refine ⟨?_, ?_, ?_, ?_, ?_, ?_, ?_, ?_, ?_, ?_, ?_, ?_, ?_, ?_, ?_, ?_, ?_, ?_, ?_, ?_, ?_, ?_, ?_, ?_, ?_, ?_, ?_, ?_, ?_, ?_,
    ?_, ?_, ?_, ?_, ?_, ?_, ?_, ?_, ?_, ?_, ?_, ?_, ?_, ?_, ?_⟩ <;> decide +kernel

/-- A block whose first word is taken and whose second is refused, and one that is taken whole (`Obligations.BlockAccesses`). -/
theorem witness_BlockAccesses_words :
    (∀ j, (hj : j < 1) → dev0.writeStatus (RegMap.dLPE_SEL.base + 8 * j) (wordsBadSel.getD j 0).toNat = St.ok)
      ∧ dev0.writeStatus (RegMap.dLPE_SEL.base + 8 * 1) (wordsBadSel.getD 1 0).toNat = St.malformed
      ∧ ∀ j, (hj : j < 2) → dev0.writeStatus (RegMap.dLPE_SEL.base + 8 * j) (words12.getD j 0).toNat = St.ok
        ∧ (RegMap.lookup RegMap.regs (RegMap.dLPE_SEL.base + 8 * j)).map (fun x => x.1.base) = some RegMap.dLPE_SEL.base := by
  decide +kernel

/-- States and operands that meet the hypotheses of each clause of `Obligations.RequestChecked`. -/
theorem witness_RequestChecked :
    (T dPort).RunsIn 21
    ∧ dPort.port.ctlRx = []
    -- CONTROL_REQUEST_RECEIVE
    ∧ (T ((dReq [] 1 []).put (R.CFG_SRC_MAC_EN 3) 1)).RunsIn 21
    ∧ ((dReq [] 1 []).put (R.CFG_SRC_MAC_EN 3) 1).port.ctlRx = [] ++
        [{ sp := 0, bytes := reqFrame 1 5 16 [], rxTime := 0 : RxFrame }, { sp := 7, bytes := [], rxTime := 0 : RxFrame }]
    ∧ 0 < 8
    ∧ (0 = 0 → 0 ≤ 7)
    ∧ ((dReq [] 1 []).put (R.CFG_SRC_MAC_EN 3) 1).admitted (controlRequest
        { sp := 0, bytes := reqFrame 1 5 16 [], rxTime := 0 : RxFrame }) = false
    -- CONTROL_REQUEST_RECEIVE
    ∧ (T (dReq [] 0 [])).RunsIn 21
    ∧ (dReq [] 0 []).port.ctlRx = [] ++ [{ sp := 0, bytes := reqFrame 1 5 16 [], rxTime := 0 : RxFrame },
        { sp := 7, bytes := [], rxTime := 0 : RxFrame }]
    ∧ (dReq [] 0 []).admitted (controlRequest { sp := 0, bytes := reqFrame 1 5 16 [], rxTime := 0 : RxFrame }) = true
    ∧ (dReq [] 0 []).ctl.tokens = 0
    -- CONTROL_REQUEST_RECEIVE
    ∧ (T (dAsk (reqRaw 32 9121))).RunsIn 21
    ∧ (dAsk (reqRaw 32 9121)).port.ctlRx = [] ++ [{ sp := 0, bytes := reqRaw 32 9121, rxTime := 0 : RxFrame },
        { sp := 7, bytes := [], rxTime := 0 : RxFrame }]
    ∧ (dAsk (reqRaw 32 9121)).admitted (controlRequest { sp := 0, bytes := reqRaw 32 9121, rxTime := 0 : RxFrame }) = true
    ∧ 0 < (dAsk (reqRaw 32 9121)).ctl.tokens
    ∧ 9120 < (controlRequest { sp := 0, bytes := reqRaw 32 9121, rxTime := 0 : RxFrame }).len
    -- CONTROL_REQUEST_RECEIVE
    ∧ (T (dAsk (reqRaw 1 0))).RunsIn 21
    ∧ (dAsk (reqRaw 1 0)).port.ctlRx = [] ++ [{ sp := 0, bytes := reqRaw 1 0, rxTime := 0 : RxFrame },
        { sp := 7, bytes := [], rxTime := 0 : RxFrame }]
    ∧ (dAsk (reqRaw 1 0)).admitted (controlRequest { sp := 0, bytes := reqRaw 1 0, rxTime := 0 : RxFrame }) = true
    ∧ 0 < (dAsk (reqRaw 1 0)).ctl.tokens
    ∧ (controlRequest { sp := 0, bytes := reqRaw 1 0, rxTime := 0 : RxFrame }).len ≤ 9120
    ∧ requestFormed { sp := 0, bytes := reqRaw 1 0, rxTime := 0 : RxFrame } (controlRequest
        { sp := 0, bytes := reqRaw 1 0, rxTime := 0 : RxFrame }) = false
    -- CONTROL_REQUEST_RECEIVE
    ∧ (T (dReq [{ mac := 17730434519136, last := 5, status := some 0 : SeqEntry }] 1 [])).RunsIn 21
    ∧ (dReq [{ mac := 17730434519136, last := 5, status := some 0 : SeqEntry }] 1 []).port.ctlRx = [] ++
        [{ sp := 0, bytes := reqFrame 1 5 16 [], rxTime := 0 : RxFrame }, { sp := 7, bytes := [], rxTime := 0 : RxFrame }]
    ∧ (dReq [{ mac := 17730434519136, last := 5, status := some 0 : SeqEntry }] 1 []).admitted (controlRequest
        { sp := 0, bytes := reqFrame 1 5 16 [], rxTime := 0 : RxFrame }) = true
    ∧ 0 < (dReq [{ mac := 17730434519136, last := 5, status := some 0 : SeqEntry }] 1 []).ctl.tokens
    ∧ (controlRequest { sp := 0, bytes := reqFrame 1 5 16 [], rxTime := 0 : RxFrame }).len ≤ 9120
    ∧ requestFormed { sp := 0, bytes := reqFrame 1 5 16 [], rxTime := 0 : RxFrame } (controlRequest
        { sp := 0, bytes := reqFrame 1 5 16 [], rxTime := 0 : RxFrame }) = true
    ∧ List.find? (fun (e : SeqEntry) => decide (e.mac = (controlRequest
        { sp := 0, bytes := reqFrame 1 5 16 [], rxTime := 0 : RxFrame }).sa)) (dReq
        [{ mac := 17730434519136, last := 5, status := some 0 : SeqEntry }] 1 []).ctl.seqs = some
        { mac := 17730434519136, last := 5, status := some 0 : SeqEntry }
    ∧ seqNewer 5 (controlRequest { sp := 0, bytes := reqFrame 1 5 16 [], rxTime := 0 : RxFrame }).seq = false
    -- CONTROL_REQUEST_RECEIVE
    ∧ (T (dAsk (reqFrame 153 5 0 []))).RunsIn 21
    ∧ (dAsk (reqFrame 153 5 0 [])).port.ctlRx = [] ++ [{ sp := 0, bytes := reqFrame 153 5 0 [], rxTime := 0 : RxFrame },
        { sp := 7, bytes := [], rxTime := 0 : RxFrame }]
    ∧ (dAsk (reqFrame 153 5 0 [])).admitted (controlRequest
        { sp := 0, bytes := reqFrame 153 5 0 [], rxTime := 0 : RxFrame }) = true
    ∧ 0 < (dAsk (reqFrame 153 5 0 [])).ctl.tokens
    ∧ (controlRequest { sp := 0, bytes := reqFrame 153 5 0 [], rxTime := 0 : RxFrame }).len ≤ 9120
    ∧ requestFormed { sp := 0, bytes := reqFrame 153 5 0 [], rxTime := 0 : RxFrame } (controlRequest
        { sp := 0, bytes := reqFrame 153 5 0 [], rxTime := 0 : RxFrame }) = true
    ∧ Option.all (fun (e : SeqEntry) => seqNewer e.last (controlRequest
        { sp := 0, bytes := reqFrame 153 5 0 [], rxTime := 0 : RxFrame }).seq) (List.find? (fun (e : SeqEntry) => decide
        (e.mac = (controlRequest { sp := 0, bytes := reqFrame 153 5 0 [], rxTime := 0 : RxFrame }).sa)) (dAsk (reqFrame 153 5
        0 [])).ctl.seqs) = true
    ∧ opcodeKnown (controlRequest { sp := 0, bytes := reqFrame 153 5 0 [], rxTime := 0 : RxFrame }).opcode = false
    -- CONTROL_REQUEST_RECEIVE
    ∧ (T ((dAsk (reqFrame 16 5 0 [])).put R.LCS_STAT_STATE 4)).RunsIn 21
    ∧ ((dAsk (reqFrame 16 5 0 [])).put R.LCS_STAT_STATE 4).port.ctlRx = [] ++
        [{ sp := 0, bytes := reqFrame 16 5 0 [], rxTime := 0 : RxFrame }, { sp := 7, bytes := [], rxTime := 0 : RxFrame }]
    ∧ ((dAsk (reqFrame 16 5 0 [])).put R.LCS_STAT_STATE 4).admitted (controlRequest
        { sp := 0, bytes := reqFrame 16 5 0 [], rxTime := 0 : RxFrame }) = true
    ∧ 0 < ((dAsk (reqFrame 16 5 0 [])).put R.LCS_STAT_STATE 4).ctl.tokens
    ∧ (controlRequest { sp := 0, bytes := reqFrame 16 5 0 [], rxTime := 0 : RxFrame }).len ≤ 9120
    ∧ requestFormed { sp := 0, bytes := reqFrame 16 5 0 [], rxTime := 0 : RxFrame } (controlRequest
        { sp := 0, bytes := reqFrame 16 5 0 [], rxTime := 0 : RxFrame }) = true
    ∧ Option.all (fun (e : SeqEntry) => seqNewer e.last (controlRequest
        { sp := 0, bytes := reqFrame 16 5 0 [], rxTime := 0 : RxFrame }).seq) (List.find? (fun (e : SeqEntry) => decide (e.mac
        = (controlRequest { sp := 0, bytes := reqFrame 16 5 0 [], rxTime := 0 : RxFrame }).sa)) ((dAsk (reqFrame 16 5 0
        [])).put R.LCS_STAT_STATE 4).ctl.seqs) = true
    ∧ opcodeKnown (controlRequest { sp := 0, bytes := reqFrame 16 5 0 [], rxTime := 0 : RxFrame }).opcode = true
    ∧ opcodeAccepted (controlRequest { sp := 0, bytes := reqFrame 16 5 0 [], rxTime := 0 : RxFrame }).opcode (((dAsk
        (reqFrame 16 5 0 [])).put R.LCS_STAT_STATE 4).get R.LCS_STAT_STATE) = false
    -- CONTROL_REQUEST_RECEIVE
    ∧ (T (dReq [] 1 (List.replicate 256 (qreq 1 8 [])))).RunsIn 21
    ∧ (dReq [] 1 (List.replicate 256 (qreq 1 8 []))).port.ctlRx = [] ++
        [{ sp := 0, bytes := reqFrame 1 5 16 [], rxTime := 0 : RxFrame }, { sp := 7, bytes := [], rxTime := 0 : RxFrame }]
    ∧ (dReq [] 1 (List.replicate 256 (qreq 1 8 []))).admitted (controlRequest
        { sp := 0, bytes := reqFrame 1 5 16 [], rxTime := 0 : RxFrame }) = true
    ∧ 0 < (dReq [] 1 (List.replicate 256 (qreq 1 8 []))).ctl.tokens
    ∧ Option.all (fun (e : SeqEntry) => seqNewer e.last (controlRequest
        { sp := 0, bytes := reqFrame 1 5 16 [], rxTime := 0 : RxFrame }).seq) (List.find? (fun (e : SeqEntry) => decide (e.mac
        = (controlRequest { sp := 0, bytes := reqFrame 1 5 16 [], rxTime := 0 : RxFrame }).sa)) (dReq [] 1 (List.replicate 256
        (qreq 1 8 []))).ctl.seqs) = true
    ∧ opcodeKnown (controlRequest { sp := 0, bytes := reqFrame 1 5 16 [], rxTime := 0 : RxFrame }).opcode = true
    ∧ opcodeAccepted (controlRequest { sp := 0, bytes := reqFrame 1 5 16 [], rxTime := 0 : RxFrame }).opcode ((dReq [] 1
        (List.replicate 256 (qreq 1 8 []))).get R.LCS_STAT_STATE) = true
    ∧ 256 ≤ (dReq [] 1 (List.replicate 256 (qreq 1 8 []))).ctl.queue.length
    -- CONTROL_REQUEST_RECEIVE
    ∧ (T (dReq [{ mac := 17730434519136, last := 4, status := none : SeqEntry }] 1 [])).RunsIn 21
    ∧ (dReq [{ mac := 17730434519136, last := 4, status := none : SeqEntry }] 1 []).port.ctlRx = [] ++
        [{ sp := 0, bytes := reqFrame 1 5 16 [], rxTime := 0 : RxFrame }, { sp := 7, bytes := [], rxTime := 0 : RxFrame }]
    ∧ (dReq [{ mac := 17730434519136, last := 4, status := none : SeqEntry }] 1 []).admitted (controlRequest
        { sp := 0, bytes := reqFrame 1 5 16 [], rxTime := 0 : RxFrame }) = true
    ∧ 0 < (dReq [{ mac := 17730434519136, last := 4, status := none : SeqEntry }] 1 []).ctl.tokens
    ∧ Option.all (fun (e : SeqEntry) => seqNewer e.last (controlRequest
        { sp := 0, bytes := reqFrame 1 5 16 [], rxTime := 0 : RxFrame }).seq) (List.find? (fun (e : SeqEntry) => decide (e.mac
        = (controlRequest { sp := 0, bytes := reqFrame 1 5 16 [], rxTime := 0 : RxFrame }).sa)) (dReq
        [{ mac := 17730434519136, last := 4, status := none : SeqEntry }] 1 []).ctl.seqs) = true
    ∧ opcodeAccepted (controlRequest { sp := 0, bytes := reqFrame 1 5 16 [], rxTime := 0 : RxFrame }).opcode ((dReq
        [{ mac := 17730434519136, last := 4, status := none : SeqEntry }] 1 []).get R.LCS_STAT_STATE) = true
    ∧ (dReq [{ mac := 17730434519136, last := 4, status := none : SeqEntry }] 1 []).ctl.queue.length < 256
    ∧ (T dTwoAtOnce).RunsIn 21
    ∧ dTwoAtOnce.port.ctlRx = [{ sp := 3, bytes := reqFrame 1 5 16 [], rxTime := 0 : RxFrame }] ++
        [{ sp := 0, bytes := reqFrame 1 5 16 [], rxTime := 0 : RxFrame }, { sp := 7, bytes := [], rxTime := 0 : RxFrame }]
    -- CONTROL_REQUEST_RECEIVE
    ∧ (0 = 0 → 0 < 3)
    ∧ dTwoAtOnce.admitted (controlRequest { sp := 0, bytes := reqFrame 1 5 16 [], rxTime := 0 : RxFrame }) = true
    ∧ 0 < dTwoAtOnce.ctl.tokens
    ∧ Option.all (fun (e : SeqEntry) => seqNewer e.last (controlRequest
        { sp := 0, bytes := reqFrame 1 5 16 [], rxTime := 0 : RxFrame }).seq) (List.find? (fun (e : SeqEntry) => decide (e.mac
        = (controlRequest { sp := 0, bytes := reqFrame 1 5 16 [], rxTime := 0 : RxFrame }).sa)) dTwoAtOnce.ctl.seqs) = true
    ∧ opcodeAccepted (controlRequest { sp := 0, bytes := reqFrame 1 5 16 [], rxTime := 0 : RxFrame }).opcode (dTwoAtOnce.get
        R.LCS_STAT_STATE) = true
    ∧ dTwoAtOnce.ctl.queue.length < 256 := by
  refine ⟨?_, ?_, ?_, ?_, ?_, ?_, ?_, ?_, ?_, ?_, ?_, ?_, ?_, ?_, ?_, ?_, ?_, ?_, ?_, ?_, ?_, ?_, ?_, ?_, ?_, ?_, ?_, ?_, ?_, ?_,
    ?_, ?_, ?_, ?_, ?_, ?_, ?_, ?_, ?_, ?_, ?_, ?_, ?_, ?_, ?_, ?_, ?_, ?_, ?_, ?_, ?_, ?_, ?_, ?_, ?_, ?_, ?_, ?_, ?_, ?_,
    ?_, ?_, ?_, ?_, ?_, ?_, ?_, ?_, ?_, ?_⟩ <;> decide +kernel

/-- States and operands that meet the hypotheses of each clause of `Obligations.JournalKeeps`. -/
theorem witness_JournalKeeps :
    -- TOKEN_REFILL
    (T dJrn).RunsIn 21
    ∧ (T dev0).RunsIn 21
    ∧ dev0.jrn.entries = []
    -- JOURNAL_BATCH_CLOSE
    ∧ dJrn.jrn.entries ≠ []
    -- JOURNAL_PULL
    ∧ dev0.ctl.queue = []
    ∧ (¬((zeros 16).length = 16 ∧ beAt (zeros 16) 0 1 = 4 ∧ 1 ≤ beAt (zeros 16) 2 2 ∧ beAt (zeros 16) 2 2 ≤ 256 ∧ beAt
        (zeros 16) 8 8 % 32 = 0))
    -- JOURNAL_PULL
    ∧ dJrn.ctl.queue = []
    ∧ ((beBytes 1 4 ++ [0] ++ beBytes 2 256 ++ zeros 12).length = 16 ∧ beAt (beBytes 1 4 ++ [0] ++ beBytes 2 256 ++ zeros
        12) 0 1 = 4 ∧ 1 ≤ beAt (beBytes 1 4 ++ [0] ++ beBytes 2 256 ++ zeros 12) 2 2 ∧ beAt (beBytes 1 4 ++ [0] ++ beBytes 2
        256 ++ zeros 12) 2 2 ≤ 256 ∧ beAt (beBytes 1 4 ++ [0] ++ beBytes 2 256 ++ zeros 12) 8 8 % 32 = 0) := by
  decide +kernel

/-- States and operands that meet the hypotheses of each clause of `Obligations.ResetWipes`. -/
theorem witness_ResetWipes :
    -- RESET
    (T dJrn).RunsIn 21
    ∧ dJrn.ctl.queue = []
    ∧ (2 :: zeros 15).length = 16
    ∧ beAt (2 :: zeros 15) 0 1 ≤ 2
    ∧ (∀ b ∈ List.drop 1 (2 :: zeros 15), b = 0)
    -- RESET
    ∧ (¬((3 :: zeros 15).length = 16 ∧ beAt (3 :: zeros 15) 0 1 ≤ 2 ∧ ∀ b ∈ List.drop 1 (3 :: zeros 15), b = 0)) := by
  decide +kernel

/-- States and operands that meet the hypotheses of each clause of `Obligations.CounterOperations`. -/
theorem witness_CounterOperations :
    -- COUNTER_SIGNAL
    (T (dCtr 5 [])).RunsIn 20
    ∧ 1 ≤ 5
    ∧ (dCtr 5 []).physCtr 0 0 = some 768
    ∧ (dCtr 5 []).sync.waits.any ((dCtr 5 []).waitsOn 768) = false
    ∧ ((dCtr 5 []).ctr 768).value + 5 ≤ 65535
    ∧ (dCtr 5 []).sync.written ≠ some (768, (dCtr 5 []).ns)
    -- COUNTER_SIGNAL
    ∧ (T (dRaced 5 [])).RunsIn 20
    ∧ (dRaced 5 []).physCtr 0 0 = some 768
    ∧ (dRaced 5 []).sync.waits.any ((dRaced 5 []).waitsOn 768) = false
    ∧ ((dRaced 5 []).ctr 768).value + 5 ≤ 65535
    ∧ (dRaced 5 []).sync.written = some (768, (dRaced 5 []).ns)
    -- COUNTER_SIGNAL
    ∧ (T (dCtr 1 [])).RunsIn 20
    ∧ 1 ≤ 65535
    ∧ (dCtr 1 []).physCtr 0 0 = some 768
    ∧ (dCtr 1 []).sync.waits.any ((dCtr 1 []).waitsOn 768) = false
    ∧ 65535 < ((dCtr 1 []).ctr 768).value + 65535
    ∧ (dCtr 1 []).sync.written ≠ some (768, (dCtr 1 []).ns)
    -- COUNTER_WAIT
    ∧ 5 ≤ ((dCtr 5 []).ctr 768).value
    -- COUNTER_WAIT
    ∧ (T (dCtr 4 [])).RunsIn 20
    ∧ (dCtr 4 []).physCtr 0 0 = some 768
    ∧ (¬(dCtr 4 []).sync.waits.any ((dCtr 4 []).waitsOn 768) = false ∨ ((dCtr 4 []).ctr 768).value < 5)
    -- TRY_TAKE
    ∧ ((dCtr 4 []).ctr 768).value < 5
    ∧ (T dev0).RunsIn 20
    ∧ 1 ≤ 1
    ∧ dev0.physCtr 0 0 = none
    ∧ Instr.tryTake 0 0 1 5 ∈ [Instr.counterSignal 0 0 1 5, Instr.counterWait 0 0 1 5, Instr.tryTake 0 0 1 5,
        Instr.counterRead 0 0 5] := by
  refine ⟨?_, ?_, ?_, ?_, ?_, ?_, ?_, ?_, ?_, ?_, ?_, ?_, ?_, ?_, ?_, ?_, ?_, ?_, ?_, ?_, ?_, ?_, ?_, ?_, ?_, ?_⟩ <;> decide +kernel

/-- States and operands that meet the hypotheses of each clause of `Obligations.SignalReleasesWaiter`. -/
theorem witness_SignalReleasesWaiter :
    -- COUNTER_SIGNAL
    (T (dCtr 5 [wCtr 7])).RunsIn 20
    ∧ (dCtr 5 [wCtr 7]).physCtr 0 0 = some 768
    ∧ (dCtr 5 [wCtr 7]).sync.written ≠ some (768, (dCtr 5 [wCtr 7]).ns)
    ∧ (wCtr 7).on = WaitOn.counter 0 7
    ∧ (wCtr 7).stored = true
    ∧ (dCtr 5 [wCtr 7]).physCtr (wCtr 7).context 0 = some 768
    ∧ ((dCtr 5 [wCtr 7]).ctr 768).value + 2 ≤ 65535
    ∧ (dCtr 5 [wCtr 7]).sync.waits = [wCtr 7]
    ∧ 7 ≤ ((dCtr 5 [wCtr 7]).ctr 768).value + 2
    -- COUNTER_SIGNAL
    ∧ (T (dCtr 5 [wCtr 9])).RunsIn 20
    ∧ (dCtr 5 [wCtr 9]).physCtr 0 0 = some 768
    ∧ (dCtr 5 [wCtr 9]).sync.written ≠ some (768, (dCtr 5 [wCtr 9]).ns)
    ∧ (wCtr 9).on = WaitOn.counter 0 9
    ∧ (wCtr 9).stored = true
    ∧ (dCtr 5 [wCtr 9]).physCtr (wCtr 9).context 0 = some 768
    ∧ ((dCtr 5 [wCtr 9]).ctr 768).value + 3 ≤ 65535
    ∧ (dCtr 5 [wCtr 9]).sync.waits = [wCtr 9]
    ∧ ((dCtr 5 [wCtr 9]).ctr 768).value + 3 < 9
    -- COUNTER_SIGNAL
    ∧ (T (dCtr 5 [wOther, wCtr 7])).RunsIn 20
    ∧ (dCtr 5 [wOther, wCtr 7]).physCtr 0 0 = some 768
    ∧ (dCtr 5 [wOther, wCtr 7]).sync.written ≠ some (768, (dCtr 5 [wOther, wCtr 7]).ns)
    ∧ (dCtr 5 [wOther, wCtr 7]).physCtr (wCtr 7).context 0 = some 768
    ∧ ((dCtr 5 [wOther, wCtr 7]).ctr 768).value + 2 ≤ 65535
    ∧ (dCtr 5 [wOther, wCtr 7]).sync.waits = [wOther] ++ [wCtr 7]
    ∧ ((dCtr 5 [wOther, wCtr 7]).setCtr 768
        { value := ((dCtr 5 [wOther, wCtr 7]).ctr 768).value + 2, init := ((dCtr 5 [wOther, wCtr 7]).ctr 768).init, signaller := 5 : Ctr }).covered
        (wCtr 7) = true
    ∧ (((dCtr 5 [wOther, wCtr 7]).setCtr 768
        { value := ((dCtr 5 [wOther, wCtr 7]).ctr 768).value + 2, init := ((dCtr 5 [wOther, wCtr 7]).ctr 768).init, signaller := 5 : Ctr }).covered
        wOther = false ∨ (dCtr 5 [wOther, wCtr 7]).waitsOn 768 wOther = false)
    ∧ (∀ x ∈ (((dCtr 5 [wOther, wCtr 7]).setCtr 768
        { value := ((dCtr 5 [wOther, wCtr 7]).ctr 768).value + 2, init := ((dCtr 5 [wOther, wCtr 7]).ctr 768).init, signaller := 5 : Ctr }).releaseWait
        (wCtr 7) ([wOther] ++ [])).sync.waits, (((dCtr 5 [wOther, wCtr 7]).setCtr 768
        { value := ((dCtr 5 [wOther, wCtr 7]).ctr 768).value + 2, init := ((dCtr 5 [wOther, wCtr 7]).ctr 768).init, signaller := 5 : Ctr }).releaseWait
        (wCtr 7) ([wOther] ++ [])).covered x = false) := by
  refine ⟨?_, ?_, ?_, ?_, ?_, ?_, ?_, ?_, ?_, ?_, ?_, ?_, ?_, ?_, ?_, ?_, ?_, ?_, ?_, ?_, ?_, ?_, ?_, ?_, ?_, ?_, ?_⟩ <;> decide +kernel

/-- States and operands that meet the hypotheses of each clause of `Obligations.PinnedSignals`. -/
theorem witness_PinnedSignals :
    -- PIN_SET
    (T (dPin 0 [])).RunsIn 20
    ∧ (dPin 0 []).pinAllowed 0 0 0 0 = true
    ∧ (dPin 0 []).get (R.SYN_PIN_SET 0 0) = 0
    ∧ ((dPin 0 []).sync.waits.any fun (w : Wait) => decide (w.on = WaitOn.pin 0 0)) = false
    -- PIN_SET
    ∧ (T (dPin 0 [wPin])).RunsIn 20
    ∧ (dPin 0 [wPin]).pinAllowed 0 0 0 3 = true
    ∧ (dPin 0 [wPin]).get (R.SYN_PIN_SET 0 0) = 0
    ∧ (dPin 0 [wPin]).sync.waits = [] ++ [wPin]
    ∧ decide (wPin.on = WaitOn.pin 0 0) = true
    ∧ ([].any fun (w : Wait) => decide (w.on = WaitOn.pin 0 0)) = false
    -- PIN_SET
    ∧ (T (dPin 1 [])).RunsIn 20
    ∧ (dPin 1 []).pinAllowed 0 0 0 0 = true
    ∧ (dPin 1 []).get (R.SYN_PIN_SET 0 0) = 1
    ∧ (dPin 1 []).pinAllowed 1 0 0 0 = false
    ∧ Instr.pinSet 1 0 0 0 ∈ [Instr.pinSet 1 0 0 0, Instr.pinClear 1 0 0 0, Instr.pinWait 1 0 0 0, Instr.pinTest 1 0 0 0] := by
  refine ⟨?_, ?_, ?_, ?_, ?_, ?_, ?_, ?_, ?_, ?_, ?_, ?_, ?_, ?_, ?_⟩ <;> decide +kernel

/-- States and operands that meet the hypotheses of each clause of `Obligations.BarriersAndWatchdog`. -/
theorem witness_BarriersAndWatchdog :
    -- ARRIVE
    (T (dBar 0 0 [])).RunsIn 20
    ∧ memberBit 0 = some 0
    ∧ (dBar 0 0 []).on (R.SYN_BAR_ALLOCATED 0) = true
    ∧ ((dBar 0 0 []).barMask 0).testBit 0 = true
    ∧ ((dBar 0 0 []).arrivedBits 0).testBit 0 = false
    ∧ (dBar 0 0 []).arrivedBits 0 + 2 ^ 0 &&& (dBar 0 0 []).barMask 0 ≠ (dBar 0 0 []).barMask 0
    -- ARRIVE
    ∧ (T (dBar 2 0 [])).RunsIn 20
    ∧ (dBar 2 0 []).on (R.SYN_BAR_ALLOCATED 0) = true
    ∧ ((dBar 2 0 []).barMask 0).testBit 0 = true
    ∧ ((dBar 2 0 []).arrivedBits 0).testBit 0 = false
    ∧ (dBar 2 0 []).arrivedBits 0 + 2 ^ 0 &&& (dBar 2 0 []).barMask 0 = (dBar 2 0 []).barMask 0
    ∧ ((dBar 2 0 []).on (R.SYN_BAR_BOARD 0) && (dBar 2 0 []).on R.TKP_MODE_FABRIC_BOARD) = false
    -- ARRIVE
    ∧ (T ((dBar 2 1 []).put R.RST_STAT_STAGE 12)).RunsIn 20
    ∧ ((dBar 2 1 []).put R.RST_STAT_STAGE 12).on (R.SYN_BAR_ALLOCATED 0) = true
    ∧ (((dBar 2 1 []).put R.RST_STAT_STAGE 12).barMask 0).testBit 0 = true
    ∧ (((dBar 2 1 []).put R.RST_STAT_STAGE 12).arrivedBits 0).testBit 0 = false
    ∧ ((dBar 2 1 []).put R.RST_STAT_STAGE 12).arrivedBits 0 + 2 ^ 0 &&& ((dBar 2 1 []).put R.RST_STAT_STAGE 12).barMask 0 =
        ((dBar 2 1 []).put R.RST_STAT_STAGE 12).barMask 0
    ∧ (((dBar 2 1 []).put R.RST_STAT_STAGE 12).on (R.SYN_BAR_BOARD 0) && ((dBar 2 1 []).put R.RST_STAT_STAGE 12).on
        R.TKP_MODE_FABRIC_BOARD) = true
    ∧ ((dBar 2 1 []).put R.RST_STAT_STAGE 12).get R.RST_STAT_STAGE = 12
    -- ARRIVE
    ∧ (T (dBar 2 1 [])).RunsIn 20
    ∧ (dBar 2 1 []).on (R.SYN_BAR_ALLOCATED 0) = true
    ∧ ((dBar 2 1 []).barMask 0).testBit 0 = true
    ∧ ((dBar 2 1 []).arrivedBits 0).testBit 0 = false
    ∧ (dBar 2 1 []).arrivedBits 0 + 2 ^ 0 &&& (dBar 2 1 []).barMask 0 = (dBar 2 1 []).barMask 0
    ∧ ((dBar 2 1 []).on (R.SYN_BAR_BOARD 0) && (dBar 2 1 []).on R.TKP_MODE_FABRIC_BOARD) = true
    ∧ (dBar 2 1 []).get R.RST_STAT_STAGE ≠ 12
    -- ARRIVE
    ∧ (T (dBar 1 0 [])).RunsIn 20
    ∧ (∀ m ∈ memberBit 0, (dBar 1 0 []).on (R.SYN_BAR_ALLOCATED 0) = false ∨ ((dBar 1 0 []).barMask 0).testBit m = false ∨
        ((dBar 1 0 []).arrivedBits 0).testBit m = true)
    -- BOARD_BARRIER_HIGH
    ∧ (T dBoardWait).RunsIn 20
    ∧ 0 < 16
    ∧ dBoardWait.sync.boardReleased = true
    ∧ dBoardWait.on (R.SYN_BAR_ALLOCATED 0) = true
    ∧ dBoardWait.on (R.SYN_BAR_BOARD 0) = true
    ∧ (∀ x < 0, dBoardWait.on (R.SYN_BAR_ALLOCATED x) = false ∨ dBoardWait.on (R.SYN_BAR_BOARD x) = false)
    ∧ (T dev0).RunsIn 20
    ∧ dev0.sync.boardReleased = false
    -- WATCHDOG_FIRE
    ∧ (T (dWdog 5)).RunsIn 20
    ∧ (∃ w ∈ (dWdog 5).sync.waits, w.context = 0 ∧ (dWdog 5).get (R.SYN_CTX_CFG_WDOG_TICKS 0) ≤ w.ticks)
    -- WATCHDOG_FIRE
    ∧ (T (dWdog 6)).RunsIn 20
    ∧ (∀ w ∈ (dWdog 6).sync.waits, w.context = 0 → w.ticks < (dWdog 6).get (R.SYN_CTX_CFG_WDOG_TICKS 0)) := by
  refine ⟨?_, ?_, ?_, ?_, ?_, ?_, ?_, ?_, ?_, ?_, ?_, ?_, ?_, ?_, ?_, ?_, ?_, ?_, ?_, ?_, ?_, ?_, ?_, ?_, ?_, ?_, ?_, ?_, ?_, ?_,
    ?_, ?_, ?_, ?_, ?_, ?_, ?_, ?_, ?_, ?_⟩ <;> decide +kernel

/-- States and operands that meet the hypotheses of each clause of `Obligations.QueuePushRead`. -/
theorem witness_QueuePushRead :
    (T dev0).RunsIn 20
    ∧ dev0.on (R.QUE_DESC_ENABLE ↑(push true true false).queue) = false
    -- QUEUE_PUSH
    ∧ (T ((dQue 1 1 false []).put (R.SYN_CTX_STAT_STATE 0) 2)).RunsIn 20
    ∧ ((dQue 1 1 false []).put (R.SYN_CTX_STAT_STATE 0) 2).on (R.QUE_DESC_ENABLE ↑(push true true false).queue) = true
    ∧ ((dQue 1 1 false []).put (R.SYN_CTX_STAT_STATE 0) 2).faulted (((dQue 1 1 false []).put (R.SYN_CTX_STAT_STATE 0) 2).get
        (R.QUE_DESC_CONTEXT ↑(push true true false).queue)) = true
    -- QUEUE_PUSH
    ∧ (T (dQue 40 9 true [])).RunsIn 20
    ∧ (dQue 40 9 true []).on (R.QUE_DESC_ENABLE ↑(push false true true).queue) = true
    ∧ (dQue 40 9 true []).faulted ((dQue 40 9 true []).get (R.QUE_DESC_CONTEXT ↑(push false true true).queue)) = false
    ∧ ((push false true true).soi = true ∧ (dQue 40 9 true []).itemOpen ↑(push false true true).queue = false ∨ (push false
        true true).soi = false ∧ ((dQue 40 9 true []).itemOpen ↑(push false true true).queue = true ∧ (dQue 40 9 true []).on
        (R.QUE_STAT_DISCARDING ↑(push false true true).queue) = false) ∧ ((dQue 40 9 true []).queue ↑(push false true
        true).queue).entries.length - ((dQue 40 9 true []).queue ↑(push false true true).queue).visible < 32)
    ∧ ((dQue 40 9 true []).queue ↑(push false true true).queue).entries.length < (dQue 40 9 true []).queueCap ↑(push false
        true true).queue
    -- QUEUE_PUSH
    ∧ (T (dQue 64 64 false [])).RunsIn 20
    ∧ (dQue 64 64 false []).on (R.QUE_DESC_ENABLE ↑(push true true false).queue) = true
    ∧ (dQue 64 64 false []).faulted ((dQue 64 64 false []).get (R.QUE_DESC_CONTEXT ↑(push true true false).queue)) = false
    ∧ ((push true true false).soi = true ∧ (dQue 64 64 false []).itemOpen ↑(push true true false).queue = false ∨ (push true
        true false).soi = false ∧ ((dQue 64 64 false []).itemOpen ↑(push true true false).queue = true ∧ (dQue 64 64 false
        []).on (R.QUE_STAT_DISCARDING ↑(push true true false).queue) = false) ∧ ((dQue 64 64 false []).queue ↑(push true true
        false).queue).entries.length - ((dQue 64 64 false []).queue ↑(push true true false).queue).visible < 32)
    ∧ (dQue 64 64 false []).queueCap ↑(push true true false).queue ≤ ((dQue 64 64 false []).queue ↑(push true true
        false).queue).entries.length
    ∧ (push true true false).blocking = false
    -- QUEUE_PUSH
    ∧ (dQue 64 64 false []).on (R.QUE_DESC_ENABLE ↑(push true false true).queue) = true
    ∧ (dQue 64 64 false []).faulted ((dQue 64 64 false []).get (R.QUE_DESC_CONTEXT ↑(push true false true).queue)) = false
    ∧ ((push true false true).soi = true ∧ (dQue 64 64 false []).itemOpen ↑(push true false true).queue = false ∨ (push true
        false true).soi = false ∧ ((dQue 64 64 false []).itemOpen ↑(push true false true).queue = true ∧ (dQue 64 64 false
        []).on (R.QUE_STAT_DISCARDING ↑(push true false true).queue) = false) ∧ ((dQue 64 64 false []).queue ↑(push true false
        true).queue).entries.length - ((dQue 64 64 false []).queue ↑(push true false true).queue).visible < 32)
    ∧ (dQue 64 64 false []).queueCap ↑(push true false true).queue ≤ ((dQue 64 64 false []).queue ↑(push true false
        true).queue).entries.length
    ∧ (push true false true).blocking = true
    -- QUEUE_PUSH
    ∧ (T (dQue 1 1 false [])).RunsIn 20
    ∧ (dQue 1 1 false []).on (R.QUE_DESC_ENABLE ↑(push false false false).queue) = true
    ∧ (dQue 1 1 false []).faulted ((dQue 1 1 false []).get (R.QUE_DESC_CONTEXT ↑(push false false false).queue)) = false
    ∧ (push false false false).soi = false
    ∧ ((dQue 1 1 false []).itemOpen ↑(push false false false).queue = false ∨ (dQue 1 1 false []).on (R.QUE_STAT_DISCARDING
        ↑(push false false false).queue) = true)
    -- QUEUE_PUSH
    ∧ (T (dQue 2 1 true [])).RunsIn 20
    ∧ (dQue 2 1 true []).on (R.QUE_DESC_ENABLE ↑(push true true false).queue) = true
    ∧ (dQue 2 1 true []).faulted ((dQue 2 1 true []).get (R.QUE_DESC_CONTEXT ↑(push true true false).queue)) = false
    ∧ (push true true false).soi = true
    ∧ (dQue 2 1 true []).itemOpen ↑(push true true false).queue = true
    -- QUEUE_PUSH
    ∧ (T (dQue 33 1 true [])).RunsIn 20
    ∧ (dQue 33 1 true []).on (R.QUE_DESC_ENABLE ↑(push false false false).queue) = true
    ∧ (dQue 33 1 true []).faulted ((dQue 33 1 true []).get (R.QUE_DESC_CONTEXT ↑(push false false false).queue)) = false
    ∧ ((dQue 33 1 true []).itemOpen ↑(push false false false).queue = true ∧ (dQue 33 1 true []).on (R.QUE_STAT_DISCARDING
        ↑(push false false false).queue) = false)
    ∧ 32 ≤ ((dQue 33 1 true []).queue ↑(push false false false).queue).entries.length - ((dQue 33 1 true []).queue ↑(push
        false false false).queue).visible
    -- QUEUE_READ
    ∧ ((dQue 1 1 false []).queue 0).entries = [qe true true]
    ∧ 0 < ((dQue 1 1 false []).queue 0).visible
    -- QUEUE_READ
    ∧ (T (dQue 0 0 false [])).RunsIn 20
    ∧ (((dQue 0 0 false []).queue 0).visible = 0 ∨ ((dQue 0 0 false []).queue 0).entries = []) := by
  refine ⟨?_, ?_, ?_, ?_, ?_, ?_, ?_, ?_, ?_, ?_, ?_, ?_, ?_, ?_, ?_, ?_, ?_, ?_, ?_, ?_, ?_, ?_, ?_, ?_, ?_, ?_, ?_, ?_, ?_, ?_,
    ?_, ?_, ?_, ?_, ?_, ?_, ?_, ?_, ?_, ?_⟩ <;> decide +kernel

/-- No producer waits at queue 0 (`Obligations.QueuePushRead`). -/
theorem witness_QueuePushRead_noWaiter :
    ∀ w ∈ (dQue 1 1 false []).sync.waits, ∀ data soi eoi, w.on ≠ .push 0 data soi eoi := by
  have h : (dQue 1 1 false []).sync.waits = [] := by decide +kernel
  simp [h]

/-- States and operands that meet the hypotheses of each clause of `Obligations.QueueNoticesFlushes`. -/
theorem witness_QueueNoticesFlushes :
    -- QUEUE_TIMEOUT
    (T dFlush).RunsIn 20
    ∧ dFlush.get (R.QUE_DESC_TIMEOUT_NS 0) ≠ 0
    ∧ (dFlush.queue 0).visible ≠ 0
    ∧ (dFlush.queue 0).timedOut = false
    -- QUEUE_TIMEOUT
    ∧ (T (dQue 0 0 false [])).RunsIn 20
    ∧ ((dQue 0 0 false []).get (R.QUE_DESC_TIMEOUT_NS 0) = 0 ∨ ((dQue 0 0 false []).queue 0).visible = 0 ∨ ((dQue 0 0 false
        []).queue 0).timedOut = true)
    -- CLEAR_NOTICE
    ∧ (T (dQue 2 1 true [])).RunsIn 20
    ∧ ((dQue 2 1 true []).queue 0).entries.length < 2 ^ 15
    -- FLUSH
    ∧ (dQue 2 1 true []).on R.TKP_MODE_FLUSH_COMPAT = false
    -- FLUSH
    ∧ (T ((dQue 2 1 false []).put R.TKP_MODE_FLUSH_COMPAT 1)).RunsIn 20
    ∧ ((dQue 2 1 false []).put R.TKP_MODE_FLUSH_COMPAT 1).on R.TKP_MODE_FLUSH_COMPAT = true
    ∧ ((dQue 2 1 false []).put R.TKP_MODE_FLUSH_COMPAT 1).on (R.QUE_STAT_FLUSH_PENDING 0) = false
    -- FLUSH
    ∧ dFlush.on R.TKP_MODE_FLUSH_COMPAT = true
    ∧ dFlush.on (R.QUE_STAT_FLUSH_PENDING 0) = true
    -- PACKET_BOUNDARY_FLUSH
    ∧ dFlush.itemOpen 0 = false
    -- PACKET_BOUNDARY_FLUSH
    ∧ ((dQue 2 1 true []).on (R.QUE_STAT_FLUSH_PENDING 0) = false ∨ (dQue 2 1 true []).itemOpen 0 = true)
    -- FLUSH_FORCED
    ∧ 4 ≤ (dFlush.queue 0).flushTicks
    -- FLUSH_FORCED
    ∧ ((dQue 2 1 true []).on (R.QUE_STAT_FLUSH_PENDING 0) = false ∨ ((dQue 2 1 true []).queue 0).flushTicks < 4) := by
  refine ⟨?_, ?_, ?_, ?_, ?_, ?_, ?_, ?_, ?_, ?_, ?_, ?_, ?_, ?_, ?_, ?_, ?_, ?_⟩ <;> decide +kernel

/-- States and operands that meet the hypotheses of each clause of `Obligations.PassesWalkTheGraph`. -/
theorem witness_PassesWalkTheGraph :
    -- PARSE_PASS_ENTER
    (T (dFront (pk Stage.arrived 0 0) id)).RunsIn 17
    ∧ List.find? (fun (p : Packet) => decide (p.stage = Stage.arrived)) (dFront (pk Stage.arrived 0 0) id).front.packets =
        some (pk Stage.arrived 0 0)
    ∧ (pk Stage.arrived 0 0).passes = 0
    -- PARSE_PASS_ENTER
    ∧ (T (dAt dRecirc 409)).RunsIn 17
    ∧ (∀ q ∈ (dAt dRecirc 409).front.packets, q.stage ≠ Stage.arrived)
    ∧ (dAt dRecirc 409).front.recircs = [9]
    ∧ (dAt dRecirc 409).packet? 9 = some (pk (Stage.recirc 0 0 0) 1 0)
    ∧ (pk (Stage.recirc 0 0 0) 1 0).stage = Stage.recirc 0 0 0
    ∧ (pk (Stage.recirc 0 0 0) 1 0).passes ≠ 0
    ∧ (dAt dRecirc 409).clockNs < (pk (Stage.recirc 0 0 0) 1 0).firstEntry + 400
    ∧ (T (dAt dRecirc 410)).RunsIn 17
    ∧ (∀ q ∈ (dAt dRecirc 410).front.packets, q.stage ≠ Stage.arrived)
    ∧ (dAt dRecirc 410).front.recircs = [9]
    ∧ (dAt dRecirc 410).packet? 9 = some (pk (Stage.recirc 0 0 0) 1 0)
    ∧ (pk (Stage.recirc 0 0 0) 1 0).firstEntry + 400 ≤ (dAt dRecirc 410).clockNs
    ∧ (T dPort).RunsIn 17
    ∧ (∀ q ∈ dPort.front.packets, q.stage ≠ Stage.arrived)
    ∧ dPort.front.recircs = []
    ∧ dPort.front.parsing = []
    -- PARSE_PASS_END
    ∧ (T (dParse 25 0 0 256)).RunsIn 17
    ∧ (dParse 25 0 0 256).front.parsing = [9]
    ∧ (dParse 25 0 0 256).packet? 9 = some (pk (Stage.parsing 25 0 0 0) 1 0)
    ∧ (pk (Stage.parsing 25 0 0 0) 1 0).stage = Stage.parsing 25 0 0 0
    ∧ (pk (Stage.parsing 25 0 0 0) 1 0).sp < 8
    ∧ (pk (Stage.parsing 25 0 0 0) 1 0).slot < 4
    ∧ (((dParse 25 0 0 256).parsePass (pk (Stage.parsing 25 0 0 0) 1 0).frame 25 0 0).outcome = 0 ∨ ((dParse 25 0 0
        256).parsePass (pk (Stage.parsing 25 0 0 0) 1 0).frame 25 0 0).outcome = 3 ∨ ((dParse 25 0 0 256).parsePass (pk
        (Stage.parsing 25 0 0 0) 1 0).frame 25 0 0).outcome = 1 ∧ bitsOf 25 5 2 = 0)
    -- PARSE_PASS_END
    ∧ (T (dParse 89 0 0 0)).RunsIn 17
    ∧ (dParse 89 0 0 0).front.parsing = [9]
    ∧ (dParse 89 0 0 0).packet? 9 = some (pk (Stage.parsing 89 0 0 0) 1 0)
    ∧ (pk (Stage.parsing 89 0 0 0) 1 0).stage = Stage.parsing 89 0 0 0
    ∧ (pk (Stage.parsing 89 0 0 0) 1 0).sp < 8
    ∧ (pk (Stage.parsing 89 0 0 0) 1 0).slot < 4
    ∧ (((dParse 89 0 0 0).parsePass (pk (Stage.parsing 89 0 0 0) 1 0).frame 89 0 0).outcome = 2 ∧ 3 = 4 ∨ ((dParse 89 0 0
        0).parsePass (pk (Stage.parsing 89 0 0 0) 1 0).frame 89 0 0).outcome = 1 ∧ bitsOf 89 5 2 = 2 ∧ 3 = 3)
    -- PARSE_PASS_END
    ∧ (T (dParse 57 0 0 0)).RunsIn 17
    ∧ (dParse 57 0 0 0).front.parsing = [9]
    ∧ (dParse 57 0 0 0).packet? 9 = some (pk (Stage.parsing 57 0 0 0) 1 0)
    ∧ (pk (Stage.parsing 57 0 0 0) 1 0).stage = Stage.parsing 57 0 0 0
    ∧ (pk (Stage.parsing 57 0 0 0) 1 0).sp < 8
    ∧ (pk (Stage.parsing 57 0 0 0) 1 0).slot < 4
    ∧ ((dParse 57 0 0 0).parsePass (pk (Stage.parsing 57 0 0 0) 1 0).frame 57 0 0).outcome = 1
    ∧ bitsOf 57 5 2 = 1 := by
  refine ⟨?_, ?_, ?_, ?_, ?_, ?_, ?_, ?_, ?_, ?_, ?_, ?_, ?_, ?_, ?_, ?_, ?_, ?_, ?_, ?_, ?_, ?_, ?_, ?_, ?_, ?_, ?_, ?_, ?_, ?_,
    ?_, ?_, ?_, ?_, ?_, ?_, ?_, ?_, ?_, ?_, ?_⟩ <;> decide +kernel

/-- States and operands that meet the hypotheses of each clause of `Obligations.RulesStagedAndCommitted`. -/
theorem witness_RulesStagedAndCommitted :
    -- RULE_STAGE
    (T (dStage.put R.LCS_STAT_STATE 3)).Running
    ∧ (dStage.put R.LCS_STAT_STATE 3).regionStopped 21 = false
    ∧ (dStage.put R.LCS_STAT_STATE 3).front.opening = none
    ∧ (dStage.put R.LCS_STAT_STATE 3).ctl.queue = []
    ∧ (dStage.put R.LCS_STAT_STATE 3).get R.LCS_STAT_STATE ≠ 2
    -- RULE_STAGE
    ∧ (T dStage).Running
    ∧ dStage.regionStopped 21 = false
    ∧ dStage.front.opening = none
    ∧ dStage.ctl.queue = []
    ∧ dStage.get R.LCS_STAT_STATE = 2
    ∧ 9120 < (zeros 9216).length
    -- RULE_STAGE
    ∧ (zeros 0).length ≤ 9120
    ∧ ((zeros 0).length = 0 ∨ (zeros 0).length % 96 ≠ 0)
    -- RULE_STAGE
    ∧ (zeros 9119).length ≤ 9120
    ∧ ((zeros 9119).length = 0 ∨ (zeros 9119).length % 96 ≠ 0)
    -- RULE_STAGE
    ∧ (T dev0).Running
    ∧ dev0.regionStopped 21 = false
    ∧ dev0.front.opening = none
    ∧ dev0.ctl.queue = []
    ∧ dev0.get R.LCS_STAT_STATE = 2
    ∧ 96 ≤ recReserved.length
    ∧ recReserved.length ≤ 9120
    ∧ recReserved.length % 96 = 0
    ∧ dev0.on R.CLS_STATE_STAGE_OPEN = false
    ∧ (recordsOf (recReserved.length / 96) recReserved).any recordReserved = true
    ∧ dev0.stageRefusal (dev0.get R.CLS_STATE_CUR_SLOT) (recReserved.length / 96) [] recReserved 0 = some (St.malformed, 0)
    -- RULE_STAGE
    ∧ 96 ≤ (addRec 0 0 5 7 0).length
    ∧ (addRec 0 0 5 7 0).length ≤ 9120
    ∧ (addRec 0 0 5 7 0).length % 96 = 0
    ∧ (recordsOf ((addRec 0 0 5 7 0).length / 96) (addRec 0 0 5 7 0)).any recordReserved = false
    ∧ List.find? (fun (x : ℕ) => decide (dev0.get (R.CLS_VER_STATE x) = 0)) (List.range 4) = some 0
    -- RULE_STAGE
    ∧ (T dNoSlot).Running
    ∧ dNoSlot.regionStopped 21 = false
    ∧ dNoSlot.front.opening = none
    ∧ dNoSlot.ctl.queue = []
    ∧ dNoSlot.get R.LCS_STAT_STATE = 2
    ∧ dNoSlot.on R.CLS_STATE_STAGE_OPEN = false
    ∧ (∀ x < 4, dNoSlot.get (R.CLS_VER_STATE x) ≠ 0)
    -- RULE_STAGE
    ∧ 96 ≤ (addRec 32 0 1 1 0).length
    ∧ (addRec 32 0 1 1 0).length ≤ 9120
    ∧ (addRec 32 0 1 1 0).length % 96 = 0
    ∧ dStage.on R.CLS_STATE_STAGE_OPEN = true
    ∧ dStage.stageRecords (dStage.get R.CLS_STATE_STAGE_SLOT) ((addRec 32 0 1 1 0).length / 96) (addRec 32 0 1 1 0) =
        Sum.inl (St.badAddress, 0)
    -- RULE_STAGE
    ∧ 96 ≤ (addRec 31 16383 1 1 5).length
    ∧ (addRec 31 16383 1 1 5).length ≤ 9120
    ∧ (addRec 31 16383 1 1 5).length % 96 = 0
    ∧ dStage.stageRecords (dStage.get R.CLS_STATE_STAGE_SLOT) ((addRec 31 16383 1 1 5).length / 96) (addRec 31 16383 1 1 5)
        = Sum.inr (rightOf dStage (dStage.stageRecords 1 1 (addRec 31 16383 1 1 5)))
    -- RULE_STAGE
    ∧ (addRec 31 16383 1 1 5).length = 96
    ∧ beAt (addRec 31 16383 1 1 5) 0 1 = 1
    ∧ beAt (addRec 31 16383 1 1 5) 1 1 < 32
    ∧ beAt (addRec 31 16383 1 1 5) 2 2 < 16384
    ∧ beAt (addRec 31 16383 1 1 5) 92 4 = 0
    ∧ beAt (addRec 31 16383 1 1 5) 4 40 &&& beAt (addRec 31 16383 1 1 5) 44 40 = beAt (addRec 31 16383 1 1 5) 4 40
    ∧ dStage.actionOk (beAt (addRec 31 16383 1 1 5) 84 8) = true
    ∧ dStage.posSlots (beAt (addRec 31 16383 1 1 5) 1 1 * 16384 + beAt (addRec 31 16383 1 1 5) 2 2) = 0
    ∧ dev0.regionStopped 17 = false
    ∧ (T dOpening).Running
    ∧ dOpening.regionStopped 17 = false
    ∧ dOpening.front.opening = some (addRec 0 0 5 7 0)
    ∧ dOpening.front.ruleWaits = []
    ∧ dOpening.get R.CLS_STATE_STAGE_SLOT ≠ dOpening.get R.CLS_STATE_CUR_SLOT
    ∧ dOpening.ctl.queue = []
    ∧ 524287 < 524288
    ∧ 3 < 4
    ∧ 15 < 16
    ∧ (T dOpeningWaits).Running
    ∧ dOpeningWaits.regionStopped 17 = false
    ∧ dOpeningWaits.regionStopped 21 = false
    ∧ dOpeningWaits.front.opening.isSome = true
    ∧ (Instr.ruleAbort [], (18 : Nat)) ∈ [(Instr.ruleStage [], 16), (Instr.ruleCommit [], 17), (Instr.ruleAbort [], 18)]
    ∧ dOpeningWaits.front.ruleWaits = [(17, [])] ++ [(18, [])]
    ∧ dOpening.regionStopped 21 = false
    ∧ dOpening.front.opening.isSome = true
    ∧ (Instr.ruleCommit [], (17 : Nat)) ∈ [(Instr.ruleStage [], 16), (Instr.ruleCommit [], 17), (Instr.ruleAbort [], 18)]
    -- RULE_COMMIT
    ∧ (addRec 0 0 5 7 0 ≠ [] ∨ dNoSlot.on R.CLS_STATE_STAGE_OPEN = false)
    -- RULE_COMMIT
    ∧ (T (((dStage.put R.CLS_STATE_CUR_VER 200).put (R.CLS_VER_STATE 2) 3).put (R.CLS_VER_VER 2) 73)).Running
    ∧ (((dStage.put R.CLS_STATE_CUR_VER 200).put (R.CLS_VER_STATE 2) 3).put (R.CLS_VER_VER 2) 73).regionStopped 21 = false
    ∧ (((dStage.put R.CLS_STATE_CUR_VER 200).put (R.CLS_VER_STATE 2) 3).put (R.CLS_VER_VER 2) 73).front.opening = none
    ∧ (((dStage.put R.CLS_STATE_CUR_VER 200).put (R.CLS_VER_STATE 2) 3).put (R.CLS_VER_VER 2) 73).ctl.queue = []
    ∧ (((dStage.put R.CLS_STATE_CUR_VER 200).put (R.CLS_VER_STATE 2) 3).put (R.CLS_VER_VER 2) 73).get R.LCS_STAT_STATE = 2
    ∧ zeros 0 = []
    ∧ (((dStage.put R.CLS_STATE_CUR_VER 200).put (R.CLS_VER_STATE 2) 3).put (R.CLS_VER_VER 2) 73).on R.CLS_STATE_STAGE_OPEN
        = true
    ∧ 128 ≤ (((dStage.put R.CLS_STATE_CUR_VER 200).put (R.CLS_VER_STATE 2) 3).put (R.CLS_VER_VER 2) 73).versionSpan
        (((((dStage.put R.CLS_STATE_CUR_VER 200).put (R.CLS_VER_STATE 2) 3).put (R.CLS_VER_VER 2) 73).get R.CLS_STATE_CUR_VER
        + 1) % 256)
    -- RULE_COMMIT
    ∧ dStage.get R.CLS_STATE_STAGE_SLOT ≠ dStage.get R.CLS_STATE_CUR_SLOT
    ∧ dStage.versionSpan ((dStage.get R.CLS_STATE_CUR_VER + 1) % 256) < 128 := by
  refine ⟨?_, ?_, ?_, ?_, ?_, ?_, ?_, ?_, ?_, ?_, ?_, ?_, ?_, ?_, ?_, ?_, ?_, ?_, ?_, ?_, ?_, ?_, ?_, ?_, ?_, ?_, ?_, ?_, ?_, ?_,
    ?_, ?_, ?_, ?_, ?_, ?_, ?_, ?_, ?_, ?_, ?_, ?_, ?_, ?_, ?_, ?_, ?_, ?_, ?_, ?_, ?_, ?_, ?_, ?_, ?_, ?_, ?_, ?_, ?_, ?_,
    ?_, ?_, ?_, ?_, ?_, ?_, ?_, ?_, ?_, ?_, ?_, ?_, ?_, ?_, ?_, ?_, ?_, ?_, ?_, ?_, ?_, ?_, ?_, ?_, ?_⟩ <;> decide +kernel

/-- The end of a copy sweep refuses the record that waits, or takes it (`Obligations.RulesStagedAndCommitted`). -/
theorem witness_RulesStagedAndCommitted_sweepEnd :
    dOpeningBad.front.opening = some (addRec 33 0 5 7 0)
      ∧ (swept dOpeningBad).stageRecords 1 1 (addRec 33 0 5 7 0) = .inl (St.badAddress, 0)
      ∧ dOpening.front.opening = some (addRec 0 0 5 7 0) ∧ ((swept dOpening).stageRecords 1 1 (addRec 0 0 5 7 0)).isRight = true := by
  refine ⟨rfl, ?_, rfl, ?_⟩ <;> decide +kernel

/-- States and operands that meet the hypotheses of each clause of `Obligations.AbortSweepsTheSlot`. -/
theorem witness_AbortSweepsTheSlot :
    -- RULE_ABORT
    (T (dStage.put R.LCS_STAT_STATE 3)).Running
    ∧ (dStage.put R.LCS_STAT_STATE 3).regionStopped 21 = false
    ∧ (dStage.put R.LCS_STAT_STATE 3).front.opening = none
    ∧ (dStage.put R.LCS_STAT_STATE 3).ctl.queue = []
    ∧ (dStage.put R.LCS_STAT_STATE 3).get R.LCS_STAT_STATE ≠ 2
    -- RULE_ABORT
    ∧ (T dStage).Running
    ∧ dStage.regionStopped 21 = false
    ∧ dStage.front.opening = none
    ∧ dStage.ctl.queue = []
    ∧ dStage.get R.LCS_STAT_STATE = 2
    ∧ (zeros 1 ≠ [] ∨ dStage.on R.CLS_STATE_STAGE_OPEN = false)
    -- RULE_ABORT
    ∧ dStage.on R.CLS_STATE_STAGE_OPEN = true
    -- RULE_ABORT
    ∧ (T dOpening).Running
    ∧ dOpening.regionStopped 21 = false
    ∧ dOpening.front.opening.isSome = true
    -- SWEEP_END
    ∧ dOpening.regionStopped 17 = false
    ∧ { slot := 3, copying := false : Sweep } ∈ dOpening.front.sweeps
    ∧ dStage.regionStopped 17 = false
    ∧ { slot := 1, copying := false : Sweep } ∉ dStage.front.sweeps := by
  refine ⟨?_, ?_, ?_, ?_, ?_, ?_, ?_, ?_, ?_, ?_, ?_, ?_, ?_, ?_, ?_, ?_, ?_, ?_, ?_⟩ <;> decide +kernel

/-- States and operands that meet the hypotheses of each clause of `Obligations.ParityAndSearch`. -/
theorem witness_ParityAndSearch :
    -- RULE_SCRUB
    (T dPar).RunsIn 17
    -- PARITY_REWRITE
    ∧ 0 < 524288
    ∧ bitsOf (dPar.word (posAddr 0 + 88)) 4 1 = 1
    ∧ (524288 ≤ 524288 ∨ bitsOf (dPar.word (posAddr 524288 + 88)) 4 1 = 0)
    ∧ (bitsOf (dPar.word (posAddr 0 + 88)) 4 1 = 1 ∨ dPar.parityOk 0 = false ∨ 0 ∈ [])
    ∧ (T dHit).RunsIn 17
    ∧ Sparse.wf resetWord dHit.regs = true
    ∧ 0 < 4
    ∧ dHit.search 0 0 (zeros 128) [] = some 16385
    ∧ 16384 < 16385
    ∧ 16384 / 16384 = 16385 / 16384
    ∧ dHit.bankList 0 = [0] ++ [16385 / 16384]
    ∧ 5 < 524288
    ∧ 5 / 16384 ∈ [0] := by
  refine ⟨?_, ?_, ?_, ?_, ?_, ?_, ?_, ?_, ?_, ?_, ?_, ?_, ?_, ?_⟩ <;> decide +kernel

/-- States and operands that meet the hypotheses of each clause of `Obligations.SearchesAndLookups`. -/
theorem witness_SearchesAndLookups :
    (T dPort).RunsIn 17
    ∧ dPort.front.searching = []
    -- SEARCH_RESULT
    ∧ (T (dAt (dSearch 256 (2 ^ 49) (zeros 128)) 409)).RunsIn 17
    ∧ Sparse.wf resetWord (dAt (dSearch 256 (2 ^ 49) (zeros 128)) 409).regs = true
    ∧ (dAt (dSearch 256 (2 ^ 49) (zeros 128)) 409).front.searching = [9]
    ∧ (dAt (dSearch 256 (2 ^ 49) (zeros 128)) 409).packet? 9 = some (pSearch 256 (zeros 128))
    ∧ (pSearch 256 (zeros 128)).stage = Stage.searching 256 0
    ∧ (pSearch 256 (zeros 128)).slot < 4
    ∧ 0 < 16
    ∧ bitsOf
        (match (dAt (dSearch 256 (2 ^ 49) (zeros 128)) 409).search 0 (pSearch 256 (zeros 128)).slot (pSearch 256 (zeros 128)).pass.fv [] with | some q => (dAt (dSearch 256 (2 ^ 49) (zeros 128)) 409).word (posAddr q + 80) | none => (dAt (dSearch 256 (2 ^ 49) (zeros 128)) 409).word (R.CLS_DEFAULT_ACTION_WORD (pSearch 256 (zeros 128)).slot 0).addr)
        49 1 = 1
    ∧ (if bitsOf 256 7 2 ≤ (pSearch 256 (zeros 128)).passes then some C.PRS_RECIRC_LIMIT else if leAt (pSearch 256 (zeros 128)).pass.fv (12 + 2 * bitsOf (match (dAt (dSearch 256 (2 ^ 49) (zeros 128)) 409).search 0 (pSearch 256 (zeros 128)).slot (pSearch 256 (zeros 128)).pass.fv [] with | some q => (dAt (dSearch 256 (2 ^ 49) (zeros 128)) 409).word (posAddr q + 80) | none => (dAt (dSearch 256 (2 ^ 49) (zeros 128)) 409).word (R.CLS_DEFAULT_ACTION_WORD (pSearch 256 (zeros 128)).slot 0).addr) 58 2) 2 = 65535 then some C.PRS_RECIRC_UNMARKED else if 256 ≤ (dAt (dSearch 256 (2 ^ 49) (zeros 128)) 409).front.recircs.length then some C.PRS_RECIRC_FULL else if (pSearch 256 (zeros 128)).firstEntry + 400 ≤ (dAt (dSearch 256 (2 ^ 49) (zeros 128)) 409).clockNs then some C.PRS_RECIRC_WITHDRAWN else none)
        = none
    -- SEARCH_RESULT
    ∧ (T (dSearch 0 0 (zeros 128))).RunsIn 17
    ∧ Sparse.wf resetWord (dSearch 0 0 (zeros 128)).regs = true
    ∧ (dSearch 0 0 (zeros 128)).front.searching = [9]
    ∧ (dSearch 0 0 (zeros 128)).packet? 9 = some (pSearch 0 (zeros 128))
    ∧ (pSearch 0 (zeros 128)).stage = Stage.searching 0 0
    ∧ (pSearch 0 (zeros 128)).slot < 4
    ∧ (¬((dSearch 0 0 (zeros 128)).front.lookups = [] ∧ (((dSearch 0 0 (zeros 128)).cacheSet (((dSearch 0 0 (zeros
        128)).packetKey
        { pSearch 0 (zeros 128) with action := match (dSearch 0 0 (zeros 128)).search 0 (pSearch 0 (zeros 128)).slot (pSearch 0 (zeros 128)).pass.fv [] with | some q => (dSearch 0 0 (zeros 128)).word (posAddr q + 80) | none => (dSearch 0 0 (zeros 128)).word (R.CLS_DEFAULT_ACTION_WORD (pSearch 0 (zeros 128)).slot 0).addr : Packet }).hash
        % 2 ^ 16)).any fun (l : CacheLine) => feIs l.data ((dSearch 0 0 (zeros 128)).packetKey
        { pSearch 0 (zeros 128) with action := match (dSearch 0 0 (zeros 128)).search 0 (pSearch 0 (zeros 128)).slot (pSearch 0 (zeros 128)).pass.fv [] with | some q => (dSearch 0 0 (zeros 128)).word (posAddr q + 80) | none => (dSearch 0 0 (zeros 128)).word (R.CLS_DEFAULT_ACTION_WORD (pSearch 0 (zeros 128)).slot 0).addr : Packet }))
        = true ∧ (dSearch 0 0 (zeros 128)).on (R.FLW_POLICY_ENT0_EN (policyOf
        (match (dSearch 0 0 (zeros 128)).search 0 (pSearch 0 (zeros 128)).slot (pSearch 0 (zeros 128)).pass.fv [] with | some q => (dSearch 0 0 (zeros 128)).word (posAddr q + 80) | none => (dSearch 0 0 (zeros 128)).word (R.CLS_DEFAULT_ACTION_WORD (pSearch 0 (zeros 128)).slot 0).addr)))
        = false ∧ (dSearch 0 0 (zeros 128)).on (R.FLW_POLICY_ENT1_EN (policyOf
        (match (dSearch 0 0 (zeros 128)).search 0 (pSearch 0 (zeros 128)).slot (pSearch 0 (zeros 128)).pass.fv [] with | some q => (dSearch 0 0 (zeros 128)).word (posAddr q + 80) | none => (dSearch 0 0 (zeros 128)).word (R.CLS_DEFAULT_ACTION_WORD (pSearch 0 (zeros 128)).slot 0).addr)))
        = false))
    ∧ bitsOf
        (match (dSearch 0 0 (zeros 128)).search 0 (pSearch 0 (zeros 128)).slot (pSearch 0 (zeros 128)).pass.fv [] with | some q => (dSearch 0 0 (zeros 128)).word (posAddr q + 80) | none => (dSearch 0 0 (zeros 128)).word (R.CLS_DEFAULT_ACTION_WORD (pSearch 0 (zeros 128)).slot 0).addr)
        49 1 = 0
    -- SEARCH_RESULT
    ∧ (T (dSearch 0 (2 ^ 49) (zeros 128))).RunsIn 17
    ∧ Sparse.wf resetWord (dSearch 0 (2 ^ 49) (zeros 128)).regs = true
    ∧ (dSearch 0 (2 ^ 49) (zeros 128)).front.searching = [9]
    ∧ (dSearch 0 (2 ^ 49) (zeros 128)).packet? 9 = some (pSearch 0 (zeros 128))
    ∧ (C.PRS_RECIRC_LIMIT ∈ if bitsOf 0 7 2 ≤ (pSearch 0 (zeros 128)).passes then some C.PRS_RECIRC_LIMIT else if leAt
        (pSearch 0 (zeros 128)).pass.fv (12 + 2 * bitsOf
        (match (dSearch 0 (2 ^ 49) (zeros 128)).search 0 (pSearch 0 (zeros 128)).slot (pSearch 0 (zeros 128)).pass.fv [] with | some q => (dSearch 0 (2 ^ 49) (zeros 128)).word (posAddr q + 80) | none => (dSearch 0 (2 ^ 49) (zeros 128)).word (R.CLS_DEFAULT_ACTION_WORD (pSearch 0 (zeros 128)).slot 0).addr)
        58 2) 2 = 65535 then some C.PRS_RECIRC_UNMARKED else if 256 ≤ (dSearch 0 (2 ^ 49) (zeros 128)).front.recircs.length
        then some C.PRS_RECIRC_FULL else if (pSearch 0 (zeros 128)).firstEntry + 400 ≤ (dSearch 0 (2 ^ 49) (zeros
        128)).clockNs then some C.PRS_RECIRC_WITHDRAWN else none)
    ∧ (¬((dSearch 0 (2 ^ 49) (zeros 128)).front.lookups = [] ∧ (((dSearch 0 (2 ^ 49) (zeros 128)).cacheSet (((dSearch 0 (2 ^
        49) (zeros 128)).packetKey
        { pSearch 0 (zeros 128) with action := match (dSearch 0 (2 ^ 49) (zeros 128)).search 0 (pSearch 0 (zeros 128)).slot (pSearch 0 (zeros 128)).pass.fv [] with | some q => (dSearch 0 (2 ^ 49) (zeros 128)).word (posAddr q + 80) | none => (dSearch 0 (2 ^ 49) (zeros 128)).word (R.CLS_DEFAULT_ACTION_WORD (pSearch 0 (zeros 128)).slot 0).addr : Packet }).hash
        % 2 ^ 16)).any fun (l : CacheLine) => feIs l.data ((dSearch 0 (2 ^ 49) (zeros 128)).packetKey
        { pSearch 0 (zeros 128) with action := match (dSearch 0 (2 ^ 49) (zeros 128)).search 0 (pSearch 0 (zeros 128)).slot (pSearch 0 (zeros 128)).pass.fv [] with | some q => (dSearch 0 (2 ^ 49) (zeros 128)).word (posAddr q + 80) | none => (dSearch 0 (2 ^ 49) (zeros 128)).word (R.CLS_DEFAULT_ACTION_WORD (pSearch 0 (zeros 128)).slot 0).addr : Packet }))
        = true ∧ (dSearch 0 (2 ^ 49) (zeros 128)).on (R.FLW_POLICY_ENT0_EN (policyOf
        (match (dSearch 0 (2 ^ 49) (zeros 128)).search 0 (pSearch 0 (zeros 128)).slot (pSearch 0 (zeros 128)).pass.fv [] with | some q => (dSearch 0 (2 ^ 49) (zeros 128)).word (posAddr q + 80) | none => (dSearch 0 (2 ^ 49) (zeros 128)).word (R.CLS_DEFAULT_ACTION_WORD (pSearch 0 (zeros 128)).slot 0).addr)))
        = false ∧ (dSearch 0 (2 ^ 49) (zeros 128)).on (R.FLW_POLICY_ENT1_EN (policyOf
        (match (dSearch 0 (2 ^ 49) (zeros 128)).search 0 (pSearch 0 (zeros 128)).slot (pSearch 0 (zeros 128)).pass.fv [] with | some q => (dSearch 0 (2 ^ 49) (zeros 128)).word (posAddr q + 80) | none => (dSearch 0 (2 ^ 49) (zeros 128)).word (R.CLS_DEFAULT_ACTION_WORD (pSearch 0 (zeros 128)).slot 0).addr)))
        = false))
    ∧ bitsOf
        (match (dSearch 0 (2 ^ 49) (zeros 128)).search 0 (pSearch 0 (zeros 128)).slot (pSearch 0 (zeros 128)).pass.fv [] with | some q => (dSearch 0 (2 ^ 49) (zeros 128)).word (posAddr q + 80) | none => (dSearch 0 (2 ^ 49) (zeros 128)).word (R.CLS_DEFAULT_ACTION_WORD (pSearch 0 (zeros 128)).slot 0).addr)
        49 1 = 1
    ∧ (T (dAt (dSearch 256 (2 ^ 49) (zeros 128)) 410)).RunsIn 17
    ∧ Sparse.wf resetWord (dAt (dSearch 256 (2 ^ 49) (zeros 128)) 410).regs = true
    ∧ (dAt (dSearch 256 (2 ^ 49) (zeros 128)) 410).front.searching = [9]
    ∧ (dAt (dSearch 256 (2 ^ 49) (zeros 128)) 410).packet? 9 = some (pSearch 256 (zeros 128))
    -- SEARCH_RESULT
    ∧ (C.PRS_RECIRC_WITHDRAWN ∈ if bitsOf 256 7 2 ≤ (pSearch 256 (zeros 128)).passes then some C.PRS_RECIRC_LIMIT else if
        leAt (pSearch 256 (zeros 128)).pass.fv (12 + 2 * bitsOf
        (match (dAt (dSearch 256 (2 ^ 49) (zeros 128)) 410).search 0 (pSearch 256 (zeros 128)).slot (pSearch 256 (zeros 128)).pass.fv [] with | some q => (dAt (dSearch 256 (2 ^ 49) (zeros 128)) 410).word (posAddr q + 80) | none => (dAt (dSearch 256 (2 ^ 49) (zeros 128)) 410).word (R.CLS_DEFAULT_ACTION_WORD (pSearch 256 (zeros 128)).slot 0).addr)
        58 2) 2 = 65535 then some C.PRS_RECIRC_UNMARKED else if 256 ≤ (dAt (dSearch 256 (2 ^ 49) (zeros 128))
        410).front.recircs.length then some C.PRS_RECIRC_FULL else if (pSearch 256 (zeros 128)).firstEntry + 400 ≤ (dAt
        (dSearch 256 (2 ^ 49) (zeros 128)) 410).clockNs then some C.PRS_RECIRC_WITHDRAWN else none)
    ∧ (¬((dAt (dSearch 256 (2 ^ 49) (zeros 128)) 410).front.lookups = [] ∧ (((dAt (dSearch 256 (2 ^ 49) (zeros 128))
        410).cacheSet (((dAt (dSearch 256 (2 ^ 49) (zeros 128)) 410).packetKey
        { pSearch 256 (zeros 128) with action := match (dAt (dSearch 256 (2 ^ 49) (zeros 128)) 410).search 0 (pSearch 256 (zeros 128)).slot (pSearch 256 (zeros 128)).pass.fv [] with | some q => (dAt (dSearch 256 (2 ^ 49) (zeros 128)) 410).word (posAddr q + 80) | none => (dAt (dSearch 256 (2 ^ 49) (zeros 128)) 410).word (R.CLS_DEFAULT_ACTION_WORD (pSearch 256 (zeros 128)).slot 0).addr : Packet }).hash
        % 2 ^ 16)).any fun (l : CacheLine) => feIs l.data ((dAt (dSearch 256 (2 ^ 49) (zeros 128)) 410).packetKey
        { pSearch 256 (zeros 128) with action := match (dAt (dSearch 256 (2 ^ 49) (zeros 128)) 410).search 0 (pSearch 256 (zeros 128)).slot (pSearch 256 (zeros 128)).pass.fv [] with | some q => (dAt (dSearch 256 (2 ^ 49) (zeros 128)) 410).word (posAddr q + 80) | none => (dAt (dSearch 256 (2 ^ 49) (zeros 128)) 410).word (R.CLS_DEFAULT_ACTION_WORD (pSearch 256 (zeros 128)).slot 0).addr : Packet }))
        = true ∧ (dAt (dSearch 256 (2 ^ 49) (zeros 128)) 410).on (R.FLW_POLICY_ENT0_EN (policyOf
        (match (dAt (dSearch 256 (2 ^ 49) (zeros 128)) 410).search 0 (pSearch 256 (zeros 128)).slot (pSearch 256 (zeros 128)).pass.fv [] with | some q => (dAt (dSearch 256 (2 ^ 49) (zeros 128)) 410).word (posAddr q + 80) | none => (dAt (dSearch 256 (2 ^ 49) (zeros 128)) 410).word (R.CLS_DEFAULT_ACTION_WORD (pSearch 256 (zeros 128)).slot 0).addr)))
        = false ∧ (dAt (dSearch 256 (2 ^ 49) (zeros 128)) 410).on (R.FLW_POLICY_ENT1_EN (policyOf
        (match (dAt (dSearch 256 (2 ^ 49) (zeros 128)) 410).search 0 (pSearch 256 (zeros 128)).slot (pSearch 256 (zeros 128)).pass.fv [] with | some q => (dAt (dSearch 256 (2 ^ 49) (zeros 128)) 410).word (posAddr q + 80) | none => (dAt (dSearch 256 (2 ^ 49) (zeros 128)) 410).word (R.CLS_DEFAULT_ACTION_WORD (pSearch 256 (zeros 128)).slot 0).addr)))
        = false))
    ∧ bitsOf
        (match (dAt (dSearch 256 (2 ^ 49) (zeros 128)) 410).search 0 (pSearch 256 (zeros 128)).slot (pSearch 256 (zeros 128)).pass.fv [] with | some q => (dAt (dSearch 256 (2 ^ 49) (zeros 128)) 410).word (posAddr q + 80) | none => (dAt (dSearch 256 (2 ^ 49) (zeros 128)) 410).word (R.CLS_DEFAULT_ACTION_WORD (pSearch 256 (zeros 128)).slot 0).addr)
        49 1 = 1
    -- SEARCH_RESULT
    ∧ (T dDirect).RunsIn 17
    ∧ Sparse.wf resetWord dDirect.regs = true
    ∧ dDirect.front.searching = [9]
    ∧ dDirect.packet? 9 = some (pSearch 0 (zeros 128))
    ∧ (dDirect.front.lookups = [] ∧ ((dDirect.cacheSet ((dDirect.packetKey
        { pSearch 0 (zeros 128) with action := match dDirect.search 0 (pSearch 0 (zeros 128)).slot (pSearch 0 (zeros 128)).pass.fv [] with | some q => dDirect.word (posAddr q + 80) | none => dDirect.word (R.CLS_DEFAULT_ACTION_WORD (pSearch 0 (zeros 128)).slot 0).addr : Packet }).hash
        % 2 ^ 16)).any fun (l : CacheLine) => feIs l.data (dDirect.packetKey
        { pSearch 0 (zeros 128) with action := match dDirect.search 0 (pSearch 0 (zeros 128)).slot (pSearch 0 (zeros 128)).pass.fv [] with | some q => dDirect.word (posAddr q + 80) | none => dDirect.word (R.CLS_DEFAULT_ACTION_WORD (pSearch 0 (zeros 128)).slot 0).addr : Packet }))
        = true ∧ dDirect.on (R.FLW_POLICY_ENT0_EN (policyOf
        (match dDirect.search 0 (pSearch 0 (zeros 128)).slot (pSearch 0 (zeros 128)).pass.fv [] with | some q => dDirect.word (posAddr q + 80) | none => dDirect.word (R.CLS_DEFAULT_ACTION_WORD (pSearch 0 (zeros 128)).slot 0).addr)))
        = false ∧ dDirect.on (R.FLW_POLICY_ENT1_EN (policyOf
        (match dDirect.search 0 (pSearch 0 (zeros 128)).slot (pSearch 0 (zeros 128)).pass.fv [] with | some q => dDirect.word (posAddr q + 80) | none => dDirect.word (R.CLS_DEFAULT_ACTION_WORD (pSearch 0 (zeros 128)).slot 0).addr)))
        = false)
    ∧ (bitsOf
        (match dDirect.search 0 (pSearch 0 (zeros 128)).slot (pSearch 0 (zeros 128)).pass.fv [] with | some q => dDirect.word (posAddr q + 80) | none => dDirect.word (R.CLS_DEFAULT_ACTION_WORD (pSearch 0 (zeros 128)).slot 0).addr)
        49 1 = 0 ∨
        (if bitsOf 0 7 2 ≤ (pSearch 0 (zeros 128)).passes then some C.PRS_RECIRC_LIMIT else if leAt (pSearch 0 (zeros 128)).pass.fv (12 + 2 * bitsOf (match dDirect.search 0 (pSearch 0 (zeros 128)).slot (pSearch 0 (zeros 128)).pass.fv [] with | some q => dDirect.word (posAddr q + 80) | none => dDirect.word (R.CLS_DEFAULT_ACTION_WORD (pSearch 0 (zeros 128)).slot 0).addr) 58 2) 2 = 65535 then some C.PRS_RECIRC_UNMARKED else if 256 ≤ dDirect.front.recircs.length then some C.PRS_RECIRC_FULL else if (pSearch 0 (zeros 128)).firstEntry + 400 ≤ dDirect.clockNs then some C.PRS_RECIRC_WITHDRAWN else none)
        ≠ none)
    ∧ dPort.recircDue = none
    ∧ (T dRecirc).RunsIn 17
    ∧ dRecirc.recircDue = some (pk (Stage.recirc 0 0 0) 1 0)
    ∧ (pk (Stage.recirc 0 0 0) 1 0).slot < 4
    ∧ 9 ∈ dRecirc.front.recircs
    ∧ dRecirc.packet? 9 = some (pk (Stage.recirc 0 0 0) 1 0)
    -- RECIRC_WITHDRAWN
    ∧ (¬(dRecirc.front.lookups = [] ∧ ((dRecirc.cacheSet ((dRecirc.packetKey (pk (Stage.recirc 0 0 0) 1 0)).hash % 2 ^
        16)).any fun (l : CacheLine) => feIs l.data (dRecirc.packetKey (pk (Stage.recirc 0 0 0) 1 0))) = true ∧ dRecirc.on
        (R.FLW_POLICY_ENT0_EN (policyOf (pk (Stage.recirc 0 0 0) 1 0).action)) = false ∧ dRecirc.on (R.FLW_POLICY_ENT1_EN
        (policyOf (pk (Stage.recirc 0 0 0) 1 0).action)) = false))
    -- RECIRC_WITHDRAWN
    ∧ (T dRecircDirect).RunsIn 17
    ∧ dRecircDirect.recircDue = some (pk (Stage.recirc 0 0 0) 1 0)
    ∧ (dRecircDirect.front.lookups = [] ∧ ((dRecircDirect.cacheSet ((dRecircDirect.packetKey (pk (Stage.recirc 0 0 0) 1
        0)).hash % 2 ^ 16)).any fun (l : CacheLine) => feIs l.data (dRecircDirect.packetKey (pk (Stage.recirc 0 0 0) 1 0))) =
        true ∧ dRecircDirect.on (R.FLW_POLICY_ENT0_EN (policyOf (pk (Stage.recirc 0 0 0) 1 0).action)) = false ∧
        dRecircDirect.on (R.FLW_POLICY_ENT1_EN (policyOf (pk (Stage.recirc 0 0 0) 1 0).action)) = false)
    ∧ dPort.front.lookups = []
    -- BUCKET_READ_RETURN
    ∧ (T dLookup).RunsIn 17
    ∧ dLookup.front.lookups = [9]
    ∧ dLookup.packet? 9 = some (pk Stage.flow 1 0) := by
  refine ⟨?_, ?_, ?_, ?_, ?_, ?_, ?_, ?_, ?_, ?_, ?_, ?_, ?_, ?_, ?_, ?_, ?_, ?_, ?_, ?_, ?_, ?_, ?_, ?_, ?_, ?_, ?_, ?_, ?_, ?_,
    ?_, ?_, ?_, ?_, ?_, ?_, ?_, ?_, ?_, ?_, ?_, ?_, ?_, ?_, ?_, ?_, ?_, ?_, ?_, ?_, ?_, ?_, ?_⟩ <;> decide +kernel

/-- States and operands that meet the hypotheses of each clause of `Obligations.ReleaseAndAgeing`. -/
theorem witness_ReleaseAndAgeing :
    -- PACKET_RELEASE
    (T (dFront pHeld id)).Running
    ∧ (dFront pHeld id).regionStopped 20 = false
    ∧ (dFront pHeld id).packet? pHeld.id = some pHeld
    ∧ pHeld.stage = Stage.held
    ∧ pHeld.sp < 8
    ∧ pHeld.sp < (dFront pHeld id).port.subs.length
    ∧ (dFront pHeld id).mayRelease pHeld = true
    ∧ ((∃ (v : List Byte), pHeld.verdict = some v ∧ Shim.ofBytes (zeros 16) =
        { Shim.ofBytes v with tick := if (Shim.ofBytes v).tier = 15 then (dFront pHeld id).tick32 else (Shim.ofBytes v).tick : Shim })
        ∨ pHeld.verdict = none ∧ pHeld.sample = none ∧ Shim.ofBytes (zeros 16) = (dFront pHeld id).unsampledShim pHeld)
    ∧ (dFront pHeld id).up pHeld.sp = true
    ∧ pHeld.gone = false
    -- PACKET_RELEASE
    ∧ (T dUnsampled).Running
    ∧ dUnsampled.regionStopped 20 = false
    ∧ dUnsampled.packet? pUnsampled.id = some pUnsampled
    ∧ pUnsampled.stage = Stage.held
    ∧ pUnsampled.sp < 8
    ∧ pUnsampled.sp < dUnsampled.port.subs.length
    ∧ dUnsampled.mayRelease pUnsampled = true
    ∧ ((∃ (v : List Byte), pUnsampled.verdict = some v ∧ dUnsampled.unsampledShim pUnsampled =
        { Shim.ofBytes v with tick := if (Shim.ofBytes v).tier = 15 then dUnsampled.tick32 else (Shim.ofBytes v).tick : Shim })
        ∨ pUnsampled.verdict = none ∧ pUnsampled.sample = none ∧ dUnsampled.unsampledShim pUnsampled =
        dUnsampled.unsampledShim pUnsampled)
    ∧ dUnsampled.up pUnsampled.sp = false
    ∧ pUnsampled.gone = false
    -- PACKET_RELEASE
    ∧ (T (dFront pGone id)).Running
    ∧ (dFront pGone id).regionStopped 20 = false
    ∧ (dFront pGone id).packet? pGone.id = some pGone
    ∧ pGone.stage = Stage.held
    ∧ pGone.sp < 8
    ∧ pGone.sp < (dFront pGone id).port.subs.length
    ∧ (dFront pGone id).mayRelease pGone = true
    ∧ ((∃ (v : List Byte), pGone.verdict = some v ∧ Shim.ofBytes (zeros 16) =
        { Shim.ofBytes v with tick := if (Shim.ofBytes v).tier = 15 then (dFront pGone id).tick32 else (Shim.ofBytes v).tick : Shim })
        ∨ pGone.verdict = none ∧ pGone.sample = none ∧ Shim.ofBytes (zeros 16) = (dFront pGone id).unsampledShim pGone)
    ∧ pGone.gone = true
    ∧ (T ((dAge 0).put (R.MEM_CHAN_STAT_STATE 0) 2)).Running
    ∧ ((dAge 0).put (R.MEM_CHAN_STAT_STATE 0) 2).regionStopped 20 = false
    ∧ ((dAge 0).put (R.MEM_CHAN_STAT_STATE 0) 2).packet? 0 = none
    ∧ (T (dFront (pk Stage.flow 1 0) id)).Running
    ∧ (dFront (pk Stage.flow 1 0) id).regionStopped 20 = false
    ∧ (dFront (pk Stage.flow 1 0) id).packet? (pk Stage.flow 1 0).id = some (pk Stage.flow 1 0)
    ∧ ((pk Stage.flow 1 0).stage ≠ Stage.held ∨ (pk Stage.flow 1 0).sample ≠ none ∧ (pk Stage.flow 1 0).verdict = none ∨
        (dFront (pk Stage.flow 1 0) id).mayRelease (pk Stage.flow 1 0) = false)
    -- AGEING_SWEEP_VISIT
    ∧ (T dev0).Running
    ∧ dev0.regionStopped 17 = false
    ∧ 2 ^ 23 - 1 < dev0.ageSize (Option.map (fun (x : Fin 8) => ↑x) none)
    ∧ (∀ f < 16, dev0.get (R.FLW_POLICY_IDLE_MS f) = 0)
    ∧ (∀ t < 8, dev0.get (R.FLW_ENT_TABLE_IDLE_MS t) = 0)
    ∧ dev0.ageSize (Option.map (fun (x : Fin 8) => ↑x) none) ≤ 2 ^ 23
    -- AGEING_SWEEP_VISIT
    ∧ ((dAge 0).put (R.MEM_CHAN_STAT_STATE 0) 2).regionStopped 17 = false
    ∧ 0 < 2 ^ 23
    ∧ ((dAge 0).put (R.MEM_CHAN_STAT_STATE 0) 2).front.ageVisited = 0
    ∧ ((dAge 0).put (R.MEM_CHAN_STAT_STATE 0) 2).chanRetired (0 % 512) = true
    -- AGEING_SWEEP_VISIT
    ∧ (T (dAge 0)).Running
    ∧ (dAge 0).regionStopped 17 = false
    ∧ (dAge 0).front.ageVisited = 0
    ∧ (dAge 0).chanRetired (0 % 512) = false
    ∧ (dAge 0).front.cache = []
    ∧ (∀ x < 4, (dAge 0).readable ((dAge 0).flowAddr (4 * 0 + x)) 192 = true)
    ∧ (∀ x < 4, ¬(feValid ((dAge 0).memRead ((dAge 0).flowAddr (4 * 0 + x)) 192) = true ∧ (dAge 0).get (R.FLW_POLICY_IDLE_MS
        (leAt ((dAge 0).memRead ((dAge 0).flowAddr (4 * 0 + x)) 192) 43 1 / 16)) ≠ 0 ∧ leAt ((dAge 0).memRead ((dAge
        0).flowAddr (4 * 0 + x)) 192) 64 8 + (dAge 0).get (R.FLW_POLICY_IDLE_MS (leAt ((dAge 0).memRead ((dAge 0).flowAddr (4
        * 0 + x)) 192) 43 1 / 16)) * 1000000 ≤ ((dAge 0).advanceClock ((dAge 0).ageDue 0)).ns))
    -- AGEING_SWEEP_VISIT
    ∧ (T ((dAge 1000000).put R.MEM_MAP_INFO_LIVE_CHANNELS 512)).Running
    ∧ ((dAge 1000000).put R.MEM_MAP_INFO_LIVE_CHANNELS 512).regionStopped 17 = false
    ∧ ((dAge 1000000).put R.MEM_MAP_INFO_LIVE_CHANNELS 512).front.ageVisited = 0
    ∧ ((dAge 1000000).put R.MEM_MAP_INFO_LIVE_CHANNELS 512).chanRetired (0 % 512) = false
    ∧ ((dAge 1000000).put R.MEM_MAP_INFO_LIVE_CHANNELS 512).front.cache = []
    ∧ (∀ x < 4, ((dAge 1000000).put R.MEM_MAP_INFO_LIVE_CHANNELS 512).readable (((dAge 1000000).put
        R.MEM_MAP_INFO_LIVE_CHANNELS 512).flowAddr (4 * 0 + x)) 192 = true)
    ∧ 0 < 4
    ∧ (feValid (((dAge 1000000).put R.MEM_MAP_INFO_LIVE_CHANNELS 512).memRead (((dAge 1000000).put
        R.MEM_MAP_INFO_LIVE_CHANNELS 512).flowAddr (4 * 0 + 0)) 192) = true ∧ ((dAge 1000000).put R.MEM_MAP_INFO_LIVE_CHANNELS
        512).get (R.FLW_POLICY_IDLE_MS (leAt (((dAge 1000000).put R.MEM_MAP_INFO_LIVE_CHANNELS 512).memRead (((dAge
        1000000).put R.MEM_MAP_INFO_LIVE_CHANNELS 512).flowAddr (4 * 0 + 0)) 192) 43 1 / 16)) ≠ 0 ∧ leAt (((dAge 1000000).put
        R.MEM_MAP_INFO_LIVE_CHANNELS 512).memRead (((dAge 1000000).put R.MEM_MAP_INFO_LIVE_CHANNELS 512).flowAddr (4 * 0 + 0))
        192) 64 8 + ((dAge 1000000).put R.MEM_MAP_INFO_LIVE_CHANNELS 512).get (R.FLW_POLICY_IDLE_MS (leAt (((dAge 1000000).put
        R.MEM_MAP_INFO_LIVE_CHANNELS 512).memRead (((dAge 1000000).put R.MEM_MAP_INFO_LIVE_CHANNELS 512).flowAddr (4 * 0 + 0))
        192) 43 1 / 16)) * 1000000 ≤ (((dAge 1000000).put R.MEM_MAP_INFO_LIVE_CHANNELS 512).advanceClock (((dAge 1000000).put
        R.MEM_MAP_INFO_LIVE_CHANNELS 512).ageDue 0)).ns)
    ∧ (∀ x < 4, x ≠ 0 → ¬(feValid (((dAge 1000000).put R.MEM_MAP_INFO_LIVE_CHANNELS 512).memRead (((dAge 1000000).put
        R.MEM_MAP_INFO_LIVE_CHANNELS 512).flowAddr (4 * 0 + x)) 192) = true ∧ ((dAge 1000000).put R.MEM_MAP_INFO_LIVE_CHANNELS
        512).get (R.FLW_POLICY_IDLE_MS (leAt (((dAge 1000000).put R.MEM_MAP_INFO_LIVE_CHANNELS 512).memRead (((dAge
        1000000).put R.MEM_MAP_INFO_LIVE_CHANNELS 512).flowAddr (4 * 0 + x)) 192) 43 1 / 16)) ≠ 0 ∧ leAt (((dAge 1000000).put
        R.MEM_MAP_INFO_LIVE_CHANNELS 512).memRead (((dAge 1000000).put R.MEM_MAP_INFO_LIVE_CHANNELS 512).flowAddr (4 * 0 + x))
        192) 64 8 + ((dAge 1000000).put R.MEM_MAP_INFO_LIVE_CHANNELS 512).get (R.FLW_POLICY_IDLE_MS (leAt (((dAge 1000000).put
        R.MEM_MAP_INFO_LIVE_CHANNELS 512).memRead (((dAge 1000000).put R.MEM_MAP_INFO_LIVE_CHANNELS 512).flowAddr (4 * 0 + x))
        192) 43 1 / 16)) * 1000000 ≤ (((dAge 1000000).put R.MEM_MAP_INFO_LIVE_CHANNELS 512).advanceClock (((dAge 1000000).put
        R.MEM_MAP_INFO_LIVE_CHANNELS 512).ageDue 0)).ns))
    ∧ (192 ≠ 0 ∧ ((dAge 1000000).put R.MEM_MAP_INFO_LIVE_CHANNELS 512).mapped (((dAge 1000000).put
        R.MEM_MAP_INFO_LIVE_CHANNELS 512).flowAddr (4 * 0 + 0)) 192 = true ∧ ∀ g ∈ granules (((dAge 1000000).put
        R.MEM_MAP_INFO_LIVE_CHANNELS 512).flowAddr (4 * 0 + 0)) 192, ((dAge 1000000).put R.MEM_MAP_INFO_LIVE_CHANNELS
        512).inRetired (64 * g) = false ∧ ((dAge 1000000).put R.MEM_MAP_INFO_LIVE_CHANNELS 512).inHeldTier (64 * g) = false ∧
        ((dAge 1000000).put R.MEM_MAP_INFO_LIVE_CHANNELS 512).granuleBad g = false ∧ ((dAge 1000000).put
        R.MEM_MAP_INFO_LIVE_CHANNELS 512).staticEntity g = false)
    -- AGEING_SWEEP_VISIT
    ∧ (T ((dEntAge 0).put (R.FLW_ENT_TABLE_IDLE_MS 0) 100000)).Running
    ∧ ((dEntAge 0).put (R.FLW_ENT_TABLE_IDLE_MS 0) 100000).regionStopped 17 = false
    ∧ 0 < ((dEntAge 0).put (R.FLW_ENT_TABLE_IDLE_MS 0) 100000).ageSize (some 0)
    ∧ ((dEntAge 0).put (R.FLW_ENT_TABLE_IDLE_MS 0) 100000).get (R.FLW_ENT_TABLE_BASE 0) % 64 = 0
    ∧ ((dEntAge 0).put (R.FLW_ENT_TABLE_IDLE_MS 0) 100000).front.ageVisited = ((dEntAge 0).put (R.FLW_ENT_TABLE_IDLE_MS 0)
        100000).ageFirst (some 0) + 0
    ∧ (∀ x < 4, ((dEntAge 0).put (R.FLW_ENT_TABLE_IDLE_MS 0) 100000).readable (((dEntAge 0).put (R.FLW_ENT_TABLE_IDLE_MS 0)
        100000).get (R.FLW_ENT_TABLE_BASE 0) + 256 * 0 + 64 * x) 64 = true)
    ∧ (∀ w < 4, ¬(bitsOf (leAt (((dEntAge 0).put (R.FLW_ENT_TABLE_IDLE_MS 0) 100000).memRead (((dEntAge 0).put
        (R.FLW_ENT_TABLE_IDLE_MS 0) 100000).get (R.FLW_ENT_TABLE_BASE 0) + 256 * 0 + 64 * w) 64) 16 1) 0 1 = 1 ∧ bitsOf (leAt
        (((dEntAge 0).put (R.FLW_ENT_TABLE_IDLE_MS 0) 100000).memRead (((dEntAge 0).put (R.FLW_ENT_TABLE_IDLE_MS 0)
        100000).get (R.FLW_ENT_TABLE_BASE 0) + 256 * 0 + 64 * w) 64) 16 1) 1 1 = 0 ∧ ((dEntAge 0).put (R.FLW_ENT_TABLE_IDLE_MS
        0) 100000).get (R.FLW_ENT_TABLE_IDLE_MS 0) ≠ 0 ∧ leAt (((dEntAge 0).put (R.FLW_ENT_TABLE_IDLE_MS 0) 100000).memRead
        (((dEntAge 0).put (R.FLW_ENT_TABLE_IDLE_MS 0) 100000).get (R.FLW_ENT_TABLE_BASE 0) + 256 * 0 + 64 * w) 64) 40 8 +
        ((dEntAge 0).put (R.FLW_ENT_TABLE_IDLE_MS 0) 100000).get (R.FLW_ENT_TABLE_IDLE_MS 0) * 1000000 ≤ (((dEntAge 0).put
        (R.FLW_ENT_TABLE_IDLE_MS 0) 100000).advanceClock (((dEntAge 0).put (R.FLW_ENT_TABLE_IDLE_MS 0) 100000).ageDue
        (((dEntAge 0).put (R.FLW_ENT_TABLE_IDLE_MS 0) 100000).ageFirst (some 0) + 0))).ns))
    -- AGEING_SWEEP_VISIT
    ∧ (T (dEntAge 1000000)).Running
    ∧ (dEntAge 1000000).regionStopped 17 = false
    ∧ 0 < (dEntAge 1000000).ageSize (some 0)
    ∧ (dEntAge 1000000).get (R.FLW_ENT_TABLE_BASE 0) % 64 = 0
    ∧ (dEntAge 1000000).front.ageVisited = (dEntAge 1000000).ageFirst (some 0) + 0
    ∧ (∀ x < 4, (dEntAge 1000000).readable ((dEntAge 1000000).get (R.FLW_ENT_TABLE_BASE 0) + 256 * 0 + 64 * x) 64 = true)
    ∧ 2 < 4
    ∧ (bitsOf (leAt ((dEntAge 1000000).memRead ((dEntAge 1000000).get (R.FLW_ENT_TABLE_BASE 0) + 256 * 0 + 64 * 2) 64) 16 1)
        0 1 = 1 ∧ bitsOf (leAt ((dEntAge 1000000).memRead ((dEntAge 1000000).get (R.FLW_ENT_TABLE_BASE 0) + 256 * 0 + 64 * 2)
        64) 16 1) 1 1 = 0 ∧ (dEntAge 1000000).get (R.FLW_ENT_TABLE_IDLE_MS 0) ≠ 0 ∧ leAt ((dEntAge 1000000).memRead ((dEntAge
        1000000).get (R.FLW_ENT_TABLE_BASE 0) + 256 * 0 + 64 * 2) 64) 40 8 + (dEntAge 1000000).get (R.FLW_ENT_TABLE_IDLE_MS 0)
        * 1000000 ≤ ((dEntAge 1000000).advanceClock ((dEntAge 1000000).ageDue ((dEntAge 1000000).ageFirst (some 0) + 0))).ns)
    ∧ (∀ x < 4, x ≠ 2 → ¬(bitsOf (leAt ((dEntAge 1000000).memRead ((dEntAge 1000000).get (R.FLW_ENT_TABLE_BASE 0) + 256 * 0
        + 64 * x) 64) 16 1) 0 1 = 1 ∧ bitsOf (leAt ((dEntAge 1000000).memRead ((dEntAge 1000000).get (R.FLW_ENT_TABLE_BASE 0)
        + 256 * 0 + 64 * x) 64) 16 1) 1 1 = 0 ∧ (dEntAge 1000000).get (R.FLW_ENT_TABLE_IDLE_MS 0) ≠ 0 ∧ leAt ((dEntAge
        1000000).memRead ((dEntAge 1000000).get (R.FLW_ENT_TABLE_BASE 0) + 256 * 0 + 64 * x) 64) 40 8 + (dEntAge 1000000).get
        (R.FLW_ENT_TABLE_IDLE_MS 0) * 1000000 ≤ ((dEntAge 1000000).advanceClock ((dEntAge 1000000).ageDue ((dEntAge
        1000000).ageFirst (some 0) + 0))).ns)) := by
  refine ⟨?_, ?_, ?_, ?_, ?_, ?_, ?_, ?_, ?_, ?_, ?_, ?_, ?_, ?_, ?_, ?_, ?_, ?_, ?_, ?_, ?_, ?_, ?_, ?_, ?_, ?_, ?_, ?_, ?_, ?_,
    ?_, ?_, ?_, ?_, ?_, ?_, ?_, ?_, ?_, ?_, ?_, ?_, ?_, ?_, ?_, ?_, ?_, ?_, ?_, ?_, ?_, ?_, ?_, ?_, ?_, ?_, ?_, ?_, ?_, ?_,
    ?_, ?_, ?_, ?_, ?_, ?_, ?_, ?_, ?_, ?_, ?_, ?_, ?_, ?_, ?_, ?_, ?_, ?_, ?_⟩ <;> decide +kernel

/-- States and operands that meet the hypotheses of each clause of `Obligations.TicksBeginAtBoundaries`. -/
theorem witness_TicksBeginAtBoundaries :
    -- TICK_BOUNDARY
    (T (dTick false false 0 [])).Running
    ∧ (dTick false false 0 []).plan.ticking = true
    ∧ (dTick false false 0 []).on R.TKP_TICK_STAT_FOLLOWER = false
    -- TICK_BOUNDARY
    ∧ (T (dTick true true 2 [(3000, 7)])).Running
    ∧ (dTick true true 2 [(3000, 7)]).plan.ticking = true
    ∧ (dTick true true 2 [(3000, 7)]).on R.TKP_TICK_STAT_FOLLOWER = true
    ∧ 2 ≤ (dTick true true 2 [(3000, 7)]).plan.missed
    ∧ (T (dTick true true 1 [(3000, 7)])).Running
    ∧ ((dTick true true 1 [(3000, 7)]).plan.ticking = false ∨ (dTick true true 1 [(3000, 7)]).on R.TKP_TICK_STAT_FOLLOWER =
        true ∧ (dTick true true 1 [(3000, 7)]).plan.missed < 2)
    -- TICK_SYNC_EDGE
    ∧ (T (dTick true true 0 [(3000, 7)])).Running
    ∧ (dTick true true 0 [(3000, 7)]).plan.ticking = true
    ∧ (dTick true true 0 [(3000, 7)]).on R.TKP_TICK_STAT_FOLLOWER = true
    ∧ (dTick true true 0 [(3000, 7)]).on R.TKP_MODE_FABRIC_BOARD = true
    ∧ ((dTick true true 0 [(3000, 7)]).plan.numbered = true ∨ (dTick true true 0 [(3000, 7)]).plan.firstTick ≠ none)
    -- TICK_SYNC_EDGE
    ∧ (T dFollows).Running
    ∧ dFollows.plan.ticking = true
    ∧ dFollows.on R.TKP_TICK_STAT_FOLLOWER = true
    ∧ dFollows.on R.TKP_MODE_FABRIC_BOARD = true
    ∧ dFollows.plan.numbered = false
    ∧ dFollows.plan.firstTick = none
    ∧ ((dTick false false 0 []).plan.ticking = false ∨ (dTick false false 0 []).on R.TKP_TICK_STAT_FOLLOWER = false ∨ (dTick
        false false 0 []).on R.TKP_MODE_FABRIC_BOARD = false)
    -- SYNC_LOST
    ∧ (T (dTick true true 1 [])).Running
    ∧ (dTick true true 1 []).plan.ticking = true
    ∧ (dTick true true 1 []).on R.TKP_TICK_STAT_FOLLOWER = true
    ∧ (dTick true true 1 []).plan.missed < 2
    ∧ (T (dTick true true 2 [])).Running
    ∧ ((dTick true true 2 []).plan.ticking = false ∨ (dTick true true 2 []).on R.TKP_TICK_STAT_FOLLOWER = false ∨ 2 ≤ (dTick
        true true 2 []).plan.missed) := by
  refine ⟨?_, ?_, ?_, ?_, ?_, ?_, ?_, ?_, ?_, ?_, ?_, ?_, ?_, ?_, ?_, ?_, ?_, ?_, ?_, ?_, ?_, ?_, ?_, ?_, ?_, ?_, ?_⟩ <;> decide +kernel

/-- States and operands that meet the hypotheses of each clause of `Obligations.ApertureAdjusts`. -/
theorem witness_ApertureAdjusts :
    -- DECIM_HALVE
    (T (dPlaced.put R.FLW_SAMPLE_CTL_DECIM_TICKS 7)).RunsIn 20
    ∧ (dPlaced.put R.FLW_SAMPLE_CTL_DECIM_TICKS 7).get Gap.decim.field ≠ 0
    ∧ bitsOf (dPlaced.put R.FLW_SAMPLE_CTL_DECIM_TICKS 7).plan.planCfg 32 16 ≤ ((dPlaced.put R.FLW_SAMPLE_CTL_DECIM_TICKS
        7).gapState Gap.decim).quiet
    ∧ (T dPlaced).RunsIn 20
    ∧ (dPlaced.get (Gap.model 14).field = 0 ∨ (dPlaced.gapState (Gap.model 14)).quiet < bitsOf dPlaced.plan.planCfg 32 16)
    -- ENERGY_RECALIBRATE
    ∧ (T (dTock 2000 976)).RunsIn 20
    ∧ (dTock 2000 976).plan.firstTick ≠ none
    ∧ (dTock 2000 976).plan.recalsTick + 1024 ≤ (dTock 2000 976).plan.tick
    ∧ (T (dTock 2000 977)).RunsIn 20
    ∧ ((dTock 2000 977).plan.firstTick = none ∨ (dTock 2000 977).plan.tick < (dTock 2000 977).plan.recalsTick + 1024)
    -- CAP_RECOMPUTE
    ∧ (T (dTock 1024 0)).RunsIn 20
    ∧ (dTock 1024 0).capTick = true
    ∧ (∃ m < 15, ∃ t < 3, ((dTock 1024 0).tierUse m t).windows ≠ 0)
    ∧ (T (dTock 999 0)).RunsIn 20
    ∧ ((dTock 999 0).capTick = false ∨ ∀ m < 15, ∀ t < 3, ((dTock 999 0).tierUse m t).windows = 0)
    -- SOFT_STEP
    ∧ (T (dTock 1000 0)).RunsIn 20
    ∧ (dTock 1000 0).plan.firstTick = some 0
    ∧ (dTock 1000 0).plan.tick ≠ 0
    ∧ ((dTock 1000 0).plan.tick - 0) % 1000 = 0
    ∧ (dTock 1000 0).plan.softTick ≠ some (dTock 1000 0).plan.tick
    ∧ (dPlaced.plan.firstTick = none ∨ dPlaced.plan.firstTick = some dPlaced.plan.tick ∨ dPlaced.plan.softTick = some
        dPlaced.plan.tick ∨ ∃ (f : ℕ), dPlaced.plan.firstTick = some f ∧ (dPlaced.plan.tick - f) % 1000 ≠ 0)
    -- THROTTLE_ENTER
    ∧ dPlaced.on R.APR_STAT_THROTTLE = false
    ∧ (105 * 8 ≤ (dPlaced.takeTemps [{ sensor := 63, eighths := 840 : TempReading }]).hottest 0 64 ∨ 95 * 8 ≤
        (dPlaced.takeTemps [{ sensor := 63, eighths := 840 : TempReading }]).hottest 64 32)
    -- THROTTLE_ENTER
    ∧ (dPlaced.on R.APR_STAT_THROTTLE = true ∨ ¬(105 * 8 ≤ (dPlaced.takeTemps
        [{ sensor := 63, eighths := 839 : TempReading }, { sensor := 64, eighths := 759 : TempReading }]).hottest 0 64 ∨ 95 *
        8 ≤ (dPlaced.takeTemps [{ sensor := 63, eighths := 839 : TempReading },
        { sensor := 64, eighths := 759 : TempReading }]).hottest 64 32)) := by
  refine ⟨?_, ?_, ?_, ?_, ?_, ?_, ?_, ?_, ?_, ?_, ?_, ?_, ?_, ?_, ?_, ?_, ?_, ?_, ?_, ?_, ?_, ?_, ?_, ?_⟩ <;> decide +kernel

/-- States and operands that meet the hypotheses of each clause of `Obligations.PlannerGrants`. -/
theorem witness_PlannerGrants :
    -- LEARNING_ADMIT
    (T dPhase).RunsIn 20
    ∧ (dPhase.learner 0).step = some (step0 none)
    ∧ (∀ c ∈ dPhase.seqContext 0, dPhase.stepping c = false ∧ dPhase.faulted c = false)
    ∧ dPhase.verdictsDone = true
    ∧ dPhase.on R.APR_STAT_THROTTLE = false
    ∧ bitsOf dPhase.plan.mode 0 1 = 1
    ∧ fpLt dPhase.plan.left (dPhase.get (R.TKP_ENERGY_E_UJ 0 3)) = false
    ∧ (T (dPhase.put (R.TKP_ENERGY_E_UJ 1 3) 1065353217)).RunsIn 20
    ∧ ((dPhase.put (R.TKP_ENERGY_E_UJ 1 3) 1065353217).learner 1).step = some (step0 (some 3))
    ∧ (∀ c ∈ (dPhase.put (R.TKP_ENERGY_E_UJ 1 3) 1065353217).seqContext 1, (dPhase.put (R.TKP_ENERGY_E_UJ 1 3)
        1065353217).stepping c = false ∧ (dPhase.put (R.TKP_ENERGY_E_UJ 1 3) 1065353217).faulted c = false)
    ∧ (dPhase.put (R.TKP_ENERGY_E_UJ 1 3) 1065353217).verdictsDone = true
    ∧ (dPhase.put (R.TKP_ENERGY_E_UJ 1 3) 1065353217).on R.APR_STAT_THROTTLE = false
    ∧ bitsOf (dPhase.put (R.TKP_ENERGY_E_UJ 1 3) 1065353217).plan.mode 0 1 = 1
    ∧ fpLt (dPhase.put (R.TKP_ENERGY_E_UJ 1 3) 1065353217).plan.left ((dPhase.put (R.TKP_ENERGY_E_UJ 1 3) 1065353217).get
        (R.TKP_ENERGY_E_UJ 1 3)) = true
    ∧ (T dev0).RunsIn 20
    ∧ ((dev0.learner 14).step = none ∨ ∃ (c : ℕ), dev0.seqContext 14 = some c ∧ (dev0.stepping c = true ∨ dev0.faulted c =
        true))
    ∧ List.map (fun (x : Fin 15) => ↑x) [0, 1] = List.foldl (fun (l : List ℕ) (x : ℕ) => dPhase.insertPrio x l) [] (List.map
        (fun (x : Fin 15) => ↑x) [0, 1])
    ∧ (dev0.verdictsDone = false ∨ dev0.on R.APR_STAT_THROTTLE = true ∨ bitsOf dev0.plan.mode 0 1 = 0)
    ∧ slackOrder [{ kind := SlackKind.widen, subject := 1, remainingNs := 0 : SlackReq },
        { kind := SlackKind.reissue, subject := 0, remainingNs := 0 : SlackReq }] =
        [{ kind := SlackKind.reissue, subject := 0, remainingNs := 0 : SlackReq },
        { kind := SlackKind.widen, subject := 1, remainingNs := 0 : SlackReq }]
    ∧ List.find? (fun (x : StoppedTile) => decide (x.tile.partition = 0) && !x.granted && (decide (x.cause = 3) || decide
        (x.cause = 5) || decide (x.cause = 6))) dev0.lens.stopped = none
    -- SLACK_REQUEST
    ∧ (T (dSlack 0)).RunsIn 20
    ∧ List.find? (fun (x : StoppedTile) => decide (x.tile.partition = 0) && !x.granted && (decide (x.cause = 3) || decide
        (x.cause = 5) || decide (x.cause = 6))) (dSlack 0).lens.stopped = some stopped0
    ∧ (dSlack 0).slackFits (↑stopped0.tile.context) (↑stopped0.tile.tier) 0 = true
    ∧ (∀ t ∈ (dSlack 0).plan.reissued, sameTile stopped0.tile t = false)
    -- SLACK_REQUEST
    ∧ (T (dSlack 2)).RunsIn 20
    ∧ List.find? (fun (x : StoppedTile) => decide (x.tile.partition = 0) && !x.granted && (decide (x.cause = 3) || decide
        (x.cause = 5) || decide (x.cause = 6))) (dSlack 2).lens.stopped = some stopped0
    ∧ ((dSlack 2).slackFits (↑stopped0.tile.context) (↑stopped0.tile.tier) 0 = false ∨ ∃ t ∈ (dSlack 2).plan.reissued,
        sameTile stopped0.tile t = true)
    ∧ (takeFirst (fun (q : ℕ × ℕ) => decide (q.2 = 0)) dev0.lens.failed = none ∨ dev0.sample? 0 = none)
    -- SLACK_REQUEST
    ∧ takeFirst (fun (q : ℕ × ℕ) => decide (q.2 = 0)) (dSlack 0).lens.failed = some ((0, 0), [])
    ∧ (dSlack 0).sample? 0 = some (smp 0)
    ∧ (dSlack 0).slackFits (smp 0).context 0 1999 = true
    -- SLACK_REQUEST
    ∧ takeFirst (fun (q : ℕ × ℕ) => decide (q.2 = 0)) (dSlack 2).lens.failed = some ((0, 0), [])
    ∧ (dSlack 2).sample? 0 = some (smp 0)
    ∧ (dSlack 2).slackFits (smp 0).context 0 0 = false
    ∧ takeFirst (fun (p : Pass) => decide (p.partition = 0)) dev0.lens.widen = none
    -- SLACK_REQUEST
    ∧ takeFirst (fun (p : Pass) => decide (p.partition = 1)) (dSlack 0).lens.widen = some (pass1, [pass0])
    ∧ (dSlack 0).slackFits pass1.context pass1.tier (if (widerWgt (descFmt pass1.wgtDesc)).isSome = true then 2 * 0 else 0)
        = true
    -- SLACK_REQUEST
    ∧ takeFirst (fun (p : Pass) => decide (p.partition = 0)) (dSlack 2).lens.widen = some (pass0, [pass1])
    ∧ (dSlack 2).slackFits pass0.context pass0.tier (if (widerWgt (descFmt pass0.wgtDesc)).isSome = true then 2 * 0 else 0)
        = false := by
  refine ⟨?_, ?_, ?_, ?_, ?_, ?_, ?_, ?_, ?_, ?_, ?_, ?_, ?_, ?_, ?_, ?_, ?_, ?_, ?_, ?_, ?_, ?_, ?_, ?_, ?_, ?_, ?_, ?_, ?_, ?_,
    ?_, ?_, ?_, ?_, ?_, ?_, ?_, ?_, ?_⟩ <;> decide +kernel

/-- States and operands that meet the hypotheses of each clause of `Obligations.VerdictsAndAdmission`. -/
theorem witness_VerdictsAndAdmission :
    (T dev0).RunsIn 20
    ∧ (dev0.plan.computing = none ∨ dev0.sample? 0 = none)
    ∧ (T (dBatch [smpT0])).RunsIn 20
    ∧ (dBatch [smpT0]).plan.computing = some { number := 63, set := 0, samples := [smpT0] : Batch }
    ∧ (dBatch [smpT0]).sample? 0 = some smpT0
    ∧ ((smpT0.model, 0) ∈ (dBatch [smpT0]).plan.lost ∨ (smpT0.raw.getD 0 none).isSome = true ∨ 0 ≠ 0 ∧ 0 ∉ smpT0.admitted)
    -- TIER_RESULT_WRITTEN
    ∧ (T (dBatch [smpDead])).RunsIn 20
    ∧ (dBatch [smpDead]).plan.computing = some { number := 63, set := 0, samples := [smpDead] : Batch }
    ∧ (dBatch [smpDead]).sample? 0 = some smpDead
    ∧ (smpDead.model, 0) ∉ (dBatch [smpDead]).plan.lost
    ∧ smpDead.raw.getD 0 none = none
    ∧ (0 = 0 ∨ 0 ∈ smpDead.admitted)
    ∧ smpDead.raw.length = 3
    ∧ smpDead.ys.length = 3
    ∧ (smpDead.done = true ∨ smpDead.dead = true)
    -- TIER_RESULT_WRITTEN
    ∧ (T ((dBatch [smpA]).put (R.SYN_CTX_STAT_STATE 0) 2)).RunsIn 20
    ∧ ((dBatch [smpA]).put (R.SYN_CTX_STAT_STATE 0) 2).plan.computing = some
        { number := 63, set := 0, samples := [smpA] : Batch }
    ∧ ((dBatch [smpA]).put (R.SYN_CTX_STAT_STATE 0) 2).sample? 0 = some smpA
    ∧ (smpA.model, 1) ∉ ((dBatch [smpA]).put (R.SYN_CTX_STAT_STATE 0) 2).plan.lost
    ∧ smpA.raw.getD 1 none = none
    ∧ (1 = 0 ∨ 1 ∈ smpA.admitted)
    ∧ smpA.raw.length = 3
    ∧ smpA.ys.length = 3
    ∧ smpA.done = false
    ∧ smpA.dead = false
    ∧ 1 ≠ 0
    ∧ (((dBatch [smpA]).put (R.SYN_CTX_STAT_STATE 0) 2).faulted smpA.context = true ∨ ((dBatch [smpA]).put
        (R.SYN_CTX_STAT_STATE 0) 2).stepping smpA.context = true)
    -- TIER_RESULT_WRITTEN
    ∧ (T ((seen (dBatch [smp 0])).put (R.SYN_CTX_STAT_STATE 0) 2)).RunsIn 20
    ∧ ((seen (dBatch [smp 0])).put (R.SYN_CTX_STAT_STATE 0) 2).plan.computing = some
        { number := 63, set := 0, samples := [smp 0] : Batch }
    ∧ ((seen (dBatch [smp 0])).put (R.SYN_CTX_STAT_STATE 0) 2).sample? 0 = some (smp 0)
    ∧ ((smp 0).model, 0) ∉ ((seen (dBatch [smp 0])).put (R.SYN_CTX_STAT_STATE 0) 2).plan.lost
    ∧ (smp 0).raw.getD 0 none = none
    ∧ (0 = 0 ∨ 0 ∈ (smp 0).admitted)
    ∧ (smp 0).raw.length = 3
    ∧ (smp 0).ys.length = 3
    ∧ (smp 0).done = false
    ∧ (smp 0).dead = false
    ∧ ((seen (dBatch [smp 0])).put (R.SYN_CTX_STAT_STATE 0) 2).readable (((seen (dBatch [smp 0])).put (R.SYN_CTX_STAT_STATE
        0) 2).slotAddr 0 (smp 0).slot) 512 = true
    ∧ ((seen (dBatch [smp 0])).put (R.SYN_CTX_STAT_STATE 0) 2).faulted (smp 0).context = true
    -- TIER_RESULT_WRITTEN
    ∧ (T (stepped0 (seen (dBatch [smp 0])))).RunsIn 20
    ∧ (stepped0 (seen (dBatch [smp 0]))).plan.computing = some { number := 63, set := 0, samples := [smp 0] : Batch }
    ∧ (stepped0 (seen (dBatch [smp 0]))).sample? 0 = some (smp 0)
    ∧ ((smp 0).model, 0) ∉ (stepped0 (seen (dBatch [smp 0]))).plan.lost
    ∧ (stepped0 (seen (dBatch [smp 0]))).readable ((stepped0 (seen (dBatch [smp 0]))).slotAddr 0 (smp 0).slot) 512 = true
    ∧ (stepped0 (seen (dBatch [smp 0]))).faulted (smp 0).context = false
    ∧ (stepped0 (seen (dBatch [smp 0]))).stepping (smp 0).context = true
    -- TIER_RESULT_WRITTEN
    ∧ (T (dBatch [smpB])).RunsIn 20
    ∧ (dBatch [smpB]).plan.computing = some { number := 63, set := 0, samples := [smpB] : Batch }
    ∧ (dBatch [smpB]).sample? 0 = some smpB
    ∧ (smpB.model, 0) ∉ (dBatch [smpB]).plan.lost
    ∧ smpB.raw.getD 0 none = none
    ∧ (0 = 0 ∨ 0 ∈ smpB.admitted)
    ∧ smpB.raw.length = 3
    ∧ smpB.ys.length = 3
    ∧ smpB.done = false
    ∧ smpB.dead = false
    ∧ (dBatch [smpB]).faulted smpB.context = false
    ∧ (dBatch [smpB]).stepping smpB.context = false
    ∧ (∃ t ∈ smpB.admitted, 0 < t)
    -- TIER_RESULT_WRITTEN
    ∧ (T (seen (dBatch [smpS 3]))).RunsIn 20
    ∧ (seen (dBatch [smpS 3])).plan.computing = some { number := 63, set := 0, samples := [smpS 3] : Batch }
    ∧ (seen (dBatch [smpS 3])).sample? 0 = some (smpS 3)
    ∧ ((smpS 3).model, 2) ∉ (seen (dBatch [smpS 3])).plan.lost
    ∧ (smpS 3).raw.getD 2 none = none
    ∧ (2 = 0 ∨ 2 ∈ (smpS 3).admitted)
    ∧ (smpS 3).raw.length = 3
    ∧ (smpS 3).ys.length = 3
    ∧ (smpS 3).done = false
    ∧ (smpS 3).dead = false
    ∧ (seen (dBatch [smpS 3])).faulted (smpS 3).context = false
    ∧ (seen (dBatch [smpS 3])).stepping (smpS 3).context = false
    ∧ (¬∃ t ∈ (smpS 3).admitted, 2 < t)
    ∧ (2 = 2 ∨ 2 = 1 ∧ bitsOf (seen (dBatch [smpS 3])).plan.mode 1 1 = 1)
    ∧ (seen (dBatch [smpS 3])).readable ((seen (dBatch [smpS 3])).slotAddr 0 (smpS 3).slot) 512 = true
    -- TIER_RESULT_WRITTEN
    ∧ (T (seen (dBatch [smp 0]))).RunsIn 20
    ∧ (seen (dBatch [smp 0])).plan.computing = some { number := 63, set := 0, samples := [smp 0] : Batch }
    ∧ (seen (dBatch [smp 0])).sample? 0 = some (smp 0)
    ∧ ((smp 0).model, 0) ∉ (seen (dBatch [smp 0])).plan.lost
    ∧ (seen (dBatch [smp 0])).faulted (smp 0).context = false
    ∧ (seen (dBatch [smp 0])).stepping (smp 0).context = false
    ∧ (¬∃ t ∈ (smp 0).admitted, 0 < t)
    ∧ (¬(0 = 2 ∨ 0 = 1 ∧ bitsOf (seen (dBatch [smp 0])).plan.mode 1 1 = 1))
    ∧ (seen (dBatch [smp 0])).wants
        { smp 0 with raw := (smp 0).raw.set 0 (some (List.map (fun (w : Word32) => BitVec.toNat w) [1065353216])), ys := (smp 0).ys.set 0 (some (linkY ((seen (dBatch [smp 0])).outBlock (smp 0).model 0) (List.map (fun (w : Word32) => BitVec.toNat w) [1065353216]) (seen (dBatch [smp 0]))).2) : Sample }
        0 (linkY ((seen (dBatch [smp 0])).outBlock (smp 0).model 0) (List.map (fun (w : Word32) => BitVec.toNat w)
        [1065353216]) (seen (dBatch [smp 0]))).2 = none
    ∧ (seen (dBatch [smp 0])).readable ((seen (dBatch [smp 0])).slotAddr 0 (smp 0).slot) 512 = true
    -- TIER_RESULT_WRITTEN
    ∧ (T (dBatch [smp 0])).RunsIn 20
    ∧ (dBatch [smp 0]).plan.computing = some { number := 63, set := 0, samples := [smp 0] : Batch }
    ∧ (dBatch [smp 0]).sample? 0 = some (smp 0)
    ∧ ((smp 0).model, 0) ∉ (dBatch [smp 0]).plan.lost
    ∧ (dBatch [smp 0]).faulted (smp 0).context = false
    ∧ (dBatch [smp 0]).stepping (smp 0).context = false
    ∧ ((0 = 2 ∨ 0 = 1 ∧ bitsOf (dBatch [smp 0]).plan.mode 1 1 = 1) ∨ (dBatch [smp 0]).wants
        { smp 0 with raw := (smp 0).raw.set 0 (some (List.map (fun (w : Word32) => BitVec.toNat w) [1065353216])), ys := (smp 0).ys.set 0 (some (linkY ((dBatch [smp 0]).outBlock (smp 0).model 0) (List.map (fun (w : Word32) => BitVec.toNat w) [1065353216]) (dBatch [smp 0])).2) : Sample }
        0 (linkY ((dBatch [smp 0]).outBlock (smp 0).model 0) (List.map (fun (w : Word32) => BitVec.toNat w) [1065353216])
        (dBatch [smp 0])).2 = none)
    ∧ (dBatch [smp 0]).readable ((dBatch [smp 0]).slotAddr 0 (smp 0).slot) 512 = false
    -- TIER_RESULT_WRITTEN
    ∧ (T (dEsc false)).RunsIn 20
    ∧ (dEsc false).plan.computing = some { number := 63, set := 0, samples := [smp 0] : Batch }
    ∧ (dEsc false).sample? 0 = some (smp 0)
    ∧ ((smp 0).model, 0) ∉ (dEsc false).plan.lost
    ∧ (dEsc false).faulted (smp 0).context = false
    ∧ (dEsc false).stepping (smp 0).context = false
    ∧ (¬(0 = 2 ∨ 0 = 1 ∧ bitsOf (dEsc false).plan.mode 1 1 = 1))
    ∧ (dEsc false).wants
        { smp 0 with raw := (smp 0).raw.set 0 (some (List.map (fun (w : Word32) => BitVec.toNat w) [1065353216])), ys := (smp 0).ys.set 0 (some (linkY ((dEsc false).outBlock (smp 0).model 0) (List.map (fun (w : Word32) => BitVec.toNat w) [1065353216]) (dEsc false)).2) : Sample }
        0 (linkY ((dEsc false).outBlock (smp 0).model 0) (List.map (fun (w : Word32) => BitVec.toNat w) [1065353216]) (dEsc
        false)).2 = some ([1], 0, 1)
    ∧ (dEsc false).plan.plannedEnd = false
    -- TIER_RESULT_WRITTEN
    ∧ (T (seen (dEsc true))).RunsIn 20
    ∧ (seen (dEsc true)).plan.computing = some { number := 63, set := 0, samples := [smp 0] : Batch }
    ∧ (seen (dEsc true)).sample? 0 = some (smp 0)
    ∧ ((smp 0).model, 0) ∉ (seen (dEsc true)).plan.lost
    ∧ (seen (dEsc true)).faulted (smp 0).context = false
    ∧ (seen (dEsc true)).stepping (smp 0).context = false
    ∧ (¬(0 = 2 ∨ 0 = 1 ∧ bitsOf (seen (dEsc true)).plan.mode 1 1 = 1))
    ∧ (seen (dEsc true)).wants
        { smp 0 with raw := (smp 0).raw.set 0 (some (List.map (fun (w : Word32) => BitVec.toNat w) [1065353216])), ys := (smp 0).ys.set 0 (some (linkY ((seen (dEsc true)).outBlock (smp 0).model 0) (List.map (fun (w : Word32) => BitVec.toNat w) [1065353216]) (seen (dEsc true))).2) : Sample }
        0 (linkY ((seen (dEsc true)).outBlock (smp 0).model 0) (List.map (fun (w : Word32) => BitVec.toNat w) [1065353216])
        (seen (dEsc true))).2 = some ([1], 0, 1)
    ∧ (seen (dEsc true)).plan.plannedEnd = true
    ∧ (seen (dEsc true)).readable ((seen (dEsc true)).slotAddr 0 (smp 0).slot) 512 = true
    ∧ { smp 0 with raw := (smp 0).raw.set 0 (some (List.map (fun (w : Word32) => BitVec.toNat w) [1065353216])), ys := (smp 0).ys.set 0 (some (linkY ((seen (dEsc true)).outBlock (smp 0).model 0) (List.map (fun (w : Word32) => BitVec.toNat w) [1065353216]) (seen (dEsc true))).2) : Sample }.best
        = some 0
    -- ADMISSION_GROUP_TIMEOUT
    ∧ (T dGroup).RunsIn 20
    ∧ dGroup.plan.openGroup ≠ []
    ∧ (dBatch [smp 0]).plan.openGroup = []
    -- PLANNED_END
    ∧ dGroup.plan.computing ≠ none
    ∧ dGroup.plan.plannedEnd = false
    ∧ (dev0.plan.computing = none ∨ dev0.plan.plannedEnd = true)
    ∧ (dev0.plan.computing = none ∨ dev0.plan.closedGroups = [])
    -- ADMISSION_GROUP_DECIDE
    ∧ (T (dAdmit 1056964608 1 smpDone [1])).RunsIn 20
    ∧ (dAdmit 1056964608 1 smpDone [1]).plan.computing = some { number := 63, set := 0, samples := [smpDone] : Batch }
    ∧ (dAdmit 1056964608 1 smpDone [1]).plan.closedGroups = [[{ slot := 0, tiers := [1], dist := (0, 1) : Cand }], []]
    ∧ (dAdmit 1056964608 1 smpDone [1]).sample? 0 = some smpDone
    ∧ smpDone.model < 15
    ∧ smpDone.done = true
    -- ADMISSION_GROUP_DECIDE
    ∧ (T (dAdmit 1056964608 1 smpT0 [1])).RunsIn 20
    ∧ (dAdmit 1056964608 1 smpT0 [1]).plan.computing = some { number := 63, set := 0, samples := [smpT0] : Batch }
    ∧ (dAdmit 1056964608 1 smpT0 [1]).plan.closedGroups = [[{ slot := 0, tiers := [1], dist := (0, 1) : Cand }], []]
    ∧ (dAdmit 1056964608 1 smpT0 [1]).sample? 0 = some smpT0
    ∧ smpT0.model < 15
    ∧ smpT0.done = false
    ∧ ((dAdmit 1056964608 1 smpT0 [1]).on R.APR_STAT_THROTTLE = false ∧ fpLt (dAdmit 1056964608 1 smpT0 [1]).plan.left 0 =
        false ∧ fpLe ((dAdmit 1056964608 1 smpT0 [1]).charge smpT0.model [1]) (dAdmit 1056964608 1 smpT0 [1]).plan.left =
        true)
    ∧ ((dAdmit 1056964608 1 smpT0 [1]).tierUse smpT0.model 1).left ≠ 0
    -- ADMISSION_GROUP_DECIDE
    ∧ (T (seen (dAdmit 1040187392 1 smpT0 [1]))).RunsIn 20
    ∧ (seen (dAdmit 1040187392 1 smpT0 [1])).plan.computing = some { number := 63, set := 0, samples := [smpT0] : Batch }
    ∧ (seen (dAdmit 1040187392 1 smpT0 [1])).plan.closedGroups = [[{ slot := 0, tiers := [1], dist := (0, 1) : Cand }], []]
    ∧ (seen (dAdmit 1040187392 1 smpT0 [1])).sample? 0 = some smpT0
    ∧ (¬((seen (dAdmit 1040187392 1 smpT0 [1])).on R.APR_STAT_THROTTLE = false ∧ fpLt (seen (dAdmit 1040187392 1 smpT0
        [1])).plan.left 0 = false ∧ fpLe ((seen (dAdmit 1040187392 1 smpT0 [1])).charge smpT0.model [1]) (seen (dAdmit
        1040187392 1 smpT0 [1])).plan.left = true))
    ∧ smpT0.best = some 0
    ∧ (seen (dAdmit 1040187392 1 smpT0 [1])).readable ((seen (dAdmit 1040187392 1 smpT0 [1])).slotAddr 0 smpT0.slot) 512 =
        true
    -- ADMISSION_GROUP_DECIDE
    ∧ (T (seen (dAdmit 1056964608 0 smpT0 [1]))).RunsIn 20
    ∧ (seen (dAdmit 1056964608 0 smpT0 [1])).plan.computing = some { number := 63, set := 0, samples := [smpT0] : Batch }
    ∧ (seen (dAdmit 1056964608 0 smpT0 [1])).plan.closedGroups = [[{ slot := 0, tiers := [1], dist := (0, 1) : Cand }], []]
    ∧ (seen (dAdmit 1056964608 0 smpT0 [1])).sample? 0 = some smpT0
    ∧ ((seen (dAdmit 1056964608 0 smpT0 [1])).on R.APR_STAT_THROTTLE = false ∧ fpLt (seen (dAdmit 1056964608 0 smpT0
        [1])).plan.left 0 = false ∧ fpLe ((seen (dAdmit 1056964608 0 smpT0 [1])).charge smpT0.model [1]) (seen (dAdmit
        1056964608 0 smpT0 [1])).plan.left = true)
    ∧ (¬∀ t ∈ [1], ((seen (dAdmit 1056964608 0 smpT0 [1])).tierUse smpT0.model t).left ≠ 0)
    ∧ (seen (dAdmit 1056964608 0 smpT0 [1])).readable ((seen (dAdmit 1056964608 0 smpT0 [1])).slotAddr 0 smpT0.slot) 512 =
        true := by
  refine ⟨?_, ?_, ?_, ?_, ?_, ?_, ?_, ?_, ?_, ?_, ?_, ?_, ?_, ?_, ?_, ?_, ?_, ?_, ?_, ?_, ?_, ?_, ?_, ?_, ?_, ?_, ?_, ?_, ?_, ?_,
    ?_, ?_, ?_, ?_, ?_, ?_, ?_, ?_, ?_, ?_, ?_, ?_, ?_, ?_, ?_, ?_, ?_, ?_, ?_, ?_, ?_, ?_, ?_, ?_, ?_, ?_, ?_, ?_, ?_, ?_,
    ?_, ?_, ?_, ?_, ?_, ?_, ?_, ?_, ?_, ?_, ?_, ?_, ?_, ?_, ?_, ?_, ?_, ?_, ?_, ?_, ?_, ?_, ?_, ?_, ?_, ?_, ?_, ?_, ?_, ?_,
    ?_, ?_, ?_, ?_, ?_, ?_, ?_, ?_, ?_, ?_, ?_, ?_, ?_, ?_, ?_, ?_, ?_, ?_, ?_, ?_, ?_, ?_, ?_, ?_, ?_, ?_, ?_, ?_, ?_, ?_,
    ?_, ?_, ?_, ?_, ?_, ?_, ?_, ?_, ?_, ?_, ?_, ?_, ?_, ?_, ?_, ?_, ?_, ?_, ?_, ?_, ?_, ?_, ?_, ?_, ?_, ?_, ?_⟩ <;> decide +kernel

/-- States and operands that meet the hypotheses of each clause of `Obligations.TilesRun`. -/
theorem witness_TilesRun :
    (T dMap).Running
    ∧ gtile.onGrating = true
    ∧ tile0.onGrating = false
    ∧ dMap.tileStopped tile0 = false
    ∧ dMap.mayIssue tile0 = false
    ∧ (T (homed dTile)).Running
    ∧ (homed dTile).tileStopped tile0 = false
    ∧ (homed dTile).mayIssue tile0 = true
    ∧ List.find? (fun (x : StoppedTile) => (homed dTile).isReissue x tile0) (homed dTile).lens.stopped = none
    ∧ (homed dTile).passFor tile0 [{ addr := 4096, kind := MemKind.uncorrectable : MemEvent }] = (((homed dTile).passFor
        tile0 [{ addr := 4096, kind := MemKind.uncorrectable : MemEvent }]).1, none)
    ∧ (T dOdd).Running
    ∧ dOdd.tileStopped tile0 = false
    ∧ dOdd.mayIssue tile0 = true
    ∧ List.find? (fun (x : StoppedTile) => dOdd.isReissue x tile0) dOdd.lens.stopped = none
    ∧ dOdd.passFor tile0 [] = ((dOdd.passFor tile0 []).1, some passOdd)
    ∧ (passOdd.takes tile0 && passOdd.reaches tile0 && dOdd.accumulatorsFor passOdd tile0) = false
    ∧ (T dPass).Running
    ∧ dPass.tileStopped tile0 = false
    ∧ dPass.mayIssue tile0 = true
    ∧ List.find? (fun (x : StoppedTile) => dPass.isReissue x tile0) dPass.lens.stopped = none
    ∧ dPass.passFor tile0 [{ addr := 0, kind := MemKind.uncorrectable : MemEvent }] = ((dPass.passFor tile0
        [{ addr := 0, kind := MemKind.uncorrectable : MemEvent }]).1, some (passF pass0))
    ∧ ((passF pass0).takes tile0 && (passF pass0).reaches tile0 && dPass.accumulatorsFor (passF pass0) tile0) = true
    ∧ (((dPass.passFor tile0 [{ addr := 0, kind := MemKind.uncorrectable : MemEvent }]).1.readPieces (passF pass0).actFmt
        ((passF pass0).actPieces tile0) [{ addr := 0, kind := MemKind.uncorrectable : MemEvent }]).2 = none ∨ (((dPass.passFor
        tile0 [{ addr := 0, kind := MemKind.uncorrectable : MemEvent }]).1.readPieces (passF pass0).actFmt ((passF
        pass0).actPieces tile0) [{ addr := 0, kind := MemKind.uncorrectable : MemEvent }]).1.weights (passF pass0) tile0
        [{ addr := 0, kind := MemKind.uncorrectable : MemEvent }]).2 = none)
    ∧ (T (dLens id)).Running
    ∧ (dLens id).tileStopped tile0 = false
    ∧ (dLens id).mayIssue tile0 = true
    ∧ List.find? (fun (x : StoppedTile) => (dLens id).isReissue x tile0) (dLens id).lens.stopped = none
    ∧ ((dLens id).passFor tile0 []).2.isSome = true
    ∧ ((((dLens id).passFor tile0 []).2.getD pass0).takes tile0 && (((dLens id).passFor tile0 []).2.getD pass0).reaches
        tile0 && (dLens id).accumulatorsFor (((dLens id).passFor tile0 []).2.getD pass0) tile0) = true
    ∧ (((dLens id).passFor tile0 []).1.readPieces (((dLens id).passFor tile0 []).2.getD pass0).actFmt ((((dLens id).passFor
        tile0 []).2.getD pass0).actPieces tile0) []).2 = some [3]
    ∧ ((((dLens id).passFor tile0 []).1.readPieces (((dLens id).passFor tile0 []).2.getD pass0).actFmt ((((dLens id).passFor
        tile0 []).2.getD pass0).actPieces tile0) []).1.weights (((dLens id).passFor tile0 []).2.getD pass0) tile0 []).2 = some
        [0]
    ∧ (T dTileG).Running
    ∧ dTileG.tileStopped gtile2 = false
    ∧ dTileG.mayIssue gtile2 = true
    ∧ List.find? (fun (x : StoppedTile) => dTileG.isReissue x gtile2) dTileG.lens.stopped = none
    ∧ (dTileG.passFor gtile2 []).2.isSome = true
    ∧ (((dTileG.passFor gtile2 []).2.getD pass0).takes gtile2 && ((dTileG.passFor gtile2 []).2.getD pass0).reaches gtile2 &&
        dTileG.accumulatorsFor ((dTileG.passFor gtile2 []).2.getD pass0) gtile2) = true
    ∧ ((dTileG.passFor gtile2 []).1.readPieces ((dTileG.passFor gtile2 []).2.getD pass0).actFmt (((dTileG.passFor gtile2
        []).2.getD pass0).actPieces gtile2) []).2 = some [0]
    ∧ (((dTileG.passFor gtile2 []).1.readPieces ((dTileG.passFor gtile2 []).2.getD pass0).actFmt (((dTileG.passFor gtile2
        []).2.getD pass0).actPieces gtile2) []).1.weights ((dTileG.passFor gtile2 []).2.getD pass0) gtile2 []).2 = some [0]
    ∧ (T (dStopped false)).Running
    ∧ (dStopped false).tileStopped tile0 = false
    ∧ (dStopped false).mayIssue tile0 = true
    ∧ List.find? (fun (x : StoppedTile) => (dStopped false).isReissue x tile0) (dStopped false).lens.stopped = some
        { tile := tile0, cause := 5, granted := false, tick := 0, left := 1 : StoppedTile }
    ∧ (T (dStopped true)).Running
    ∧ (dStopped true).tileStopped tile0 = false
    ∧ (dStopped true).mayIssue tile0 = true
    ∧ List.find? (fun (x : StoppedTile) => (dStopped true).isReissue x tile0) (dStopped true).lens.stopped = some
        { tile := tile0, cause := 5, granted := true, tick := 0, left := 1 : StoppedTile }
    ∧ (T dTile).Running
    ∧ dTile.clusterStopped 0 = false
    ∧ List.find? (fun (r : RunTile) => decide (r.tile.partition = 0) && r.tile.facets.contains 0) dTile.lens.running = none
    ∧ (T (dRun run0)).Running
    ∧ (dRun run0).clusterStopped 0 = false
    ∧ List.find? (fun (r : RunTile) => decide (r.tile.partition = 0) && r.tile.facets.contains 0) (dRun run0).lens.running =
        some run0
    ∧ run0.tile.fits = true
    ∧ (dRun run0).passOf run0.tile = some (passF pass0)
    ∧ (passF pass0).wgtFmt < 17
    ∧ run0.checkFail (passF pass0) [] ((dRun run0).get R.LNS_CFG_FP_CHK_SHIFT) = none
    ∧ (T (dRun runG)).Running
    ∧ (dRun runG).clusterStopped 0 = false
    ∧ List.find? (fun (r : RunTile) => r.tile.onGrating && decide (r.tile.partition = 1024 + 0)) (dRun runG).lens.running =
        some runG
    ∧ runG.tile.fits = true
    ∧ (dRun runG).passOf runG.tile = some (passF passG)
    ∧ (passF passG).wgtFmt < 17
    ∧ runG.checkFail (passF passG) [] ((dRun runG).get R.LNS_CFG_FP_CHK_SHIFT) = none
    ∧ run0.checkFail (passF pass0) [Upset.check 0 0 0 9] ((dRun run0).get R.LNS_CFG_FP_CHK_SHIFT) = some (CheckFail.column 0
        0)
    ∧ run0.again = false
    ∧ (T (dRun runAgain)).Running
    ∧ (dRun runAgain).clusterStopped 0 = false
    ∧ List.find? (fun (r : RunTile) => decide (r.tile.partition = 0) && r.tile.facets.contains 0) (dRun
        runAgain).lens.running = some runAgain
    ∧ runAgain.tile.fits = true
    ∧ (dRun runAgain).passOf runAgain.tile = some (passF pass0)
    ∧ runAgain.checkFail (passF pass0) [Upset.check 0 0 0 9] ((dRun runAgain).get R.LNS_CFG_FP_CHK_SHIFT) = some
        (CheckFail.column 0 0)
    ∧ runAgain.again = true := by
  refine ⟨?_, ?_, ?_, ?_, ?_, ?_, ?_, ?_, ?_, ?_, ?_, ?_, ?_, ?_, ?_, ?_, ?_, ?_, ?_, ?_, ?_, ?_, ?_, ?_, ?_, ?_, ?_, ?_, ?_, ?_,
    ?_, ?_, ?_, ?_, ?_, ?_, ?_, ?_, ?_, ?_, ?_, ?_, ?_, ?_, ?_, ?_, ?_, ?_, ?_, ?_, ?_, ?_, ?_, ?_, ?_, ?_, ?_, ?_, ?_, ?_,
    ?_, ?_, ?_, ?_, ?_, ?_, ?_, ?_, ?_, ?_, ?_, ?_, ?_⟩ <;> decide +kernel

/-- The commands that end a tile name its place (`Obligations.TilesRun`). -/
theorem witness_TilesRun_commands :
    (∃ part facet, (fun r : RunTile => decide (r.tile.partition = 0) && r.tile.facets.contains 0)
        = (fun r : RunTile => decide (r.tile.partition = part) && r.tile.facets.contains facet)
        ∧ Instr.tileDone 0 0 = .tileDone part facet)
      ∧ ∃ g : Fin 16, (fun r : RunTile => r.tile.onGrating && decide (r.tile.partition = 1024))
        = (fun r : RunTile => r.tile.onGrating && decide (r.tile.partition = 1024 + g.val))
        ∧ Instr.gratingTileDone 0 = .gratingTileDone g :=
  ⟨⟨0, 0, rfl, rfl⟩, ⟨0, rfl, rfl⟩⟩

/-- States and operands that meet the hypotheses of each clause of `Obligations.OutputsAndMoves`. -/
theorem witness_OutputsAndMoves :
    (T dMap).Running
    ∧ dMap.clusterStopped (clusterOf 1023) = false
    ∧ List.find? (fun (p : Pass) => decide (p.partition = 1023) && dMap.complete p) dMap.lens.passes = none
    -- OUTPUT_SWAP
    ∧ (T (dDone (Place.core 0 8192))).Running
    ∧ (dDone (Place.core 0 8192)).clusterStopped (clusterOf 0) = false
    ∧ List.find? (fun (p : Pass) => decide (p.partition = 0) && (dDone (Place.core 0 8192)).complete p) (dDone (Place.core 0
        8192)).lens.passes = some (passDone (Place.core 0 8192))
    -- OUTPUT_SWAP
    ∧ (T (dDone (Place.shared 8192))).Running
    ∧ (dDone (Place.shared 8192)).clusterStopped (clusterOf 0) = false
    ∧ List.find? (fun (p : Pass) => decide (p.partition = 0) && (dDone (Place.shared 8192)).complete p) (dDone (Place.shared
        8192)).lens.passes = some (passDone (Place.shared 8192))
    ∧ (passDone (Place.shared 8192)).partition < 1040
    ∧ (passDone (Place.shared 8192)).context < 256
    ∧ (dDone (Place.shared 8192)).faulted (passDone (Place.shared 8192)).context = false
    ∧ (dDone (Place.shared 8192)).on R.LPE_CFG_TRACE_EN = false
    ∧ ((dDone (Place.shared 8192)).physCtr (passDone (Place.shared 8192)).context (passDone (Place.shared 8192)).completion
        = some 768 ∧ ((dDone (Place.shared 8192)).ctr 768).value + 1 ≤ 65535 ∧ (dDone (Place.shared 8192)).sync.waits.any
        ((dDone (Place.shared 8192)).waitsOn 768) = false ∧ (dDone (Place.shared 8192)).sync.written ≠ some (768, (dDone
        (Place.shared 8192)).ns))
    ∧ descClip (passDone (Place.shared 8192)).outDesc = 0
    ∧ descFallback (passDone (Place.shared 8192)).outDesc = false
    ∧ (passDone (Place.shared 8192)).out = Place.shared 8192
    ∧ ((packElems (passDone (Place.shared 8192)).outFmt (List.map (fun (o : Drained) => o.conv.code) (passDone (Place.shared
        8192)).outputs)).length ≠ 0 ∧ (dDone (Place.shared 8192)).mapped 8192 (packElems (passDone (Place.shared 8192)).outFmt
        (List.map (fun (o : Drained) => o.conv.code) (passDone (Place.shared 8192)).outputs)).length = true ∧ ∀ g ∈ granules
        8192 (packElems (passDone (Place.shared 8192)).outFmt (List.map (fun (o : Drained) => o.conv.code) (passDone
        (Place.shared 8192)).outputs)).length, (dDone (Place.shared 8192)).inRetired (64 * g) = false ∧ (dDone (Place.shared
        8192)).inHeldTier (64 * g) = false ∧ (dDone (Place.shared 8192)).granuleBad g = false ∧ (dDone (Place.shared
        8192)).staticEntity g = false)
    ∧ ((passDone (Place.shared 8192)).statAddr + 16 ≤ 8192 ∨ 8192 + (packElems (passDone (Place.shared 8192)).outFmt
        (List.map (fun (o : Drained) => o.conv.code) (passDone (Place.shared 8192)).outputs)).length ≤ (passDone (Place.shared
        8192)).statAddr)
    ∧ (leAt (passDone (Place.shared 8192)).qblock 16 8 + 4 + 4 ≤ 8192 ∨ 8192 + (packElems (passDone (Place.shared
        8192)).outFmt (List.map (fun (o : Drained) => o.conv.code) (passDone (Place.shared 8192)).outputs)).length ≤ leAt
        (passDone (Place.shared 8192)).qblock 16 8 + 4)
    -- OUTPUT_SWAP
    ∧ (T (dDone (Place.core 0 524287))).Running
    ∧ (dDone (Place.core 0 524287)).clusterStopped (clusterOf 0) = false
    ∧ List.find? (fun (p : Pass) => decide (p.partition = 0) && (dDone (Place.core 0 524287)).complete p) (dDone (Place.core
        0 524287)).lens.passes = some (passDone (Place.core 0 524287))
    ∧ (passDone (Place.core 0 524287)).partition < 1040
    ∧ (passDone (Place.core 0 524287)).context < 256
    ∧ (dDone (Place.core 0 524287)).faulted (passDone (Place.core 0 524287)).context = false
    ∧ (dDone (Place.core 0 524287)).on R.LPE_CFG_TRACE_EN = false
    ∧ ((dDone (Place.core 0 524287)).physCtr (passDone (Place.core 0 524287)).context (passDone (Place.core 0
        524287)).completion = some 768 ∧ ((dDone (Place.core 0 524287)).ctr 768).value + 1 ≤ 65535 ∧ (dDone (Place.core 0
        524287)).sync.waits.any ((dDone (Place.core 0 524287)).waitsOn 768) = false ∧ (dDone (Place.core 0
        524287)).sync.written ≠ some (768, (dDone (Place.core 0 524287)).ns))
    ∧ descClip (passDone (Place.core 0 524287)).outDesc = 0
    ∧ descFallback (passDone (Place.core 0 524287)).outDesc = false
    ∧ (passDone (Place.core 0 524287)).out = Place.core 0 524287
    ∧ 524287 + (packElems (passDone (Place.core 0 524287)).outFmt (List.map (fun (o : Drained) => o.conv.code) (passDone
        (Place.core 0 524287)).outputs)).length ≤ 524288
    -- MOVER_OP
    ∧ (T dCopy).Running
    ∧ dCopy.clusterStopped ↑mover0.cluster = false
    ∧ (mover0.fits && !dCopy.clusterFenced ↑mover0.cluster && dCopy.mayOperate mover0.partition (↑mover0.context)
        (↑mover0.model) (↑mover0.tier) mover0.learning) = true
    ∧ (T (dCopy.put (R.LNS_CLUSTER_STAT_FENCED 0) 1)).Running
    ∧ (dCopy.put (R.LNS_CLUSTER_STAT_FENCED 0) 1).clusterStopped ↑mover0.cluster = false
    ∧ (mover0.fits && !(dCopy.put (R.LNS_CLUSTER_STAT_FENCED 0) 1).clusterFenced ↑mover0.cluster && (dCopy.put
        (R.LNS_CLUSTER_STAT_FENCED 0) 1).mayOperate mover0.partition (↑mover0.context) (↑mover0.model) (↑mover0.tier)
        mover0.learning) = false
    ∧ dCopy.clusterStopped 15 = false
    ∧ takeFirst (fun (o : MoverOp) => decide (↑o.cluster = 15)) dCopy.lens.movers = none
    -- MOVER_COMPLETE
    ∧ dCopy.clusterStopped 0 = false
    ∧ takeFirst (fun (o : MoverOp) => decide (↑o.cluster = 0)) dCopy.lens.movers = some (mover0, [])
    ∧ (dCopy.moverSource mover0 [{ addr := 16384, kind := MemKind.uncorrectable : MemEvent }]).2 = none
    -- MOVER_COMPLETE
    ∧ (dCopy.moverSource mover0 []).2 = some [[1, 4, 7], [10, 13, 16]]
    ∧ dCopy.on R.LPE_CFG_TRACE_EN = false
    ∧ (dCopy.physCtr (↑mover0.context) mover0.signal.toNat = some 768 ∧ (dCopy.ctr 768).value + 1 ≤ 65535 ∧
        dCopy.sync.waits.any (dCopy.waitsOn 768) = false ∧ dCopy.sync.written ≠ some (768, dCopy.ns))
    ∧ (T (dCopy.put (R.LNS_CORE_STAT_FENCED 0 0) 1)).Running
    ∧ (dCopy.put (R.LNS_CORE_STAT_FENCED 0 0) 1).clusterStopped (↑elt0.core / 16) = false
    ∧ (elt0.fits && !(dCopy.put (R.LNS_CORE_STAT_FENCED 0 0) 1).coreFenced ↑elt0.core && (dCopy.put (R.LNS_CORE_STAT_FENCED
        0 0) 1).mayOperate elt0.partition (↑elt0.context) (↑elt0.model) (↑elt0.tier) elt0.learning) = false
    -- ELEMENTWISE_OP
    ∧ dCopy.clusterStopped (↑elt0.core / 16) = false
    ∧ (elt0.fits && !dCopy.coreFenced ↑elt0.core && dCopy.mayOperate elt0.partition (↑elt0.context) (↑elt0.model)
        (↑elt0.tier) elt0.learning) = true
    ∧ ((dCopy.eltOperand true elt0.a (↑elt0.aFmt) elt0.count
        [{ addr := 16384, kind := MemKind.uncorrectable : MemEvent }]).2 = none ∨ (dCopy.eltOperand (decide (2 ≤ eltArity
        elt0.op)) elt0.b (↑elt0.bFmt) elt0.count [{ addr := 16384, kind := MemKind.uncorrectable : MemEvent }]).2 = none ∨
        (dCopy.eltOperand (decide (3 ≤ eltArity elt0.op)) elt0.c (↑elt0.cFmt) elt0.count
        [{ addr := 16384, kind := MemKind.uncorrectable : MemEvent }]).2 = none)
    -- ELEMENTWISE_OP
    ∧ (dCopy.eltOperand true elt0.a (↑elt0.aFmt) elt0.count []).2 = some ((dCopy.eltOperand true elt0.a (↑elt0.aFmt)
        elt0.count []).2.getD [])
    ∧ (dCopy.eltOperand (decide (2 ≤ eltArity elt0.op)) elt0.b (↑elt0.bFmt) elt0.count []).2 = some ((dCopy.eltOperand true
        elt0.b (↑elt0.bFmt) elt0.count []).2.getD [])
    ∧ (dCopy.eltOperand (decide (3 ≤ eltArity elt0.op)) elt0.c (↑elt0.cFmt) elt0.count []).2 = some ((dCopy.eltOperand false
        elt0.c (↑elt0.cFmt) elt0.count []).2.getD []) := by
  refine ⟨?_, ?_, ?_, ?_, ?_, ?_, ?_, ?_, ?_, ?_, ?_, ?_, ?_, ?_, ?_, ?_, ?_, ?_, ?_, ?_, ?_, ?_, ?_, ?_, ?_, ?_, ?_, ?_, ?_, ?_,
    ?_, ?_, ?_, ?_, ?_, ?_, ?_, ?_, ?_, ?_, ?_, ?_, ?_, ?_, ?_, ?_, ?_, ?_, ?_, ?_, ?_, ?_, ?_, ?_, ?_⟩ <;> decide +kernel

/-- States and operands that meet the hypotheses of each clause of `Obligations.ForestScores`. -/
theorem witness_ForestScores :
    -- FOREST_SAMPLE_ENTER
    (T dForOff).RunsIn 16
    ∧ dForOff.plan.computing = some { number := 63, set := 0, samples := [smp 0] : Batch }
    ∧ dForOff.forestPlaced 0 = true
    ∧ (smp 0).model = 0
    ∧ dForOff.sample? (smp 0).slot = some (smp 0)
    ∧ (dForOff.modelSamples 0)[(dForOff.lens.entered.find 0).getD 0]? = some (smp 0)
    ∧ dForOff.replicaRuns 0 ((dForOff.replicaList 0).getD ((dForOff.lens.entered.find 0).getD 0 % max 1 (dForOff.replicaList
        0).length) 0) = false
    -- FOREST_SAMPLE_ENTER
    ∧ (T (dFor [smp 0])).RunsIn 16
    ∧ (dFor [smp 0]).plan.computing = some { number := 63, set := 0, samples := [smp 0] : Batch }
    ∧ (dFor [smp 0]).forestPlaced 0 = true
    ∧ (dFor [smp 0]).sample? (smp 0).slot = some (smp 0)
    ∧ ((dFor [smp 0]).modelSamples 0)[((dFor [smp 0]).lens.entered.find 0).getD 0]? = some (smp 0)
    ∧ (dFor [smp 0]).replicaRuns 0 (((dFor [smp 0]).replicaList 0).getD (((dFor [smp 0]).lens.entered.find 0).getD 0 % max 1
        ((dFor [smp 0]).replicaList 0).length) 0) = true
    ∧ (dFor [smp 0]).readable ((dFor [smp 0]).slotAddr 0 (smp 0).slot) 512 = true
    ∧ (dFor [smp 0]).on R.LPE_CFG_TRACE_EN = false
    ∧ (T dForAgain).RunsIn 16
    ∧ dForAgain.plan.computing = some { number := 63, set := 0, samples := [smp 0] : Batch }
    ∧ dForAgain.forestPlaced 0 = true
    -- FOREST_SAMPLE_ENTER
    ∧ dForAgain.sample? (smp 0).slot = some (smp 0)
    ∧ ((dForAgain.modelSamples 0)[(dForAgain.lens.entered.find 0).getD 0]? = none ∧ List.find? (fun (q : ℕ × ℕ) => decide
        (q.1 = 0)) dForAgain.lens.reeval = some (0, (smp 0).slot))
    ∧ dForAgain.replicaRuns 0 ((dForAgain.replicaList 0).getD ((dForAgain.lens.entered.find 0).getD 0 % max 1
        (dForAgain.replicaList 0).length) 0) = true
    ∧ dForAgain.readable (dForAgain.slotAddr 0 (smp 0).slot) 512 = true
    ∧ dForAgain.on R.LPE_CFG_TRACE_EN = false
    -- FOREST_SAMPLE_ENTER
    ∧ ((dFor [smp 0]).fetch ((dFor [smp 0]).slotAddr 0 (smp 0).slot) 512
        [{ addr := 65536, kind := MemKind.uncorrectable : MemEvent }]).2 = none
    ∧ (T dev0).RunsIn 16
    ∧ (dev0.plan.computing = none ∨ dev0.forestPlaced 14 = false ∨ (dev0.modelSamples 14).length ≤ (dev0.lens.entered.find
        14).getD 0 ∧ ∀ q ∈ dev0.lens.reeval, q.1 ≠ 14)
    ∧ (T (dFor [])).RunsIn 16
    ∧ (∀ j ∈ (dFor []).lens.jobs, j.model ≠ 14)
    ∧ (T dForJobs0).RunsIn 16
    ∧ dForJobs0.lens.jobs = [] ++ [job0]
    ∧ job0.model = 0
    ∧ List.find? (fun (p : ℕ × ℕ) => decide (job0.failed = some p.1) || job0.failed.isNone && dForJobs0.on
        (R.FOR_ENGINE_STAT_WORD_BAD p.2) && !job0.past.contains p.1) (dForJobs0.replicaStages 0 job0.replica) = none
    -- FOREST_RESULT
    ∧ (T dForJobs).RunsIn 16
    ∧ dForJobs.lens.jobs = [] ++ [job0]
    ∧ List.find? (fun (p : ℕ × ℕ) => decide (job0.failed = some p.1) || job0.failed.isNone && dForJobs.on
        (R.FOR_ENGINE_STAT_WORD_BAD p.2) && !job0.past.contains p.1) (dForJobs.replicaStages 0 job0.replica) = some (0, 0)
    ∧ dForJobs.on R.LPE_CFG_TRACE_EN = false
    -- FOREST_WORD_REWRITE
    ∧ forestEngine nodeWord = some 0
    ∧ nodeWord ∈ dForJobs.lens.badWords
    ∧ 0 ∉ dForJobs.lens.badWords
    -- SHADOW_LOAD_DONE
    ∧ (T ((dFor []).put (R.FOR_ENGINE_STAT_SHADOW_LOADING 0) 1)).RunsIn 16
    ∧ (∃ e ∈ ((dFor []).put (R.FOR_ENGINE_STAT_SHADOW_LOADING 0) 1).modelEngines 0, ((dFor []).put
        (R.FOR_ENGINE_STAT_SHADOW_LOADING 0) 1).on (R.FOR_ENGINE_STAT_SHADOW_LOADING e) = true)
    ∧ (∀ e ∈ (dFor []).modelEngines 14, (dFor []).on (R.FOR_ENGINE_STAT_SHADOW_LOADING e) = false) := by
  refine ⟨?_, ?_, ?_, ?_, ?_, ?_, ?_, ?_, ?_, ?_, ?_, ?_, ?_, ?_, ?_, ?_, ?_, ?_, ?_, ?_, ?_, ?_, ?_, ?_, ?_, ?_, ?_, ?_, ?_, ?_,
    ?_, ?_, ?_, ?_, ?_, ?_, ?_, ?_, ?_, ?_, ?_, ?_⟩ <;> decide +kernel

/-- States and operands that meet the hypotheses of each clause of `Obligations.StateCommits`. -/
theorem witness_StateCommits :
    -- STATE_READ_END
    (T (dSeq [smpS 1])).RunsIn 17
    ∧ (if true = true then (dSeq [smpS 1]).plan.computing else (dSeq [smpS 1]).plan.collecting) = some
        { number := 63, set := 0, samples := [smpS 1] : Batch }
    ∧ ((some { number := 63, set := 0, samples := [smpS 1] : Batch }).bind fun (b : Batch) => List.find? (fun (x : Sample)
        => decide (x.slot = 0) && decide (x.stateRead = 1)) b.samples) = some (smpS 1)
    ∧ (dSeq [smpS 1]).readable
        (match List.find? (fun (t : Sample) => decide (t.slot < 0) && t.sameFlow (smpS 1) && decide (t.stateRead = 3)) [smpS 1] with | some t => (dSeq [smpS 1]).stateBlock 0 t.slot | none => (dSeq [smpS 1]).seqState (smpS 1).flow.index)
        64 = true
    ∧ (64 ≠ 0 ∧ (dSeq [smpS 1]).mapped ((dSeq [smpS 1]).stateBlock 0 0) 64 = true ∧ ∀ g ∈ granules ((dSeq [smpS
        1]).stateBlock 0 0) 64, (dSeq [smpS 1]).inRetired (64 * g) = false ∧ (dSeq [smpS 1]).inHeldTier (64 * g) = false ∧
        (dSeq [smpS 1]).granuleBad g = false ∧ (dSeq [smpS 1]).staticEntity g = false)
    ∧ (T dColl).RunsIn 17
    ∧ (if false = true then dColl.plan.computing else dColl.plan.collecting) = some
        { number := 64, set := 1, samples := [smpNext] : Batch }
    ∧ ((some { number := 64, set := 1, samples := [smpNext] : Batch }).bind fun (b : Batch) => List.find? (fun (x : Sample)
        => decide (x.slot = 0) && decide (x.stateRead = 1)) b.samples) = some smpNext
    ∧ ((dColl.plan.computing.bind fun (b : Batch) => List.find? (fun (x : Sample) => decide (x.slot = 0) && decide
        (x.stateRead = 1)) b.samples) = none ∧ ¬∃ (c : Batch), dColl.plan.computing = some c ∧ ∃ t ∈ c.samples, t.oneFlow
        smpNext = true ∧ dColl.updatePending t = true)
    ∧ dColl.readable
        (match List.find? (fun (t : Sample) => decide (t.slot < 0) && t.sameFlow smpNext && decide (t.stateRead = 3)) [smpNext] with | some t => dColl.stateBlock 1 t.slot | none => dColl.seqState smpNext.flow.index)
        64 = true
    ∧ (64 ≠ 0 ∧ dColl.mapped (dColl.stateBlock 1 0) 64 = true ∧ ∀ g ∈ granules (dColl.stateBlock 1 0) 64, dColl.inRetired
        (64 * g) = false ∧ dColl.inHeldTier (64 * g) = false ∧ dColl.granuleBad g = false ∧ dColl.staticEntity g = false)
    -- STATE_READ_END
    ∧ ((dSeq [smpS 1]).fetch
        (match List.find? (fun (t : Sample) => decide (t.slot < 0) && t.sameFlow (smpS 1) && decide (t.stateRead = 3)) [smpS 1] with | some t => (dSeq [smpS 1]).stateBlock 0 t.slot | none => (dSeq [smpS 1]).seqState (smpS 1).flow.index)
        64 [{ addr := 59055800512, kind := MemKind.uncorrectable : MemEvent }]).2 = none
    ∧ (T (dSeq [])).RunsIn 17
    ∧ ((dSeq []).plan.computing.bind fun (b : Batch) => List.find? (fun (x : Sample) => decide (x.slot = 0) && decide
        (x.stateRead = 1)) b.samples) = none
    ∧ (∀ x ∈ (dSeq []).plan.collecting.bind fun (b : Batch) => List.find? (fun (x : Sample) => decide (x.slot = 0) && decide
        (x.stateRead = 1)) b.samples, ∃ (c : Batch), (dSeq []).plan.computing = some c ∧ ∃ t ∈ c.samples, t.oneFlow x = true ∧
        (dSeq []).updatePending t = true)
    ∧ (T (dCommit.put (R.SYN_CTX_STAT_STEPPING 0) 1)).RunsIn 17
    ∧ (dCommit.put (R.SYN_CTX_STAT_STEPPING 0) 1).stepping (((dCommit.put (R.SYN_CTX_STAT_STEPPING 0) 1).seqContext 0).getD
        0) = true
    ∧ (dCommit.put (R.SYN_CTX_STAT_STEPPING 0) 1).mayStep (((dCommit.put (R.SYN_CTX_STAT_STEPPING 0) 1).seqContext 0).getD
        0) ((dCommit.put (R.SYN_CTX_STAT_STEPPING 0) 1).commitProgram (((dCommit.put (R.SYN_CTX_STAT_STEPPING 0) 1).seqContext
        0).getD 0) 0) = false
    -- COMMIT_REQUEST
    ∧ (T dStepCommit).RunsIn 17
    ∧ dStepCommit.stepping ((dStepCommit.seqContext 0).getD 0) = true
    ∧ dStepCommit.mayStep ((dStepCommit.seqContext 0).getD 0) (dStepCommit.commitProgram ((dStepCommit.seqContext 0).getD 0)
        0) = true
    ∧ dStepCommit.on R.LPE_CFG_TRACE_EN = false
    -- COMMIT_REQUEST
    ∧ (T dCommit).RunsIn 17
    ∧ dCommit.stepping ((dCommit.seqContext 0).getD 0) = false
    ∧ dCommit.on R.LPE_CFG_TRACE_EN = false
    ∧ Option.filter (fun (b : Batch) => decide (b.number % 65536 = bitsOf (BitVec.toNat reqNow) 32 16))
        dCommit.plan.computing = some { number := 63, set := 0, samples := [smpS 3] : Batch }
    ∧ dCommit.learningOn 0 = false
    ∧ List.filter (fun (x : Sample) => decide (x.model = 0) && dCommit.carrier x && x.admitted.contains 2 && !x.committed &&
        decide (bitsOf (BitVec.toNat reqNow) 0 13 ≤ x.slot) && decide (x.slot ≤ bitsOf (BitVec.toNat reqNow) 16 13) &&
        dCommit.seq.newStates.contains x.slot && !dCommit.faulted x.context && decide (x.stateRead = 3)) [smpS 3] = [smpS 3]
    ∧ (List.map (fun (x : Sample) => x.flow.index) [smpS 3]).Nodup
    ∧ (∀ x ∈ List.filter (fun (x : Sample) => (dCommit.flowEntry x.flow).isSome) [smpS 3], (64 ≠ 0 ∧ dCommit.mapped
        (dCommit.seqState x.flow.index) 64 = true ∧ ∀ g ∈ granules (dCommit.seqState x.flow.index) 64, dCommit.inRetired (64 *
        g) = false ∧ dCommit.inHeldTier (64 * g) = false ∧ dCommit.granuleBad g = false ∧ dCommit.staticEntity g = false) ∧
        dCommit.readable (dCommit.newBlock 0 x.slot + 8) 56 = true ∧ dCommit.readable (dCommit.stateBlock 0 x.slot + 2) 2 =
        true ∧ ∀ y ∈ List.filter (fun (x : Sample) => (dCommit.flowEntry x.flow).isSome) [smpS 3], (dCommit.newBlock 0 x.slot
        + 64 ≤ dCommit.seqState y.flow.index ∨ dCommit.seqState y.flow.index + 64 ≤ dCommit.newBlock 0 x.slot) ∧
        (dCommit.stateBlock 0 x.slot + 64 ≤ dCommit.seqState y.flow.index ∨ dCommit.seqState y.flow.index + 64 ≤
        dCommit.stateBlock 0 x.slot))
    ∧ (T dStale).RunsIn 17
    ∧ dStale.stepping ((dStale.seqContext 0).getD 0) = false
    ∧ dStale.on R.LPE_CFG_TRACE_EN = false
    ∧ Option.filter (fun (b : Batch) => decide (b.number % 65536 = bitsOf (BitVec.toNat reqNow) 32 16))
        dStale.plan.computing = some { number := 63, set := 0, samples := [smpStale] : Batch }
    ∧ dStale.learningOn 0 = false
    ∧ List.filter (fun (x : Sample) => decide (x.model = 0) && dStale.carrier x && x.admitted.contains 2 && !x.committed &&
        decide (bitsOf (BitVec.toNat reqNow) 0 13 ≤ x.slot) && decide (x.slot ≤ bitsOf (BitVec.toNat reqNow) 16 13) &&
        dStale.seq.newStates.contains x.slot && !dStale.faulted x.context && decide (x.stateRead = 3)) [smpStale] = [smpStale]
    ∧ (List.map (fun (x : Sample) => x.flow.index) [smpStale]).Nodup
    ∧ (∀ x ∈ List.filter (fun (x : Sample) => (dStale.flowEntry x.flow).isSome) [smpStale], (64 ≠ 0 ∧ dStale.mapped
        (dStale.seqState x.flow.index) 64 = true ∧ ∀ g ∈ granules (dStale.seqState x.flow.index) 64, dStale.inRetired (64 * g)
        = false ∧ dStale.inHeldTier (64 * g) = false ∧ dStale.granuleBad g = false ∧ dStale.staticEntity g = false) ∧
        dStale.readable (dStale.newBlock 0 x.slot + 8) 56 = true ∧ dStale.readable (dStale.stateBlock 0 x.slot + 2) 2 = true ∧
        ∀ y ∈ List.filter (fun (x : Sample) => (dStale.flowEntry x.flow).isSome) [smpStale], (dStale.newBlock 0 x.slot + 64 ≤
        dStale.seqState y.flow.index ∨ dStale.seqState y.flow.index + 64 ≤ dStale.newBlock 0 x.slot) ∧ (dStale.stateBlock 0
        x.slot + 64 ≤ dStale.seqState y.flow.index ∨ dStale.seqState y.flow.index + 64 ≤ dStale.stateBlock 0 x.slot))
    -- COMMIT_REQUEST
    ∧ (T dPast).RunsIn 17
    ∧ dPast.stepping ((dPast.seqContext 0).getD 0) = false
    ∧ dPast.on R.LPE_CFG_TRACE_EN = false
    ∧ Option.filter (fun (b : Batch) => decide (b.number % 65536 = bitsOf (BitVec.toNat reqPast) 32 16))
        dPast.plan.computing = none
    ∧ Option.filter (fun (b : Batch) => decide (b.number % 65536 = bitsOf (BitVec.toNat reqPast) 32 16)) dPast.plan.past =
        some { number := 62, set := 1, samples := [smpS 3] : Batch }
    -- COMMIT_REQUEST
    ∧ dColl.stepping ((dColl.seqContext 0).getD 0) = false
    ∧ dColl.on R.LPE_CFG_TRACE_EN = false
    ∧ Option.filter (fun (b : Batch) => decide (b.number % 65536 = bitsOf (BitVec.toNat req64) 32 16)) dColl.plan.computing
        = none
    ∧ Option.filter (fun (b : Batch) => decide (b.number % 65536 = bitsOf (BitVec.toNat req64) 32 16)) dColl.plan.past = none
    ∧ Option.filter (fun (b : Batch) => decide (b.number % 65536 = bitsOf (BitVec.toNat req64) 32 16)) dColl.plan.collecting
        = some { number := 64, set := 1, samples := [smpNext] : Batch }
    -- COMMIT_REQUEST
    ∧ (dSeq []).stepping (((dSeq []).seqContext 0).getD 0) = false
    ∧ (dSeq []).on R.LPE_CFG_TRACE_EN = false
    ∧ Option.filter (fun (b : Batch) => decide (b.number % 65536 = bitsOf (BitVec.toNat req7) 32 16)) (dSeq
        []).plan.computing = none
    ∧ Option.filter (fun (b : Batch) => decide (b.number % 65536 = bitsOf (BitVec.toNat req7) 32 16)) (dSeq []).plan.past =
        none
    ∧ Option.filter (fun (b : Batch) => decide (b.number % 65536 = bitsOf (BitVec.toNat req7) 32 16)) (dSeq
        []).plan.collecting = none
    -- STATE_SWEEP_END
    ∧ (T ((dSeq []).put (R.SEQ_MODEL_SWEEP_BUSY 0) 1)).RunsIn 17
    ∧ ((dSeq []).put (R.SEQ_MODEL_SWEEP_BUSY 0) 1).on (R.SEQ_MODEL_SWEEP_BUSY 0) = true
    ∧ (dSeq []).on (R.SEQ_MODEL_SWEEP_BUSY 0) = false := by
  refine ⟨?_, ?_, ?_, ?_, ?_, ?_, ?_, ?_, ?_, ?_, ?_, ?_, ?_, ?_, ?_, ?_, ?_, ?_, ?_, ?_, ?_, ?_, ?_, ?_, ?_, ?_, ?_, ?_, ?_, ?_,
    ?_, ?_, ?_, ?_, ?_, ?_, ?_, ?_, ?_, ?_, ?_, ?_, ?_, ?_, ?_, ?_, ?_, ?_, ?_, ?_, ?_, ?_, ?_, ?_, ?_, ?_⟩ <;> decide +kernel

/-- States and operands that meet the hypotheses of each clause of `Obligations.GenerationsStaged`. -/
theorem witness_GenerationsStaged :
    (T dev0).RunsIn 21
    ∧ 1 ≤ 2
    ∧ 2 ≤ 4
    ∧ 16 ≤ (stageReq 1 0 1024 []).length
    ∧ 1 ≤ beAt (stageReq 1 0 1024 []) 0 1
    ∧ beAt (stageReq 1 0 1024 []) 0 1 ≤ 4
    ∧ beAt (stageReq 1 0 1024 []) 0 1 ≠ 2
    ∧ (T (dGen 1 none)).RunsIn 21
    ∧ (dGen 1 none).ctl.queue = []
    ∧ (dGen 1 none).get R.LCS_STAT_STATE = 2
    ∧ 1 ≤ 1
    ∧ 1 ≤ 4
    ∧ (beAt (stageReq 1 15 1024 []) 0 1 = 1 ∨ (stageReq 1 15 1024 []).length < 16 ∨ beAt (stageReq 1 15 1024 []) 0 1 = 0 ∨ 4
        < beAt (stageReq 1 15 1024 []) 0 1)
    ∧ (dGen 1 none).stageCheck (stageReq 1 15 1024 []) = some St.badAddress
    ∧ 4 ≤ 4
    ∧ (beAt (zeros 15) 0 1 = 4 ∨ (zeros 15).length < 16 ∨ beAt (zeros 15) 0 1 = 0 ∨ 4 < beAt (zeros 15) 0 1)
    ∧ (dGen 1 none).stageCheck (zeros 15) = some St.malformed
    -- OPEN
    ∧ (T (dGen 2 (some { model := 0, length := 2048, blocks := [], gen := none : Staging }))).RunsIn 21
    ∧ (dGen 2 (some { model := 0, length := 2048, blocks := [], gen := none : Staging })).ctl.queue = []
    ∧ (dGen 2 (some { model := 0, length := 2048, blocks := [], gen := none : Staging })).get R.LCS_STAT_STATE = 2
    ∧ ((dGen 2 (some { model := 0, length := 2048, blocks := [], gen := none : Staging })).stageCheck (stageReq 1 0 1024 [])
        = none ∧ beAt (stageReq 1 0 1024 []) 0 1 = 1)
    ∧ ((∃ k < 15, (dGen 2 (some { model := 0, length := 2048, blocks := [], gen := none : Staging })).get
        (R.SEQ_MODEL_GSTATE k) = 2 ∨ (dGen 2 (some { model := 0, length := 2048, blocks := [], gen := none : Staging })).get
        (R.SEQ_MODEL_GSTATE k) = 3) ∨ (dGen 2 (some { model := 0, length := 2048, blocks := [], gen := none : Staging })).get
        (R.SEQ_MODEL_GSTATE (beAt (stageReq 1 0 1024 []) 1 1)) = 4 ∨ (dGen 2 (some
        { model := 0, length := 2048, blocks := [], gen := none : Staging })).get (R.SEQ_MODEL_GSTATE (beAt (stageReq 1 0 1024
        []) 1 1)) = 5)
    -- OPEN
    ∧ ((dGen 1 none).stageCheck (stageReq 1 0 1000 []) = none ∧ beAt (stageReq 1 0 1000 []) 0 1 = 1)
    ∧ (¬((∃ k < 15, (dGen 1 none).get (R.SEQ_MODEL_GSTATE k) = 2 ∨ (dGen 1 none).get (R.SEQ_MODEL_GSTATE k) = 3) ∨ (dGen 1
        none).get (R.SEQ_MODEL_GSTATE (beAt (stageReq 1 0 1000 []) 1 1)) = 4 ∨ (dGen 1 none).get (R.SEQ_MODEL_GSTATE (beAt
        (stageReq 1 0 1000 []) 1 1)) = 5))
    ∧ (beAt (stageReq 1 0 1000 []) 8 8 = 0 ∨ beAt (stageReq 1 0 1000 []) 8 8 % 1024 ≠ 0)
    -- OPEN
    ∧ ((dGen 1 none).stageCheck (stageReq 1 0 (2 ^ 31 + 1024) []) = none ∧ beAt (stageReq 1 0 (2 ^ 31 + 1024) []) 0 1 = 1)
    ∧ (¬((∃ k < 15, (dGen 1 none).get (R.SEQ_MODEL_GSTATE k) = 2 ∨ (dGen 1 none).get (R.SEQ_MODEL_GSTATE k) = 3) ∨ (dGen 1
        none).get (R.SEQ_MODEL_GSTATE (beAt (stageReq 1 0 (2 ^ 31 + 1024) []) 1 1)) = 4 ∨ (dGen 1 none).get
        (R.SEQ_MODEL_GSTATE (beAt (stageReq 1 0 (2 ^ 31 + 1024) []) 1 1)) = 5))
    ∧ beAt (stageReq 1 0 (2 ^ 31 + 1024) []) 8 8 ≠ 0
    ∧ beAt (stageReq 1 0 (2 ^ 31 + 1024) []) 8 8 % 1024 = 0
    ∧ 2 ^ 31 < beAt (stageReq 1 0 (2 ^ 31 + 1024) []) 8 8
    -- OPEN
    ∧ ((dGen 1 none).stageCheck (stageReq 1 0 (2 ^ 31) []) = none ∧ beAt (stageReq 1 0 (2 ^ 31) []) 0 1 = 1)
    ∧ (¬((∃ k < 15, (dGen 1 none).get (R.SEQ_MODEL_GSTATE k) = 2 ∨ (dGen 1 none).get (R.SEQ_MODEL_GSTATE k) = 3) ∨ (dGen 1
        none).get (R.SEQ_MODEL_GSTATE (beAt (stageReq 1 0 (2 ^ 31) []) 1 1)) = 4 ∨ (dGen 1 none).get (R.SEQ_MODEL_GSTATE (beAt
        (stageReq 1 0 (2 ^ 31) []) 1 1)) = 5))
    ∧ beAt (stageReq 1 0 (2 ^ 31) []) 8 8 ≠ 0
    ∧ beAt (stageReq 1 0 (2 ^ 31) []) 8 8 % 1024 = 0
    ∧ beAt (stageReq 1 0 (2 ^ 31) []) 8 8 ≤ 2 ^ 31
    ∧ ((dGen 1 none).stageCheck (stageReq 2 0 1024 (List.replicate 1024 3)) = none ∧ beAt (stageReq 2 0 1024 (List.replicate
        1024 3)) 0 1 = 2 ∨ (dGen 1 none).stageCheck (stageReq 2 0 1024 (List.replicate 1024 3)) = none ∧ beAt (stageReq 2 0
        1024 (List.replicate 1024 3)) 0 1 = 3)
    ∧ (∀ st ∈ (dGen 1 none).seq.staging, st.model ≠ beAt (stageReq 2 0 1024 (List.replicate 1024 3)) 1 1)
    -- DATA
    ∧ ((dGen 2 (some { model := 0, length := 2048, blocks := [], gen := none : Staging })).stageCheck (stageReq 2 0 2048
        (List.replicate 1024 3)) = none ∧ beAt (stageReq 2 0 2048 (List.replicate 1024 3)) 0 1 = 2)
    ∧ (dGen 2 (some { model := 0, length := 2048, blocks := [], gen := none : Staging })).seq.staging = some
        { model := 0, length := 2048, blocks := [], gen := none : Staging }
    ∧ 0 = beAt (stageReq 2 0 2048 (List.replicate 1024 3)) 1 1
    ∧ (beAt (stageReq 2 0 2048 (List.replicate 1024 3)) 8 8 % 1024 ≠ 0 ∨ 2048 < beAt (stageReq 2 0 2048 (List.replicate 1024
        3)) 8 8 + (List.drop 16 (stageReq 2 0 2048 (List.replicate 1024 3))).length)
    -- DATA
    ∧ ((dGen 2 (some { model := 0, length := 2048, blocks := [], gen := none : Staging })).stageCheck (stageReq 2 0 1024
        (List.replicate 1024 3)) = none ∧ beAt (stageReq 2 0 1024 (List.replicate 1024 3)) 0 1 = 2)
    ∧ 0 = beAt (stageReq 2 0 1024 (List.replicate 1024 3)) 1 1
    ∧ beAt (stageReq 2 0 1024 (List.replicate 1024 3)) 8 8 % 1024 = 0
    ∧ beAt (stageReq 2 0 1024 (List.replicate 1024 3)) 8 8 + (List.drop 16 (stageReq 2 0 1024 (List.replicate 1024
        3))).length ≤ 2048
    -- CLOSE
    ∧ (T (dGen 2 (some { model := 0, length := 2048, blocks := [0], gen := none : Staging }))).RunsIn 21
    ∧ (dGen 2 (some { model := 0, length := 2048, blocks := [0], gen := none : Staging })).ctl.queue = []
    ∧ (dGen 2 (some { model := 0, length := 2048, blocks := [0], gen := none : Staging })).get R.LCS_STAT_STATE = 2
    ∧ ((dGen 2 (some { model := 0, length := 2048, blocks := [0], gen := none : Staging })).stageCheck (stageReq 3 0 0 []) =
        none ∧ beAt (stageReq 3 0 0 []) 0 1 = 3)
    ∧ (dGen 2 (some { model := 0, length := 2048, blocks := [0], gen := none : Staging })).seq.staging = some
        { model := 0, length := 2048, blocks := [0], gen := none : Staging }
    ∧ 0 = beAt (stageReq 3 0 0 []) 1 1
    ∧ [0].length * 1024 < 2048
    -- CLOSE
    ∧ (T (dGen 2 (some { model := 0, length := 2048, blocks := [0, 1], gen := none : Staging }))).RunsIn 21
    ∧ (dGen 2 (some { model := 0, length := 2048, blocks := [0, 1], gen := none : Staging })).ctl.queue = []
    ∧ (dGen 2 (some { model := 0, length := 2048, blocks := [0, 1], gen := none : Staging })).get R.LCS_STAT_STATE = 2
    ∧ ((dGen 2 (some { model := 0, length := 2048, blocks := [0, 1], gen := none : Staging })).stageCheck (stageReq 3 0 0
        []) = none ∧ beAt (stageReq 3 0 0 []) 0 1 = 3)
    ∧ (dGen 2 (some { model := 0, length := 2048, blocks := [0, 1], gen := none : Staging })).seq.staging = some
        { model := 0, length := 2048, blocks := [0, 1], gen := none : Staging }
    ∧ 2048 ≤ [0, 1].length * 1024
    ∧ 2048 ≠ 0
    ∧ (dGen 2 (some { model := 0, length := 2048, blocks := [0, 1], gen := none : Staging })).readable (dGen 2 (some
        { model := 0, length := 2048, blocks := [0, 1], gen := none : Staging })).seq.stagingBase 2048 = true
    -- ABORT
    ∧ (T (dGen 3 none [(0, sg0)])).RunsIn 21
    ∧ (dGen 3 none [(0, sg0)]).ctl.queue = []
    ∧ (dGen 3 none [(0, sg0)]).get R.LCS_STAT_STATE = 2
    ∧ ((dGen 3 none [(0, sg0)]).stageCheck (stageReq 4 0 0 []) = none ∧ beAt (stageReq 4 0 0 []) 0 1 = 4)
    ∧ ((dGen 3 none [(0, sg0)]).get (R.SEQ_MODEL_GSTATE (beAt (stageReq 4 0 0 []) 1 1)) = 2 ∨ (dGen 3 none [(0, sg0)]).get
        (R.SEQ_MODEL_GSTATE (beAt (stageReq 4 0 0 []) 1 1)) = 3)
    -- ABORT
    ∧ ((dGen 1 none).stageCheck (stageReq 4 0 0 []) = none ∧ beAt (stageReq 4 0 0 []) 0 1 = 4)
    ∧ (dGen 1 none).get (R.SEQ_MODEL_GSTATE (beAt (stageReq 4 0 0 []) 1 1)) ≠ 2
    ∧ (dGen 1 none).get (R.SEQ_MODEL_GSTATE (beAt (stageReq 4 0 0 []) 1 1)) ≠ 3
    -- MODEL_SWAP
    ∧ (if (zeros 15).length ≠ 16 then some St.malformed else if 14 < beAt (zeros 15) 0 1 ∨ (dGen 1 none).get (R.SEQ_MODEL_GSTATE (beAt (zeros 15) 0 1)) = 0 then some St.badAddress else if 4 ≤ beAt (zeros 15) 1 1 ∨ beAt (zeros 15) 2 2 ≠ 0 ∨ beAt (zeros 15) 8 8 ≠ 0 then some St.malformed else if (dGen 1 none).get (R.SEQ_MODEL_GSTATE (beAt (zeros 15) 0 1)) = 4 ∨ (dGen 1 none).get (R.SEQ_MODEL_GSTATE (beAt (zeros 15) 0 1)) = 5 ∨ (dGen 1 none).stageLoading (beAt (zeros 15) 0 1) = true then some St.busy else none)
        = some St.malformed
    -- MODEL_SWAP
    ∧ (if (zeros 16).length ≠ 16 then some St.malformed else if 14 < beAt (zeros 16) 0 1 ∨ (dGen 1 none).get (R.SEQ_MODEL_GSTATE (beAt (zeros 16) 0 1)) = 0 then some St.badAddress else if 4 ≤ beAt (zeros 16) 1 1 ∨ beAt (zeros 16) 2 2 ≠ 0 ∨ beAt (zeros 16) 8 8 ≠ 0 then some St.malformed else if (dGen 1 none).get (R.SEQ_MODEL_GSTATE (beAt (zeros 16) 0 1)) = 4 ∨ (dGen 1 none).get (R.SEQ_MODEL_GSTATE (beAt (zeros 16) 0 1)) = 5 ∨ (dGen 1 none).stageLoading (beAt (zeros 16) 0 1) = true then some St.busy else none)
        = none
    ∧ (dGen 1 none).seq.staged.find (beAt (zeros 16) 0 1) = none
    -- MODEL_SWAP
    ∧ (if (beBytes 1 0 ++ beBytes 1 1 ++ zeros 2 ++ beBytes 4 1 ++ zeros 8).length ≠ 16 then some St.malformed else if 14 < beAt (beBytes 1 0 ++ beBytes 1 1 ++ zeros 2 ++ beBytes 4 1 ++ zeros 8) 0 1 ∨ (dGen 3 none [(0, sg0)]).get (R.SEQ_MODEL_GSTATE (beAt (beBytes 1 0 ++ beBytes 1 1 ++ zeros 2 ++ beBytes 4 1 ++ zeros 8) 0 1)) = 0 then some St.badAddress else if 4 ≤ beAt (beBytes 1 0 ++ beBytes 1 1 ++ zeros 2 ++ beBytes 4 1 ++ zeros 8) 1 1 ∨ beAt (beBytes 1 0 ++ beBytes 1 1 ++ zeros 2 ++ beBytes 4 1 ++ zeros 8) 2 2 ≠ 0 ∨ beAt (beBytes 1 0 ++ beBytes 1 1 ++ zeros 2 ++ beBytes 4 1 ++ zeros 8) 8 8 ≠ 0 then some St.malformed else if (dGen 3 none [(0, sg0)]).get (R.SEQ_MODEL_GSTATE (beAt (beBytes 1 0 ++ beBytes 1 1 ++ zeros 2 ++ beBytes 4 1 ++ zeros 8) 0 1)) = 4 ∨ (dGen 3 none [(0, sg0)]).get (R.SEQ_MODEL_GSTATE (beAt (beBytes 1 0 ++ beBytes 1 1 ++ zeros 2 ++ beBytes 4 1 ++ zeros 8) 0 1)) = 5 ∨ (dGen 3 none [(0, sg0)]).stageLoading (beAt (beBytes 1 0 ++ beBytes 1 1 ++ zeros 2 ++ beBytes 4 1 ++ zeros 8) 0 1) = true then some St.busy else none)
        = none
    ∧ (dGen 3 none [(0, sg0)]).seq.staged.find (beAt (beBytes 1 0 ++ beBytes 1 1 ++ zeros 2 ++ beBytes 4 1 ++ zeros 8) 0 1)
        = some sg0
    ∧ (¬(((beAt (beBytes 1 0 ++ beBytes 1 1 ++ zeros 2 ++ beBytes 4 1 ++ zeros 8) 1 1).testBit 0 = true → 2 ≤ (beAt (beBytes
        1 0 ++ beBytes 1 1 ++ zeros 2 ++ beBytes 4 1 ++ zeros 8) 4 4 + 2 ^ 32 - (dGen 3 none [(0, sg0)]).tick32) % 2 ^ 32 ∧
        (beAt (beBytes 1 0 ++ beBytes 1 1 ++ zeros 2 ++ beBytes 4 1 ++ zeros 8) 4 4 + 2 ^ 32 - (dGen 3 none [(0,
        sg0)]).tick32) % 2 ^ 32 < 2 ^ 31) ∧ ((beAt (beBytes 1 0 ++ beBytes 1 1 ++ zeros 2 ++ beBytes 4 1 ++ zeros 8) 1
        1).testBit 1 = false → (dGen 3 none [(0, sg0)]).on (R.SEQ_MODEL_SEQ_TIER (beAt (beBytes 1 0 ++ beBytes 1 1 ++ zeros 2
        ++ beBytes 4 1 ++ zeros 8) 0 1)) = true → sg0.sig = (dGen 3 none [(0, sg0)]).get (R.SEQ_MODEL_STATE_SIG (beAt (beBytes
        1 0 ++ beBytes 1 1 ++ zeros 2 ++ beBytes 4 1 ++ zeros 8) 0 1)))))
    -- MODEL_SWAP
    ∧ (if (zeros 16).length ≠ 16 then some St.malformed else if 14 < beAt (zeros 16) 0 1 ∨ (dGen 3 none [(0, sg0)]).get (R.SEQ_MODEL_GSTATE (beAt (zeros 16) 0 1)) = 0 then some St.badAddress else if 4 ≤ beAt (zeros 16) 1 1 ∨ beAt (zeros 16) 2 2 ≠ 0 ∨ beAt (zeros 16) 8 8 ≠ 0 then some St.malformed else if (dGen 3 none [(0, sg0)]).get (R.SEQ_MODEL_GSTATE (beAt (zeros 16) 0 1)) = 4 ∨ (dGen 3 none [(0, sg0)]).get (R.SEQ_MODEL_GSTATE (beAt (zeros 16) 0 1)) = 5 ∨ (dGen 3 none [(0, sg0)]).stageLoading (beAt (zeros 16) 0 1) = true then some St.busy else none)
        = none
    ∧ (dGen 3 none [(0, sg0)]).seq.staged.find (beAt (zeros 16) 0 1) = some sg0
    ∧ (((beAt (zeros 16) 1 1).testBit 0 = true → 2 ≤ (beAt (zeros 16) 4 4 + 2 ^ 32 - (dGen 3 none [(0, sg0)]).tick32) % 2 ^
        32 ∧ (beAt (zeros 16) 4 4 + 2 ^ 32 - (dGen 3 none [(0, sg0)]).tick32) % 2 ^ 32 < 2 ^ 31) ∧ ((beAt (zeros 16) 1
        1).testBit 1 = false → (dGen 3 none [(0, sg0)]).on (R.SEQ_MODEL_SEQ_TIER (beAt (zeros 16) 0 1)) = true → sg0.sig =
        (dGen 3 none [(0, sg0)]).get (R.SEQ_MODEL_STATE_SIG (beAt (zeros 16) 0 1))))
    ∧ (∀ st ∈ (dGen 1 none).seq.staging, st.gen = none)
    -- CLOSE_LOAD_DONE
    ∧ (T (dGen 2 (some { model := 0, length := 2048, blocks := [0, 1], gen := some sg0 : Staging }))).RunsIn 21
    ∧ (dGen 2 (some { model := 0, length := 2048, blocks := [0, 1], gen := some sg0 : Staging })).seq.staging = some
        { model := 0, length := 2048, blocks := [0, 1], gen := some sg0 : Staging }
    ∧ 0 < 15
    ∧ (∀ r ∈ (dGen 2 (some { model := 0, length := 2048, blocks := [0, 1], gen := some sg0 : Staging })).ctl.background,
        r.sp < 8) := by
  refine ⟨?_, ?_, ?_, ?_, ?_, ?_, ?_, ?_, ?_, ?_, ?_, ?_, ?_, ?_, ?_, ?_, ?_, ?_, ?_, ?_, ?_, ?_, ?_, ?_, ?_, ?_, ?_, ?_, ?_, ?_,
    ?_, ?_, ?_, ?_, ?_, ?_, ?_, ?_, ?_, ?_, ?_, ?_, ?_, ?_, ?_, ?_, ?_, ?_, ?_, ?_, ?_, ?_, ?_, ?_, ?_, ?_, ?_, ?_, ?_, ?_,
    ?_, ?_, ?_, ?_, ?_, ?_, ?_, ?_, ?_, ?_, ?_, ?_, ?_, ?_, ?_, ?_, ?_, ?_, ?_, ?_, ?_, ?_⟩ <;> decide +kernel

/-- States and operands that meet the hypotheses of each clause of `Obligations.LearningSteps`. -/
theorem witness_LearningSteps :
    -- LEARNING_STEP_BEGIN
    (T (dLearn none)).RunsIn 20
    ∧ ((dLearn none).learner 0).step = none
    ∧ (dLearn none).learningOn 0 = true
    ∧ (¬∃ (c : ℕ), (dLearn none).seqContext 0 = some c ∧ (dLearn none).stepping c = true)
    ∧ (dLearn none).seq.ringLive.Nodup
    ∧ (∀ p ∈ (dLearn none).seq.ringLive, (dLearn none).readable ((dLearn none).ringAddr p) 4 = true)
    ∧ 2 ^ (dLearn none).get (R.SEQ_LEARN_CFG_STEP_LOG2 0) ≤ (List.filter (fun (p : ℕ) => decide (leAt ((dLearn none).memRead
        ((dLearn none).ringAddr p) 4) 2 2 = (dLearn none).get (R.SEQ_MODEL_GEN_CURRENT 0))) (List.filter (fun (p : ℕ) =>
        decide (leAt ((dLearn none).memRead ((dLearn none).ringAddr p) 4) 0 1 % 16 = 0) && !(dLearn none).stepping (leAt
        ((dLearn none).memRead ((dLearn none).ringAddr p) 4) 1 1)) (dLearn none).seq.ringLive)).length
    ∧ (T ((dLearn none).put (R.SEQ_LEARN_CFG_STEP_LOG2 0) 1)).RunsIn 20
    ∧ (((dLearn none).put (R.SEQ_LEARN_CFG_STEP_LOG2 0) 1).learner 0).step = none
    ∧ ((dLearn none).put (R.SEQ_LEARN_CFG_STEP_LOG2 0) 1).learningOn 0 = true
    ∧ (¬∃ (c : ℕ), ((dLearn none).put (R.SEQ_LEARN_CFG_STEP_LOG2 0) 1).seqContext 0 = some c ∧ ((dLearn none).put
        (R.SEQ_LEARN_CFG_STEP_LOG2 0) 1).stepping c = true)
    ∧ ((dLearn none).put (R.SEQ_LEARN_CFG_STEP_LOG2 0) 1).seq.ringLive.Nodup
    ∧ (∀ p ∈ ((dLearn none).put (R.SEQ_LEARN_CFG_STEP_LOG2 0) 1).seq.ringLive, ((dLearn none).put (R.SEQ_LEARN_CFG_STEP_LOG2
        0) 1).readable (((dLearn none).put (R.SEQ_LEARN_CFG_STEP_LOG2 0) 1).ringAddr p) 4 = true)
    ∧ (List.filter (fun (p : ℕ) => decide (leAt (((dLearn none).put (R.SEQ_LEARN_CFG_STEP_LOG2 0) 1).memRead (((dLearn
        none).put (R.SEQ_LEARN_CFG_STEP_LOG2 0) 1).ringAddr p) 4) 2 2 = ((dLearn none).put (R.SEQ_LEARN_CFG_STEP_LOG2 0)
        1).get (R.SEQ_MODEL_GEN_CURRENT 0))) (List.filter (fun (p : ℕ) => decide (leAt (((dLearn none).put
        (R.SEQ_LEARN_CFG_STEP_LOG2 0) 1).memRead (((dLearn none).put (R.SEQ_LEARN_CFG_STEP_LOG2 0) 1).ringAddr p) 4) 0 1 % 16
        = 0) && !((dLearn none).put (R.SEQ_LEARN_CFG_STEP_LOG2 0) 1).stepping (leAt (((dLearn none).put
        (R.SEQ_LEARN_CFG_STEP_LOG2 0) 1).memRead (((dLearn none).put (R.SEQ_LEARN_CFG_STEP_LOG2 0) 1).ringAddr p) 4) 1 1))
        ((dLearn none).put (R.SEQ_LEARN_CFG_STEP_LOG2 0) 1).seq.ringLive)).length < 2 ^ ((dLearn none).put
        (R.SEQ_LEARN_CFG_STEP_LOG2 0) 1).get (R.SEQ_LEARN_CFG_STEP_LOG2 0)
    ∧ (T (dLearn (some (learner0 none [])))).RunsIn 20
    ∧ (((dLearn (some (learner0 none []))).learner 0).step ≠ none ∨ (dLearn (some (learner0 none []))).learningOn 0 = false
        ∨ ∃ (c : ℕ), (dLearn (some (learner0 none []))).seqContext 0 = some c ∧ (dLearn (some (learner0 none []))).stepping c
        = true)
    -- LEARNING_STEP_END
    ∧ (T (dLearn (some (learner0 (some 60) [])))).RunsIn 20
    ∧ ((dLearn (some (learner0 (some 60) []))).learner 0).step = some (lstep (some 60))
    ∧ (lstep (some 60)).startTick ≠ none
    ∧ (lstep (some 60)).attempt < 2
    ∧ (dLearn (some (learner0 (some 60) []))).phaseOpen 0 = true
    ∧ ((dLearn (some (learner0 (some 60) []))).learner 0).overflows = []
    ∧ ((dLearn (some (learner0 (some 60) []))).learner 0).skips.Nodup
    ∧ (∀ f ∈ (dLearn (some (learner0 (some 60) []))).seq.fallback, f.2.1 ≠ 0)
    ∧ (∀ w ∈ writes0 ++ noWrites, w.2.length ≠ 0 ∧ (dLearn (some (learner0 (some 60) []))).mapped w.1 w.2.length = true ∧ ∀
        g ∈ granules w.1 w.2.length, (dLearn (some (learner0 (some 60) []))).inRetired (64 * g) = false ∧ (dLearn (some
        (learner0 (some 60) []))).inHeldTier (64 * g) = false ∧ (dLearn (some (learner0 (some 60) []))).granuleBad g = false ∧
        (dLearn (some (learner0 (some 60) []))).staticEntity g = false)
    ∧ (∀ a ∈ ((dLearn (some (learner0 (some 60) []))).learner 0).skips, 1 ≠ 0 ∧ (dLearn (some (learner0 (some 60)
        []))).mapped (a + 12) 1 = true ∧ ∀ g ∈ granules (a + 12) 1, (dLearn (some (learner0 (some 60) []))).inRetired (64 * g)
        = false ∧ (dLearn (some (learner0 (some 60) []))).inHeldTier (64 * g) = false ∧ (dLearn (some (learner0 (some 60)
        []))).granuleBad g = false ∧ (dLearn (some (learner0 (some 60) []))).staticEntity g = false)
    ∧ List.Pairwise (fun (x y : ℕ × List Byte) => x.1 + x.2.length ≤ y.1 ∨ y.1 + y.2.length ≤ x.1) (writes0 ++ noWrites)
    ∧ (∀ w ∈ writes0 ++ noWrites, ∀ a ∈ ((dLearn (some (learner0 (some 60) []))).learner 0).skips, w.1 + w.2.length ≤ a + 12
        ∨ a + 12 + 1 ≤ w.1)
    -- LEARNING_STEP_END
    ∧ (T (dLearn (some (learner0 (some 60) [over0])))).RunsIn 20
    ∧ ((dLearn (some (learner0 (some 60) [over0]))).learner 0).step = some (lstep (some 60))
    ∧ (dLearn (some (learner0 (some 60) [over0]))).phaseOpen 0 = true
    ∧ ((dLearn (some (learner0 (some 60) [over0]))).learner 0).overflows ≠ []
    ∧ List.Pairwise (fun (x y : Overflow) => x.desc + 24 ≤ y.desc ∨ y.desc + 24 ≤ x.desc) ((dLearn (some (learner0 (some 60)
        [over0]))).learner 0).overflows
    ∧ (∀ o ∈ ((dLearn (some (learner0 (some 60) [over0]))).learner 0).overflows, (24 ≠ 0 ∧ (dLearn (some (learner0 (some 60)
        [over0]))).mapped o.desc 24 = true ∧ ∀ g ∈ granules o.desc 24, (dLearn (some (learner0 (some 60) [over0]))).inRetired
        (64 * g) = false ∧ (dLearn (some (learner0 (some 60) [over0]))).inHeldTier (64 * g) = false ∧ (dLearn (some (learner0
        (some 60) [over0]))).granuleBad g = false ∧ (dLearn (some (learner0 (some 60) [over0]))).staticEntity g = false) ∧
        (dLearn (some (learner0 (some 60) [over0]))).readable o.desc 24 = true)
    ∧ ((dLearn (some (learner0 none []))).learner 0).step = some (lstep none)
    ∧ ((lstep none).startTick = none ∨ 2 ≤ (lstep none).attempt ∨ (dLearn (some (learner0 none []))).phaseOpen 0 = false)
    ∧ (lstep none).startTick = none
    -- LEARNING_STEP_TIMEOUT
    ∧ (T (dLearn (some (learner0 (some 55) [])))).RunsIn 20
    ∧ ((dLearn (some (learner0 (some 55) []))).learner 0).step = some (lstep (some 55))
    ∧ (lstep (some 55)).startTick = some 55
    ∧ 55 + (lstep (some 55)).maxTicks ≤ (dLearn (some (learner0 (some 55) []))).plan.tick
    ∧ (T (dLearn (some (learner0 (some 56) [])))).RunsIn 20
    ∧ ((dLearn (some (learner0 (some 56) []))).learner 0).step = some (lstep (some 56))
    ∧ (lstep (some 56)).startTick = some 56
    ∧ (dLearn (some (learner0 (some 56) []))).plan.tick < 56 + (lstep (some 56)).maxTicks := by
  refine ⟨?_, ?_, ?_, ?_, ?_, ?_, ?_, ?_, ?_, ?_, ?_, ?_, ?_, ?_, ?_, ?_, ?_, ?_, ?_, ?_, ?_, ?_, ?_, ?_, ?_, ?_, ?_, ?_, ?_, ?_,
    ?_, ?_, ?_, ?_, ?_, ?_, ?_, ?_, ?_, ?_, ?_, ?_, ?_, ?_, ?_⟩ <;> decide +kernel

/-- Nothing is undone at the places of the overflowed descriptors (`Obligations.LearningSteps`). -/
theorem witness_LearningSteps_undo : ((dLearn (some (learner0 (some 60) [over0]))).learner 0).undo = [] := by
  decide +kernel

/-- States and operands that meet the hypotheses of each clause of `Obligations.RemoteRequestsLeave`. -/
theorem witness_RemoteRequestsLeave :
    (T dFab).RunsIn 20
    ∧ ((rreq 7 0 0 []).opc.toNat = 0 ∨ 6 < (rreq 7 0 0 []).opc.toNat)
    -- REMOTE_REQUEST_ISSUE
    ∧ (rreq 2 0 8192 [1, 2, 3]).dest.toNat = dFab.devId
    ∧ (¬((rreq 2 0 8192 [1, 2, 3]).opc.toNat = 6 ∧ (rreq 2 0 8192 [1, 2, 3]).fenceAll = true) ∨ if (rreq 2 0 8192 [1, 2,
        3]).opc.toNat = 6 ∧ (rreq 2 0 8192 [1, 2, 3]).fenceAll = true then List.filter (fun (o : OutOp) => decide (o.context =
        ↑(rreq 2 0 8192 [1, 2, 3]).context) && isWrite o.opc) dFab.fab.out = [] ∧ ∀ h ∈ dFab.fab.held, ¬(h.context = ↑(rreq 2
        0 8192 [1, 2, 3]).context ∧ isWrite h.opc = true) else ∀ h ∈ dFab.fab.held, h.fence = true ∨ h.dest ≠ (rreq 2 0 8192
        [1, 2, 3]).dest.toNat)
    ∧ (rreq 2 0 8192 [1, 2, 3]).opc.toNat = 2
    ∧ ((rreq 2 0 8192 [1, 2, 3]).payload.length ≠ 0 ∧ dFab.mapped ((rreq 2 0 8192 [1, 2, 3]).target.toNat % 2 ^ 52) (rreq 2
        0 8192 [1, 2, 3]).payload.length = true ∧ ∀ g ∈ granules ((rreq 2 0 8192 [1, 2, 3]).target.toNat % 2 ^ 52) (rreq 2 0
        8192 [1, 2, 3]).payload.length, dFab.inRetired (64 * g) = false ∧ dFab.inHeldTier (64 * g) = false ∧ dFab.granuleBad g
        = false ∧ dFab.staticEntity g = false)
    -- REMOTE_REQUEST_ISSUE
    ∧ (rreq 1 0 8192 []).dest.toNat = dFab.devId
    ∧ (¬((rreq 1 0 8192 []).opc.toNat = 6 ∧ (rreq 1 0 8192 []).fenceAll = true) ∨ if (rreq 1 0 8192 []).opc.toNat = 6 ∧
        (rreq 1 0 8192 []).fenceAll = true then List.filter (fun (o : OutOp) => decide (o.context = ↑(rreq 1 0 8192
        []).context) && isWrite o.opc) dFab.fab.out = [] ∧ ∀ h ∈ dFab.fab.held, ¬(h.context = ↑(rreq 1 0 8192 []).context ∧
        isWrite h.opc = true) else ∀ h ∈ dFab.fab.held, h.fence = true ∨ h.dest ≠ (rreq 1 0 8192 []).dest.toNat)
    ∧ (rreq 1 0 8192 []).opc.toNat = 1
    ∧ dFab.readable ((rreq 1 0 8192 []).target.toNat % 2 ^ 52) (rreq 1 0 8192 []).len = true
    -- REMOTE_REQUEST_ISSUE
    ∧ (rreq 1 0 206158430208 []).dest.toNat = dFab.devId
    ∧ (¬((rreq 1 0 206158430208 []).opc.toNat = 6 ∧ (rreq 1 0 206158430208 []).fenceAll = true) ∨ if (rreq 1 0 206158430208
        []).opc.toNat = 6 ∧ (rreq 1 0 206158430208 []).fenceAll = true then List.filter (fun (o : OutOp) => decide (o.context
        = ↑(rreq 1 0 206158430208 []).context) && isWrite o.opc) dFab.fab.out = [] ∧ ∀ h ∈ dFab.fab.held, ¬(h.context = ↑(rreq
        1 0 206158430208 []).context ∧ isWrite h.opc = true) else ∀ h ∈ dFab.fab.held, h.fence = true ∨ h.dest ≠ (rreq 1 0
        206158430208 []).dest.toNat)
    ∧ ((rreq 1 0 206158430208 []).opc.toNat = 1 ∨ 3 ≤ (rreq 1 0 206158430208 []).opc.toNat ∧ (rreq 1 0 206158430208
        []).opc.toNat ≤ 5)
    ∧ (dFab.fetch ((rreq 1 0 206158430208 []).target.toNat % 2 ^ 52)
        (if (rreq 1 0 206158430208 []).opc.toNat = 1 then (rreq 1 0 206158430208 []).len else 8) []).2 = none
    -- REMOTE_REQUEST_ISSUE
    ∧ (rreq 5 0 206158430208 (beBytes 8 6)).dest.toNat = dFab.devId
    ∧ (¬((rreq 5 0 206158430208 (beBytes 8 6)).opc.toNat = 6 ∧ (rreq 5 0 206158430208 (beBytes 8 6)).fenceAll = true) ∨ if
        (rreq 5 0 206158430208 (beBytes 8 6)).opc.toNat = 6 ∧ (rreq 5 0 206158430208 (beBytes 8 6)).fenceAll = true then
        List.filter (fun (o : OutOp) => decide (o.context = ↑(rreq 5 0 206158430208 (beBytes 8 6)).context) && isWrite o.opc)
        dFab.fab.out = [] ∧ ∀ h ∈ dFab.fab.held, ¬(h.context = ↑(rreq 5 0 206158430208 (beBytes 8 6)).context ∧ isWrite h.opc
        = true) else ∀ h ∈ dFab.fab.held, h.fence = true ∨ h.dest ≠ (rreq 5 0 206158430208 (beBytes 8 6)).dest.toNat)
    ∧ ((rreq 5 0 206158430208 (beBytes 8 6)).opc.toNat = 1 ∨ 3 ≤ (rreq 5 0 206158430208 (beBytes 8 6)).opc.toNat ∧ (rreq 5 0
        206158430208 (beBytes 8 6)).opc.toNat ≤ 5)
    ∧ (dFab.fetch ((rreq 5 0 206158430208 (beBytes 8 6)).target.toNat % 2 ^ 52)
        (if (rreq 5 0 206158430208 (beBytes 8 6)).opc.toNat = 1 then (rreq 5 0 206158430208 (beBytes 8 6)).len else 8) []).2 =
        none
    -- REMOTE_REQUEST_ISSUE
    ∧ (rreq 5 0 8192 (beBytes 8 6)).dest.toNat = dFab.devId
    ∧ (¬((rreq 5 0 8192 (beBytes 8 6)).opc.toNat = 6 ∧ (rreq 5 0 8192 (beBytes 8 6)).fenceAll = true) ∨ if (rreq 5 0 8192
        (beBytes 8 6)).opc.toNat = 6 ∧ (rreq 5 0 8192 (beBytes 8 6)).fenceAll = true then List.filter (fun (o : OutOp) =>
        decide (o.context = ↑(rreq 5 0 8192 (beBytes 8 6)).context) && isWrite o.opc) dFab.fab.out = [] ∧ ∀ h ∈ dFab.fab.held,
        ¬(h.context = ↑(rreq 5 0 8192 (beBytes 8 6)).context ∧ isWrite h.opc = true) else ∀ h ∈ dFab.fab.held, h.fence = true
        ∨ h.dest ≠ (rreq 5 0 8192 (beBytes 8 6)).dest.toNat)
    ∧ 3 ≤ (rreq 5 0 8192 (beBytes 8 6)).opc.toNat
    ∧ (rreq 5 0 8192 (beBytes 8 6)).opc.toNat ≤ 5
    ∧ dFab.readable ((rreq 5 0 8192 (beBytes 8 6)).target.toNat % 2 ^ 52) 8 = true
    ∧ (8 ≠ 0 ∧ dFab.mapped ((rreq 5 0 8192 (beBytes 8 6)).target.toNat % 2 ^ 52) 8 = true ∧ ∀ g ∈ granules ((rreq 5 0 8192
        (beBytes 8 6)).target.toNat % 2 ^ 52) 8, dFab.inRetired (64 * g) = false ∧ dFab.inHeldTier (64 * g) = false ∧
        dFab.granuleBad g = false ∧ dFab.staticEntity g = false)
    -- REMOTE_REQUEST_ISSUE
    ∧ (rreq 6 0 0 (beBytes 8 3)).dest.toNat = dFab.devId
    ∧ (¬((rreq 6 0 0 (beBytes 8 3)).opc.toNat = 6 ∧ (rreq 6 0 0 (beBytes 8 3)).fenceAll = true) ∨ if (rreq 6 0 0 (beBytes 8
        3)).opc.toNat = 6 ∧ (rreq 6 0 0 (beBytes 8 3)).fenceAll = true then List.filter (fun (o : OutOp) => decide (o.context
        = ↑(rreq 6 0 0 (beBytes 8 3)).context) && isWrite o.opc) dFab.fab.out = [] ∧ ∀ h ∈ dFab.fab.held, ¬(h.context = ↑(rreq
        6 0 0 (beBytes 8 3)).context ∧ isWrite h.opc = true) else ∀ h ∈ dFab.fab.held, h.fence = true ∨ h.dest ≠ (rreq 6 0 0
        (beBytes 8 3)).dest.toNat)
    ∧ (rreq 6 0 0 (beBytes 8 3)).opc.toNat = 6
    ∧ dFab.physCtr ((rreq 6 0 0 (beBytes 8 3)).target.toNat % 2 ^ 52 / 2 ^ 16 % 256) ((rreq 6 0 0 (beBytes 8
        3)).target.toNat % 2 ^ 52 % 2 ^ 16) = some 768
    ∧ dFab.sync.written ≠ some (768, dFab.ns)
    ∧ dFab.sync.waits.any (dFab.waitsOn 768) = false
    ∧ (dFab.ctr 768).value + beAt (rreq 6 0 0 (beBytes 8 3)).payload 0 8 % 2 ^ 16 ≤ 65535
    -- REMOTE_REQUEST_ISSUE
    ∧ (T (dFab.setCtr 768 ctrMax)).RunsIn 20
    ∧ (rreq 6 0 0 (beBytes 8 3)).dest.toNat = (dFab.setCtr 768 ctrMax).devId
    ∧ (¬((rreq 6 0 0 (beBytes 8 3)).opc.toNat = 6 ∧ (rreq 6 0 0 (beBytes 8 3)).fenceAll = true) ∨ if (rreq 6 0 0 (beBytes 8
        3)).opc.toNat = 6 ∧ (rreq 6 0 0 (beBytes 8 3)).fenceAll = true then List.filter (fun (o : OutOp) => decide (o.context
        = ↑(rreq 6 0 0 (beBytes 8 3)).context) && isWrite o.opc) (dFab.setCtr 768 ctrMax).fab.out = [] ∧ ∀ h ∈ (dFab.setCtr
        768 ctrMax).fab.held, ¬(h.context = ↑(rreq 6 0 0 (beBytes 8 3)).context ∧ isWrite h.opc = true) else ∀ h ∈
        (dFab.setCtr 768 ctrMax).fab.held, h.fence = true ∨ h.dest ≠ (rreq 6 0 0 (beBytes 8 3)).dest.toNat)
    ∧ (dFab.setCtr 768 ctrMax).physCtr ((rreq 6 0 0 (beBytes 8 3)).target.toNat % 2 ^ 52 / 2 ^ 16 % 256) ((rreq 6 0 0
        (beBytes 8 3)).target.toNat % 2 ^ 52 % 2 ^ 16) = some 768
    ∧ (dFab.setCtr 768 ctrMax).sync.written ≠ some (768, (dFab.setCtr 768 ctrMax).ns)
    ∧ (dFab.setCtr 768 ctrMax).sync.waits.any ((dFab.setCtr 768 ctrMax).waitsOn 768) = false
    ∧ 65535 < ((dFab.setCtr 768 ctrMax).ctr 768).value + beAt (rreq 6 0 0 (beBytes 8 3)).payload 0 8 % 2 ^ 16
    -- REMOTE_REQUEST_ISSUE
    ∧ (rreq 6 0 badCtr (beBytes 8 3)).dest.toNat = dFab.devId
    ∧ (¬((rreq 6 0 badCtr (beBytes 8 3)).opc.toNat = 6 ∧ (rreq 6 0 badCtr (beBytes 8 3)).fenceAll = true) ∨ if (rreq 6 0
        badCtr (beBytes 8 3)).opc.toNat = 6 ∧ (rreq 6 0 badCtr (beBytes 8 3)).fenceAll = true then List.filter (fun (o :
        OutOp) => decide (o.context = ↑(rreq 6 0 badCtr (beBytes 8 3)).context) && isWrite o.opc) dFab.fab.out = [] ∧ ∀ h ∈
        dFab.fab.held, ¬(h.context = ↑(rreq 6 0 badCtr (beBytes 8 3)).context ∧ isWrite h.opc = true) else ∀ h ∈
        dFab.fab.held, h.fence = true ∨ h.dest ≠ (rreq 6 0 badCtr (beBytes 8 3)).dest.toNat)
    ∧ (rreq 6 0 badCtr (beBytes 8 3)).opc.toNat = 6
    ∧ dFab.physCtr ((rreq 6 0 badCtr (beBytes 8 3)).target.toNat % 2 ^ 52 / 2 ^ 16 % 256) ((rreq 6 0 badCtr (beBytes 8
        3)).target.toNat % 2 ^ 52 % 2 ^ 16) = none
    -- REMOTE_REQUEST_ISSUE
    ∧ (T dOut).RunsIn 20
    ∧ 1 ≤ (rreq 6 1 0 (beBytes 8 3) 8 true).opc.toNat
    ∧ (rreq 6 1 0 (beBytes 8 3) 8 true).opc.toNat ≤ 6
    ∧ ((rreq 6 1 0 (beBytes 8 3) 8 true).opc.toNat = 6 ∧ (rreq 6 1 0 (beBytes 8 3) 8 true).fenceAll = true ∨ (rreq 6 1 0
        (beBytes 8 3) 8 true).dest.toNat ≠ dOut.devId)
    ∧ (¬if (rreq 6 1 0 (beBytes 8 3) 8 true).opc.toNat = 6 ∧ (rreq 6 1 0 (beBytes 8 3) 8 true).fenceAll = true then
        List.filter (fun (o : OutOp) => decide (o.context = ↑(rreq 6 1 0 (beBytes 8 3) 8 true).context) && isWrite o.opc)
        dOut.fab.out = [] ∧ ∀ h ∈ dOut.fab.held, ¬(h.context = ↑(rreq 6 1 0 (beBytes 8 3) 8 true).context ∧ isWrite h.opc =
        true) else ∀ h ∈ dOut.fab.held, h.fence = true ∨ h.dest ≠ (rreq 6 1 0 (beBytes 8 3) 8 true).dest.toNat)
    -- REMOTE_REQUEST_ISSUE
    ∧ (rreq 1 77 0 []).dest.toNat ≠ dFab.devId
    ∧ 1 ≤ (rreq 1 77 0 []).opc.toNat
    ∧ (rreq 1 77 0 []).opc.toNat ≤ 6
    ∧ (if (rreq 1 77 0 []).opc.toNat = 6 ∧ (rreq 1 77 0 []).fenceAll = true then List.filter (fun (o : OutOp) => decide (o.context = ↑(rreq 1 77 0 []).context) && isWrite o.opc) dFab.fab.out = [] ∧ ∀ h ∈ dFab.fab.held, ¬(h.context = ↑(rreq 1 77 0 []).context ∧ isWrite h.opc = true) else ∀ h ∈ dFab.fab.held, h.fence = true ∨ h.dest ≠ (rreq 1 77 0 []).dest.toNat)
    ∧ (dFab.route (rreq 1 77 0 []).dest.toNat = none ∨ dFab.route (rreq 1 77 0 []).dest.toNat = some none ∧ dFab.get
        R.MEM_HALL_CFG_HALL_MTU < 56 + dFab.ownTag.length + (rreq 1 77 0 []).payload.length)
    -- REMOTE_REQUEST_ISSUE
    ∧ (T dMany).RunsIn 20
    ∧ (rreq 2 1 8192 [1, 2]).dest.toNat ≠ dMany.devId
    ∧ 1 ≤ (rreq 2 1 8192 [1, 2]).opc.toNat
    ∧ (rreq 2 1 8192 [1, 2]).opc.toNat ≤ 6
    ∧ dMany.route (rreq 2 1 8192 [1, 2]).dest.toNat = some (some 1)
    ∧ (some 1 = none → ¬dMany.get R.MEM_HALL_CFG_HALL_MTU < 56 + dMany.ownTag.length + (rreq 2 1 8192 [1, 2]).payload.length)
    -- REMOTE_REQUEST_ISSUE
    ∧ (T (dFab true)).RunsIn 20
    ∧ (rreq 2 1 8192 [1, 2]).dest.toNat ≠ (dFab true).devId
    ∧ (if (rreq 2 1 8192 [1, 2]).opc.toNat = 6 ∧ (rreq 2 1 8192 [1, 2]).fenceAll = true then List.filter (fun (o : OutOp) => decide (o.context = ↑(rreq 2 1 8192 [1, 2]).context) && isWrite o.opc) (dFab true).fab.out = [] ∧ ∀ h ∈ (dFab true).fab.held, ¬(h.context = ↑(rreq 2 1 8192 [1, 2]).context ∧ isWrite h.opc = true) else ∀ h ∈ (dFab true).fab.held, h.fence = true ∨ h.dest ≠ (rreq 2 1 8192 [1, 2]).dest.toNat)
    ∧ (dFab true).route (rreq 2 1 8192 [1, 2]).dest.toNat = some noLink
    ∧ (noLink = none → ¬(dFab true).get R.MEM_HALL_CFG_HALL_MTU < 56 + (dFab true).ownTag.length + (rreq 2 1 8192 [1,
        2]).payload.length)
    ∧ (dFab true).outstanding (rreq 2 1 8192 [1, 2]).dest.toNat noLink.isNone < 32768 := by
  refine ⟨?_, ?_, ?_, ?_, ?_, ?_, ?_, ?_, ?_, ?_, ?_, ?_, ?_, ?_, ?_, ?_, ?_, ?_, ?_, ?_, ?_, ?_, ?_, ?_, ?_, ?_, ?_, ?_, ?_, ?_,
    ?_, ?_, ?_, ?_, ?_, ?_, ?_, ?_, ?_, ?_, ?_, ?_, ?_, ?_, ?_, ?_, ?_, ?_, ?_, ?_, ?_, ?_, ?_, ?_, ?_, ?_, ?_, ?_, ?_, ?_,
    ?_, ?_, ?_, ?_⟩ <;> decide +kernel

/-- The outstanding requests of `dMany` reach the limit, and none is held (`Obligations.RemoteRequestsLeave`). -/
theorem witness_RemoteRequestsLeave_limit : 32768 ≤ dMany.outstanding 1 false ∧ dMany.fab.held = [] := by
  have h (n : Nat) : ((List.replicate n (out0 1 0)).filter fun o => o.dest = 1 && o.hall = false).length = n := by
    simp [out0]
  exact ⟨Nat.le_of_eq (h 32768).symm, rfl⟩

/-- States and operands that meet the hypotheses of each clause of `Obligations.RemoteAnswersComplete`. -/
theorem witness_RemoteAnswersComplete :
    (T dFab).RunsIn 20
    ∧ (Instr.ack, (130 : Nat)) ∈ [(Instr.loadRsp, 129), (Instr.ack, 130), (Instr.atomicRsp, 131), (Instr.nack, 132)]
    ∧ (∀ x ∈ dFab.fab.inOps, x.opc ≠ 130)
    ∧ (T (dReqFab inStray)).RunsIn 20
    ∧ (Instr.loadRsp, (129 : Nat)) ∈ [(Instr.loadRsp, 129), (Instr.ack, 130), (Instr.atomicRsp, 131), (Instr.nack, 132)]
    ∧ (dReqFab inStray).fab.inOps = [] ++ [inStray]
    ∧ inStray.opc = 129
    ∧ (dReqFab inStray).requestOf inStray = none
    ∧ (T (dReqFab (in0 129 0 (zeros 8)))).RunsIn 20
    ∧ (dReqFab (in0 129 0 (zeros 8))).fab.inOps = [] ++ [in0 129 0 (zeros 8)]
    ∧ (in0 129 0 (zeros 8)).opc = 129
    ∧ (dReqFab (in0 129 0 (zeros 8))).requestOf (in0 129 0 (zeros 8)) = some (out0 1 7)
    ∧ 129 ≠ 132
    ∧ (dReqFab (in0 129 0 (zeros 8))).fab.held = []
    ∧ (T (dFenced (in0 130 0 []))).RunsIn 20
    ∧ (dFenced (in0 130 0 [])).fab.inOps = [] ++ [in0 130 0 []]
    ∧ (in0 130 0 []).opc = 130
    ∧ (dFenced (in0 130 0 [])).requestOf (in0 130 0 []) = some (out0 1 7)
    ∧ (dFenced (in0 130 0 [])).fab.held =
        [{ waitsFor := [(1, false, 7)], opc := 6, dest := 1, context := 0, engine := 5, release := false, fence := true, len := 8, target := 0, payload := beBytes 8 3 : HeldOp }]
    ∧ [(1, false, 7)] = [((out0 1 7).dest, (out0 1 7).hall, (out0 1 7).pseq)]
    ∧ 1 ≠ (dFenced (in0 130 0 [])).devId
    ∧ (dFenced (in0 130 0 [])).route 1 = some (some 1)
    ∧ (dFenced (in0 130 0 [])).outstanding 1 false < 32768
    ∧ (T (dReqFab (in0 132 0 (zeros 8) 16))).RunsIn 20
    ∧ (Instr.nack, (132 : Nat)) ∈ [(Instr.loadRsp, 129), (Instr.ack, 130), (Instr.atomicRsp, 131), (Instr.nack, 132)]
    ∧ (dReqFab (in0 132 0 (zeros 8) 16)).fab.inOps = [] ++ [in0 132 0 (zeros 8) 16]
    ∧ (in0 132 0 (zeros 8) 16).opc = 132
    ∧ (dReqFab (in0 132 0 (zeros 8) 16)).requestOf (in0 132 0 (zeros 8) 16) = some (out0 1 7)
    ∧ (dReqFab (in0 132 0 (zeros 8) 16)).fab.held = []
    -- REMOTE_TIMEOUT
    ∧ (T dOut).RunsIn 20
    ∧ dOut.fab.out = [] ++ [out0 2 0]
    ∧ (out0 2 0).dest = 1
    ∧ (out0 2 0).hall = false
    ∧ (out0 2 0).pseq = 0
    ∧ dOut.fab.held = []
    ∧ (∀ o ∈ dOut.fab.out, ¬(o.dest = 1 ∧ o.hall = true ∧ o.pseq = 0)) := by
  refine ⟨?_, ?_, ?_, ?_, ?_, ?_, ?_, ?_, ?_, ?_, ?_, ?_, ?_, ?_, ?_, ?_, ?_, ?_, ?_, ?_, ?_, ?_, ?_, ?_, ?_, ?_, ?_, ?_, ?_, ?_,
    ?_, ?_, ?_, ?_, ?_, ?_⟩ <;> decide +kernel

/-- States and operands that meet the hypotheses of each clause of `Obligations.RemoteOperationsServed`. -/
theorem witness_RemoteOperationsServed :
    (T dFab).RunsIn 20
    ∧ (Instr.remoteSignal, (6 : Nat)) ∈ [(Instr.load [], 1), (Instr.store, 2), (Instr.atomicAdd [], 3), (Instr.atomicCas [],
        4), (Instr.atomicMax [], 5), (Instr.remoteSignal, 6)]
    ∧ (∀ x ∈ dFab.fab.inOps, x.opc ≠ 6 ∨ (decide (6 = 1) && dFab.loadWaits x) = true)
    ∧ (T (dRemOff (in0 2 8192 [1, 2]))).RunsIn 20
    ∧ (Instr.store, (2 : Nat)) ∈ [(Instr.load [], 1), (Instr.store, 2), (Instr.atomicAdd [], 3), (Instr.atomicCas [], 4),
        (Instr.atomicMax [], 5), (Instr.remoteSignal, 6)]
    ∧ (dRemOff (in0 2 8192 [1, 2])).fab.inOps = [] ++ [in0 2 8192 [1, 2]]
    ∧ (in0 2 8192 [1, 2]).opc = 2
    ∧ (decide (2 = 1) && (dRemOff (in0 2 8192 [1, 2])).loadWaits (in0 2 8192 [1, 2])) = false
    ∧ (dRemOff (in0 2 8192 [1, 2])).on R.MEM_CFG_REMOTE_EN = false
    ∧ ((dRemOff (in0 2 8192 [1, 2])).pairRx (in0 2 8192 [1, 2]).src (in0 2 8192 [1, 2]).hall (in0 2 8192 [1,
        2]).link).releases = []
    ∧ (T (dIn (in0 5 206158430208 []))).RunsIn 20
    ∧ (Instr.atomicMax [], (5 : Nat)) ∈ [(Instr.load [], 1), (Instr.store, 2), (Instr.atomicAdd [], 3), (Instr.atomicCas [],
        4), (Instr.atomicMax [], 5), (Instr.remoteSignal, 6)]
    ∧ (dIn (in0 5 206158430208 [])).fab.inOps = [] ++ [in0 5 206158430208 []]
    ∧ (in0 5 206158430208 []).opc = 5
    ∧ (decide (5 = 1) && (dIn (in0 5 206158430208 [])).loadWaits (in0 5 206158430208 [])) = false
    ∧ (dIn (in0 5 206158430208 [])).on R.MEM_CFG_REMOTE_EN = true
    ∧ 5 ≠ 6
    ∧ ((dIn (in0 5 206158430208 [])).pairRx (in0 5 206158430208 []).src (in0 5 206158430208 []).hall (in0 5 206158430208
        []).link).releases = []
    ∧ (dIn (in0 5 206158430208 [])).mapped (in0 5 206158430208 []).target
        (if 5 = 1 then (in0 5 206158430208 []).len else if 5 = 2 then (in0 5 206158430208 []).payload.length else 8) = false
    ∧ (T (dIn (in0 1 206158430208 []))).RunsIn 20
    ∧ (Instr.load [], (1 : Nat)) ∈ [(Instr.load [], 1), (Instr.store, 2), (Instr.atomicAdd [], 3), (Instr.atomicCas [], 4),
        (Instr.atomicMax [], 5), (Instr.remoteSignal, 6)]
    ∧ (dIn (in0 1 206158430208 [])).fab.inOps = [] ++ [in0 1 206158430208 []]
    ∧ (in0 1 206158430208 []).opc = 1
    ∧ (decide (1 = 1) && (dIn (in0 1 206158430208 [])).loadWaits (in0 1 206158430208 [])) = false
    ∧ (dIn (in0 1 206158430208 [])).on R.MEM_CFG_REMOTE_EN = true
    ∧ 1 ≠ 6
    ∧ ((dIn (in0 1 206158430208 [])).pairRx (in0 1 206158430208 []).src (in0 1 206158430208 []).hall (in0 1 206158430208
        []).link).releases = []
    ∧ (dIn (in0 1 206158430208 [])).mapped (in0 1 206158430208 []).target
        (if 1 = 1 then (in0 1 206158430208 []).len else if 1 = 2 then (in0 1 206158430208 []).payload.length else 8) = false
    ∧ (T (dIn (in0 1 8192 []))).RunsIn 20
    ∧ (dIn (in0 1 8192 [])).fab.inOps = [] ++ [in0 1 8192 []]
    ∧ (in0 1 8192 []).opc = 1
    ∧ (decide (1 = 1) && (dIn (in0 1 8192 [])).loadWaits (in0 1 8192 [])) = false
    ∧ (dIn (in0 1 8192 [])).on R.MEM_CFG_REMOTE_EN = true
    ∧ (dIn (in0 1 8192 [])).mapped (in0 1 8192 []).target
        (if 1 = 1 then (in0 1 8192 []).len else if 1 = 2 then (in0 1 8192 []).payload.length else 8) = true
    ∧ (dIn (in0 1 8192 [])).readable (in0 1 8192 []).target (in0 1 8192 []).len = true
    ∧ (Instr.load [{ addr := 8192, kind := MemKind.uncorrectable : MemEvent }], (1 : Nat)) ∈ [(Instr.load
        [{ addr := 8192, kind := MemKind.uncorrectable : MemEvent }], 1), (Instr.store, 2), (Instr.atomicAdd
        [{ addr := 8192, kind := MemKind.uncorrectable : MemEvent }], 3), (Instr.atomicCas
        [{ addr := 8192, kind := MemKind.uncorrectable : MemEvent }], 4), (Instr.atomicMax
        [{ addr := 8192, kind := MemKind.uncorrectable : MemEvent }], 5), (Instr.remoteSignal, 6)]
    ∧ 1 ≠ 2
    ∧ ((dIn (in0 1 8192 [])).pairRx (in0 1 8192 []).src (in0 1 8192 []).hall (in0 1 8192 []).link).releases = []
    ∧ ((dIn (in0 1 8192 [])).fetch (in0 1 8192 []).target
        (if 1 = 1 then (in0 1 8192 []).len else if 1 = 2 then (in0 1 8192 []).payload.length else 8)
        [{ addr := 8192, kind := MemKind.uncorrectable : MemEvent }]).2 = none
    ∧ (T (dIn (in0 2 8192 [1, 2]))).RunsIn 20
    ∧ (dIn (in0 2 8192 [1, 2])).fab.inOps = [] ++ [in0 2 8192 [1, 2]]
    ∧ (decide (2 = 1) && (dIn (in0 2 8192 [1, 2])).loadWaits (in0 2 8192 [1, 2])) = false
    ∧ (dIn (in0 2 8192 [1, 2])).on R.MEM_CFG_REMOTE_EN = true
    ∧ (dIn (in0 2 8192 [1, 2])).mapped (in0 2 8192 [1, 2]).target
        (if 2 = 1 then (in0 2 8192 [1, 2]).len else if 2 = 2 then (in0 2 8192 [1, 2]).payload.length else 8) = true
    ∧ (T (dIn (in0 3 8192 (beBytes 8 4)))).RunsIn 20
    ∧ (Instr.atomicAdd [], (3 : Nat)) ∈ [(Instr.load [], 1), (Instr.store, 2), (Instr.atomicAdd [], 3), (Instr.atomicCas [],
        4), (Instr.atomicMax [], 5), (Instr.remoteSignal, 6)]
    ∧ (dIn (in0 3 8192 (beBytes 8 4))).fab.inOps = [] ++ [in0 3 8192 (beBytes 8 4)]
    ∧ (in0 3 8192 (beBytes 8 4)).opc = 3
    ∧ (decide (3 = 1) && (dIn (in0 3 8192 (beBytes 8 4))).loadWaits (in0 3 8192 (beBytes 8 4))) = false
    ∧ (dIn (in0 3 8192 (beBytes 8 4))).on R.MEM_CFG_REMOTE_EN = true
    ∧ (dIn (in0 3 8192 (beBytes 8 4))).mapped (in0 3 8192 (beBytes 8 4)).target
        (if 3 = 1 then (in0 3 8192 (beBytes 8 4)).len else if 3 = 2 then (in0 3 8192 (beBytes 8 4)).payload.length else 8) =
        true
    ∧ 3 ≤ 3
    ∧ 3 ≤ 5
    ∧ ((dIn (in0 3 8192 (beBytes 8 4))).pairRx (in0 3 8192 (beBytes 8 4)).src (in0 3 8192 (beBytes 8 4)).hall (in0 3 8192
        (beBytes 8 4)).link).releases = []
    ∧ (dIn (in0 3 8192 (beBytes 8 4))).readable (in0 3 8192 (beBytes 8 4)).target 8 = true
    ∧ (8 ≠ 0 ∧ (dIn (in0 3 8192 (beBytes 8 4))).mapped (in0 3 8192 (beBytes 8 4)).target 8 = true ∧ ∀ g ∈ granules (in0 3
        8192 (beBytes 8 4)).target 8, (dIn (in0 3 8192 (beBytes 8 4))).inRetired (64 * g) = false ∧ (dIn (in0 3 8192 (beBytes
        8 4))).inHeldTier (64 * g) = false ∧ (dIn (in0 3 8192 (beBytes 8 4))).granuleBad g = false ∧ (dIn (in0 3 8192 (beBytes
        8 4))).staticEntity g = false)
    ∧ (T (dIn (in0 4 8192 (beBytes 8 5 ++ beBytes 8 6)))).RunsIn 20
    ∧ (Instr.atomicCas [], (4 : Nat)) ∈ [(Instr.load [], 1), (Instr.store, 2), (Instr.atomicAdd [], 3), (Instr.atomicCas [],
        4), (Instr.atomicMax [], 5), (Instr.remoteSignal, 6)]
    ∧ (dIn (in0 4 8192 (beBytes 8 5 ++ beBytes 8 6))).fab.inOps = [] ++ [in0 4 8192 (beBytes 8 5 ++ beBytes 8 6)]
    ∧ (in0 4 8192 (beBytes 8 5 ++ beBytes 8 6)).opc = 4
    ∧ (decide (4 = 1) && (dIn (in0 4 8192 (beBytes 8 5 ++ beBytes 8 6))).loadWaits (in0 4 8192 (beBytes 8 5 ++ beBytes 8
        6))) = false
    ∧ (dIn (in0 4 8192 (beBytes 8 5 ++ beBytes 8 6))).on R.MEM_CFG_REMOTE_EN = true
    ∧ (dIn (in0 4 8192 (beBytes 8 5 ++ beBytes 8 6))).mapped (in0 4 8192 (beBytes 8 5 ++ beBytes 8 6)).target
        (if 4 = 1 then (in0 4 8192 (beBytes 8 5 ++ beBytes 8 6)).len else if 4 = 2 then (in0 4 8192 (beBytes 8 5 ++ beBytes 8 6)).payload.length else 8)
        = true
    ∧ 3 ≤ 4
    ∧ 4 ≤ 5
    ∧ ((dIn (in0 4 8192 (beBytes 8 5 ++ beBytes 8 6))).pairRx (in0 4 8192 (beBytes 8 5 ++ beBytes 8 6)).src (in0 4 8192
        (beBytes 8 5 ++ beBytes 8 6)).hall (in0 4 8192 (beBytes 8 5 ++ beBytes 8 6)).link).releases = []
    ∧ (dIn (in0 4 8192 (beBytes 8 5 ++ beBytes 8 6))).readable (in0 4 8192 (beBytes 8 5 ++ beBytes 8 6)).target 8 = true
    ∧ (8 ≠ 0 ∧ (dIn (in0 4 8192 (beBytes 8 5 ++ beBytes 8 6))).mapped (in0 4 8192 (beBytes 8 5 ++ beBytes 8 6)).target 8 =
        true ∧ ∀ g ∈ granules (in0 4 8192 (beBytes 8 5 ++ beBytes 8 6)).target 8, (dIn (in0 4 8192 (beBytes 8 5 ++ beBytes 8
        6))).inRetired (64 * g) = false ∧ (dIn (in0 4 8192 (beBytes 8 5 ++ beBytes 8 6))).inHeldTier (64 * g) = false ∧ (dIn
        (in0 4 8192 (beBytes 8 5 ++ beBytes 8 6))).granuleBad g = false ∧ (dIn (in0 4 8192 (beBytes 8 5 ++ beBytes 8
        6))).staticEntity g = false)
    ∧ (T (dIn (in0 6 badCtr (beBytes 8 3)))).RunsIn 20
    ∧ (dIn (in0 6 badCtr (beBytes 8 3))).fab.inOps = [] ++ [in0 6 badCtr (beBytes 8 3)]
    ∧ (in0 6 badCtr (beBytes 8 3)).opc = 6
    ∧ (decide (6 = 1) && (dIn (in0 6 badCtr (beBytes 8 3))).loadWaits (in0 6 badCtr (beBytes 8 3))) = false
    ∧ (dIn (in0 6 badCtr (beBytes 8 3))).on R.MEM_CFG_REMOTE_EN = true
    ∧ ((in0 6 badCtr (beBytes 8 3)).flags % 2 = 0 ∨ reached ((dIn (in0 6 badCtr (beBytes 8 3))).pairRx (in0 6 badCtr
        (beBytes 8 3)).src (in0 6 badCtr (beBytes 8 3)).hall (in0 6 badCtr (beBytes 8 3)).link).mark (in0 6 badCtr (beBytes 8
        3)).pseq = true)
    ∧ (dIn (in0 6 badCtr (beBytes 8 3))).physCtr ((in0 6 badCtr (beBytes 8 3)).target / 2 ^ 16 % 256) ((in0 6 badCtr
        (beBytes 8 3)).target % 2 ^ 16) = none
    ∧ (T (dIn (in0 6 0 (beBytes 8 3)))).RunsIn 20
    ∧ (dIn (in0 6 0 (beBytes 8 3))).fab.inOps = [] ++ [in0 6 0 (beBytes 8 3)]
    ∧ (in0 6 0 (beBytes 8 3)).opc = 6
    ∧ (decide (6 = 1) && (dIn (in0 6 0 (beBytes 8 3))).loadWaits (in0 6 0 (beBytes 8 3))) = false
    ∧ (dIn (in0 6 0 (beBytes 8 3))).on R.MEM_CFG_REMOTE_EN = true
    ∧ ((in0 6 0 (beBytes 8 3)).flags % 2 = 0 ∨ reached ((dIn (in0 6 0 (beBytes 8 3))).pairRx (in0 6 0 (beBytes 8 3)).src
        (in0 6 0 (beBytes 8 3)).hall (in0 6 0 (beBytes 8 3)).link).mark (in0 6 0 (beBytes 8 3)).pseq = true)
    ∧ (dIn (in0 6 0 (beBytes 8 3))).physCtr ((in0 6 0 (beBytes 8 3)).target / 2 ^ 16 % 256) ((in0 6 0 (beBytes 8 3)).target
        % 2 ^ 16) = some 768
    ∧ (dIn (in0 6 0 (beBytes 8 3))).sync.waits.any ((dIn (in0 6 0 (beBytes 8 3))).waitsOn 768) = false
    ∧ (dIn (in0 6 0 (beBytes 8 3))).sync.written ≠ some (768, (dIn (in0 6 0 (beBytes 8 3))).ns)
    ∧ ((dIn (in0 6 0 (beBytes 8 3))).ctr 768).value + beAt (in0 6 0 (beBytes 8 3)).payload 0 8 % 2 ^ 16 ≤ 65535
    ∧ (T (dFullCtr (in0 6 0 (beBytes 8 3)))).RunsIn 20
    ∧ (dFullCtr (in0 6 0 (beBytes 8 3))).fab.inOps = [] ++ [in0 6 0 (beBytes 8 3)]
    ∧ (decide (6 = 1) && (dFullCtr (in0 6 0 (beBytes 8 3))).loadWaits (in0 6 0 (beBytes 8 3))) = false
    ∧ (dFullCtr (in0 6 0 (beBytes 8 3))).on R.MEM_CFG_REMOTE_EN = true
    ∧ ((in0 6 0 (beBytes 8 3)).flags % 2 = 0 ∨ reached ((dFullCtr (in0 6 0 (beBytes 8 3))).pairRx (in0 6 0 (beBytes 8
        3)).src (in0 6 0 (beBytes 8 3)).hall (in0 6 0 (beBytes 8 3)).link).mark (in0 6 0 (beBytes 8 3)).pseq = true)
    ∧ (dFullCtr (in0 6 0 (beBytes 8 3))).physCtr ((in0 6 0 (beBytes 8 3)).target / 2 ^ 16 % 256) ((in0 6 0 (beBytes 8
        3)).target % 2 ^ 16) = some 768
    ∧ (dFullCtr (in0 6 0 (beBytes 8 3))).sync.waits.any ((dFullCtr (in0 6 0 (beBytes 8 3))).waitsOn 768) = false
    ∧ (dFullCtr (in0 6 0 (beBytes 8 3))).sync.written ≠ some (768, (dFullCtr (in0 6 0 (beBytes 8 3))).ns)
    ∧ 65535 < ((dFullCtr (in0 6 0 (beBytes 8 3))).ctr 768).value + beAt (in0 6 0 (beBytes 8 3)).payload 0 8 % 2 ^ 16
    ∧ (T (dIn (in0 6 0 (beBytes 8 3) 1 70))).RunsIn 20
    ∧ (dIn (in0 6 0 (beBytes 8 3) 1 70)).fab.inOps = [] ++ [in0 6 0 (beBytes 8 3) 1 70]
    ∧ (in0 6 0 (beBytes 8 3) 1 70).opc = 6
    ∧ (decide (6 = 1) && (dIn (in0 6 0 (beBytes 8 3) 1 70)).loadWaits (in0 6 0 (beBytes 8 3) 1 70)) = false
    ∧ (dIn (in0 6 0 (beBytes 8 3) 1 70)).on R.MEM_CFG_REMOTE_EN = true
    ∧ (¬((in0 6 0 (beBytes 8 3) 1 70).flags % 2 = 0 ∨ reached ((dIn (in0 6 0 (beBytes 8 3) 1 70)).pairRx (in0 6 0 (beBytes 8
        3) 1 70).src (in0 6 0 (beBytes 8 3) 1 70).hall (in0 6 0 (beBytes 8 3) 1 70).link).mark (in0 6 0 (beBytes 8 3) 1
        70).pseq = true))
    ∧ (¬(64 ≤ ((in0 6 0 (beBytes 8 3) 1 70).pseq + 2 ^ 16 - ((dIn (in0 6 0 (beBytes 8 3) 1 70)).pairRx (in0 6 0 (beBytes 8
        3) 1 70).src (in0 6 0 (beBytes 8 3) 1 70).hall (in0 6 0 (beBytes 8 3) 1 70).link).mark) % 2 ^ 16 ∧ 256 ≤ (dIn (in0 6 0
        (beBytes 8 3) 1 70)).parkedIn (in0 6 0 (beBytes 8 3) 1 70).hall (in0 6 0 (beBytes 8 3) 1 70).link))
    ∧ (T dFull).RunsIn 20
    ∧ dFull.fab.inOps = [] ++ [in0 6 0 (beBytes 8 3) 1 70]
    ∧ (decide (6 = 1) && dFull.loadWaits (in0 6 0 (beBytes 8 3) 1 70)) = false
    ∧ dFull.on R.MEM_CFG_REMOTE_EN = true
    ∧ (¬((in0 6 0 (beBytes 8 3) 1 70).flags % 2 = 0 ∨ reached (dFull.pairRx (in0 6 0 (beBytes 8 3) 1 70).src (in0 6 0
        (beBytes 8 3) 1 70).hall (in0 6 0 (beBytes 8 3) 1 70).link).mark (in0 6 0 (beBytes 8 3) 1 70).pseq = true))
    ∧ 64 ≤ ((in0 6 0 (beBytes 8 3) 1 70).pseq + 2 ^ 16 - (dFull.pairRx (in0 6 0 (beBytes 8 3) 1 70).src (in0 6 0 (beBytes 8
        3) 1 70).hall (in0 6 0 (beBytes 8 3) 1 70).link).mark) % 2 ^ 16
    ∧ 256 ≤ dFull.parkedIn (in0 6 0 (beBytes 8 3) 1 70).hall (in0 6 0 (beBytes 8 3) 1 70).link
    -- WRITE_COMMIT
    ∧ (T dOw).RunsIn 20
    ∧ dOw.fab.openWrites = [] ++ [ow0]
    ∧ (ow0.src = 1 ∧ ow0.hall = false ∧ ow0.pseq = 7)
    ∧ (ow0.data.length ≠ 0 ∧ dOw.mapped ow0.addr ow0.data.length = true ∧ ∀ g ∈ granules ow0.addr ow0.data.length,
        dOw.inRetired (64 * g) = false ∧ dOw.inHeldTier (64 * g) = false ∧ dOw.granuleBad g = false ∧ dOw.staticEntity g =
        false)
    ∧ (∀ w ∈ dOw.fab.openWrites, ¬(w.src = 1 ∧ w.hall = true ∧ w.pseq = 7)) := by
  refine ⟨?_, ?_, ?_, ?_, ?_, ?_, ?_, ?_, ?_, ?_, ?_, ?_, ?_, ?_, ?_, ?_, ?_, ?_, ?_, ?_, ?_, ?_, ?_, ?_, ?_, ?_, ?_, ?_, ?_, ?_,
    ?_, ?_, ?_, ?_, ?_, ?_, ?_, ?_, ?_, ?_, ?_, ?_, ?_, ?_, ?_, ?_, ?_, ?_, ?_, ?_, ?_, ?_, ?_, ?_, ?_, ?_, ?_, ?_, ?_, ?_,
    ?_, ?_, ?_, ?_, ?_, ?_, ?_, ?_, ?_, ?_, ?_, ?_, ?_, ?_, ?_, ?_, ?_, ?_, ?_, ?_, ?_, ?_, ?_, ?_, ?_, ?_, ?_, ?_, ?_, ?_,
    ?_, ?_, ?_, ?_, ?_, ?_, ?_, ?_, ?_, ?_, ?_, ?_, ?_, ?_, ?_, ?_, ?_, ?_, ?_, ?_, ?_, ?_, ?_⟩ <;> decide +kernel

/-- Four bytes spell their number. -/
theorem beBytes_four (n : Nat) (h : n < 2 ^ 32) : (beBytes 4 n).length = 4 ∧ beNat (beBytes 4 n) = n := by
  refine ⟨rfl, ?_⟩
  simp [beBytes, leBytes, beNat]
  omega

/-- A block stamped with a CRC holds it, and is the block again with the CRC zeroed. -/
theorem stamped (b : List Byte) (x : BitVec 32) (hl : b.length = 256) (hz : overlay b 12 (zeros 4) = b) :
    beAt (padTo 256 (overlay b 12 (beBytes 4 x.toNat))) 12 4 = x.toNat
      ∧ overlay (padTo 256 (overlay b 12 (beBytes 4 x.toNat))) 12 (zeros 4) = b := by
  obtain ⟨h4, hn⟩ := beBytes_four x.toNat x.isLt
  generalize beBytes 4 x.toNat = y at h4 hn ⊢
  have hlen : (overlay b 12 y).length = 256 := by simp [overlay, h4, hl]
  have hp : padTo 256 (overlay b 12 y) = overlay b 12 y := by simp [padTo, hlen, zeros, List.take_of_length_le]
  rw [hp]
  refine ⟨?_, ?_⟩
  · have hs : sub (overlay b 12 y) 12 4 = y := by
      simp [sub, overlay, hl, h4, List.take_left']
    simp [beAt, hs, padTo, h4, zeros, List.take_of_length_le, hn]
  · refine Eq.trans ?_ hz
    simp [overlay, hl, h4, zeros, List.drop_append]

/-- A Mirror block passes its CRC check (R488). -/
theorem blk_good (seq cls type : Nat) (ops : List Byte) (hl : (blkBody seq cls type ops).length = 256)
    (hz : overlay (blkBody seq cls type ops) 12 (zeros 4) = blkBody seq cls type ops) :
    beAt (padTo 256 (blk seq cls type ops)) 12 4 = (crc32c (overlay (padTo 256 (blk seq cls type ops)) 12 (zeros 4))).toNat := by
  obtain ⟨h1, h2⟩ := stamped (blkBody seq cls type ops) (crc32c (blkBody seq cls type ops)) hl hz
  simp only [blk]
  rw [h2, h1]

/-- States and operands that meet the hypotheses of each clause of `Obligations.MirrorLinksRun`. -/
theorem witness_MirrorLinksRun :
    (T dDown).RunsIn 19
    ∧ dDown.fab.links.length = 4
    ∧ dDown.linkUp 1 = false
    -- MIRROR_BLOCK_RECEIVE
    ∧ (T dFab).RunsIn 19
    ∧ dFab.fab.links.length = 4
    ∧ dFab.linkUp 1 = true
    ∧ (¬(true = false ∧ beAt (padTo 256 (blk 0 0 1 [])) 12 4 = (crc32c (overlay (padTo 256 (blk 0 0 1 [])) 12 (zeros
        4))).toNat))
    ∧ (false = false ∧ beAt (padTo 256 (blk 0 0 0 [])) 12 4 = (crc32c (overlay (padTo 256 (blk 0 0 0 [])) 12 (zeros
        4))).toNat)
    ∧ beAt (padTo 256 (blk 0 0 0 [])) 0 1 % 16 ≠ 1
    ∧ beAt (padTo 256 (blk 0 0 0 [])) 0 1 % 16 ≠ 2
    ∧ beAt (padTo 256 (blk 0 0 0 [])) 0 1 % 16 ≠ 4
    ∧ (dFab.link 1).waiting = []
    -- MIRROR_BLOCK_RECEIVE
    ∧ (T dWaits).RunsIn 19
    ∧ dWaits.fab.links.length = 4
    ∧ dWaits.linkUp 1 = true
    ∧ (dWaits.link 1).waiting = [wait1]
    ∧ wait1.mark = none
    ∧ wait1.bytes.length ≤ 240
    ∧ ((dWaits.modLink 1 fun (y : Link) =>
        { y with creditReq := min 64 (y.creditReq + beAt (padTo 256 (blk 0 0 0 [])) 8 1), creditRsp := min 64 (y.creditRsp + beAt (padTo 256 (blk 0 0 0 [])) 9 1), unacked := List.filter (fun (u : SentBlock) => beforeMod 24 (beAt (padTo 256 (blk 0 0 0 [])) 5 3) u.seq) y.unacked, lastValidNs := dWaits.clockNs : Link }).link
        1).credit wait1.cls ≠ 0
    ∧ wait1.cls < 2
    ∧ (false = false ∧ beAt (padTo 256 (blk 0 0 2 [])) 12 4 = (crc32c (overlay (padTo 256 (blk 0 0 2 [])) 12 (zeros
        4))).toNat)
    ∧ beAt (padTo 256 (blk 0 0 2 [])) 0 1 % 16 = 2
    ∧ (false = false ∧ beAt (padTo 256 (blk 0 0 4 (tickOps 20 0))) 12 4 = (crc32c (overlay (padTo 256 (blk 0 0 4 (tickOps 20
        0))) 12 (zeros 4))).toNat)
    ∧ beAt (padTo 256 (blk 0 0 4 (tickOps 20 0))) 0 1 % 16 = 4
    -- MIRROR_BLOCK_RECEIVE
    ∧ (T dNoCredit).RunsIn 19
    ∧ dNoCredit.fab.links.length = 4
    ∧ dNoCredit.linkUp 1 = true
    ∧ (false = false ∧ beAt (padTo 256 (blk 1 0 1 [])) 12 4 = (crc32c (overlay (padTo 256 (blk 1 0 1 [])) 12 (zeros
        4))).toNat)
    ∧ (dNoCredit.link 1).waiting = []
    ∧ beAt (padTo 256 (blk 1 0 1 [])) 0 1 % 16 = 1
    ∧ (if beAt (padTo 256 (blk 1 0 1 [])) 0 1 / 16 % 2 = 0 then (dNoCredit.link 1).peerReq else (dNoCredit.link 1).peerRsp)
        = 0
    -- MIRROR_BLOCK_RECEIVE
    ∧ (false = false ∧ beAt (padTo 256 (blk 7 0 1 [])) 12 4 = (crc32c (overlay (padTo 256 (blk 7 0 1 [])) 12 (zeros
        4))).toNat)
    ∧ beAt (padTo 256 (blk 7 0 1 [])) 0 1 % 16 = 1
    ∧ (if beAt (padTo 256 (blk 7 0 1 [])) 0 1 / 16 % 2 = 0 then (dFab.link 1).peerReq else (dFab.link 1).peerRsp) ≠ 0
    ∧ beAt (padTo 256 (blk 7 0 1 [])) 2 3 ≠ (dFab.link 1).rxNext
    -- MIRROR_BLOCK_RECEIVE
    ∧ (T dLastSeq).RunsIn 19
    ∧ dLastSeq.fab.links.length = 4
    ∧ dLastSeq.linkUp 1 = true
    ∧ (false = false ∧ beAt (padTo 256 (blk (2 ^ 24 - 1) 0 1 [])) 12 4 = (crc32c (overlay (padTo 256 (blk (2 ^ 24 - 1) 0 1
        [])) 12 (zeros 4))).toNat)
    ∧ (dLastSeq.link 1).waiting = []
    ∧ beAt (padTo 256 (blk (2 ^ 24 - 1) 0 1 [])) 0 1 % 16 = 1
    ∧ (if beAt (padTo 256 (blk (2 ^ 24 - 1) 0 1 [])) 0 1 / 16 % 2 = 0 then (dLastSeq.link 1).peerReq else (dLastSeq.link 1).peerRsp)
        ≠ 0
    ∧ beAt (padTo 256 (blk (2 ^ 24 - 1) 0 1 [])) 2 3 = (dLastSeq.link 1).rxNext
    -- REPLAY_REQUEST
    ∧ (T dSent).RunsIn 19
    ∧ dSent.fab.links.length = 4
    ∧ dSent.linkUp 1 = true
    ∧ List.filter (fun (b : SentBlock) => decide (b.seq = 4) || beforeMod 24 4 b.seq) (dSent.link 1).unacked ≠ []
    ∧ (dFab.linkUp 1 = false ∨ List.filter (fun (b : SentBlock) => decide (b.seq = 4) || beforeMod 24 4 b.seq) (dFab.link
        1).unacked = [])
    ∧ (dFab.link 1).gap = none
    -- REPLAY_TIMEOUT
    ∧ (T dGap).RunsIn 19
    ∧ dGap.fab.links.length = 4
    ∧ (dGap.link 1).gap = some (1, 7, 2)
    ∧ (¬(dFab.on (R.MIR_CFG_EN 1) = true ∧ dFab.linkUp 1 = false ∧ dFab.failedLanes 1 < 2))
    -- MIRROR_RETRAIN_ATTEMPT
    ∧ (dDown.on (R.MIR_CFG_EN 1) = true ∧ dDown.linkUp 1 = false ∧ dDown.failedLanes 1 < 2)
    ∧ (¬((dDown.on (R.MIR_CFG_EN 1) = true ∧ dDown.linkUp 1 = false ∧ dDown.failedLanes 1 < 2) ∧ (dDown.link 1).trained =
        true))
    -- ID_BLOCK
    ∧ (T dTrained).RunsIn 19
    ∧ dTrained.fab.links.length = 4
    ∧ ((dTrained.on (R.MIR_CFG_EN 1) = true ∧ dTrained.linkUp 1 = false ∧ dTrained.failedLanes 1 < 2) ∧ (dTrained.link
        1).trained = true)
    ∧ 7 ≠ dTrained.get (R.MIR_CFG_PEER_ID 1)
    -- ID_BLOCK
    ∧ 0 = dTrained.get (R.MIR_CFG_PEER_ID 1)
    ∧ (dTrained.link 1).waiting = []
    -- MIRROR_LANE_FAIL
    ∧ (T (dDown.put (R.MIR_STAT_TRAIN_FAILS 1) 8)).RunsIn 19
    ∧ (dDown.put (R.MIR_STAT_TRAIN_FAILS 1) 8).fab.links.length = 4
    ∧ (8 ≤ (dDown.put (R.MIR_STAT_TRAIN_FAILS 1) 8).get (R.MIR_STAT_TRAIN_FAILS 1) ∧ (dDown.put (R.MIR_STAT_TRAIN_FAILS 1)
        8).linkUp 1 = false ∧ ((dDown.put (R.MIR_STAT_TRAIN_FAILS 1) 8).get (R.MIR_STAT_LANE_FAILED 1)).testBit 3 = false)
    ∧ (T (dDown.put (R.MIR_STAT_TRAIN_FAILS 1) 7)).RunsIn 19
    ∧ (dDown.put (R.MIR_STAT_TRAIN_FAILS 1) 7).fab.links.length = 4
    ∧ (¬(8 ≤ (dDown.put (R.MIR_STAT_TRAIN_FAILS 1) 7).get (R.MIR_STAT_TRAIN_FAILS 1) ∧ (dDown.put (R.MIR_STAT_TRAIN_FAILS 1)
        7).linkUp 1 = false ∧ ((dDown.put (R.MIR_STAT_TRAIN_FAILS 1) 7).get (R.MIR_STAT_LANE_FAILED 1)).testBit 3 = false))
    ∧ (¬(dFab.on R.TKP_MODE_FABRIC_BOARD = true ∧ dFab.on R.TKP_TICK_STAT_FOLLOWER = true ∧ dFab.linkUp 1 = true))
    -- TICK_BLOCK
    ∧ (T (dEdges true)).RunsIn 19
    ∧ (dEdges true).fab.links.length = 4
    ∧ ((dEdges true).on R.TKP_MODE_FABRIC_BOARD = true ∧ (dEdges true).on R.TKP_TICK_STAT_FOLLOWER = true ∧ (dEdges
        true).linkUp 1 = true) := by
  refine ⟨?_, ?_, ?_, ?_, ?_, ?_, ?_, ⟨rfl, blk_good _ _ _ _ (by decide +kernel) (by decide +kernel)⟩, ?_, ?_, ?_, ?_, ?_, ?_,
    ?_, ?_, ?_, ?_, ?_, ?_, ⟨rfl, blk_good _ _ _ _ (by decide +kernel) (by decide +kernel)⟩, ?_, ⟨rfl, blk_good _ _ _ _ (by
    decide +kernel) (by decide +kernel)⟩, ?_, ?_, ?_, ?_, ⟨rfl, blk_good _ _ _ _ (by decide +kernel) (by decide +kernel)⟩,
    ?_, ?_, ?_, ⟨rfl, blk_good _ _ _ _ (by decide +kernel) (by decide +kernel)⟩, ?_, ?_, ?_, ?_, ?_, ?_, ⟨rfl, blk_good _ _
    _ _ (by decide +kernel) (by decide +kernel)⟩, ?_, ?_, ?_, ?_, ?_, ?_, ?_, ?_, ?_, ?_, ?_, ?_, ?_, ?_, ?_, ?_, ?_, ?_,
    ?_, ?_, ?_, ?_, ?_, ?_, ?_, ?_, ?_, ?_, ?_, ?_, ?_, ?_⟩ <;> decide +kernel

/-- States and operands that meet the hypotheses of each clause of `Obligations.HallPathAndScrub`. -/
theorem witness_HallPathAndScrub :
    (T dFab).Running
    ∧ dFab.regionStopped 20 = false
    ∧ dFab.port.hallRx = []
    -- HALL_FRAME_RECEIVE
    ∧ (T (dHall (hallFrame 3 1 1 []))).Running
    ∧ (dHall (hallFrame 3 1 1 [])).regionStopped 20 = false
    ∧ (dHall (hallFrame 3 1 1 [])).port.hallRx = [rxHall (hallFrame 3 1 1 [])]
    ∧ (¬beAt (rxHall (hallFrame 3 1 1 [])).bytes ((etherOf (rxHall (hallFrame 3 1 1 [])).bytes).2 + 2 + 4) 2 % 4096 = (dHall
        (hallFrame 3 1 1 [])).devId)
    ∧ (rxHall (hallFrame 3 1 1 [])).sp < 8
    -- HALL_FRAME_RECEIVE
    ∧ (T (dHall (hallFrame 0 2 1 []))).Running
    ∧ (dHall (hallFrame 0 2 1 [])).regionStopped 20 = false
    ∧ (dHall (hallFrame 0 2 1 [])).port.hallRx = [rxHall (hallFrame 0 2 1 [])]
    ∧ beAt (rxHall (hallFrame 0 2 1 [])).bytes ((etherOf (rxHall (hallFrame 0 2 1 [])).bytes).2 + 2 + 4) 2 % 4096 = (dHall
        (hallFrame 0 2 1 [])).devId
    ∧ (¬(beAt (rxHall (hallFrame 0 2 1 [])).bytes ((etherOf (rxHall (hallFrame 0 2 1 [])).bytes).2 + 2) 1 = 1 ∧ (etherOf
        (rxHall (hallFrame 0 2 1 [])).bytes).2 + 2 + 22 ≤ (rxHall (hallFrame 0 2 1 [])).bytes.length ∧ beAt (rxHall (hallFrame
        0 2 1 [])).bytes ((etherOf (rxHall (hallFrame 0 2 1 [])).bytes).2 + 2 + 18) 2 ≤ (rxHall (hallFrame 0 2 1
        [])).bytes.length - ((etherOf (rxHall (hallFrame 0 2 1 [])).bytes).2 + 2 + 22) ∧ (beAt (rxHall (hallFrame 0 2 1
        [])).bytes ((etherOf (rxHall (hallFrame 0 2 1 [])).bytes).2 + 2 + 18) 2 = (rxHall (hallFrame 0 2 1 [])).bytes.length -
        ((etherOf (rxHall (hallFrame 0 2 1 [])).bytes).2 + 2 + 22) ∨ (rxHall (hallFrame 0 2 1 [])).bytes.length ≤ 60)))
    -- HALL_FRAME_RECEIVE
    ∧ (T (dHall (hallFrame 0 1 1 []))).Running
    ∧ (dHall (hallFrame 0 1 1 [])).regionStopped 20 = false
    ∧ (dHall (hallFrame 0 1 1 [])).port.hallRx = [rxHall (hallFrame 0 1 1 [])]
    ∧ beAt (rxHall (hallFrame 0 1 1 [])).bytes ((etherOf (rxHall (hallFrame 0 1 1 [])).bytes).2 + 2 + 4) 2 % 4096 = (dHall
        (hallFrame 0 1 1 [])).devId
    ∧ (beAt (rxHall (hallFrame 0 1 1 [])).bytes ((etherOf (rxHall (hallFrame 0 1 1 [])).bytes).2 + 2) 1 = 1 ∧ (etherOf
        (rxHall (hallFrame 0 1 1 [])).bytes).2 + 2 + 22 ≤ (rxHall (hallFrame 0 1 1 [])).bytes.length ∧ beAt (rxHall (hallFrame
        0 1 1 [])).bytes ((etherOf (rxHall (hallFrame 0 1 1 [])).bytes).2 + 2 + 18) 2 ≤ (rxHall (hallFrame 0 1 1
        [])).bytes.length - ((etherOf (rxHall (hallFrame 0 1 1 [])).bytes).2 + 2 + 22) ∧ (beAt (rxHall (hallFrame 0 1 1
        [])).bytes ((etherOf (rxHall (hallFrame 0 1 1 [])).bytes).2 + 2 + 18) 2 = (rxHall (hallFrame 0 1 1 [])).bytes.length -
        ((etherOf (rxHall (hallFrame 0 1 1 [])).bytes).2 + 2 + 22) ∨ (rxHall (hallFrame 0 1 1 [])).bytes.length ≤ 60))
    ∧ ((dHall (hallFrame 0 1 1 [])).hallPair (beAt (rxHall (hallFrame 0 1 1 [])).bytes ((etherOf (rxHall (hallFrame 0 1 1
        [])).bytes).2 + 2 + 2) 2 % 4096)).waiting = []
    ∧ beAt (rxHall (hallFrame 0 1 1 [])).bytes ((etherOf (rxHall (hallFrame 0 1 1 [])).bytes).2 + 2 + 18) 2 = 0
    -- HALL_FRAME_RECEIVE
    ∧ (T (dHall (hallFrame 0 1 7 hallOp)
        [{ dev := 1, next := 4, unacked := [], waiting := [], ack := 5, beyond := [7] : HallPair }])).Running
    ∧ (dHall (hallFrame 0 1 7 hallOp)
        [{ dev := 1, next := 4, unacked := [], waiting := [], ack := 5, beyond := [7] : HallPair }]).regionStopped 20 = false
    ∧ (dHall (hallFrame 0 1 7 hallOp)
        [{ dev := 1, next := 4, unacked := [], waiting := [], ack := 5, beyond := [7] : HallPair }]).port.hallRx = [rxHall
        (hallFrame 0 1 7 hallOp)]
    ∧ beAt (rxHall (hallFrame 0 1 7 hallOp)).bytes ((etherOf (rxHall (hallFrame 0 1 7 hallOp)).bytes).2 + 2 + 4) 2 % 4096 =
        (dHall (hallFrame 0 1 7 hallOp)
        [{ dev := 1, next := 4, unacked := [], waiting := [], ack := 5, beyond := [7] : HallPair }]).devId
    ∧ (beAt (rxHall (hallFrame 0 1 7 hallOp)).bytes ((etherOf (rxHall (hallFrame 0 1 7 hallOp)).bytes).2 + 2) 1 = 1 ∧
        (etherOf (rxHall (hallFrame 0 1 7 hallOp)).bytes).2 + 2 + 22 ≤ (rxHall (hallFrame 0 1 7 hallOp)).bytes.length ∧ beAt
        (rxHall (hallFrame 0 1 7 hallOp)).bytes ((etherOf (rxHall (hallFrame 0 1 7 hallOp)).bytes).2 + 2 + 18) 2 ≤ (rxHall
        (hallFrame 0 1 7 hallOp)).bytes.length - ((etherOf (rxHall (hallFrame 0 1 7 hallOp)).bytes).2 + 2 + 22) ∧ (beAt
        (rxHall (hallFrame 0 1 7 hallOp)).bytes ((etherOf (rxHall (hallFrame 0 1 7 hallOp)).bytes).2 + 2 + 18) 2 = (rxHall
        (hallFrame 0 1 7 hallOp)).bytes.length - ((etherOf (rxHall (hallFrame 0 1 7 hallOp)).bytes).2 + 2 + 22) ∨ (rxHall
        (hallFrame 0 1 7 hallOp)).bytes.length ≤ 60))
    ∧ ((dHall (hallFrame 0 1 7 hallOp)
        [{ dev := 1, next := 4, unacked := [], waiting := [], ack := 5, beyond := [7] : HallPair }]).hallPair (beAt (rxHall
        (hallFrame 0 1 7 hallOp)).bytes ((etherOf (rxHall (hallFrame 0 1 7 hallOp)).bytes).2 + 2 + 2) 2 % 4096)).waiting = []
    ∧ beAt (rxHall (hallFrame 0 1 7 hallOp)).bytes ((etherOf (rxHall (hallFrame 0 1 7 hallOp)).bytes).2 + 2 + 18) 2 ≠ 0
    ∧ (beAt (rxHall (hallFrame 0 1 7 hallOp)).bytes ((etherOf (rxHall (hallFrame 0 1 7 hallOp)).bytes).2 + 2 + 6) 4 =
        ((dHall (hallFrame 0 1 7 hallOp)
        [{ dev := 1, next := 4, unacked := [], waiting := [], ack := 5, beyond := [7] : HallPair }]).hallPair (beAt (rxHall
        (hallFrame 0 1 7 hallOp)).bytes ((etherOf (rxHall (hallFrame 0 1 7 hallOp)).bytes).2 + 2 + 2) 2 % 4096)).ack ∨
        beforeMod 32 (beAt (rxHall (hallFrame 0 1 7 hallOp)).bytes ((etherOf (rxHall (hallFrame 0 1 7 hallOp)).bytes).2 + 2 +
        6) 4) ((dHall (hallFrame 0 1 7 hallOp)
        [{ dev := 1, next := 4, unacked := [], waiting := [], ack := 5, beyond := [7] : HallPair }]).hallPair (beAt (rxHall
        (hallFrame 0 1 7 hallOp)).bytes ((etherOf (rxHall (hallFrame 0 1 7 hallOp)).bytes).2 + 2 + 2) 2 % 4096)).ack = true ∨
        beAt (rxHall (hallFrame 0 1 7 hallOp)).bytes ((etherOf (rxHall (hallFrame 0 1 7 hallOp)).bytes).2 + 2 + 6) 4 ∈ ((dHall
        (hallFrame 0 1 7 hallOp)
        [{ dev := 1, next := 4, unacked := [], waiting := [], ack := 5, beyond := [7] : HallPair }]).hallPair (beAt (rxHall
        (hallFrame 0 1 7 hallOp)).bytes ((etherOf (rxHall (hallFrame 0 1 7 hallOp)).bytes).2 + 2 + 2) 2 % 4096)).beyond)
    -- HALL_FRAME_RECEIVE
    ∧ (T (dHall (hallFrame 0 1 6 hallOp)
        [{ dev := 1, next := 4, unacked := [], waiting := [], ack := 5, beyond := [7] : HallPair }])).Running
    ∧ (dHall (hallFrame 0 1 6 hallOp)
        [{ dev := 1, next := 4, unacked := [], waiting := [], ack := 5, beyond := [7] : HallPair }]).regionStopped 20 = false
    ∧ (dHall (hallFrame 0 1 6 hallOp)
        [{ dev := 1, next := 4, unacked := [], waiting := [], ack := 5, beyond := [7] : HallPair }]).port.hallRx = [rxHall
        (hallFrame 0 1 6 hallOp)]
    ∧ beAt (rxHall (hallFrame 0 1 6 hallOp)).bytes ((etherOf (rxHall (hallFrame 0 1 6 hallOp)).bytes).2 + 2 + 4) 2 % 4096 =
        (dHall (hallFrame 0 1 6 hallOp)
        [{ dev := 1, next := 4, unacked := [], waiting := [], ack := 5, beyond := [7] : HallPair }]).devId
    ∧ (beAt (rxHall (hallFrame 0 1 6 hallOp)).bytes ((etherOf (rxHall (hallFrame 0 1 6 hallOp)).bytes).2 + 2) 1 = 1 ∧
        (etherOf (rxHall (hallFrame 0 1 6 hallOp)).bytes).2 + 2 + 22 ≤ (rxHall (hallFrame 0 1 6 hallOp)).bytes.length ∧ beAt
        (rxHall (hallFrame 0 1 6 hallOp)).bytes ((etherOf (rxHall (hallFrame 0 1 6 hallOp)).bytes).2 + 2 + 18) 2 ≤ (rxHall
        (hallFrame 0 1 6 hallOp)).bytes.length - ((etherOf (rxHall (hallFrame 0 1 6 hallOp)).bytes).2 + 2 + 22) ∧ (beAt
        (rxHall (hallFrame 0 1 6 hallOp)).bytes ((etherOf (rxHall (hallFrame 0 1 6 hallOp)).bytes).2 + 2 + 18) 2 = (rxHall
        (hallFrame 0 1 6 hallOp)).bytes.length - ((etherOf (rxHall (hallFrame 0 1 6 hallOp)).bytes).2 + 2 + 22) ∨ (rxHall
        (hallFrame 0 1 6 hallOp)).bytes.length ≤ 60))
    ∧ ((dHall (hallFrame 0 1 6 hallOp)
        [{ dev := 1, next := 4, unacked := [], waiting := [], ack := 5, beyond := [7] : HallPair }]).hallPair (beAt (rxHall
        (hallFrame 0 1 6 hallOp)).bytes ((etherOf (rxHall (hallFrame 0 1 6 hallOp)).bytes).2 + 2 + 2) 2 % 4096)).waiting = []
    ∧ beAt (rxHall (hallFrame 0 1 6 hallOp)).bytes ((etherOf (rxHall (hallFrame 0 1 6 hallOp)).bytes).2 + 2 + 18) 2 ≠ 0
    ∧ (¬(beAt (rxHall (hallFrame 0 1 6 hallOp)).bytes ((etherOf (rxHall (hallFrame 0 1 6 hallOp)).bytes).2 + 2 + 6) 4 =
        ((dHall (hallFrame 0 1 6 hallOp)
        [{ dev := 1, next := 4, unacked := [], waiting := [], ack := 5, beyond := [7] : HallPair }]).hallPair (beAt (rxHall
        (hallFrame 0 1 6 hallOp)).bytes ((etherOf (rxHall (hallFrame 0 1 6 hallOp)).bytes).2 + 2 + 2) 2 % 4096)).ack ∨
        beforeMod 32 (beAt (rxHall (hallFrame 0 1 6 hallOp)).bytes ((etherOf (rxHall (hallFrame 0 1 6 hallOp)).bytes).2 + 2 +
        6) 4) ((dHall (hallFrame 0 1 6 hallOp)
        [{ dev := 1, next := 4, unacked := [], waiting := [], ack := 5, beyond := [7] : HallPair }]).hallPair (beAt (rxHall
        (hallFrame 0 1 6 hallOp)).bytes ((etherOf (rxHall (hallFrame 0 1 6 hallOp)).bytes).2 + 2 + 2) 2 % 4096)).ack = true ∨
        beAt (rxHall (hallFrame 0 1 6 hallOp)).bytes ((etherOf (rxHall (hallFrame 0 1 6 hallOp)).bytes).2 + 2 + 6) 4 ∈ ((dHall
        (hallFrame 0 1 6 hallOp)
        [{ dev := 1, next := 4, unacked := [], waiting := [], ack := 5, beyond := [7] : HallPair }]).hallPair (beAt (rxHall
        (hallFrame 0 1 6 hallOp)).bytes ((etherOf (rxHall (hallFrame 0 1 6 hallOp)).bytes).2 + 2 + 2) 2 % 4096)).beyond))
    -- HALL_FRAME_RECEIVE
    ∧ (T (dHall (hallFrame 0 1 1 []) [hallWaits])).Running
    ∧ (dHall (hallFrame 0 1 1 []) [hallWaits]).regionStopped 20 = false
    ∧ (dHall (hallFrame 0 1 1 []) [hallWaits]).port.hallRx = [rxHall (hallFrame 0 1 1 [])]
    ∧ beAt (rxHall (hallFrame 0 1 1 [])).bytes ((etherOf (rxHall (hallFrame 0 1 1 [])).bytes).2 + 2 + 4) 2 % 4096 = (dHall
        (hallFrame 0 1 1 []) [hallWaits]).devId
    ∧ ((dHall (hallFrame 0 1 1 []) [hallWaits]).hallPair (beAt (rxHall (hallFrame 0 1 1 [])).bytes ((etherOf (rxHall
        (hallFrame 0 1 1 [])).bytes).2 + 2 + 2) 2 % 4096)).waiting = [wait1]
    ∧ (List.filter (fun (u : HallSent) => !(decide (u.seq = beAt (rxHall (hallFrame 0 1 1 [])).bytes ((etherOf (rxHall
        (hallFrame 0 1 1 [])).bytes).2 + 2 + 10) 4) || beforeMod 32 u.seq (beAt (rxHall (hallFrame 0 1 1 [])).bytes ((etherOf
        (rxHall (hallFrame 0 1 1 [])).bytes).2 + 2 + 10) 4) || decide ((u.seq + 2 ^ 32 - (beAt (rxHall (hallFrame 0 1 1
        [])).bytes ((etherOf (rxHall (hallFrame 0 1 1 [])).bytes).2 + 2 + 10) 4 + 1)) % 2 ^ 32 < 32) && (beAt (rxHall
        (hallFrame 0 1 1 [])).bytes ((etherOf (rxHall (hallFrame 0 1 1 [])).bytes).2 + 2 + 14) 4).testBit ((u.seq + 2 ^ 32 -
        (beAt (rxHall (hallFrame 0 1 1 [])).bytes ((etherOf (rxHall (hallFrame 0 1 1 [])).bytes).2 + 2 + 10) 4 + 1)) % 2 ^
        32))) ((dHall (hallFrame 0 1 1 []) [hallWaits]).hallPair (beAt (rxHall (hallFrame 0 1 1 [])).bytes ((etherOf (rxHall
        (hallFrame 0 1 1 [])).bytes).2 + 2 + 2) 2 % 4096)).unacked).length < 64
    ∧ wait1.mark = none
    ∧ (T (dUnacked 7)).Running
    ∧ (dUnacked 7).regionStopped 20 = false
    ∧ List.find? (fun (u : HallSent) => decide (u.seq = 3)) ((dUnacked 7).hallPair 1).unacked = none
    -- HALL_RETRANSMIT
    ∧ List.find? (fun (u : HallSent) => decide (u.seq = 2)) ((dUnacked 7).hallPair 1).unacked = some (unacked 7)
    ∧ (unacked 7).resends < 8
    -- HALL_RETRANSMIT
    ∧ (T (dUnacked 8)).Running
    ∧ (dUnacked 8).regionStopped 20 = false
    ∧ List.find? (fun (u : HallSent) => decide (u.seq = 2)) ((dUnacked 8).hallPair 1).unacked = some (unacked 8)
    ∧ 8 ≤ (unacked 8).resends
    ∧ (dUnacked 8).fab.held = []
    ∧ (T (dFab true)).Running
    ∧ (dFab true).regionStopped 24 = false
    ∧ List.filter (fun (e : MemEvent) => !(dFab true).inRetired e.addr) [] = []
    -- PATROL_SCRUB
    ∧ (dFab true).channelOf 4096 = some 4
    ∧ (dFab true).chanRetired 4 = false
    -- REFRESH_DOUBLE
    ∧ (dFab true).regionStopped (24 + 1) = false := by
  refine ⟨?_, ?_, ?_, ?_, ?_, ?_, ?_, ?_, ?_, ?_, ?_, ?_, ?_, ?_, ?_, ?_, ?_, ?_, ?_, ?_, ?_, ?_, ?_, ?_, ?_, ?_, ?_, ?_, ?_, ?_,
    ?_, ?_, ?_, ?_, ?_, ?_, ?_, ?_, ?_, ?_, ?_, ?_, ?_, ?_, ?_, ?_, ?_, ?_, ?_, ?_, ?_, ?_, ?_, ?_, ?_, ?_, ?_, ?_, ?_⟩ <;> decide +kernel

/-- Addresses of DRAM lie in no cluster memory (`Obligations.HallPathAndScrub`). -/
theorem witness_HallPathAndScrub_region :
    (∀ c, (dFab true).region 8192 ≠ .cluster c) ∧ ∀ c, (dFab true).region 4096 ≠ .cluster c := by
  have h : (dFab true).region 8192 = .general ∧ (dFab true).region 4096 = .general := by decide +kernel
  simp [h]

/-- States and operands that meet the hypotheses of each clause of `Obligations.LoupeRecords`. -/
theorem witness_LoupeRecords :
    -- EPOCH
    (T dL).Running
    ∧ (∀ r ∈ dL.lpe.staging, r.length = 32)
    ∧ dL.regionStopped 23 = false
    ∧ dL.on R.LPE_CFG_SAMPLE_EN = false
    -- SAMPLE_CAPTURE
    ∧ (T (dL.put R.LPE_CFG_SAMPLE_EN 1)).Running
    ∧ (∀ r ∈ (dL.put R.LPE_CFG_SAMPLE_EN 1).lpe.staging, r.length = 32)
    ∧ (dL.put R.LPE_CFG_SAMPLE_EN 1).regionStopped 23 = false
    ∧ (dL.put R.LPE_CFG_SAMPLE_EN 1).on R.LPE_CFG_SAMPLE_EN = true
    ∧ (dL.watchRun 63).due = none
    -- WATCH_FIRE
    ∧ (T (dWatch { pubs := 3, due := some pub0, reading := none : WatchRun } 1)).Running
    ∧ (∀ r ∈ (dWatch { pubs := 3, due := some pub0, reading := none : WatchRun } 1).lpe.staging, r.length = 32)
    ∧ (dWatch { pubs := 3, due := some pub0, reading := none : WatchRun } 1).regionStopped 23 = false
    ∧ ((dWatch { pubs := 3, due := some pub0, reading := none : WatchRun } 1).watchRun 0).due = some pub0
    ∧ (dL.watchRun 63).reading = none
    -- WATCH_READ_END
    ∧ (T (dWatch { pubs := 3, due := none, reading := some read0 : WatchRun } 1)).Running
    ∧ (∀ r ∈ (dWatch { pubs := 3, due := none, reading := some read0 : WatchRun } 1).lpe.staging, r.length = 32)
    ∧ (dWatch { pubs := 3, due := none, reading := some read0 : WatchRun } 1).regionStopped 23 = false
    ∧ ((dWatch { pubs := 3, due := none, reading := some read0 : WatchRun } 1).watchRun 0).reading = some read0
    -- REGION_STOP
    ∧ (dL.regionStopped 16 = false ∧ (16 ≤ 16 ∨ 16 = 19) ∧ (false = true → dL.mayGate 16 = true))
    ∧ (¬(dL.regionStopped 17 = false ∧ (17 ≤ 16 ∨ 17 = 19) ∧ (false = true → dL.mayGate 17 = true)))
    -- REGION_RESUMED
    ∧ (T (dL.put (R.LPE_REGION_STAT_STOPPED 3) 1)).Running
    ∧ (∀ r ∈ (dL.put (R.LPE_REGION_STAT_STOPPED 3) 1).lpe.staging, r.length = 32)
    ∧ ((dL.put (R.LPE_REGION_STAT_STOPPED 3) 1).regionStopped 3 = true ∧ (dL.put (R.LPE_REGION_STAT_STOPPED 3) 1).clockLost
        3 = false)
    ∧ (¬(dL.regionStopped 16 = true ∧ dL.clockLost 16 = false))
    ∧ (T (dPps (some 100001201) none)).Running
    ∧ (∀ r ∈ (dPps (some 100001201) none).lpe.staging, r.length = 32)
    ∧ (dPps (some 100001201) none).sup.ppsIn = some 100001201
    ∧ (dPps (some 100001201) none).clockNs < 100001201 + 900000000
    -- PPS_IN_EDGE
    ∧ (T (dPps (some 100001200) none)).Running
    ∧ (∀ r ∈ (dPps (some 100001200) none).lpe.staging, r.length = 32)
    ∧ (∀ t ∈ (dPps (some 100001200) none).sup.ppsIn, t + 900000000 ≤ (dPps (some 100001200) none).clockNs)
    -- HOLDOVER
    ∧ (T (dPps none (some 4))).Running
    ∧ (∀ r ∈ (dPps none (some 4)).lpe.staging, r.length = 32)
    ∧ (dPps none (some 4)).lpe.servo.heardNs = some 4
    ∧ (dPps none (some 4)).get R.LPE_TIME_CFG_SOURCE ≠ 0
    ∧ (dPps none (some 4)).on R.LPE_TIME_STAT_HOLDOVER = false
    ∧ (T (dPps none none)).Running
    ∧ (∀ r ∈ (dPps none none).lpe.staging, r.length = 32)
    ∧ ((dPps none none).lpe.servo.heardNs = none ∨ (dPps none none).get R.LPE_TIME_CFG_SOURCE = 0 ∨ (dPps none none).on
        R.LPE_TIME_STAT_HOLDOVER = true) := by
  refine ⟨?_, ?_, ?_, ?_, ?_, ?_, ?_, ?_, ?_, ?_, ?_, ?_, ?_, ?_, ?_, ?_, ?_, ?_, ?_, ?_, ?_, ?_, ?_, ?_, ?_, ?_, ?_, ?_, ?_, ?_,
    ?_, ?_, ?_, ?_, ?_, ?_, ?_, ?_, ?_⟩ <;> decide +kernel

/-- States and operands that meet the hypotheses of each clause of `Obligations.HealthAndLifeRecords`. -/
theorem witness_HealthAndLifeRecords :
    (T dL).Running
    ∧ (∀ r ∈ dL.lpe.staging, r.length = 32)
    ∧ dL.regionStopped 23 = false
    ∧ List.find? (fun (a : HealthAcc) => decide (a.event = 5) && decide (a.inst = 2) && a.count != 0) dL.lpe.healthAcc = none
    -- HEALTH_ENTRY
    ∧ (T (dAcc (some 7))).Running
    ∧ (∀ r ∈ (dAcc (some 7)).lpe.staging, r.length = 32)
    ∧ (dAcc (some 7)).regionStopped 23 = false
    ∧ List.find? (fun (a : HealthAcc) => decide (a.event = 5) && decide (a.inst = 2) && a.count != 0) (dAcc (some
        7)).lpe.healthAcc = some (acc0 (some 7))
    -- DAILY_LIFE_ENTRIES
    ∧ dL.regionStopped 21 = false
    ∧ (dL.lpe.lifePend ++ List.map (fun (m : DailyMeasure) => record m.kind.toNat 0 m.source.toNat dL.ns m.body)
        (List.filter (fun (m : DailyMeasure) => dailyKind m.kind.toNat)
        [{ kind := 32, source := 1, body := zeros 16 : DailyMeasure }]) ++ List.map (fun (c : ℕ × ℕ) => if 2 ^ 40 ≤ c.1 then
        record 37 0 (c.1 % 2 ^ 32 / 32) dL.ns (leBytes 1 (c.1 % 2 ^ 32 % 32) ++ zeros 5 ++ leBytes 8 c.2) else if c.1 / 2 ^ 32
        = 17 then record 41 0 (c.1 % 2 ^ 32) dL.ns (zeros 6 ++ leBytes 8 c.2) else record 46 0 (c.1 / 2 ^ 32) dL.ns (zeros 2
        ++ leBytes 4 (c.1 % 2 ^ 32) ++ leBytes 8 c.2)) dL.lpe.dayCounts).length < 2048
    -- DAILY_LIFE_ENTRIES
    ∧ dL.lpe.lifePend.length < 2048
    -- RETENTION_SCAN
    ∧ (dL.lpe.lifePend ++ List.map (fun (m : Fin 512 × Word32) => record 38 0 (↑m.1) dL.ns (zeros 2 ++ leBytes 4
        (BitVec.toNat m.2))) [(0, 7), (511, 9)]).length < 2048
    ∧ (T dCopyBusy).Running
    ∧ (∀ r ∈ dCopyBusy.lpe.staging, r.length = 32)
    ∧ dCopyBusy.regionStopped 21 = false
    ∧ dCopyBusy.lpe.lifePend = []
    -- LIFE_BATCH_CLOSE
    ∧ (T dLifePend).Running
    ∧ (∀ r ∈ dLifePend.lpe.staging, r.length = 32)
    ∧ dLifePend.regionStopped 21 = false
    ∧ dLifePend.lpe.lifePend ≠ []
    ∧ dLifePend.nvmStopped = false
    ∧ dLifePend.lpe.copyBusy = false
    -- STANDING_COPY_WRITE_DONE
    ∧ dCopyBusy.nvmStopped = false
    ∧ dCopyBusy.lpe.copyBusy = true := by
  refine ⟨?_, ?_, ?_, ?_, ?_, ?_, ?_, ?_, ?_, ?_, ?_, ?_, ?_, ?_, ?_, ?_, ?_, ?_, ?_, ?_, ?_, ?_, ?_, ?_⟩ <;> decide +kernel

/-- States and operands that meet the hypotheses of each clause of `Obligations.ExportsPullsSteps`. -/
theorem witness_ExportsPullsSteps :
    (T dL).Running
    ∧ dL.regionStopped 23 = false
    ∧ (dL.lpe.staging = [] ∧ (∀ n ∈ dL.lpe.lost, n = 0) ∧ dL.fab.poison = [] ∧ dL.sup.heldTiers = [])
    ∧ (dL.jrn.exportPos = dL.get R.JRN_STAT_HEAD ∧ dL.get R.JRN_STAT_OLDEST ≤ dL.get R.JRN_STAT_HEAD)
    ∧ (¬(dL.on R.LPE_CFG_EXPORT_EN = true ∧ dL.on R.CFG_BOOT_NO_IMAGE = false))
    -- EXPORT_FRAME_SEND
    ∧ (T dExp).Running
    ∧ dExp.regionStopped 23 = false
    ∧ (dExp.lpe.staging = [] ∧ (∀ n ∈ dExp.lpe.lost, n = 0) ∧ dExp.fab.poison = [] ∧ dExp.sup.heldTiers = [])
    ∧ (dExp.jrn.exportPos = dExp.get R.JRN_STAT_HEAD ∧ dExp.get R.JRN_STAT_OLDEST ≤ dExp.get R.JRN_STAT_HEAD)
    ∧ (dExp.on R.LPE_CFG_EXPORT_EN = true ∧ dExp.on R.CFG_BOOT_NO_IMAGE = false)
    ∧ dExp.lpe.exportPos.length = 2
    ∧ dExp.lpe.exportSeq.length = 2
    ∧ dExp.regionStopped 21 = false
    ∧ dExp.get R.LCS_STAT_STATE < 4
    ∧ (Instr.tracePull (pull 0 257 0), 64, [0, 2, 3]) ∈ [(Instr.tracePull (pull 0 257 0), 64, [0, 2, 3]), (Instr.counterPull
        (pull 0 257 0), 65, [1])]
    ∧ dExp.ctl.queue = []
    ∧ (¬((pull 0 257 0).length = 16 ∧ beAt (pull 0 257 0) 0 1 ∈ [0, 2, 3] ∧ 1 ≤ beAt (pull 0 257 0) 2 2 ∧ beAt (pull 0 257
        0) 2 2 ≤ 256 ∧ beAt (pull 0 257 0) 8 8 % 32 = 0))
    ∧ (Instr.counterPull (pull 1 256 0), 65, [1]) ∈ [(Instr.tracePull (pull 1 256 0), 64, [0, 2, 3]), (Instr.counterPull
        (pull 1 256 0), 65, [1])]
    ∧ ((pull 1 256 0).length = 16 ∧ beAt (pull 1 256 0) 0 1 ∈ [1] ∧ 1 ≤ beAt (pull 1 256 0) 2 2 ∧ beAt (pull 1 256 0) 2 2 ≤
        256 ∧ beAt (pull 1 256 0) 8 8 % 32 = 0)
    ∧ beAt (pull 1 256 0) 0 1 ≤ 1
    ∧ (Instr.tracePull (pull 2 1 0), 64, [0, 2, 3]) ∈ [(Instr.tracePull (pull 2 1 0), 64, [0, 2, 3]), (Instr.counterPull
        (pull 2 1 0), 65, [1])]
    ∧ ((pull 2 1 0).length = 16 ∧ beAt (pull 2 1 0) 0 1 ∈ [0, 2, 3] ∧ 1 ≤ beAt (pull 2 1 0) 2 2 ∧ beAt (pull 2 1 0) 2 2 ≤
        256 ∧ beAt (pull 2 1 0) 8 8 % 32 = 0)
    ∧ beAt (pull 2 1 0) 0 1 = 2
    ∧ (Instr.tracePull (pull 3 1 0), 64, [0, 2, 3]) ∈ [(Instr.tracePull (pull 3 1 0), 64, [0, 2, 3]), (Instr.counterPull
        (pull 3 1 0), 65, [1])]
    ∧ ((pull 3 1 0).length = 16 ∧ beAt (pull 3 1 0) 0 1 ∈ [0, 2, 3] ∧ 1 ≤ beAt (pull 3 1 0) 2 2 ∧ beAt (pull 3 1 0) 2 2 ≤
        256 ∧ beAt (pull 3 1 0) 8 8 % 32 = 0)
    ∧ beAt (pull 3 1 0) 0 1 = 3
    -- STEP_MODE
    ∧ dExp.get R.LCS_STAT_STATE = 2
    ∧ (zeros 15).length ≠ 16
    -- STEP_MODE
    ∧ (stepReq 0 1 0 0).length = 16
    ∧ dExp.get (R.SYN_CTX_STAT_STATE (beAt (stepReq 0 1 0 0) 0 1)) = 0
    -- STEP_MODE
    ∧ (T dStepping).Running
    ∧ dStepping.regionStopped 21 = false
    ∧ dStepping.get R.LCS_STAT_STATE = 2
    ∧ dStepping.ctl.queue = []
    ∧ (stepReq 0 0 0 7).length = 16
    ∧ dStepping.get (R.SYN_CTX_STAT_STATE (beAt (stepReq 0 0 0 7) 0 1)) ≠ 0
    ∧ (¬(beAt (stepReq 0 0 0 7) 1 1 < 2 ∧ ∀ b ∈ List.drop 2 (stepReq 0 0 0 7), b = 0))
    -- STEP_MODE
    ∧ (T (dExp.put (R.SYN_CTX_STAT_STATE 0) 2)).Running
    ∧ (dExp.put (R.SYN_CTX_STAT_STATE 0) 2).regionStopped 21 = false
    ∧ (dExp.put (R.SYN_CTX_STAT_STATE 0) 2).get R.LCS_STAT_STATE = 2
    ∧ (dExp.put (R.SYN_CTX_STAT_STATE 0) 2).ctl.queue = []
    ∧ beAt (stepReq 0 1 0 0) 1 1 = 1
    ∧ (∀ b ∈ List.drop 2 (stepReq 0 1 0 0), b = 0)
    ∧ (dExp.put (R.SYN_CTX_STAT_STATE 0) 2).faulted (beAt (stepReq 0 1 0 0) 0 1) = true
    -- STEP_MODE
    ∧ (T (dExp.put (R.SYN_CTX_STAT_STATE 0) 1)).Running
    ∧ (dExp.put (R.SYN_CTX_STAT_STATE 0) 1).regionStopped 21 = false
    ∧ (dExp.put (R.SYN_CTX_STAT_STATE 0) 1).get R.LCS_STAT_STATE = 2
    ∧ (dExp.put (R.SYN_CTX_STAT_STATE 0) 1).ctl.queue = []
    ∧ (dExp.put (R.SYN_CTX_STAT_STATE 0) 1).get (R.SYN_CTX_STAT_STATE (beAt (stepReq 0 1 0 0) 0 1)) ≠ 0
    ∧ beAt (stepReq 0 1 0 0) 1 1 < 2
    ∧ (beAt (stepReq 0 1 0 0) 1 1 = 1 → (dExp.put (R.SYN_CTX_STAT_STATE 0) 1).faulted (beAt (stepReq 0 1 0 0) 0 1) = false)
    -- STEP
    ∧ (¬((zeros 15).length = 16 ∧ dExp.stepping (beAt (zeros 15) 0 1) = true ∧ beAt (zeros 15) 1 1 = 0 ∧ beAt (zeros 15) 2 2
        ≠ 0 ∧ ∀ b ∈ List.drop 6 (zeros 15), b = 0))
    -- STEP
    ∧ (T (dStepRun srun0)).Running
    ∧ (dStepRun srun0).regionStopped 21 = false
    ∧ (dStepRun srun0).get R.LCS_STAT_STATE = 2
    ∧ (dStepRun srun0).ctl.queue = []
    ∧ ((stepReq 0 0 1 7).length = 16 ∧ (dStepRun srun0).stepping (beAt (stepReq 0 0 1 7) 0 1) = true ∧ beAt (stepReq 0 0 1
        7) 1 1 = 0 ∧ beAt (stepReq 0 0 1 7) 2 2 ≠ 0 ∧ ∀ b ∈ List.drop 6 (stepReq 0 0 1 7), b = 0)
    ∧ ((dStepRun srun0).faulted (beAt (stepReq 0 0 1 7) 0 1) = true ∨ ∃ x ∈ (dStepRun srun0).lpe.steps, x.context = beAt
        (stepReq 0 0 1 7) 0 1)
    -- STEP
    ∧ (T dBatchDone).Running
    ∧ dBatchDone.regionStopped 21 = false
    ∧ dBatchDone.get R.LCS_STAT_STATE = 2
    ∧ dBatchDone.ctl.queue = []
    ∧ ((stepReq 0 0 1 7).length = 16 ∧ dBatchDone.stepping (beAt (stepReq 0 0 1 7) 0 1) = true ∧ beAt (stepReq 0 0 1 7) 1 1
        = 0 ∧ beAt (stepReq 0 0 1 7) 2 2 ≠ 0 ∧ ∀ b ∈ List.drop 6 (stepReq 0 0 1 7), b = 0)
    ∧ (¬(dBatchDone.faulted (beAt (stepReq 0 0 1 7) 0 1) = true ∨ ∃ x ∈ dBatchDone.lpe.steps, x.context = beAt (stepReq 0 0
        1 7) 0 1))
    ∧ (∃ (b : StepBatch), dBatchDone.lpe.stepBatches.find (beAt (stepReq 0 0 1 7) 0 1) = some b ∧ b.finished = true)
    -- STEP
    ∧ ((stepReq 0 0 65535 65535).length = 16 ∧ dStepping.stepping (beAt (stepReq 0 0 65535 65535) 0 1) = true ∧ beAt
        (stepReq 0 0 65535 65535) 1 1 = 0 ∧ beAt (stepReq 0 0 65535 65535) 2 2 ≠ 0 ∧ ∀ b ∈ List.drop 6 (stepReq 0 0 65535
        65535), b = 0)
    ∧ (¬(dStepping.faulted (beAt (stepReq 0 0 65535 65535) 0 1) = true ∨ ∃ x ∈ dStepping.lpe.steps, x.context = beAt
        (stepReq 0 0 65535 65535) 0 1))
    ∧ (¬∃ (b : StepBatch), dStepping.lpe.stepBatches.find (beAt (stepReq 0 0 65535 65535) 0 1) = some b ∧ b.finished = true)
    ∧ dStepping.regionStopped 23 = false
    ∧ (∀ x ∈ dStepping.lpe.steps, x.context ≠ 0)
    ∧ (T dStepProg).Running
    ∧ dStepProg.regionStopped 23 = false
    ∧ dStepProg.lpe.steps = [] ++ [srun0]
    ∧ srun0.context = 0
    ∧ (¬(dStepProg.stepRuns srun0 = false ∧ (true = true ∨ dStepProg.stepHalts srun0 = true ∨ 0 ≠ 0 ∨ 0 ≠ 0)))
    -- STEP_DONE
    ∧ (T (dStepRun srunNew)).Running
    ∧ (dStepRun srunNew).regionStopped 23 = false
    ∧ (dStepRun srunNew).lpe.steps = [] ++ [srunNew]
    ∧ srunNew.context = 0
    ∧ ((dStepRun srunNew).stepRuns srunNew = false ∧ (true = true ∨ (dStepRun srunNew).stepHalts srunNew = true ∨ 1 ≠ 0 ∨ 1
        ≠ 0))
    ∧ (dStepRun srunNew).ctl.queue = [] := by
  refine ⟨?_, ?_, ?_, ?_, ?_, ?_, ?_, ?_, ?_, ?_, ?_, ?_, ?_, ?_, ?_, ?_, ?_, ?_, ?_, ?_, ?_, ?_, ?_, ?_, ?_, ?_, ?_, ?_, ?_, ?_,
    ?_, ?_, ?_, ?_, ?_, ?_, ?_, ?_, ?_, ?_, ?_, ?_, ?_, ?_, ?_, ?_, ?_, ?_, ?_, ?_, ?_, ?_, ?_, ?_, ?_, ?_, ?_, ?_, ?_, ?_,
    ?_, ?_, ?_, ?_, ?_, ?_, ?_, ?_, ?_, ?_, ?_, ?_, ?_, ?_, ?_, ?_, ?_, ?_, ?_, ?_, ?_⟩ <;> decide +kernel

/-- States and operands that meet the hypotheses of each clause of `Obligations.AttestationAndLifecycle`. -/
theorem witness_AttestationAndLifecycle :
    -- QUOTE
    (T ((dLife 2).put (R.SEC_KEY_NEXT 1) (2 ^ 40))).Running
    ∧ ((dLife 2).put (R.SEC_KEY_NEXT 1) (2 ^ 40)).secStopped = false
    ∧ ((dLife 2).put (R.SEC_KEY_NEXT 1) (2 ^ 40)).ctl.queue = []
    ∧ (((dLife 2).put (R.SEC_KEY_NEXT 1) (2 ^ 40)).get R.LCS_STAT_STORED = 0 ∨ 2 ^ 40 ≤ ((dLife 2).put (R.SEC_KEY_NEXT 1) (2
        ^ 40)).get (R.SEC_KEY_NEXT 1))
    -- QUOTE
    ∧ (T (dLife 2)).Running
    ∧ (dLife 2).secStopped = false
    ∧ (dLife 2).ctl.queue = []
    ∧ (dLife 2).get R.LCS_STAT_STORED ≠ 0
    ∧ (dLife 2).get (R.SEC_KEY_NEXT 1) < 2 ^ 40
    -- FETCH
    ∧ (T dev0).Running
    ∧ dev0.secStopped = false
    ∧ dev0.ctl.queue = []
    ∧ dev0.get R.LCS_STAT_STORED = 0
    -- FETCH
    ∧ (List.find? (fun (x : Quote) => decide (x.seq = 5)) (dLife 2).sec.quotes = none ∨ 9892 < 9893)
    -- FETCH
    ∧ (T dQuoted).Running
    ∧ dQuoted.secStopped = false
    ∧ dQuoted.ctl.queue = []
    ∧ dQuoted.get R.LCS_STAT_STORED ≠ 0
    ∧ List.find? (fun (x : Quote) => decide (x.seq = 5)) dQuoted.sec.quotes = some { seq := 5, signature := [1] : Quote }
    ∧ 9892 ≤ 9892
    -- CERT
    ∧ (T dIdKey).Running
    ∧ dIdKey.secStopped = false
    ∧ dIdKey.ctl.queue = []
    ∧ dIdKey.get R.LCS_STAT_STORED ≠ 0
    ∧ dIdKey.nvm.idKey = true
    -- CERT
    ∧ (dLife 2).nvm.idKey = false
    -- CERT
    ∧ (T dCert).Running
    ∧ dCert.secStopped = false
    ∧ dCert.ctl.queue = []
    ∧ dCert.get R.LCS_STAT_STORED ≠ 0
    ∧ 1 ≠ 0
    ∧ (if 1 ≤ 2 then List.find? (fun (c : Cert) => decide (c.kind = 1)) dCert.nvm.certs else if 256 ≤ 1 then List.find? (fun (c : Cert) => decide (c.seq = 1 - 256)) dCert.nvm.certs else none)
        = some { seq := 7, kind := 1, bytes := [1, 2] : Cert }
    -- CERT
    ∧ 263 ≠ 0
    ∧ (if 263 ≤ 2 then List.find? (fun (c : Cert) => decide (c.kind = 263)) dCert.nvm.certs else if 256 ≤ 263 then List.find? (fun (c : Cert) => decide (c.seq = 263 - 256)) dCert.nvm.certs else none)
        = some { seq := 7, kind := 1, bytes := [1, 2] : Cert }
    -- CERT
    ∧ 256 ≠ 0
    ∧ (if 256 ≤ 2 then List.find? (fun (c : Cert) => decide (c.kind = 256)) (dLife 2).nvm.certs else if 256 ≤ 256 then List.find? (fun (c : Cert) => decide (c.seq = 256 - 256)) (dLife 2).nvm.certs else none)
        = none
    ∧ dev0.sec.challenge = none
    -- CHALLENGE_LAPSE
    ∧ (dLife 2).sec.challenge = some (List.replicate 32 7, 9)
    -- TRANSITION
    ∧ (if ¬((zeros 5).length = 2820 ∧ (1 = 1 ∨ 1 = 2)) then St.malformed else match transitionAuth (dLife 2).life.stored 3 with | none => St.lifecycle | some auths => if 1 ∉ auths ∨ 1 = 1 ∧ ((dLife 2).sec.ownerKey = none ∨ (dLife 2).sec.imageLoaded = false) then St.access else if (dLife 2).tokenOk 1 3 (zeros 5) = false then St.signature else if 3 = 1 ∧ (dLife 2).nvm.endorsement = [] ∨ 3 = 2 ∧ (dLife 2).goodSlot = false then St.denied else St.ok)
        ≠ St.ok
    -- REKEY
    ∧ (T (dLife 3)).Running
    ∧ (dLife 3).secStopped = false
    ∧ (dLife 3).ctl.queue = []
    ∧ (if ¬(((zeros 5).length = 2820 ∧ (1 = 1 ∨ 1 = 2)) ∧ 1 ≤ 1 ∧ 1 ≤ 3) then St.malformed else if (dLife 3).get R.LCS_STAT_STATE ≠ 3 then St.lifecycle else if 1 = 1 ∧ ((dLife 3).sec.ownerKey = none ∨ (dLife 3).sec.imageLoaded = false) then St.access else if (dLife 3).tokenOk 1 (128 + 1) (zeros 5) = false then St.signature else if 2 ^ 20 < (dLife 3).get (R.SEC_KEY_NEXT 0) + popCount 2 1 then St.denied else St.ok)
        ≠ St.ok := by
  refine ⟨?_, ?_, ?_, ?_, ?_, ?_, ?_, ?_, ?_, ?_, ?_, ?_, ?_, ?_, ?_, ?_, ?_, ?_, ?_, ?_, ?_, ?_, ?_, ?_, ?_, ?_, ?_, ?_, ?_, ?_,
    ?_, ?_, ?_, ?_, ?_, ?_, ?_, ?_, ?_, ?_, ?_, ?_, ?_⟩ <;> decide +kernel

/-- States, keys and tokens under which a transition and a `REKEY` are in order (`Obligations.AttestationAndLifecycle`). -/
theorem witness_AttestationAndLifecycle_accepted :
    (∃ key token, (T (dRoot 4 key)).Running ∧ (dRoot 4 key).secStopped = false ∧ (dRoot 4 key).ctl.queue = []
        ∧ token.length = 2820 ∧ (dRoot 4 key).tokenOk 2 5 token = true ∧ transitionAuth (dRoot 4 key).life.stored 5 = some [2])
      ∧ ∃ key token, (T (dRoot 3 key)).Running ∧ (dRoot 3 key).secStopped = false ∧ (dRoot 3 key).ctl.queue = []
        ∧ token.length = 2820 ∧ (dRoot 3 key).tokenOk 2 (128 + 1) token = true ∧ (dRoot 3 key).get R.LCS_STAT_STATE = 3
        ∧ (dRoot 3 key).get (R.SEC_KEY_NEXT 0) + popCount 2 1 ≤ 2 ^ 20 := by
  obtain ⟨key, token, h, hl⟩ := XmssSet.single_signs (shake256 (tokenBytes (List.replicate 32 7) 4 5))
  obtain ⟨key', token', h', hl'⟩ := XmssSet.single_signs (shake256 (tokenBytes (List.replicate 32 7) 3 (128 + 1)))
  exact ⟨⟨key, token, rfl, rfl, rfl, hl, h, rfl⟩, key', token', rfl, rfl, rfl, hl', h', (by decide +kernel : (dLife 3).get R.LCS_STAT_STATE = 3),
    (by decide +kernel : (dLife 3).get (R.SEC_KEY_NEXT 0) + popCount 2 1 ≤ 2 ^ 20)⟩

/-- States and operands that meet the hypotheses of each clause of `Obligations.SupplyMovesThePhase`. -/
theorem witness_SupplyMovesThePhase :
    -- VIN_CHANGE
    -300 < 10199
    ∧ 10199 < 14000
    ∧ (10199 < 10200 ∨ 13800 < 10199 ∧ (dSup Phase.running false).sup.phase ≠ Phase.shutDown)
    ∧ -300 < 13801
    ∧ 13801 < 14000
    ∧ (13801 < 10200 ∨ 13800 < 13801 ∧ (dSup Phase.running false).sup.phase ≠ Phase.shutDown)
    ∧ -300 < 13999
    ∧ 13999 < 14000
    ∧ 10200 ≤ 13999
    ∧ (dSup Phase.shutDown false).sup.phase = Phase.shutDown
    -- VIN_CHANGE
    ∧ -300 < 10800
    ∧ 10800 < 14000
    ∧ 10200 ≤ 10800
    ∧ 10800 ≤ 13800
    ∧ (dSup Phase.off false 0).sup.phase = Phase.off
    ∧ (10800 ≤ 10800 ∧ 10800 ≤ 13200 ∨ 13200 < 10800 ∧ (dSup Phase.off false 0).sup.vinRow ≠ 0)
    ∧ -300 < 10200
    ∧ 10200 < 14000
    ∧ 10200 ≤ 10200
    ∧ 10200 ≤ 13800
    ∧ (¬(10800 ≤ 10200 ∧ 10200 ≤ 13200 ∨ 13200 < 10200 ∧ (dSup Phase.off false 0).sup.vinRow ≠ 0))
    ∧ -300 < 13201
    ∧ 13201 < 14000
    ∧ 10200 ≤ 13201
    ∧ 13201 ≤ 13800
    ∧ (¬(10800 ≤ 13201 ∧ 13201 ≤ 13200 ∨ 13200 < 13201 ∧ (dSup Phase.off false 0).sup.vinRow ≠ 0))
    -- VIN_CHANGE
    ∧ (¬((dSup Phase.running false).sup.phase = Phase.off ∨ (dSup Phase.running false).sup.phase = Phase.shutDown))
    ∧ vinRowOf 13201 ≠ (dSup Phase.running false).sup.vinRow
    ∧ -300 < 13200
    ∧ 13200 < 14000
    ∧ 10200 ≤ 13200
    ∧ 13200 ≤ 13800
    ∧ vinRowOf 13200 = (dSup Phase.running false).sup.vinRow
    ∧ ((dSup Phase.shutDown false).sup.phase = Phase.off ∨ (dSup Phase.shutDown false).sup.phase = Phase.shutDown)
    -- COMPUTE_SUPPLY_FAULT
    ∧ (¬((dSup Phase.held true).sup.phase = Phase.off ∨ (dSup Phase.held true).sup.phase = Phase.shutDown))
    -- PLL_UNLOCK
    ∧ (T (dSup Phase.running false)).Running
    ∧ 13 ∉ (dSup Phase.running false).sup.unlocked
    ∧ (((dSup Phase.running false).sup.phase = Phase.off ∨ (dSup Phase.running false).sup.phase = Phase.shutDown) ∨ ¬∃ t ∈
        tWarm, (if ↑t.sensor < 64 then 920 else 840) ≤ t.eighths)
    -- THERMAL_SHUTDOWN
    ∧ (∃ t ∈ tHot, (if ↑t.sensor < 64 then 920 else 840) ≤ t.eighths)
    -- THERMAL_SHUTDOWN
    ∧ (∃ t ∈ tHotDram, (if ↑t.sensor < 64 then 920 else 840) ≤ t.eighths)
    ∧ (dSup Phase.held true).sup.resetLow = true
    ∧ (dSup Phase.off false).sup.resetLow = false
    ∧ (dSup Phase.off false).sup.phase = Phase.off
    -- RESET_N_ASSERT
    ∧ (dSup Phase.running false).sup.resetLow = false
    ∧ (dSup Phase.running false).sup.phase ≠ Phase.off
    ∧ (dSup Phase.held true).sup.phase = Phase.held
    ∧ (dSup Phase.running true).sup.resetLow = true
    ∧ (dSup Phase.running true).sup.phase ≠ Phase.held := by
  refine ⟨?_, ?_, ?_, ?_, ?_, ?_, ?_, ?_, ?_, ?_, ?_, ?_, ?_, ?_, ?_, ?_, ?_, ?_, ?_, ?_, ?_, ?_, ?_, ?_, ?_, ?_, ?_, ?_, ?_, ?_,
    ?_, ?_, ?_, ?_, ?_, ?_, ?_, ?_, ?_, ?_, ?_, ?_, ?_, ?_, ?_, ?_, ?_, ?_⟩ <;> decide +kernel

/-- States and operands that meet the hypotheses of each clause of `Obligations.PowerClocksJtag`. -/
theorem witness_PowerClocksJtag :
    -- POWER_LIMIT
    (T (dSup Phase.running false)).Running
    ∧ 14 ∉ (dSup Phase.running false).sup.unlocked
    -- PLL_UNLOCK
    ∧ hasPll 0 = true
    ∧ 0 ≠ 13
    ∧ 0 ∉ (dSup Phase.running false).sup.unlocked
    ∧ (hasPll 3 = false ∨ 3 ∈ (dSup Phase.running false).sup.unlocked)
    -- PLL_RELOCK
    ∧ 3 ∈ (dSup Phase.running false).sup.unlocked
    ∧ (dSup Phase.running false).on R.CLK_OUT_CFG_PPS_OUT_EN = false
    -- PPS_OUT_PULSE
    ∧ (T ((dSup Phase.running false).put R.CLK_OUT_CFG_PPS_OUT_EN 1)).Running
    ∧ ((dSup Phase.running false).put R.CLK_OUT_CFG_PPS_OUT_EN 1).on R.CLK_OUT_CFG_PPS_OUT_EN = true
    ∧ ((dSup Phase.off false).sup.phase = Phase.off ∨ (dSup Phase.off false).sup.phase = Phase.shutDown)
    ∧ Instr.dramRailFault 3 ∈ [Instr.extest 1, Instr.idcode, Instr.samplePreload 1, Instr.clamp, Instr.highz, Instr.bypass
        1, Instr.stageRead, Instr.nvmRead 1 1, Instr.nvmProgram 1 1 6, Instr.nvmErase 1 1, Instr.nvmAccessDone,
        Instr.trstNAssert, Instr.dramRailFault 3, Instr.dramRailReturn 3]
    -- DRAM_RAIL_FAULT
    ∧ (¬((dSup Phase.held true).sup.phase = Phase.off ∨ (dSup Phase.held true).sup.phase = Phase.shutDown))
    ∧ (Instr.extest 5, 0, (1 : Nat)) ∈ [(Instr.extest 5, 0, 1), (Instr.samplePreload 5, 2, 0)]
    ∧ (¬((dSup Phase.running false).sup.phase = Phase.off ∨ (dSup Phase.running false).sup.phase = Phase.shutDown))
    ∧ 5 ∉ [0, 1, 2, 3, 4, 32, 33]
    ∧ 32 ∈ [0, 1, 2, 3, 4, 32, 33]
    ∧ (dSup Phase.running false).sup.nvmOp = none
    ∧ (¬(dNvmOp.sup.phase = Phase.off ∨ dNvmOp.sup.phase = Phase.shutDown))
    ∧ dNvmOp.sup.nvmOp ≠ none
    ∧ ((dSup Phase.held true).sup.phase = Phase.held ∧ (dSup Phase.held true).sup.resetLow = true ∧ (dSup Phase.held
        true).life.stored ≠ 5 ∧ 1 < nvmWords 1)
    ∧ (¬((dSup Phase.running false).sup.phase = Phase.held ∧ (dSup Phase.running false).sup.resetLow = true ∧ (dSup
        Phase.running false).life.stored ≠ 5 ∧ 1 < nvmWords 1))
    ∧ Instr.nvmRead 1 1 ∈ [Instr.nvmRead 1 1, Instr.nvmProgram 1 1 6, Instr.nvmErase 1 1] := by
  refine ⟨?_, ?_, ?_, ?_, ?_, ?_, ?_, ?_, ?_, ?_, ?_, ?_, ?_, ?_, ?_, ?_, ?_, ?_, ?_, ?_, ?_, ?_, ?_⟩ <;> decide +kernel

/-- States and operands that meet the hypotheses of each clause of `Obligations.StartUpEnds`. -/
theorem witness_StartUpEnds :
    (dSup Phase.running false).sup.phase ≠ Phase.starting
    -- START_UP
    ∧ (dSup Phase.starting false).sup.phase = Phase.starting
    ∧ (dSup Phase.starting false).bootCopy = none := by
  decide +kernel

/-- The header of a boot copy without code under a root key. -/
def bootHead (key : List Byte) : List Byte := leBytes 4 0xCA05B007 ++ zeros 20 ++ (key ++ (zeros 4 ++ shake256 []))
/-- A device that starts with that copy and its signature in flash. -/
def dBootFlash (key sig : List Byte) : Dev :=
  nvm (dSup .starting false) fun n => { n with boot := flashOf 369 (bootHead key ++ (sig ++ zeros 4)) }

/-- With the vendor's root key and its signature the copy runs (`Obligations.StartUpEnds`): the digest in the ROM is a free value. -/
theorem witness_StartUpEnds_boots (key sig : List Byte) (hk : key.length = 68) (hr : shake256 key = Config.romRootDigest)
    (hs : XmssSet.single.verifies key (shake256 (bootHead key)) sig = true) (hl : sig.length = 2820) :
    (dBootFlash key sig).sup.phase = .starting ∧ (dBootFlash key sig).bootCopy = some 0 := by
  have hz (n : Nat) : (zeros n).length = n := List.length_replicate ..
  have h4 : (leBytes 4 0xCA05B007).length = 4 := rfl
  have hh : (bootHead key).length = 128 := by simp [bootHead, hk, hz, shake256_length, leBytes_length]
  have hb (o n : Nat) (h : o + n ≤ 128) : (dBootFlash key sig).bootBytes 0 o n = sub (bootHead key) o n := by
    rw [Dev.bootBytes, Nat.mul_zero, Nat.zero_add]
    show flashBytes (flashOf 369 _) o n = _
    rw [flashBytes_flashOf _ _ (by simp [hh, hl, hz]) _ _ (by simp [hh]; omega)]
    simp only [sub]
    rw [List.drop_append_of_le_length (by omega), List.take_append_of_le_length (by simp; omega)]
  have hsig : (dBootFlash key sig).bootBytes 0 128 2820 = sig := by
    show flashBytes (flashOf 369 _) 128 2820 = _
    rw [flashBytes_flashOf _ _ (by simp [hh, hl, hz]) _ _ (by simp [hh, hl, hz])]
    rw [sub, List.drop_left' hh, List.take_left' hl]
  have h0 : sub (bootHead key) 0 4 = leBytes 4 0xCA05B007 := rfl
  have h8 : sub (bootHead key) 8 2 = zeros 2 := rfl
  have h16 : sub (bootHead key) 16 8 = zeros 8 := rfl
  have h24 : sub (bootHead key) 24 68 = key := by
    rw [sub, bootHead, List.drop_left' (by simp [hz, leBytes_length]), List.take_left' hk]
  have h96 : sub (bootHead key) 96 32 = shake256 [] := by
    rw [sub, bootHead, ← List.append_assoc, ← List.append_assoc, List.drop_left' (by simp [hz, leBytes_length, hk]),
      List.take_of_length_le (by simp [shake256_length])]
  have ha : sub (bootHead key) 0 128 = bootHead key := by rw [sub, List.drop_zero, List.take_of_length_le (by omega)]
  have hn : leNat (zeros 8) = 0 ∧ leNat (leBytes 4 0xCA05B007) = 0xCA05B007 := by decide
  have hc : (dBootFlash key sig).bootBytes 0 128 0 = [] := by rw [hb 128 0 (by omega)]; simp [sub]
  refine ⟨rfl, ?_⟩
  have pass : (dBootFlash key sig).bootPasses 0 = true := by
    simp only [Dev.bootPasses, Dev.bootHeld, Dev.bootDigests, Dev.bootSigned, Dev.bootFresh, hb 0 4 (by omega), hb 16 8 (by omega),
      hb 24 68 (by omega), hb 96 32 (by omega), hb 8 2 (by omega), h0, h8, h16, h24, h96, hn, Nat.add_zero, hsig, hb 0 128 (by omega),
      ha, hc, hr, hs]
    rfl
  simp [Dev.bootCopy, pass]

/-- A state whose three stores are canonical and not empty (`Obligations.StoresStayCanonical`). -/
theorem witness_StoresStayCanonical :
    Sparse.wf resetWord (dDone (.core 0 0x2000)).regs = true ∧ Memory.wf (dDone (.core 0 0x2000)).fab.mem = true
      ∧ Memory.wf (dDone (.core 0 0x2000)).fab.core = true := by
  decide +kernel

/-- A step from it has a next state. -/
theorem witness_StoresStayCanonical_step : ∃ t, step ⟨dDone (.core 0 0x2000), [.pauseRepeat]⟩ = .next t := ⟨_, rfl⟩

end Sys2Proof.Tests
end

section
/-! The canonical form of the stores (O60). `Dev.Canon` is the invariant. There is one lemma for each of the model's operations
on a device, `Dev.Canon.f` for `Dev.f`, in the model's order: the operation keeps the invariant. Its proof follows the operation's
text: `h.put.bump` is the proof for `(d.put …).bump …`, `.ite` stands for an `if`, `.same` for an update of parts other than the
three stores. -/

namespace Sys2Proof.Machine

-- One proof after the other: together, that many short proofs ask for more threads than the check's memory limit allows.
set_option Elab.async false

/-! ### The invariant and the shapes of an operation -/

/-- The three stores of a device are in canonical form. -/
structure Dev.Canon (d : Dev) : Prop where
  /-- The register words. -/
  regs : Sparse.wf resetWord d.regs = true
  /-- The shared memory. -/
  mem : Memory.wf d.fab.mem = true
  /-- The core memories. -/
  core : Memory.wf d.fab.core = true

/-- Writes one after the other keep the canonical form. -/
theorem Sparse.wf_foldl_write {α : Type} [DecidableEq α] {f : Nat → α} {s : Sparse α} {ws : List (Nat × α)} (h : Sparse.wf f s = true) :
    Sparse.wf f (ws.foldl (fun s w => Sparse.write f s w.1 w.2) s) = true := by
  induction ws generalizing s with
  | nil => exact h
  | cons w ws ih => exact ih (Sparse.wf_write _ _ h)

/-- Entries other than the default, put one after the other, keep the canonical form. -/
theorem Sparse.wf_foldl_put {α : Type} [DecidableEq α] {f : Nat → α} {s : Sparse α} {ws : List (Nat × α)} (h : Sparse.wf f s = true)
    (hw : ∀ w ∈ ws, w.2 ≠ f w.1) : Sparse.wf f (ws.foldl (fun s w => Sparse.put s w.1 w.2) s) = true := by
  induction ws generalizing s with
  | nil => exact h
  | cons w ws ih =>
    exact ih (Sparse.wfFrom_put h (Nat.zero_le _) (hw w (by simp))) fun x hx => hw x (by simp [hx])

/-- A canonical store lists no default. -/
theorem Sparse.ne_dflt_of_wfFrom {α : Type} [DecidableEq α] {f : Nat → α} {lo : Nat} {s : Sparse α} (h : Sparse.wfFrom f lo s = true) :
    ∀ w ∈ s, w.2 ≠ f w.1 := by
  induction s generalizing lo with
  | nil => simp
  | cons x s ih =>
    simp only [Sparse.wfFrom, Bool.and_eq_true, decide_eq_true_eq] at h
    exact List.forall_mem_cons.2 ⟨h.1.2, ih h.2⟩

variable {d e : Dev}

/-- An update of other parts keeps the stores. -/
theorem Dev.Canon.same (h : d.Canon) {draws ns frac port front plan lens seq sync fab lpe ctl jrn nvm life sec sup}
    (hm : fab.mem = d.fab.mem := by rfl) (hc : fab.core = d.fab.core := by rfl) :
    (Dev.mk d.regs draws ns frac port front plan lens seq sync fab lpe ctl jrn nvm life sec sup).Canon :=
  ⟨h.regs, hm ▸ h.mem, hc ▸ h.core⟩

theorem Dev.canon_reset : Dev.reset.Canon := ⟨rfl, rfl, rfl⟩

theorem Dev.Canon.ite {c : Prop} [Decidable c] (hd : d.Canon) (he : e.Canon) : (if c then d else e).Canon := by
  split <;> assumption

theorem Dev.Canon.ite_fst {α : Type} {c : Prop} [Decidable c] {p q : Dev × α} (hp : p.1.Canon) (hq : q.1.Canon) :
    (if c then p else q).1.Canon := by
  split <;> assumption

theorem Dev.Canon.ite_snd {α : Type} {c : Prop} [Decidable c] {p q : α × Dev} (hp : p.2.Canon) (hq : q.2.Canon) :
    (if c then p else q).2.Canon := by
  split <;> assumption

theorem Dev.Canon.fst (h : d.Canon) {α : Type} {x : α} : (d, x).1.Canon := h

theorem Dev.Canon.snd (h : d.Canon) {α : Type} {x : α} : (x, d).2.Canon := h

theorem Dev.Canon.of_fst {α : Type} {p : Dev × α} {x : α} (h : p.1.Canon) (hp : p = (e, x)) : e.Canon := by
  rw [hp] at h; exact h

theorem Dev.Canon.of_snd {α : Type} {p : α × Dev} {x : α} (h : p.2.Canon) (hp : p = (x, e)) : e.Canon := by
  rw [hp] at h; exact h

theorem Dev.Canon.foldl {α : Type} {f : Dev → α → Dev} (h : d.Canon) (hf : ∀ {e x}, e.Canon → (f e x).Canon) {xs : List α} :
    (xs.foldl f d).Canon := by
  induction xs generalizing d with
  | nil => exact h
  | cons x xs ih => exact ih (hf h)

theorem Dev.Canon.foldl_fst {α β : Type} {f : Dev × β → α → Dev × β} {p : Dev × β} (h : p.1.Canon)
    (hf : ∀ {q x}, q.1.Canon → (f q x).1.Canon) {xs : List α} : (xs.foldl f p).1.Canon := by
  induction xs generalizing p with
  | nil => exact h
  | cons x xs ih => exact ih (hf h)

theorem Dev.Canon.foldl_snd {α β : Type} {f : β × Dev → α → β × Dev} {p : β × Dev} (h : p.2.Canon)
    (hf : ∀ {q x}, q.2.Canon → (f q x).2.Canon) {xs : List α} : (xs.foldl f p).2.Canon := by
  induction xs generalizing p with
  | nil => exact h
  | cons x xs ih => exact ih (hf h)

theorem Dev.Canon.each (h : d.Canon) {α : Type} {f : Dev → α → Dev} {xs : List α} (hf : ∀ {e x}, e.Canon → (f e x).Canon) :
    (d.each xs f).Canon := h.foldl hf

theorem Dev.Canon.setWord (h : d.Canon) {a v} : (d.setWord a v).Canon := ⟨Sparse.wf_write _ _ h.regs, h.mem, h.core⟩

/-- Words dropped from the register store, with other parts changed. -/
theorem Dev.Canon.filter (h : d.Canon) {p : Nat × Word → Bool} {draws ns frac port front plan lens seq sync lpe ctl jrn nvm life sec sup} :
    (Dev.mk (d.regs.filter p) draws ns frac port front plan lens seq sync d.fab lpe ctl jrn nvm life sec sup).Canon :=
  ⟨Sparse.wfFrom_filter _ h.regs, h.mem, h.core⟩

theorem Dev.Canon.put (h : d.Canon) {f v} : (d.put f v).Canon := h.setWord

theorem Dev.Canon.memWrite (h : d.Canon) {a bs} : (d.memWrite a bs).Canon := ⟨h.regs, Memory.wf_write _ _ h.mem, h.core⟩

theorem Dev.Canon.coreWrite (h : d.Canon) {c a bs} : (d.coreWrite c a bs).Canon := ⟨h.regs, h.mem, Memory.wf_write _ _ h.core⟩

/-! ### Ops -/

theorem Dev.Canon.bump (h : d.Canon) {a n} : (d.bump a n).Canon := .ite h h.setWord
theorem Dev.Canon.peak (h : d.Canon) {f v} : (d.peak f v).Canon := .ite h.put h
theorem Dev.Canon.draw (h : d.Canon) : d.draw.2.Canon := h.same
theorem Dev.Canon.advance (h : d.Canon) {t} : (d.advance t).Canon := .ite h.same h
theorem Dev.Canon.stepTime (h : d.Canon) {t} : (d.stepTime t).Canon := h.same
theorem Dev.Canon.advanceClock (h : d.Canon) {t} : (d.advanceClock t).Canon := h.advance
theorem Dev.Canon.settleClock (h : d.Canon) {r} : (d.settleClock r).Canon := h.same
theorem Dev.Canon.setMhz (h : d.Canon) {c mhz} : (d.setMhz c mhz).Canon := (h.each fun h1 => h1.settleClock).put
theorem Dev.Canon.dayCount (h : d.Canon) {key} : (d.dayCount key).Canon := h.same
theorem Dev.Canon.health (h : d.Canon) {event inst detail} : (d.health event inst detail).Canon := h.same
theorem Dev.Canon.lifeEntry (h : d.Canon) {kind source body decision} : (d.lifeEntry kind source body decision).Canon := h.same
theorem Dev.Canon.standingWrite (h : d.Canon) : d.standingWrite.Canon := .ite h.same h.same

/-! ### Port -/

theorem Dev.Canon.send (h : d.Canon) {sp frame} : (d.send sp frame).Canon := .ite h.same.bump.bump h

theorem Dev.Canon.ownLeaves (h : d.Canon) {sp f} : (d.ownLeaves sp f).Canon := by
  refine .send ?_
  split
  · exact h
  · exact h.bump
  · exact h.bump
  · exact h.same

theorem Dev.Canon.modSub (h : d.Canon) {sp f} : (d.modSub sp f).Canon := h.same
theorem Dev.Canon.drainOwn (h : d.Canon) {sp} : (d.drainOwn sp).Canon := .ite h (h.modSub.each fun h1 => h1.ownLeaves)
theorem Dev.Canon.sendOwn (h : d.Canon) {sp f} : (d.sendOwn sp f).Canon := .ite h.modSub.drainOwn h
theorem Dev.Canon.setPause (h : d.Canon) {sp c p paused} : (d.setPause sp c p paused).Canon := h.modSub.put
theorem Dev.Canon.endPause (h : d.Canon) {sp c p} : (d.endPause sp c p).Canon := h.setPause.drainOwn

theorem Dev.Canon.honour (h : d.Canon) {sp c q r} (hr : d.honour sp c q = some r) : r.Canon := by
  unfold Dev.honour at hr
  dsimp only at hr
  split at hr
  · cases hr
  · split at hr <;> cases hr
    · exact h.endPause
    · exact h.setPause

theorem Dev.Canon.honourAll (h : d.Canon) {sp cqs} : (d.honourAll sp cqs).1.Canon := by
  refine h.foldl_fst fun h1 => ?_
  split
  · rename_i he
    exact h1.honour he
  · exact h1

theorem Dev.Canon.macCtlBad (h : d.Canon) {sp} : (d.macCtlBad sp).Canon := h.bump.health

theorem Dev.Canon.macControl (h : d.Canon) {f} : (d.macControl f).Canon := by
  unfold Dev.macControl
  dsimp only
  exact .ite h.macCtlBad (.ite (.ite h.honourAll.bump h.honourAll) (.ite (.ite h.honourAll.bump h.honourAll) h.macCtlBad))

theorem Dev.Canon.pauseFrameReceive (h : d.Canon) : d.pauseFrameReceive.Canon := by
  unfold Dev.pauseFrameReceive
  split
  · exact h
  · exact h.same.macControl

theorem Dev.Canon.pauseWindowEnd (h : d.Canon) : d.pauseWindowEnd.Canon := h.advance.same
theorem Dev.Canon.pauseCeiling (h : d.Canon) {sp c} : (d.pauseCeiling sp c).Canon := .ite h.advanceClock.endPause.put.bump.health h
theorem Dev.Canon.quantaExpiry (h : d.Canon) {sp c} : (d.quantaExpiry sp c).Canon := .ite h.advanceClock.endPause h
theorem Dev.Canon.sendPause (h : d.Canon) {sp q} : (d.sendPause sp q).Canon := .ite h.send.bump h
theorem Dev.Canon.releasePartners (h : d.Canon) : d.releasePartners.Canon := h.each fun h1 => h1.sendPause.modSub
theorem Dev.Canon.pausePartners (h : d.Canon) : d.pausePartners.Canon := (h.each fun h1 => h1.sendPause.modSub).same

theorem Dev.Canon.flowControl (h : d.Canon) : d.flowControl.Canon :=
  .ite (.ite (.ite h.peak.pausePartners h.peak) (.ite h.peak.releasePartners h.peak)) h.peak

theorem Dev.Canon.pauseRepeat (h : d.Canon) : d.pauseRepeat.Canon := .ite h.advanceClock.pausePartners h

theorem Dev.Canon.packetTransmit (h : d.Canon) {sp} : (d.packetTransmit sp).Canon := by
  refine .ite h ?_
  split
  · exact h
  · exact .flowControl (.ite h.modSub.bump h.modSub.send)

theorem Dev.Canon.dropRecords (h : d.Canon) {f} : (d.dropRecords f).Canon := h.bump
theorem Dev.Canon.closeRecords (h : d.Canon) {f} : (d.closeRecords f).Canon := .ite h.modSub.same h.modSub.dropRecords
theorem Dev.Canon.addRecord (h : d.Canon) {sp batch rec} : (d.addRecord sp batch rec).Canon := .ite h.same.closeRecords h.same

theorem Dev.Canon.closeBatchRecords (h : d.Canon) {batch} : (d.closeBatchRecords batch).Canon :=
  h.same.each fun h1 => h1.closeRecords

theorem Dev.Canon.recordTransmit (h : d.Canon) : d.recordTransmit.Canon := by
  unfold Dev.recordTransmit
  dsimp only
  split
  · exact h
  · exact .ite h.same.send.bump.bump h.same.dropRecords

theorem Dev.Canon.servoHeard (h : d.Canon) : d.servoHeard.Canon := h.same.put

theorem Dev.Canon.servoOffset (h : d.Canon) {off} : (d.servoOffset off).Canon :=
  have h1 : Dev.Canon _ := .ite h.servoHeard.put.same.put (.ite h.servoHeard.put.same.put h.servoHeard.put.same)
  .ite (.bump (.put (.same (.stepTime h1)))) (.put (.draw h1))

theorem Dev.Canon.ptpMeasured (h : d.Canon) {diff} : (d.ptpMeasured diff).Canon :=
  .ite (.ite h.same.servoHeard h.same.servoOffset) h.same.servoOffset

theorem Dev.Canon.ptpMessage (h : d.Canon) {m stamp} : (d.ptpMessage m stamp).Canon := by
  refine .ite h (.ite (.ite h.same.servoHeard h.ptpMeasured) (.ite ?g1 (.ite ?g2 h)))
  case g1 =>
    split
    · exact .ite h.ptpMeasured h
    · exact h
  case g2 =>
    split
    · exact .ite h.same h
    · exact h

theorem Dev.Canon.ptpCopy (h : d.Canon) {sp f stamp} : (d.ptpCopy sp f stamp).Canon := by
  refine .ite ?_ h
  split
  · exact .ite h.bump.ptpMessage h
  · exact h

theorem Dev.Canon.delayReqSend (h : d.Canon) : d.delayReqSend.Canon := .ite h.same.sendOwn h
theorem Dev.Canon.discardHeld (h : d.Canon) {sp} : (d.discardHeld sp).Canon := h.same.modSub.bump.flowControl
theorem Dev.Canon.startTraining (h : d.Canon) {sp} : (d.startTraining sp).Canon := h.same.put

theorem Dev.Canon.linkDown (h : d.Canon) {sp train} : (d.linkDown sp train).Canon :=
  have h1 := (h.put.put.each fun h2 => h2.put).put.modSub
  .discardHeld (.ite h1.startTraining h1)

theorem Dev.Canon.subportDown (h : d.Canon) {sp} : (d.subportDown sp).Canon := .ite h.linkDown h

theorem Dev.Canon.subportUp (h : d.Canon) {sp} : (d.subportUp sp).Canon :=
  .ite (h.advanceClock.modSub.put.put.each fun h1 => h1.put.put) h

theorem Dev.Canon.inheritConfig (h : d.Canon) : d.inheritConfig.Canon := h.each fun h1 => h1.setWord.setWord.put.put
theorem Dev.Canon.inheritRetrain (h : d.Canon) {old} : (d.inheritRetrain old).Canon := h.each fun h1 => h1.modSub

theorem Dev.Canon.laneFail (h : d.Canon) {lane} : (d.laneFail lane).Canon :=
  .ite h (have h1 := h.put.put.health.lifeEntry.standingWrite
  .ite h1.linkDown.put ((h1.each fun h2 => h2.linkDown).inheritConfig.put.inheritRetrain.each fun h3 => .ite h3.put.put
      h3.put.put.startTraining))

theorem Dev.Canon.trainingViolation (h : d.Canon) {lane} : (d.trainingViolation lane).Canon :=
  .ite (have h1 := h.advanceClock
  .health (.bump (.startTraining (.ite h1.put.modSub h1.put)))) h

theorem Dev.Canon.portCfgWritten (h : d.Canon) : d.portCfgWritten.Canon :=
  .ite (h.each fun h1 => h1.drainOwn).flowControl (h.each fun h1 => h1.drainOwn).releasePartners

theorem Dev.Canon.subportCfgWritten (h : d.Canon) {n} : (d.subportCfgWritten n).Canon := h.put
theorem Dev.Canon.modesTakeEffect (h : d.Canon) : d.modesTakeEffect.Canon := h.each fun h1 => .ite h1.put.put h1
theorem Dev.Canon.dataFrame (h : d.Canon) {sp f stamp} : (d.dataFrame sp f stamp).Canon := .ite h (.ite h.bump h.same.flowControl)

theorem Dev.Canon.routeFrame (h : d.Canon) {sp f stamp} : (d.routeFrame sp f stamp).Canon :=
  .ite h.same (.ite h.same (.ite h.same h.dataFrame))

theorem Dev.Canon.receive (h : d.Canon) {sp bytes uncorrectable corrected} : (d.receive sp bytes uncorrectable corrected).Canon :=
  .ite h (.ite h.bump.bump.bump.health (.ite h.bump.bump.bump.health (.ite h.bump.bump.bump.health
      h.bump.bump.bump.bump.ptpCopy.routeFrame)))

/-! ### Journal -/

theorem Dev.Canon.modKey (h : d.Canon) {k f} : (d.modKey k f).Canon := h.same

theorem Dev.Canon.sign (h : d.Canon) {k digest r} (hr : d.sign k digest = some r) : r.2.Canon := by
  unfold Dev.sign at hr
  dsimp only at hr
  split at hr
  · cases hr
  · rw [← Option.some.inj hr]
    exact .snd (.bump (.put (.modKey (.ite h h.put.modKey))))

theorem Dev.Canon.frameUse (h : d.Canon) {sp n} : (d.frameUse sp n).Canon := h.same

theorem Dev.Canon.journalSend (h : d.Canon) {sp k} : (Dev.journalSend sp k d).Canon := by
  induction k generalizing d with
  | zero => exact h
  | succ k ih => exact .ite h (ih h.frameUse.sendOwn.same)

theorem Dev.Canon.journalExport (h : d.Canon) : d.journalExport.Canon := .ite h.bump.same (.ite h.bump.same.journalSend h.bump.same)

theorem Dev.Canon.closeBatch (h : d.Canon) {cause} : (d.closeBatch cause).Canon := by
  unfold Dev.closeBatch
  split
  · exact h
  · refine (Dev.Canon.each (Dev.Canon.put (.put (.put (.same ?_)))) fun h => h.put).bump.journalExport
    split
    · rename_i he
      exact h.sign he
    · exact h.put

theorem Dev.Canon.journal (h : d.Canon) {e'} : (d.journal e').Canon := .ite h.same.put.bump.closeBatch h.same.put.bump
theorem Dev.Canon.journalBatchClose (h : d.Canon) : d.journalBatchClose.Canon := .ite h h.advanceClock.closeBatch
theorem Dev.Canon.seqStatus (h : d.Canon) {r status} : (d.seqStatus r status).Canon := h.same

theorem Dev.Canon.reply (h : d.Canon) {r a} : (d.reply r a).Canon :=
  have h1 : Dev.Canon _ := .ite h.sendOwn.bump h.sendOwn.bump
  have h2 : Dev.Canon _ := .ite (.health (.bump h1)) h1
  .ite (.journal h2) h2

theorem Dev.Canon.respond (h : d.Canon) {r a} : (d.respond r a).Canon := h.reply.seqStatus
theorem Dev.Canon.setQueue (h : d.Canon) {q} : (d.setQueue q).Canon := h.same.put

theorem Dev.Canon.finishHead (h : d.Canon) {a} : (d.finishHead a).Canon := by
  unfold Dev.finishHead
  split
  · exact h
  · exact h.respond.setQueue

theorem Dev.Canon.countStage (h : d.Canon) {opcode status} : (d.countStage opcode status).Canon := .ite h.bump h

theorem Dev.Canon.countRefused (h : d.Canon) {opcode payload} : (d.countRefused opcode payload).Canon :=
  .ite h.bump (.ite h.bump (.ite h.bump h))

theorem Dev.Canon.noteAnswer (h : d.Canon) {opcode a} : (d.noteAnswer opcode a).Canon := h.same.countStage

theorem Dev.Canon.ifAccepted (h : d.Canon) {opcode payload} {run} (hrun : ∀ {e}, e.Canon → (run e).1.Canon) : (d.ifAccepted opcode
    payload run).1.Canon :=
  .ite_fst (hrun h) (.ite h h.countRefused)

theorem Dev.Canon.request (h : d.Canon) {opcode addr payload} {run} (hrun : ∀ {e}, e.Canon → (run e).1.Canon) :
    (d.request opcode addr payload run).Canon := by
  unfold Dev.request
  extract_lets own d1
  split
  · exact h
  · have h1 : (d1.ifAccepted opcode payload run).1.Canon := Dev.Canon.ifAccepted (.ite h.setQueue h) hrun
    split
    · rename_i ha
      have h2 := h1.of_fst ha
      exact .ite h2.noteAnswer.finishHead h2.noteAnswer
    · rename_i ha
      exact h1.of_fst ha

theorem Dev.Canon.answerLate (h : d.Canon) {opcode a} : (d.answerLate opcode a).Canon := by
  unfold Dev.answerLate
  dsimp only
  split
  · exact h.noteAnswer
  · exact .ite h.noteAnswer.finishHead h.noteAnswer

/-! ### Prism -/

theorem Dev.Canon.setPacket (h : d.Canon) {p} : (d.setPacket p).Canon := h.same
theorem Dev.Canon.dropPacket (h : d.Canon) {id} : (d.dropPacket id).Canon := h.same.flowControl

theorem Dev.Canon.release (h : d.Canon) {p s} : (d.release p s).Canon :=
  .ite h.same (.ite h.same.bump.flowControl h.same.modSub.flowControl)

theorem Dev.Canon.malformedPath (h : d.Canon) {p flags reason} : (d.malformedPath p flags reason).Canon :=
  .ite h.release h.dropPacket

theorem Dev.Canon.startSweep (h : d.Canon) {slot} : (d.startSweep slot).Canon := h.put.same.put
theorem Dev.Canon.stamp (h : d.Canon) {p} : (d.stamp p).1.Canon := h.put
theorem Dev.Canon.unref (h : d.Canon) {p} : (d.unref p).1.Canon := .ite_fst (.ite h.put.startSweep h.put) h
theorem Dev.Canon.recircOcc (h : d.Canon) : d.recircOcc.Canon := h.put.peak

theorem Dev.Canon.enterPass (h : d.Canon) {p start node profile} : (d.enterPass p start node profile).Canon :=
  have h1 := h.setPacket.bump
  .same (.ite h1.bump h1.bump)

theorem Dev.Canon.passEnter (h : d.Canon) : d.passEnter.Canon := by
  unfold Dev.passEnter
  split
  · exact h.enterPass
  · split
    · exact h
    · split
      · exact h
      · split
        · exact .ite h.same.recircOcc.enterPass h
        · exact h

theorem Dev.Canon.countOutcome (h : d.Canon) {s} : (d.countOutcome s).Canon := by
  unfold Dev.countOutcome
  split
  · exact h.bump.bump
  · exact .ite h.bump.bump.bump h.bump.bump
  · exact h.bump.bump
  · exact h.bump.bump

theorem Dev.Canon.passEnd (h : d.Canon) : d.passEnd.Canon := by
  unfold Dev.passEnd
  dsimp only
  split
  · exact h
  · split
    · exact h.same
    · split
      · exact have h1 := h.same.countOutcome
        .ite h1.unref.malformedPath (.ite h1.unref.bump.dropPacket (.ite h1.unref.malformedPath (.same (.setPacket (.ite_fst
            h1.stamp h1)))))
      · exact h.same

/-! ### Rules -/

theorem Dev.Canon.setWide (h : d.Canon) {a k v} : (d.setWide a k v).Canon := by
  induction k generalizing d a v with
  | zero => exact h
  | succ k ih => exact ih h.setWord

theorem Dev.Canon.setParity (h : d.Canon) {p b} : (d.setParity p b).Canon := h.same
theorem Dev.Canon.copyRule (h : d.Canon) {p} : (d.copyRule p).Canon := h.each fun h1 => h1.same

theorem Dev.Canon.setPosSlots (h : d.Canon) {p m} : (d.setPosSlots p m).Canon :=
  (h.setWord.each fun h1 => h1.put).setParity.copyRule

theorem Dev.Canon.countFree (h : d.Canon) : d.countFree.Canon := h.put
theorem Dev.Canon.parityError (h : d.Canon) {p} : (d.parityError p).Canon := h.setParity.setWord.bump.health

theorem Dev.Canon.searchAction (h : d.Canon) {profile slot fv bad} : (d.searchAction profile slot fv bad).1.Canon := by
  unfold Dev.searchAction
  dsimp only
  split
  · exact .fst (h.each fun h1 => h1.parityError).bump.bump.bump
  · exact .fst (h.each fun h1 => h1.parityError).bump.bump.bump

theorem Dev.Canon.ruleScrub (h : d.Canon) {bad} : (d.ruleScrub bad).Canon := h.each fun h1 => h1.parityError

theorem Dev.Canon.parityRewrite (h : d.Canon) {p} : (d.parityRewrite p).Canon :=
  .ite ((h.each fun h1 => h1.setWord).setWord.setParity) h

theorem Dev.Canon.applyRecord (h : d.Canon) {s r} : (d.applyRecord s r).Canon := by
  unfold Dev.applyRecord
  split
  · exact h.setWide.setWide.setWord.setParity.setPosSlots
  · exact h.setPosSlots
  · exact h.setWord

theorem Dev.Canon.stageRecords (h : d.Canon) {s n bs r} (hr : d.stageRecords s n bs = .inr r) : r.Canon := by
  unfold Dev.stageRecords at hr
  split at hr <;> cases hr
  exact h.each fun h1 => h1.applyRecord

theorem Dev.Canon.stageRefused (h : d.Canon) {status payload} : (d.stageRefused status payload).1.Canon := h

theorem Dev.Canon.applyStage (h : d.Canon) {payload} : (d.applyStage payload).1.Canon := by
  unfold Dev.applyStage
  dsimp only
  split
  · exact h.stageRefused
  · rename_i he
    exact (h.stageRecords he).bump.countFree

theorem Dev.Canon.ruleStage (h : d.Canon) {payload} : (d.ruleStage payload).1.Canon := by
  refine .ite_fst h.stageRefused (.ite_fst h.stageRefused (.ite_fst h.applyStage (.ite_fst ?g1 ?g2)))
  case g1 =>
    split
    · exact h.stageRefused
    · exact h.stageRefused
  case g2 =>
    split
    · exact h.stageRefused
    · exact h.put.put.put.put.same

theorem Dev.Canon.dropSweep (h : d.Canon) {slot} : (d.dropSweep slot).Canon := h.same.put

theorem Dev.Canon.copyCurrent (h : d.Canon) {s} : (d.copyCurrent s).Canon :=
  (h.each fun h1 => h1.setPosSlots).each fun h2 => h2.setWord

theorem Dev.Canon.ruleCommit (h : d.Canon) {payload} : (d.ruleCommit payload).1.Canon :=
  .ite_fst h (.ite_fst h (.ite_fst (.fst h.bump) (have h1 := h.put.put.put.put.put
  .fst (.bump (.ite h1.put.put.put.startSweep h1.put.put.put)))))

theorem Dev.Canon.ruleAbort (h : d.Canon) {payload} : (d.ruleAbort payload).1.Canon :=
  .ite_fst h (.ite_fst h (.fst h.put.startSweep.bump))

theorem Dev.Canon.ruleRequest (h : d.Canon) {opcode payload} : (d.ruleRequest opcode payload).Canon :=
  .ite h.same (h.request fun h1 => .ite_fst h1.ruleStage (.ite_fst h1.ruleCommit h1.ruleAbort))

theorem Dev.Canon.runRuleWaits (h : d.Canon) {n} : (d.runRuleWaits n).Canon := by
  induction n generalizing d with
  | zero => exact h
  | succ n ih =>
    unfold Dev.runRuleWaits
    split
    · exact ih h.same.ruleRequest
    · exact h

theorem Dev.Canon.copySweepEnd (h : d.Canon) : d.copySweepEnd.Canon := by
  unfold Dev.copySweepEnd
  split
  · exact h
  · refine Dev.Canon.runRuleWaits ?_
    split
    · exact h.dropSweep.copyCurrent.same.applyStage.answerLate
    · exact h.dropSweep.copyCurrent.same.applyStage

theorem Dev.Canon.sweepEnd (h : d.Canon) {slot} : (d.sweepEnd slot).Canon :=
  .ite ((h.each fun h1 => h1.setPosSlots).dropSweep.put.countFree) h

/-! ### Mem -/

theorem Dev.Canon.retire (h : d.Canon) {c cause} : (d.retire c cause).Canon := .ite h h.same.health.lifeEntry.standingWrite
theorem Dev.Canon.channelError (h : d.Canon) {c crc} : (d.channelError c crc).Canon := .ite h.same.retire h.same

theorem Dev.Canon.fenceOne (h : d.Canon) {kind index} : (d.fenceOne kind index).Canon :=
  .ite h h.same.health.lifeEntry.standingWrite

theorem Dev.Canon.fence (h : d.Canon) {kind index} : (d.fence kind index).Canon :=
  have h1 : Dev.Canon _ := .ite h.fenceOne.fenceOne h.fenceOne
  .ite (.fenceOne h1) h1

theorem Dev.Canon.failure (h : d.Canon) {kind index} : (d.failure kind index).Canon := .ite h.same.fence h.same

theorem Dev.Canon.memEvent (h : d.Canon) {e'} : (d.memEvent e').1.Canon := by
  unfold Dev.memEvent
  dsimp only
  split
  · split
    · exact .fst h.bump
    · exact .fst h.bump.health.failure
  · split
    · refine .fst ?_
      split
      · exact h.bump.dayCount
      · exact h.bump
    · refine .fst ?_
      split
      · exact h.bump.health.channelError
      · exact h.bump.health
    · exact .fst h.bump
    · refine .fst ?_
      split
      · exact h.bump.bump.health.channelError
      · exact h.bump.bump.health

theorem Dev.Canon.memEvents (h : d.Canon) {es} : (d.memEvents es).1.Canon := h.foldl_fst fun h1 => .fst h1.memEvent
theorem Dev.Canon.setGranuleBad (h : d.Canon) {g bad} : (d.setGranuleBad g bad).Canon := h.same

theorem Dev.Canon.fetch (h : d.Canon) {a n bad} : (d.fetch a n bad).1.Canon :=
  .ite_fst (.fst h.bump.bump) (.ite_fst (.fst h.memEvents.bump) (.fst h.memEvents))

theorem Dev.Canon.writeEvent (h : d.Canon) {e'} : (d.writeEvent e').Canon := by
  unfold Dev.writeEvent
  split
  · exact h.bump.channelError
  · exact h.memEvent

theorem Dev.Canon.storeGranule (h : d.Canon) {a bs bad} : (d.storeGranule a bs bad).Canon :=
  .ite h.bump (have h1 : Dev.Canon _ := .setGranuleBad (.ite (h.each fun h2 => h2.writeEvent).bump (h.each fun h2 => h2.writeEvent))
  .ite h1 (.memWrite h1))

theorem Dev.Canon.storeBy (h : d.Canon) {own a bs bad} : (d.storeBy own a bs bad).Canon :=
  .ite h (.ite h.bump (h.each fun h1 => .ite h1 h1.storeGranule))

theorem Dev.Canon.store (h : d.Canon) {a bs bad} : (d.store a bs bad).Canon := h.storeBy

theorem Dev.Canon.copy (h : d.Canon) {src dst n} : (d.copy src dst n).Canon := by
  unfold Dev.copy
  split
  · rename_i he
    exact (h.fetch.of_fst he).store
  · rename_i he
    exact (h.fetch.of_fst he).each fun h1 => h1.setGranuleBad

theorem Dev.Canon.placeFetch (h : d.Canon) {p off n bad} : (d.placeFetch p off n bad).1.Canon := by
  unfold Dev.placeFetch
  split
  · exact h.fetch
  · exact .ite_fst (h.bump.each fun h1 => h1.bump.health.failure) (h.bump.each fun h1 => h1.bump.health.failure)

theorem Dev.Canon.placeStore (h : d.Canon) {p off bs bad} : (d.placeStore p off bs bad).Canon := by
  unfold Dev.placeStore
  split
  · exact h.store
  · exact .ite h.coreWrite h

theorem Dev.Canon.noteNewStates (h : d.Canon) {p off len} : (d.noteNewStates p off len).Canon := by
  unfold Dev.noteNewStates
  split
  · exact h.same
  · exact h

theorem Dev.Canon.engineStore (h : d.Canon) {p off bs bad} : (d.engineStore p off bs bad).Canon := h.placeStore.noteNewStates

theorem Dev.Canon.patrolScrub (h : d.Canon) {errors} : (d.patrolScrub errors).Canon :=
  h.each fun h1 => .ite h1.memEvent.bump h1.memEvent

theorem Dev.Canon.showTemps (h : d.Canon) : d.showTemps.Canon := h.put.put.peak.peak
theorem Dev.Canon.refresh (h : d.Canon) {tier} : (d.refresh tier).Canon := .ite h.put.put (.ite h.put.put h.put)

theorem Dev.Canon.takeTemps (h : d.Canon) {ts} : (d.takeTemps ts).Canon :=
  ((h.each fun h1 => h1.same.put.put).showTemps).each fun h2 => h2.refresh

/-! ### Trace -/

theorem Dev.Canon.ringWrite (h : d.Canon) {base size head oldest bs} : (d.ringWrite base size head oldest bs).Canon :=
  .ite h (have h1 := h.store.store
  .ite h1.put.put h1.put)

theorem Dev.Canon.dramUse (h : d.Canon) {n} : (d.dramUse n).Canon := h.same

theorem Dev.Canon.traceOut (h : d.Canon) {r} : (d.traceOut r).Canon :=
  have h1 := h.dramUse.ringWrite
  .ite h1.bump.put h1.bump

theorem Dev.Canon.drainStaged (h : d.Canon) {k} : (d.drainStaged k).Canon := by
  induction k generalizing d with
  | zero => exact h
  | succ k ih =>
    unfold Dev.drainStaged
    split
    · exact h
    · exact .ite (ih (h.same.each fun h1 => h1.traceOut)) h

theorem Dev.Canon.drain (h : d.Canon) : d.drain.Canon := .drainStaged (.ite h.same.traceOut h)
theorem Dev.Canon.noteDrop (h : d.Canon) {cls n} : (d.noteDrop cls n).Canon := h.bump.same.put
theorem Dev.Canon.refuseUnits (h : d.Canon) {cls n} : (d.refuseUnits cls n).Canon := .noteDrop (.ite h h.bump)

theorem Dev.Canon.makeRoom (h : d.Canon) {cls n k} : (d.makeRoom cls n k).Canon := by
  induction k generalizing d with
  | zero => exact h
  | succ k ih =>
    refine .ite h ?_
    split
    · exact ih h.same.refuseUnits
    · exact h

theorem Dev.Canon.fetchFree (h : d.Canon) {a n} : (d.fetchFree a n).1.Canon := by
  refine .ite_fst h ?_
  split
  · rename_i he
    exact h.fetch.of_fst he
  · rename_i he
    exact (h.fetch.of_fst he).same

theorem Dev.Canon.fetchEach (h : d.Canon) {n as} : (d.fetchEach n as).1.Canon := by
  induction as generalizing d with
  | nil => exact h
  | cons a as ih => exact ih h.fetchFree

theorem Dev.Canon.ringRead (h : d.Canon) {base size pos n} : (d.ringRead base size pos n).1.Canon := h.fetchFree.fetchFree
theorem Dev.Canon.trace (h : d.Canon) {rs} : (d.trace rs).Canon := .ite h.drain.makeRoom.same.drain h.drain.makeRoom.refuseUnits
theorem Dev.Canon.lendStatus (h : d.Canon) : d.lendStatus.Canon := h.put

/-! ### EngineCmd -/

theorem Dev.Canon.showCounts (h : d.Canon) {engine counts} : (d.showCounts engine counts).Canon := h.each fun h1 => h1.setWord

theorem Dev.Canon.cmdBegin (h : d.Canon) {engine unit context model cmdId stepped} : (d.cmdBegin engine unit context model cmdId
    stepped).Canon :=
  have h1 := h.same.showCounts
  .ite h1.trace h1

theorem Dev.Canon.cmdEnd (h : d.Canon) {engine unit cmdId cause reissued} : (d.cmdEnd engine unit cmdId cause reissued).Canon := by
  unfold Dev.cmdEnd
  split
  · exact h
  · exact have h1 := h.same.showCounts
    .ite h1.bump.trace h1.bump

theorem Dev.Canon.cmdWork (h : d.Canon) {engine unit cmdId work} : (d.cmdWork engine unit cmdId work).Canon := by
  unfold Dev.cmdWork
  dsimp only
  split
  · exact .ite h.same.showCounts h.same
  · exact h.same

theorem Dev.Canon.modStep (h : d.Canon) {c partition f} : (d.modStep c partition f).Canon := h.same
theorem Dev.Canon.stepBegun (h : d.Canon) {c partition} : (d.stepBegun c partition).Canon := h.modStep
theorem Dev.Canon.stepEnded (h : d.Canon) {c partition cmdId} : (d.stepEnded c partition cmdId).Canon := .ite h.modStep.bump h

theorem Dev.Canon.programBegin (h : d.Canon) {engine partition context model tier learning cmdId} : (d.programBegin engine partition
    context model tier learning cmdId).Canon :=
  .cmdBegin (.ite h.stepBegun h)

theorem Dev.Canon.programEnd (h : d.Canon) {engine partition cmdId cause reissued} : (d.programEnd engine partition cmdId cause
    reissued).Canon := by
  unfold Dev.programEnd
  split
  · exact h
  · exact .cmdEnd (.ite h.stepEnded h)

theorem Dev.Canon.stepOver (h : d.Canon) {engine} : (d.stepOver engine).Canon := by
  unfold Dev.stepOver
  split
  · exact h.cmdEnd
  · exact h

theorem Dev.Canon.engineStep (h : d.Canon) {engine context model} : (d.engineStep engine context model).Canon :=
  .cmdWork (.ite h h.stepOver.cmdBegin)

/-! ### Flow -/

theorem Dev.Canon.setCache (h : d.Canon) {set ls} : (d.setCache set ls).Canon := h.same

theorem Dev.Canon.install (h : d.Canon) {set l} : (d.install set l).Canon := by
  refine .ite h.setCache ?_
  split
  · exact h.setCache
  · exact .setCache (.ite h.storeBy h)

theorem Dev.Canon.way (h : d.Canon) {index set bad} : (d.way index set bad).1.Canon := by
  unfold Dev.way
  split
  · exact h
  · exact h.fetch

theorem Dev.Canon.readEntry (h : d.Canon) {index set} : (d.readEntry index set).1.Canon := by
  refine .ite_fst h ?_
  split
  · exact h
  · exact h.fetch

theorem Dev.Canon.uncache (h : d.Canon) {index set} : (d.uncache index set).Canon := by
  unfold Dev.uncache
  split
  · exact h.setCache
  · exact h

theorem Dev.Canon.createFlow (h : d.Canon) {k policy rxTime b ways w} : (d.createFlow k policy rxTime b ways w).1.Canon := by
  refine have h1 : Dev.Canon _ := ?_
  .fst (.install (.bump (.storeBy (.uncache (.ite h1 (.put h1))))))
  split
  · exact h
  · exact h.draw

theorem Dev.Canon.readWays (h : d.Canon) {b set bad} : (d.readWays b set bad).1.Canon := h.foldl_fst fun h1 => .fst h1.way

theorem Dev.Canon.bucketLookup (h : d.Canon) {k policy rxTime b bad} : (d.bucketLookup k policy rxTime b bad).1.Canon := by
  unfold Dev.bucketLookup
  dsimp only
  split
  · exact .fst h.readWays.install
  · split
    · exact h.readWays.createFlow
    · exact .ite_fst h.readWays.bump.createFlow (.fst h.readWays)

theorem Dev.Canon.findFlow (h : d.Canon) {k policy rxTime bad} : (d.findFlow k policy rxTime bad).1.Canon := by
  unfold Dev.findFlow
  dsimp only
  split
  · exact .fst (.install (.bump (.ite h.bump h)))
  · split
    · exact .bucketLookup (.bump (.ite h.bump h))
    · exact .fst (.bump (.ite h.bump h))

theorem Dev.Canon.entity (h : d.Canon) {t key len rxTime hash newFlow bad} :
    (d.entity t key len rxTime hash newFlow bad).1.Canon := by
  unfold Dev.entity
  extract_lets d1 fresh
  have h1 : d1.Canon := h.bump
  split
  · exact .fst h1.bump
  · extract_lets at_ look done
    have h2 {p : Dev × List (Option (List Byte))} {w} (hp : p.1.Canon) : (look p w).1.Canon := hp.fetch
    generalize hq : List.foldl look (d1, []) [0, 1, 2, 3] = q
    have h3 : q.1.Canon := hq ▸ Dev.Canon.foldl_fst (p := (d1, _)) h1 h2
    have h4 {e : Dev} {w x} (he : e.Canon) : (done e w x).1.Canon := he.storeBy
    dsimp only
    split
    · exact h4 h3.bump
    · split
      · exact h4 h3.bump
      · split
        · exact .fst h3.bump
        · exact .ite_fst (h4 h3.bump) (.fst h3.bump)

theorem Dev.Canon.entities (h : d.Canon) {policy fv len rxTime hash newFlow bad} : (d.entities policy fv len rxTime hash newFlow
    bad).1.Canon := by
  unfold Dev.entities
  exact .ite_fst h.entity (have h1 : Dev.Canon _ := .ite_fst h.entity h
  (.ite_fst (.entity h1) h1))

theorem Dev.Canon.frontDone (h : d.Canon) {p} : (d.frontDone p).Canon := .ite h.setPacket h.dropPacket

theorem Dev.Canon.takeSlot (h : d.Canon) {p policy index e' rev new e0 e1 b} : (d.takeSlot p policy index e' rev new e0 e1
    b).1.Canon :=
  h.store.bump.same

theorem Dev.Canon.sampling (h : d.Canon) {p policy index e' rev new e0 e1} : (d.sampling p policy index e' rev new e0 e1).1.Canon :=
    by
  refine .ite_fst h (.ite_fst (.fst h.bump.bump) (.ite_fst (.fst h.bump.bump) ?_))
  split
  · exact h.bump.takeSlot
  · exact .fst h.bump

theorem Dev.Canon.flowStage (h : d.Canon) {p bad} : (d.flowStage p bad).Canon := by
  unfold Dev.flowStage
  dsimp only
  split
  · exact h.findFlow.bump.frontDone
  · exact h.findFlow.bump.entities.sampling.install.frontDone

theorem Dev.Canon.flowLookup (h : d.Canon) {p} : (d.flowLookup p).Canon :=
  have h1 : Dev.Canon _ := .ite h.bump.bump h.bump
  .ite (.flowStage h1) (.same (.setPacket h1))

theorem Dev.Canon.bucketReadReturn (h : d.Canon) {bad} : (d.bucketReadReturn bad).Canon := by
  unfold Dev.bucketReadReturn
  dsimp only
  split
  · exact h
  · split
    · exact h.same.flowStage
    · exact h.same

theorem Dev.Canon.lastPass (h : d.Canon) {p} : (d.lastPass p).Canon := h.unref.flowLookup

theorem Dev.Canon.recircRequest (h : d.Canon) {p cfg} : (d.recircRequest p cfg).Canon :=
  .ite h.bump.bump.lastPass (.ite h.bump.bump.lastPass (.ite h.bump.bump.lastPass (.ite h.bump.bump.lastPass
      h.bump.setPacket.same.recircOcc)))

theorem Dev.Canon.searchResult (h : d.Canon) {bad} : (d.searchResult bad).Canon := by
  unfold Dev.searchResult
  dsimp only
  split
  · exact h
  · split
    · exact h.same
    · split
      · exact have h1 := h.same.searchAction
        .ite h1.recircRequest h1.lastPass
      · exact h.same

theorem Dev.Canon.recircWithdrawn (h : d.Canon) : d.recircWithdrawn.Canon := by
  unfold Dev.recircWithdrawn
  split
  · exact h
  · exact h.advanceClock.bump.same.recircOcc.lastPass

theorem Dev.Canon.readFlow (h : d.Canon) {f} : (d.readFlow f).1.Canon := h.readEntry

theorem Dev.Canon.putFlow (h : d.Canon) {index set e'} : (d.putFlow index set e').Canon := by
  unfold Dev.putFlow
  split
  · exact h.setCache
  · exact h.storeBy

theorem Dev.Canon.flowVerdict (h : d.Canon) {f key shim} : (d.flowVerdict f key shim).Canon := by
  unfold Dev.flowVerdict
  split
  · rename_i he
    exact (h.readFlow.of_fst he).bump
  · rename_i he
    exact .ite (((h.readFlow.of_fst he).putFlow).bump) ((h.readFlow.of_fst he).bump)

theorem Dev.Canon.ageFlow (h : d.Canon) {index} : (ageFlow d index).Canon := .ite h.readEntry.putFlow.put.bump h.readEntry
theorem Dev.Canon.ageEntity (h : d.Canon) {t a} : (ageEntity t d a).Canon := .ite h.fetch.storeBy.bump h.fetch

theorem Dev.Canon.ageBucket (h : d.Canon) {table bucket} : (d.ageBucket table bucket).Canon := by
  unfold Dev.ageBucket
  split
  · exact .ite h.advanceClock (h.advanceClock.each fun h1 => h1.ageFlow)
  · exact .ite h.advanceClock (h.advanceClock.each fun h2 => h2.ageEntity)

theorem Dev.Canon.ageOver (h : d.Canon) {lo hi} : (d.ageOver lo hi).Canon := .ite h (h.each fun h1 => h1.ageBucket)
theorem Dev.Canon.agePeriodEnds (h : d.Canon) : d.agePeriodEnds.Canon := h.same

theorem Dev.Canon.ageVisit (h : d.Canon) {table bucket} : (d.ageVisit table bucket).Canon :=
  .ite h (have h1 : Dev.Canon _ := .ageBucket (.ageOver (.ite h.ageOver.agePeriodEnds h))
  .ite (.agePeriodEnds h1) (.same h1))

theorem Dev.Canon.retireTakeEffect (h : d.Canon) : d.retireTakeEffect.Canon :=
  h.same.each fun h1 => h1.put.put.put.put.put.bump.put.same

theorem Dev.Canon.packetRelease (h : d.Canon) {id} : (d.packetRelease id).Canon := by
  unfold Dev.packetRelease
  split
  · exact h
  · refine .ite ?_ h
    split
    · exact h.release
    · exact h.readFlow.release
    · exact h.release

/-! ### Verdict -/

theorem Dev.Canon.sumPicked (h : d.Canon) {k xs acc} : (sumPicked k xs acc d).1.Canon := by
  induction k generalizing d xs acc with
  | zero => exact h
  | succ k ih =>
    cases xs with
    | nil => exact h
    | cons x xs => exact ih h.draw

theorem Dev.Canon.expAll (h : d.Canon) {xs} : (expAll xs d).1.Canon := h.foldl_fst fun h1 => .fst h1.same

theorem Dev.Canon.linkY (h : d.Canon) {ob raw} : (linkY ob raw d).1.Canon := by
  unfold Machine.linkY
  split
  · exact h.expAll
  · exact h.expAll.draw.sumPicked
  · exact h
  · exact h

theorem Dev.Canon.setSample (h : d.Canon) {s} : (d.setSample s).Canon := h.same

theorem Dev.Canon.writeVerdict (h : d.Canon) {b s tier flags reason} : (d.writeVerdict b s tier flags reason).Canon := by
  refine have h1 := h.setSample.engineStep
  have h2 : Dev.Canon _ := .ite h1.bump.bump h1.bump
  have h3 : Dev.Canon _ := .ite (.bump h2) h2
  have h4 : Dev.Canon _ := .ite (.bump h3) h3
  have h5 : Dev.Canon _ := .flowVerdict (.ite (.bump h4) h4)
  .ite ?_ (.ite (.addRecord h5) h5)
  split
  · exact .setPacket h5
  · exact h5

theorem Dev.Canon.verdictNow (h : d.Canon) {b s tier flags reason} : (d.verdictNow b s tier flags reason).Canon := by
  unfold Dev.verdictNow
  split
  · rename_i he
    exact (h.fetch.of_fst he).setSample
  · rename_i he
    exact (h.fetch.of_fst he).writeVerdict

theorem Dev.Canon.closeGroup (h : d.Canon) : d.closeGroup.Canon := .ite h h.same
theorem Dev.Canon.joinGroup (h : d.Canon) {c} : (d.joinGroup c).Canon := .ite h.bump.same.closeGroup h.bump.same
theorem Dev.Canon.spend (h : d.Canon) {e'} : (d.spend e').Canon := h.same
theorem Dev.Canon.admitTier (h : d.Canon) {m t} : (d.admitTier m t).Canon := h.same.bump

theorem Dev.Canon.refuse (h : d.Canon) {b s} : (d.refuse b s).Canon := by
  unfold Dev.refuse
  split
  · exact h.verdictNow
  · exact h.setSample

theorem Dev.Canon.refusedCredit (h : d.Canon) : d.refusedCredit.Canon := .ite h.bump h.bump.same.bump

theorem Dev.Canon.decideOne (h : d.Canon) {b c} : (d.decideOne b c).Canon := by
  unfold Dev.decideOne
  split
  · exact h
  · exact .ite h (.ite h.refusedCredit.refuse (.ite h.bump.refuse (have h1 := h.spend.setSample
    .each (.engineStep (.ite h1.bump h1)) fun h2 => h2.admitTier)))

theorem Dev.Canon.decideGroup (h : d.Canon) : d.decideGroup.Canon := by
  unfold Dev.decideGroup
  split
  · exact h.same.each fun h1 => h1.decideOne
  · exact h

theorem Dev.Canon.afterResult (h : d.Canon) {b s tier ys} : (d.afterResult b s tier ys).Canon := by
  unfold Dev.afterResult
  split
  · exact h.verdictNow
  · exact .ite h.bump.refuse h.setSample.joinGroup

theorem Dev.Canon.countCompleted (h : d.Canon) {m e'} : (d.countCompleted m e').Canon := h.same

theorem Dev.Canon.tierResult (h : d.Canon) {slot tier raw} : (d.tierResult slot tier raw).Canon := by
  unfold Dev.tierResult
  split
  · exact .ite h (have h1 := h.linkY.setSample.countCompleted
    have h2 : Dev.Canon _ := .ite h1.same h1
    .ite h2 (.ite (.ite (.verdictNow h2) h2) (.ite (.ite (.verdictNow h2) h2) (.ite h2 (.ite (.verdictNow h2) (.afterResult h2))))))
  · exact h

theorem Dev.Canon.planFault (h : d.Canon) {c} : (d.planFault c).Canon := by
  unfold Dev.planFault
  dsimp only
  split
  · exact h.same
  · exact h.same.each fun h1 => h1.verdictNow

theorem Dev.Canon.lateVerdict (h : d.Canon) {b s} : (d.lateVerdict b s).Canon :=
  .ite h.bump (have h1 : Dev.Canon _ := .ite h.bump.bump.bump h.bump.bump
  .writeVerdict (.ite (.bump h1) h1))

theorem Dev.Canon.verdictDeadline (h : d.Canon) : d.verdictDeadline.Canon := by
  unfold Dev.verdictDeadline
  split
  · exact h
  · exact (((h.each fun h1 => h1.lateVerdict).closeBatchRecords).stepOver).stepOver

/-! ### Commands -/

theorem Dev.Canon.bumpFacet (h : d.Canon) {ctr f n} : (d.bumpFacet ctr f n).Canon := h.bump
theorem Dev.Canon.bumpUnit (h : d.Canon) {facet grating u n} : (d.bumpUnit facet grating u n).Canon := .ite h.bump h.bumpFacet
theorem Dev.Canon.settleUnit (h : d.Canon) {u n} : (d.settleUnit u n).Canon := h.same
theorem Dev.Canon.unitIdle (h : d.Canon) {u} : (d.unitIdle u).Canon := .ite h h.bumpUnit.settleUnit
theorem Dev.Canon.countUnit (h : d.Canon) {y u} : (d.countUnit y u).Canon := h.bumpUnit.bumpUnit.bumpUnit.bumpUnit.settleUnit

theorem Dev.Canon.countCycles (h : d.Canon) {t unit y} : (d.countCycles t unit y).Canon :=
  (h.cmdWork.each fun h1 => h1.countUnit).each fun h2 => h2.countUnit

theorem Dev.Canon.facetRest (h : d.Canon) {f} : (d.facetRest f).Canon :=
  .ite h (have h1 := h.unitIdle.put.put
  .ite h1 h1.put)

theorem Dev.Canon.gratingRest (h : d.Canon) {g} : (d.gratingRest g).Canon :=
  .ite h (have h1 := h.unitIdle.put.put
  .ite h1 h1.put)

theorem Dev.Canon.tileLeft (h : d.Canon) {t} : (d.tileLeft t).Canon := .ite h.gratingRest (h.each fun h1 => h1.facetRest)
theorem Dev.Canon.graphsAnew (h : d.Canon) {mine} : (d.graphsAnew mine).Canon := h.same
theorem Dev.Canon.setPass (h : d.Canon) {p} : (d.setPass p).Canon := h.same
theorem Dev.Canon.endPass (h : d.Canon) {p cause} : (d.endPass p cause).Canon := h.programEnd
theorem Dev.Canon.dropPass (h : d.Canon) {p endCause} : (d.dropPass p endCause).Canon := h.same.endPass
theorem Dev.Canon.cutCycles (h : d.Canon) {r} : (d.cutCycles r).Canon := h.draw.draw.draw.countCycles

theorem Dev.Canon.stopTile (h : d.Canon) {cause r} : (d.stopTile cause r).Canon :=
  have h1 : Dev.Canon _ := .ite h.same h.same.cutCycles
  .tileLeft (.ite (.bump h1) (.bumpFacet h1))

theorem Dev.Canon.stopPrograms (h : d.Canon) {cause endCause mine} : (d.stopPrograms cause endCause mine).Canon :=
  ((h.each fun h1 => h1.stopTile).each fun h2 => h2.dropPass).same

theorem Dev.Canon.moverBegin (h : d.Canon) {o} : (d.moverBegin o).Canon := h.cmdBegin

theorem Dev.Canon.moverNext (h : d.Canon) {c} : (d.moverNext c).Canon := by
  unfold Dev.moverNext
  split
  · exact .ite h.moverBegin h
  · exact h

theorem Dev.Canon.stopMovers (h : d.Canon) {endCause mine} : (d.stopMovers endCause mine).Canon :=
  (h.same.each fun h1 => h1.programEnd).each fun h2 => h2.moverNext

/-! ### Sync -/

theorem Dev.Canon.setCtr (h : d.Canon) {p x} : (d.setCtr p x).Canon := h.same
theorem Dev.Canon.answer (h : d.Canon) {engine a} : (d.answer engine a).Canon := h.same
theorem Dev.Canon.setWaits (h : d.Canon) {ws} : (d.setWaits ws).Canon := h.same

theorem Dev.Canon.releaseWait (h : d.Canon) {w rest} : (d.releaseWait w rest).Canon := by
  unfold Dev.releaseWait
  split
  · split
    · exact h.setCtr.setWaits.answer
    · exact h
  · exact h

theorem Dev.Canon.releaseWaiters (h : d.Canon) {k} : (d.releaseWaiters k).Canon := by
  induction k generalizing d with
  | zero => exact h
  | succ k ih =>
    unfold Dev.releaseWaiters
    split
    · exact ih h.releaseWait
    · exact h

theorem Dev.Canon.releaseOn (h : d.Canon) {p} : (d.releaseOn p).Canon := by
  unfold Dev.releaseOn
  split
  · exact h.releaseWait.releaseWaiters
  · exact h

theorem Dev.Canon.pinWaiting (h : d.Canon) {core pin} : (d.pinWaiting core pin).Canon := h.put

theorem Dev.Canon.withdrawWaits (h : d.Canon) {keep} : (d.withdrawWaits keep).Canon := by
  refine h.setWaits.releaseWaiters.each fun h1 => ?_
  split
  · exact h1.pinWaiting
  · exact h1

theorem Dev.Canon.block (h : d.Canon) {on context engine} : (d.block on context engine).Canon := .same (.ite h.bump.bump h.bump)

theorem Dev.Canon.snapshot (h : d.Canon) {c cause obj} : (d.snapshot c cause obj).Canon :=
  (h.bump.put.each fun h1 => h1.each fun h2 => h2.put).each fun h3 => h3.trace

theorem Dev.Canon.stopReplicas (h : d.Canon) {ms} : (d.stopReplicas ms).Canon := by
  refine h.each fun h1 => ?_
  dsimp only
  split
  · exact h1.same.cmdEnd
  · exact h1.same

theorem Dev.Canon.contextFault (h : d.Canon) {c cause obj engine partition} : (d.contextFault c cause obj engine partition).Canon :=
    by
  unfold Dev.contextFault
  exact have h1 := h.bump.health
  .planFault (.same (.stopReplicas (.withdrawWaits (.stopMovers (.stopPrograms (.ite h1.put.put.put.put.snapshot
      h1.put.put.put))))))

theorem Dev.Canon.unmapped (h : d.Canon) {c v engine issuer} : (d.unmapped c v engine issuer).Canon := h.contextFault
theorem Dev.Canon.meetsWrite (h : d.Canon) {p} : (d.meetsWrite p).2.Canon := .ite_snd h.draw h

theorem Dev.Canon.signal (h : d.Canon) {c v n engine issuer} : (d.signal c v n engine issuer).Canon := by
  unfold Dev.signal
  split
  · exact h.unmapped
  · exact have h1 := h.bump.meetsWrite
    .ite h1 (.ite h1.bump.contextFault h1.setCtr.releaseOn)

theorem Dev.Canon.wait (h : d.Canon) {c v n engine} : (d.wait c v n engine).Canon := by
  unfold Dev.wait
  split
  · exact h.unmapped
  · exact .ite h.setCtr.answer h.block

theorem Dev.Canon.tryTake (h : d.Canon) {c v n engine} : (d.tryTake c v n engine).Canon := by
  unfold Dev.tryTake
  split
  · exact h.unmapped
  · exact .ite h.setCtr.answer h.bump.answer

theorem Dev.Canon.readCtr (h : d.Canon) {c v engine} : (d.readCtr c v engine).Canon := by
  unfold Dev.readCtr
  split
  · exact h.unmapped
  · exact h.answer

theorem Dev.Canon.writeCtr (h : d.Canon) {c v value} : (d.writeCtr c v value).1.Canon := by
  refine .ite_fst h ?_
  split
  · exact h
  · exact h.same.setCtr.releaseOn

theorem Dev.Canon.pinSet (h : d.Canon) {c core pin engine} : (d.pinSet c core pin engine).Canon := by
  refine .ite h (.ite h.bump.contextFault ?_)
  dsimp only
  split
  · exact h.put.setWaits.answer.pinWaiting
  · exact h.put.put

theorem Dev.Canon.pinClear (h : d.Canon) {c core pin engine} : (d.pinClear c core pin engine).Canon := .ite h.put h

theorem Dev.Canon.pinWait (h : d.Canon) {c core pin engine} : (d.pinWait c core pin engine).Canon :=
  .ite h (.ite h.put.answer h.block.pinWaiting)

theorem Dev.Canon.pinTest (h : d.Canon) {c core pin engine} : (d.pinTest c core pin engine).Canon := .ite h.answer h
theorem Dev.Canon.setArrived (h : d.Canon) {b bits} : (d.setArrived b bits).Canon := h.same.put

theorem Dev.Canon.barrierRelease (h : d.Canon) {b} : (d.barrierRelease b).Canon :=
  (h.setWaits.each fun h1 => h1.answer).setArrived.put.bump

theorem Dev.Canon.barrierCheck (h : d.Canon) {b} : (d.barrierCheck b).Canon := .ite h (.ite (.ite h h.same) h.barrierRelease)

theorem Dev.Canon.setBarMask (h : d.Canon) {b bits} : (d.setBarMask b bits).Canon :=
  (h.each fun h1 => h1.put).put.put.setWaits.setArrived

theorem Dev.Canon.arrive (h : d.Canon) {b engine} : (d.arrive b engine).Canon := by
  unfold Dev.arrive
  split
  · exact h
  · exact .ite h h.block.same.setArrived.barrierCheck

theorem Dev.Canon.boardBarrierHigh (h : d.Canon) : d.boardBarrierHigh.Canon := by
  refine .ite h ?_
  dsimp only
  split
  · exact h.same.barrierRelease
  · exact h.same

theorem Dev.Canon.watchdogFire (h : d.Canon) {c} : (d.watchdogFire c).Canon := by
  unfold Dev.watchdogFire
  split
  · exact h.bump.contextFault
  · exact h

theorem Dev.Canon.setQue (h : d.Canon) {q x open_} : (d.setQue q x open_).Canon := h.same.put.put.put.put

theorem Dev.Canon.spill (h : d.Canon) {q x} : (d.spill q x).1.Canon := by
  unfold Dev.spill
  dsimp only
  exact h.fetchFree.store.store.bump

theorem Dev.Canon.refill (h : d.Canon) {q engine x} : (d.refill q engine x).1.Canon := by
  unfold Dev.refill
  dsimp only
  split
  · split
    · exact .fst h.fetch.fetch
    · exact .fst h.fetch.fetch.contextFault
  · exact h

theorem Dev.Canon.settle (h : d.Canon) {q engine k x} : (Dev.settle q engine k d x).1.Canon := by
  induction k generalizing d x with
  | zero => exact h
  | succ k ih => exact .ite_fst (ih h.refill) (.ite_fst (ih h.spill) h)

theorem Dev.Canon.notice (h : d.Canon) {q ctr} : (d.notice q ctr).Canon := h.signal

theorem Dev.Canon.watermark (h : d.Canon) {q old new} : (d.watermark q old new).Canon :=
  .ite h.put (.ite h.put.put (.ite h.put.put.put.bump.notice h.put.put.put.bump))

theorem Dev.Canon.append (h : d.Canon) {q x old data soi eoi} : (d.append q x old data soi eoi).Canon := by
  unfold Dev.append
  dsimp only
  exact have h1 : Dev.Canon _ := .watermark (.ite h.settle.setQue.put h.settle.setQue)
  .ite (.ite (.notice (.bump h1)) (.bump h1)) h1

theorem Dev.Canon.push (h : d.Canon) {q engine data soi eoi blocking} : (d.push q engine data soi eoi blocking).1.Canon :=
  .ite_fst (.fst h.setQue.bump) (.ite_fst (.fst h.setQue.bump) (.ite_fst (.fst h.setQue.bump.append) (.ite_fst (.fst h.setQue.bump)
      (.ite_fst (.fst h.setQue.setQue.put.bump) (.ite_fst (.ite_fst (.fst h.setQue) (.fst h.setQue.bump)) (.fst
      h.setQue.append))))))

/-- An operation recursive in a number keeps the stores when each of its turns does. -/
theorem Dev.Canon.brecOn (h : d.Canon) {F : (n : Nat) → Nat.below (motive := fun _ => Dev → Dev) n → Dev → Dev}
    (h0 : ∀ {f e}, e.Canon → (F 0 f e).Canon)
    (hs : ∀ {n e} {f : Nat.below (motive := fun _ => Dev → Dev) (n + 1)}, (∀ {e}, e.Canon → (f.1 e).Canon) → e.Canon →
      (F (n + 1) f e).Canon) {n} :
    (Nat.brecOn (motive := fun _ => Dev → Dev) n F d).Canon := by
  induction n generalizing d with
  | zero => exact h0 h
  | succ n ih => exact hs ih h

/-- A turn of `Dev.wakePushers`. `push` stands in it as a variable, so that the kernel does not evaluate it. -/
theorem Dev.Canon.wakePushersTurn (h : d.Canon) {q n f} (hf : ∀ {e}, e.Canon → (f.1 e).Canon) :
    (Dev.wakePushers._f q (n + 1) f d).Canon := by
  obtain ⟨push, hpush⟩ : ∃ push, push = d.push q := ⟨_, rfl⟩
  have hp {engine data soi eoi} : (push engine data soi eoi true).1.Canon := hpush ▸ h.push
  delta Dev.wakePushers._f
  dsimp -zeta only
  rw [← hpush]
  split
  · split
    · split
      · rename_i hd
        exact hf (hp.of_fst hd).setWaits.answer
      · exact h
    · exact h
  · exact h

theorem Dev.Canon.wakePushers (h : d.Canon) {q k} : (d.wakePushers q k).Canon := by
  delta Dev.wakePushers
  exact h.brecOn (F := Dev.wakePushers._f q) (fun he => he) fun hf he => he.wakePushersTurn hf

theorem Dev.Canon.queuePush (h : d.Canon) {p} : (d.queuePush p).Canon := by
  refine .ite h ?_
  split
  · rename_i he
    exact (h.push.of_fst he).answer
  · rename_i he
    exact (h.push.of_fst he).block

theorem Dev.Canon.emptyRead (h : d.Canon) {q engine x} : (d.emptyRead q engine x).Canon := h.setQue.put.bump.answer

theorem Dev.Canon.queueRead (h : d.Canon) {q engine} : (d.queueRead q engine).Canon := by
  unfold Dev.queueRead
  dsimp only
  split
  · exact .ite h.emptyRead h.put.bump.settle.setQue.answer.wakePushers
  · exact h.emptyRead

theorem Dev.Canon.queueTimeout (h : d.Canon) {q} : (d.queueTimeout q).Canon :=
  .ite h (have h1 := h.advance.setQue.put
  .ite h1.bump.notice h1.bump)

theorem Dev.Canon.clearNotice (h : d.Canon) {q} : (d.clearNotice q).Canon := h.put.put.put

theorem Dev.Canon.flushNow (h : d.Canon) {q} : (d.flushNow q).Canon := by
  refine .wakePushers (.ite ?_ (.setQue (.put (.bump (.bump (.ite h.bump.put h))))))
  split
  · exact .setCtr (.setQue (.put (.bump (.bump (.ite h.bump.put h)))))
  · exact .setQue (.put (.bump (.bump (.ite h.bump.put h))))

theorem Dev.Canon.flush (h : d.Canon) {q} : (d.flush q).Canon := .ite (.ite h h.setQue.put) h.flushNow
theorem Dev.Canon.packetBoundaryFlush (h : d.Canon) {q} : (d.packetBoundaryFlush q).Canon := .ite h.flushNow h
theorem Dev.Canon.flushForced (h : d.Canon) {q} : (d.flushForced q).Canon := .ite h.bump.flushNow h
theorem Dev.Canon.restartWrite (h : d.Canon) {c value} : (d.restartWrite c value).1.Canon := .ite_fst h (.ite_fst h.put h)

theorem Dev.Canon.contextRestart (h : d.Canon) {c} : (d.contextRestart c).Canon := by
  unfold Dev.contextRestart
  extract_lets pages reset ctrs sync d1 d2 d3 d4 d5
  have h1 : d1.Canon := h.same
  have h2 : d2.Canon := h1.withdrawWaits
  have h3 : d3.Canon := h2.each fun h => h.each fun h => .ite h.put.put h
  have h4 : d4.Canon := h3.each fun h => h.setArrived
  have h5 : d5.Canon := h4.each fun h => h.flushNow
  exact Dev.Canon.bump (.put (.same h5.put.put))

/-! ### Fabric -/

theorem Dev.Canon.modLink (h : d.Canon) {l f} : (d.modLink l f).Canon := h.same
theorem Dev.Canon.setHall (h : d.Canon) {x} : (d.setHall x).Canon := h.same

theorem Dev.Canon.fabTrace (h : d.Canon) {kind flags source path opc peer pseq wrap} : (d.fabTrace kind flags source path opc peer
    pseq wrap).Canon :=
  .ite h.trace h

theorem Dev.Canon.fabTx (h : d.Canon) {path w} : (d.fabTx path w).Canon := by
  unfold Dev.fabTx
  split
  · exact h.fabTrace
  · exact h

theorem Dev.Canon.putBlock (h : d.Canon) {l bytes} : (d.putBlock l bytes).Canon := h.same
theorem Dev.Canon.idleBlock (h : d.Canon) {l credits} : (d.idleBlock l credits).Canon := .ite h.putBlock h

theorem Dev.Canon.linkFlush (h : d.Canon) {l k} : (d.linkFlush l k).Canon := by
  induction k generalizing d with
  | zero => exact h
  | succ k ih =>
    refine .ite h ?_
    split
    · exact h
    · exact ih (h.modLink.putBlock.bump.each fun h1 => h1.fabTx)

theorem Dev.Canon.linkSend (h : d.Canon) {l cls op mark} : (d.linkSend l cls op mark).Canon := h.modLink.linkFlush
theorem Dev.Canon.hallPut (h : d.Canon) {dest seq ops} : (d.hallPut dest seq ops).Canon := h.sendOwn

theorem Dev.Canon.hallFlush (h : d.Canon) {dest k} : (d.hallFlush dest k).Canon := by
  induction k generalizing d with
  | zero => exact h
  | succ k ih =>
    unfold Dev.hallFlush
    dsimp only
    split
    · exact h
    · exact .ite h (ih (h.setHall.hallPut.each fun h1 => h1.fabTx))

theorem Dev.Canon.hallSend (h : d.Canon) {dest op mark} : (d.hallSend dest op mark).Canon := .ite h.setHall.hallFlush h
theorem Dev.Canon.setPairTx (h : d.Canon) {x} : (d.setPairTx x).Canon := h.same

theorem Dev.Canon.leave (h : d.Canon) {h' later link} : (d.leave h' later link).Canon := by
  unfold Dev.leave
  split
  · exact h.setPairTx.same.bump.linkSend
  · exact h.setPairTx.same.bump.hallSend

theorem Dev.Canon.rmtAnswer (h : d.Canon) {engine tag data} : (d.rmtAnswer engine tag data).Canon := h.same
theorem Dev.Canon.rmtPoison (h : d.Canon) {engine tag} : (d.rmtPoison engine tag).Canon := h.bump.rmtAnswer

theorem Dev.Canon.atomic (h : d.Canon) {opc addr payload bad} : (d.atomic opc addr payload bad).1.Canon := by
  unfold Dev.atomic
  split
  · rename_i he
    exact .ite (h.fetch.of_fst he) ((h.fetch.of_fst he).store)
  · rename_i he
    exact h.fetch.of_fst he

theorem Dev.Canon.localOp (h : d.Canon) {h'} : (d.localOp h').Canon := by
  unfold Dev.localOp
  split
  · exact h.fetch.rmtAnswer
  · exact h.store
  · exact h.signal
  · exact h.atomic.rmtAnswer

theorem Dev.Canon.tryLeave (h : d.Canon) {op later r} (hr : d.tryLeave op later = some r) : r.Canon := by
  have fails {p q : Prop} [Decidable p] [Decidable q] {e n} : (if p then (d.bump C.MEM_NO_ROUTE).rmtPoison e n
      else if q then (d.bump C.MEM_NO_ROUTE).rmtAnswer e n none else d.bump C.MEM_NO_ROUTE).Canon :=
    .ite h.bump.rmtPoison (.ite h.bump.rmtAnswer h.bump)
  unfold Dev.tryLeave at hr
  dsimp only at hr
  split at hr
  · cases hr
    exact h.localOp
  · split at hr
    · cases hr
      exact fails
    · split at hr
      · cases hr
        exact fails
      · split at hr <;> cases hr
        exact h.leave

theorem Dev.Canon.heldStep (h : d.Canon) {before held r} (hr : d.heldStep before held = some r) : r.Canon := by
  induction held generalizing before with
  | nil => cases hr
  | cons op rest ih =>
    unfold Dev.heldStep at hr
    dsimp only at hr
    split at hr
    · rename_i hgo
      cases hr
      split at hgo
      · exact h.same.tryLeave hgo
      · cases hgo
    · exact ih hr

theorem Dev.Canon.wakeHeld (h : d.Canon) {k} : (d.wakeHeld k).Canon := by
  induction k generalizing d with
  | zero => exact h
  | succ k ih =>
    unfold Dev.wakeHeld
    split
    · rename_i he
      exact ih (h.heldStep he)
    · exact h

theorem Dev.Canon.issue (h : d.Canon) {r} : (d.issue r).Canon := by
  refine .ite h (.ite h.localOp (.ite (.same (.ite h.bump h)) ?_))
  split
  · rename_i he
    exact h.tryLeave he
  · exact h.same

theorem Dev.Canon.answered (h : d.Canon) {o} : (d.answered o).Canon := h.same.wakeHeld

theorem Dev.Canon.refusedBy (h : d.Canon) {o code} : (d.refusedBy o code).Canon :=
  .answered (.ite h.contextFault (.ite h.contextFault (.ite h.rmtPoison (.ite h.contextFault h))))

theorem Dev.Canon.setPairRx (h : d.Canon) {x} : (d.setPairRx x).Canon := h.same

theorem Dev.Canon.sendAnswer (h : d.Canon) {src hall link opc code pseq tag payload} : (d.sendAnswer src hall link opc code pseq tag
    payload).Canon :=
  .ite h.hallSend h.linkSend

theorem Dev.Canon.remoteSignal (h : d.Canon) {src hall link pseq tag c v n} : (d.remoteSignal src hall link pseq tag c v n).Canon :=
    by
  unfold Dev.remoteSignal
  split
  · exact h.sendAnswer
  · exact have h1 := h.bump.meetsWrite
    .ite h1.sendAnswer (.ite h1.bump.sendAnswer h1.setCtr.releaseOn.sendAnswer)

theorem Dev.Canon.commitMark (h : d.Canon) {x} : (d.commitMark x).Canon := h.setPairRx.each fun h1 => h1.remoteSignal
theorem Dev.Canon.writeDone (h : d.Canon) {src hall link pseq} : (d.writeDone src hall link pseq).Canon := h.commitMark

theorem Dev.Canon.takeOp (h : d.Canon) {src hall link resent frees op} : (d.takeOp src hall link resent frees op).Canon :=
  .ite h.same.bump.fabTrace.commitMark h.same

theorem Dev.Canon.freeBlocks (h : d.Canon) {link opc n} : (d.freeBlocks link opc n).Canon := .ite h h.idleBlock.modLink

theorem Dev.Canon.takeIn (h : d.Canon) {p r} (hr : d.takeIn p = some r) : r.2.Canon := by
  unfold Dev.takeIn at hr
  split at hr <;> cases hr
  exact .ite h.same h.same.freeBlocks

theorem Dev.Canon.nackOp (h : d.Canon) {x code} : (d.nackOp x code).Canon := .ite h.sendAnswer.writeDone h.sendAnswer

theorem Dev.Canon.loadOp (h : d.Canon) {bad} : (d.loadOp bad).Canon := by
  unfold Dev.loadOp
  split
  · exact h
  · rename_i he1
    refine .ite ((h.takeIn he1).nackOp) (.ite (((h.takeIn he1).bump).nackOp) ?_)
    split
    · rename_i he2
      exact (((h.takeIn he1).fetch).of_fst he2).sendAnswer
    · rename_i he2
      exact (((h.takeIn he1).fetch).of_fst he2).nackOp

theorem Dev.Canon.storeOp (h : d.Canon) : d.storeOp.Canon := by
  unfold Dev.storeOp
  split
  · exact h
  · rename_i he
    exact .ite ((h.takeIn he).nackOp) (.ite (((h.takeIn he).bump).nackOp) ((h.takeIn he).same))

theorem Dev.Canon.writeCommit (h : d.Canon) {src hall pseq bad} : (d.writeCommit src hall pseq bad).Canon := by
  unfold Dev.writeCommit
  split
  · exact h
  · exact h.same.store.sendAnswer.writeDone

theorem Dev.Canon.atomicOp (h : d.Canon) {opc bad} : (d.atomicOp opc bad).Canon := by
  unfold Dev.atomicOp
  split
  · exact h
  · rename_i he1
    refine .ite ((h.takeIn he1).nackOp) (.ite (((h.takeIn he1).bump).nackOp) ?_)
    split
    · rename_i he2
      exact ((((h.takeIn he1).atomic).of_fst he2).sendAnswer).writeDone
    · rename_i he2
      exact (((h.takeIn he1).atomic).of_fst he2).nackOp

theorem Dev.Canon.signalOp (h : d.Canon) : d.signalOp.Canon := by
  unfold Dev.signalOp
  split
  · exact h
  · rename_i he
    exact .ite ((h.takeIn he).nackOp) (.ite ((h.takeIn he).remoteSignal) (.ite (.contextFault (.ite ((h.takeIn he).bump) ((h.takeIn
        he).bump))) (.setPairRx (.bump (.ite ((h.takeIn he).bump) (h.takeIn he))))))

theorem Dev.Canon.dropReleases (h : d.Canon) {c} : (d.dropReleases c).Canon := h.same

theorem Dev.Canon.takeAnswer (h : d.Canon) {opc r} (hr : d.takeAnswer opc = some r) : r.2.2.Canon := by
  unfold Dev.takeAnswer at hr
  split at hr
  · rename_i he
    obtain ⟨o, -, rfl⟩ := Option.map_eq_some_iff.1 hr
    exact h.takeIn he
  · cases hr

theorem Dev.Canon.dropAnswer (h : d.Canon) {opc} : (d.dropAnswer opc).Canon := by
  unfold Dev.dropAnswer
  split
  · rename_i he
    exact h.takeIn he
  · exact h

theorem Dev.Canon.dataAnswer (h : d.Canon) {opc} : (d.dataAnswer opc).Canon := by
  unfold Dev.dataAnswer
  split
  · rename_i he
    exact ((h.takeAnswer he).rmtAnswer).answered
  · exact h.dropAnswer

theorem Dev.Canon.ackOp (h : d.Canon) : d.ackOp.Canon := by
  unfold Dev.ackOp
  split
  · rename_i he
    exact (h.takeAnswer he).answered
  · exact h.dropAnswer

theorem Dev.Canon.nackReceived (h : d.Canon) : d.nackReceived.Canon := by
  unfold Dev.nackReceived
  dsimp only
  split
  · exact h
  · rename_i he
    split
    · exact ((h.takeIn he).bump).refusedBy
    · exact (h.takeIn he).bump

theorem Dev.Canon.timedOut (h : d.Canon) {o} : (d.timedOut o).Canon := h.bump.refusedBy

theorem Dev.Canon.remoteTimeout (h : d.Canon) {dest hall pseq} : (d.remoteTimeout dest hall pseq).Canon := by
  unfold Dev.remoteTimeout
  split
  · exact h.advanceClock.timedOut
  · exact h

theorem Dev.Canon.linkLost (h : d.Canon) {l} : (d.linkLost l).Canon := h.put.put.modLink
theorem Dev.Canon.retrain (h : d.Canon) {l} : (d.retrain l).Canon := h.bump.linkLost
theorem Dev.Canon.sendId (h : d.Canon) {l device link} : (d.sendId l device link).Canon := h.putBlock

theorem Dev.Canon.idBlock (h : d.Canon) {l device peerLink roundTrip} : (d.idBlock l device peerLink roundTrip).Canon :=
  .ite h (.ite h.put.put.modLink ((h.put.sendId.put.put.put.modLink.each fun h1 => h1.putBlock.bump).linkFlush))

theorem Dev.Canon.peerSilent (h : d.Canon) {l} : (d.peerSilent l).Canon := .ite h.advanceClock.bump.health.linkLost.modLink h

theorem Dev.Canon.retrainAttempt (h : d.Canon) {l trained} : (d.retrainAttempt l trained).Canon := by
  refine .ite h (have h1 : Dev.Canon _ := ?_
  .ite (.sendId (.modLink (.put (.put h1)))) (.modLink (.put (.put h1))))
  split
  · exact h.advanceClock
  · exact h

theorem Dev.Canon.remoteCaps (h : d.Canon) {before} : (d.remoteCaps before).Canon := h.each fun h1 => .ite h1.put h1

theorem Dev.Canon.mirrorLaneFail (h : d.Canon) {l lane} : (d.mirrorLaneFail l lane).Canon :=
  .ite h h.put.remoteCaps.health.lifeEntry.standingWrite.put

theorem Dev.Canon.askReplay (h : d.Canon) {l} : (d.askReplay l).Canon := h.putBlock
theorem Dev.Canon.replay (h : d.Canon) {l seq} : (d.replay l seq).Canon := .ite h (h.bump.each fun h1 => h1.putBlock.bump)

theorem Dev.Canon.replayTimeout (h : d.Canon) {l} : (d.replayTimeout l).Canon := by
  unfold Dev.replayTimeout
  split
  · exact h
  · exact have h1 := h.advanceClock
    .ite h1.retrain h1.modLink.askReplay

theorem Dev.Canon.sendTick (h : d.Canon) {l tick period driver hop age} : (d.sendTick l tick period driver hop age).Canon :=
  .ite h.draw.putBlock h

theorem Dev.Canon.driveTicks (h : d.Canon) : d.driveTicks.Canon := .ite (h.each fun h1 => h1.sendTick) h

theorem Dev.Canon.tickBlock (h : d.Canon) {l ops} : (d.tickBlock l ops).Canon := by
  refine .ite h ?_
  dsimp only
  split
  · exact .ite (h.each fun h1 => h1.sendTick) h
  · exact .ite (.same (.ite (h.each fun h1 => h1.sendTick) h)) (.ite (.ite (h.each fun h1 => h1.sendTick) h) (.bump (.put (.same
      (.ite (h.each fun h1 => h1.sendTick) h)))))

theorem Dev.Canon.sourceOn (h : d.Canon) {l} : (d.sourceOn l).2.Canon := .ite_snd h.draw h

theorem Dev.Canon.blockOp (h : d.Canon) {l cls resent frees op} : (d.blockOp l cls resent frees op).Canon :=
  .ite h.sourceOn.takeOp (.ite h.freeBlocks.bump.linkSend h.freeBlocks.bump)

theorem Dev.Canon.blockOps (h : d.Canon) {l cls resent bytes} : (d.blockOps l cls resent bytes).Canon :=
  .each (.ite h.modLink.freeBlocks h.modLink) fun h1 => h1.blockOp

theorem Dev.Canon.dataBlock (h : d.Canon) {l b} : (d.dataBlock l b).Canon := by
  refine .ite (have h1 := h.bump.health
  .ite h1.retrain h1.modLink) (.ite (have h2 := h.bump.health
  .ite h2.askReplay ?_) h.modLink.bump.idleBlock.blockOps)
  dsimp only
  split
  · exact h2.modLink.askReplay
  · exact h2.modLink.modLink.askReplay

theorem Dev.Canon.mirrorBlock (h : d.Canon) {l block codewordBad} : (d.mirrorBlock l block codewordBad).Canon := by
  refine .ite h (.ite h.bump ?_)
  split
  · exact h.modLink.linkFlush.dataBlock
  · exact h.modLink.linkFlush.replay
  · exact h.modLink.linkFlush.tickBlock
  · exact h.modLink.linkFlush

theorem Dev.Canon.hallReceive (h : d.Canon) : d.hallReceive.Canon := by
  unfold Dev.hallReceive
  split
  · exact h
  · exact .ite h.same.bump.health (.ite h.same.bump (have h1 := (h.same.setHall.each fun h2 => h2.takeOp).hallFlush
    .ite h1 h1.hallPut))

theorem Dev.Canon.hallRetransmit (h : d.Canon) {dest seq} : (d.hallRetransmit dest seq).Canon := by
  unfold Dev.hallRetransmit
  dsimp only
  split
  · exact h
  · exact have h1 := h.advanceClock
    .ite h1.setHall.bump.hallPut (h1.setHall.each fun h2 => h2.timedOut)

/-! ### Array -/

theorem Dev.Canon.elems (h : d.Canon) {p fmt start count bad} : (d.elems p fmt start count bad).1.Canon := h.placeFetch

theorem Dev.Canon.readPieces (h : d.Canon) {fmt pieces bad} : (d.readPieces fmt pieces bad).1.Canon :=
  h.foldl_fst fun h1 => .fst h1.elems

theorem Dev.Canon.fetchAll (h : d.Canon) {bad spans} : (d.fetchAll bad spans).1.Canon := by
  induction spans generalizing d with
  | nil => exact h
  | cons span spans ih => exact ih (.ite_fst h h.fetch)

theorem Dev.Canon.beginPass (h : d.Canon) {t bad} : (d.beginPass t bad).1.Canon := by
  unfold Dev.beginPass
  dsimp only
  split
  · rename_i he1
    exact h.fetch.of_fst he1
  · rename_i he1
    split
    · rename_i he2
      exact ((((h.fetch.of_fst he1).fetchAll).of_fst he2).same).programBegin
    · rename_i he2
      exact ((h.fetch.of_fst he1).fetchAll).of_fst he2

theorem Dev.Canon.occupy (h : d.Canon) {t aBits wBits} : (d.occupy t aBits wBits).Canon :=
  .ite h.put.put.put.put (h.each fun h1 => h1.put.put.put.put.put.put)

theorem Dev.Canon.flagRerun (h : d.Canon) {t} : (d.flagRerun t).Canon := by
  refine .ite h (h.each fun h1 => ?_)
  split
  · exact h1.setSample
  · exact h1

theorem Dev.Canon.operandLost (h : d.Canon) {t} : (d.operandLost t).Canon := .same (.ite h.bump h.bumpFacet)
theorem Dev.Canon.loadBanks (h : d.Canon) {t perRow wgt} : (d.loadBanks t perRow wgt).Canon := h.each fun h1 => h1.same

theorem Dev.Canon.weights (h : d.Canon) {p t bad} : (d.weights p t bad).1.Canon := by
  refine .ite_fst h.readPieces ?_
  split
  · exact h.same
  · exact h.readPieces.same

theorem Dev.Canon.passFor (h : d.Canon) {t bad} : (d.passFor t bad).1.Canon := by
  unfold Dev.passFor
  split
  · exact h
  · split
    · rename_i he
      exact (h.beginPass.of_fst he).same
    · rename_i he
      exact h.beginPass.of_fst he

theorem Dev.Canon.stream (h : d.Canon) {t again reissue bad} : (d.stream t again reissue bad).Canon := by
  unfold Dev.stream
  dsimp only
  split
  · rename_i he
    exact (h.passFor.of_fst he).operandLost
  · rename_i he
    refine .ite h ?_
    split
    · exact ((((h.passFor.of_fst he).readPieces).weights.setPass.each fun h1 => h1.unitIdle).loadBanks).same.occupy
    · exact ((h.passFor.of_fst he).readPieces).weights.operandLost

theorem Dev.Canon.reissue (h : d.Canon) {s t bad} : (d.reissue s t bad).Canon :=
  .stream (.flagRerun (.ite h.same.bump h.same.bumpFacet))

theorem Dev.Canon.tileIssue (h : d.Canon) {t bad} : (d.tileIssue t bad).Canon := by
  refine .ite h ?_
  split
  · exact .ite h.reissue h
  · exact h.stream

theorem Dev.Canon.tileCycles (h : d.Canon) {t p y} : (d.tileCycles t p y).Canon :=
  have h1 := h.countCycles
  .ite h1.bump ((h1.each fun h2 => h2.bump).bump.bump)

theorem Dev.Canon.logCheck (h : d.Canon) {t facet fail} : (d.logCheck t facet fail).Canon :=
  .ite (.ite h.bump h.put.put.put.put) (.ite h.bump h.put.put.put.put.put.put.put.put)

theorem Dev.Canon.checkFailed (h : d.Canon) {r fail} : (d.checkFailed r fail).Canon :=
  have h1 : Dev.Canon _ := .stopTile (.ite h.logCheck.bump.health.failure (h.logCheck.each fun h2 => h2.bumpFacet.health.failure))
  .ite (.contextFault h1) h1

theorem Dev.Canon.tilePassed (h : d.Canon) {r us p} : (d.tilePassed r us p).Canon :=
  have h1 : Dev.Canon _ := .ite h.setPass.same.cmdWork.bump h.setPass.same.cmdWork
  .tileLeft (.ite (.bump h1) (.each h1 fun h2 => h2.bumpFacet.bumpFacet))

theorem Dev.Canon.tileDone (h : d.Canon) {mine us y} : (d.tileDone mine us y).Canon := by
  unfold Dev.tileDone
  dsimp only
  split
  · exact h
  · split
    · exact h
    · split
      · exact h.tileCycles.checkFailed
      · exact h.tileCycles.tilePassed

/-! ### Publish -/

theorem Dev.Canon.addFlags (h : d.Canon) {p flags} : (d.addFlags p flags).Canon := by
  unfold Dev.addFlags
  dsimp only
  exact h.fetchFree.store

theorem Dev.Canon.bumpPass (h : d.Canon) {p lens grt n} : (d.bumpPass p lens grt n).Canon := by
  unfold Dev.bumpPass
  split
  · exact h.bump
  · exact h.bump
  · exact h

theorem Dev.Canon.normalScale (h : d.Canon) {x} : (d.normalScale x).2.Canon := .ite_snd h h.draw

theorem Dev.Canon.scaleUpdate (h : d.Canon) {p st rerun} : (d.scaleUpdate p st rerun).1.Canon :=
  .ite_fst h (have h1 : Dev.Canon _ := .ite h.bumpPass (.ite h.bumpPass (.ite h.bumpPass h))
  .ite_fst (.fst (.store (.normalScale h1))) (.fst h1))

theorem Dev.Canon.setWatch (h : d.Canon) {w x} : (d.setWatch w x).Canon := h.same

theorem Dev.Canon.published (h : d.Canon) {p mode} : (d.published p mode).Canon :=
  .ite h (h.each fun h1 => .ite h1.setWatch h1.setWatch)

theorem Dev.Canon.tearWatches (h : d.Canon) {p} : (d.tearWatches p).Canon := h.each fun h1 => h1.bump.setWatch
theorem Dev.Canon.release_ (h : d.Canon) {p} : (d.release_ p).Canon := h.signal.published

theorem Dev.Canon.narrowStands (h : d.Canon) {p} : (d.narrowStands p).Canon := by
  unfold Dev.narrowStands
  dsimp only
  exact h.fetchFree.scaleUpdate.addFlags.release_

theorem Dev.Canon.widenRefuse (h : d.Canon) {p} : (d.widenRefuse p).Canon := h.bumpPass.narrowStands

theorem Dev.Canon.widenGrant (h : d.Canon) {p} : (d.widenGrant p).Canon := by
  refine h.same.each fun h1 => ?_
  split
  · exact h1.setSample
  · exact h1

theorem Dev.Canon.widenRequest (h : d.Canon) {p} : (d.widenRequest p).Canon :=
  .ite h.bumpPass.widenRefuse (.ite h.bumpPass.widenGrant h.bumpPass.same)

theorem Dev.Canon.widenDeadline (h : d.Canon) : d.widenDeadline.Canon :=
  (h.same.each fun h1 => h1.widenRefuse).each fun h2 => h2.narrowStands

theorem Dev.Canon.countDrain (h : d.Canon) {p os} : (d.countDrain p os).Canon := h.bumpPass.bumpPass.bumpPass
theorem Dev.Canon.noteFallback (h : d.Canon) {p amax} : (d.noteFallback p amax).Canon := h.same
theorem Dev.Canon.setLearner (h : d.Canon) {m l} : (d.setLearner m l).Canon := h.same
theorem Dev.Canon.noteOverflow (h : d.Canon) {p os amax} : (d.noteOverflow p os amax).Canon := .ite h h.setLearner

theorem Dev.Canon.settleStats (h : d.Canon) {p os} : (d.settleStats p os).Canon :=
  have h1 : Dev.Canon _ := .bumpPass (.store (.ite_fst h h.scaleUpdate))
  have h2 : Dev.Canon _ := .ite (.noteFallback h1) h1
  have h3 : Dev.Canon _ := .ite (.noteOverflow h2) h2
  have h4 : Dev.Canon _ := .ite (.bumpPass h3) h3
  have h5 : Dev.Canon _ := .ite (.bumpPass h4) h4
  .ite (.widenRequest h5) (.ite (.release_ h5) (.published h5))

theorem Dev.Canon.publishFmt (h : d.Canon) {p} : (d.publishFmt p).Canon := h.same
theorem Dev.Canon.keepUndo (h : d.Canon) {p place n} : (d.keepUndo p place n).Canon := .ite h.setLearner h

theorem Dev.Canon.outputSwap (h : d.Canon) {partition} : (d.outputSwap partition).Canon := by
  unfold Dev.outputSwap
  split
  · exact h
  · exact have h1 := h.keepUndo.engineStore.publishFmt.countDrain.same.endPass.tearWatches
    .signal (.ite h1.settleStats.published (.ite h1 h1.release_))

/-! ### Elementwise -/

theorem Dev.Canon.readerFault (h : d.Canon) {c engine partition} : (d.readerFault c engine partition).Canon := h.contextFault

theorem Dev.Canon.eltIntOne (h : d.Canon) {op a b} : (d.eltIntOne op a b).1.Canon := by
  unfold Dev.eltIntOne
  split
  · exact h
  · exact h.draw

theorem Dev.Canon.eltFpOne (h : d.Canon) {op a b c} : (d.eltFpOne op a b c).1.Canon := by
  unfold Dev.eltFpOne
  split
  · exact h.same
  · exact h

theorem Dev.Canon.eltReduce (h : d.Canon) {op xs} : (d.eltReduce op xs).1.Canon := by
  unfold Dev.eltReduce
  split
  · exact h
  · exact h
  · exact h.draw.sumPicked

theorem Dev.Canon.eltRun (h : d.Canon) {op xs} : (d.eltRun op xs).1.Canon :=
  .ite_fst (.fst h.eltReduce) (h.foldl_fst fun h1 => .ite_fst (.fst h1.eltIntOne) (.fst h1.eltFpOne))

theorem Dev.Canon.eltOperand (h : d.Canon) {reads p fmt n bad} : (d.eltOperand reads p fmt n bad).1.Canon := .ite_fst h.elems h
theorem Dev.Canon.cmemWait (h : d.Canon) {c ps} : (d.cmemWait c ps).Canon := .ite h.draw.bump h

theorem Dev.Canon.elementwise (h : d.Canon) {e' bad} : (d.elementwise e' bad).Canon := by
  unfold Dev.elementwise
  dsimp only
  refine .ite h ?_
  split
  · exact h.programBegin.cmemWait.eltOperand.eltOperand.eltOperand.eltRun.engineStore.bump.bump.bump.programEnd
  · exact h.programBegin.cmemWait.eltOperand.eltOperand.eltOperand.readerFault.programEnd

theorem Dev.Canon.moverIssue (h : d.Canon) {o} : (d.moverIssue o).Canon := .ite h (.moverNext (.same (.ite h.stepBegun h)))
theorem Dev.Canon.moverSource (h : d.Canon) {o bad} : (d.moverSource o bad).1.Canon := h.foldl_fst fun h1 => .fst h1.placeFetch

theorem Dev.Canon.moverComplete (h : d.Canon) {c bad} : (d.moverComplete c bad).Canon := by
  unfold Dev.moverComplete
  dsimp only
  split
  · exact h
  · rename_i he
    split
    · rename_i he
      exact (((h.same.cmemWait.moverSource.of_fst he).readerFault).programEnd).moverNext
    · rename_i he
      exact have h1 := ((h.same.cmemWait.moverSource.of_fst he).each fun h2 => h2.engineStore).bump.bump
      .moverNext (.signal (.programEnd (.cmdWork (.ite h1.bump h1))))

/-! ### Forest -/

theorem Dev.Canon.engineStates (h : d.Canon) : d.engineStates.Canon := h.each fun h1 => .ite h1 h1.put
theorem Dev.Canon.countFeats (h : d.Canon) {fs} : (d.countFeats fs).Canon := h.bump.bump.bump

theorem Dev.Canon.forestStage (h : d.Canon) {e' fs activated lanes} : (d.forestStage e' fs activated lanes).1.Canon :=
  h.foldl_fst fun h1 => .fst h1.sumPicked

theorem Dev.Canon.forestRun (h : d.Canon) {j es activated lanes} : (forestRun j es d activated lanes).1.Canon := by
  induction es generalizing d activated lanes with
  | nil => exact h
  | cons se es ih =>
    unfold Machine.forestRun
    dsimp only
    split
    · exact .fst h.bump.bump
    · exact ih h.bump.bump.forestStage

theorem Dev.Canon.replicaBegin (h : d.Canon) {m r} : (d.replicaBegin m r).Canon := by
  unfold Dev.replicaBegin
  split
  · exact .ite h h.cmdBegin
  · exact h

theorem Dev.Canon.replicaEnd (h : d.Canon) {m r cause} : (d.replicaEnd m r cause).Canon := by
  unfold Dev.replicaEnd
  split
  · exact h.cmdEnd
  · exact h

theorem Dev.Canon.replicaFroze (h : d.Canon) {m r stall} : (d.replicaFroze m r stall).Canon := (h.each fun h1 => h1.bump).same

theorem Dev.Canon.forestEnter (h : d.Canon) {b s j bad stall} : (d.forestEnter b s j bad stall).Canon := by
  refine .ite h.setSample ?_
  split
  · rename_i he
    exact (h.replicaFroze.fetch.of_fst he).setSample
  · rename_i he
    exact (((h.replicaFroze.fetch.of_fst he).countFeats).replicaBegin).same.engineStates

theorem Dev.Canon.forestNext (h : d.Canon) {m bad stall} : (d.forestNext m bad stall).Canon := by
  unfold Dev.forestNext
  dsimp only
  split
  · exact h
  · refine .ite h ?_
    split
    · exact h.same.forestEnter
    · split
      · exact h
      · split
        · exact h.same
        · exact h.same.same.setSample.bump.forestEnter

theorem Dev.Canon.replicaIdle (h : d.Canon) {m r} : (d.replicaIdle m r).Canon := .ite h.replicaEnd h

theorem Dev.Canon.forestResult (h : d.Canon) {m} : (d.forestResult m).Canon := by
  unfold Dev.forestResult
  split
  · exact h
  · refine .engineStates (.replicaIdle ?_)
    split
    · exact .tierResult (.bump (.ite h.same.cmdWork.forestRun h.same.cmdWork.forestRun.bump))
    · exact h.same.cmdWork.forestRun.same

/-- The stages that a sample cut at the deadline has reached. -/
theorem Dev.Canon.forestCutStages (h : d.Canon) {j es} : (Machine.forestCut j es d).Canon := by
  induction es generalizing d with
  | nil => exact h.bump
  | cons se es ih => exact .ite h.bump (.ite h.bump.bump (.ite (ih h.bump.bump) h.bump.bump))

theorem Dev.Canon.forestCut (h : d.Canon) {j} : (d.forestCut j).Canon := h.forestCutStages

theorem Dev.Canon.forestDeadline (h : d.Canon) : d.forestDeadline.Canon :=
  ((h.each fun h1 => h1.forestCut).same.each fun h2 => h2.replicaEnd).engineStates

theorem Dev.Canon.modReached (h : d.Canon) {e' f} : (d.modReached e' f).Canon := h.same
theorem Dev.Canon.wordGoesBad (h : d.Canon) {e'} : (d.wordGoesBad e').Canon := .put (.ite h h.modReached)
theorem Dev.Canon.wordsGood (h : d.Canon) {e'} : (d.wordsGood e').Canon := h.modReached.put

theorem Dev.Canon.forestError (h : d.Canon) {x} : (d.forestError x).Canon := by
  unfold Dev.forestError
  split
  · exact h
  · exact .ite h (.ite h.bump h.same.bump.wordGoesBad.health.failure)

theorem Dev.Canon.forestScrub (h : d.Canon) {errors} : (d.forestScrub errors).Canon := h.each fun h1 => h1.forestError

theorem Dev.Canon.forestRewrite (h : d.Canon) {a} : (d.forestRewrite a).Canon := by
  refine .ite h ?_
  split
  · exact .ite h.setWord.same h.setWord.same.wordsGood
  · exact h.setWord.same

theorem Dev.Canon.bankUse (h : d.Canon) {e'} : (d.bankUse e').Canon := h.put.put

theorem Dev.Canon.forestFlip (h : d.Canon) {m} : (d.forestFlip m).Canon := by
  refine .ite h (Dev.Canon.bump (.put (.put ?_)))
  have hf {new : List (Nat × Word)} {p : Nat × Word → Bool} {lens : Lens} : Dev.Canon
      { d with regs := new.foldl (fun s w => Sparse.write resetWord s w.1 w.2) (d.regs.filter p), lens := lens } :=
    ⟨Sparse.wf_foldl_write (Sparse.wfFrom_filter _ h.regs), h.mem, h.core⟩
  split
  · exact (hf.each fun h1 => h1.put.bankUse).put.same
  · exact hf.each fun h1 => h1.put.bankUse

theorem Dev.Canon.shadowLoaded (h : d.Canon) {m} : (d.shadowLoaded m).Canon := .ite ((h.each fun h1 => h1.put).put) h

/-! ### Seq -/

theorem Dev.Canon.putSample (h : d.Canon) {computing s} : (d.putSample computing s).Canon := .ite h.setSample h.same

theorem Dev.Canon.stateReady (h : d.Canon) : d.stateReady.Canon := by
  unfold Dev.stateReady
  split
  · exact h
  · refine .ite h (h.same.each fun h1 => ?_)
    split
    · exact h1.signal
    · exact h1

theorem Dev.Canon.stateReadDone (h : d.Canon) {computing b s bad} : (d.stateReadDone computing b s bad).Canon := by
  refine have h1 : Dev.Canon _ := ?_
  .stateReady (.putSample (.store (.ite (.bump h1) h1)))
  split
  · exact h.fetch
  · exact h.fetch

theorem Dev.Canon.stateReadEnd (h : d.Canon) {slot bad} : (d.stateReadEnd slot bad).Canon := by
  unfold Dev.stateReadEnd
  dsimp only
  split
  · exact h.stateReadDone
  · exact .ite h h.stateReadDone
  · exact h

theorem Dev.Canon.openSample (h : d.Canon) {b s} : (d.openSample b s).Canon :=
  .ite h (.ite h.bump.setSample (.ite h.bump.setSample (.ite h (.setSample (.ite h.store h)))))

theorem Dev.Canon.setRing (h : d.Canon) {live} : (d.setRing live).Canon := h.same.put.peak

theorem Dev.Canon.ringPush (h : d.Canon) {bs} : (d.ringPush bs).Canon := by
  refine .same (.setRing (.store ?_))
  split
  · exact .ite_fst (.fst h.fetchFree.bump) h
  · exact h

theorem Dev.Canon.target (h : d.Canon) {b s} : (d.target b s).1.Canon := .ite_fst h.fetchFree h

theorem Dev.Canon.learnRecord (h : d.Canon) {b s} : (d.learnRecord b s).Canon := by
  refine .ite h ?_
  dsimp only
  split
  · rename_i he
    exact h.target.of_fst he
  · rename_i he
    exact ((h.target.of_fst he).fetchFree).fetchFree.ringPush.bump

theorem Dev.Canon.commitOne (h : d.Canon) {b s} : (d.commitOne b s).Canon := by
  unfold Dev.commitOne
  dsimp only
  refine .ite h ?_
  split
  · exact h.bump
  · rename_i he
    refine .cmdWork (.learnRecord (.setSample (.bump ?_)))
    split
    · rename_i he
      exact (h.fetchFree.fetch.of_fst he).store
    · rename_i he
      exact (h.fetchFree.fetch.of_fst he).setGranuleBad

theorem Dev.Canon.lateCarriers (h : d.Canon) {m first last mine} : (d.lateCarriers m first last mine).2.Canon := by
  unfold Dev.lateCarriers
  split
  · exact h
  · exact h
  · exact .ite_snd h h.draw

theorem Dev.Canon.commitLate (h : d.Canon) {m n} : (d.commitLate m n).Canon := .ite h h.bump.same

theorem Dev.Canon.commitRequest (h : d.Canon) {m req} : (d.commitRequest m req).Canon := by
  refine .ite (.cmdEnd ?_) (.ite h.stepBegun.cmdBegin.stepEnded.cmdEnd h)
  dsimp only
  split
  · exact h.cmdBegin.each fun h1 => h1.commitOne
  · exact h.cmdBegin.lateCarriers.commitLate

theorem Dev.Canon.stopLearning (h : d.Canon) {m endCause} : (d.stopLearning m endCause).Canon :=
  ((h.each fun h1 => h1.stopTile).each fun h2 => h2.dropPass).same

theorem Dev.Canon.learnBegin (h : d.Canon) {m} : (d.learnBegin m).Canon :=
  .ite h (.ite h.fetchEach h.fetchEach.setRing.bump.setLearner)

theorem Dev.Canon.desc (h : d.Canon) {a} : (d.desc a).1.Canon := h.fetchFree

theorem Dev.Canon.fallbackStep (h : d.Canon) {m} : (d.fallbackStep m).Canon :=
  h.each fun h1 => .ite h1.desc.same (.ite (.same (.ite h1.desc.store.store h1.desc.store.store.normalScale.store)) h1.desc.store)

theorem Dev.Canon.learnComplete (h : d.Canon) {m st writes} : (d.learnComplete m st writes).Canon :=
  have h1 := ((h.each fun h2 => h2.store).each fun h3 => h3.store).fallbackStep.bump.setLearner
  .ite h1.put h1

theorem Dev.Canon.overflowed (h : d.Canon) {m o} : (d.overflowed m o).Canon := by
  unfold Dev.overflowed
  dsimp only
  refine .ite h.desc.normalScale.store.store.setLearner (.ite h.desc.normalScale.store.store.setLearner ?_)
  split
  · exact h.desc.normalScale.store.store.setLearner.store.store.same.bump
  · exact h.desc.normalScale.store.store.setLearner.store.store.same

theorem Dev.Canon.asPublished (h : d.Canon) {desc was} : (d.asPublished desc was).Canon := h.same
theorem Dev.Canon.undoStep (h : d.Canon) {m} : (d.undoStep m).Canon := (h.each fun h1 => h1.placeStore.asPublished).setLearner

theorem Dev.Canon.learnSkip (h : d.Canon) {m st} : (d.learnSkip m st).Canon :=
  have h1 := h.undoStep.fetchEach
  .ite (h1.bump.each fun h2 => h2.overflowed).bump.setLearner (h1.bump.each fun h2 => h2.overflowed).setLearner

theorem Dev.Canon.learnEnd (h : d.Canon) {m writes} : (d.learnEnd m writes).Canon := by
  unfold Dev.learnEnd
  split
  · exact h
  · exact .ite h (.ite h.learnComplete h.learnSkip)

theorem Dev.Canon.learnTimeout (h : d.Canon) {m} : (d.learnTimeout m).Canon := by
  unfold Dev.learnTimeout
  dsimp only
  split
  · exact h
  · exact .ite h.stopLearning.undoStep.bump.setLearner h

theorem Dev.Canon.learnDeferred (h : d.Canon) : d.learnDeferred.Canon := h.each fun h1 => h1.bump
theorem Dev.Canon.stageRefuse (h : d.Canon) {m status} : (d.stageRefuse m status).1.Canon := .ite h.bump h

theorem Dev.Canon.stageOp (h : d.Canon) {payload} {run} (hrun : ∀ {e x1}, e.Canon → (run e x1).1.Canon) : (d.stageOp payload
    run).1.Canon := by
  unfold Dev.stageOp
  split
  · exact h.stageRefuse
  · exact hrun h

theorem Dev.Canon.stageStat (h : d.Canon) : d.stageStat.Canon := by
  unfold Dev.stageStat
  split
  · exact h.put.put.put
  · exact h.put

theorem Dev.Canon.setStaging (h : d.Canon) {s} : (d.setStaging s).Canon := h.same.stageStat

theorem Dev.Canon.stageOpen (h : d.Canon) {payload m} : (d.stageOpen payload m).1.Canon :=
  .ite_fst h.stageRefuse (.ite_fst h.stageRefuse (.ite_fst h.stageRefuse h.setStaging.put))

theorem Dev.Canon.stageData (h : d.Canon) {payload m} : (d.stageData payload m).1.Canon := by
  unfold Dev.stageData
  split
  · exact h.stageRefuse
  · exact .ite_fst h.stageRefuse (.ite_fst h.stageRefuse (.fst h.store.setStaging))

theorem Dev.Canon.closeFailed (h : d.Canon) {m code status} : (d.closeFailed m code status).1.Canon :=
  h.setStaging.put.put.stageRefuse

theorem Dev.Canon.beginLoad (h : d.Canon) {st s} : (d.beginLoad st s).Canon :=
  .setStaging (.ite (h.same.each fun h1 => h1.put) (h.same.each fun h1 => h1.put).put)

theorem Dev.Canon.stageClose (h : d.Canon) {m} : (d.stageClose m).1.Canon := by
  unfold Dev.stageClose
  dsimp only
  split
  · exact h.stageRefuse
  · refine .ite_fst h.stageRefuse (.ite_fst h.closeFailed ?_)
    split
    · exact h.fetchFree.bump.closeFailed
    · exact .ite_fst (.closeFailed (.ite h.fetchFree.bump h.fetchFree)) (.ite_fst h.fetchFree.put.closeFailed (.ite_fst
        h.fetchFree.put.closeFailed h.fetchFree.put.beginLoad))

theorem Dev.Canon.closeLoadDone (h : d.Canon) : d.closeLoadDone.Canon := by
  unfold Dev.closeLoadDone
  dsimp only
  split
  · exact h
  · split
    · exact h.shadowLoaded.setStaging.put.same.noteAnswer.same.respond
    · exact h.shadowLoaded.setStaging.put.same.noteAnswer

theorem Dev.Canon.dropShadow (h : d.Canon) {m} : (d.dropShadow m).Canon := (h.same.each fun h1 => h1.put).put
theorem Dev.Canon.stageAbort (h : d.Canon) {m} : (d.stageAbort m).1.Canon := .ite_fst h.stageRefuse h.dropShadow.setStaging.put
theorem Dev.Canon.withdrawPublish (h : d.Canon) {m} : (d.withdrawPublish m).Canon := .ite h.put.setLearner h

theorem Dev.Canon.modelSwap (h : d.Canon) {payload} : (d.modelSwap payload).1.Canon := by
  refine .ite_fst h.stageRefuse (.ite_fst h.stageRefuse (.ite_fst h.stageRefuse (.ite_fst h.stageRefuse ?_)))
  split
  · exact h.stageRefuse
  · exact .ite_fst h.stageRefuse (.ite_fst h.stageRefuse h.same.put.put.withdrawPublish)

theorem Dev.Canon.takeMaster (h : d.Canon) {t} : (d.takeMaster t).Canon := by
  unfold Dev.takeMaster
  split
  · exact h.copy
  · exact h.desc.fetchFree.store

theorem Dev.Canon.takeOptimiser (h : d.Canon) {t} : (d.takeOptimiser t).Canon := by
  unfold Dev.takeOptimiser
  split
  · exact h.copy
  · exact h.same.store

theorem Dev.Canon.takeMasters (h : d.Canon) {m} : (d.takeMasters m).Canon := h.each fun h1 => h1.takeMaster.takeOptimiser

theorem Dev.Canon.installGen (h : d.Canon) {m g} : (d.installGen m g).Canon :=
  ((h.each fun h1 => h1.store).each fun h2 => h2.setWord).same

theorem Dev.Canon.discardStep (h : d.Canon) {m} : (d.discardStep m).Canon := by
  unfold Dev.discardStep
  split
  · exact h
  · exact h.stopLearning.undoStep.bump.setLearner

theorem Dev.Canon.flipRegs (h : d.Canon) {p old} : (d.flipRegs p old).Canon :=
  have h1 : Dev.Canon _ := .put (.put (.put (.ite h h.put)))
  .ite (.put h1) h1

theorem Dev.Canon.beginRetire (h : d.Canon) {p} : (d.beginRetire p).Canon := .ite h.put h.same
theorem Dev.Canon.flipEntry (h : d.Canon) {p old} : (d.flipEntry p old).Canon := h.journal

theorem Dev.Canon.flip (h : d.Canon) {p} : (d.flip p).Canon := by
  refine have h1 : Dev.Canon _ := .bump (.beginRetire (.flipRegs ?_))
  .flipEntry (.ite (.bump h1) (.withdrawPublish (.takeMasters h1)))
  split
  · exact h.discardStep.forestFlip.installGen.put
  · exact h.discardStep.forestFlip

theorem Dev.Canon.flips (h : d.Canon) : d.flips.Canon := h.same.each fun h1 => h1.flip
theorem Dev.Canon.retired (h : d.Canon) {m} : (d.retired m).Canon := h.put.put
theorem Dev.Canon.retirements (h : d.Canon) : d.retirements.Canon := h.same.each fun h1 => h1.retired

theorem Dev.Canon.stateSweepEnd (h : d.Canon) {m} : (d.stateSweepEnd m).Canon :=
  .ite h ((h.bump.each fun h1 => h1.store).bump.put.retired)

theorem Dev.Canon.quantise (h : d.Canon) {t} : (d.quantise t).2.Canon :=
  have h1 := h.desc.fetchFree
  (.ite_snd h1 h1.normalScale)

theorem Dev.Canon.quantiseAll (h : d.Canon) {ts} : (d.quantiseAll ts).2.Canon := by
  induction ts generalizing d with
  | nil => exact h
  | cons t ts ih => exact ih h.quantise

theorem Dev.Canon.acceptPublish (h : d.Canon) {m} : (d.acceptPublish m).Canon := .ite h h.quantiseAll.same.put.put.put.setLearner
theorem Dev.Canon.acceptPublishes (h : d.Canon) : d.acceptPublishes.Canon := h.each fun h1 => h1.acceptPublish

theorem Dev.Canon.closeRequest (h : d.Canon) {payload} : (d.closeRequest payload).Canon := by
  unfold Dev.closeRequest
  dsimp only
  split
  · exact .ite (h.request fun h1 => h1.stageOp fun h2 => h2.stageClose).same.setQueue (h.request fun h1 => h1.stageOp fun h2 =>
      h2.stageClose)
  · exact h.request fun h1 => h1.stageOp fun h2 => h2.stageClose

/-! ### Planner -/

theorem Dev.Canon.admitPhase (h : d.Canon) {m} : (d.admitPhase m).Canon := by
  unfold Dev.admitPhase
  dsimp only
  split
  · exact h
  · exact .ite h h.spend.setLearner.same

theorem Dev.Canon.learnAdmit (h : d.Canon) {ms} : (d.learnAdmit ms).Canon := .ite h (h.each fun h1 => h1.admitPhase)

theorem Dev.Canon.slackReissue (h : d.Canon) {partition work} : (d.slackReissue partition work).Canon := by
  unfold Dev.slackReissue
  dsimp only
  split
  · exact h
  · exact h.same.bump

theorem Dev.Canon.slackReevaluate (h : d.Canon) {slot work} : (d.slackReevaluate slot work).Canon := by
  unfold Dev.slackReevaluate
  split
  · exact .ite h.same.bump h.same.bump
  · exact h

theorem Dev.Canon.slackWiden (h : d.Canon) {partition work} : (d.slackWiden partition work).Canon := by
  unfold Dev.slackWiden
  split
  · exact h
  · exact .ite h.same.bump.widenGrant h.same.bump.widenRefuse

theorem Dev.Canon.slackOne (h : d.Canon) {r} : (d.slackOne r).Canon := by
  unfold Dev.slackOne
  split
  · exact h.slackReissue
  · exact h.slackReevaluate
  · exact h.slackWiden

theorem Dev.Canon.slack (h : d.Canon) {rs} : (d.slack rs).Canon := h.each fun h1 => h1.slackOne

theorem Dev.Canon.setGapState (h : d.Canon) {g x} : (d.setGapState g x).Canon := by
  unfold Dev.setGapState
  split
  · exact h.same
  · exact h.same

theorem Dev.Canon.stepGap (h : d.Canon) {g v} : (d.stepGap g v).Canon := h.put.bump

theorem Dev.Canon.gapStepUp (h : d.Canon) {g} : (d.gapStepUp g).Canon :=
  .ite h.setGapState (.ite h.setGapState h.setGapState.stepGap)

theorem Dev.Canon.gapHalve (h : d.Canon) {g} : (d.gapHalve g).Canon := .ite h h.setGapState.stepGap
theorem Dev.Canon.recalibrate (h : d.Canon) {telemetry} : (d.recalibrate telemetry).Canon := .ite h h.same.bump
theorem Dev.Canon.energiesTakeEffect (h : d.Canon) : d.energiesTakeEffect.Canon := h.same.each fun h1 => h1.put
theorem Dev.Canon.setUse (h : d.Canon) {m t u} : (d.setUse m t u).Canon := h.same
theorem Dev.Canon.cutCaps (h : d.Canon) : d.cutCaps.Canon := h.each fun h1 => .ite h1 h1.setUse.put
theorem Dev.Canon.refillCaps (h : d.Canon) : d.refillCaps.Canon := h.each fun h1 => h1.setUse

theorem Dev.Canon.recomputeCap (h : d.Canon) {spans p} : (d.recomputeCap spans p).Canon := by
  refine .ite h.setUse.put ?_
  split
  · exact .ite h.setUse h.setUse.put
  · exact h.setUse

theorem Dev.Canon.capRecompute (h : d.Canon) {spans} : (d.capRecompute spans).Canon :=
  .ite h (((h.each fun h1 => h1.recomputeCap).cutCaps).refillCaps)

theorem Dev.Canon.softClear (h : d.Canon) : d.softClear.Canon := .ite h.put h
theorem Dev.Canon.soften (h : d.Canon) : d.soften.Canon := .ite h.put.bump.put.put.softClear (.ite h.put.bump.softClear h)

theorem Dev.Canon.softStep (h : d.Canon) {ts} : (d.softStep ts).Canon := by
  unfold Dev.softStep
  split
  · exact h
  · exact .ite h h.takeTemps.same.soften

theorem Dev.Canon.endStopped (h : d.Canon) {cause ts} : (d.endStopped cause ts).Canon := h.each fun h1 => h1.endPass

theorem Dev.Canon.haltTiles (h : d.Canon) {cause endCause mine} : (d.haltTiles cause endCause mine).Canon :=
  (h.each fun h1 => h1.stopTile).endStopped

theorem Dev.Canon.throttleEnter (h : d.Canon) {ts} : (d.throttleEnter ts).Canon :=
  .ite h.takeTemps h.takeTemps.put.put.bump.setMhz.health.haltTiles

/-! ### Fence -/

theorem Dev.Canon.showPartition (h : d.Canon) {p} : (d.showPartition p).Canon := h.each fun h1 => h1.put.put.put
theorem Dev.Canon.clearPartition (h : d.Canon) {f} : (d.clearPartition f).Canon := h.put.put.put.put.put

theorem Dev.Canon.showPlacement (h : d.Canon) : d.showPlacement.Canon :=
  ((((h.each fun h1 => h1.clearPartition).each fun h2 => h2.showPartition).each fun h3 => h3.put).each fun h4 => h4.put.put).each
      fun h5 => h5.put

theorem Dev.Canon.fenceSummary (h : d.Canon) : d.fenceSummary.Canon := h.put.put.put
theorem Dev.Canon.setFacetFenced (h : d.Canon) {f} : (d.setFacetFenced f).Canon := h.put
theorem Dev.Canon.setCoreFenced (h : d.Canon) {c} : (d.setCoreFenced c).Canon := h.put.each fun h1 => h1.setFacetFenced
theorem Dev.Canon.setGratingFenced (h : d.Canon) {g} : (d.setGratingFenced g).Canon := h.put

theorem Dev.Canon.setClusterFenced (h : d.Canon) {c} : (d.setClusterFenced c).Canon :=
  ((h.put.each fun h1 => h1.setCoreFenced).setGratingFenced).stopMovers

theorem Dev.Canon.setFenced (h : d.Canon) {f} : (d.setFenced f).Canon :=
  .ite h.setFacetFenced (.ite h.setCoreFenced (.ite h.setClusterFenced (.ite h.setGratingFenced h.put)))

theorem Dev.Canon.moveRescale (h : d.Canon) {len src dst} : (d.moveRescale len src dst).Canon :=
  .ite h (h.each fun h1 => h1.setWord)

theorem Dev.Canon.replacePlaced (h : d.Canon) {p qs} : (d.replacePlaced p qs).Canon := h.same

theorem Dev.Canon.replacePartition (h : d.Canon) {p} : (d.replacePartition p).1.Canon := by
  unfold Dev.replacePartition
  split
  · exact h.replacePlaced
  · split
    · exact h.moveRescale.replacePlaced
    · exact h.replacePlaced

theorem Dev.Canon.replaceGang (h : d.Canon) {p} : (d.replaceGang p).1.Canon := .ite_fst h.replacePartition h.replacePlaced
theorem Dev.Canon.moveOperands (h : d.Canon) {src dst bs} : (d.moveOperands src dst bs).Canon := h.each fun h1 => h1.copy

theorem Dev.Canon.replaceGrating (h : d.Canon) {p} : (d.replaceGrating p).1.Canon := by
  unfold Dev.replaceGrating
  split
  · exact h.moveRescale.moveOperands.replacePlaced
  · exact h.replacePlaced

theorem Dev.Canon.loseTier (h : d.Canon) {p} : (d.loseTier p).Canon := .ite h h.same

theorem Dev.Canon.replaceArray (h : d.Canon) {p} : (d.replaceArray p).Canon :=
  have h1 : Dev.Canon _ := .ite_fst h.replacePartition (.ite_fst h.replaceGang h.replaceGrating)
  .ite (.bump h1) (.loseTier h1)

theorem Dev.Canon.freeEngine (h : d.Canon) {i} : (d.freeEngine i).Canon :=
  (Dev.Canon.filter h).put.put.put.put.put.put.put

theorem Dev.Canon.loadStage (h : d.Canon) {e' image} : (d.loadStage e' image).Canon := ((h.each fun h1 => h1.setWord).put).same

theorem Dev.Canon.placeReplica (h : d.Canon) {p r images es} : (d.placeReplica p r images es).Canon :=
  (h.each fun h1 => h1.loadStage.put.put.put.bankUse.bump).same

theorem Dev.Canon.moreReplicas (h : d.Canon) {p images k} : (Dev.moreReplicas p images k d).Canon := by
  induction k generalizing d with
  | zero => exact h
  | succ k ih => exact .ite h (ih h.placeReplica)

theorem Dev.Canon.replaceForest (h : d.Canon) {m} : (d.replaceForest m).Canon := by
  unfold Dev.replaceForest
  extract_lets mine
  split
  · exact h
  · extract_lets all sources images d1 pl d2 d3 d4
    have h1 : d1.Canon := h.each fun h2 => h2.freeEngine
    have h2 : d2.Canon := h1.same
    have h3 : d3.Canon := h2.moreReplicas
    have h4 : d4.Canon := .ite h3 h3.loseTier
    exact h4.put

theorem Dev.Canon.scaleCaps (h : d.Canon) {before} : (d.scaleCaps before).Canon := h.each fun h1 => .ite h1 h1.put
theorem Dev.Canon.moveMembers (h : d.Canon) {p qs} : (d.moveMembers p qs).Canon := h.each fun h1 => .ite h1 h1.setBarMask
theorem Dev.Canon.dropMembers (h : d.Canon) : d.dropMembers.Canon := h.each fun h1 => h1.setBarMask.barrierCheck
theorem Dev.Canon.replaceProgram (h : d.Canon) {p} : (d.replaceProgram p).Canon := h.replaceArray.moveMembers

theorem Dev.Canon.fencesTakeEffect (h : d.Canon) : d.fencesTakeEffect.Canon := by
  unfold Dev.fencesTakeEffect
  split
  · exact h
  · exact ((((h.same.each fun h1 => h1.setFenced.bump).haltTiles.fenceSummary.each fun h2 => h2.replaceProgram).dropMembers).each
      fun h3 => h3.replaceForest).scaleCaps.showPlacement

/-! ### Tick -/

theorem Dev.Canon.markOverruns (h : d.Canon) : d.markOverruns.Canon := by
  unfold Dev.markOverruns
  split
  · exact h
  · exact h.each fun h1 => h1.each fun h2 => h2.setUse

theorem Dev.Canon.saturation (h : d.Canon) : d.saturation.Canon := .same (.ite h h.same)
theorem Dev.Canon.arrayDeadline (h : d.Canon) : d.arrayDeadline.Canon := h.widenDeadline.stopPrograms.graphsAnew.haltTiles
theorem Dev.Canon.phasesCompleted (h : d.Canon) : d.phasesCompleted.Canon := h.each fun h1 => h1.countCompleted

theorem Dev.Canon.windowEnds (h : d.Canon) : d.windowEnds.Canon :=
  .same (.verdictDeadline (.forestDeadline (.arrayDeadline (.ite h.markOverruns.learnDeferred.saturation.phasesCompleted h))))

theorem Dev.Canon.measure (h : d.Canon) {energy} : (d.measure energy).Canon :=
  .ite (.put (.ite h.put h)) (.put (.same (.ite (.ite h.put h) (.bump (.ite h.put h)))))

theorem Dev.Canon.formCredit (h : d.Canon) : d.formCredit.Canon := by
  unfold Dev.formCredit
  dsimp only
  split
  · exact h.put.put.same.spend
  · exact h.put.put.same

theorem Dev.Canon.budgetTakesEffect (h : d.Canon) : d.budgetTakesEffect.Canon := .ite h h.same.put.softClear

theorem Dev.Canon.throttleBoundary (h : d.Canon) : d.throttleBoundary.Canon :=
  have h1 : Dev.Canon _ := .ite h.put.setMhz h
  .ite (.bump h1) h1

theorem Dev.Canon.latchSettings (h : d.Canon) : d.latchSettings.Canon := .modesTakeEffect (.put (.ite h.same.same h.same))
theorem Dev.Canon.copyStepped (h : d.Canon) {b base i s} : (d.copyStepped b base i s).Canon := h.copy.copy

theorem Dev.Canon.takeStepBatch (h : d.Canon) {c} : (d.takeStepBatch c).Canon := by
  unfold Dev.takeStepBatch
  dsimp only
  split
  · exact h.graphsAnew.same
  · exact (h.graphsAnew.each fun h1 => h1.copyStepped).same

theorem Dev.Canon.restart (h : d.Canon) {c} : (d.restart c).Canon :=
  have h1 := h.contextRestart.dropReleases
  .ite h1.takeStepBatch h1

theorem Dev.Canon.stepEnter (h : d.Canon) {c} : (d.stepEnter c).Canon := .ite h.put h.put.takeStepBatch

theorem Dev.Canon.stepLeave (h : d.Canon) {c} : (d.stepLeave c).Canon := by
  refine .dropReleases (.contextRestart (.put ?_))
  split
  · exact h.stopPrograms.stopMovers.same.bump.answerLate
  · exact h.stopPrograms.stopMovers.same

theorem Dev.Canon.stepModes (h : d.Canon) : d.stepModes.Canon := h.same.each fun h1 => .ite h1.stepEnter h1.stepLeave
theorem Dev.Canon.contextsAtBoundary (h : d.Canon) : d.contextsAtBoundary.Canon := (h.foldl fun h1 => h1.restart).stepModes
theorem Dev.Canon.signalWindows (h : d.Canon) : d.signalWindows.Canon := h.each fun h1 => h1.signal
theorem Dev.Canon.countBoundary (h : d.Canon) : d.countBoundary.Canon := h.same
theorem Dev.Canon.turnBatches (h : d.Canon) : d.turnBatches.Canon := .same (.ite h.bump h)

theorem Dev.Canon.openSamples (h : d.Canon) : d.openSamples.Canon := by
  unfold Dev.openSamples
  split
  · exact h.each fun h1 => h1.openSample
  · exact h

theorem Dev.Canon.gapSteps (h : d.Canon) {ended} : (d.gapSteps ended).Canon := .ite (h.each fun h1 => h1.gapStepUp) h
theorem Dev.Canon.countWindows (h : d.Canon) {ended} : (d.countWindows ended).Canon := .ite (h.each fun h1 => h1.setUse) h
theorem Dev.Canon.capsAtBoundary (h : d.Canon) : d.capsAtBoundary.Canon := .refillCaps (.ite h h.cutCaps)
theorem Dev.Canon.pulse (h : d.Canon) {line ns} : (d.pulse line ns).Canon := .ite h.same h

theorem Dev.Canon.tickLines (h : d.Canon) : d.tickLines.Canon :=
  have h1 : Dev.Canon _ := .ite h.pulse.driveTicks h
  .ite (.pulse h1) (.ite (.bump h1) h1)

theorem Dev.Canon.beginTick (h : d.Canon) {time num} : (d.beginTick time num).Canon :=
  .ite (.ite (h.same.put.put.put.put.each fun h1 => h1.barrierCheck) h.same.put.put.put.put) h.same.put

theorem Dev.Canon.changesTakeEffect (h : d.Canon) : d.changesTakeEffect.Canon :=
  h.throttleBoundary.energiesTakeEffect.retirements.flips.acceptPublishes.fencesTakeEffect.retireTakeEffect

theorem Dev.Canon.windowBegins (h : d.Canon) {ended} : (d.windowBegins ended).Canon :=
  h.turnBatches.openSamples.gapSteps.same.contextsAtBoundary.formCredit.capsAtBoundary

theorem Dev.Canon.catchUp (h : d.Canon) : d.catchUp.Canon :=
  have h1 : Dev.Canon _ := .ite h h.drain
  .ite h1 (.journalExport h1)

theorem Dev.Canon.boundary (h : d.Canon) {env time num} : (d.boundary env time num).Canon :=
  h.advance.measure.countWindows.beginTick.windowEnds.takeTemps.latchSettings.budgetTakesEffect.changesTakeEffect.windowBegins.signalWindows.stateReady.countBoundary.tickLines.same.catchUp

theorem Dev.Canon.noteEdge (h : d.Canon) {time num} : (d.noteEdge time num).Canon := h.same
theorem Dev.Canon.syncEdge (h : d.Canon) {env} : (d.syncEdge env).Canon := .ite h (.ite h.same.noteEdge.boundary h.same.noteEdge)
theorem Dev.Canon.ownBoundary (h : d.Canon) {env} : (d.ownBoundary env).Canon := .ite h (.ite h.same.boundary h.boundary)
theorem Dev.Canon.syncLost (h : d.Canon) : d.syncLost.Canon := .ite h h.advance.put.same
theorem Dev.Canon.idle (h : d.Canon) : d.idle.Canon := .ite h.same.catchUp h

/-! ### Loupe -/

theorem Dev.Canon.counterOut (h : d.Canon) {bs} : (d.counterOut bs).Canon := h.dramUse.ringWrite
theorem Dev.Canon.epoch (h : d.Canon) : d.epoch.Canon := h.advance.trace.counterOut.bump

theorem Dev.Canon.sampleCapture (h : d.Canon) : d.sampleCapture.Canon :=
  .ite h (.ite h.advance.same.counterOut.bump.drain h.advance.same.noteDrop.drain)

theorem Dev.Canon.watchedDesc (h : d.Canon) {w} : (d.watchedDesc w).1.Canon := by
  refine .ite_fst ?_ h.fetch
  split
  · rename_i he
    exact (h.fetch.of_fst he).fetch
  · rename_i he
    exact h.fetch.of_fst he

theorem Dev.Canon.watchFire (h : d.Canon) {w} : (d.watchFire w).Canon := by
  unfold Dev.watchFire
  dsimp only
  split
  · exact h
  · refine .ite h.setWatch ?_
    split
    · exact h.setWatch.fetch.watchedDesc.setWatch
    · exact h.setWatch.fetch.watchedDesc

theorem Dev.Canon.watchStats (h : d.Canon) {xs} : (d.watchStats xs).1.Canon := by
  unfold Dev.watchStats
  split
  · exact h.same
  · exact h.draw.sumPicked

theorem Dev.Canon.watchReport (h : d.Canon) {w x bs} : (d.watchReport w x bs).Canon := h.watchStats.trace

theorem Dev.Canon.watchReadEnd (h : d.Canon) {w} : (d.watchReadEnd w).Canon := by
  unfold Dev.watchReadEnd
  split
  · exact h
  · rename_i he
    refine have h1 := h.setWatch.advanceClock
    .ite h1.noteDrop.drain ?_
    split
    · rename_i he
      exact (h1.dramUse.placeFetch.of_fst he).watchReport
    · rename_i he
      exact h1.dramUse.placeFetch.of_fst he

theorem Dev.Canon.regionStop (h : d.Canon) {r gated} : (d.regionStop r gated).Canon := .ite h h.settleClock.put.put.same
theorem Dev.Canon.clockStops (h : d.Canon) {r} : (d.clockStops r).Canon := .ite h h.settleClock.put.put.same
theorem Dev.Canon.regionResumed (h : d.Canon) {r} : (d.regionResumed r).Canon := .ite h h.settleClock.put.put.same.trace.bump
theorem Dev.Canon.ppsInEdge (h : d.Canon) : d.ppsInEdge.Canon := .ite h (.ite h.same h.same.servoOffset)

theorem Dev.Canon.holdover (h : d.Canon) : d.holdover.Canon := by
  unfold Dev.holdover
  split
  · exact h
  · exact .ite h h.advanceClock.put.bump

theorem Dev.Canon.timeSet (h : d.Canon) {v} : (d.timeSet v).1.Canon := .ite_fst h h.stepTime.same

theorem Dev.Canon.stepMode (h : d.Canon) {payload} : (d.stepMode payload).1.Canon :=
  .ite_fst h (.ite_fst h (.ite_fst h (.ite_fst h h.same)))

theorem Dev.Canon.step (h : d.Canon) {payload} : (d.step payload).1.Canon :=
  .ite_fst (.fst h.bump) (.ite_fst (.fst h.bump) (.ite_fst (.fst h.bump) (.fst h.same)))

theorem Dev.Canon.stepDone (h : d.Canon) {c ended blocked last done} : (d.stepDone c ended blocked last done).Canon := by
  unfold Dev.stepDone
  split
  · exact h
  · exact .ite h h.same.bump.bump.answerLate

theorem Dev.Canon.stageHealth (h : d.Canon) {a r} (hr : d.stageHealth a = some r) : r.Canon := by
  unfold Dev.stageHealth at hr
  dsimp only at hr
  split at hr
  · obtain ⟨es, -, rfl⟩ := Option.map_eq_some_iff.1 hr
    exact h.same.bump
  · cases hr
    exact h.same.bump.lendStatus.trace

theorem Dev.Canon.healthEntry (h : d.Canon) {event inst} : (d.healthEntry event inst).Canon := by
  unfold Dev.healthEntry
  split
  · exact h
  · dsimp only
    split
    · split
      · exact h.advanceClock
      · exact h
    · rename_i he
      refine .same (Dev.Canon.stageHealth ?_ he)
      split
      · exact h.advanceClock
      · exact h

theorem Dev.Canon.lifeClose (h : d.Canon) {cause} : (d.lifeClose cause).Canon := by
  refine .bump (.bump (.put (.lendStatus (.same ?_))))
  split
  · rename_i he
    exact h.sign he
  · exact h.put

theorem Dev.Canon.lifeFull (h : d.Canon) : d.lifeFull.Canon := .ite h.lifeClose h

theorem Dev.Canon.lifeBatchClose (h : d.Canon) : d.lifeBatchClose.Canon := by
  refine .ite h (.ite h.lifeClose ?_)
  dsimp only
  split
  · exact h.advance.lifeClose
  · exact h

theorem Dev.Canon.standingDone (h : d.Canon) : d.standingDone.Canon := .ite h (.ite h.same.same h.same.same)
theorem Dev.Canon.dayEntry (h : d.Canon) {c} : (d.dayEntry c).Canon := .ite h.lifeEntry (.ite h.lifeEntry h.lifeEntry)

theorem Dev.Canon.dailyEntries (h : d.Canon) {ms} : (d.dailyEntries ms).Canon :=
  ((h.each fun h1 => h1.lifeEntry.lifeFull).each fun h2 => h2.dayEntry.lifeFull).same

theorem Dev.Canon.retentionEntries (h : d.Canon) {ms} : (d.retentionEntries ms).Canon := h.each fun h1 => h1.lifeEntry.lifeFull
theorem Dev.Canon.streamRead (h : d.Canon) {stream pos n} : (d.streamRead stream pos n).1.Canon := h.ringRead

theorem Dev.Canon.exportSend (h : d.Canon) {stream} : (d.exportSend stream).Canon :=
  have h1 := h.drain.journalExport
  .ite h1 (have h2 : Dev.Canon _ := .ite h1 h1.bump.put
  .ite (.same h2) (.same (.sendOwn (.frameUse (.streamRead (.dramUse h2))))))

theorem Dev.Canon.pullAnswer (h : d.Canon) {pos bs} : (d.pullAnswer pos bs).1.Canon := h.frameUse

theorem Dev.Canon.pull (h : d.Canon) {payload streams} : (d.pull payload streams).1.Canon := by
  unfold Dev.pull
  dsimp only
  exact .ite_fst h (.ite_fst h.drain.pullAnswer (.ite_fst h.drain.pullAnswer h.drain.dramUse.streamRead.pullAnswer))

/-! ### Image -/

theorem Dev.Canon.countVerify (h : d.Canon) {r} : (d.countVerify r).Canon := by
  unfold Dev.countVerify
  split
  · exact .ite h.bump h
  · exact h

/-! ### Control -/

theorem Dev.Canon.requestBy (h : d.Canon) {opcode mine payload} {run} (hrun : ∀ {e x1}, e.Canon → (run e x1).1.Canon) : (d.requestBy
    opcode mine payload run).Canon := by
  unfold Dev.requestBy
  split
  · split
    · rename_i he1
      exact ((h.ifAccepted fun h1 => hrun h1).of_fst he1).noteAnswer
    · rename_i he1
      exact (h.ifAccepted fun h2 => hrun h2).of_fst he1
  · refine .ite ?_ h
    split
    · rename_i he2
      exact (((h.setQueue.ifAccepted fun h3 => hrun h3).of_fst he2).noteAnswer).finishHead
    · rename_i he2
      exact (h.setQueue.ifAccepted fun h4 => hrun h4).of_fst he2

theorem Dev.Canon.restartFields (h : d.Canon) {a} : (d.restartFields a).Canon :=
  .ite h.put (.ite h.put (.ite h.put (.ite h.put.put (.ite h.draw h))))

theorem Dev.Canon.assignLand (h : d.Canon) : d.assignLand.Canon := h.same.put.put
theorem Dev.Canon.slotBegin (h : d.Canon) {op slot} : (d.slotBegin op slot).Canon := h.same.put
theorem Dev.Canon.slotWrite (h : d.Canon) {o v} : (d.slotWrite o v).Canon := h.same.put

theorem Dev.Canon.written (h : d.Canon) {base a v} : (d.written base a v).Canon :=
  .ite h.portCfgWritten (.ite h.subportCfgWritten (.ite h.flowControl (.ite h.put (.ite h.same (.ite h.restartWrite (.ite h.writeCtr
      (.ite (.ite h.clearNotice h) (.ite (.ite h.flush h) (.ite h.lendStatus (.ite h.timeSet (.ite (.ite h.put h) (.ite h.assignLand
      (.ite h.same (.ite h.same (.ite h.slotBegin (.ite h.slotWrite h))))))))))))))))

theorem Dev.Canon.writeDo (h : d.Canon) {a v} : (d.writeDo a v).Canon := by
  unfold Dev.writeDo
  split
  · exact h
  · exact .written (.ite h h.setWord)

theorem Dev.Canon.hostWrite (h : d.Canon) {a v} : (d.hostWrite a v).1.Canon := .ite h.writeDo h

theorem Dev.Canon.readOp (h : d.Canon) {a payload} : (d.readOp a payload).1.Canon := by
  refine .ite_fst h ?_
  split
  · exact h
  · exact h.restartFields

theorem Dev.Canon.writeOp (h : d.Canon) {a payload} : (d.writeOp a payload).1.Canon := .ite_fst h h.hostWrite

theorem Dev.Canon.readAll (h : d.Canon) {as} : (d.readAll as).1.Canon := by
  induction as generalizing d with
  | nil => exact h
  | cons a as ih => exact ih h.restartFields

theorem Dev.Canon.readBlockOp (h : d.Canon) {a payload} : (d.readBlockOp a payload).1.Canon := .ite_fst h (.ite_fst h h.readAll)
theorem Dev.Canon.writeAll (h : d.Canon) {a vs} : (d.writeAll a vs).Canon := h.foldl fun h1 => h1.writeDo
theorem Dev.Canon.endorse (h : d.Canon) {vs} : (d.endorse vs).1.Canon := .ite_fst h (.ite_fst h h.same)

theorem Dev.Canon.writeBlockOp (h : d.Canon) {a payload} : (d.writeBlockOp a payload).1.Canon := by
  refine .ite_fst h (.ite_fst h.endorse ?_)
  split
  · exact h
  · exact h.writeAll

theorem Dev.Canon.writeRequest (h : d.Canon) {a v} : (d.writeRequest a v).Canon := h.requestBy fun h1 => h1.writeOp
theorem Dev.Canon.blockRequest (h : d.Canon) {a values} : (d.blockRequest a values).Canon := h.requestBy fun h1 => h1.writeBlockOp
theorem Dev.Canon.noteRefused (h : d.Canon) {mac rate} : (d.noteRefused mac rate).Canon := .ite h.same (.ite h.same h.same)

theorem Dev.Canon.refuseEarly (h : d.Canon) {r rate} : (d.refuseEarly r rate).Canon :=
  h.sendOwn.bump.bump.health.noteRefused.countRefused

theorem Dev.Canon.refuseStale (h : d.Canon) {r e'} : (d.refuseStale r e').Canon := h.bump.health.countRefused.reply
theorem Dev.Canon.useSeq (h : d.Canon) {e'} : (d.useSeq e').Canon := .same (.ite h.bump h)

theorem Dev.Canon.acceptRequest (h : d.Canon) {r} : (d.acceptRequest r).Canon :=
  .ite h.respond (.ite h.countRefused.respond (.ite h.bump.countRefused.respond h.setQueue))

theorem Dev.Canon.checkRequest (h : d.Canon) {f r} : (d.checkRequest f r).Canon := by
  refine .ite h.countRefused.reply (.ite h.countRefused.reply ?_)
  split
  · exact .ite h.useSeq.acceptRequest h.useSeq.refuseStale
  · exact h.useSeq.acceptRequest

theorem Dev.Canon.controlReceive (h : d.Canon) : d.controlReceive.Canon := by
  unfold Dev.controlReceive
  split
  · exact h
  · exact .ite h.same.bump.refuseEarly (.ite h.same.bump.refuseEarly h.same.bump.same.checkRequest)

theorem Dev.Canon.tokenRefill (h : d.Canon) : d.tokenRefill.Canon := h.advance.same
theorem Dev.Canon.summaryEntry (h : d.Canon) {x} : (d.summaryEntry x).Canon := h.journal.bump
theorem Dev.Canon.summary (h : d.Canon) : d.summary.Canon := (h.advance.each fun h1 => h1.summaryEntry).same

theorem Dev.Canon.slotOpDone (h : d.Canon) : d.slotOpDone.Canon := by
  unfold Dev.slotOpDone
  split
  · exact h
  · exact .journal (.put (.put (.ite h.same.same.put h.same.countVerify)))

theorem Dev.Canon.journalPull (h : d.Canon) {payload} : (d.journalPull payload).1.Canon := .ite_fst h h.pullAnswer
theorem Dev.Canon.afterReset {cause} : (d.afterReset cause).Canon := Dev.canon_reset.same.put.put
theorem Dev.Canon.resetOp (h : d.Canon) {payload} : (d.resetOp payload).Canon := .ite .afterReset (h.request fun h1 => h1)

/-! ### Security -/

theorem Dev.Canon.newKey (h : d.Canon) {k} : (d.newKey k).Canon := by
  unfold Dev.newKey
  dsimp only
  split
  · exact h
  · rename_i he
    exact ((h.sign he).modKey).same.put.put.put

theorem Dev.Canon.quoteOp (h : d.Canon) {p} : (d.quoteOp p).1.Canon := by
  unfold Dev.quoteOp
  dsimp only
  split
  · exact h
  · rename_i he
    exact .fst ((h.sign he).same).bump

theorem Dev.Canon.attest (h : d.Canon) {p} : (d.attest p).1.Canon := .ite_fst h (.ite_fst h (.ite_fst h.quoteOp (.ite_fst h h)))
theorem Dev.Canon.attestRequest (h : d.Canon) {p} : (d.attestRequest p).Canon := h.requestBy fun h1 => h1.attest
theorem Dev.Canon.dropChallenge (h : d.Canon) : d.dropChallenge.Canon := h.same.put

theorem Dev.Canon.countLifecycle (h : d.Canon) {live st} : (d.countLifecycle live st).Canon :=
  have h1 : Dev.Canon _ := .ite h h.bump
  .ite (.bump h1) h1

theorem Dev.Canon.challengeOp (h : d.Canon) : d.challengeOp.1.Canon := h.same.put
theorem Dev.Canon.transitionOp (h : d.Canon) {p} : (d.transitionOp p).1.Canon := h.dropChallenge.countLifecycle

theorem Dev.Canon.rekeyOp (h : d.Canon) {p} : (d.rekeyOp p).1.Canon :=
  have h1 := h.dropChallenge.countLifecycle
  .ite_fst (h1.each fun h2 => h2.newKey) h1

theorem Dev.Canon.lifecycleOp (h : d.Canon) {p} : (d.lifecycleOp p).1.Canon := by
  unfold Dev.lifecycleOp
  split
  · exact .fst h.transitionOp
  · exact .fst h.rekeyOp
  · exact .ite_fst (.fst h.challengeOp) (.fst h.bump)

theorem Dev.Canon.lifecycleRequest (h : d.Canon) {p} : (d.lifecycleRequest p).Canon := h.requestBy fun h1 => h1.lifecycleOp

theorem Dev.Canon.lifecycleCloses (h : d.Canon) {p} : (d.lifecycleCloses p).Canon :=
  .ite h.lifecycleRequest.closeBatch h.lifecycleRequest

theorem Dev.Canon.enterState (_ : d.Canon) {to_} : (d.enterState to_).Canon := .afterReset

theorem Dev.Canon.transition (h : d.Canon) {p} : (d.transition p).Canon :=
  have h1 := h.lifecycleRequest
  .ite h1.enterState h1

theorem Dev.Canon.challengeLapse (h : d.Canon) : d.challengeLapse.Canon := by
  unfold Dev.challengeLapse
  split
  · exact h
  · exact h.advanceClock.dropChallenge

/-! ### Load -/

theorem Dev.Canon.report (h : d.Canon) {r} : (d.report r).Canon :=
  .ite (.put (.ite h.put h)) (.put (.put (.put (.put (.ite h.put h)))))

theorem Dev.Canon.next {x : Loading} (h : x.dev.Canon) {f} (hf : ∀ {e}, e.Canon → (f e).dev.Canon) : (x.next f).dev.Canon := by
  unfold Loading.next
  split
  · exact h
  · exact hf h

theorem Dev.Canon.then_ {x : Loading} (h : x.dev.Canon) {f} (hf : ∀ {e}, e.Canon → (f e).Canon) : (x.then_ f).dev.Canon := by
  unfold Loading.then_
  split
  · exact h
  · exact hf h

theorem Dev.Canon.loadEach {x : Loading} (h : x.dev.Canon) {α : Type} {xs : List α} {f : Dev → α → Loading}
    (hf : ∀ {e a}, e.Canon → (f e a).dev.Canon) : (Loading.each xs f x).dev.Canon := by
  unfold Loading.each
  induction xs generalizing x with
  | nil => exact h
  | cons a xs ih => exact ih (h.next hf)

theorem Dev.Canon.loadRegister (h : d.Canon) {a v r} (hr : d.loadRegister a v = some r) : r.Canon := by
  unfold Dev.loadRegister at hr
  split at hr
  · cases hr
  · split at hr
    · cases hr
    · split at hr <;> cases hr
      exact h.setWord

theorem Dev.Canon.loadRegisters (h : d.Canon) {slot sec k i bs} : (Dev.loadRegisters slot sec k i bs d).dev.Canon := by
  induction k generalizing d i bs with
  | zero => exact h
  | succ k ih =>
    unfold Dev.loadRegisters
    split
    · exact h
    · split
      · exact h
      · split
        · exact h
        · rename_i he
          exact ih (h.loadRegister he)

theorem Dev.Canon.loadMemory (h : d.Canon) {slot sec k off bs} : (Dev.loadMemory slot sec k off bs d).dev.Canon := by
  induction k generalizing d off bs with
  | zero => exact h
  | succ k ih =>
    unfold Dev.loadMemory
    dsimp only
    split
    · exact h
    · split
      · exact h
      · exact ih h.store

theorem Dev.Canon.loadSections (h : d.Canon) {slot ws} : (Dev.loadSections slot ws d).dev.Canon := by
  refine Dev.Canon.loadEach (x := ⟨d, none⟩) h fun h1 => ?_
  split
  · exact h1.loadRegisters
  · split
    · exact h1.loadMemory
    · exact h1

theorem Dev.Canon.loadOwnerKey (h : d.Canon) {slot ws} : (Dev.loadOwnerKey slot ws d).dev.Canon := by
  unfold Dev.loadOwnerKey
  dsimp only
  split
  · exact h
  · split
    · exact h
    · split
      · exact h
      · exact h.same

theorem Dev.Canon.loadCounters (h : d.Canon) : d.loadCounters.Canon := by
  refine h.filter.each fun h1 => ?_
  split
  · exact h1.setCtr
  · exact h1

theorem Dev.Canon.countMembers (h : d.Canon) : d.countMembers.Canon := h.each fun h1 => h1.put

theorem Dev.Canon.loadRules (h : d.Canon) : d.loadRules.Canon :=
  (((h.each fun h1 => h1.setWord).each fun h2 => h2.setParity.copyRule).each fun h3 =>
      h3.setWord.setWord).put.put.put.put.setWord.put.countFree

theorem Dev.Canon.loadPlan (h : d.Canon) : d.loadPlan.Canon := h.put.same

theorem Dev.Canon.loadPort (h : d.Canon) {slot} : (d.loadPort slot).Canon :=
  have h1 := (h.each fun h2 => h2.put).assignLand
  .ite h1.report h1

theorem Dev.Canon.loaded (h : d.Canon) {slot} : (d.loaded slot).Canon := h.loadCounters.countMembers.loadRules.loadPlan.loadPort
theorem Dev.Canon.placeRegion (h : d.Canon) {size} : (d.placeRegion size).2.Canon := h.draw

theorem Dev.Canon.regionPlaced (h : d.Canon) {slot kind index size} : (d.regionPlaced slot kind index size).2.Canon := by
  unfold Dev.regionPlaced
  exact h.placeRegion.report

theorem Dev.Canon.placeRegions (h : d.Canon) {slot ms} : (d.placeRegions slot ms).Canon := by
  unfold Dev.placeRegions
  dsimp only
  exact
      h.regionPlaced.regionPlaced.regionPlaced.regionPlaced.placeRegion.placeRegion.regionPlaced.regionPlaced.regionPlaced.regionPlaced.put.put.put.same.each
      fun h1 => have h2 := h1.regionPlaced
  .same (.ite h2.put h2)

theorem Dev.Canon.placeStepAreas (h : d.Canon) {slot} : (d.placeStepAreas slot).Canon := h.each fun h1 => h1.regionPlaced.same

theorem Dev.Canon.ite_dev {x y : Loading} {c : Prop} [Decidable c] (hx : x.dev.Canon) (hy : y.dev.Canon) :
    (if c then x else y).dev.Canon := by
  split <;> assumption

theorem Dev.Canon.spaceCheck (h : d.Canon) {slot ws ms} : (Dev.spaceCheck slot ws ms d).dev.Canon := by
  delta Dev.spaceCheck
  exact .ite_dev h h

theorem Dev.Canon.putReplica (h : d.Canon) {slot x r es} : (d.putReplica slot x r es).Canon :=
  (h.each fun h1 => h1.loadStage.put.put.put.bankUse.report).same

theorem Dev.Canon.putReplicas (h : d.Canon) {slot x stages k r} : (Dev.putReplicas slot x stages k r d).Canon := by
  induction k generalizing d r with
  | zero => exact h
  | succ k ih => exact .ite h (ih h.putReplica)

theorem Dev.Canon.putFeatures (h : d.Canon) {x} : (d.putFeatures x).Canon := (h.each fun h1 => h1.setWord.same).put

theorem Dev.Canon.placeForest (h : d.Canon) {slot x} : (Dev.placeForest slot x d).dev.Canon := by
  unfold Dev.placeForest
  dsimp only
  split
  · exact h
  · split
    · exact h
    · split
      · exact h.putFeatures.putReplicas
      · exact .ite h.putFeatures.putReplicas.put.put.put.report h.putFeatures.putReplicas.put.put.put

theorem Dev.Canon.placeArray (h : d.Canon) {slot x} : (Dev.placeArray slot x d).dev.Canon := by
  refine Dev.Canon.loadEach (x := ⟨d, none⟩) h fun h1 => ?_
  dsimp only
  split
  · exact h1
  · exact h1.same.report

theorem Dev.Canon.putModel (h : d.Canon) {x} : (d.putModel x).Canon :=
  have h1 := h.installGen.takeMasters.put.put.put
  .each (.put (.put (.put (.put (.put (.ite h1.put.put h1.put.put.put)))))) fun h2 => h2.put

theorem Dev.Canon.placeModel (h : d.Canon) {slot x} : (Dev.placeModel slot d x).dev.Canon := by
  refine ((h.placeForest.next fun h1 => h1.placeArray).then_ fun h1 => h1.putModel).next fun h1 => ?_
  split <;> exact h1

theorem Dev.Canon.startContexts (h : d.Canon) : d.startContexts.Canon :=
  .ite (h.each fun h1 => h1.put) (h.each fun h1 => h1.put).showPlacement

theorem Dev.Canon.checkRegisters (h : d.Canon) {slot} : (Dev.checkRegisters slot d).dev.Canon := by
  unfold Dev.checkRegisters
  split
  · exact h
  · split
    · exact h
    · split <;> exact h

theorem Dev.Canon.checkForests (h : d.Canon) {slot ms} : (Dev.checkForests slot ms d).dev.Canon := by
  refine Dev.Canon.loadEach (x := ⟨d, none⟩) h fun h1 => ?_
  split <;> exact h1

theorem Dev.Canon.slotLoaded (h : d.Canon) {slot ws settings} : (d.slotLoaded slot ws settings).Canon :=
  (h.put.put.put.each fun h1 => h1.put).same.report

theorem Dev.Canon.loadStages (h : d.Canon) {slot ws restore} (hrestore : ∀ {e}, e.Canon → (restore e).Canon) :
    (Dev.loadStages slot ws restore d).dev.Canon := by
  unfold Dev.loadStages
  split
  · exact h
  · extract_lets l settings l1
    have hl : l.dev.Canon := h.loadSections.next fun h => h.loadOwnerKey
    refine Dev.Canon.next (hl.then_ fun h => hrestore h.loaded) fun h1 => ?_
    split
    · exact h1
    · rename_i ms _
      extract_lets l2 l3 l4 l5
      have h2 : l2.dev.Canon := Dev.Canon.loadEach h1.placeRegions fun h => h.placeModel
      have h3 : l3.dev.Canon := h2.next fun h => h.spaceCheck
      have h4 : l4.dev.Canon := h3.then_ fun h => h.startContexts.placeStepAreas
      have h5 : l5.dev.Canon := (h4.next fun h => h.checkRegisters).next fun h => h.checkForests
      exact h5.then_ fun h => h.slotLoaded

/-! ### StartUp -/

theorem Dev.Canon.identify (h : d.Canon) {env} : (d.identify env).Canon := h.put.put.put.same
theorem Dev.Canon.countBoot (h : d.Canon) : d.countBoot.Canon := h.bump
theorem Dev.Canon.runCopy (h : d.Canon) {c} : (d.runCopy c).Canon := (h.put.put.put.each fun h1 => h1.put).same
theorem Dev.Canon.bootHalt (h : d.Canon) : d.bootHalt.Canon := h.put.same
theorem Dev.Canon.finishErasures (h : d.Canon) : d.finishErasures.Canon := h.same

theorem Dev.Canon.restoreKey (h : d.Canon) {k} : (d.restoreKey k).Canon := by
  unfold Dev.restoreKey
  split
  · exact h
  · exact h.put.put.put.modKey

theorem Dev.Canon.restoreKeys (h : d.Canon) : d.restoreKeys.Canon :=
  have h1 : Dev.Canon _ := .ite h.bump h
  have h2 : Dev.Canon _ := .ite (.newKey (.same (.each h1 fun h3 => h3.restoreKey))) (.each h1 fun h3 => h3.restoreKey)
  .put (.ite (.newKey h2) h2)

theorem Dev.Canon.showRecord (h : d.Canon) {i r} : (d.showRecord i r).Canon := h.put.put.put.put.put.put.put
theorem Dev.Canon.restoreLife (h : d.Canon) : d.restoreLife.Canon := h.put.put.put.put.each fun h1 => h1.showRecord

theorem Dev.Canon.restoreJournal (h : d.Canon) : d.restoreJournal.2.Canon := by
  refine .snd (.each (.put (.put (.put (.put ?_)))) fun h1 => h1.put)
  split
  · exact h
  · exact .snd h.same.bump

theorem Dev.Canon.restoreFields (h : d.Canon) : d.restoreFields.Canon := h.put.put.put.restoreLife
theorem Dev.Canon.retireAtStart (h : d.Canon) {c cause} : (d.retireAtStart c cause).Canon := .ite h h.put.put.put
theorem Dev.Canon.restoreChannels (h : d.Canon) {b} : (d.restoreChannels b).Canon := h.each fun h1 => h1.retireAtStart

theorem Dev.Canon.restoreUnits (h : d.Canon) {b} : (d.restoreUnits b).Canon :=
  ((((((h.each fun h1 => h1.setFacetFenced).each fun h2 => h2.setCoreFenced).each fun h3 => h3.setClusterFenced).each fun h4 =>
      h4.setGratingFenced).each fun h5 => h5.put).restoreChannels.each fun h6 => h6.put).each fun h7 => h7.put

theorem Dev.Canon.countRecords (h : d.Canon) : d.countRecords.Canon := h.bump

theorem Dev.Canon.restoreBreakout (h : d.Canon) : d.restoreBreakout.Canon :=
  .ite (h.each fun h1 => .ite h1 h1.inheritConfig.put) ((h.each fun h1 => .ite h1 h1.inheritConfig.put).each fun h2 => h2.put)

theorem Dev.Canon.restoreStanding (h : d.Canon) : d.restoreStanding.Canon :=
  have h1 : Dev.Canon _ := .put (.put (.ite (h.each fun h2 => h2.restoreUnits) (h.each fun h2 => h2.restoreUnits).fenceSummary))
  .restoreBreakout (.ite h1 (.report (.put h1)))

theorem Dev.Canon.channelFails (h : d.Canon) {c} : (d.channelFails c).Canon :=
  .ite h h.retireAtStart.bump.health.lifeEntry.standingWrite

theorem Dev.Canon.mapChannels (h : d.Canon) : d.mapChannels.Canon := h.put.put.put

theorem Dev.Canon.wipeAndTrain (h : d.Canon) {env} : (d.wipeAndTrain env).Canon :=
  (((h.each fun h1 => h1.restoreUnits).draw.put.put.put.put.each fun h2 => h2.channelFails.bump.report).each fun h3 =>
      h3.channelFails).same.mapChannels

theorem Dev.Canon.slotFails (h : d.Canon) {slot r} : (d.slotFails slot r).Canon := h.countVerify.report.put

theorem Dev.Canon.againFrom (h : d.Canon) (he : e.Canon) : (d.againFrom e).Canon :=
  ⟨Sparse.wf_foldl_put (Sparse.wfFrom_filter _ h.regs) fun w hw => Sparse.ne_dflt_of_wfFrom he.regs w (List.mem_of_mem_filter hw), h.mem, h.core⟩

theorem Dev.Canon.loadSlot (h : d.Canon) {slot} : (d.loadSlot slot).dev.Canon := h.loadStages fun h1 => h1.restoreStanding

theorem Dev.Canon.secondSlot (h : d.Canon) {slot prepare} (hprepare : ∀ {e}, e.Canon → (prepare e).Canon) :
    (d.secondSlot slot prepare).2.Canon := by
  unfold Dev.secondSlot
  extract_lets d1
  have h1 : d1.Canon := h.put
  split
  · exact .snd (hprepare h1.slotFails)
  · have hl : ((prepare d1).loadSlot slot).dev.Canon := (hprepare h1).loadSlot
    split <;> rename_i he <;> rw [he] at hl
    · exact hl
    · exact .snd ((hprepare h1).againFrom hl.slotFails)

theorem Dev.Canon.loadSlots (h : d.Canon) {first prepare} (hprepare : ∀ {e}, e.Canon → (prepare e).Canon) :
    (d.loadSlots first prepare).2.Canon := by
  unfold Dev.loadSlots
  split
  · exact h.slotFails.secondSlot hprepare
  · extract_lets d1
    have h1 : d1.Canon := hprepare h
    have hl : (d1.loadSlot first).dev.Canon := h1.loadSlot
    split <;> rename_i he <;> rw [he] at hl
    · exact hl
    · exact (h1.againFrom hl.slotFails).secondSlot id

theorem Dev.Canon.withoutImage (h : d.Canon) : d.withoutImage.Canon := (h.each fun h1 => h1.setWord).same.restoreStanding

theorem Dev.Canon.loadByState (h : d.Canon) {env} : (d.loadByState env).2.Canon := by
  refine .ite_snd ?_ h.wipeAndTrain.withoutImage.put
  dsimp only
  split
  · rename_i he
    exact ((h.loadSlots fun h1 => h1.wipeAndTrain).of_snd he).put
  · rename_i he
    exact ((((h.loadSlots fun h2 => h2.wipeAndTrain).of_snd he).withoutImage).put).put

theorem Dev.Canon.startClocks (h : d.Canon) : d.startClocks.Canon := h.each fun h1 => h1.setMhz.put

theorem Dev.Canon.bringUp (h : d.Canon) {env} : (d.bringUp env).Canon :=
  ((h.each fun h1 => .ite h1.put h1.startTraining).each fun h2 => h2.subportUp).each fun h3 => .ite h3.put h3

theorem Dev.Canon.chooseDriver (h : d.Canon) : d.chooseDriver.Canon := .ite h h.put.put

theorem Dev.Canon.startTicking (h : d.Canon) {slot} : (d.startTicking slot).Canon :=
  have h1 : Dev.Canon _ := .chooseDriver (.same (.ite h h.put))
  .ite (.same h1) h1

theorem Dev.Canon.bootEntries (h : d.Canon) {env lost loaded} : (d.bootEntries env lost loaded).Canon :=
  h.lifeEntry.journal.closeBatch

theorem Dev.Canon.bootRuns (h : d.Canon) {env c} : (d.bootRuns env c).Canon := by
  unfold Dev.bootRuns
  extract_lets d1
  have h1 : d1.Canon := h.runCopy.finishErasures.restoreKeys.restoreFields.countRecords
  split
  rename_i lost d2 hd2
  have h2 : d2.Canon := h1.restoreJournal.of_snd hd2
  split
  rename_i loaded d3 hd3
  have h3 : d3.Canon := h2.loadByState.of_snd hd3
  extract_lets front sup d4 d5 ticks d6 d7 sup'
  have h4 : d4.Canon := h3.same
  have h5 : d5.Canon := h4.bootEntries.startClocks.bringUp
  have h6 : d6.Canon := by
    unfold d6
    split
    · exact .ite h5.startTicking.put h5.put
    · exact h5.put
  have h7 : d7.Canon := .ite h6 (h6.each fun h => h.put.put)
  exact h7.same

theorem Dev.Canon.startUp (h : d.Canon) {env} : (d.startUp env).Canon := by
  refine .ite h ?_
  dsimp only
  split
  · exact h.identify.countBoot.bootHalt
  · exact h.identify.countBoot.bootRuns

/-! ### Supply -/

theorem Dev.Canon.inPhase (h : d.Canon) {p} : (d.inPhase p).Canon := h.same
theorem Dev.Canon.powered (h : d.Canon) {f} (hf : ∀ {e}, e.Canon → (f e).Canon) : (d.powered f).Canon := .ite h (hf h)
theorem Dev.Canon.powerDown (_ : d.Canon) : d.powerDown.Canon := .inPhase .afterReset
theorem Dev.Canon.powerUp (h : d.Canon) : d.powerUp.Canon := h.inPhase
theorem Dev.Canon.vinFlags (h : d.Canon) {row} : (d.vinFlags row).Canon := .ite h.put.put h.put.put.put.bump

theorem Dev.Canon.vinChange (h : d.Canon) {mv} : (d.vinChange mv).Canon :=
  .ite h.same (.ite h.same.powerDown (.ite h.same (.ite h.same.powerDown (.ite (.ite h.same h.same.powerUp.vinFlags) (.ite h.same
      h.same.vinFlags)))))

theorem Dev.Canon.powerFail (h : d.Canon) : d.powerFail.Canon := h.same.powerDown
theorem Dev.Canon.thermal (h : d.Canon) {temps} : (d.thermal temps).Canon := .ite h (.inPhase .afterReset)
theorem Dev.Canon.supplyFault (h : d.Canon) : d.supplyFault.Canon := .ite h .afterReset
theorem Dev.Canon.resetAssert (h : d.Canon) : d.resetAssert.Canon := .ite h (.ite h.same .afterReset)
theorem Dev.Canon.resetRelease (h : d.Canon) : d.resetRelease.Canon := .ite h (.ite h.same.same h.same)

theorem Dev.Canon.powerLimit (h : d.Canon) {limiting stretched} : (d.powerLimit limiting stretched).Canon :=
  .bump (.put (.each (.ite h.bump h) fun h1 => h1.put))

theorem Dev.Canon.pllUnlock (h : d.Canon) {c} : (d.pllUnlock c).Canon :=
  .ite h (.ite h.bump.supplyFault (h.same.put.bump.each fun h1 => h1.clockStops))

theorem Dev.Canon.pllRelock (h : d.Canon) {c} : (d.pllRelock c).Canon := .ite h (h.same.put.each fun h1 => h1.regionResumed)
theorem Dev.Canon.droop (h : d.Canon) {cycles} : (d.droop cycles).Canon := h.bump.bump
theorem Dev.Canon.railFault (h : d.Canon) {tier} : (d.railFault tier).Canon := .ite h h.same
theorem Dev.Canon.railReturn (h : d.Canon) {tier} : (d.railReturn tier).Canon := h.same
theorem Dev.Canon.ppsOut (h : d.Canon) : d.ppsOut.Canon := .ite h (.pulse (.ite h.advance.same.put.put h.advance))
theorem Dev.Canon.setIr (h : d.Canon) {ir lands} : (d.setIr ir lands).Canon := h.same
theorem Dev.Canon.shiftOut (h : d.Canon) {bits} : (d.shiftOut bits).Canon := h.same
theorem Dev.Canon.boundary_ (h : d.Canon) {cells} : (d.boundary_ cells).Canon := h.draw.shiftOut.same
theorem Dev.Canon.nvmRefuse (h : d.Canon) : d.nvmRefuse.Canon := h.same
theorem Dev.Canon.nvmRead (h : d.Canon) {region offset} : (d.nvmRead region offset).Canon := .ite h.setIr.nvmRefuse h.setIr.same
theorem Dev.Canon.nvmBegin (h : d.Canon) {op ws} : (d.nvmBegin op ws).Canon := h.same

theorem Dev.Canon.nvmProgram (h : d.Canon) {region offset data} : (d.nvmProgram region offset data).Canon :=
  .ite h.setIr.nvmRefuse h.setIr.nvmBegin

theorem Dev.Canon.nvmErase (h : d.Canon) {region offset} : (d.nvmErase region offset).Canon :=
  .ite h.setIr.nvmRefuse h.setIr.nvmBegin

theorem Dev.Canon.nvmDone (h : d.Canon) : d.nvmDone.Canon := .ite h.same h

/-! ### The commands -/

/-- The next state, if there is one, has its stores in canonical form. -/
def LeavesCanon (o : Host.Outcome State Fault Refusal) : Prop := ∀ t, o = .next t → t.dev.Canon

theorem LeavesCanon.next (h : d.Canon) {cs} : LeavesCanon (.next ⟨d, cs⟩) := by
  rintro _ ⟨⟩
  exact h

variable {s : State} {f : Dev → Dev}

theorem Dev.Canon.live (h : s.dev.Canon) (hf : ∀ {e}, e.Canon → (f e).Canon) : LeavesCanon (s.live f) := .next (.ite (hf h).same h)

theorem Dev.Canon.liveLife (h : s.dev.Canon) (hf : ∀ {e}, e.Canon → (f e).Canon) {g} : LeavesCanon (s.liveLife f g) :=
  .next (.ite (hf h).same h)

theorem Dev.Canon.clocked (h : s.dev.Canon) (hf : ∀ {e}, e.Canon → (f e).Canon) {halted} : LeavesCanon (s.clocked halted f) :=
  h.live fun h => .ite h (hf h)

theorem Dev.Canon.clockedLife (h : s.dev.Canon) (hf : ∀ {e}, e.Canon → (f e).Canon) {halted g} :
    LeavesCanon (s.clockedLife halted f g) := h.liveLife fun h => .ite h (hf h)

theorem Dev.Canon.always (h : s.dev.Canon) (hf : ∀ {e}, e.Canon → (f e).Canon) : LeavesCanon (s.always f) := .next (hf h).same

theorem Dev.Canon.alwaysLife (h : s.dev.Canon) (hf : ∀ {e}, e.Canon → (f e).Canon) {g} : LeavesCanon (s.alwaysLife f g) :=
  .next (hf h).same

theorem Dev.Canon.execVinChange (h : s.dev.Canon) {millivolts} : LeavesCanon (execVinChange millivolts s) := by
  unfold Machine.execVinChange
  split
  · rintro _ ⟨⟩
  · exact h.always fun h => h.vinChange

theorem leavesCanon_exec (h : s.dev.Canon) {c} : LeavesCanon (exec c s) := by
  unfold Machine.exec
  cases c with
  | receiveFrame => exact h.clocked fun h1 => h1.receive
  | pauseFrameReceive => exact h.clocked fun h1 => h1.pauseFrameReceive
  | pauseWindowEnd => exact h.clocked fun h1 => h1.pauseWindowEnd
  | pauseRepeat => exact h.clocked fun h1 => h1.pauseRepeat
  | txFcDisable => exact h.clocked fun h1 => h1.writeRequest
  | ptpDelayReqSend => exact h.clocked fun h1 => h1.delayReqSend
  | portLaneFail => exact h.live fun h1 => h1.laneFail
  | trainingViolation => exact h.live fun h1 => h1.trainingViolation
  | subportModeWrite => exact h.clocked fun h1 => h1.writeRequest
  | packetRelease => exact h.clocked fun h1 => h1.packetRelease
  | packetTransmit => exact h.clocked fun h1 => h1.packetTransmit
  | recordFrameTransmit => exact h.clocked fun h1 => h1.recordTransmit
  | parsePassEnter => exact h.clocked fun h1 => h1.passEnter
  | parsePassEnd => exact h.clocked fun h1 => h1.passEnd
  | searchResult => exact h.clocked fun h1 => h1.searchResult
  | recircWithdrawn => exact h.clocked fun h1 => h1.recircWithdrawn
  | ruleScrub => exact h.clocked fun h1 => h1.ruleScrub
  | parityRewrite => exact h.clocked fun h1 => h1.parityRewrite
  | ruleStage => exact h.clocked fun h1 => h1.ruleRequest
  | copySweepEnd => exact h.clocked fun h1 => h1.copySweepEnd
  | ruleCommit => exact h.clocked fun h1 => h1.ruleRequest
  | ruleAbort => exact h.clocked fun h1 => h1.ruleRequest
  | sweepEnd => exact h.clocked fun h1 => h1.sweepEnd
  | bucketReadReturn => exact h.clocked fun h1 => h1.bucketReadReturn
  | ageingSweepVisit => exact h.clocked fun h1 => h1.ageVisit
  | tickBoundary => exact h.liveLife fun h1 => h1.ownBoundary
  | tickSyncEdge => exact h.liveLife fun h1 => h1.syncEdge
  | syncLost => exact h.live fun h1 => h1.syncLost
  | tickBlock => exact h.clocked fun h1 => h1.tickBlock
  | tickPeriodWrite => exact h.clocked fun h1 => h1.writeRequest
  | tierResultWritten => exact h.clocked fun h1 => h1.tierResult
  | admissionGroupTimeout => exact h.clocked fun h1 => .ite h1 h1.advance.closeGroup
  | plannedEnd => exact h.clocked fun h1 => .ite h1 h1.advance.closeGroup.same
  | admissionGroupDecide => exact h.clocked fun h1 => h1.decideGroup
  | learningAdmit => exact h.clocked fun h1 => h1.learnAdmit
  | slackRequest => exact h.clocked fun h1 => h1.slack
  | decimHalve => exact h.clocked fun h1 => h1.gapHalve
  | energyRecalibrate => exact h.clocked fun h1 => h1.recalibrate
  | capRecompute => exact h.clocked fun h1 => h1.capRecompute
  | softStep => exact h.clocked fun h1 => h1.softStep
  | budgetWrite => exact h.clocked fun h1 => h1.writeRequest
  | throttleEnter => exact h.clocked fun h1 => h1.throttleEnter
  | tileIssue => exact h.clocked fun h1 => .ite h1 h1.tileIssue
  | tileDone => exact h.clocked fun h1 => h1.tileDone
  | outputSwap => exact h.clocked fun h1 => h1.outputSwap
  | gratingTileIssue => exact h.clocked fun h1 => .ite h1.tileIssue h1
  | gratingTileDone => exact h.clocked fun h1 => h1.tileDone
  | moverOp => exact h.clocked fun h1 => h1.moverIssue
  | moverComplete => exact h.clocked fun h1 => h1.moverComplete
  | elementwiseOp => exact h.clocked fun h1 => h1.elementwise
  | forestSampleEnter => exact h.clocked fun h1 => h1.forestNext
  | forestResult => exact h.clocked fun h1 => h1.forestResult
  | forestScrub => exact h.clocked fun h1 => h1.forestScrub
  | forestWordRewrite => exact h.clocked fun h1 => h1.forestRewrite
  | shadowLoadDone => exact h.clocked fun h1 => h1.shadowLoaded
  | stateReadEnd => exact h.clocked fun h1 => h1.stateReadEnd
  | commitRequest => exact h.clocked fun h1 => h1.commitRequest
  | stateSweepEnd => exact h.clocked fun h1 => h1.stateSweepEnd
  | modelStageOpen => exact h.clocked fun h1 => .ite h1 (h1.request fun h2 => h2.stageOp fun h3 => h3.stageOpen)
  | modelStageData => exact h.clocked fun h1 => .ite h1 (h1.request fun h2 => h2.stageOp fun h3 => h3.stageData)
  | modelStageClose => exact h.clocked fun h1 => .ite h1 h1.closeRequest
  | modelStageLoadDone => exact h.clocked fun h1 => h1.closeLoadDone
  | modelStageAbort => exact h.clocked fun h1 => .ite h1 (h1.request fun h2 => h2.stageOp fun h3 => h3.stageAbort)
  | modelSwap => exact h.clocked fun h1 => h1.request fun h2 => h2.modelSwap
  | learningStepBegin => exact h.clocked fun h1 => h1.learnBegin
  | learningStepEnd => exact h.clocked fun h1 => h1.learnEnd
  | learningStepTimeout => exact h.clocked fun h1 => h1.learnTimeout
  | counterSignal => exact h.clocked fun h1 => h1.signal
  | counterWait => exact h.clocked fun h1 => h1.wait
  | tryTake => exact h.clocked fun h1 => h1.tryTake
  | counterRead => exact h.clocked fun h1 => h1.readCtr
  | pinSet => exact h.clocked fun h1 => h1.pinSet
  | pinClear => exact h.clocked fun h1 => h1.pinClear
  | pinWait => exact h.clocked fun h1 => h1.pinWait
  | pinTest => exact h.clocked fun h1 => h1.pinTest
  | arrive => exact h.clocked fun h1 => h1.arrive
  | boardBarrierHigh => exact h.clocked fun h1 => h1.boardBarrierHigh
  | watchdogFire => exact h.clocked fun h1 => h1.watchdogFire
  | restart => exact h.clocked fun h1 => h1.writeRequest
  | counterValueWrite => exact h.clocked fun h1 => h1.writeRequest
  | queuePush => exact h.clocked fun h1 => h1.queuePush
  | queueRead => exact h.clocked fun h1 => h1.queueRead
  | queueTimeout => exact h.clocked fun h1 => h1.queueTimeout
  | clearNotice => exact h.clocked fun h1 => h1.clearNotice
  | flush => exact h.clocked fun h1 => h1.flush
  | packetBoundaryFlush => exact h.clocked fun h1 => h1.packetBoundaryFlush
  | flushForced => exact h.clocked fun h1 => h1.flushForced
  | remoteRequestIssue => exact h.clocked fun h1 => h1.issue
  | load => exact h.clocked fun h1 => h1.loadOp
  | store => exact h.clocked fun h1 => h1.storeOp
  | atomicAdd => exact h.clocked fun h1 => h1.atomicOp
  | atomicCas => exact h.clocked fun h1 => h1.atomicOp
  | atomicMax => exact h.clocked fun h1 => h1.atomicOp
  | remoteSignal => exact h.clocked fun h1 => h1.signalOp
  | writeCommit => exact h.clocked fun h1 => h1.writeCommit
  | loadRsp => exact h.clocked fun h1 => h1.dataAnswer
  | ack => exact h.clocked fun h1 => h1.ackOp
  | atomicRsp => exact h.clocked fun h1 => h1.dataAnswer
  | nack => exact h.clocked fun h1 => h1.nackReceived
  | remoteTimeout => exact h.clocked fun h1 => h1.remoteTimeout
  | mirrorBlockReceive => exact h.clocked fun h1 => h1.mirrorBlock
  | replayRequest => exact h.clocked fun h1 => h1.replay
  | replayTimeout => exact h.clocked fun h1 => h1.replayTimeout
  | idBlock => exact h.clocked fun h1 => h1.idBlock
  | peerSilent => exact h.clocked fun h1 => h1.peerSilent
  | mirrorLaneFail => exact h.clocked fun h1 => h1.mirrorLaneFail
  | hallFrameReceive => exact h.clocked fun h1 => h1.hallReceive
  | hallRetransmit => exact h.clocked fun h1 => h1.hallRetransmit
  | patrolScrub => exact h.clocked fun h1 => h1.patrolScrub
  | refreshDouble => exact h.clocked fun h1 => h1.takeTemps.refresh
  | epoch => exact h.live fun h1 => h1.epoch
  | sampleCapture => exact h.clocked fun h1 => h1.sampleCapture
  | watchFire => exact h.clocked fun h1 => h1.watchFire
  | regionStop => exact h.live fun h1 => h1.regionStop
  | regionResumed => exact h.live fun h1 => .ite h1 h1.regionResumed
  | ppsInEdge => exact h.live fun h1 => h1.ppsInEdge
  | holdover => exact h.live fun h1 => h1.holdover
  | timeSet => exact h.clocked fun h1 => h1.writeRequest
  | healthEntry => exact h.clocked fun h1 => h1.healthEntry
  | lifeBatchClose => exact h.clocked fun h1 => h1.lifeBatchClose
  | standingCopyWriteDone => exact h.clocked fun h1 => h1.standingDone
  | exportFrameSend => exact h.clocked fun h1 => h1.exportSend
  | tracePull => exact h.clocked fun h1 => h1.request fun h2 => h2.pull
  | counterPull => exact h.clocked fun h1 => h1.request fun h2 => h2.pull
  | stepMode => exact h.clocked fun h1 => h1.request fun h2 => h2.stepMode
  | stepCommand => exact h.clocked fun h1 => h1.request fun h2 => h2.step
  | stepDone => exact h.clocked fun h1 => h1.stepDone
  | controlRequestReceive => exact h.clocked fun h1 => h1.controlReceive
  | read => exact h.clocked fun h1 => h1.requestBy fun h2 => h2.readOp
  | write => exact h.clocked fun h1 => h1.writeRequest
  | writeBlock => exact h.clocked fun h1 => h1.blockRequest
  | registerWrite => exact h.clocked fun h1 => h1.writeRequest
  | journalPull => exact h.clocked fun h1 => h1.request fun h2 => h2.journalPull
  | reset => exact h.clocked fun h1 => h1.resetOp
  | slotWinWrite => exact h.clocked fun h1 => h1.writeRequest
  | slotErase => exact h.clocked fun h1 => h1.writeRequest
  | slotVerify => exact h.clocked fun h1 => h1.writeRequest
  | slotOpDone => exact h.clocked fun h1 => h1.slotOpDone
  | preferWrite => exact h.clocked fun h1 => h1.writeRequest
  | tokenRefill => exact h.clocked fun h1 => h1.tokenRefill
  | summary => exact h.clocked fun h1 => h1.summary
  | journalBatchClose => exact h.clocked fun h1 => h1.journalBatchClose
  | quote => exact h.clocked fun h1 => h1.attestRequest
  | fetch => exact h.clocked fun h1 => h1.attestRequest
  | cert => exact h.clocked fun h1 => h1.attestRequest
  | challenge => exact h.clocked fun h1 => h1.lifecycleCloses
  | transition => exact h.clockedLife fun h1 => h1.transition
  | rekey => exact h.clocked fun h1 => h1.lifecycleCloses
  | challengeLapse => exact h.clocked fun h1 => h1.challengeLapse
  | endorseWrite => exact h.clocked fun h1 => h1.blockRequest
  | startUp => exact h.alwaysLife fun h1 => h1.startUp
  | powerFail => exact h.always fun h1 => h1.powerFail
  | powerLimit => exact h.clocked fun h1 => h1.powerLimit
  | phaseShed => exact h.live fun h1 => h1.bump
  | computeSupplyFault => exact h.always fun h1 => h1.supplyFault
  | dramRailFault => exact h.always fun h1 => h1.powered fun h2 => h2.railFault
  | thermalShutdown => exact h.always fun h1 => h1.thermal
  | pllUnlock => exact h.live fun h1 => h1.pllUnlock
  | pllRelock => exact h.live fun h1 => h1.pllRelock
  | droop => exact h.live fun h1 => h1.droop
  | resetNAssert => exact h.always fun h1 => h1.resetAssert
  | resetNRelease => exact h.always fun h1 => h1.resetRelease
  | ppsOutPulse => exact h.live fun h1 => h1.ppsOut
  | clkOutWrite => exact h.clocked fun h1 => h1.writeRequest
  | extest => exact h.always fun h1 => h1.powered fun h2 => h2.setIr.boundary_
  | idcode => exact h.always fun h1 => h1.powered fun h2 => h2.setIr.shiftOut
  | samplePreload => exact h.always fun h1 => h1.powered fun h2 => h2.setIr.boundary_
  | clamp => exact h.always fun h1 => h1.powered fun h2 => h2.setIr
  | highz => exact h.always fun h1 => h1.powered fun h2 => h2.setIr
  | bypass => exact h.always fun h1 => h1.powered fun h2 => .ite h2 h2.setIr
  | stageRead => exact h.always fun h1 => h1.powered fun h2 => h2.setIr.shiftOut
  | nvmRead => exact h.always fun h1 => h1.powered fun h2 => h2.nvmRead
  | nvmProgram => exact h.alwaysLife fun h1 => h1.powered fun h2 => h2.nvmProgram
  | nvmErase => exact h.alwaysLife fun h1 => h1.powered fun h2 => h2.nvmErase
  | trstNAssert => exact h.always fun h1 => h1.powered fun h2 => h2.setIr
  | pauseQuantaExpiry => exact h.clocked fun h1 => h1.quantaExpiry
  | pauseCeilingReached => exact h.clocked fun h1 => h1.pauseCeiling
  | subportLinkUp => exact h.clocked fun h1 => h1.subportUp
  | subportGoesDown => exact h.clocked fun h1 => h1.subportDown
  | mirrorRetrainAttempt => exact h.clocked fun h1 => h1.retrainAttempt
  | dramRailReturn => exact h.always fun h1 => h1.powered fun h2 => h2.railReturn
  | watchReadEnd => exact h.clocked fun h1 => h1.watchReadEnd
  | nvmAccessDone => exact h.always fun h1 => h1.powered fun h2 => h2.nvmDone
  | dailyLifeEntries => exact h.clocked fun h1 => h1.dailyEntries
  | retentionScan => exact h.clocked fun h1 => h1.retentionEntries
  | readBlock => exact h.clocked fun h1 => h1.requestBy fun h2 => h2.readBlockOp
  | vinChange => exact h.execVinChange

/-- Every step keeps the three stores in canonical form. -/
theorem leavesCanon_step (h : s.dev.Canon) : LeavesCanon (step s) := by
  unfold Machine.step
  split
  · rename_i rest _
    exact leavesCanon_exec (s := ⟨s.dev, rest⟩) h
  · exact .next h.idle

/-- Settles O60: the canonical form holds at reset, and each operation of the model that a step is made of keeps it. -/
theorem storesStayCanonical : Obligations.StoresStayCanonical := by
  refine ⟨⟨rfl, rfl, rfl⟩, fun s t hs hr hm hc => ?_⟩
  have h : t.dev.Canon := leavesCanon_step ⟨hr, hm, hc⟩ t hs
  exact ⟨h.regs, h.mem, h.core⟩


end Sys2Proof.Machine
end

section
/-! The reset values (O10) and the merge of a host write (O17). -/

namespace Sys2Proof.Machine

/-- Settles O10, each value by evaluation of the reset state. -/
theorem resetValues : Obligations.ResetValues :=
  ⟨rfl, rfl, rfl, rfl, by decide, by decide, rfl, rfl, fun _ => rfl, fun _ => rfl, rfl⟩

/-- The merge as a bit of a word sees it: `rw`, `c` and `s` say whether a field of access `RW`, `W1C` or `W1S` covers the bit. -/
def mergeBit (rw c s cur v : Bool) : Bool := ((if rw then v else cur) || (v && s)) && !(v && c)

theorem RegDesc.merge_testBit (r : RegDesc) (i cur v b : Nat) :
    let has (k : Access) : Bool := (r.mask i fun f => f.acc = k).testBit b
    (r.merge i cur v).testBit b = mergeBit (has .rw) (has .w1c) (has .w1s) (cur.testBit b) (v.testBit b) := by
  have bit : ∀ rw c s cur v : Bool,
      ((((cur ^^ (cur && rw)) || (v && rw)) || (v && s)) ^^ ((((cur ^^ (cur && rw)) || (v && rw)) || (v && s)) && (v && c)))
        = mergeBit rw c s cur v := by decide
  simp only [RegDesc.merge, Nat.testBit_xor, Nat.testBit_and, Nat.testBit_or]
  exact bit _ _ _ _ _

/-- Settles O17: each clause is a value of `mergeBit`. -/
theorem writeMergesFields : Obligations.WriteMergesFields := by
  intro r i cur v b
  dsimp only
  rw [RegDesc.merge_testBit]
  refine ⟨fun hw hc hs => ?_, fun hs hw hc => ?_, fun hc hw hs => ?_, fun hw hs hc => ?_⟩
  · simp [mergeBit, hw, hc, hs]
  · simp [mergeBit, hs, hw, hc]
  · simp [mergeBit, hc, hw, hs, Bool.and_comm]
  · simp [mergeBit, hw, hs, hc]

end Sys2Proof.Machine
end

section
/-! A host request whose turn it is, from its beginning to its answer: what its answering moves (`Dev.AnswerFrame`), that the request
begun differs from the device in no word that counts (`Dev.Twin`), and the two together (`Dev.Settles`, `Dev.Executes`); then the
writes (O18). -/

namespace Sys2Proof.Machine

/-! ### What the answering of a request may move -/

/-- The words that the answer of a queued request may move. -/
def answerMoves : List Nat :=
  [R.CFG_CTL_CFG_QUEUE_OCC.addr, C.CFG_CTL_OK, C.CFG_CTL_REFUSED] ++ (List.range 8).map C.PORT_CTL_MALFORMED ++ journalWords

/-- A device without what an answer sent, counted and journaled may move. -/
def Dev.sansAnswer (d : Dev) : Dev :=
  { d with regs := [], port := Port.reset, lpe := Loupe.reset, ctl := Ctl.reset, jrn := Journal.reset, nvm := d.nvm.apart }

/-- What each operation of an answer leaves of the device `d` that it began from. -/
structure Dev.AnswerFrame (d e : Dev) : Prop where
  /-- The words that an answer does not move. -/
  words : d.KeepsWords e answerMoves
  /-- The parts that it does not move. -/
  rest : e.sansAnswer = d.sansAnswer
  /-- The state of the control frames. -/
  ctl : e.ctl = d.ctl
  /-- No key of the flash comes or goes. -/
  keys : e.nvm.keys.length = d.nvm.keys.length

theorem ownWords_subset_answerMoves {sp : Nat} (h : sp < 8) : ∀ a ∈ ownWords sp, a ∈ answerMoves :=
  fun _ ha => List.mem_append_right _ (List.mem_append_right _ (List.mem_flatMap.2 ⟨sp, List.mem_range.2 h, ha⟩))

theorem malformed_mem_answerMoves {sp : Nat} (h : sp < 8) : C.PORT_CTL_MALFORMED sp ∈ answerMoves :=
  List.mem_append_left _ (List.mem_append_right _ (List.mem_map_of_mem (List.mem_range.2 h)))

@[simp] theorem length_modifyNth {α : Type} (i : Nat) (f : α → α) (xs : List α) : (modifyNth i f xs).length = xs.length := by
  induction xs generalizing i with
  | nil => simp [modifyNth]
  | cons x xs ih => cases i <;> simp [modifyNth, ih]

namespace Dev.AnswerFrame

variable {d e : Dev}

theorem refl (d : Dev) : d.AnswerFrame d := ⟨fun _ _ => rfl, rfl, rfl, rfl⟩

theorem same (h : d.AnswerFrame e) {e' : Dev} (hr : e'.regs = e.regs := by rfl) (hs : e'.sansAnswer = e.sansAnswer := by rfl)
    (hc : e'.ctl = e.ctl := by rfl) (hk : e'.nvm.keys.length = e.nvm.keys.length := by rfl) : d.AnswerFrame e' :=
  ⟨fun a ha => (Dev.word_congr hr a).trans (h.words a ha), hs.trans h.rest, hc.trans h.ctl, hk.trans h.keys⟩

theorem put (h : d.AnswerFrame e) {f : Fld} {v : Nat} (hf : f.addr ∈ answerMoves) : d.AnswerFrame (e.put f v) :=
  ⟨fun a ha => (e.word_put_other f v (ne_of_mem_of_not_mem hf ha).symm).trans (h.words a ha), h.rest, h.ctl, h.keys⟩

theorem bump (h : d.AnswerFrame e) {a n : Nat} (ha : a ∈ answerMoves) : d.AnswerFrame (e.bump a n) where
  words x hx := (e.word_bump_other n (ne_of_mem_of_not_mem ha hx).symm).trans (h.words x hx)
  rest := by
    have hs : (e.bump a n).sansAnswer = e.sansAnswer := by unfold Dev.bump; split <;> rfl
    exact hs.trans h.rest
  ctl := (e.bump_ctl a n).trans h.ctl
  keys := by rw [Dev.bump_nvm]; exact h.keys

theorem ite {c : Prop} [Decidable c] {e' : Dev} (h : d.AnswerFrame e) (h' : d.AnswerFrame e') : d.AnswerFrame (if c then e else e') := by
  split <;> assumption

theorem each (h : d.AnswerFrame e) {α : Type} {xs : List α} {f : Dev → α → Dev}
    (hf : ∀ {e x}, d.AnswerFrame e → d.AnswerFrame (f e x)) : d.AnswerFrame (e.each xs f) :=
  Dev.each_inv d.AnswerFrame xs f e h fun _ _ => hf

theorem send (h : d.AnswerFrame e) {sp : Nat} {f : List Byte} (hsp : sp < 8) : d.AnswerFrame (e.send sp f) := by
  have hw := ownWords_subset_answerMoves hsp
  refine .ite (.bump (.bump h.same (hw _ ?_)) (hw _ ?_)) h <;> simp [ownWords]

theorem ownLeaves (h : d.AnswerFrame e) {sp : Nat} {f : OwnFrame} (hsp : sp < 8) : d.AnswerFrame (e.ownLeaves sp f) := by
  have hw := ownWords_subset_answerMoves hsp
  refine send ?_ hsp
  split
  · exact h
  · exact h.bump (hw _ (by simp [ownWords]))
  · exact h.bump (hw _ (by simp [ownWords]))
  · exact h.same

theorem drainOwn (h : d.AnswerFrame e) {sp : Nat} (hsp : sp < 8) : d.AnswerFrame (e.drainOwn sp) :=
  .ite h (.each h.same fun h => h.ownLeaves hsp)

theorem sendOwn (h : d.AnswerFrame e) {sp : Nat} {f : OwnFrame} (hsp : sp < 8) : d.AnswerFrame (e.sendOwn sp f) :=
  .ite (drainOwn h.same hsp) h

theorem sign (h : d.AnswerFrame e) {digest : List Byte} {r : List Byte × Dev} (hr : e.sign 2 digest = some r) : d.AnswerFrame r.2 := by
  unfold Dev.sign at hr
  extract_lets next top top1 e2 sig e3 at hr
  split at hr
  · cases hr
  · rw [← Option.some.inj hr]
    have hm {x : Dev} {f : KeyState → KeyState} (hx : d.AnswerFrame x) : d.AnswerFrame (x.modKey 2 f) :=
      hx.same rfl rfl rfl (length_modifyNth ..)
    have h2 : d.AnswerFrame e2 := .ite h (hm (h.put (by decide)))
    have h3 : d.AnswerFrame e3 := hm h2
    have h4 {v : Nat} : d.AnswerFrame ((e3.put (R.SEC_KEY_NEXT 2) v).bump C.SEC_SIGNATURES) :=
      .bump (.put h3 (by decide)) (by decide)
    exact h4

theorem journalSend (h : d.AnswerFrame e) {sp k : Nat} (hsp : sp < 8) : d.AnswerFrame (Dev.journalSend sp k e) := by
  induction k generalizing e with
  | zero => exact h
  | succ k ih =>
    have h1 {n : Nat} {f : OwnFrame} : d.AnswerFrame ((e.frameUse sp n).sendOwn sp f) := sendOwn h.same hsp
    exact .ite h (ih h1.same)

theorem journalExport (h : d.AnswerFrame e) : d.AnswerFrame e.journalExport := by
  have h1 {n : Nat} : d.AnswerFrame (e.bump C.JRN_EXPORT_SKIPPED n) := h.bump (by decide)
  have hsp : e.get R.JRN_CFG_EXPORT_SUBPORT < 8 := e.get_lt _
  exact .ite h1.same (.ite (journalSend h1.same hsp) h1.same)

theorem closeBatch (h : d.AnswerFrame e) {cause : Nat} : d.AnswerFrame (e.closeBatch cause) := by
  unfold Dev.closeBatch
  split
  · exact h
  · extract_lets entries seq root hdr
    split
    rename_i sig e1 he1
    have h1 : d.AnswerFrame e1 := by
      split at he1
      · rename_i r hr
        have hr1 : r.2 = e1 := congrArg Prod.snd he1
        exact hr1 ▸ h.sign hr
      · cases he1
        exact h.put (by decide)
    extract_lets body bytes head kept ring oldest jrn nvm e2 e3 e4
    have h2 : d.AnswerFrame e2 := h1.same
    have h3 : d.AnswerFrame e3 := .put (.put (.put h2 (by decide)) (by decide)) (by decide)
    have h4 : d.AnswerFrame e4 := .put (.put (.put (.put h3 (by decide)) (by decide)) (by decide)) (by decide)
    exact .journalExport (.bump h4 (by decide))

theorem journal (h : d.AnswerFrame e) {x : JEntry} : d.AnswerFrame (e.journal x) := by
  unfold Dev.journal
  extract_lets n bytes first jrn nvm e1 e2
  have h1 : d.AnswerFrame e1 := h.same
  have h2 : d.AnswerFrame e2 := .bump (.put h1 (by decide)) (by decide)
  exact .ite h2.closeBatch h2

theorem reply (h : d.AnswerFrame e) {r : Req} {a : Answer} (hsp : r.sp < 8) : d.AnswerFrame (e.reply r a) := by
  unfold Dev.reply
  extract_lets e1 e2 e3 x
  have h1 : d.AnswerFrame e1 := h.sendOwn hsp
  have h2 : d.AnswerFrame e2 := .ite (h1.bump (by decide)) (h1.bump (by decide))
  have h3 : d.AnswerFrame e3 := .ite (same (.bump h2 (malformed_mem_answerMoves hsp))) h2
  exact .ite h3.journal h3

end Dev.AnswerFrame

/-! ### A request begun -/

theorem setBits_bitsOf (n lo w : Nat) : setBits n lo w (bitsOf n lo w) = n := by
  apply Nat.eq_of_testBit_eq
  intro i
  rw [setBits_testBit, bitsOf_testBit]
  split
  · rename_i h
    have hi : i - lo < w ∧ lo + (i - lo) = i := by omega
    simp [hi]
  · rfl

/-- A field written with what it reads leaves every word. -/
theorem Dev.word_put_get (d : Dev) (f : Fld) (a : Nat) : (d.put f (d.get f)).word a = d.word a := by
  by_cases h : a = f.addr
  · subst h
    rw [Dev.put, Dev.word_setWord_same, Dev.get, setBits_bitsOf, Nat.mod_eq_of_lt (d.word_lt _)]
  · exact d.word_put_other f _ h

theorem Sparse.filterMap_put {α β : Type} (g : Nat × α → Option β) (s : Sparse α) (a : Nat) (v : α) (hg : ∀ x, g (a, x) = none) :
    (s.put a v).filterMap g = s.filterMap g := by
  induction s with
  | nil => simp [Sparse.put, hg]
  | cons e s ih =>
    obtain ⟨k, w⟩ := e
    unfold Sparse.put
    split
    · rename_i h
      subst h
      simp [hg]
    · split
      · simp [List.filterMap_cons, hg]
      · simp only [List.filterMap_cons, ih]

theorem Sparse.filterMap_drop {α β : Type} (g : Nat × α → Option β) (s : Sparse α) (a : Nat) (hg : ∀ x, g (a, x) = none) :
    (s.drop a).filterMap g = s.filterMap g := by
  induction s with
  | nil => rfl
  | cons e s ih =>
    obtain ⟨k, w⟩ := e
    unfold Sparse.drop at ih ⊢
    by_cases h : k = a
    · subst h
      simp [hg, ih]
    · simp [h, List.filterMap_cons, ih]

theorem Sparse.filterMap_write {α β : Type} [DecidableEq α] (f : Nat → α) (g : Nat × α → Option β) (s : Sparse α) (a : Nat) (v : α)
    (hg : ∀ x, g (a, x) = none) : (s.write f a v).filterMap g = s.filterMap g := by
  unfold Sparse.write
  split
  · exact filterMap_drop g s a hg
  · exact filterMap_put g s a v hg

/-- A word written outside `LPE_SEL` leaves the selections. -/
theorem Dev.selections_setWord (d : Dev) {a : Nat} (v : Nat) (h : a < 0xD00100000 ∨ 0xD00100000 + 8 * 16384 ≤ a) :
    (d.setWord a v).selections = d.selections := by
  unfold Dev.selections Dev.setWord
  refine Sparse.filterMap_write _ _ _ _ _ fun x => if_neg ?_
  simp only [Bool.and_eq_true, decide_eq_true_eq]
  omega

/-- The device in which the oldest request, if there is one, is begun. -/
def Dev.begin (d : Dev) : Dev :=
  match d.ctl.queue with
  | [] => d
  | r :: rest => d.setQueue ({ r with begun := true } :: rest)

theorem Dev.begin_of_queue {d : Dev} {r : Req} {rest : List Req} (h : d.ctl.queue = r :: rest) :
    d.begin = d.setQueue ({ r with begun := true } :: rest) := by
  unfold Dev.begin
  rw [h]

/-- Two devices that no register access can tell apart: they differ in the queue and in how the register store lists its words. -/
structure Dev.Twin (d e : Dev) : Prop where
  word : ∀ a, e.word a = d.word a
  selections : e.selections = d.selections
  rest : e = { d with regs := e.regs, ctl := { d.ctl with queue := e.ctl.queue } }

theorem Dev.Twin.refl (d : Dev) : d.Twin d := ⟨fun _ => rfl, rfl, rfl⟩

/-- A request begun changes nothing but its own mark: `QUEUE_OCC` shows the places held already. -/
theorem Dev.Turn.twin {d : Dev} {opcode addr : Nat} {payload : List Byte} (h : d.Turn opcode addr payload) : d.Twin d.begin := by
  unfold Dev.begin
  rcases h with h | ⟨r, rest, hq, _, _, _, _, _, hocc⟩
  · rw [h]
    exact .refl d
  · rw [hq]
    have hw (a : Nat) : (d.setQueue ({ r with begun := true } :: rest)).word a = d.word a := by
      have hp := Dev.word_put_get { d with ctl := { d.ctl with queue := { r with begun := true } :: rest } } R.CFG_CTL_CFG_QUEUE_OCC a
      exact (congrArg (fun n => (Dev.put _ R.CFG_CTL_CFG_QUEUE_OCC n).word a) hocc.symm).trans hp
    exact ⟨hw, Dev.selections_setWord _ _ (Or.inr (by decide)), rfl⟩

/-! ### A request answered -/

/-- An opcode that has run and given its answer: the answer is noted, and the oldest request, if there is one, gets it. -/
def Dev.conclude (d y : Dev) (opcode : Nat) (a : Answer) : Dev :=
  if d.ctl.queue = [] then y.noteAnswer opcode a else (y.noteAnswer opcode a).finishHead a

/-- The device `e` is `y`, to which a request of `d` has led, with that request answered. -/
structure Dev.Settles (d y e : Dev) (status : Nat) (payload : List Byte) : Prop where
  answered : d.Answered e status payload
  words : y.KeepsWords e d.answerWords
  parts : y.KeepsParts e d.answerParts
  fab : e.fab = y.fab
  apart : e.nvm.apart = y.nvm.apart
  keys : e.nvm.keys.length = y.nvm.keys.length

theorem Dev.noteAnswer_eq (d : Dev) {opcode : Nat} (h : opcode ≠ 0x10) (a : Answer) :
    d.noteAnswer opcode a = { d with ctl := { d.ctl with last := (a.status, a.payload) } } := by
  simp [Dev.noteAnswer, Dev.countStage, h]

theorem Dev.fab_of_sansAnswer {d e : Dev} (h : e.sansAnswer = d.sansAnswer) : e.fab = d.fab := (congrArg Dev.fab h :)

theorem Dev.apart_of_sansAnswer {d e : Dev} (h : e.sansAnswer = d.sansAnswer) : e.nvm.apart = d.nvm.apart := (congrArg Dev.nvm h :)

/-- What is the same without its answer is the same in the parts that an answer does not move. -/
theorem Dev.keepsParts_of_sansAnswer {d e : Dev} (h : e.sansAnswer = d.sansAnswer) :
    d.KeepsParts e [.ctl, .port, .lpe, .jrn, .nvm] := by
  intro p hp
  cases p with
  | time => exact ⟨(congrArg Dev.ns h :), (congrArg Dev.frac h :)⟩
  | front => exact (congrArg Dev.front h :)
  | plan => exact (congrArg Dev.plan h :)
  | lens => exact (congrArg Dev.lens h :)
  | seq => exact (congrArg Dev.seq h :)
  | sync => exact (congrArg Dev.sync h :)
  | fab => exact (congrArg (fun d => { Dev.fab d with mem := [], core := [] }) h :)
  | life => exact (congrArg Dev.life h :)
  | sec => exact (congrArg Dev.sec h :)
  | sup => exact (congrArg Dev.sup h :)
  | ctl | port | lpe | jrn | nvm => exact absurd hp (by simp)

theorem Dev.answerWords_of_queue {d : Dev} (h : d.ctl.queue ≠ []) : d.answerWords = answerMoves := if_neg h

/-- An update of the state of the control frames leaves the other parts. -/
theorem Dev.keepsParts_ctl (y : Dev) (c : Ctl) : y.KeepsParts { y with ctl := c } [.ctl] := by
  intro p hp
  cases p with
  | ctl => exact absurd hp (by simp)
  | time => exact ⟨rfl, rfl⟩
  | port | front | plan | lens | seq | sync | fab | lpe | jrn | nvm | life | sec | sup => rfl

/-- With no request queued the answer is noted and nothing else. -/
theorem Dev.settles_of_empty {d y : Dev} {opcode : Nat} (h : d.ctl.queue = []) (hop : opcode ≠ 0x10) (hy : y.ctl = d.ctl) (a : Answer) :
    d.Settles y (y.noteAnswer opcode a) a.status a.payload := by
  rw [y.noteAnswer_eq hop]
  have hp : d.answerParts = [.ctl] := if_pos h
  exact ⟨⟨rfl, by simp [hy, h], by simp [h]⟩, fun _ _ => rfl, hp ▸ y.keepsParts_ctl _, rfl, rfl, rfl⟩

theorem Dev.put_sansAnswer (d : Dev) (f : Fld) (v : Nat) : (d.put f v).sansAnswer = d.sansAnswer := rfl

/-- After its reply, with which `x` has come from `z`, a request's source has its status and its place is free. -/
theorem Dev.AnswerFrame.finish {z x : Dev} (hr : z.AnswerFrame x) (r : Req) (status : Nat) (rest : List Req) :
    let e := (x.seqStatus r status).setQueue rest
    e.ctl = { z.ctl with queue := rest, seqs := z.ctl.seqs.map fun s =>
        if s.mac = r.sa && s.last = r.seq then { s with status := some status } else s }
      ∧ z.KeepsWords e answerMoves ∧ e.sansAnswer = z.sansAnswer ∧ e.nvm.keys.length = z.nvm.keys.length := by
  unfold Dev.setQueue
  refine ⟨?_, fun w hw => ?_, (Dev.put_sansAnswer _ _ _).trans hr.rest, ?_⟩
  · rw [Dev.put_ctl, Dev.seqStatus, hr.ctl]
  · have hocc : R.CFG_CTL_CFG_QUEUE_OCC.addr ∈ answerMoves := by decide
    exact (Dev.word_put_other _ _ _ (ne_of_mem_of_not_mem hocc hw).symm).trans (hr.words w hw)
  · rw [Dev.put_nvm]
    exact hr.keys

theorem Dev.finishHead_of_queue {z : Dev} {r : Req} {rest : List Req} (h : z.ctl.queue = r :: rest) (a : Answer) :
    z.finishHead a = ((z.reply r a).seqStatus r a.status).setQueue rest := by
  unfold Dev.finishHead Dev.respond
  rw [h]

/-- A device `e` to which the reply to the oldest request of `d` has led from `y` settles that request. -/
theorem Dev.settles_of_frame {d y e : Dev} {r : Req} {rest : List Req} {status : Nat} {payload : List Byte}
    (hq : d.ctl.queue = r :: rest)
    (hctl : e.ctl = { d.ctl with queue := rest, last := (status, payload), seqs := d.ctl.seqs.map fun s =>
        if s.mac = r.sa && s.last = r.seq then { s with status := some status } else s })
    (hwords : y.KeepsWords e answerMoves) (hrest : e.sansAnswer = y.sansAnswer) (hkeys : e.nvm.keys.length = y.nvm.keys.length) :
    d.Settles y e status payload := by
  have hne : d.ctl.queue ≠ [] := by simp [hq]
  have hp : d.answerParts = [.ctl, .port, .lpe, .jrn, .nvm] := if_neg hne
  refine ⟨⟨?_, ?_, ?_⟩, ?_, hp ▸ Dev.keepsParts_of_sansAnswer hrest, Dev.fab_of_sansAnswer hrest, Dev.apart_of_sansAnswer hrest, hkeys⟩
  · rw [hctl]
  · rw [hctl, hq]; rfl
  · intro r' hr' s hs hmac hlast
    obtain rfl : r = r' := by simpa [hq] using hr'
    rw [hctl]
    exact List.mem_map.2 ⟨s, hs, by simp [hmac, hlast]⟩
  · rw [Dev.answerWords_of_queue hne]
    exact hwords

/-- The oldest request, which has begun, is answered: its source's entry takes the status and its place is free. -/
theorem Dev.settles_of_head {d y : Dev} {opcode : Nat} {r : Req} {rest : List Req} (hq : d.ctl.queue = r :: rest) (hsp : r.sp < 8)
    (hop : opcode ≠ 0x10) (hy : y.ctl = { d.ctl with queue := { r with begun := true } :: rest }) (a : Answer) :
    d.Settles y ((y.noteAnswer opcode a).finishHead a) a.status a.payload := by
  obtain ⟨z, hz⟩ : ∃ z : Dev, z = { y with ctl := { y.ctl with last := (a.status, a.payload) } } := ⟨_, rfl⟩
  have hzc : z.ctl = { d.ctl with queue := { r with begun := true } :: rest, last := (a.status, a.payload) } := by rw [hz, hy]
  have hr : z.AnswerFrame (z.reply { r with begun := true } a) := (Dev.AnswerFrame.refl z).reply hsp
  obtain ⟨hctl, hwords, hrest, hkeys⟩ := hr.finish { r with begun := true } a.status rest
  have hzy : z.sansAnswer = y.sansAnswer ∧ z.regs = y.regs ∧ z.nvm = y.nvm := by rw [hz]; exact ⟨rfl, rfl, rfl⟩
  obtain ⟨hzs, hzr, hzn⟩ := hzy
  rw [y.noteAnswer_eq hop, ← hz, Dev.finishHead_of_queue (congrArg Ctl.queue hzc) a]
  exact Dev.settles_of_frame hq (hctl.trans (by rw [hzc])) (fun w hw => (hwords w hw).trans (Dev.word_congr hzr w))
    (hrest.trans hzs) (hzn ▸ hkeys)

/-- What the answering of a request leaves and what it does, for every opcode but `RULE_STAGE`, which counts its refusals. -/
theorem Dev.Turn.settles {d y : Dev} {opcode addr : Nat} {payload : List Byte} (h : d.Turn opcode addr payload) (hop : opcode ≠ 0x10)
    (hy : y.ctl = d.begin.ctl) (a : Answer) : d.Settles y (d.conclude y opcode a) a.status a.payload := by
  unfold Dev.conclude
  rcases h with h | ⟨r, rest, hq, _, _, _, _, hsp, _⟩
  · rw [if_pos h]
    exact Dev.settles_of_empty h hop (by rw [hy, Dev.begin, h]) a
  · rw [if_neg (by simp [hq])]
    exact Dev.settles_of_head hq hsp hop (by rw [hy, Dev.begin, hq]; rfl) a

/-! ### The opcodes that a command executes -/

/-- A request whose turn it is and whose opcode's execution gives its answer at once. -/
theorem Dev.Turn.requestBy_eq {d y : Dev} {opcode addr : Nat} {payload : List Byte} {mine : Req → Bool}
    {run : Dev → List Byte → Dev × Option Answer} {a : Answer} (h : d.Turn opcode addr payload) (h4 : opcode ≤ 4)
    (hm : ∀ r : Req, r.addr = addr → r.payload = payload → mine r = true)
    (hy : (d.begin.ifAccepted opcode payload fun d => run d payload) = (y, some a)) :
    d.requestBy opcode mine payload run = d.conclude y opcode a := by
  unfold Dev.requestBy Dev.conclude
  rcases h with h | ⟨r, rest, hq, hb, ho, hr, hp, _, _⟩
  · rw [Dev.begin, h] at hy
    rw [h]
    simp [hy]
  · have ht : d.isTurn opcode mine = true := by
      unfold Dev.isTurn
      rw [hq]
      simp [hb, ho, hm r (hr.resolve_left (by omega)) hp]
    subst hp
    rw [Dev.begin_of_queue hq] at hy
    rw [hq]
    simp only [ht, if_true, hy, reduceCtorEq, if_false]

/-- The same for the opcodes that take no address. -/
theorem Dev.Turn.request_eq {d y : Dev} {opcode addr : Nat} {payload : List Byte} {run : Dev → Dev × Option Answer} {a : Answer}
    (h : d.Turn opcode addr payload) (hy : d.begin.ifAccepted opcode payload run = (y, some a)) :
    d.request opcode addr payload run = d.conclude y opcode a := by
  unfold Dev.request Dev.conclude
  rcases h with h | ⟨r, rest, hq, hb, ho, hr, hp, _, _⟩
  · have hi : d.headIs opcode addr payload = false := by unfold Dev.headIs; rw [h]
    rw [Dev.begin, h] at hy
    simp [hi, h, hy]
  · have hi : d.headIs opcode addr payload = true := by
      unfold Dev.headIs
      rw [hq]
      simp [hb, ho, hp, hr]
    rw [Dev.begin_of_queue hq] at hy
    simp [hi, hq, modifyNth, hy]

/-! ### What a register access sees of a device -/

namespace Dev.Twin

variable {d e : Dev}

theorem word_eq (h : d.Twin e) : e.word = d.word := funext h.word
theorem get (h : d.Twin e) : e.get = d.get := by funext f; unfold Dev.get; rw [h.word]
theorem on (h : d.Twin e) : e.on = d.on := by funext f; unfold Dev.on; rw [h.get]

theorem ns (h : d.Twin e) : e.ns = d.ns := by rw [h.rest]
theorem draws (h : d.Twin e) : e.draws = d.draws := by rw [h.rest]
theorem port (h : d.Twin e) : e.port = d.port := by rw [h.rest]
theorem front (h : d.Twin e) : e.front = d.front := by rw [h.rest]
theorem plan (h : d.Twin e) : e.plan = d.plan := by rw [h.rest]
theorem lens (h : d.Twin e) : e.lens = d.lens := by rw [h.rest]
theorem sync (h : d.Twin e) : e.sync = d.sync := by rw [h.rest]
theorem nvm (h : d.Twin e) : e.nvm = d.nvm := by rw [h.rest]
theorem sup (h : d.Twin e) : e.sup = d.sup := by rw [h.rest]
theorem slotOp (h : d.Twin e) : e.ctl.slotOp = d.ctl.slotOp := by rw [h.rest]

/-! Reading -/

theorem up (h : d.Twin e) : e.up = d.up := by funext l; unfold Dev.up; rw [h.on]
theorem linkUp (h : d.Twin e) : e.linkUp = d.linkUp := by funext l; unfold Dev.linkUp; rw [h.on]

theorem regionCycles (h : d.Twin e) : e.regionCycles = d.regionCycles := by
  funext r
  unfold Dev.regionCycles Dev.regionRun Dev.regionMhz Dev.regionStopped Dev.clockNs
  rw [h.on, h.get, h.ns, h.sup]

theorem idleCycles (h : d.Twin e) : e.idleCycles = d.idleCycles := by
  funext u n
  unfold Dev.idleCycles Dev.unitBusy Dev.openCycles Dev.settledTo
  rw [h.regionCycles, h.lens]

theorem engineIdleCycles (h : d.Twin e) : e.engineIdleCycles = d.engineIdleCycles := by
  funext x
  unfold Dev.engineIdleCycles Dev.atStage
  rw [h.regionCycles, h.lens, h.get, h.word_eq]

theorem counterWord (h : d.Twin e) : e.counterWord = d.counterWord := by
  funext a
  unfold Dev.counterWord
  rw [h.idleCycles, h.engineIdleCycles, h.word_eq]

theorem physCtr (h : d.Twin e) : e.physCtr = d.physCtr := by
  funext c v
  unfold Dev.physCtr
  rw [h.on, h.get]

theorem ctrWord (h : d.Twin e) : e.ctrWord = d.ctrWord := by
  funext c v
  unfold Dev.ctrWord Dev.waitsOn Dev.ctr
  rw [h.physCtr, h.sync]

theorem liveWord (h : d.Twin e) : e.liveWord = d.liveWord := by
  funext a
  unfold Dev.liveWord Dev.endorseWord Dev.inlineBytes Dev.frozenWord Dev.subPorts
  rw [h.selections, h.ctrWord, h.word_eq, h.get, h.up, h.linkUp, h.nvm, h.ns, h.front, h.port, h.sup, h.draws]

theorem readWord (h : d.Twin e) : e.readWord = d.readWord := by
  funext a
  unfold Dev.readWord
  rw [h.counterWord, h.liveWord]

theorem blockBad (h : d.Twin e) : e.blockBad = d.blockBad := by
  funext a x
  unfold Dev.blockBad
  rw [h.readWord]

/-! Writing -/

theorem faulted (h : d.Twin e) : e.faulted = d.faulted := by
  funext c
  unfold Dev.faulted
  rw [h.get]

theorem inRange (h : d.Twin e) : e.inRange = d.inRange := by
  funext base a i n
  unfold Dev.inRange Dev.queueCap
  rw [h.get]

theorem restartWrite_status (d : Dev) (c v : Nat) :
    (d.restartWrite c v).2 = if v % 2 = 0 then St.ok else if d.get (R.SYN_CTX_STAT_STATE c) = 2 then St.ok else St.busy := by
  unfold Dev.restartWrite
  rw [apply_ite Prod.snd, apply_ite Prod.snd]

theorem writeCtr_status (d : Dev) (c v n : Nat) :
    (d.writeCtr c v n).2 = if !(d.faulted c || d.on (R.SYN_CTX_STAT_STEPPING c)) then St.access else St.ok := by
  unfold Dev.writeCtr Dev.stepping
  split
  · rfl
  · split <;> rfl

theorem timeSet_status (d : Dev) (v : Nat) : (d.timeSet v).2 = if d.plan.firstTick.isSome then St.busy else St.ok := by
  unfold Dev.timeSet
  rw [apply_ite Prod.snd]

theorem ruleStatus (h : d.Twin e) : e.ruleStatus = d.ruleStatus := by
  funext base a v
  unfold Dev.ruleStatus Dev.slotCtlStatus Dev.slotWinStatus Dev.otherSlot
  simp only [restartWrite_status, writeCtr_status, timeSet_status]
  rw [h.faulted, h.on, h.get, h.plan, h.slotOp, h.nvm]

/-- A write is taken or refused alike by two devices that a register access cannot tell apart. -/
theorem writeStatus (h : d.Twin e) : e.writeStatus = d.writeStatus := by
  funext a v
  unfold Dev.writeStatus
  rw [h.word_eq, h.inRange, h.ruleStatus]

end Dev.Twin

/-! ### A register access and its answer -/

theorem Part.Same.trans {d y e : Dev} {p : Part} (h : p.Same d y) (h' : p.Same y e) : p.Same d e := by
  cases p with
  | time => exact ⟨h'.1.trans h.1, h'.2.trans h.2⟩
  | port | front | plan | lens | seq | sync | fab | lpe | ctl | jrn | nvm | life | sec | sup => exact Eq.trans h' h

theorem Dev.KeepsParts.trans {d y e : Dev} {ps : List Part} (h : d.KeepsParts y ps) (h' : y.KeepsParts e ps) : d.KeepsParts e ps :=
  fun p hp => (h p hp).trans (h' p hp)

theorem Dev.KeepsParts.mono {d e : Dev} {ps qs : List Part} (h : d.KeepsParts e ps) (hs : ∀ p ∈ ps, p ∈ qs) : d.KeepsParts e qs :=
  fun p hp => h p fun hq => hp (hs p hq)

/-- `y` has come from `d` by a request begun and register words written; the draws of free values are no part of the device. -/
def Dev.Accesses (d y : Dev) : Prop := y = { d with regs := y.regs, draws := y.draws, ctl := d.begin.ctl }

namespace Dev.Accesses

variable {d y : Dev}

theorem begin (d : Dev) : d.Accesses d.begin := by
  unfold Dev.Accesses Dev.begin
  split <;> rfl

theorem setWord (h : d.Accesses y) (a v : Nat) : d.Accesses (y.setWord a v) := by
  unfold Dev.Accesses at *
  rw [h]
  rfl

theorem put (h : d.Accesses y) (f : Fld) (v : Nat) : d.Accesses (y.put f v) := h.setWord _ _

theorem draw (h : d.Accesses y) : d.Accesses y.draw.2 := by
  unfold Dev.Accesses at *
  rw [h]
  rfl

theorem ctl (h : d.Accesses y) : y.ctl = d.begin.ctl := by rw [h]
theorem fab (h : d.Accesses y) : y.fab = d.fab := by rw [h]
theorem nvm (h : d.Accesses y) : y.nvm = d.nvm := by rw [h]
theorem port (h : d.Accesses y) : y.port = d.port := by rw [h]

theorem keepsParts (h : d.Accesses y) : d.KeepsParts y [.ctl] := by
  rw [h]
  intro p hp
  cases p with
  | ctl => exact absurd hp (by simp)
  | time => exact ⟨rfl, rfl⟩
  | port | front | plan | lens | seq | sync | fab | lpe | jrn | nvm | life | sec | sup => rfl

end Dev.Accesses

theorem Dev.ctl_mem_answerParts (d : Dev) : .ctl ∈ d.answerParts := by
  unfold Dev.answerParts
  split <;> simp

theorem Dev.life_not_mem_answerParts (d : Dev) : .life ∉ d.answerParts := by
  unfold Dev.answerParts
  split <;> simp

theorem Dev.sup_not_mem_answerParts (d : Dev) : .sup ∉ d.answerParts := by
  unfold Dev.answerParts
  split <;> simp

/-- A request of `d` has been executed and answered, with which the device is `e`: it has moved the words of `but` and, of the flash,
what `moved` forgets. -/
structure Dev.Executes (d e : Dev) (status : Nat) (payload : List Byte) (but : List Nat) : Prop where
  answered : d.Answered e status payload
  words : d.KeepsWords e (but ++ d.answerWords)
  parts : d.KeepsParts e d.answerParts
  memory : d.KeepsMemory e
  apart : e.nvm.apart = d.nvm.apart

theorem Dev.Executes.life {d e : Dev} {status : Nat} {payload : List Byte} {but : List Nat} (h : d.Executes e status payload but) :
    e.life = d.life := h.parts .life d.life_not_mem_answerParts

theorem Dev.Executes.onlyAnswer {d e : Dev} {status : Nat} {payload : List Byte} (h : d.Executes e status payload []) :
    d.OnlyAnswer e status payload := ⟨h.answered, h.words, h.parts, h.memory, h.apart⟩

theorem Dev.Twin.keepsWords {d e : Dev} (h : d.Twin e) (but : List Nat) : d.KeepsWords e but := fun w _ => h.word w

/-- A register access that has moved the words of `but`, answered. -/
theorem Dev.Turn.executes {d y : Dev} {opcode addr : Nat} {payload : List Byte} {but : List Nat} (h : d.Turn opcode addr payload)
    (hop : opcode ≠ 0x10) (hy : d.Accesses y) (hw : d.KeepsWords y but) (a : Answer) :
    d.Executes (d.conclude y opcode a) a.status a.payload but := by
  have hs := h.settles hop hy.ctl a
  have hp : d.KeepsParts y d.answerParts := hy.keepsParts.mono (by simp [d.ctl_mem_answerParts])
  refine ⟨hs.answered, fun w hn => ?_, hp.trans hs.parts, Dev.keepsMemory_of (hs.fab.trans hy.fab), hs.apart.trans (hy.nvm ▸ rfl)⟩
  rw [List.mem_append, not_or] at hn
  exact (hs.words w hn.2).trans (hw w hn.1)

/-- A command of the management processors that executes a request. -/
theorem Completes.ofExecutes {c : Instr} {s : State} {f : Dev → Dev} {post : Dev → Prop} (hr : s.RunsIn 21)
    (hc : exec c s = s.clocked (·.regionStopped 21) f) (hl : (f s.dev).life = s.dev.life) (hp : post (f s.dev)) : Completes c s post := by
  have hf : (f s.dev).withLife s.dev.life = f s.dev := by rw [← hl]; rfl
  exact ⟨_, hc.trans (State.clocked_runs f hr.1 hr.2), rfl, by rw [hf]; exact hp⟩

/-! ### Numbers as bytes -/

theorem leNat_leBytes (k n : Nat) : leNat (leBytes k n) = n % 256 ^ k := by
  induction k generalizing n with
  | zero => simp [leBytes, leNat, Nat.mod_one]
  | succ k ih =>
    rw [leBytes, leNat, ih, pow_succ, mul_comm (256 ^ k), Nat.mod_mul]
    simp

theorem beNat_append (xs : List Byte) (b : Byte) : beNat (xs ++ [b]) = 256 * beNat xs + b.toNat := by
  simp [beNat]

theorem beNat_reverse (bs : List Byte) : beNat bs.reverse = leNat bs := by
  induction bs with
  | nil => rfl
  | cons b bs ih => rw [List.reverse_cons, beNat_append, ih, leNat, add_comm]

theorem beNat_beBytes (k n : Nat) : beNat (beBytes k n) = n % 256 ^ k := by
  rw [beBytes, beNat_reverse, leNat_leBytes]

@[simp] theorem length_beBytes (k n : Nat) : (beBytes k n).length = k := by simp [beBytes, leBytes_length]

/-! ### Writes (O18) -/

/-- What a write that its register takes does, where the register has no further effect: the word becomes the merge (Table 0.4). -/
theorem Dev.writeDo_of_plain {d : Dev} {a v : Nat} {r : RegDesc} {i : Nat} (hl : RegMap.lookup RegMap.regs a = some (r, i))
    (hb : ∀ e : Dev, e.written r.base a v = e) :
    d.writeDo a v = if r.merge i (d.word a) v = d.word a then d else d.setWord a (r.merge i (d.word a) v) := by
  unfold Dev.writeDo
  rw [hl]
  exact hb _

theorem Dev.word_writeDo_of_plain {d : Dev} {a v : Nat} {r : RegDesc} {i : Nat} (hl : RegMap.lookup RegMap.regs a = some (r, i))
    (hb : ∀ e : Dev, e.written r.base a v = e) : (d.writeDo a v).word a = r.merge i (d.word a) v % 2 ^ 64 := by
  rw [Dev.writeDo_of_plain hl hb]
  split
  · rename_i h
    rw [h, Nat.mod_eq_of_lt (d.word_lt a)]
  · exact d.word_setWord_same a _

theorem Dev.keepsWords_writeDo_of_plain {d : Dev} {a v : Nat} {r : RegDesc} {i : Nat} (hl : RegMap.lookup RegMap.regs a = some (r, i))
    (hb : ∀ e : Dev, e.written r.base a v = e) : d.KeepsWords (d.writeDo a v) [a] := by
  intro w hw
  rw [Dev.writeDo_of_plain hl hb]
  split
  · rfl
  · exact d.word_setWord_other _ (by simpa using hw)

theorem Dev.Accesses.writeDo_of_plain {d y : Dev} (h : d.Accesses y) {a v : Nat} {r : RegDesc} {i : Nat}
    (hl : RegMap.lookup RegMap.regs a = some (r, i)) (hb : ∀ e : Dev, e.written r.base a v = e) : d.Accesses (y.writeDo a v) := by
  rw [Dev.writeDo_of_plain hl hb]
  split
  · exact h
  · exact h.setWord _ _

theorem Dev.writeDo_of_no_register {d : Dev} {a v : Nat} (hl : RegMap.lookup RegMap.regs a = none) : d.writeDo a v = d := by
  unfold Dev.writeDo
  rw [hl]

/-- A WRITE whose turn it is, in a life-cycle state that accepts it. -/
theorem Dev.Turn.writeRequest_eq {d : Dev} {a : Nat} {v : Word} (h : d.Turn 0x02 a (beBytes 8 v.toNat))
    (hs : d.get R.LCS_STAT_STATE < 4) : ∃ detail, d.writeRequest a v.toNat =
      d.conclude (if d.writeStatus a v.toNat = St.ok then d.begin.writeDo a v.toNat else d.begin) 0x02
        { status := d.writeStatus a v.toNat, detail := detail } := by
  have hv : beNat (beBytes 8 v.toNat) = v.toNat := by
    rw [beNat_beBytes]
    exact Nat.mod_eq_of_lt v.isLt
  have hacc : opcodeAccepted 0x02 (d.begin.get R.LCS_STAT_STATE) = true := by
    rw [h.twin.get]
    simp [opcodeAccepted, hs]
  refine ⟨some (leBytes 8 ((d.begin.readWord a).getD 0) ++ leBytes 8 (((if d.writeStatus a v.toNat = St.ok then
    d.begin.writeDo a v.toNat else d.begin).readWord a).getD 0)), h.requestBy_eq (by decide) (fun r ha hp => by simp [ha, hp]) ?_⟩
  simp only [Dev.ifAccepted, hacc, if_true, Dev.writeOp, length_beBytes, Dev.hostWrite, hv, h.twin.writeStatus]
  rfl

/-- A WRITE whose turn it is, in a life-cycle state that does not accept it. -/
theorem Dev.Turn.writeRequest_refused {d : Dev} {a : Nat} {v : Word} (h : d.Turn 0x02 a (beBytes 8 v.toNat))
    (hs : 4 ≤ d.get R.LCS_STAT_STATE) : d.writeRequest a v.toNat = d.conclude d.begin 0x02 { status := St.lifecycle } := by
  have hacc : opcodeAccepted 0x02 (d.begin.get R.LCS_STAT_STATE) = false := by
    rw [h.twin.get]
    simp [opcodeAccepted, hs]
  refine h.requestBy_eq (by decide) (fun r ha hp => by simp [ha, hp]) ?_
  simp [Dev.ifAccepted, hacc, Dev.countRefused]

/-- The registers whose writes do more than store their fields. -/
theorem Dev.written_eq_self (d : Dev) {base a v : Nat} (h : base ∉ [RegMap.dPORT_CFG.base, RegMap.dPORT_SUBPORT_CFG.base,
    RegMap.dPORT_INLINE_BUF.base, RegMap.dTKP_TICK_CFG.base, RegMap.dAPR_CFG.base, RegMap.dSYN_CTX_CTL.base, RegMap.dSYN_CTR.base,
    RegMap.dQUE_STAT.base, RegMap.dQUE_CTL.base, RegMap.dLPE_CFG.base, RegMap.dLPE_TIME_SET.base, RegMap.dLPE_TIME_CFG.base,
    RegMap.dCLK_OUT_CFG.base, RegMap.dCFG_BOOT.base, RegMap.dCFG_CTL_CFG.base, RegMap.dCFG_SLOT_CTL.base, RegMap.dCFG_SLOT_WIN.base]) :
    d.written base a v = d := by
  simp only [List.mem_cons, List.not_mem_nil, or_false, not_or] at h
  unfold Dev.written
  simp only [h, if_false]

theorem Dev.writeStatus_of_bad_address {d : Dev} {a v : Nat} (h : a % 8 ≠ 0 ∨ 0x10 < a / 2 ^ 32) : d.writeStatus a v = St.badAddress := by
  unfold Dev.writeStatus
  exact if_pos (by simpa using h)

/-- Settles O18: the request's execution and its answer, by `Dev.Turn.executes`. -/
theorem writeTakesOrRefuses : Obligations.WriteTakesOrRefuses := by
  intro s a v hr ht c hc
  have hex : exec c s = s.clocked (·.regionStopped 21) fun d => d.writeRequest a v.toNat := by
    simp only [List.mem_cons, List.not_mem_nil, or_false] at hc
    rcases hc with rfl | rfl <;> rfl
  have refused {st : Nat} {x : Option (List Byte)}
      (h : s.dev.writeRequest a v.toNat = s.dev.conclude s.dev.begin 0x02 { status := st, detail := x }) :
      Completes c s fun d => s.dev.OnlyAnswer d st [] := by
    have he := ht.executes (by decide) (.begin _) (ht.twin.keepsWords []) { status := st, detail := x }
    rw [← h] at he
    exact .ofExecutes hr hex he.life he.onlyAnswer
  refine ⟨fun hs r i hok hl hna hb => ?_, fun hs hok hl => ?_, fun hs hno => ?_, Dev.writeStatus_of_bad_address, fun hs => ?_⟩
  · obtain ⟨x, hx⟩ := ht.writeRequest_eq hs
    rw [if_pos hok] at hx
    have hp (e : Dev) : e.written r.base a v.toNat = e := e.written_eq_self hb
    have hw : s.dev.KeepsWords (s.dev.begin.writeDo a v.toNat) [a] := fun w hw =>
      (Dev.keepsWords_writeDo_of_plain hl hp w hw).trans (ht.twin.word w)
    have hst := ht.settles (by decide) ((Dev.Accesses.begin _).writeDo_of_plain hl hp).ctl ⟨s.dev.writeStatus a v.toNat, [], x, 1⟩
    have he := ht.executes (by decide) ((Dev.Accesses.begin _).writeDo_of_plain hl hp) hw ⟨s.dev.writeStatus a v.toNat, [], x, 1⟩
    rw [← hx] at he hst
    refine .ofExecutes hr hex he.life ⟨?_, hok ▸ he.answered, he.words, he.parts, he.memory⟩
    rw [hst.words a hna, Dev.word_writeDo_of_plain hl hp, ht.twin.word]
  · obtain ⟨x, hx⟩ := ht.writeRequest_eq hs
    rw [if_pos hok, Dev.writeDo_of_no_register hl, hok] at hx
    exact refused hx
  · obtain ⟨x, hx⟩ := ht.writeRequest_eq hs
    rw [if_neg hno] at hx
    exact refused hx
  · exact refused (ht.writeRequest_refused hs)

end Sys2Proof.Machine
end

section
/-! What an answer does to the open journal batch, what closes before a reset, what a reset leaves; RESET (O25). -/

namespace Sys2Proof.Machine

/-! ### The open batch and the number of the last one closed (R581 to R584) -/

/-- The entries of the open batch, and the number of the batch closed last. -/
def Dev.batch (d : Dev) : List (List Byte) × Nat := (d.jrn.entries, d.nvm.lastBatch)

namespace Dev

@[simp] theorem put_batch (d : Dev) (f : Fld) (v : Nat) : (d.put f v).batch = d.batch := rfl

@[simp] theorem bump_batch (d : Dev) (a n : Nat) : (d.bump a n).batch = d.batch := by simp [batch]

@[simp] theorem modSub_batch (d : Dev) (sp : Nat) (f : SubPort → SubPort) : (d.modSub sp f).batch = d.batch := rfl

@[simp] theorem modKey_batch (d : Dev) (k : Nat) (f : KeyState → KeyState) : (d.modKey k f).batch = d.batch := rfl

@[simp] theorem send_batch (d : Dev) (sp : Nat) (f : List Byte) : (d.send sp f).batch = d.batch := by
  unfold send
  split
  · simp [batch]
  · rfl

@[simp] theorem ownLeaves_batch (d : Dev) (sp : Nat) (f : OwnFrame) : (Dev.ownLeaves sp d f).batch = d.batch := by
  unfold ownLeaves
  cases f.kind with
  | plain | journalExport | loupeExport => simp
  | delayReq q => exact send_batch _ _ _

@[simp] theorem sendOwn_batch (d : Dev) (sp : Nat) (f : OwnFrame) : (d.sendOwn sp f).batch = d.batch := by
  have hd (e : Dev) : (e.drainOwn sp).batch = e.batch := by
    unfold drainOwn
    split
    · rfl
    · exact each_keeps batch _ _ _ fun e x => e.ownLeaves_batch sp x
  unfold sendOwn
  split
  · rw [hd, modSub_batch]
  · rfl

theorem sign_batch {d : Dev} {k : Nat} {digest : List Byte} {r : List Byte × Dev} (h : d.sign k digest = some r) :
    r.2.batch = d.batch := by
  unfold sign at h
  extract_lets next top top1 e2 sig e3 at h
  split at h
  · cases h
  · have h2 : e2.batch = d.batch := by
      unfold e2
      split
      · rfl
      · rw [modKey_batch, put_batch]
    rw [← Option.some.inj h, bump_batch, put_batch, modKey_batch, h2]

theorem journalSend_batch (d : Dev) (sp k : Nat) : (Dev.journalSend sp k d).batch = d.batch := by
  induction k generalizing d with
  | zero => rfl
  | succ k ih =>
    unfold journalSend
    extract_lets at_ bs frame e
    split
    · rfl
    · exact (ih _).trans (d.frameUse sp (frame.length + 4) |>.sendOwn_batch sp ⟨frame, .journalExport⟩)

@[simp] theorem journalExport_batch (d : Dev) : d.journalExport.batch = d.batch := by
  unfold journalExport
  extract_lets head oldest sp at_ e at1 jrn
  have he : e.batch = d.batch := d.bump_batch _ _
  split
  · exact he
  · split
    · exact (journalSend_batch _ _ _).trans he
    · exact he

/-- A batch with entries closes under the next number. -/
theorem closeBatch_batch {d : Dev} (h : d.jrn.entries ≠ []) (cause : Nat) : (d.closeBatch cause).batch = ([], d.nvm.lastBatch + 1) := by
  unfold closeBatch
  split
  · contradiction
  · extract_lets entries seq root hdr
    split
    extract_lets body bytes head kept ring oldest jrn nvm e2 e3 e4
    have h2 : e2.batch = ([], d.nvm.lastBatch + 1) := rfl
    have h4 : e4.batch = e3.batch := each_keeps batch _ _ _ fun _ _ => put_batch _ _ _
    have h3 : e3.batch = e2.batch := (put_batch _ _ _).trans ((put_batch _ _ _).trans (put_batch _ _ _))
    exact (journalExport_batch _).trans ((bump_batch _ _ _).trans (h4.trans (h3.trans h2)))

theorem closeBatch_of_empty {d : Dev} (h : d.jrn.entries = []) (cause : Nat) : d.closeBatch cause = d := by
  unfold closeBatch
  rw [h]

/-- From `d` to `e` one entry has been staged: it stands in the open batch, or has closed it. -/
def Staged (d e : Dev) : Prop :=
  (e.jrn.entries ≠ [] ∧ e.nvm.lastBatch = d.nvm.lastBatch) ∨ e.batch = ([], d.nvm.lastBatch + 1)

theorem journal_staged (d : Dev) (x : JEntry) : d.Staged (d.journal x) := by
  unfold journal
  extract_lets n bytes first jrn nvm e1 e2
  have h1 : e1.batch = (d.jrn.entries ++ [bytes], d.nvm.lastBatch) := rfl
  have he : e2.batch = (d.jrn.entries ++ [bytes], d.nvm.lastBatch) := (bump_batch _ _ _).trans ((put_batch _ _ _).trans h1)
  obtain ⟨hes, hl⟩ := Prod.mk.inj he
  have hne : e2.jrn.entries ≠ [] := by simp [hes]
  split
  · exact .inr (hl ▸ closeBatch_batch hne _)
  · exact .inl ⟨hne, hl⟩

/-- The reply to a RESET stages an entry. -/
theorem reply_staged {d : Dev} {r : Req} (h : r.opcode = 0x7F) (a : Answer) : d.Staged (d.reply r a) := by
  unfold reply
  extract_lets e1 e2 e3 x
  have h1 : e1.batch = d.batch := d.sendOwn_batch _ _
  have h2 : e2.batch = d.batch := by
    unfold e2
    split
    · rw [bump_batch, h1]
    · rw [bump_batch, h1]
  have h3 : e3.batch = d.batch := by
    unfold e3
    split
    · exact (bump_batch _ _ _).trans h2
    · exact h2
  have hl : e3.nvm.lastBatch = d.nvm.lastBatch := congrArg Prod.snd h3
  rw [if_pos (by simp [h, opcodeChanging]), Staged, ← hl]
  exact e3.journal_staged _

/-- The answer to a RESET that was queued stages an entry. -/
theorem Turn.conclude_staged {d : Dev} {payload : List Byte} (h : d.Turn 0x7F 0 payload) (a : Answer) (hq : d.ctl.queue ≠ []) :
    d.Staged (d.conclude d.begin 0x7F a) := by
  obtain ⟨r, rest, hr, _, ho, _⟩ := h.resolve_left hq
  unfold conclude
  rw [if_neg hq, noteAnswer_eq _ (by decide), begin_of_queue hr]
  obtain ⟨z, hz⟩ : ∃ z : Dev, z = { d.setQueue ({ r with begun := true } :: rest) with
    ctl := { (d.setQueue ({ r with begun := true } :: rest)).ctl with last := (a.status, a.payload) } } := ⟨_, rfl⟩
  have hzq : z.ctl.queue = { r with begun := true } :: rest := by rw [hz, setQueue, put_ctl]
  have hzl : z.nvm.lastBatch = d.nvm.lastBatch := by rw [hz, setQueue, put_nvm]
  have hs : z.Staged (z.reply { r with begun := true } a) := reply_staged ho a
  rw [← hz, finishHead_of_queue hzq, setQueue]
  unfold Staged at *
  rw [← hzl, put_batch, put_jrn, put_nvm]
  exact hs

theorem conclude_batch {d : Dev} (hq : d.ctl.queue = []) (a : Answer) : (d.conclude d.begin 0x7F a).batch = d.batch := by
  unfold conclude begin
  rw [if_pos hq, noteAnswer_eq _ (by decide), hq]
  rfl

/-! ### What closes before a reset (R580, R595) -/

theorem dropBackground_staged (d : Dev) : d.dropBackground = d ∨ d.Staged d.dropBackground := by
  unfold dropBackground
  split
  · exact .inl rfl
  · exact .inr (d.journal_staged _)

theorem Staged.closeBatch {d e : Dev} (h : d.Staged e) (cause : Nat) : (e.closeBatch cause).nvm.lastBatch = d.nvm.lastBatch + 1 := by
  rcases h with ⟨hne, hl⟩ | hb
  · exact (congrArg Prod.snd (closeBatch_batch hne cause)).trans (by rw [hl])
  · rw [closeBatch_of_empty (congrArg Prod.fst hb)]
    exact congrArg Prod.snd hb

@[simp] theorem recordIndices_lastBatch (d : Dev) : d.recordIndices.nvm.lastBatch = d.nvm.lastBatch :=
  each_keeps (fun d => d.nvm.lastBatch) _ _ _ fun _ _ => rfl

/-- The open batch closes before a reset. -/
theorem closeForReset_of_open {d : Dev} (h : d.jrn.entries ≠ []) : d.closeForReset.nvm.lastBatch = d.nvm.lastBatch + 1 := by
  unfold closeForReset
  rw [recordIndices_lastBatch]
  rcases d.dropBackground_staged with hd | hd
  · rw [hd]
    exact congrArg Prod.snd (closeBatch_batch h 0)
  · exact hd.closeBatch 0

theorem le_closeForReset (d : Dev) : d.nvm.lastBatch ≤ d.closeForReset.nvm.lastBatch := by
  by_cases h : d.jrn.entries = []
  · unfold closeForReset
    rw [recordIndices_lastBatch]
    rcases d.dropBackground_staged with hd | hd
    · rw [hd, closeBatch_of_empty h]
    · rw [hd.closeBatch]
      omega
  · rw [closeForReset_of_open h]
    omega

theorem Staged.closeForReset {d e : Dev} (h : d.Staged e) : d.nvm.lastBatch < e.closeForReset.nvm.lastBatch := by
  rcases h with ⟨hne, hl⟩ | hb
  · rw [closeForReset_of_open hne, hl]
    omega
  · have hl : e.nvm.lastBatch = d.nvm.lastBatch + 1 := congrArg Prod.snd hb
    have := e.le_closeForReset
    omega

/-- The exact next index of each of the three keys is recorded. -/
theorem recordIndices_exact {d : Dev} (h : d.nvm.keys.length = 3) : ∀ k ∈ d.recordIndices.nvm.keys, k.exact_.isSome = true := by
  obtain ⟨a, b, c, hk⟩ := List.length_eq_three.1 h
  simp [recordIndices, each, modKey, modifyNth, hk]

theorem AnswerFrame.closeBatch_dropBackground (d : Dev) : d.AnswerFrame (d.dropBackground.closeBatch 0) := by
  refine AnswerFrame.closeBatch ?_
  unfold dropBackground
  split
  · exact .refl d
  · exact (AnswerFrame.refl d).journal

theorem closeForReset_sansAnswer (d : Dev) : d.closeForReset.sansAnswer = d.sansAnswer := by
  have hr (e : Dev) : e.recordIndices.sansAnswer = e.sansAnswer := each_keeps sansAnswer _ _ _ fun _ _ => rfl
  exact (hr _).trans (AnswerFrame.closeBatch_dropBackground d).rest

theorem closeForReset_exact {d : Dev} (h : d.nvm.keys.length = 3) : ∀ k ∈ d.closeForReset.nvm.keys, k.exact_.isSome = true :=
  recordIndices_exact ((AnswerFrame.closeBatch_dropBackground d).keys.trans h)

/-! ### The device after a reset -/

theorem finishCopy_eq (d : Dev) : ∃ bs, d.finishCopy = { d with nvm := { d.nvm with standing := bs } } := by
  unfold finishCopy
  split
  · exact ⟨_, rfl⟩
  · exact ⟨d.nvm.standing, rfl⟩

/-- A device wiped by a reset, before its input's row shows. -/
def wiped (d : Dev) (cause : Nat) : Dev :=
  { Dev.reset with
    draws := d.draws, nvm := d.nvm, life := d.life, port := { Port.reset with sent := d.port.sent },
    sup := { d.sup with phase := if d.sup.resetLow then .held else .starting, cause := cause, startMs := 0, ppsIn := none,
                        barrierLow := true, ppsTakes := false, skewNs := 0, meters := [], unlocked := [],
                        heldTiers := if cause = 2 || cause = 3 then d.sup.heldTiers else [] } }

theorem b2n_lt_two (b : Bool) : b2n b < 2 := by cases b <;> decide

theorem put_parts (d : Dev) (f : Fld) (v : Nat) : ∃ ws, d.put f v = { d with regs := ws } := ⟨_, rfl⟩

/-- After a reset the device is wiped but for the flash, whose standing copy may have been completed, and the flags of the input's row. -/
theorem afterReset_eq (d : Dev) (cause : Nat) : ∃ ws bs,
    d.afterReset cause = { ({ d with nvm := { d.nvm with standing := bs } } : Dev).wiped cause with regs := ws } := by
  obtain ⟨bs, hb⟩ := d.finishCopy_eq
  unfold afterReset
  rw [hb]
  obtain ⟨vs, hv⟩ := put_parts (({ d with nvm := { d.nvm with standing := bs } } : Dev).wiped cause) R.PWR_STAT_VIN_HIGH
    (b2n (d.sup.vinRow = 1))
  obtain ⟨ws, hw⟩ := put_parts { ({ d with nvm := { d.nvm with standing := bs } } : Dev).wiped cause with regs := vs }
    R.PWR_STAT_VIN_LOW (b2n (d.sup.vinRow = 3))
  exact ⟨ws, bs, (congrArg (fun e : Dev => e.put R.PWR_STAT_VIN_LOW (b2n (d.sup.vinRow = 3))) hv).trans hw⟩

theorem finishCopy_sup (d : Dev) : d.finishCopy.sup = d.sup := by
  obtain ⟨bs, hb⟩ := d.finishCopy_eq
  rw [hb]

/-- No register word but the one of the input's flags differs from the reset's. -/
theorem word_afterReset (d : Dev) (cause : Nat) {a : Nat} (h : a ≠ R.PWR_STAT_VIN_LOW.addr) :
    (d.afterReset cause).word a = Dev.reset.word a := by
  unfold afterReset
  exact (word_put_other _ _ _ h).trans (word_put_other _ R.PWR_STAT_VIN_HIGH _ h)

theorem vinHigh_afterReset (d : Dev) (cause : Nat) : (d.afterReset cause).get R.PWR_STAT_VIN_HIGH = b2n (d.sup.vinRow = 1) := by
  unfold afterReset
  rw [get_put_apart _ _ _ _ (by decide) (by decide), get_put_same _ _ _ (by decide), finishCopy_sup]
  exact Nat.mod_eq_of_lt (b2n_lt_two _)

theorem vinLow_afterReset (d : Dev) (cause : Nat) : (d.afterReset cause).get R.PWR_STAT_VIN_LOW = b2n (d.sup.vinRow = 3) := by
  unfold afterReset
  rw [get_put_same _ _ _ (by decide), finishCopy_sup]
  exact Nat.mod_eq_of_lt (b2n_lt_two _)

end Dev

/-! ### RESET (O25) -/

theorem resetAnswer_of_good {payload : List Byte} (h : payload.length = 16 ∧ beAt payload 0 1 ≤ 2 ∧ ∀ b ∈ payload.drop 1, b = 0) :
    resetAnswer payload = { status := St.ok } := by
  obtain ⟨hl, hs, hz⟩ := h
  unfold resetAnswer
  exact if_neg (by simpa [hl, hs] using hz)

theorem resetAnswer_of_bad {payload : List Byte} (h : ¬(payload.length = 16 ∧ beAt payload 0 1 ≤ 2 ∧ ∀ b ∈ payload.drop 1, b = 0)) :
    resetAnswer payload = { status := St.malformed } := by
  unfold resetAnswer
  refine if_pos ?_
  by_contra hn
  refine h ?_
  simpa [and_assoc] using hn

theorem Dev.Turn.resetOp_eq {d : Dev} {payload : List Byte} (h : d.Turn 0x7F 0 payload) :
    d.resetOp payload =
      if (resetAnswer payload).status = St.ok then
        ({ (d.conclude d.begin 0x7F (resetAnswer payload)).closeForReset with
          sup := { (d.conclude d.begin 0x7F (resetAnswer payload)).closeForReset.sup with nextSlot := beAt payload 0 1 } } : Dev).afterReset 3
      else d.conclude d.begin 0x7F (resetAnswer payload) := by
  have ht : (d.headIs 0x7F 0 payload || d.ctl.queue.isEmpty) = true := by
    rcases h with h | ⟨r, rest, hq, hb, ho, _, hp, _⟩
    · simp [h]
    · unfold Dev.headIs
      rw [hq]
      simp [hb, ho, hp]
  unfold Dev.resetOp
  simp only [ht, Bool.true_and, decide_eq_true_eq, h.request_eq (run := fun d => (d, some (resetAnswer payload))) rfl]

/-- What holds of the device `c` to which an accepted RESET of `d` has led before it resets. -/
structure Dev.ClosedFrom (d c : Dev) : Prop where
  sup : c.sup = d.sup
  life : c.life = d.life
  apart : c.nvm.apart = d.nvm.apart
  /-- The exact next index of each key is recorded (R595). -/
  exact : d.nvm.keys.length = 3 → ∀ k ∈ c.nvm.keys, k.exact_.isSome = true
  /-- The batch that a queued request's own entry stands in has closed. -/
  queued : d.ctl.queue ≠ [] → d.nvm.lastBatch < c.nvm.lastBatch
  /-- With none queued the open batch is the one that has closed. -/
  unqueued : d.ctl.queue = [] → d.jrn.entries ≠ [] → c.nvm.lastBatch = d.nvm.lastBatch + 1

theorem Dev.Turn.closedFrom {d : Dev} {payload : List Byte} (h : d.Turn 0x7F 0 payload) (a : Answer) :
    d.ClosedFrom (d.conclude d.begin 0x7F a).closeForReset := by
  have hx := h.executes (by decide) (.begin _) (h.twin.keepsWords []) a
  have hkeys := (h.settles (by decide) (Dev.Accesses.begin _).ctl a).keys.trans (congrArg (·.keys.length) h.twin.nvm)
  have hsame := (d.conclude d.begin 0x7F a).closeForReset_sansAnswer
  refine ⟨(congrArg Dev.sup hsame :).trans (hx.parts .sup d.sup_not_mem_answerParts), (congrArg Dev.life hsame :).trans hx.life,
    (Dev.apart_of_sansAnswer hsame).trans hx.apart, fun h3 => Dev.closeForReset_exact (hkeys.trans h3),
    fun hq => (h.conclude_staged a hq).closeForReset, fun hq hne => ?_⟩
  obtain ⟨hes, hlast⟩ := Prod.mk.inj (Dev.conclude_batch hq a)
  rw [Dev.closeForReset_of_open (hes ▸ hne), hlast]

theorem exec_reset (s : State) (payload : List Byte) :
    exec (.reset payload) s = s.clocked (·.regionStopped 21) (·.resetOp payload) := rfl

theorem reset_malformed {s : State} {payload : List Byte} (hr : s.RunsIn 21) (h : s.dev.Turn 0x7F 0 payload)
    (hbad : ¬(payload.length = 16 ∧ beAt payload 0 1 ≤ 2 ∧ ∀ b ∈ payload.drop 1, b = 0)) :
    Completes (.reset payload) s fun d => s.dev.OnlyAnswer d St.malformed [] := by
  have hop := h.resetOp_eq
  have hx := h.executes (by decide) (.begin _) (h.twin.keepsWords []) (resetAnswer payload)
  rw [if_neg (by rw [resetAnswer_of_bad hbad]; decide)] at hop
  rw [← hop, resetAnswer_of_bad hbad] at hx
  exact .ofExecutes hr (exec_reset s payload) hx.life hx.onlyAnswer

/-- Settles O25: what has closed, by `Dev.Turn.closedFrom`, then what is wiped, by `Dev.afterReset_eq`. -/
theorem resetWipes : Obligations.ResetWipes := by
  intro s payload hr ht
  refine ⟨fun hl hs hz => ?_, reset_malformed hr ht⟩
  have hop := ht.resetOp_eq
  rw [if_pos (by rw [resetAnswer_of_good ⟨hl, hs, hz⟩])] at hop
  have hclosed := ht.closedFrom (resetAnswer payload)
  obtain ⟨c, hc⟩ : ∃ c, c = (s.dev.conclude s.dev.begin 0x7F (resetAnswer payload)).closeForReset := ⟨_, rfl⟩
  rw [← hc] at hop hclosed
  obtain ⟨x, hx⟩ : ∃ x : Dev, x = { c with sup := { c.sup with nextSlot := beAt payload 0 1 } } := ⟨_, rfl⟩
  obtain ⟨ws, bs, hreset⟩ := Dev.afterReset_eq x 3
  have hvin : x.sup.vinRow = s.dev.sup.vinRow := by rw [hx, ← hclosed.sup]
  rw [← hx] at hop
  refine .ofExecutes hr (exec_reset s payload) ?_ ?_
  · rw [hop, hreset, hx]
    exact hclosed.life
  rw [hop]
  refine ⟨fun a ha => x.word_afterReset 3 ha, hvin ▸ x.vinHigh_afterReset 3, hvin ▸ x.vinLow_afterReset 3, ?_⟩
  rw [hreset, hx, ← hclosed.sup, ← hclosed.life]
  refine ⟨rfl, rfl, rfl, rfl, rfl, rfl, rfl, rfl, rfl, rfl, rfl, rfl, rfl, rfl, rfl, rfl, rfl, rfl, fun hor => ?_,
    fun hne hq => hclosed.unqueued hq hne, hclosed.exact, congrArg (fun n : Nvm => { n with standing := [] }) hclosed.apart, rfl⟩
  by_cases hq : s.dev.ctl.queue = []
  · exact Nat.lt_of_lt_of_eq (Nat.lt_succ_self _) (hclosed.unqueued hq (hor.resolve_right (not_not.2 hq))).symm
  · exact hclosed.queued hq

end Sys2Proof.Machine
end

section
/-! The device's own frames as they leave, the reads and the blocks of registers (O22): which words a read restarts, how a payload spells
words, what the words of a block do one after the other. -/

namespace Sys2Proof.Machine

/-! ### The device's own frames (R64, R65) -/

theorem getD_modifyNth_same {α : Type} {xs : List α} {i : Nat} (h : i < xs.length) (f : α → α) (x : α) :
    (modifyNth i f xs).getD i x = f (xs.getD i x) := by
  induction xs generalizing i with
  | nil => exact absurd h (by simp)
  | cons y ys ih =>
    cases i with
    | zero => rfl
    | succ j => exact ih (Nat.lt_of_succ_lt_succ h)

namespace Dev

theorem ownQueue_modSub (d : Dev) {sp : Nat} (h : sp < d.port.subs.length) (f : SubPort → SubPort) :
    (d.modSub sp f).ownQueue sp = (f (d.port.subs.getD sp SubPort.empty)).own :=
  congrArg SubPort.own (getD_modifyNth_same h f _)

theorem up_bump (d : Dev) {sp a : Nat} (n : Nat) (h : sp < 8) (ha : a ∈ ownWords sp) : (d.bump a n).up sp = d.up sp := by
  have hne : (R.PORT_SUBPORT_STAT_LINK_UP sp).addr ≠ a := by
    simp only [ownWords, C.PORT_TX_FRAMES, C.PORT_TX_BYTES, C.JRN_EXPORT_FRAMES, C.LPE_EXPORT_FRAMES, if_pos h, List.mem_cons,
      List.not_mem_nil, or_false] at ha
    simp only [R.PORT_SUBPORT_STAT_LINK_UP, if_pos h]
    omega
  unfold up on get
  rw [word_bump_other _ _ hne]

theorem up_send (d : Dev) {sp : Nat} (h : sp < 8) (f : List Byte) : (d.send sp f).up sp = d.up sp := by
  unfold send
  split
  · rw [up_bump _ _ h (by simp [ownWords]), up_bump _ _ h (by simp [ownWords])]
    rfl
  · rfl

/-- The bytes of a frame as they leave: filled to the least frame length. -/
theorem port_send {d : Dev} {sp : Nat} (h : d.up sp = true) (f : List Byte) :
    (d.send sp f).port = { d.port with sent := d.port.sent ++ [Sent.frame sp (padTo (max 60 f.length) f)] } := by
  unfold send
  rw [if_pos h, bump_port, bump_port]

/-- A frame that leaves is sent, after an update that reaches neither the port nor its state. -/
theorem ownLeaves_eq (d : Dev) {sp : Nat} (hsp : sp < 8) (f : OwnFrame) :
    ∃ e : Dev, Dev.ownLeaves sp d f = e.send sp f.bytes ∧ e.port = d.port ∧ e.up sp = d.up sp := by
  unfold ownLeaves
  cases f.kind with
  | plain => exact ⟨d, rfl, rfl, rfl⟩
  | journalExport => exact ⟨_, rfl, d.bump_port _ _, d.up_bump _ hsp (by simp [ownWords])⟩
  | loupeExport => exact ⟨_, rfl, d.bump_port _ _, d.up_bump _ hsp (by simp [ownWords])⟩
  | delayReq q => exact ⟨_, rfl, rfl, rfl⟩

theorem up_ownLeaves (d : Dev) {sp : Nat} (hsp : sp < 8) (f : OwnFrame) : (Dev.ownLeaves sp d f).up sp = d.up sp := by
  obtain ⟨e, he, _, hu⟩ := d.ownLeaves_eq hsp f
  rw [he, up_send _ hsp, hu]

theorem port_ownLeaves {d : Dev} {sp : Nat} (hsp : sp < 8) (h : d.up sp = true) (f : OwnFrame) :
    (Dev.ownLeaves sp d f).port = { d.port with sent := d.port.sent ++ [Sent.frame sp (padTo (max 60 f.bytes.length) f.bytes)] } := by
  obtain ⟨e, he, hp, hu⟩ := d.ownLeaves_eq hsp f
  rw [he, port_send (hu.trans h), hp]

theorem port_each_ownLeaves {d : Dev} {sp : Nat} (hsp : sp < 8) (h : d.up sp = true) (fs : List OwnFrame) :
    (d.each fs (Dev.ownLeaves sp)).port
      = { d.port with sent := d.port.sent ++ fs.map fun f => Sent.frame sp (padTo (max 60 f.bytes.length) f.bytes) } := by
  induction fs generalizing d with
  | nil => simp [each]
  | cons f fs ih =>
    have hf := ih ((up_ownLeaves d hsp f).trans h)
    rw [port_ownLeaves hsp h] at hf
    simpa [each] using hf

/-- A frame of the device's own given to a sub-port that is up is sent, or waits. -/
theorem sendsOwn_sendOwn {d : Dev} {sp : Nat} (hsp : sp < 8) (h : d.up sp = true) (hl : sp < d.port.subs.length) (f : OwnFrame) :
    d.SendsOwn (d.sendOwn sp f) sp f.bytes := by
  obtain ⟨e, he⟩ : ∃ e, e = d.modSub sp fun s => { s with own := s.own ++ [f] } := ⟨_, rfl⟩
  have heq : e.ownQueue sp = d.ownQueue sp ++ [f] := he ▸ d.ownQueue_modSub hl _
  have hel : sp < e.port.subs.length := by rw [he]; simpa [modSub] using hl
  have heu : (e.modSub sp fun s => { s with own := [] }).up sp = true := by rw [he]; exact h
  have hpaused : e.classPaused sp (e.get R.PORT_CFG_OWN_CLASS) = d.classPaused sp (d.get R.PORT_CFG_OWN_CLASS) := by rw [he]; rfl
  have hsent : e.port.sent = d.port.sent := by rw [he]; rfl
  unfold SendsOwn sendOwn
  rw [if_pos h, ← he, drainOwn, hpaused]
  split
  · exact ⟨hsent, by rw [heq, List.map_append]; rfl⟩
  · have hport := port_each_ownLeaves hsp heu (e.ownQueue sp)
    refine ⟨?_, ?_⟩
    · rw [ownQueue, hport]
      exact e.ownQueue_modSub hel _
    · rw [hport, heq]
      simp [modSub, hsent]

end Dev

/-- What sending a frame sees of the device that it begins from: its port, and the words of its configuration and of the sub-port. -/
theorem Dev.SendsOwn.congr {d z e e' : Dev} {sp : Nat} {f : List Byte} (h : z.SendsOwn e sp f) (hp : z.port = d.port)
    (hc : z.get R.PORT_CFG_OWN_CLASS = d.get R.PORT_CFG_OWN_CLASS)
    (hs : z.get (R.PORT_SUBPORT_STAT_PAUSED sp) = d.get (R.PORT_SUBPORT_STAT_PAUSED sp)) (he : e'.port = e.port) : d.SendsOwn e' sp f := by
  unfold Dev.SendsOwn Dev.classPaused Dev.ownQueue at *
  rw [he, ← hp, ← hc, ← hs]
  exact h

/-- The reply to a request whose opcode changes nothing touches the port by its response alone. -/
theorem Dev.port_reply {d : Dev} {r : Req} (h : opcodeChanging r.opcode = false) {a : Answer} (ha : a.status ≠ St.malformed) :
    (d.reply r a).port = (d.sendOwn r.sp ⟨d.response r a.status a.payload, .plain⟩).port := by
  unfold Dev.reply
  extract_lets e1 e2 e3 x
  have h2 : e2.port = e1.port := by
    unfold e2
    split
    · exact Dev.bump_port _ _ _
    · exact Dev.bump_port _ _ _
  have h3 : e3 = e2 := if_neg ha
  rw [if_neg (by simp [h]), h3, h2]

/-! ### Reads (R8, R578, R579) -/

/-- The words that hold the fields of access `RC`. -/
def restartedWords : List Nat :=
  [R.PORT_INLINE_BUF_PEAK_KIB.addr, R.PRS_RECIRC_STAT_PEAK.addr, R.SEQ_RING_STAT_PEAK.addr, R.APR_TEMP_COMPUTE_PEAK_C.addr]

theorem Dev.KeepsWords.put {d e : Dev} {but : List Nat} (h : d.KeepsWords e but) {f : Fld} {v : Nat} (hf : f.addr ∈ but) :
    d.KeepsWords (e.put f v) but :=
  fun a ha => (e.word_put_other f v (ne_of_mem_of_not_mem hf ha).symm).trans (h a ha)

theorem Dev.KeepsWords.restartFields {d e : Dev} (h : d.KeepsWords e restartedWords) (a : Nat) :
    d.KeepsWords (e.restartFields a) restartedWords := by
  unfold Dev.restartFields
  split
  · exact h.put (by decide)
  split
  · exact h.put (by decide)
  split
  · exact h.put (by decide)
  split
  · exact (h.put (by decide)).put (by decide)
  split
  · exact h
  · exact h

theorem Dev.Accesses.restartFields {d y : Dev} (h : d.Accesses y) (a : Nat) : d.Accesses (y.restartFields a) := by
  unfold Dev.restartFields
  split
  · exact h.put _ _
  split
  · exact h.put _ _
  split
  · exact h.put _ _
  split
  · exact (h.put _ _).put _ _
  split
  · exact h.draw
  · exact h

theorem Dev.KeepsWords.readAll {d e : Dev} (h : d.KeepsWords e restartedWords) (xs : List Nat) :
    d.KeepsWords (e.readAll xs).1 restartedWords := by
  induction xs generalizing e with
  | nil => exact h
  | cons x xs ih => exact ih (h.restartFields x)

theorem Dev.Accesses.readAll {d y : Dev} (h : d.Accesses y) (xs : List Nat) : d.Accesses (y.readAll xs).1 := by
  induction xs generalizing y with
  | nil => exact h
  | cons x xs ih => exact ih (h.restartFields x)

theorem Dev.length_readAll (d : Dev) (xs : List Nat) : (d.readAll xs).2.length = 8 * xs.length := by
  induction xs generalizing d with
  | nil => rfl
  | cons x xs ih => simp [Dev.readAll, ih]; omega

theorem Dev.take_readAll {d : Dev} {x v : Nat} (h : d.readWord x = some v) (xs : List Nat) :
    (d.readAll (x :: xs)).2.take 8 = beBytes 8 v := by
  simp [Dev.readAll, h]

theorem restarted_not_sent {sp : Nat} (h : sp < 8) : R.PORT_CFG_OWN_CLASS.addr ∉ restartedWords
    ∧ R.PORT_MAC_ADDR_MAC.addr ∉ restartedWords ∧ (R.PORT_SUBPORT_STAT_PAUSED sp).addr ∉ restartedWords := by
  refine ⟨by decide, by decide, ?_⟩
  have : ∀ w ∈ restartedWords, w < 0x100000140 ∨ 0x100000140 + 8 * 8 ≤ w := by decide
  intro hm
  have := this _ hm
  simp only [R.PORT_SUBPORT_STAT_PAUSED, if_pos h] at this
  omega

/-- The response of a read leaves on its request's sub-port, or waits there. -/
theorem Dev.Turn.conclude_sendsOwn {d y : Dev} {opcode addr : Nat} {payload : List Byte} (h : d.Turn opcode addr payload)
    (hop : opcodeChanging opcode = false) (hy : d.Accesses y) (hw : d.KeepsWords y restartedWords) {a : Answer}
    (ha : a.status ≠ St.malformed) : ∀ r ∈ d.ctl.queue.head?, d.up r.sp = true → r.sp < d.port.subs.length →
      d.SendsOwn (d.conclude y opcode a) r.sp (d.response r a.status a.payload) := by
  intro r hr hup hl
  rcases h with h | ⟨r', rest, hq, _, ho, _, _, hsp, _⟩
  · simp [h] at hr
  obtain rfl : r' = r := by simpa [hq] using hr
  obtain ⟨hclass, hmac, hpaused⟩ := restarted_not_sent hsp
  have hget {f : Fld} (hf : f.addr ∉ restartedWords) : y.get f = d.get f := by unfold Dev.get; rw [hw _ hf]
  have hop10 : opcode ≠ 0x10 := by rintro rfl; exact absurd hop (by decide)
  obtain ⟨z, hz⟩ : ∃ z : Dev, z = { y with ctl := { y.ctl with last := (a.status, a.payload) } } := ⟨_, rfl⟩
  have hzy : z.get = y.get ∧ z.port = y.port ∧ z.ctl.queue = y.ctl.queue := by rw [hz]; exact ⟨rfl, rfl, rfl⟩
  obtain ⟨hzg, hzp, hzq⟩ := hzy
  have hqz : z.ctl.queue = { r' with begun := true } :: rest := by
    rw [hzq, hy.ctl, Dev.begin_of_queue hq]
    exact congrArg Ctl.queue (Dev.put_ctl _ _ _)
  have hup' : z.up r'.sp = true := by
    unfold Dev.up Dev.on at *
    rw [hzg, hget (f := R.PORT_SUBPORT_STAT_LINK_UP r'.sp) hpaused, hup]
  have hresp : z.response { r' with begun := true } a.status a.payload = d.response r' a.status a.payload := by
    unfold Dev.response Dev.macBytes
    rw [hzg, hget hmac]
  have hsend := Dev.sendsOwn_sendOwn hsp hup' (by rw [hzp, hy.port]; exact hl) ⟨d.response r' a.status a.payload, .plain⟩
  unfold Dev.conclude
  rw [if_neg (by simp [hq]), y.noteAnswer_eq hop10, ← hz, Dev.finishHead_of_queue hqz]
  refine hsend.congr (hzp.trans hy.port) ((congrFun hzg _).trans (hget hclass)) ((congrFun hzg _).trans (hget hpaused)) ?_
  rw [Dev.setQueue, Dev.put_port]
  exact (Dev.port_reply (r := { r' with begun := true }) (by rw [← hop, ← ho]) ha).trans (by rw [hresp])

/-! ### The numbers of a payload -/

theorem sub_append_left {xs ys : List Byte} {n : Nat} (h : xs.length = n) : sub (xs ++ ys) 0 n = xs := by
  subst h
  simp [sub]

theorem beAt_of_sub {bs xs : List Byte} {o n : Nat} (h : sub bs o n = xs) (hl : xs.length = n) : beAt bs o n = beNat xs := by
  subst hl
  simp [beAt, h, padTo, zeros]

/-- Word `i` of a payload that spells words. -/
theorem sub_flatten_beBytes {ns : List Nat} {i : Nat} (h : i < ns.length) :
    sub (ns.map (beBytes 8)).flatten (8 * i) 8 = beBytes 8 ns[i] := by
  induction ns generalizing i with
  | nil => exact absurd h (by simp)
  | cons n ns ih =>
    cases i with
    | zero => exact sub_append_left (length_beBytes 8 n)
    | succ j =>
      have hd : ((n :: ns).map (beBytes 8)).flatten.drop (8 * (j + 1)) = (ns.map (beBytes 8)).flatten.drop (8 * j) := by
        rw [List.map_cons, List.flatten_cons, List.drop_append, length_beBytes,
          List.drop_eq_nil_of_le ((length_beBytes 8 n).trans_le (by omega))]
        rfl
      unfold sub
      rw [hd]
      exact ih (Nat.lt_of_succ_lt_succ h)

theorem length_flatten_beBytes (ns : List Nat) : (ns.map (beBytes 8)).flatten.length = 8 * ns.length := by
  induction ns with
  | nil => rfl
  | cons n ns ih => simp only [List.map_cons, List.flatten_cons, List.length_append, length_beBytes, ih, List.length_cons]; omega

/-- The payload of a block's words. -/
def blockPayload (vs : List Word) : List Byte := (vs.map fun v => beBytes 8 v.toNat).flatten

theorem blockPayload_eq (vs : List Word) : blockPayload vs = ((vs.map (·.toNat)).map (beBytes 8)).flatten := by
  rw [List.map_map]
  rfl

theorem length_blockPayload (vs : List Word) : (blockPayload vs).length = 8 * vs.length := by
  rw [blockPayload_eq, length_flatten_beBytes, List.length_map]

theorem blockValues_blockPayload (vs : List Word) : blockValues (blockPayload vs) = vs.map (·.toNat) := by
  refine List.ext_getElem (by simp [blockValues, length_blockPayload]) fun i hi hi' => ?_
  have hv : i < vs.length := by simpa using hi'
  have hs := sub_flatten_beBytes (ns := vs.map (·.toNat)) hi'
  rw [← blockPayload_eq] at hs
  simp only [blockValues, List.getElem_map, List.getElem_range]
  rw [beAt_of_sub hs (length_beBytes 8 _), beNat_beBytes, List.getElem_map]
  exact Nat.mod_eq_of_lt vs[i].isLt

/-! ### The checks and the writes of a block (R579) -/

theorem blockAddrs_succ (a n : Nat) : blockAddrs a (n + 1) = a :: blockAddrs (a + 8) n := by
  unfold blockAddrs
  rw [List.range_succ_eq_map, List.map_cons, List.map_map]
  refine congrArg _ (List.map_congr_left fun i _ => ?_)
  simp only [Function.comp_apply]
  omega

theorem mem_blockAddrs {a n x : Nat} : x ∈ blockAddrs a n ↔ ∃ i < n, x = a + 8 * i := by
  simp [blockAddrs, eq_comm]

namespace Dev

theorem firstRefused_of_bad {d : Dev} {a i : Nat} {vs : List Nat} (hi : i < vs.length)
    (hb : ∀ j < i, d.blockBad a (a + 8 * j) = false) (h : d.blockBad a (a + 8 * i) = true) :
    d.firstRefused a vs = some (i, St.badAddress) := by
  have hf : ((List.range vs.length).find? fun i => d.blockBad a (a + 8 * i)) = some i :=
    List.find?_range_eq_some.2 ⟨h, List.mem_range.2 hi, fun j hj => by simp [hb j hj]⟩
  unfold firstRefused
  rw [hf]

theorem firstRefused_of_good {d : Dev} {a : Nat} {vs : List Nat} (h : ∀ i < vs.length, d.blockBad a (a + 8 * i) = false) :
    d.firstRefused a vs = d.firstDenied a 0 vs := by
  have hf : ((List.range vs.length).find? fun i => d.blockBad a (a + 8 * i)) = none :=
    List.find?_eq_none.2 fun i hi => by simp [h i (List.mem_range.1 hi)]
  unfold firstRefused
  rw [hf]

theorem firstDenied_eq_some {d : Dev} {a k i : Nat} {vs : List Nat} (hi : i < vs.length)
    (hb : ∀ j, (hj : j < i) → d.writeStatus (a + 8 * (k + j)) (vs[j]'(by omega)) = St.ok)
    (h : d.writeStatus (a + 8 * (k + i)) vs[i] ≠ St.ok) :
    d.firstDenied a k vs = some (k + i, d.writeStatus (a + 8 * (k + i)) vs[i]) := by
  induction vs generalizing k i with
  | nil => exact absurd hi (by simp)
  | cons v vs ih =>
    unfold firstDenied
    cases i with
    | zero => exact if_neg h
    | succ i =>
      have hk (j : Nat) : k + 1 + j = k + (j + 1) := by omega
      have h0 : d.writeStatus (a + 8 * k) v = St.ok := hb 0 (by omega)
      have hrest := ih (k := k + 1) (Nat.lt_of_succ_lt_succ hi) (fun j hj => by rw [hk]; exact hb (j + 1) (by omega))
        (by rw [hk]; exact h)
      rw [if_pos h0, hrest, hk, List.getElem_cons_succ]

theorem firstDenied_eq_none {d : Dev} {a k : Nat} {vs : List Nat}
    (h : ∀ j, (hj : j < vs.length) → d.writeStatus (a + 8 * (k + j)) vs[j] = St.ok) : d.firstDenied a k vs = none := by
  induction vs generalizing k with
  | nil => rfl
  | cons v vs ih =>
    have h0 : d.writeStatus (a + 8 * k) v = St.ok := h 0 (by simp)
    unfold firstDenied
    rw [if_pos h0]
    refine ih fun j hj => ?_
    have hk : k + 1 + j = k + (j + 1) := by omega
    rw [hk]
    exact h (j + 1) (by simpa using hj)

theorem writeAll_cons (d : Dev) (a v : Nat) (vs : List Nat) : d.writeAll a (v :: vs) = (d.writeDo a v).writeAll (a + 8) vs := by
  unfold writeAll
  rw [List.length_cons, blockAddrs_succ]
  rfl

end Dev

/-- Every word of a block is one of a register whose writes have no further effect. -/
def PlainBlock (a n : Nat) : Prop :=
  ∀ j < n, ∃ r i, RegMap.lookup RegMap.regs (a + 8 * j) = some (r, i) ∧ ∀ (e : Dev) (v : Nat), e.written r.base (a + 8 * j) v = e

theorem PlainBlock.tail {a n : Nat} (h : PlainBlock a (n + 1)) : PlainBlock (a + 8) n := by
  intro j hj
  have ha : a + 8 + 8 * j = a + 8 * (j + 1) := by omega
  rw [ha]
  exact h (j + 1) (by omega)

namespace Dev

theorem Accesses.writeAll {d y : Dev} (h : d.Accesses y) {a : Nat} {vs : List Nat} (hp : PlainBlock a vs.length) :
    d.Accesses (y.writeAll a vs) := by
  induction vs generalizing y a with
  | nil => exact h
  | cons v vs ih =>
    obtain ⟨r, i, hl, hb⟩ := hp 0 (by simp)
    rw [writeAll_cons]
    exact ih (h.writeDo_of_plain hl fun e => hb e v) hp.tail

theorem keepsWords_writeAll (d : Dev) {a : Nat} {vs : List Nat} (hp : PlainBlock a vs.length) :
    d.KeepsWords (d.writeAll a vs) (blockAddrs a vs.length) := by
  induction vs generalizing d a with
  | nil => exact fun _ _ => rfl
  | cons v vs ih =>
    obtain ⟨r, i, hl, hb⟩ := hp 0 (by simp)
    intro w hw
    rw [List.length_cons, blockAddrs_succ, List.mem_cons, not_or] at hw
    rw [writeAll_cons]
    exact (ih _ hp.tail w hw.2).trans (keepsWords_writeDo_of_plain hl (fun e => hb e v) w (by simpa using hw.1))

/-- A block of distinct registers is written word by word. -/
theorem word_writeAll (d : Dev) {a : Nat} {vs : List Nat} (hp : PlainBlock a vs.length) {j : Nat} (hj : j < vs.length)
    {r : RegDesc} {i : Nat} (hl : RegMap.lookup RegMap.regs (a + 8 * j) = some (r, i)) :
    (d.writeAll a vs).word (a + 8 * j) = r.merge i (d.word (a + 8 * j)) vs[j] % 2 ^ 64 := by
  induction vs generalizing d a j with
  | nil => exact absurd hj (by simp)
  | cons v vs ih =>
    obtain ⟨r0, i0, hl0, hb⟩ := hp 0 (by simp)
    rw [writeAll_cons]
    cases j with
    | zero =>
      obtain ⟨rfl, rfl⟩ : r0 = r ∧ i0 = i := by simpa using hl0.symm.trans hl
      have hnot : a ∉ blockAddrs (a + 8) vs.length := by
        rw [mem_blockAddrs]
        rintro ⟨k, _, hk⟩
        omega
      exact (keepsWords_writeAll _ hp.tail a hnot).trans (word_writeDo_of_plain hl0 fun e => hb e v)
    | succ j =>
      have ha : a + 8 * (j + 1) = a + 8 + 8 * j := by omega
      have hk : (d.writeDo a v).word (a + 8 + 8 * j) = d.word (a + 8 + 8 * j) :=
        keepsWords_writeDo_of_plain hl0 (fun e => hb e v) _ (by simp; omega)
      rw [ha] at hl ⊢
      rw [ih _ hp.tail (Nat.lt_of_succ_lt_succ hj) hl, List.getElem_cons_succ, hk]

end Dev

/-! ### The selections of Loupe among the registers -/

theorem plainBlock_of_sel {a n : Nat}
    (h : ∀ j < n, ∃ r i, RegMap.lookup RegMap.regs (a + 8 * j) = some (r, i) ∧ r.base = RegMap.dLPE_SEL.base) : PlainBlock a n := by
  intro j hj
  obtain ⟨r, i, hl, hb⟩ := h j hj
  exact ⟨r, i, hl, fun e v => e.written_eq_self (by rw [hb]; decide)⟩

/-- No answer moves a selection. -/
theorem sel_not_mem_answerMoves {a i : Nat} {r : RegDesc} (hl : RegMap.lookup RegMap.regs a = some (r, i))
    (hb : r.base = RegMap.dLPE_SEL.base) : a ∉ answerMoves := by
  have hno : ∀ w ∈ answerMoves, (RegMap.lookup RegMap.regs w).map (·.1.base) ≠ some RegMap.dLPE_SEL.base := by decide +kernel
  intro ha
  exact hno a ha (by rw [hl, ← hb]; rfl)

theorem Dev.answerWords_subset (d : Dev) : ∀ w ∈ d.answerWords, w ∈ answerMoves := by
  unfold Dev.answerWords
  split
  · simp
  · exact fun _ hw => hw

/-! ### READ and READ_BLOCK -/

theorem Dev.Executes.given {d e : Dev} {status : Nat} {payload : List Byte} {but : List Nat} (h : d.Executes e status payload but) :
    e.ctl.last.1 = status ∧ d.Answered e status e.ctl.last.2 ∧ d.KeepsWords e (but ++ d.answerWords) ∧ d.KeepsParts e d.answerParts
      ∧ d.KeepsMemory e := by
  have hl := h.answered.1
  exact ⟨by rw [hl], by rw [hl]; exact h.answered, h.words, h.parts, h.memory⟩

/-- A READ executed. -/
def Dev.readRequest (d : Dev) (a : Nat) : Dev := d.requestBy 0x01 (fun r => r.addr = a) [] fun d p => d.readOp a p

theorem exec_read (s : State) (a : Nat) : exec (.read a) s = s.clocked (·.regionStopped 21) (·.readRequest a) := rfl

theorem Dev.Turn.read_some {d : Dev} {a v : Nat} (h : d.Turn 0x01 a []) (hv : d.readWord a = some v) :
    d.readRequest a = d.conclude (d.begin.restartFields a) 0x01 { status := St.ok, payload := beBytes 8 v } :=
  h.requestBy_eq (by decide) (fun r ha _ => by simp [ha]) (by simp [Dev.ifAccepted, opcodeAccepted, Dev.readOp, h.twin.readWord, hv])

theorem Dev.Turn.read_none {d : Dev} {a : Nat} (h : d.Turn 0x01 a []) (hv : d.readWord a = none) :
    d.readRequest a = d.conclude d.begin 0x01 { status := St.badAddress } :=
  h.requestBy_eq (by decide) (fun r ha _ => by simp [ha]) (by simp [Dev.ifAccepted, opcodeAccepted, Dev.readOp, h.twin.readWord, hv])

/-- The payload of a READ_BLOCK of `n` registers (R579). -/
def readBlockPayload (n : Nat) : List Byte := beBytes 2 n ++ zeros 6

theorem beAt_readBlockPayload {n : Nat} (h : n < 65536) : beAt (readBlockPayload n) 0 2 = n := by
  rw [readBlockPayload, beAt_of_sub (sub_append_left (length_beBytes 2 n)) (length_beBytes 2 n), beNat_beBytes]
  exact Nat.mod_eq_of_lt h

theorem drop_readBlockPayload (n : Nat) : (readBlockPayload n).drop 2 = zeros 6 := by
  unfold readBlockPayload
  exact List.drop_left' (length_beBytes 2 n)

theorem Dev.readBlockOp_malformed (d : Dev) (a : Nat) {n : Nat} (h : n < 65536) (hn : n = 0 ∨ 1140 < n) :
    d.readBlockOp a (readBlockPayload n) = (d, some { status := St.malformed }) := by
  unfold Dev.readBlockOp
  rw [beAt_readBlockPayload h]
  exact if_pos (by rcases hn with rfl | hn <;> simp [*])

theorem Dev.readBlockOp_counted (d : Dev) (a : Nat) {n : Nat} (h : n < 65536) (h1 : 1 ≤ n) (h2 : n ≤ 1140) :
    d.readBlockOp a (readBlockPayload n) =
      if (blockAddrs a n).any (d.blockBad a) then (d, some { status := St.badAddress })
      else ((d.readAll (blockAddrs a n)).1, some { status := St.ok, payload := (d.readAll (blockAddrs a n)).2 }) := by
  have hl : (readBlockPayload n).length = 8 := by simp [readBlockPayload, zeros]
  unfold Dev.readBlockOp
  rw [beAt_readBlockPayload h, drop_readBlockPayload, hl]
  refine if_neg ?_
  have h0 : n ≠ 0 := by omega
  simpa [zeros, h0] using h2

/-- A READ_BLOCK executed. -/
def Dev.readBlockRequest (d : Dev) (a n : Nat) : Dev :=
  let odd (r : Req) : Bool := r.payload.length != 8 || (r.payload.drop 2).any (· != 0)
  d.requestBy 0x03 (fun r => r.addr = a && (r.payload = readBlockPayload n || odd r)) (readBlockPayload n) fun d p => d.readBlockOp a p

theorem exec_readBlock (s : State) (a n : Nat) :
    exec (.readBlock a n) s = s.clocked (·.regionStopped 21) (·.readBlockRequest a n) := rfl

theorem Dev.Turn.readBlock_eq {d y : Dev} {a n : Nat} {x : Answer} (h : d.Turn 0x03 a (readBlockPayload n))
    (hy : d.begin.readBlockOp a (readBlockPayload n) = (y, some x)) : d.readBlockRequest a n = d.conclude y 0x03 x :=
  h.requestBy_eq (by decide) (fun r ha hp => by simp [ha, hp]) ((if_pos (by simp [opcodeAccepted])).trans hy)

/-- A request whose turn it is, executed by a register access that moves the words of `but`. -/
theorem Completes.ofTurn {c : Instr} {s : State} {f : Dev → Dev} {y : Dev} {opcode a : Nat} {payload : List Byte}
    {but : List Nat} {post : Dev → Prop} (x : Answer) (hr : s.RunsIn 21) (hc : exec c s = s.clocked (·.regionStopped 21) f)
    (h : s.dev.Turn opcode a payload) (hop : opcode ≠ 0x10) (hf : f s.dev = s.dev.conclude y opcode x) (hy : s.dev.Accesses y)
    (hw : s.dev.KeepsWords y but) (hp : s.dev.Executes (f s.dev) x.status x.payload but → post (f s.dev)) : Completes c s post := by
  have he := h.executes hop hy hw x
  rw [← hf] at he
  exact .ofExecutes hr hc he.life (hp he)

/-- A request whose turn it is, answered and nothing else. -/
theorem Completes.onlyAnswer {c : Instr} {s : State} {f : Dev → Dev} {opcode a : Nat} {payload : List Byte} (x : Answer)
    (hr : s.RunsIn 21) (hc : exec c s = s.clocked (·.regionStopped 21) f) (h : s.dev.Turn opcode a payload) (hop : opcode ≠ 0x10)
    (hf : f s.dev = s.dev.conclude s.dev.begin opcode x) : Completes c s fun d => s.dev.OnlyAnswer d x.status x.payload :=
  .ofTurn x hr hc h hop hf (.begin _) (h.twin.keepsWords []) Dev.Executes.onlyAnswer

theorem read_completes {s : State} {a v : Nat} (hr : s.RunsIn 21) (h : s.dev.Turn 0x01 a []) (hv : s.dev.readWord a = some v) :
    Completes (.read a) s fun d => s.dev.Executes d St.ok (beBytes 8 v) restartedWords
      ∧ ∀ r ∈ s.dev.ctl.queue.head?, s.dev.up r.sp = true → r.sp < s.dev.port.subs.length →
          s.dev.SendsOwn d r.sp (s.dev.response r St.ok (beBytes 8 v)) := by
  have hy : s.dev.Accesses (s.dev.begin.restartFields a) := (Dev.Accesses.begin _).restartFields a
  have hw : s.dev.KeepsWords (s.dev.begin.restartFields a) restartedWords := (h.twin.keepsWords _).restartFields a
  have hf := h.read_some hv
  have hs := h.conclude_sendsOwn rfl hy hw (a := { status := St.ok, payload := beBytes 8 v }) (ne_of_beq_false rfl)
  rw [← hf] at hs
  exact .ofTurn _ hr (exec_read s a) h (by decide) hf hy hw fun he => ⟨he, hs⟩

theorem readBlock_completes {s : State} {a n : Nat} (hr : s.RunsIn 21) (h : s.dev.Turn 0x03 a (readBlockPayload n)) (hn : n < 65536)
    (h1 : 1 ≤ n) (h2 : n ≤ 1140) (hg : ∀ i < n, s.dev.blockBad a (a + 8 * i) = false) :
    Completes (.readBlock a n) s fun d => s.dev.Executes d St.ok (s.dev.begin.readAll (blockAddrs a n)).2 restartedWords := by
  have hany : (blockAddrs a n).any (s.dev.begin.blockBad a) = false := by
    rw [h.twin.blockBad, List.any_eq_false]
    intro x hx
    obtain ⟨i, hi, rfl⟩ := mem_blockAddrs.1 hx
    simp [hg i hi]
  have hop := s.dev.begin.readBlockOp_counted a hn h1 h2
  rw [hany, if_neg (by decide)] at hop
  exact .ofTurn _ hr (exec_readBlock s a n) h (by decide) (h.readBlock_eq hop) ((Dev.Accesses.begin _).readAll _)
    ((h.twin.keepsWords _).readAll _) fun he => he

theorem readBlock_bad {s : State} {a n : Nat} (hr : s.RunsIn 21) (h : s.dev.Turn 0x03 a (readBlockPayload n)) (hn : n < 65536)
    (h1 : 1 ≤ n) (h2 : n ≤ 1140) (hb : ∃ i < n, s.dev.blockBad a (a + 8 * i) = true) :
    Completes (.readBlock a n) s fun d => s.dev.OnlyAnswer d St.badAddress [] := by
  obtain ⟨i, hi, hx⟩ := hb
  have hany : (blockAddrs a n).any (s.dev.begin.blockBad a) = true := by
    rw [h.twin.blockBad, List.any_eq_true]
    exact ⟨_, mem_blockAddrs.2 ⟨i, hi, rfl⟩, hx⟩
  have hop := s.dev.begin.readBlockOp_counted a hn h1 h2
  rw [hany, if_pos rfl] at hop
  exact .onlyAnswer _ hr (exec_readBlock s a n) h (by decide) (h.readBlock_eq hop)

theorem readBlock_malformed {s : State} {a n : Nat} (hr : s.RunsIn 21) (h : s.dev.Turn 0x03 a (readBlockPayload n)) (hn : n < 65536)
    (hc : n = 0 ∨ 1140 < n) : Completes (.readBlock a n) s fun d => s.dev.OnlyAnswer d St.malformed [] :=
  .onlyAnswer _ hr (exec_readBlock s a n) h (by decide) (h.readBlock_eq (s.dev.begin.readBlockOp_malformed a hn hc))

/-! ### WRITE_BLOCK -/

theorem Dev.Turn.block_eq {d y : Dev} {a : Nat} {vs : List Word} {x : Answer} (h : d.Turn 0x04 a (blockPayload vs))
    (hs : d.get R.LCS_STAT_STATE < 4) (hy : d.begin.writeBlockOp a (blockPayload vs) = (y, some x)) :
    d.blockRequest a vs = d.conclude y 0x04 x := by
  have hacc : opcodeAccepted 0x04 (d.begin.get R.LCS_STAT_STATE) = true := by
    rw [h.twin.get]
    simp [opcodeAccepted, hs]
  exact h.requestBy_eq (by decide) (fun r ha hp => by simp [ha, hp, blockPayload]) ((if_pos hacc).trans hy)

namespace Dev

theorem writeBlockOp_malformed (d : Dev) (a : Nat) {vs : List Word} (h : vs = [] ∨ 1140 < vs.length) :
    d.writeBlockOp a (blockPayload vs) = (d, some { status := St.malformed }) := by
  unfold writeBlockOp
  rw [blockValues_blockPayload]
  refine if_pos ?_
  rcases h with rfl | h
  · simp
  · simp [h]

/-- The payload of a block of 1 to 1,140 words is no malformed one. -/
theorem not_block_malformed {vs : List Word} (h1 : vs ≠ []) (h2 : vs.length ≤ 1140) :
    ¬((blockPayload vs).length % 8 != 0 || (vs.map (·.toNat)).isEmpty || decide (1140 < (vs.map (·.toNat)).length)) = true := by
  simp [length_blockPayload, h1, h2]

theorem writeBlockOp_refused {d : Dev} {a i st : Nat} {vs : List Word} (h1 : vs ≠ []) (h2 : vs.length ≤ 1140)
    (ha : a ≠ RegMap.dDEV_ENDORSE.base) (hr : d.firstRefused a (vs.map (·.toNat)) = some (i, st)) :
    d.writeBlockOp a (blockPayload vs) = (d, some { status := st, payload := beBytes 2 i }) := by
  unfold writeBlockOp
  rw [blockValues_blockPayload, if_neg (not_block_malformed h1 h2), if_neg (by simp [isEndorse, ha]), hr]

theorem writeBlockOp_taken {d : Dev} {a : Nat} {vs : List Word} (h1 : vs ≠ []) (h2 : vs.length ≤ 1140)
    (ha : a ≠ RegMap.dDEV_ENDORSE.base) (hr : d.firstRefused a (vs.map (·.toNat)) = none) :
    d.writeBlockOp a (blockPayload vs) = (d.writeAll a (vs.map (·.toNat)), some { status := St.ok }) := by
  unfold writeBlockOp
  rw [blockValues_blockPayload, if_neg (not_block_malformed h1 h2), if_neg (by simp [isEndorse, ha]), hr]

theorem writeBlockOp_endorse {d y : Dev} {st : Nat} {vs : List Word} (h1 : vs ≠ []) (h2 : vs.length ≤ 1024)
    (he : d.endorse (vs.map (·.toNat)) = (y, st)) :
    d.writeBlockOp RegMap.dDEV_ENDORSE.base (blockPayload vs)
      = (y, some { status := st, payload := if st = St.ok then [] else beBytes 2 0 }) := by
  unfold writeBlockOp
  rw [blockValues_blockPayload, if_neg (not_block_malformed h1 (by omega)), if_pos (by simp [isEndorse, h2]), he]

end Dev

theorem exec_writeBlock (s : State) (a : Nat) (vs : List Word) :
    exec (.writeBlock a vs) s = s.clocked (·.regionStopped 21) (·.blockRequest a vs) := rfl

theorem exec_endorseWrite (s : State) (vs : List Word) :
    exec (.endorseWrite vs) s = s.clocked (·.regionStopped 21) (·.blockRequest RegMap.dDEV_ENDORSE.base vs) := rfl

theorem writeBlock_malformed {s : State} {a : Nat} {vs : List Word} (hr : s.RunsIn 21) (hs : s.dev.get R.LCS_STAT_STATE < 4)
    (h : s.dev.Turn 0x04 a (blockPayload vs)) (hc : vs = [] ∨ 1140 < vs.length) :
    Completes (.writeBlock a vs) s fun d => s.dev.OnlyAnswer d St.malformed [] :=
  .onlyAnswer _ hr (exec_writeBlock s a vs) h (by decide) (h.block_eq hs (s.dev.begin.writeBlockOp_malformed a hc))

section

variable {s : State} {a : Nat} {vs : List Word} (hr : s.RunsIn 21) (hs : s.dev.get R.LCS_STAT_STATE < 4)
  (h : s.dev.Turn 0x04 a (blockPayload vs)) (h1 : 1 ≤ vs.length) (h2 : vs.length ≤ 1140) (ha : a ≠ RegMap.dDEV_ENDORSE.base)
include hr hs h h1 h2 ha

/-- A block that is refused answers the index and the status of the word it is refused for. -/
theorem writeBlock_refused {i st : Nat} (hf : s.dev.begin.firstRefused a (vs.map (·.toNat)) = some (i, st)) :
    Completes (.writeBlock a vs) s fun d => s.dev.OnlyAnswer d st (beBytes 2 i) :=
  .onlyAnswer { status := st, payload := beBytes 2 i } hr (exec_writeBlock s a vs) h (by decide)
    (h.block_eq hs (Dev.writeBlockOp_refused (List.ne_nil_of_length_pos h1) h2 ha hf))

theorem writeBlock_bad {i : Nat} (hi : i < vs.length) (hb : ∀ j < i, s.dev.blockBad a (a + 8 * j) = false)
    (hx : s.dev.blockBad a (a + 8 * i) = true) :
    Completes (.writeBlock a vs) s fun d => s.dev.OnlyAnswer d St.badAddress (beBytes 2 i) := by
  rw [← h.twin.blockBad] at hb hx
  exact writeBlock_refused hr hs h h1 h2 ha (Dev.firstRefused_of_bad (by simpa using hi) hb hx)

theorem writeBlock_denied (hg : ∀ i < vs.length, s.dev.blockBad a (a + 8 * i) = false) {i : Nat} (hi : i < vs.length)
    (hb : ∀ j, (hj : j < i) → s.dev.writeStatus (a + 8 * j) (vs[j]'(by omega)).toNat = St.ok)
    (hx : s.dev.writeStatus (a + 8 * i) vs[i].toNat ≠ St.ok) :
    Completes (.writeBlock a vs) s fun d =>
      s.dev.OnlyAnswer d (s.dev.writeStatus (a + 8 * i) vs[i].toNat) (beBytes 2 i) := by
  rw [← h.twin.blockBad] at hg
  rw [← h.twin.writeStatus] at hb hx ⊢
  refine writeBlock_refused hr hs h h1 h2 ha ?_
  have hd := Dev.firstDenied_eq_some (d := s.dev.begin) (a := a) (k := 0) (vs := vs.map (·.toNat)) (i := i) (by simpa using hi)
    (fun j hj => by simpa using hb j hj) (by simpa using hx)
  rw [Dev.firstRefused_of_good (by simpa using hg), hd]
  simp

theorem writeBlock_taken (hg : ∀ i < vs.length, s.dev.blockBad a (a + 8 * i) = false)
    (hok : ∀ j, (hj : j < vs.length) → s.dev.writeStatus (a + 8 * j) vs[j].toNat = St.ok
      ∧ ∃ r i, RegMap.lookup RegMap.regs (a + 8 * j) = some (r, i) ∧ r.base = RegMap.dLPE_SEL.base) :
    Completes (.writeBlock a vs) s fun d =>
      s.dev.Executes d St.ok [] (blockAddrs a vs.length)
        ∧ ∀ j, (hj : j < vs.length) → ∀ r i, RegMap.lookup RegMap.regs (a + 8 * j) = some (r, i) →
            d.word (a + 8 * j) = r.merge i (s.dev.word (a + 8 * j)) vs[j].toNat % 2 ^ 64 := by
  have hlen : (vs.map (·.toNat)).length = vs.length := List.length_map _
  have hplain : PlainBlock a (vs.map (·.toNat)).length := hlen ▸ plainBlock_of_sel fun j hj => (hok j hj).2
  have hf : s.dev.begin.firstRefused a (vs.map (·.toNat)) = none := by
    rw [Dev.firstRefused_of_good (by rw [h.twin.blockBad]; simpa using hg)]
    refine Dev.firstDenied_eq_none fun j hj => ?_
    rw [h.twin.writeStatus, Nat.zero_add, List.getElem_map]
    exact (hok j (by simpa using hj)).1
  have hop := h.block_eq hs (Dev.writeBlockOp_taken (List.ne_nil_of_length_pos h1) h2 ha hf)
  have hw : s.dev.KeepsWords (s.dev.begin.writeAll a (vs.map (·.toNat))) (blockAddrs a vs.length) := fun w hw =>
    (Dev.keepsWords_writeAll _ hplain w (by rw [hlen]; exact hw)).trans (h.twin.word w)
  have hy := (Dev.Accesses.begin s.dev).writeAll hplain
  have hst := h.settles (by decide) hy.ctl { status := St.ok }
  rw [← hop] at hst
  refine .ofTurn _ hr (exec_writeBlock s a vs) h (by decide) hop hy hw fun he => ⟨he, fun j hj r i hl => ?_⟩
  obtain ⟨r', i', hl', hb⟩ := (hok j hj).2
  have hn : a + 8 * j ∉ s.dev.answerWords := fun hm => sel_not_mem_answerMoves hl' hb (s.dev.answerWords_subset _ hm)
  rw [hst.words _ hn, Dev.word_writeAll _ hplain (by simpa using hj) hl, h.twin.word, List.getElem_map]

end

/-! ### ENDORSE_WRITE (R591) -/

theorem byteAt_leBytes {k i : Nat} (n : Nat) (h : i < k) : byteAt (leBytes k n) i = BitVec.ofNat 8 (n >>> (8 * i)) := by
  induction k generalizing n i with
  | zero => omega
  | succ k ih =>
    cases i with
    | zero => rfl
    | succ i =>
      have hs : (n / 256) >>> (8 * i) = n >>> (8 * (i + 1)) := by
        rw [mul_add, mul_one, add_comm, Nat.shiftRight_add, Nat.shiftRight_eq_div_pow n 8]
      rw [← hs]
      exact ih (n / 256) (Nat.lt_of_succ_lt_succ h)

theorem byteAt_flatten_leBytes {ns : List Nat} {i : Nat} (h : i < 8 * ns.length) :
    byteAt (ns.map (leBytes 8)).flatten i = BitVec.ofNat 8 (ns.getD (i / 8) 0 >>> (8 * (i % 8))) := by
  induction ns generalizing i with
  | nil => exact absurd h (by simp)
  | cons n ns ih =>
    unfold byteAt
    rw [List.map_cons, List.flatten_cons]
    by_cases hi : i < 8
    · rw [List.getD_append _ _ _ _ (by rw [leBytes_length]; exact hi), Nat.div_eq_of_lt hi, Nat.mod_eq_of_lt hi]
      exact byteAt_leBytes n hi
    · obtain ⟨j, rfl⟩ : ∃ j, i = j + 8 := ⟨i - 8, by omega⟩
      have hj : j < 8 * ns.length := by rw [List.length_cons] at h; omega
      rw [List.getD_append_right _ _ _ _ (by rw [leBytes_length]; omega), leBytes_length, Nat.add_sub_cancel, Nat.add_mod_right,
        Nat.add_div_right _ (by decide)]
      exact ih hj

theorem length_flatten_leBytes (ns : List Nat) : (ns.map (leBytes 8)).flatten.length = 8 * ns.length := by
  induction ns with
  | nil => rfl
  | cons n ns ih => simp only [List.map_cons, List.flatten_cons, List.length_append, leBytes_length, ih, List.length_cons]; omega

/-- The endorsement that a block of words holds: its first word is the length. -/
def endorsementOf (vs : List Word) : List Byte :=
  ((((vs.map (·.toNat)).drop 1).map (leBytes 8)).flatten).take (vs.headD 0).toNat

theorem length_endorsementOf {vs : List Word} (h : (vs.headD 0).toNat ≤ 8 * (vs.length - 1)) :
    (endorsementOf vs).length = (vs.headD 0).toNat := by
  unfold endorsementOf
  rw [List.length_take, length_flatten_leBytes]
  simpa using h

theorem byteAt_endorsementOf {vs : List Word} (h : (vs.headD 0).toNat ≤ 8 * (vs.length - 1)) {i : Nat} (hi : i < (vs.headD 0).toNat) :
    byteAt (endorsementOf vs) i = BitVec.ofNat 8 ((vs.getD (i / 8 + 1) 0).toNat >>> (8 * (i % 8))) := by
  have ht : byteAt (endorsementOf vs) i = byteAt (((vs.map (·.toNat)).drop 1).map (leBytes 8)).flatten i := by
    unfold byteAt endorsementOf
    rw [List.getD_eq_getElem?_getD, List.getElem?_take_of_lt hi, ← List.getD_eq_getElem?_getD]
  have hw : ((vs.map (·.toNat)).drop 1).getD (i / 8) 0 = (vs.getD (i / 8 + 1) 0).toNat := by
    cases vs with
    | nil => rfl
    | cons v vs => exact List.getD_map vs 0 (f := BitVec.toNat)
  rw [ht, byteAt_flatten_leBytes (by simp; omega), hw]

/-- A device that holds an endorsement. -/
def Dev.endorsed (d : Dev) (bs : List Byte) : Dev := { d with nvm := { d.nvm with endorsement := bs } }

/-- Whether an endorsement may be written (R591). -/
def Dev.MayEndorse (d : Dev) : Prop := d.get R.LCS_STAT_STORED = 0 ∧ d.nvm.endorsement = []

/-- Whether a block of words holds the endorsement that its first word gives the length of (R591). -/
def EndorsementFits (vs : List Word) : Prop :=
  1 ≤ (vs.headD 0).toNat ∧ (vs.headD 0).toNat ≤ 8184 ∧ (vs.headD 0).toNat ≤ 8 * (vs.length - 1)

namespace Dev

theorem endorse_held {d : Dev} (h : ¬d.MayEndorse) (vs : List Nat) : d.endorse vs = (d, St.access) := by
  unfold endorse
  refine if_pos ?_
  simpa [MayEndorse, imp_iff_not_or] using h

theorem not_held {d : Dev} (h : d.MayEndorse) : ¬(d.get R.LCS_STAT_STORED != 0 || !d.nvm.endorsement.isEmpty) = true := by
  obtain ⟨hs, he⟩ := h
  simp [hs, he]

theorem headD_map_toNat (vs : List Word) : (vs.map (·.toNat)).headD 0 = (vs.headD 0).toNat := by
  cases vs with
  | nil => rfl
  | cons v vs => rfl

theorem endorse_unfit {d : Dev} (h : d.MayEndorse) {vs : List Word} (hf : ¬EndorsementFits vs) :
    d.endorse (vs.map (·.toNat)) = (d, St.malformed) := by
  unfold endorse
  rw [headD_map_toNat, List.length_map]
  refine (if_neg (not_held h)).trans (if_pos ?_)
  unfold EndorsementFits at hf
  simp only [Bool.or_eq_true, decide_eq_true_eq]
  omega

theorem endorse_fit {d : Dev} (h : d.MayEndorse) {vs : List Word} (hf : EndorsementFits vs) :
    d.endorse (vs.map (·.toNat)) = (d.endorsed (endorsementOf vs), St.ok) := by
  unfold endorse
  rw [headD_map_toNat, List.length_map]
  refine (if_neg (not_held h)).trans (if_neg ?_)
  unfold EndorsementFits at hf
  simp only [Bool.or_eq_true, decide_eq_true_eq]
  omega

theorem Twin.mayEndorse {d e : Dev} (h : d.Twin e) : e.MayEndorse = d.MayEndorse := by
  unfold MayEndorse
  rw [h.get, h.nvm]

theorem keepsParts_endorsed (d : Dev) (bs : List Byte) : d.KeepsParts (d.endorsed bs) [.nvm] := by
  intro p hp
  cases p with
  | nvm => exact absurd hp (by simp)
  | time => exact ⟨rfl, rfl⟩
  | port | front | plan | lens | seq | sync | fab | lpe | ctl | jrn | life | sec | sup => rfl

end Dev

section

variable {s : State} {vs : List Word} (hr : s.RunsIn 21) (hs : s.dev.get R.LCS_STAT_STATE < 4) (h2 : vs.length ≤ 1024) (h1 : vs ≠ [])
  (h : s.dev.Turn 0x04 RegMap.dDEV_ENDORSE.base (blockPayload vs))
include hr hs h2 h1 h

theorem endorseWrite_refused {st : Nat} (hst : st ≠ St.ok) (he : s.dev.begin.endorse (vs.map (·.toNat)) = (s.dev.begin, st)) :
    Completes (.endorseWrite vs) s fun d => s.dev.OnlyAnswer d st (beBytes 2 0) := by
  have hop := Dev.writeBlockOp_endorse h1 h2 he
  rw [if_neg hst] at hop
  exact .onlyAnswer { status := st, payload := beBytes 2 0 } hr (exec_endorseWrite s vs) h (by decide) (h.block_eq hs hop)

/-- Once an endorsement is held, or in another stored state than MANUFACTURE, none is taken. -/
theorem endorseWrite_held (hm : ¬s.dev.MayEndorse) :
    Completes (.endorseWrite vs) s fun d => s.dev.OnlyAnswer d St.access (beBytes 2 0) :=
  endorseWrite_refused hr hs h2 h1 h (by decide) (Dev.endorse_held (h.twin.mayEndorse ▸ hm) _)

theorem endorseWrite_unfit (hm : s.dev.MayEndorse) (hf : ¬EndorsementFits vs) :
    Completes (.endorseWrite vs) s fun d => s.dev.OnlyAnswer d St.malformed (beBytes 2 0) :=
  endorseWrite_refused hr hs h2 h1 h (by decide) (Dev.endorse_unfit (h.twin.mayEndorse ▸ hm) hf)

theorem endorseWrite_taken (hm : s.dev.MayEndorse) (hf : EndorsementFits vs) :
    Completes (.endorseWrite vs) s fun d =>
      s.dev.Answered d St.ok [] ∧ d.nvm.endorsement = endorsementOf vs
        ∧ { d.nvm.apart with endorsement := [] } = { s.dev.nvm.apart with endorsement := [] }
        ∧ s.dev.KeepsWords d s.dev.answerWords ∧ s.dev.KeepsParts d (.nvm :: s.dev.answerParts) ∧ s.dev.KeepsMemory d := by
  have he := Dev.endorse_fit (d := s.dev.begin) (h.twin.mayEndorse ▸ hm) hf
  have hop := h.block_eq hs (Dev.writeBlockOp_endorse h1 h2 he)
  have hst := h.settles (y := s.dev.begin.endorsed (endorsementOf vs)) (by decide) rfl { status := St.ok }
  rw [if_pos rfl] at hop
  rw [← hop] at hst
  have hb := Dev.Accesses.begin s.dev
  have hp : s.dev.KeepsParts (s.dev.blockRequest RegMap.dDEV_ENDORSE.base vs) (.nvm :: s.dev.answerParts) := by
    refine ((hb.keepsParts.mono ?_).trans ((Dev.keepsParts_endorsed _ _).mono ?_)).trans (hst.parts.mono ?_)
    · simp [s.dev.ctl_mem_answerParts]
    · simp
    · simp only [List.mem_cons]
      exact fun p hp => .inr hp
  have hn : (s.dev.begin.endorsed (endorsementOf vs)).nvm = { s.dev.nvm with endorsement := endorsementOf vs } := by
    unfold Dev.endorsed
    rw [h.twin.nvm]
  have ha := hst.apart
  rw [hn] at ha
  refine .ofExecutes hr (exec_endorseWrite s vs) (hp .life ?_) ⟨hst.answered, (congrArg Nvm.endorsement ha :), ?_, ?_, hp, ?_⟩
  · simp [s.dev.life_not_mem_answerParts]
  · rw [ha]
    rfl
  · exact fun w hw => (hst.words w hw).trans (h.twin.word w)
  · exact Dev.keepsMemory_of (hst.fab.trans hb.fab)

end

/-- Settles O22: the commands one by one, each by the lemma of its case. -/
theorem blockAccesses : Obligations.BlockAccesses := by
  intro s hr
  refine ⟨fun a h => ⟨fun v hv => ?_, fun hv => ?_⟩, fun a n h hn => ⟨fun h1 h2 hg => ?_, ?_, ?_⟩,
    fun a vs hs h => ⟨fun h1 h2 ha => ⟨?_, fun hg => ⟨?_, fun hok => ?_⟩⟩, writeBlock_malformed hr hs h⟩,
    fun vs hs h2 h1 h => ⟨fun hm hf => ?_, endorseWrite_unfit hr hs h2 h1 h, endorseWrite_held hr hs h2 h1 h⟩⟩
  · refine (read_completes hr h hv).imp fun t ⟨ht, hp, he, hsend⟩ => ⟨ht, hp, he.given, ?_, hsend⟩
    rw [he.answered.1]
  · exact .onlyAnswer _ hr (exec_read s a) h (by decide) (h.read_none hv)
  · refine (readBlock_completes hr h hn h1 h2 hg).imp fun t ⟨ht, hp, he⟩ => ⟨ht, hp, he.given, ?_, fun v hv => ?_⟩
    · rw [he.answered.1, Dev.length_readAll]
      simp [blockAddrs]
    · obtain ⟨m, rfl⟩ : ∃ m, n = m + 1 := ⟨n - 1, by omega⟩
      rw [he.answered.1, blockAddrs_succ]
      exact Dev.take_readAll ((congrFun h.twin.readWord a).trans hv) _
  · exact fun h1 h2 hb => readBlock_bad hr h hn h1 h2 hb
  · exact readBlock_malformed hr h hn
  · exact fun i hi hb hx => writeBlock_bad hr hs h h1 h2 ha hi hb hx
  · rintro i st hi hb rfl hx
    exact writeBlock_denied hr hs h h1 h2 ha hg hi hb hx
  · exact (writeBlock_taken hr hs h h1 h2 ha hg hok).imp fun t ⟨ht, hp, he, hv⟩ =>
      ⟨ht, hp, he.answered, he.words, he.parts, he.memory, hv⟩
  · have hlen : (vs.headD 0).toNat ≤ 8 * (vs.length - 1) := hf.2.2
    refine (endorseWrite_taken hr hs h2 h1 h hm hf).imp fun t ⟨ht, hp, hans, he, hrest⟩ => ⟨ht, hp, hans, ?_, ?_, hrest⟩
    · rw [he]
      exact length_endorsementOf hlen
    · rw [he]
      exact fun i hi => byteAt_endorsementOf hlen hi

end Sys2Proof.Machine
end

section
/-! What an operation has moved of a device (`Dev.Moves`: some register words, some parts, no memory), with one lemma for each
operation on the registers and the port, in the model's order; the bytes of a frame; the pauses that the device sends (R68). -/

namespace Sys2Proof.Machine

/-- Settles O1, by the equation of `step` for a queue that is not empty. -/
theorem stepRunsFrontCommand : Obligations.StepRunsFrontCommand := by
  intro s c rest h
  unfold step
  rw [h]

/-! ### What an operation has moved -/

/-- From `d` to `e` no register word has moved but those of `ws`, no part but those of `ps`, and no byte of memory. -/
structure Dev.Moves (d e : Dev) (ws : List Nat) (ps : List Part) : Prop where
  words : d.KeepsWords e ws
  parts : d.KeepsParts e ps
  memory : d.KeepsMemory e

theorem Part.Same.refl (p : Part) (d : Dev) : p.Same d d := by
  cases p with
  | time => exact ⟨rfl, rfl⟩
  | port | front | plan | lens | seq | sync | fab | lpe | ctl | jrn | nvm | life | sec | sup => rfl

theorem Dev.KeepsMemory.trans {d y e : Dev} (h : d.KeepsMemory y) (h' : y.KeepsMemory e) : d.KeepsMemory e :=
  ⟨fun a => (h'.1 a).trans (h.1 a), fun a => (h'.2 a).trans (h.2 a)⟩

namespace Dev.Moves

variable {d e e' : Dev} {ws : List Nat} {ps : List Part}

theorem refl (d : Dev) (ws : List Nat) (ps : List Part) : d.Moves d ws ps :=
  ⟨fun _ _ => rfl, fun p _ => .refl p d, fun _ => rfl, fun _ => rfl⟩

theorem trans (h : d.Moves e ws ps) (h' : e.Moves e' ws ps) : d.Moves e' ws ps :=
  ⟨fun a ha => (h'.words a ha).trans (h.words a ha), h.parts.trans h'.parts, h.memory.trans h'.memory⟩

theorem mono (h : d.Moves e ws ps) {ws' : List Nat} {ps' : List Part} (hw : ws ⊆ ws') (hp : ps ⊆ ps') : d.Moves e ws' ps' :=
  ⟨fun a ha => h.words a fun hm => ha (hw hm), h.parts.mono fun _ hm => hp hm, h.memory⟩

theorem get (h : d.Moves e ws ps) {f : Fld} (hf : f.addr ∉ ws) : e.get f = d.get f := by
  unfold Dev.get
  rw [h.words _ hf]

theorem on (h : d.Moves e ws ps) {f : Fld} (hf : f.addr ∉ ws) : e.on f = d.on f := by
  unfold Dev.on
  rw [h.get hf]

/-- What only other words have changed since still counts. -/
theorem counts {y : Dev} {a n : Nat} (hc : d.Counts y a n) (h : y.Moves e ws ps) (ha : a ∉ ws) : d.Counts e a n :=
  (h.words a ha).trans hc

/-- An update of the parts `ps` alone. -/
theorem same (h : d.Moves e ws ps) (hp : e.KeepsParts e' ps) (hr : e'.regs = e.regs := by rfl) (hf : e'.fab = e.fab := by rfl) :
    d.Moves e' ws ps :=
  h.trans ⟨fun a _ => Dev.word_congr hr a, hp, Dev.keepsMemory_of hf⟩

/-- An update of what is no part of the device but its registers. -/
theorem regs (h : d.Moves e ws ps) {regs : Sparse Word} {draws : Nat} (hw : e.KeepsWords { e with regs := regs, draws := draws } ws) :
    d.Moves { e with regs := regs, draws := draws } ws ps := by
  refine h.trans ⟨hw, fun p _ => ?_, Dev.keepsMemory_of rfl⟩
  cases p with
  | time => exact ⟨rfl, rfl⟩
  | port | front | plan | lens | seq | sync | fab | lpe | ctl | jrn | nvm | life | sec | sup => rfl

theorem draw (h : d.Moves e ws ps) : d.Moves e.draw.2 ws ps := h.regs fun _ _ => rfl

theorem setWord (h : d.Moves e ws ps) {a v : Nat} (ha : a ∈ ws) : d.Moves (e.setWord a v) ws ps :=
  h.regs fun _ hb => e.word_setWord_other v (ne_of_mem_of_not_mem ha hb).symm

theorem put (h : d.Moves e ws ps) {f : Fld} {v : Nat} (hf : f.addr ∈ ws) : d.Moves (e.put f v) ws ps := h.setWord hf

theorem ite {c : Prop} [Decidable c] (h : d.Moves e ws ps) (h' : d.Moves e' ws ps) : d.Moves (if c then e else e') ws ps := by
  split <;> assumption

theorem bump (h : d.Moves e ws ps) {a n : Nat} (ha : a ∈ ws) : d.Moves (e.bump a n) ws ps := .ite h (h.setWord ha)

theorem peak (h : d.Moves e ws ps) {f : Fld} {v : Nat} (hf : f.addr ∈ ws) : d.Moves (e.peak f v) ws ps := .ite (h.put hf) h

theorem each (h : d.Moves e ws ps) {α : Type} {xs : List α} {f : Dev → α → Dev}
    (hf : ∀ x ∈ xs, ∀ {e}, d.Moves e ws ps → d.Moves (f e x) ws ps) : d.Moves (e.each xs f) ws ps := by
  unfold Dev.each
  induction xs generalizing e with
  | nil => exact h
  | cons x xs ih => exact ih (hf x (by simp) h) fun y hy => hf y (by simp [hy])

theorem withPort (h : d.Moves e ws ps) (hp : .port ∈ ps) (x : Port) : d.Moves { e with port := x } ws ps := by
  refine h.same fun p hn => ?_
  cases p with
  | port => exact absurd hp hn
  | time => exact ⟨rfl, rfl⟩
  | front | plan | lens | seq | sync | fab | lpe | ctl | jrn | nvm | life | sec | sup => rfl

theorem withLpe (h : d.Moves e ws ps) (hp : .lpe ∈ ps) (x : Loupe) : d.Moves { e with lpe := x } ws ps := by
  refine h.same fun p hn => ?_
  cases p with
  | lpe => exact absurd hp hn
  | time => exact ⟨rfl, rfl⟩
  | port | front | plan | lens | seq | sync | fab | ctl | jrn | nvm | life | sec | sup => rfl

theorem withFront (h : d.Moves e ws ps) (hp : .front ∈ ps) (x : Front) : d.Moves { e with front := x } ws ps := by
  refine h.same fun p hn => ?_
  cases p with
  | front => exact absurd hp hn
  | time => exact ⟨rfl, rfl⟩
  | port | plan | lens | seq | sync | fab | lpe | ctl | jrn | nvm | life | sec | sup => rfl

theorem withPlan (h : d.Moves e ws ps) (hp : .plan ∈ ps) (x : Plan) : d.Moves { e with plan := x } ws ps := by
  refine h.same fun p hn => ?_
  cases p with
  | plan => exact absurd hp hn
  | time => exact ⟨rfl, rfl⟩
  | port | front | lens | seq | sync | fab | lpe | ctl | jrn | nvm | life | sec | sup => rfl

theorem withTime (h : d.Moves e ws ps) (hp : .time ∈ ps) (ns frac : Nat) : d.Moves { e with ns := ns, frac := frac } ws ps := by
  refine h.same fun p hn => ?_
  cases p with
  | time => exact absurd hp hn
  | port | front | plan | lens | seq | sync | fab | lpe | ctl | jrn | nvm | life | sec | sup => rfl

theorem withSup (h : d.Moves e ws ps) (hp : .sup ∈ ps) (x : Supply) : d.Moves { e with sup := x } ws ps := by
  refine h.same fun p hn => ?_
  cases p with
  | sup => exact absurd hp hn
  | time => exact ⟨rfl, rfl⟩
  | port | front | plan | lens | seq | sync | fab | lpe | ctl | jrn | nvm | life | sec => rfl

theorem advance (h : d.Moves e ws ps) (hp : .time ∈ ps) (t : Nat) : d.Moves (e.advance t) ws ps := .ite (h.withTime hp _ _) h

theorem advanceClock (h : d.Moves e ws ps) (hp : .time ∈ ps) (t : Nat) : d.Moves (e.advanceClock t) ws ps := h.advance hp _

theorem health (h : d.Moves e ws ps) (hp : .lpe ∈ ps) (event inst detail : Nat) : d.Moves (e.health event inst detail) ws ps :=
  h.withLpe hp _

/-! The port -/

theorem modSub (h : d.Moves e ws ps) (hp : .port ∈ ps) (sp : Nat) (f : SubPort → SubPort) : d.Moves (e.modSub sp f) ws ps :=
  h.withPort hp _

theorem send (h : d.Moves e ws ps) (hp : .port ∈ ps) {sp : Nat} (f : List Byte) (hf : C.PORT_TX_FRAMES sp ∈ ws)
    (hb : C.PORT_TX_BYTES sp ∈ ws) : d.Moves (e.send sp f) ws ps :=
  .ite (((h.withPort hp _).bump hf).bump hb) h

end Dev.Moves

/-- A command whose unit's clock runs, and whose update of the device keeps the life-cycle records, completes with that update. -/
theorem Completes.ofClocked {c : Instr} {s : State} {halted : Dev → Bool} {f : Dev → Dev} {post : Dev → Prop} (hr : s.Running)
    (hh : halted s.dev = false) (hc : exec c s = s.clocked halted f) (hl : (f s.dev).life = s.dev.life) (hp : post (f s.dev)) :
    Completes c s post := by
  have hf : (f s.dev).withLife s.dev.life = f s.dev := by rw [← hl]; rfl
  exact ⟨_, hc.trans (State.clocked_runs f hr hh), rfl, by rw [hf]; exact hp⟩

/-- A command of a unit whose update leaves the device as it was changes nothing. -/
theorem exec_of_unchanged {c : Instr} {s : State} {halted : Dev → Bool} {f : Dev → Dev} (hc : exec c s = s.clocked halted f)
    (hf : f s.dev = s.dev) : exec c s = .next s := by
  rw [hc]
  unfold State.clocked State.live
  dsimp only
  rw [hf, ite_self]
  split <;> rfl

end Sys2Proof.Machine
end

section
/-! The bytes of a frame, and the pauses that the device sends its partners (R68): which words and parts they move, what is sent, what is
counted. -/

namespace Sys2Proof.Machine

/-! ### The bytes of a frame -/

theorem padTo_of_length_le {n : Nat} {bs : List Byte} (h : bs.length ≤ n) : padTo n bs = bs ++ zeros (n - bs.length) := by
  unfold padTo
  rw [List.take_of_length_le h]

theorem beAt_append_right {xs ys : List Byte} {o i n : Nat} (h : xs.length = o) : beAt (xs ++ ys) (o + i) n = beAt ys i n := by
  subst h
  have hd : xs.drop (xs.length + i) = [] := List.drop_eq_nil_of_le (by omega)
  simp [beAt, sub, List.drop_append, hd]

theorem beAt_append_left {xs ys : List Byte} {o n : Nat} (h : o + n ≤ xs.length) : beAt (xs ++ ys) o n = beAt xs o n := by
  have hs : sub (xs ++ ys) o n = sub xs o n := by
    unfold sub
    rw [List.drop_append_of_le_length (by omega), List.take_append_of_le_length (by rw [List.length_drop]; omega)]
  unfold beAt
  rw [hs]

/-! ### A pause sent (R68) -/

namespace Dev

/-- The pause that the device sends on a sub-port, of `q` quanta: PAUSE, or PFC for all 8 classes. -/
def pauseHead (d : Dev) : List Byte := beBytes 6 0x0180C2000001 ++ d.macBytes ++ beBytes 2 0x8808

/-- What follows the Ethertype of the pause. -/
def pauseBody (pfc : Bool) (q : Nat) : List Byte :=
  if pfc then beBytes 2 0x0101 ++ beBytes 2 0x00FF ++ (List.replicate 8 (beBytes 2 q)).flatten else beBytes 2 0x0001 ++ beBytes 2 q

/-- The pause as it leaves. -/
def pauseFrame (d : Dev) (q : Nat) : List Byte :=
  padTo 60 (d.pauseHead ++ pauseBody (d.on R.PORT_CFG_TX_FC_PFC) q)

theorem length_pauseHead (d : Dev) : d.pauseHead.length = 14 := by simp [pauseHead, macBytes]

theorem length_pauseBody_le (pfc : Bool) (q : Nat) : (pauseBody pfc q).length ≤ 20 := by
  cases pfc <;> simp [pauseBody]

theorem pauseFrame_eq (d : Dev) (q : Nat) :
    ∃ n, d.pauseFrame q = d.pauseHead ++ (pauseBody (d.on R.PORT_CFG_TX_FC_PFC) q ++ zeros n) := by
  have hb := length_pauseBody_le (d.on R.PORT_CFG_TX_FC_PFC) q
  refine ⟨_, (padTo_of_length_le ?_).trans (List.append_assoc _ _ _)⟩
  rw [List.length_append, length_pauseHead]
  omega

theorem sendPause_eq (d : Dev) (sp q : Nat) : d.sendPause sp q = if d.up sp then
    (d.send sp (d.pauseHead ++ pauseBody (d.on R.PORT_CFG_TX_FC_PFC) q)).bump (C.PORT_TX_PAUSE sp) else d := rfl

theorem beAt_pauseFrame_da (d : Dev) (q : Nat) : beAt (d.pauseFrame q) 0 6 = 0x0180C2000001 := by
  obtain ⟨n, hn⟩ := d.pauseFrame_eq q
  rw [hn, beAt_append_left (by simp [length_pauseHead]), pauseHead, List.append_assoc, beAt_append_left (by decide)]
  decide

theorem beAt_pauseFrame_type (d : Dev) (q : Nat) : beAt (d.pauseFrame q) 12 2 = 0x8808 := by
  obtain ⟨n, hn⟩ := d.pauseFrame_eq q
  rw [hn, beAt_append_left (by simp [length_pauseHead]), pauseHead, beAt_append_right (i := 0) (by simp [macBytes])]
  decide

theorem beAt_pauseFrame_body (d : Dev) (q : Nat) {i n : Nat} (h : i + n ≤ (pauseBody (d.on R.PORT_CFG_TX_FC_PFC) q).length) :
    beAt (d.pauseFrame q) (14 + i) n = beAt (pauseBody (d.on R.PORT_CFG_TX_FC_PFC) q) i n := by
  obtain ⟨m, hm⟩ := d.pauseFrame_eq q
  rw [hm, beAt_append_right d.length_pauseHead, beAt_append_left h]

/-- A pause sees of the device its address and the form of its pauses. -/
theorem pauseFrame_congr {d e : Dev} (hm : e.get R.PORT_MAC_ADDR_MAC = d.get R.PORT_MAC_ADDR_MAC)
    (hp : e.on R.PORT_CFG_TX_FC_PFC = d.on R.PORT_CFG_TX_FC_PFC) (q : Nat) : e.pauseFrame q = d.pauseFrame q := by
  unfold pauseFrame pauseHead macBytes
  rw [hm, hp]

end Dev

/-- The counters that a pause sent on a sub-port moves. -/
def pauseWords (sp : Nat) : List Nat := [C.PORT_TX_PAUSE sp, C.PORT_TX_FRAMES sp, C.PORT_TX_BYTES sp]

theorem pauseWords_subset_flowWords {sp : Nat} (h : sp < 8) : pauseWords sp ⊆ flowWords :=
  fun _ ha => List.mem_cons_of_mem _ (List.mem_flatMap.2 ⟨sp, List.mem_range.2 h, ha⟩)

/-- No word of the port's configuration and of its sub-ports' states is a counter of sent frames. -/
theorem not_mem_flowWords {a : Nat} (h : a < 0x100010000) (hp : a ≠ R.PORT_INLINE_BUF_PEAK_KIB.addr) : a ∉ flowWords := by
  intro ha
  rcases List.mem_cons.1 ha with ha | ha
  · exact hp ha
  · obtain ⟨sp, hs, hm⟩ := List.mem_flatMap.1 ha
    have hlt : sp < 8 := List.mem_range.1 hs
    simp only [C.PORT_TX_PAUSE, C.PORT_TX_FRAMES, C.PORT_TX_BYTES, if_pos hlt, List.mem_cons, List.not_mem_nil, or_false] at hm
    omega

namespace Dev.Moves

variable {d e : Dev} {ws : List Nat} {ps : List Part}

theorem sendPause (h : d.Moves e ws ps) (hp : .port ∈ ps) {sp : Nat} (hw : pauseWords sp ⊆ ws) (q : Nat) :
    d.Moves (e.sendPause sp q) ws ps := by
  rw [Dev.sendPause_eq]
  refine .ite (.bump (.send h hp _ (hw ?_) (hw ?_)) (hw ?_)) h <;> simp [pauseWords]

end Dev.Moves

namespace Dev

/-- A pause sent on some sub-ports, one after the other, each of whose partners is then noted as paused or not. -/
def pauseEach (q : Nat) (paused : Bool) (d : Dev) (sps : List Nat) : Dev :=
  d.each sps fun d sp => (d.sendPause sp q).modSub sp fun s => { s with partnerPaused := paused }

theorem pauseEach_cons (d : Dev) (q : Nat) (b : Bool) (sp : Nat) (sps : List Nat) : d.pauseEach q b (sp :: sps)
    = Dev.pauseEach q b ((d.sendPause sp q).modSub sp fun s => { s with partnerPaused := b }) sps := rfl

theorem moves_pauseEach (d : Dev) (q : Nat) (b : Bool) (sps : List Nat) :
    d.Moves (d.pauseEach q b sps) (sps.flatMap pauseWords) [.port] := by
  refine (Moves.refl d _ _).each fun sp hsp e he => ?_
  exact (he.sendPause (by simp) (fun _ ha => List.mem_flatMap.2 ⟨sp, hsp, ha⟩) q).modSub (by simp) _ _

theorem moves_pauseStep (d : Dev) (q : Nat) (b : Bool) (sp : Nat) :
    d.Moves ((d.sendPause sp q).modSub sp fun s => { s with partnerPaused := b }) (pauseWords sp) [.port] :=
  ((Moves.refl d _ _).sendPause (by simp) (fun _ h => h) q).modSub (by simp) _ _

theorem port_sendPause (d : Dev) (sp q : Nat) : (d.sendPause sp q).port =
    { d.port with sent := d.port.sent ++ if d.up sp then [Sent.frame sp (d.pauseFrame q)] else [] } := by
  have hl : max 60 (d.pauseHead ++ pauseBody (d.on R.PORT_CFG_TX_FC_PFC) q).length = 60 := by
    have := length_pauseBody_le (d.on R.PORT_CFG_TX_FC_PFC) q
    rw [List.length_append, length_pauseHead]
    omega
  rw [sendPause_eq]
  split
  · rename_i hu
    rw [bump_port, port_send hu, hl]
    rfl
  · simp

end Dev

/-- The sub-ports of a list noted as having their partners paused, or not. -/
def notePaused (b : Bool) (sps : List Nat) (subs : List SubPort) : List SubPort :=
  sps.foldl (fun l sp => modifyNth sp (fun s => { s with partnerPaused := b }) l) subs

theorem getD_modifyNth_other {α : Type} {xs : List α} {i j : Nat} (h : j ≠ i) (f : α → α) (x : α) :
    (modifyNth i f xs).getD j x = xs.getD j x := by
  induction xs generalizing i j with
  | nil => simp [modifyNth]
  | cons y ys ih =>
    cases i with
    | zero =>
      obtain ⟨k, rfl⟩ := Nat.exists_eq_succ_of_ne_zero h
      rfl
    | succ i =>
      cases j with
      | zero => rfl
      | succ j => exact ih (by omega)

theorem getD_modifyNth {α : Type} (xs : List α) (i j : Nat) (f : α → α) (x : α) :
    (modifyNth i f xs).getD j x = if j = i ∧ j < xs.length then f (xs.getD j x) else xs.getD j x := by
  split
  · rename_i h
    obtain ⟨rfl, hl⟩ := h
    exact getD_modifyNth_same hl f x
  · rename_i h
    by_cases hj : j = i
    · have hl : xs.length ≤ j := Nat.le_of_not_lt fun hlt => h ⟨hj, hlt⟩
      rw [List.getD_eq_default _ _ (by simpa using hl), List.getD_eq_default _ _ hl]
    · exact getD_modifyNth_other hj f x

theorem getD_notePaused (b : Bool) (sps : List Nat) (subs : List SubPort) (x : Nat) : (notePaused b sps subs).getD x SubPort.empty
    = { subs.getD x SubPort.empty with
        partnerPaused := if x ∈ sps ∧ x < subs.length then b else (subs.getD x SubPort.empty).partnerPaused } := by
  induction sps generalizing subs with
  | nil => simp [notePaused]
  | cons sp sps ih =>
    have hc : notePaused b (sp :: sps) subs = notePaused b sps (modifyNth sp (fun s => { s with partnerPaused := b }) subs) := rfl
    rw [hc, ih, getD_modifyNth, length_modifyNth]
    by_cases hx : x = sp
    · subst hx
      by_cases hl : x < subs.length
      · simp [hl]
      · simp [hl]
    · simp [hx]

namespace Dev

theorem up_of_moves {d e : Dev} {ws : List Nat} {ps : List Part} (h : d.Moves e ws ps) (hw : ws ⊆ flowWords) {sp : Nat} (hs : sp < 8) :
    e.up sp = d.up sp :=
  h.on fun hm => not_mem_flowWords (by simp [R.PORT_SUBPORT_STAT_LINK_UP, hs]; omega)
    (by simp [R.PORT_SUBPORT_STAT_LINK_UP, R.PORT_INLINE_BUF_PEAK_KIB, hs]; omega) (hw hm)

theorem pauseFrame_of_moves {d e : Dev} {ws : List Nat} {ps : List Part} (h : d.Moves e ws ps) (hw : ws ⊆ flowWords) (q : Nat) :
    e.pauseFrame q = d.pauseFrame q :=
  pauseFrame_congr (h.get fun hm => not_mem_flowWords (by decide) (by decide) (hw hm))
    (h.on fun hm => not_mem_flowWords (by decide) (by decide) (hw hm)) q

/-- What the sending of a pause on some sub-ports leaves of the port: a pause more on each that is up, and the partners' marks. -/
theorem port_pauseEach (d : Dev) (q : Nat) (b : Bool) {sps : List Nat} (h : ∀ sp ∈ sps, sp < 8) : (d.pauseEach q b sps).port =
    { d.port with subs := notePaused b sps d.port.subs,
                  sent := d.port.sent ++ (sps.filter d.up).map fun sp => Sent.frame sp (d.pauseFrame q) } := by
  induction sps generalizing d with
  | nil => simp [pauseEach, each, notePaused]
  | cons sp sps ih =>
    obtain ⟨hsp, hsps⟩ := List.forall_mem_cons.1 h
    have hm := d.moves_pauseStep q b sp
    have hw := pauseWords_subset_flowWords hsp
    have hup : sps.filter ((d.sendPause sp q).modSub sp fun s => { s with partnerPaused := b }).up = sps.filter d.up :=
      List.filter_congr fun x hx => up_of_moves hm hw (hsps x hx)
    rw [pauseEach_cons, ih _ hsps, hup, pauseFrame_of_moves hm hw]
    simp only [modSub, port_sendPause, List.filter_cons, notePaused, List.foldl_cons]
    split <;> simp

theorem txPause_mem_pauseWords {sp x : Nat} (hs : sp < 8) (hx : x < 8) (h : C.PORT_TX_PAUSE sp ∈ pauseWords x) : sp = x := by
  simp only [pauseWords, C.PORT_TX_PAUSE, C.PORT_TX_FRAMES, C.PORT_TX_BYTES, if_pos hs, if_pos hx, List.mem_cons, List.not_mem_nil,
    or_false] at h
  omega

theorem counts_sendPause {d : Dev} {sp : Nat} (hs : sp < 8) (hu : d.up sp = true) (q : Nat) :
    d.Counts (d.sendPause sp q) (C.PORT_TX_PAUSE sp) 1 := by
  rw [sendPause_eq, if_pos hu, Counts, word_bump_same]
  have hm := (Moves.refl d [C.PORT_TX_FRAMES sp, C.PORT_TX_BYTES sp] [.port]).send (by simp) (sp := sp)
    (d.pauseHead ++ pauseBody (d.on R.PORT_CFG_TX_FC_PFC) q) (by simp) (by simp)
  rw [hm.words]
  simp only [C.PORT_TX_PAUSE, C.PORT_TX_FRAMES, C.PORT_TX_BYTES, if_pos hs, List.mem_cons, List.not_mem_nil, or_false]
  omega

/-- Each sub-port of the list that is up counts one pause. -/
theorem counts_pauseEach {d : Dev} (q : Nat) (b : Bool) {sps : List Nat} (h : ∀ sp ∈ sps, sp < 8) (hn : sps.Nodup) {sp : Nat}
    (hsp : sp ∈ sps) (hu : d.up sp = true) : d.Counts (d.pauseEach q b sps) (C.PORT_TX_PAUSE sp) 1 := by
  induction sps generalizing d with
  | nil => exact absurd hsp (by simp)
  | cons x xs ih =>
    obtain ⟨hx, hxs⟩ := List.forall_mem_cons.1 h
    obtain ⟨hxn, hxsn⟩ := List.nodup_cons.1 hn
    have hs : sp < 8 := h sp hsp
    have hm := d.moves_pauseStep q b x
    rw [pauseEach_cons]
    by_cases he : sp = x
    · subst he
      refine Moves.counts (y := (d.sendPause sp q).modSub sp fun s => { s with partnerPaused := b }) (counts_sendPause hs hu q)
        (moves_pauseEach _ q b xs) fun hmem => ?_
      obtain ⟨y, hy, hmy⟩ := List.mem_flatMap.1 hmem
      exact hxn (txPause_mem_pauseWords hs (hxs y hy) hmy ▸ hy)
    · have hc := ih hxs hxsn (List.mem_of_ne_of_mem he hsp)
        ((up_of_moves hm (pauseWords_subset_flowWords hx) hs).trans hu)
      unfold Counts at hc ⊢
      rw [hc, hm.words _ fun hmem => he (txPause_mem_pauseWords hs hx hmem)]

end Dev

end Sys2Proof.Machine
end

section
/-! Flow control (R68), the copy of a PTP message to the time base (R62), and where a reception goes (O12). -/

namespace Sys2Proof.Machine

/-! ### Flow control (R68) -/

namespace Dev

theorem inlineUp_lt (d : Dev) : ∀ sp ∈ d.inlineUp, sp < 8 := by
  intro sp h
  have h1 : sp < d.subPorts := List.mem_range.1 (List.mem_of_mem_filter h)
  have h2 : d.subPorts ≤ 2 ^ 3 := Nat.pow_le_pow_right (by decide) (Nat.le_of_lt_succ (d.get_lt R.PORT_CFG_BREAKOUT))
  omega

theorem up_of_mem_inlineUp {d : Dev} {sp : Nat} (h : sp ∈ d.inlineUp) : d.up sp = true :=
  (Bool.and_eq_true_iff.1 (List.mem_filter.1 h).2).1

theorem nodup_inlineUp (d : Dev) : d.inlineUp.Nodup := List.nodup_range.filter _

theorem pausedPartners_lt (d : Dev) : ∀ sp ∈ d.pausedPartners, sp < 8 :=
  fun _ h => List.mem_range.1 (List.mem_of_mem_filter h)

theorem nodup_pausedPartners (d : Dev) : d.pausedPartners.Nodup := List.nodup_range.filter _

theorem releasePartners_eq (d : Dev) : d.releasePartners = d.pauseEach 0 false d.pausedPartners := rfl

theorem pausePartners_eq (d : Dev) : d.pausePartners = { d.pauseEach 0xFFFF true d.inlineUp with
    port := { (d.pauseEach 0xFFFF true d.inlineUp).port with pauseSentNs := (d.pauseEach 0xFFFF true d.inlineUp).clockNs } } := rfl

theorem flatMap_pauseWords_subset {sps : List Nat} (h : ∀ sp ∈ sps, sp < 8) : sps.flatMap pauseWords ⊆ flowWords := by
  intro a ha
  obtain ⟨sp, hsp, hm⟩ := List.mem_flatMap.1 ha
  exact pauseWords_subset_flowWords (h sp hsp) hm

theorem Moves.pauseEach {d e : Dev} {ws : List Nat} {ps : List Part} (h : d.Moves e ws ps) (hp : .port ∈ ps) (hw : flowWords ⊆ ws)
    (q : Nat) (b : Bool) {sps : List Nat} (hs : ∀ sp ∈ sps, sp < 8) : d.Moves (e.pauseEach q b sps) ws ps :=
  h.trans ((e.moves_pauseEach q b sps).mono (fun _ ha => hw (flatMap_pauseWords_subset hs ha)) (by simpa using hp))

theorem Moves.flowControl {d e : Dev} {ws : List Nat} {ps : List Part} (h : d.Moves e ws ps) (hp : .port ∈ ps) (hw : flowWords ⊆ ws) :
    d.Moves e.flowControl ws ps := by
  unfold Dev.flowControl
  dsimp only
  have h1 : d.Moves (e.peak R.PORT_INLINE_BUF_PEAK_KIB (cdiv e.inlineBytes 1024)) ws ps := h.peak (hw (by simp [flowWords]))
  refine .ite (.ite (.ite ?_ h1) (.ite ?_ h1)) h1
  · rw [pausePartners_eq]
    exact (h1.pauseEach hp hw _ _ (inlineUp_lt _)).withPort hp _
  · rw [releasePartners_eq]
    exact h1.pauseEach hp hw _ _ (pausedPartners_lt _)

/-- All that flow control does to the port: partners are marked, frames sent, the time of a pause noted. -/
theorem port_flowControl (d : Dev) : ∃ b sps fs t, d.flowControl.port =
    { d.port with subs := notePaused b sps d.port.subs, sent := d.port.sent ++ fs, pauseSentNs := t } := by
  obtain ⟨e, he⟩ : ∃ e, e = d.peak R.PORT_INLINE_BUF_PEAK_KIB (cdiv d.inlineBytes 1024) := ⟨_, rfl⟩
  have hp : e.port = d.port := he ▸ d.peak_port _ _
  have same : ∃ b sps fs t, e.port =
      { d.port with subs := notePaused b sps d.port.subs, sent := d.port.sent ++ fs, pauseSentNs := t } :=
    ⟨false, [], [], d.port.pauseSentNs, by simp [hp, notePaused]⟩
  unfold flowControl
  dsimp only
  rw [← he]
  split
  · split
    · split
      · rw [pausePartners_eq, port_pauseEach _ _ _ e.inlineUp_lt, hp]
        exact ⟨_, _, _, _, rfl⟩
      · exact same
    · split
      · rw [releasePartners_eq, port_pauseEach _ _ _ e.pausedPartners_lt, hp]
        exact ⟨_, _, _, _, rfl⟩
      · exact same
  · exact same

theorem port_flowControl_off {d : Dev} (h : d.on R.PORT_CFG_TX_FC_EN = false) : d.flowControl.port = d.port := by
  have hon : (d.peak R.PORT_INLINE_BUF_PEAK_KIB (cdiv d.inlineBytes 1024)).on R.PORT_CFG_TX_FC_EN = false := by
    unfold on
    rw [get_peak_other _ _ _ _ (by decide)]
    exact h
  unfold flowControl
  dsimp only
  rw [if_neg (by simp [hon]), peak_port]

/-! ### PTP messages (R62, R515, R516) -/

/-- The parts that a PTP message may move. -/
def servoParts : List Part := [.lpe, .time, .sup]

/-- The one word of `LPE_TIME_STAT`. -/
theorem timeStat_mem_ptpWords (sp : Nat) : R.LPE_TIME_STAT_LOCKED.addr ∈ ptpWords sp := by simp [ptpWords]

namespace Moves

variable {d e : Dev} {sp : Nat}

theorem withServo (h : d.Moves e (ptpWords sp) servoParts) (x : Loupe) : d.Moves { e with lpe := x } (ptpWords sp) servoParts :=
  h.withLpe (by decide) x

theorem putTimeStat (h : d.Moves e (ptpWords sp) servoParts) {f : Fld} (hf : f.addr = R.LPE_TIME_STAT_LOCKED.addr := by rfl) {v : Nat} :
    d.Moves (e.put f v) (ptpWords sp) servoParts :=
  h.put (hf ▸ timeStat_mem_ptpWords sp)

theorem servoHeard (h : d.Moves e (ptpWords sp) servoParts) : d.Moves e.servoHeard (ptpWords sp) servoParts :=
  (h.withServo _).putTimeStat

theorem stepTime (h : d.Moves e (ptpWords sp) servoParts) (t frac : Nat) :
    d.Moves { e.stepTime t with frac := frac } (ptpWords sp) servoParts :=
  (h.withTime (by decide) t frac).withSup (by decide) _

theorem servoOffset (h : d.Moves e (ptpWords sp) servoParts) (off : Int) : d.Moves (e.servoOffset off) (ptpWords sp) servoParts :=
  have h1 : d.Moves _ (ptpWords sp) servoParts :=
    .ite (h.servoHeard.putTimeStat.withServo _).putTimeStat
      (.ite (h.servoHeard.putTimeStat.withServo _).putTimeStat (h.servoHeard.putTimeStat.withServo _))
  .ite ((h1.stepTime _ _).putTimeStat.bump (by simp [ptpWords])) h1.draw.putTimeStat

theorem ptpMeasured (h : d.Moves e (ptpWords sp) servoParts) (diff : Int) : d.Moves (e.ptpMeasured diff) (ptpWords sp) servoParts :=
  .ite (.ite (h.withServo _).servoHeard ((h.withServo _).servoOffset _)) ((h.withServo _).servoOffset _)

theorem ptpMessage (h : d.Moves e (ptpWords sp) servoParts) (m : List Byte) (stamp : Nat) :
    d.Moves (e.ptpMessage m stamp) (ptpWords sp) servoParts := by
  unfold Dev.ptpMessage
  dsimp only
  refine .ite h (.ite (.ite (h.withServo _).servoHeard (h.ptpMeasured _)) (.ite ?followUp (.ite ?delayResp h)))
  case followUp =>
    split
    · exact .ite (h.ptpMeasured _) h
    · exact h
  case delayResp =>
    split
    · exact .ite (h.withServo _) h
    · exact h

theorem ptpCopy (h : d.Moves e (ptpWords sp) servoParts) (f : List Byte) (stamp : Nat) :
    d.Moves (e.ptpCopy sp f stamp) (ptpWords sp) servoParts := by
  refine .ite ?_ h
  split
  · exact .ite ((h.bump (by simp [ptpWords])).ptpMessage _ _) h
  · exact h

end Moves

end Dev

end Sys2Proof.Machine
end

section
/-! Counters raised one after the other, and where a reception goes (O12). -/

namespace Sys2Proof.Machine

/-- A counter raised once on the way from `d` to `e`, and moved by nothing before or after. -/
theorem Dev.counts_of_bump {d y e : Dev} {ws ws' : List Nat} {ps ps' : List Part} {a n : Nat} (h : d.Moves y ws ps) (ha : a ∉ ws)
    (h' : (y.bump a n).Moves e ws' ps') (ha' : a ∉ ws') : d.Counts e a n := by
  rw [Dev.Counts, h'.words a ha', Dev.word_bump_same, h.words a ha]

/-- Counters raised one after the other. -/
def Dev.bumps (d : Dev) (xs : List (Nat × Nat)) : Dev := d.each xs fun d x => d.bump x.1 x.2

theorem Dev.moves_bumps (d : Dev) (xs : List (Nat × Nat)) (ps : List Part) : d.Moves (d.bumps xs) (xs.map (·.1)) ps :=
  (Moves.refl d _ _).each fun _ hx _ he => he.bump (List.mem_map_of_mem hx)

theorem Dev.counts_bumps {d e : Dev} {xs : List (Nat × Nat)} (hn : (xs.map (·.1)).Nodup) {ws : List Nat} {ps : List Part}
    (h : (d.bumps xs).Moves e ws ps) {a n : Nat} (hx : (a, n) ∈ xs) (hw : a ∉ ws) : d.Counts e a n := by
  induction xs generalizing d with
  | nil => exact absurd hx (by simp)
  | cons y ys ih =>
    obtain ⟨hy, hys⟩ := List.nodup_cons.1 hn
    have hc : d.bumps (y :: ys) = (d.bump y.1 y.2).bumps ys := rfl
    rw [hc] at h
    rcases List.mem_cons.1 hx with rfl | hx
    · have hb := ((d.bump a n).moves_bumps ys ps).mono (List.subset_append_left _ ws) (fun _ h => h)
      exact counts_of_bump (Moves.refl d [] ps) (by simp) (hb.trans (h.mono (List.subset_append_right _ _) (fun _ h => h)))
        (by simp only [List.mem_append, not_or]; exact ⟨hy, hw⟩)
    · have hne : a ≠ y.1 := ne_of_mem_of_not_mem (List.mem_map_of_mem hx) hy
      have := ih hys h hx
      rwa [Counts, Dev.word_bump_other _ _ hne] at this

/-! ### What every reception counts (R59, R60) -/

/-- The words that a good reception counts in. -/
def rxWords (sp : Nat) : List Nat := [C.PORT_FEC_UNCORR sp, C.PORT_FEC_CORR sp, C.PORT_RX_FRAMES sp, C.PORT_RX_BYTES sp]

/-- The counters of a reception are counters of their own. -/
theorem rxWords_apart : ∀ sp : Fin 8, ∀ a ∈ C.PORT_RX_BUF_FULL sp.val :: rxWords sp.val, a ∉ ptpWords sp.val ++ flowWords := by decide

theorem nodup_badCounts : ∀ sp : Fin 8, [C.PORT_FEC_CORR sp.val, C.PORT_FEC_UNCORR sp.val, C.PORT_RX_RUNT sp.val].Nodup
    ∧ [C.PORT_FEC_CORR sp.val, C.PORT_FEC_UNCORR sp.val, C.PORT_RX_OVERSIZE sp.val].Nodup := by decide

theorem nodup_goodCounts : ∀ sp : Fin 8, [C.PORT_FEC_CORR sp.val, C.PORT_FEC_UNCORR sp.val, C.PORT_RX_FRAMES sp.val,
    C.PORT_RX_BYTES sp.val].Nodup := by decide

theorem rxBufFull_apart : ∀ sp : Fin 8, C.PORT_RX_BUF_FULL sp.val ∉ rxWords sp.val ++ ptpWords sp.val := by decide

/-- What a reception counts: its codewords, and `more`. -/
def rxCounts (sp unc cor : Nat) (more : List (Nat × Nat)) : List (Nat × Nat) :=
  (C.PORT_FEC_CORR sp, cor) :: (C.PORT_FEC_UNCORR sp, unc) :: more

/-- What a good reception of `n` bytes counts. -/
def goodCounts (sp cor n : Nat) : List (Nat × Nat) := rxCounts sp 0 cor [(C.PORT_RX_FRAMES sp, 1), (C.PORT_RX_BYTES sp, n)]

namespace Dev

/-- A reception that is no good: its codewords and one more counter have counted, Loupe's health record has moved. -/
theorem moves_badReception {d : Dev} {sp unc cor a : Nat} (ha : [C.PORT_FEC_CORR sp, C.PORT_FEC_UNCORR sp, a].Nodup) (event : Nat) :
    let e := (d.bumps (rxCounts sp unc cor [(a, 1)])).health event sp
    (d.Counts e (C.PORT_FEC_UNCORR sp) unc ∧ d.Counts e (C.PORT_FEC_CORR sp) cor) ∧ d.Counts e a 1
      ∧ d.Moves e (a :: rxWords sp) [.lpe] := by
  intro e
  have hn : ((rxCounts sp unc cor [(a, 1)]).map (·.1)).Nodup := ha
  have he : (d.bumps (rxCounts sp unc cor [(a, 1)])).Moves e [] [.lpe] := (Moves.refl _ _ _).health (by simp) event sp 0
  refine ⟨⟨?_, ?_⟩, ?_, ?_⟩
  · exact counts_bumps hn he (by simp [rxCounts]) (by simp)
  · exact counts_bumps hn he (by simp [rxCounts]) (by simp)
  · exact counts_bumps hn he (by simp [rxCounts]) (by simp)
  · exact ((d.moves_bumps _ _).mono (by simp [rxCounts, rxWords]) (fun _ h => h)).trans (he.mono (by simp) (fun _ h => h))

/-- What a good reception leaves of its counts, when nothing after it moves them. -/
theorem moves_goodReception {d e : Dev} {sp : Fin 8} {cor n : Nat} {ws : List Nat} {ps : List Part}
    (h : (d.bumps (goodCounts sp.val cor n)).Moves e ws ps) (hw : ∀ a ∈ rxWords sp.val, a ∉ ws) :
    ((d.Counts e (C.PORT_FEC_UNCORR sp.val) 0 ∧ d.Counts e (C.PORT_FEC_CORR sp.val) cor)
      ∧ d.Counts e (C.PORT_RX_FRAMES sp.val) 1 ∧ d.Counts e (C.PORT_RX_BYTES sp.val) n ∧ d.KeepsMemory e)
      ∧ d.Moves e (rxWords sp.val ++ ws) ps := by
  have hn : ((goodCounts sp.val cor n).map (·.1)).Nodup := nodup_goodCounts sp
  have hm : d.Moves e (rxWords sp.val ++ ws) ps := ((d.moves_bumps _ ps).mono (by simp [goodCounts, rxCounts, rxWords]) (fun _ h => h)).trans
    (h.mono (List.subset_append_right _ _) (fun _ h => h))
  refine ⟨⟨⟨?_, ?_⟩, ?_, ?_, hm.memory⟩, hm⟩
  · exact counts_bumps hn h (by simp [goodCounts, rxCounts]) (hw _ (by simp [rxWords]))
  · exact counts_bumps hn h (by simp [goodCounts, rxCounts]) (hw _ (by simp [rxWords]))
  · exact counts_bumps hn h (by simp [goodCounts, rxCounts]) (hw _ (by simp [rxWords]))
  · exact counts_bumps hn h (by simp [goodCounts, rxCounts]) (hw _ (by simp [rxWords]))

/-! ### The way of a good reception (R17, R60, R62, R78) -/

theorem receive_runt {d : Dev} {sp unc cor : Nat} {bytes : List Byte} (hu : d.up sp = true) (h : bytes.length < 64) :
    d.receive sp bytes unc cor = (d.bumps (rxCounts sp unc cor [(C.PORT_RX_RUNT sp, 1)])).health 1 sp := by
  unfold receive
  rw [if_neg (by simp [hu])]
  exact if_pos h

theorem receive_oversize {d : Dev} {sp unc cor : Nat} {bytes : List Byte} (hu : d.up sp = true) (h : 9216 < bytes.length) :
    d.receive sp bytes unc cor = (d.bumps (rxCounts sp unc cor [(C.PORT_RX_OVERSIZE sp, 1)])).health 1 sp := by
  unfold receive
  rw [if_neg (by simp [hu])]
  exact (if_neg (by omega)).trans (if_pos h)

end Dev

/-- A frame whose Ethertype, behind at most one tag, is one of the device's own or that of MAC Control is no PTP message. -/
theorem ptpOffset_eq_none {f : List Byte} (h : (etherOf f).1 ∈ [0x8808, 0x88B5, 0x88B6]) : ptpOffset f = none := by
  have other {t : Nat} (ht : t ∈ [0x8808, 0x88B5, 0x88B6]) :
      t ≠ 0x88F7 ∧ t ≠ 0x0800 ∧ t ≠ 0x86DD ∧ t ≠ 0x8100 ∧ t ≠ 0x88A8 := by
    simp only [List.mem_cons, List.not_mem_nil, or_false] at ht
    omega
  unfold etherOf at h
  unfold ptpOffset
  split at h
  · rename_i hTag
    obtain ⟨h1, h2, h3, h4, h5⟩ := other h
    simp only [hTag, h1, h2, h3, h4, h5, decide_false, Bool.or_self, Bool.false_and, Bool.false_eq_true, if_false, if_true]
  · rename_i hTag
    obtain ⟨h1, h2, h3, h4, h5⟩ := other h
    simp only [h1, h2, h3, h4, h5, decide_false, Bool.or_self, Bool.false_and, Bool.false_eq_true, if_false]

/-- Whether a frame is a control request, as the port tells it. -/
def isControl (f : List Byte) : Bool := (etherOf f).1 = 0x88B5 && (byteAt f ((etherOf f).2 + 2)).toNat = 1

namespace Dev

theorem ptpCopy_of_none {f : List Byte} (h : ptpOffset f = none) (d : Dev) (sp stamp : Nat) : d.ptpCopy sp f stamp = d := by
  unfold ptpCopy
  rw [h]
  exact ite_self _

theorem etherOf_of_macControl {f : List Byte} (h : beAt f 12 2 = 0x8808) : (etherOf f).1 = 0x8808 := by
  simp [etherOf, h]

theorem ne_macControl_of_etherOf {f : List Byte} {t : Nat} (h : (etherOf f).1 = t) (ht : t ≠ 0x8808) : beAt f 12 2 ≠ 0x8808 :=
  fun hm => ht (h.symm.trans (etherOf_of_macControl hm))

/-- Whether a frame is a Hall frame, as the port tells it. -/
def isHall (d : Dev) (sp : Nat) (f : List Byte) : Bool :=
  (etherOf f).1 = 0x88B6 && d.on R.TKP_MODE_FABRIC_HALL && sp = d.get R.PORT_CFG_HALL_SUBPORT

theorem routeFrame_eq (d : Dev) (sp : Nat) (f : List Byte) (stamp : Nat) : d.routeFrame sp f stamp =
    if beAt f 12 2 = 0x8808 then { d with port := { d.port with macCtl := d.port.macCtl ++ [⟨sp, f, stamp⟩] } }
    else if isControl f then { d with port := { d.port with ctlRx := d.port.ctlRx ++ [⟨sp, f, stamp⟩] } }
    else if d.isHall sp f then { d with port := { d.port with hallRx := d.port.hallRx ++ [⟨sp, f, stamp⟩] } }
    else d.dataFrame sp f stamp := rfl

end Dev

/-! ### The data path (R17, R44) -/

namespace Dev

/-- Whether a sub-port has room for a frame of `n` bytes without its FCS: an inline one, in the inline buffer. -/
def hasRoom (d : Dev) (sp n : Nat) : Bool := d.mode sp != 0 || decide (d.inlineBytes + heldBytes n ≤ 8 * 2 ^ 20)

/-- The device with a packet more at the end of its packet path. -/
def addPacket (d : Dev) (p : Packet) : Dev :=
  { d with port := { d.port with nextPacket := d.port.nextPacket + 1 }, front := { d.front with packets := d.front.packets ++ [p] } }

theorem dataFrame_closed {d : Dev} (h : d.get R.LCS_STAT_STATE ≠ 2) (sp : Nat) (f : List Byte) (stamp : Nat) :
    d.dataFrame sp f stamp = d := if_pos (by simp [h])

theorem dataFrame_full {d : Dev} {sp : Nat} {f : List Byte} (h : d.get R.LCS_STAT_STATE = 2) (hr : d.hasRoom sp f.length = false)
    (stamp : Nat) : d.dataFrame sp f stamp = d.bump (C.PORT_RX_BUF_FULL sp) := by
  simp only [hasRoom, Bool.or_eq_false_iff, bne_eq_false_iff_eq, decide_eq_false_iff_not, not_le] at hr
  exact (if_neg (by simp [h])).trans (if_pos (by simpa [hr.1] using hr.2))

theorem dataFrame_joins {d : Dev} {sp : Nat} {f : List Byte} (h : d.get R.LCS_STAT_STATE = 2) (hr : d.hasRoom sp f.length = true)
    (stamp : Nat) : d.dataFrame sp f stamp = (d.addPacket (d.newPacket sp f stamp)).flowControl := by
  simp only [hasRoom, Bool.or_eq_true, bne_iff_ne, ne_eq, decide_eq_true_eq] at hr
  refine (if_neg (by simp [h])).trans (if_neg ?_)
  simp only [Bool.and_eq_true, decide_eq_true_eq, not_and, not_lt]
  exact fun hm => hr.resolve_left (not_not.2 hm)

/-- What the data path sees of a device: its port, the packets, the life-cycle state, the sub-port's mode and default class. -/
theorem hasRoom_of_moves {d e : Dev} {ws : List Nat} {ps : List Part} (h : d.Moves e ws ps) (hp : .port ∉ ps) (hf : .front ∉ ps)
    {sp : Nat} (hw : (R.PORT_SUBPORT_STAT_MODE_ACTIVE sp).addr ∉ ws) (n : Nat) : e.hasRoom sp n = d.hasRoom sp n := by
  have hport : e.port = d.port := h.parts .port hp
  have hfront : e.front = d.front := h.parts .front hf
  unfold hasRoom mode inlineBytes
  rw [h.get hw, hport, hfront]

end Dev

/-- The configuration and the states that a reception sees. -/
def seenWords (sp : Nat) : List Nat :=
  [R.LCS_STAT_STATE.addr, (R.PORT_SUBPORT_STAT_MODE_ACTIVE sp).addr, (R.PORT_SUBPORT_CFG_PFC_DEFAULT_CLASS sp).addr,
   R.TKP_MODE_FABRIC_HALL.addr, R.PORT_CFG_HALL_SUBPORT.addr]

theorem seenWords_apart : ∀ sp : Fin 8, ∀ a ∈ seenWords sp.val, a ∉ rxWords sp.val ++ ptpWords sp.val := by decide

/-! ### A good reception (R17, R60, R62) -/

section

variable {d : Dev} {sp : Fin 8} {cor : Nat} {bytes : List Byte}

/-- The device with a good reception of `n` bytes counted. -/
def Dev.counted (d : Dev) (sp cor n : Nat) : Dev := d.bumps (goodCounts sp cor n)

theorem Dev.moves_counted (d : Dev) (sp cor n : Nat) (ps : List Part) : d.Moves (d.counted sp cor n) (rxWords sp) ps :=
  (d.moves_bumps _ ps).mono (by simp [goodCounts, rxCounts, rxWords]) (fun _ h => h)

theorem Dev.get_counted (d : Dev) (sp : Fin 8) (cor n : Nat) {f : Fld} (h : f.addr ∈ seenWords sp.val) :
    (d.counted sp.val cor n).get f = d.get f :=
  (d.moves_counted sp.val cor n []).get fun hm => seenWords_apart sp _ h (List.mem_append_left _ hm)

theorem Dev.port_counted (d : Dev) (sp cor n : Nat) : (d.counted sp cor n).port = d.port :=
  (d.moves_counted sp cor n []).parts .port (by simp)

theorem Dev.rxStamp_counted (d : Dev) (sp : Fin 8) (cor n m : Nat) : (d.counted sp.val cor n).rxStamp m = d.rxStamp m := by
  have hb : (d.counted sp.val cor n).get R.PORT_CFG_BREAKOUT = d.get R.PORT_CFG_BREAKOUT := by
    refine d.get_counted sp cor n ?_
    simp [seenWords, R.PORT_CFG_BREAKOUT, R.PORT_CFG_HALL_SUBPORT]
  unfold Dev.rxStamp Dev.subPorts
  rw [((d.moves_counted sp.val cor n []).parts .time (by simp)).1, hb]

theorem Dev.isHall_of_moves {d e : Dev} {sp : Nat} {ws : List Nat} {ps : List Part} (h : d.Moves e ws ps)
    (hw : ∀ a ∈ seenWords sp, a ∉ ws) (f : List Byte) : e.isHall sp f = d.isHall sp f := by
  unfold Dev.isHall
  rw [h.on (hw _ (by simp [seenWords])), h.get (hw _ (by simp [seenWords]))]

theorem Dev.isHall_counted (d : Dev) (sp : Fin 8) (cor n : Nat) (f : List Byte) :
    (d.counted sp.val cor n).isHall sp.val f = d.isHall sp.val f :=
  Dev.isHall_of_moves (d.moves_counted sp.val cor n []) (fun a ha hm => seenWords_apart sp a ha (List.mem_append_left _ hm)) f

/-- A reception that every check passes. -/
structure Dev.Receives (d : Dev) (sp : Nat) (bytes : List Byte) : Prop where
  up : d.up sp = true
  least : 64 ≤ bytes.length
  most : bytes.length ≤ 9216
  fcs : bytes.drop (bytes.length - 4) = fcsBytes (bytes.take (bytes.length - 4))

/-- The frame of a reception, without its FCS. -/
def frameOf (bytes : List Byte) : List Byte := bytes.take (bytes.length - 4)

namespace Dev.Receives

variable (h : d.Receives sp.val bytes)
include h

theorem receive_eq (cor : Nat) : d.receive sp.val bytes 0 cor =
    ((d.counted sp.val cor bytes.length).ptpCopy sp.val (frameOf bytes) (d.rxStamp bytes.length)).routeFrame sp.val (frameOf bytes)
      (d.rxStamp bytes.length) := by
  have hr : d.receive sp.val bytes 0 cor = ((d.counted sp.val cor bytes.length).ptpCopy sp.val (frameOf bytes)
      ((d.counted sp.val cor bytes.length).rxStamp bytes.length)).routeFrame sp.val (frameOf bytes)
      ((d.counted sp.val cor bytes.length).rxStamp bytes.length) := by
    have hlow := h.least
    have hhigh := h.most
    unfold Dev.receive
    rw [if_neg (by simp [h.up])]
    exact (if_neg (by omega)).trans ((if_neg (by omega)).trans (if_neg (by simp [h.fcs])))
  rw [hr, d.rxStamp_counted]

theorem receive_of_none (cor : Nat) (hn : ptpOffset (frameOf bytes) = none) : d.receive sp.val bytes 0 cor =
    (d.counted sp.val cor bytes.length).routeFrame sp.val (frameOf bytes) (d.rxStamp bytes.length) := by
  rw [h.receive_eq, Dev.ptpCopy_of_none hn]

theorem receive_macControl (cor : Nat) (hm : beAt (frameOf bytes) 12 2 = 0x8808) : d.receive sp.val bytes 0 cor =
    { d.counted sp.val cor bytes.length with
      port := { d.port with macCtl := d.port.macCtl ++ [⟨sp.val, frameOf bytes, d.rxStamp bytes.length⟩] } } := by
  rw [h.receive_of_none cor (ptpOffset_eq_none (by simp [Dev.etherOf_of_macControl hm])), Dev.routeFrame_eq, if_pos hm, d.port_counted]

theorem receive_control (cor : Nat) (hc : isControl (frameOf bytes) = true) : d.receive sp.val bytes 0 cor =
    { d.counted sp.val cor bytes.length with
      port := { d.port with ctlRx := d.port.ctlRx ++ [⟨sp.val, frameOf bytes, d.rxStamp bytes.length⟩] } } := by
  have hty : (etherOf (frameOf bytes)).1 = 0x88B5 := of_decide_eq_true (Bool.and_eq_true_iff.1 hc).1
  rw [h.receive_of_none cor (ptpOffset_eq_none (by simp [hty])), Dev.routeFrame_eq,
    if_neg (Dev.ne_macControl_of_etherOf hty (by decide)), if_pos hc, d.port_counted]

theorem receive_hall (cor : Nat) (hh : d.isHall sp.val (frameOf bytes) = true) : d.receive sp.val bytes 0 cor =
    { d.counted sp.val cor bytes.length with
      port := { d.port with hallRx := d.port.hallRx ++ [⟨sp.val, frameOf bytes, d.rxStamp bytes.length⟩] } } := by
  have hty : (etherOf (frameOf bytes)).1 = 0x88B6 := by
    simp only [Dev.isHall, Bool.and_eq_true, decide_eq_true_eq] at hh
    exact hh.1.1
  rw [h.receive_of_none cor (ptpOffset_eq_none (by simp [hty])), Dev.routeFrame_eq,
    if_neg (Dev.ne_macControl_of_etherOf hty (by decide)), if_neg (by simp [isControl, hty]), if_pos (by rwa [d.isHall_counted]),
    d.port_counted]

/-- A frame that is none of these joins the data path, after its copy to the time base if it is a PTP message. -/
theorem receive_data (cor : Nat) (hm : beAt (frameOf bytes) 12 2 ≠ 0x8808) (hc : isControl (frameOf bytes) = false)
    (hh : d.isHall sp.val (frameOf bytes) = false) : ∃ e, (d.counted sp.val cor bytes.length).Moves e (ptpWords sp.val) Dev.servoParts
      ∧ d.receive sp.val bytes 0 cor = e.dataFrame sp.val (frameOf bytes) (d.rxStamp bytes.length) := by
  have he := (Dev.Moves.refl (d.counted sp.val cor bytes.length) (ptpWords sp.val) Dev.servoParts).ptpCopy (frameOf bytes)
    (d.rxStamp bytes.length)
  have hhe := Dev.isHall_of_moves he (fun a ha hw => seenWords_apart sp a ha (List.mem_append_right _ hw)) (frameOf bytes)
  rw [d.isHall_counted, hh] at hhe
  refine ⟨_, he, ?_⟩
  rw [h.receive_eq, Dev.routeFrame_eq, if_neg hm, if_neg (by simp [hc]), if_neg (by simp [hhe])]

end Dev.Receives

/-- What the words and counters of a good reception say of the device after it (R59, R60). -/
def Dev.Took (d e : Dev) (sp cor n : Nat) : Prop :=
  (d.Counts e (C.PORT_FEC_UNCORR sp) 0 ∧ d.Counts e (C.PORT_FEC_CORR sp) cor) ∧ d.Counts e (C.PORT_RX_FRAMES sp) 1
    ∧ d.Counts e (C.PORT_RX_BYTES sp) n ∧ d.KeepsMemory e

theorem Dev.took_of_moves {e : Dev} {n : Nat} {ws : List Nat} {ps : List Part} (h : (d.counted sp.val cor n).Moves e ws ps)
    (hw : ∀ a ∈ rxWords sp.val, a ∉ ws) : d.Took e sp.val cor n ∧ d.Moves e (rxWords sp.val ++ ws) ps :=
  Dev.moves_goodReception h hw

/-- A reception that the port itself takes has moved nothing but the port and its counts. -/
theorem Dev.took_withPort (d : Dev) (sp : Fin 8) (cor n : Nat) (p : Port) :
    let e := { d.counted sp.val cor n with port := p }
    d.Took e sp.val cor n ∧ d.Moves e (rxWords sp.val) [.port] := by
  have hm := (Dev.Moves.refl (d.counted sp.val cor n) [] [.port]).withPort (by simp) p
  have ht := Dev.took_of_moves hm (by simp)
  rwa [List.append_nil] at ht

end

theorem Dev.moves_addPacket (d : Dev) (p : Packet) (ws : List Nat) : d.Moves (d.addPacket p) ws [.front, .port] := by
  have hm := (Dev.Moves.refl d ws [.front, .port]).withPort (by simp) { d.port with nextPacket := d.port.nextPacket + 1 }
  exact hm.withFront (by simp) { d.front with packets := d.front.packets ++ [p] }

/-- A data frame that has joined the packet path: the packet at its end, the next packet's number, flow control's moves. -/
theorem Dev.joined {d e : Dev} {sp : Fin 8} {ws : List Nat} (h : d.Moves e ws Dev.servoParts) (hw : ∀ a ∈ seenWords sp.val, a ∉ ws)
    (f : List Byte) (stamp : Nat) :
    let x := (e.addPacket (e.newPacket sp f stamp)).flowControl
    e.Moves x flowWords [.front, .port]
      ∧ (∃ p : Packet, x.front = { d.front with packets := d.front.packets ++ [p] } ∧ p.id = d.port.nextPacket ∧ p.frame = f
          ∧ p.sp = sp.val ∧ p.rxTime = stamp ∧ p.mode = d.mode sp.val ∧ p.cls = d.classOf sp.val f ∧ p.stage = .arrived)
      ∧ x.port.nextPacket = d.port.nextPacket + 1 ∧ x.port.received = d.port.received
      ∧ (d.on R.PORT_CFG_TX_FC_EN = false → x.port = { d.port with nextPacket := d.port.nextPacket + 1 }) := by
  obtain ⟨z, hz⟩ : ∃ z, z = e.addPacket (e.newPacket sp f stamp) := ⟨_, rfl⟩
  have hport : e.port = d.port := h.parts .port (by decide)
  have hfront : e.front = d.front := h.parts .front (by decide)
  have hcls : e.classOf sp f = d.classOf sp f := by
    unfold Dev.classOf
    rw [h.get (hw _ (by simp [seenWords]))]
  obtain ⟨b, sps, fs, t, hx⟩ := z.port_flowControl
  intro x
  have hxz : x = z.flowControl := hz ▸ rfl
  have hez : e.Moves z flowWords [.front, .port] := hz ▸ e.moves_addPacket _ _
  rw [hxz]
  refine ⟨hez.flowControl (by simp) (fun _ h => h), ⟨e.newPacket sp f stamp, ?_, ?_, rfl, rfl, rfl, ?_, hcls, rfl⟩, ?_, ?_, fun hoff => ?_⟩
  · rw [Dev.front_of_sansPort z.flowControl_sansPort, hz, Dev.addPacket, hfront]
  · exact congrArg Port.nextPacket hport
  · exact h.get (hw _ (by simp [seenWords]))
  · rw [hx, hz, Dev.addPacket, hport]
  · rw [Dev.flowControl_received, hz, Dev.addPacket, hport]
    rfl
  · have hzo : z.on R.PORT_CFG_TX_FC_EN = false := by
      rw [← hoff, ← h.on (f := R.PORT_CFG_TX_FC_EN) (hw _ (by simp [seenWords, R.PORT_CFG_TX_FC_EN, R.PORT_CFG_HALL_SUBPORT])), hz]
      rfl
    rw [Dev.port_flowControl_off hzo, hz, Dev.addPacket, hport]

/-- Settles O12: the reception's counts first, then a case for each place that the frame can go to. -/
theorem receptionSorted : Obligations.ReceptionSorted := by
  intro s sp bytes unc cor hr f rx coded taken words control hall room
  have hexec : exec (.receiveFrame sp bytes unc cor) s = s.clocked (·.regionStopped 18) fun d => d.receive sp.val bytes unc cor := rfl
  have runs {x : Dev} {post : Dev → Prop} (hx : s.dev.receive sp.val bytes unc cor = x) (hl : x.life = s.dev.life) (h : post x) :
      Completes (.receiveFrame sp bytes unc cor) s post := .ofClocked hr.1 hr.2 hexec (hx ▸ hl) (hx ▸ h)
  refine ⟨fun hu => ?_, fun hu hl => ?_, fun hu hl => ?_, fun hu hl hl' hunc hf => ?_⟩
  · exact exec_of_unchanged hexec (by simp [Dev.receive, hu])
  · obtain ⟨hc, h1, hm⟩ := Dev.moves_badReception (d := s.dev) (unc := unc) (cor := cor) (nodup_badCounts sp).1 1
    exact runs (Dev.receive_runt hu hl) (hm.parts .life (by simp)) ⟨hc, h1, hm.words, hm.parts, hm.memory⟩
  · obtain ⟨hc, h1, hm⟩ := Dev.moves_badReception (d := s.dev) (unc := unc) (cor := cor) (nodup_badCounts sp).2 1
    exact runs (Dev.receive_oversize hu hl) (hm.parts .life (by simp)) ⟨hc, h1, hm.words, hm.parts, hm.memory⟩
  subst hunc
  have h : s.dev.Receives sp.val bytes := ⟨hu, hl, hl', hf⟩
  have taken (p : Port) := s.dev.took_withPort sp cor bytes.length p
  refine ⟨fun hmac => ?_, fun hctl => ?_, fun hhall => ?_, fun hmac hctl hhall => ?_⟩
  · obtain ⟨ht, hm⟩ := taken _
    exact runs (h.receive_macControl cor hmac) (hm.parts .life (by simp)) ⟨ht, rfl, hm.words, hm.parts⟩
  · obtain ⟨ht, hm⟩ := taken _
    exact runs (h.receive_control cor hctl) (hm.parts .life (by simp)) ⟨ht, rfl, hm.words, hm.parts⟩
  · obtain ⟨ht, hm⟩ := taken _
    exact runs (h.receive_hall cor hhall) (hm.parts .life (by simp)) ⟨ht, rfl, hm.words, hm.parts⟩
  · obtain ⟨e, he, hrec⟩ := h.receive_data cor hmac hctl hhall
    have hrx (a : Nat) (ha : a ∈ rxWords sp.val) : a ∉ ptpWords sp.val := fun hm => rxWords_apart sp a
      (List.mem_cons_of_mem _ ha) (List.mem_append_left _ hm)
    obtain ⟨ht, hm⟩ := Dev.took_of_moves he hrx
    have hlcs : e.get R.LCS_STAT_STATE = s.dev.get R.LCS_STAT_STATE := hm.get (seenWords_apart sp _ (by simp [seenWords]))
    have hroom : e.hasRoom sp.val f.length = room :=
      Dev.hasRoom_of_moves hm (by decide) (by decide) (seenWords_apart sp _ (by simp [seenWords])) _
    refine ⟨fun hst => ?_, fun hst hfull => ?_, fun hst hfree => ?_⟩
    · rw [Dev.dataFrame_closed (hlcs.trans_ne hst)] at hrec
      exact runs hrec (hm.parts .life (by decide)) ⟨ht, hm.words, hm.parts⟩
    · have hfull' := he.mono (List.subset_cons_self (C.PORT_RX_BUF_FULL sp.val) _) (fun _ h => h) |>.bump (n := 1) List.mem_cons_self
      obtain ⟨ht', -⟩ := Dev.took_of_moves hfull' fun a ha hm => by
        rcases List.mem_cons.1 hm with rfl | hm
        · exact rxBufFull_apart sp (List.mem_append_left _ ha)
        · exact hrx a ha hm
      have hm' := hm.mono (List.subset_cons_self (C.PORT_RX_BUF_FULL sp.val) _) (fun _ h => h) |>.bump (n := 1) List.mem_cons_self
      refine runs (hrec.trans (Dev.dataFrame_full (hlcs.trans hst) (hroom.trans hfull) _)) (hm'.parts .life (by decide))
        ⟨ht', Dev.counts_of_bump hm (rxBufFull_apart sp) (Dev.Moves.refl _ [] []) (by simp), hm'.words, hm'.parts⟩
    · obtain ⟨hx, hp, hnext, hrcv, hoff⟩ := Dev.joined hm (fun a ha => seenWords_apart sp a ha) (frameOf bytes) (s.dev.rxStamp bytes.length)
      obtain ⟨hmac', hctl', hhall'⟩ : _ ∧ _ ∧ _ := by simpa only [Port.received, Prod.mk.injEq] using hrcv
      have hx' := (he.mono (List.subset_append_left _ flowWords) (List.subset_append_right [.front, .port] _)).trans
        (hx.mono (List.subset_append_right _ _) (List.subset_append_left _ _))
      obtain ⟨ht', hm'⟩ := Dev.took_of_moves hx' fun a ha => rxWords_apart sp a (List.mem_cons_of_mem _ ha)
      rw [← List.append_assoc] at hm'
      exact runs (hrec.trans (Dev.dataFrame_joins (hlcs.trans hst) (hroom.trans hfree) _)) (hm'.parts .life (by decide))
        ⟨ht', hp, hnext, hmac', hctl', hhall', hoff, hm'.words, hm'.parts⟩

end Sys2Proof.Machine
end

section
/-! What leaves the port (O15): the pauses repeated, the device's `Delay_Req`, packets, record frames. -/

namespace Sys2Proof.Machine

theorem beAt_beBytes (k n : Nat) : beAt (beBytes k n) 0 k = n % 256 ^ k := by
  have hs : sub (beBytes k n) 0 k = beBytes k n := by
    have := sub_append_left (ys := []) (length_beBytes k n)
    rwa [List.append_nil] at this
  rw [beAt_of_sub hs (length_beBytes k n), beNat_beBytes]

/-! ### The oscillator's time -/

theorem Dev.clockNs_advanceClock (d : Dev) (t : Nat) : (d.advanceClock t).clockNs = max d.clockNs t := by
  unfold Dev.clockNs Dev.advanceClock
  rw [Dev.advance_ns, Dev.advance_sup]
  omega

/-- Two devices with the same time base and the same steps of it. -/
theorem Dev.clockNs_congr {d e : Dev} (hn : e.ns = d.ns) (hs : e.sup = d.sup) : e.clockNs = d.clockNs := by
  unfold Dev.clockNs
  rw [hn, hs]

/-! ### The pause repeated (R68) -/

namespace Dev

theorem inlineUp_of_moves {d e : Dev} {ps : List Part} (h : d.Moves e [] ps) : e.inlineUp = d.inlineUp := by
  unfold inlineUp subPorts up mode
  simp only [h.get (f := _) List.not_mem_nil, h.on (f := _) List.not_mem_nil]

/-- All that a pause sent to every partner does: one frame on each inline sub-port that is up, the partners' marks, the time noted. -/
theorem port_pausePartners (d : Dev) : d.pausePartners.port =
    { d.port with subs := notePaused true d.inlineUp d.port.subs,
                  sent := d.port.sent ++ d.inlineUp.map fun sp => Sent.frame sp (d.pauseFrame 0xFFFF), pauseSentNs := d.clockNs } := by
  have hup : d.inlineUp.filter d.up = d.inlineUp := List.filter_eq_self.2 fun _ h => up_of_mem_inlineUp h
  have hm := d.moves_pauseEach 0xFFFF true d.inlineUp
  rw [pausePartners_eq, port_pauseEach _ _ _ d.inlineUp_lt, hup, clockNs_congr (hm.parts .time (by simp)).1 (hm.parts .sup (by simp))]

theorem moves_pausePartners (d : Dev) : d.Moves d.pausePartners (d.inlineUp.flatMap pauseWords) [.port] := by
  rw [pausePartners_eq]
  exact (d.moves_pauseEach _ _ _).withPort (by simp) _

theorem counts_pausePartners {d : Dev} {sp : Nat} (h : sp ∈ d.inlineUp) : d.Counts d.pausePartners (C.PORT_TX_PAUSE sp) 1 := by
  have hc := counts_pauseEach (d := d) 0xFFFF true d.inlineUp_lt d.nodup_inlineUp h (up_of_mem_inlineUp h)
  rw [pausePartners_eq]
  exact hc

end Dev

/-! ### The queues that the port sends from -/

theorem takeFirst_append {α : Type} {p : α → Bool} {before rest : List α} {x : α} (hx : p x = true) (hb : ∀ y ∈ before, p y = false) :
    takeFirst p (before ++ x :: rest) = some (x, before ++ rest) := by
  induction before with
  | nil => simp [takeFirst, hx]
  | cons y ys ih =>
    obtain ⟨hy, hys⟩ := List.forall_mem_cons.1 hb
    simp [takeFirst, hy, ih hys]

/-- The packet that leaves: behind packets of held classes, the first of its own flow that may (R20, R44). -/
theorem nextEgress_append {held : Nat → Bool} {seen : List (Nat × Nat)} {before rest : List EgressItem} {e : EgressItem}
    (he : e.dropped = true ∨ held e.cls = false) (hs : ∀ f, e.flow = some f → f ∉ seen)
    (hb : ∀ x ∈ before, x.dropped = false ∧ held x.cls = true ∧ (x.flow ≠ e.flow ∨ e.flow = none)) :
    nextEgress held seen (before ++ e :: rest) = some (e, before ++ rest) := by
  induction before generalizing seen with
  | nil =>
    cases hf : e.flow with
    | none => simp [nextEgress, hf, he]
    | some f => simp [nextEgress, hf, he, hs f hf]
  | cons x xs ih =>
    obtain ⟨⟨hd, hh, hne⟩, hxs⟩ := List.forall_mem_cons.1 hb
    cases hf : x.flow with
    | none => simp [nextEgress, hf, hd, hh, ih hs hxs]
    | some g =>
      have hseen (f : Nat × Nat) (hef : e.flow = some f) : f ∉ g :: seen := by
        have hfg : f ≠ g := fun h => hne.elim (fun hn => hn (hf.trans (h ▸ hef.symm))) (fun hn => by simp [hn] at hef)
        simp [hfg, hs f hef]
      simp [nextEgress, hf, hd, hh, ih hseen hxs]

/-! ### The device's own frames (R63, R64) -/

namespace Dev

namespace Moves

variable {d e : Dev} {ws : List Nat} {ps : List Part} {sp : Nat}

theorem ownLeaves (h : d.Moves e ws ps) (hp : .port ∈ ps) (hl : .lpe ∈ ps) (hw : ownWords sp ⊆ ws) (f : OwnFrame) :
    d.Moves (Dev.ownLeaves sp e f) ws ps := by
  refine send ?_ hp _ (hw (by simp [ownWords])) (hw (by simp [ownWords]))
  cases f.kind with
  | plain => exact h
  | journalExport => exact h.bump (hw (by simp [ownWords]))
  | loupeExport => exact h.bump (hw (by simp [ownWords]))
  | delayReq q => exact h.withLpe hl _

theorem drainOwn (h : d.Moves e ws ps) (hp : .port ∈ ps) (hl : .lpe ∈ ps) (hw : ownWords sp ⊆ ws) : d.Moves (e.drainOwn sp) ws ps :=
  .ite h ((h.modSub hp sp _).each fun f _ _ he => he.ownLeaves hp hl hw f)

theorem sendOwn (h : d.Moves e ws ps) (hp : .port ∈ ps) (hl : .lpe ∈ ps) (hw : ownWords sp ⊆ ws) (f : OwnFrame) :
    d.Moves (e.sendOwn sp f) ws ps :=
  .ite ((h.modSub hp sp _).drainOwn hp hl hw) h

end Moves

theorem delaySent_ownLeaves (d : Dev) (sp : Nat) (f : OwnFrame) :
    (Dev.ownLeaves sp d f).lpe.servo.delaySent = d.lpe.servo.delaySent := by
  have hs (e : Dev) : (e.send sp f.bytes).lpe = e.lpe := by
    unfold send
    split
    · rw [bump_lpe, bump_lpe]
    · rfl
  unfold ownLeaves
  rw [hs]
  cases f.kind with
  | plain => rfl
  | journalExport => simp
  | loupeExport => simp
  | delayReq q => rfl

theorem delaySent_sendOwn (d : Dev) (sp : Nat) (f : OwnFrame) : (d.sendOwn sp f).lpe.servo.delaySent = d.lpe.servo.delaySent := by
  unfold sendOwn drainOwn
  split
  · split
    · rfl
    · exact each_keeps (fun d => d.lpe.servo.delaySent) _ _ _ fun d f => d.delaySent_ownLeaves sp f
  · rfl

/-- While `OWN_CLASS` is held a frame of the device's own waits. -/
theorem sendOwn_of_paused {d : Dev} {sp : Nat} (hu : d.up sp = true) (h : d.classPaused sp (d.get R.PORT_CFG_OWN_CLASS) = true)
    (f : OwnFrame) : d.sendOwn sp f = d.modSub sp fun s => { s with own := s.own ++ [f] } :=
  (if_pos hu).trans (if_pos h)

/-- With nothing waiting, a frame of the device's own that is not held leaves at once. -/
theorem counts_sendOwn {d : Dev} {sp : Nat} (hsp : sp < 8) (hu : d.up sp = true)
    (h : d.classPaused sp (d.get R.PORT_CFG_OWN_CLASS) = false) (hq : d.ownQueue sp = []) (hl : sp < d.port.subs.length) (q : Nat)
    (bytes : List Byte) : d.Counts (d.sendOwn sp ⟨bytes, .delayReq q⟩) (C.PORT_TX_FRAMES sp) 1 := by
  obtain ⟨e, he⟩ : ∃ e, e = d.modSub sp fun s => { s with own := s.own ++ [⟨bytes, .delayReq q⟩] } := ⟨_, rfl⟩
  have heq : e.ownQueue sp = [⟨bytes, .delayReq q⟩] := by
    have h1 := d.ownQueue_modSub hl fun s => { s with own := s.own ++ [⟨bytes, .delayReq q⟩] }
    have h2 : (d.port.subs.getD sp SubPort.empty).own = [] := hq
    rw [he, h1, h2]
    rfl
  obtain ⟨y, hy⟩ : ∃ y, y = { e.modSub sp fun s => { s with own := [] } with
      lpe := { e.lpe with servo := { e.lpe.servo with delayReq := some (q, e.ns) } } } := ⟨_, rfl⟩
  have hs : d.sendOwn sp ⟨bytes, .delayReq q⟩ = y.send sp bytes := by
    have hn : e.classPaused sp (e.get R.PORT_CFG_OWN_CLASS) = false := he ▸ h
    unfold sendOwn drainOwn
    rw [if_pos hu, ← he, if_neg (by simp [hn]), heq, hy]
    rfl
  have hm : d.Moves y [] [.port, .lpe] := by
    rw [hy, he]
    exact (((Moves.refl d _ _).modSub (by simp) sp _).modSub (by simp) sp _).withLpe (by simp) _
  have hyu : y.up sp = true := by rw [up, hm.on List.not_mem_nil]; exact hu
  rw [hs, send, if_pos hyu]
  refine counts_of_bump (hm.withPort (by simp) _) List.not_mem_nil ((Moves.refl _ [C.PORT_TX_BYTES sp] []).bump (by simp)) ?_
  simp [C.PORT_TX_FRAMES, C.PORT_TX_BYTES, hsp]

/-- The device with one `Delay_Req` more made. -/
def delayMade (d : Dev) : Dev :=
  { d with lpe := { d.lpe with servo := { d.lpe.servo with delaySent := d.lpe.servo.delaySent + 1 } } }

theorem delayReqSend_eq {d : Dev} (he : d.on R.PORT_CFG_PTP_EN = true) (hu : d.up (d.get R.PORT_CFG_PTP_SUBPORT) = true)
    (hi : d.on R.CFG_BOOT_NO_IMAGE = false) : ∃ q, d.delayReqSend =
      d.delayMade.sendOwn (d.get R.PORT_CFG_PTP_SUBPORT) ⟨Config.delayReq d.lpe.servo.delaySent, .delayReq q⟩ := by
  unfold delayReqSend
  dsimp only
  rw [if_pos (by simp [he, hu, hi])]
  exact ⟨_, rfl⟩

end Dev

/-! ### The four commands -/

section

variable {s : State} (hr : s.RunsIn 18)
include hr

theorem pauseRepeat_completes (he : s.dev.on R.PORT_CFG_TX_FC_EN = true) (hp : s.dev.pausedPartners ≠ []) :
    Completes .pauseRepeat s fun d =>
      (∀ sp ∈ s.dev.inlineUp, s.dev.Counts d (C.PORT_TX_PAUSE sp) 1)
        ∧ d.port = { s.dev.port with
            subs := notePaused true s.dev.inlineUp s.dev.port.subs,
            sent := s.dev.port.sent ++ s.dev.inlineUp.map fun sp => Sent.frame sp (s.dev.pauseFrame 0xFFFF),
            pauseSentNs := d.clockNs }
        ∧ d.clockNs = max s.dev.clockNs (s.dev.port.pauseSentNs + s.dev.quantaNs 0xFFFF / 2)
        ∧ s.dev.Moves d (s.dev.inlineUp.flatMap pauseWords) [.time, .port] := by
  obtain ⟨z, hz⟩ : ∃ z, z = s.dev.advanceClock (s.dev.port.pauseSentNs + s.dev.quantaNs 0xFFFF / 2) := ⟨_, rfl⟩
  have hm : s.dev.Moves z [] [.time] := hz ▸ (Dev.Moves.refl _ _ _).advanceClock (by simp) _
  have hup : z.inlineUp = s.dev.inlineUp := Dev.inlineUp_of_moves hm
  have hmz : z.Moves z.pausePartners (z.inlineUp.flatMap pauseWords) [.port] := z.moves_pausePartners
  have hclock : z.pausePartners.clockNs = z.clockNs :=
    Dev.clockNs_congr (hmz.parts .time (by simp)).1 (hmz.parts .sup (by simp))
  have hport : z.port = s.dev.port := hm.parts .port (by simp)
  have hall : s.dev.Moves z.pausePartners (s.dev.inlineUp.flatMap pauseWords) [.time, .port] := by
    rw [← hup]
    exact (hm.mono (by simp) (by simp)).trans (hmz.mono (fun _ h => h) (by simp))
  have hf : s.dev.pauseRepeat = z.pausePartners := by
    unfold Dev.pauseRepeat
    rw [hz, if_pos (by simp [he, hp])]
  have hx : exec .pauseRepeat s = s.clocked (·.regionStopped 18) Dev.pauseRepeat := rfl
  refine .ofClocked hr.1 hr.2 hx ?_ ?_
  · rw [hf]
    exact hall.parts .life (by simp)
  · rw [hf]
    refine ⟨fun sp hsp => ?_, ?_, ?_, hall⟩
    · have hc := Dev.counts_pausePartners (d := z) (hup.symm ▸ hsp)
      unfold Dev.Counts at *
      rw [hc, hm.words _ List.not_mem_nil]
    · rw [hclock, z.port_pausePartners, hport, hup, Dev.pauseFrame_of_moves hm (by simp)]
    · rw [hclock, hz, Dev.clockNs_advanceClock]

theorem delayReqSend_completes (he : s.dev.on R.PORT_CFG_PTP_EN = true) (hu : s.dev.up (s.dev.get R.PORT_CFG_PTP_SUBPORT) = true)
    (hi : s.dev.on R.CFG_BOOT_NO_IMAGE = false) : Completes .ptpDelayReqSend s fun d =>
      let sp := s.dev.get R.PORT_CFG_PTP_SUBPORT
      let frame := Config.delayReq s.dev.lpe.servo.delaySent
      (sp < s.dev.port.subs.length → s.dev.SendsOwn d sp frame)
        ∧ d.lpe.servo.delaySent = s.dev.lpe.servo.delaySent + 1
        ∧ (s.dev.classPaused sp (s.dev.get R.PORT_CFG_OWN_CLASS) = true → s.dev.KeepsWords d [])
        ∧ (s.dev.classPaused sp (s.dev.get R.PORT_CFG_OWN_CLASS) = false → s.dev.ownQueue sp = [] → sp < s.dev.port.subs.length →
            s.dev.Counts d (C.PORT_TX_FRAMES sp) 1)
        ∧ s.dev.Moves d (ownWords sp) [.port, .lpe] := by
  have hsp : s.dev.get R.PORT_CFG_PTP_SUBPORT < 8 := s.dev.get_lt R.PORT_CFG_PTP_SUBPORT
  obtain ⟨q, hf⟩ := Dev.delayReqSend_eq he hu hi
  obtain ⟨z, hz⟩ : ∃ z, z = s.dev.delayMade := ⟨_, rfl⟩
  rw [← hz] at hf
  have hm : s.dev.Moves z [] [.lpe] := hz ▸ (Dev.Moves.refl _ _ _).withLpe (by simp) _
  have hport : z.port = s.dev.port := hm.parts .port (by simp)
  have hzu : z.up (s.dev.get R.PORT_CFG_PTP_SUBPORT) = true := by rw [Dev.up, hm.on List.not_mem_nil]; exact hu
  have hpaused : z.classPaused (s.dev.get R.PORT_CFG_PTP_SUBPORT) (z.get R.PORT_CFG_OWN_CLASS)
      = s.dev.classPaused (s.dev.get R.PORT_CFG_PTP_SUBPORT) (s.dev.get R.PORT_CFG_OWN_CLASS) := by
    unfold Dev.classPaused
    rw [hm.get List.not_mem_nil, hm.get List.not_mem_nil]
  have hall := (hm.mono (List.nil_subset _) (by simp)).sendOwn (sp := s.dev.get R.PORT_CFG_PTP_SUBPORT) (ps := [.port, .lpe]) (by simp) (by simp)
    (fun _ h => h) ⟨Config.delayReq s.dev.lpe.servo.delaySent, .delayReq q⟩
  have hx : exec .ptpDelayReqSend s = s.clocked (·.regionStopped 18) Dev.delayReqSend := rfl
  refine .ofClocked hr.1 hr.2 hx (hf ▸ hall.parts .life (by simp)) ?_
  rw [hf]
  refine ⟨fun hl => ?_, ?_, fun hpa => ?_, fun hpa hq hl => ?_, hall⟩
  · exact (Dev.sendsOwn_sendOwn hsp hzu (hport.symm ▸ hl) _).congr hport (hm.get List.not_mem_nil) (hm.get List.not_mem_nil) rfl
  · rw [Dev.delaySent_sendOwn, hz]
    rfl
  · rw [Dev.sendOwn_of_paused hzu (hpaused.trans hpa)]
    exact ((hm.mono (fun _ h => h) (by simp)).modSub (ps := [.port, .lpe]) (by simp) _ _).words
  · have hzq : z.ownQueue (s.dev.get R.PORT_CFG_PTP_SUBPORT) = [] := by rw [Dev.ownQueue, hport]; exact hq
    have hc := Dev.counts_sendOwn hsp hzu (hpaused.trans hpa) hzq (hport.symm ▸ hl) q (Config.delayReq s.dev.lpe.servo.delaySent)
    unfold Dev.Counts at *
    rw [hc, hm.words _ List.not_mem_nil]

end

namespace Dev

/-- The egress queue of a sub-port. -/
def egressOf (d : Dev) (sp : Nat) : List EgressItem := (d.port.subs.getD sp SubPort.empty).egress

theorem egressOf_modSub (d : Dev) {sp : Nat} (h : sp < d.port.subs.length) (q : List EgressItem) (x : Nat) :
    (d.modSub sp fun s => { s with egress := q }).egressOf x = if x = sp then q else d.egressOf x := by
  unfold egressOf modSub
  dsimp only
  rw [getD_modifyNth]
  by_cases hx : x = sp
  · subst hx
    simp [h]
  · simp [hx]

theorem lt_length_of_egressOf {d : Dev} {sp : Nat} (h : d.egressOf sp ≠ []) : sp < d.port.subs.length := by
  by_contra hl
  exact h (by rw [egressOf, List.getD_eq_default _ _ (Nat.le_of_not_lt hl)]; rfl)

theorem egressOf_flowControl (d : Dev) (x : Nat) : d.flowControl.egressOf x = d.egressOf x := by
  obtain ⟨b, sps, fs, t, hp⟩ := d.port_flowControl
  unfold egressOf
  rw [hp]
  dsimp only
  rw [getD_notePaused]

/-- What flow control sends comes behind what has been sent. -/
theorem mem_sent_flowControl {d : Dev} {f : Sent} {n : Nat} (h : f ∈ d.port.sent.drop n) : f ∈ d.flowControl.port.sent.drop n := by
  obtain ⟨b, sps, fs, t, hp⟩ := d.port_flowControl
  rw [hp, List.drop_append]
  exact List.mem_append_left _ h

/-- A packet that has left its queue: sent, or counted as dropped by its action. -/
def sendItem (d : Dev) (sp : Nat) (e : EgressItem) : Dev :=
  if e.dropped then d.bump (C.PORT_TX_DROP_ACTION sp) else d.send sp e.bytes

theorem packetTransmit_eq {d : Dev} {sp : Nat} {e : EgressItem} {rest : List EgressItem} (hu : d.up sp = true)
    (h : nextEgress (d.classPaused sp) [] (d.egressOf sp) = some (e, rest)) :
    d.packetTransmit sp = ((d.modSub sp fun s => { s with egress := rest }).sendItem sp e).flowControl := by
  unfold packetTransmit
  dsimp only
  rw [if_neg (by simp [hu])]
  unfold egressOf at h
  rw [h]
  rfl

theorem packetTransmit_idle {d : Dev} {sp : Nat} (h : d.up sp = false ∨ d.egressOf sp = []) : d.packetTransmit sp = d := by
  unfold packetTransmit
  rcases h with h | h
  · simp [h]
  · unfold egressOf at h
    simp only [h, nextEgress, ite_self]

theorem port_sendItem {d : Dev} {sp : Nat} (hu : d.up sp = true) (e : EgressItem) : (d.sendItem sp e).port = { d.port with
    sent := d.port.sent ++ if e.dropped then [] else [Sent.frame sp (padTo (max 60 e.bytes.length) e.bytes)] } := by
  unfold sendItem
  split
  · simp
  · exact port_send hu _

theorem Moves.sendItem {d y : Dev} {ws : List Nat} {ps : List Part} (h : d.Moves y ws ps) (hp : .port ∈ ps) {sp : Nat} (hs : sp < 8)
    (hw : flowWords ⊆ ws) {e : EgressItem} (hd : e.dropped = true → C.PORT_TX_DROP_ACTION sp ∈ ws) : d.Moves (y.sendItem sp e) ws ps := by
  have hin (a : Nat) (ha : a ∈ pauseWords sp) : a ∈ ws := hw (pauseWords_subset_flowWords hs ha)
  unfold Dev.sendItem
  split
  · rename_i hdrop
    exact h.bump (hd hdrop)
  · exact h.send hp _ (hin _ (by simp [pauseWords])) (hin _ (by simp [pauseWords]))

end Dev

theorem flowControl_off_words : ∀ sp : Fin 8, R.PORT_CFG_TX_FC_EN.addr ∉ C.PORT_TX_DROP_ACTION sp.val :: flowWords := by decide

theorem dropAction_not_mem_flowWords : ∀ sp : Fin 8, C.PORT_TX_DROP_ACTION sp.val ∉ flowWords := by decide

section

variable {s : State} (hr : s.RunsIn 18)
include hr

theorem packetTransmit_completes {sp : Fin 8} {before rest : List EgressItem} {e : EgressItem} (hu : s.dev.up sp.val = true)
    (hq : s.dev.egressOf sp.val = before ++ e :: rest) (he : e.dropped = true ∨ s.dev.classPaused sp.val e.cls = false)
    (hb : ∀ x ∈ before, x.dropped = false ∧ s.dev.classPaused sp.val x.cls = true ∧ (x.flow ≠ e.flow ∨ e.flow = none)) :
    Completes (.packetTransmit sp) s fun d =>
      (∀ x, d.egressOf x = if x = sp.val then before ++ rest else s.dev.egressOf x)
        ∧ (e.dropped = false → (.frame sp.val (padTo (max 60 e.bytes.length) e.bytes)) ∈ d.port.sent.drop s.dev.port.sent.length)
        ∧ (e.dropped = true → s.dev.Counts d (C.PORT_TX_DROP_ACTION sp.val) 1)
        ∧ (s.dev.on R.PORT_CFG_TX_FC_EN = false → d.port.sent.length = s.dev.port.sent.length + (if e.dropped then 0 else 1))
        ∧ (e.dropped = false → s.dev.Moves d flowWords [.port])
        ∧ s.dev.Moves d (C.PORT_TX_DROP_ACTION sp.val :: flowWords) [.port] := by
  have hl : sp.val < s.dev.port.subs.length := Dev.lt_length_of_egressOf (by simp [hq])
  have hnext : nextEgress (s.dev.classPaused sp.val) [] (s.dev.egressOf sp.val) = some (e, before ++ rest) :=
    hq ▸ nextEgress_append he (by simp) hb
  obtain ⟨y, hy⟩ : ∃ y, y = s.dev.modSub sp.val fun x => { x with egress := before ++ rest } := ⟨_, rfl⟩
  have hm : s.dev.Moves y [] [.port] := hy ▸ (Dev.Moves.refl _ _ _).modSub (by simp) _ _
  have hyu : y.up sp.val = true := by rw [Dev.up, hm.on List.not_mem_nil]; exact hu
  have hsent : y.port.sent = s.dev.port.sent := by rw [hy]; rfl
  have hport := Dev.port_sendItem hyu e
  have hf := Dev.packetTransmit_eq hu hnext
  rw [← hy] at hf
  have hall := ((hm.mono (List.nil_subset _) (fun _ h => h)).sendItem (by simp) sp.isLt
    (List.subset_cons_self (C.PORT_TX_DROP_ACTION sp.val) flowWords) (e := e) (by simp)).flowControl (by simp) (by simp)
  have hx : exec (.packetTransmit sp) s = s.clocked (·.regionStopped 18) fun d => d.packetTransmit sp.val := rfl
  refine .ofClocked hr.1 hr.2 hx (hf ▸ hall.parts .life (by simp)) ?_
  rw [hf]
  refine ⟨fun x => ?_, fun hd => ?_, fun hd => ?_, fun hoff => ?_, fun hd => ?_, hall⟩
  · rw [Dev.egressOf_flowControl, Dev.egressOf, hport]
    exact hy ▸ s.dev.egressOf_modSub hl _ x
  · refine Dev.mem_sent_flowControl ?_
    rw [hport, hsent]
    simp [hd]
  · have hb : y.sendItem sp.val e = y.bump (C.PORT_TX_DROP_ACTION sp.val) := if_pos hd
    rw [hb]
    exact Dev.counts_of_bump hm List.not_mem_nil ((Dev.Moves.refl _ flowWords [.port]).flowControl (by simp) (fun _ h => h))
      (dropAction_not_mem_flowWords sp)
  · have hzo : (y.sendItem sp.val e).on R.PORT_CFG_TX_FC_EN = false := by
      have hz := (hm.mono (List.nil_subset _) (fun _ h => h)).sendItem (by simp) sp.isLt
        (List.subset_cons_self (C.PORT_TX_DROP_ACTION sp.val) flowWords) (e := e) (by simp)
      rw [hz.on (flowControl_off_words sp), hoff]
    rw [Dev.port_flowControl_off hzo, hport, hsent]
    split <;> simp
  · exact ((hm.mono (List.nil_subset _) (fun _ h => h)).sendItem (by simp) sp.isLt (fun _ h => h) (by simp [hd])).flowControl (by simp)
      (fun _ h => h)

end

/-! ### Record frames (R74 to R76) -/

/-- Whether a record frame's turn has come: its sub-port does not hold it. -/
def Dev.recordReady (d : Dev) (f : RecordFrame) : Bool := !(d.up f.sp && d.classPaused f.sp (d.get R.PORT_CFG_OWN_CLASS))

/-- The counters that a record frame sent moves. -/
def recordWords (sp : Nat) : List Nat := [C.PORT_RECORDS_TX sp, C.PORT_RECORD_FRAMES_TX sp, C.PORT_TX_FRAMES sp, C.PORT_TX_BYTES sp]

/-- What a record frame sent counts: a frame of `n` bytes, its records, itself. -/
def recordCounts (sp n records : Nat) : List (Nat × Nat) :=
  [(C.PORT_TX_FRAMES sp, 1), (C.PORT_TX_BYTES sp, n), (C.PORT_RECORDS_TX sp, records), (C.PORT_RECORD_FRAMES_TX sp, 1)]

theorem nodup_recordCounts : ∀ sp : Fin 8, [C.PORT_TX_FRAMES sp.val, C.PORT_TX_BYTES sp.val, C.PORT_RECORDS_TX sp.val,
    C.PORT_RECORD_FRAMES_TX sp.val].Nodup := by decide

namespace Dev

theorem recordTransmit_eq {d : Dev} {f : RecordFrame} {rest : List RecordFrame}
    (h : takeFirst d.recordReady d.port.records = some (f, rest)) : d.recordTransmit =
      let z := { d with port := { d.port with records := rest } }
      if d.up f.sp then ((z.send f.sp (d.recordFrame f)).bump (C.PORT_RECORDS_TX f.sp) f.records.length).bump (C.PORT_RECORD_FRAMES_TX f.sp)
      else z.dropRecords f := by
  unfold recordTransmit
  dsimp only
  unfold recordReady at h
  rw [h]
  rfl

theorem recordTransmit_idle {d : Dev} (h : d.port.records = []) : d.recordTransmit = d := by
  unfold recordTransmit
  rw [h]
  rfl

theorem beAt_recordFrame_da (d : Dev) (f : RecordFrame) (tail : List Byte) :
    beAt (d.recordFrame f ++ tail) 0 6 = d.get (R.PORT_SIDECAR_DA_DA f.sp) := by
  have hlt : d.get (R.PORT_SIDECAR_DA_DA f.sp) < 256 ^ 6 := d.get_lt _
  unfold recordFrame ownFrame
  simp only [List.append_assoc]
  rw [beAt_append_left (by simp), beAt_beBytes, Nat.mod_eq_of_lt hlt]

end Dev

section

variable {s : State} {before rest : List RecordFrame} {f : RecordFrame} (hq : s.dev.port.records = before ++ f :: rest)
  (hb : ∀ g ∈ before, s.dev.up g.sp = true ∧ s.dev.classPaused g.sp (s.dev.get R.PORT_CFG_OWN_CLASS) = true)
include hq hb

theorem takeFirst_recordReady (hf : s.dev.recordReady f = true) :
    takeFirst s.dev.recordReady s.dev.port.records = some (f, before ++ rest) :=
  hq ▸ takeFirst_append hf fun g hg => by simp [Dev.recordReady, hb g hg]

theorem recordTransmit_sends (hr : s.RunsIn 18) (hsp : f.sp < 8) (hu : s.dev.up f.sp = true)
    (hp : s.dev.classPaused f.sp (s.dev.get R.PORT_CFG_OWN_CLASS) = false) :
    Completes .recordFrameTransmit s fun d =>
      d.port = { s.dev.port with
          records := before ++ rest,
          sent := s.dev.port.sent ++ [.frame f.sp (padTo (max 60 (s.dev.recordFrame f).length) (s.dev.recordFrame f))] }
        ∧ s.dev.Counts d (C.PORT_RECORDS_TX f.sp) f.records.length ∧ s.dev.Counts d (C.PORT_RECORD_FRAMES_TX f.sp) 1
        ∧ s.dev.Moves d (recordWords f.sp) [.port] := by
  obtain ⟨y, hy⟩ : ∃ y, y = { s.dev with port := { s.dev.port with
      records := before ++ rest,
      sent := s.dev.port.sent ++ [Sent.frame f.sp (padTo (max 60 (s.dev.recordFrame f).length) (s.dev.recordFrame f))] } } := ⟨_, rfl⟩
  obtain ⟨n, hn⟩ : ∃ n, s.dev.recordTransmit = y.bumps (recordCounts f.sp n f.records.length) := by
    rw [Dev.recordTransmit_eq (takeFirst_recordReady hq hb (by simp [Dev.recordReady, hp])), if_pos hu, Dev.send, if_pos (by exact hu), hy]
    exact ⟨_, rfl⟩
  have hm : s.dev.Moves y [] [.port] := hy ▸ (Dev.Moves.refl _ _ _).withPort (by simp) _
  have hb := y.moves_bumps (recordCounts f.sp n f.records.length) [.port]
  have hall : s.dev.Moves s.dev.recordTransmit (recordWords f.sp) [.port] :=
    hn ▸ (hm.mono (List.nil_subset _) (fun _ h => h)).trans (hb.mono (by simp [recordCounts, recordWords]) (fun _ h => h))
  have hnd : ((recordCounts f.sp n f.records.length).map (·.1)).Nodup := nodup_recordCounts ⟨f.sp, hsp⟩
  have hc {a k : Nat} (ha : (a, k) ∈ recordCounts f.sp n f.records.length) : s.dev.Counts s.dev.recordTransmit a k := by
    have hcy := Dev.counts_bumps (d := y) hnd (Dev.Moves.refl _ [] []) ha List.not_mem_nil
    unfold Dev.Counts at *
    rw [hn, hcy, hm.words _ List.not_mem_nil]
  have hx : exec .recordFrameTransmit s = s.clocked (·.regionStopped 18) Dev.recordTransmit := rfl
  refine .ofClocked hr.1 hr.2 hx (hall.parts .life (by simp))
    ⟨?_, hc (by simp [recordCounts]), hc (by simp [recordCounts]), hall⟩
  have hport : s.dev.recordTransmit.port = y.port := hn ▸ (y.moves_bumps _ []).parts .port (by simp)
  rw [hport, hy]

theorem recordTransmit_drops (hr : s.RunsIn 18) (hsp : f.sp < 8) (hu : s.dev.up f.sp = false) :
    Completes .recordFrameTransmit s fun d =>
      d.port = { s.dev.port with records := before ++ rest } ∧ s.dev.Counts d (C.PORT_RECORD_DROP f.sp) f.records.length
        ∧ s.dev.Moves d [C.PORT_RECORD_DROP f.sp] [.port] := by
  obtain ⟨y, hy⟩ : ∃ y, y = { s.dev with port := { s.dev.port with records := before ++ rest } } := ⟨_, rfl⟩
  have hm : s.dev.Moves y [] [.port] := hy ▸ (Dev.Moves.refl _ _ _).withPort (by simp) _
  have hn : s.dev.recordTransmit = y.bump (C.PORT_RECORD_DROP f.sp) f.records.length := by
    rw [Dev.recordTransmit_eq (takeFirst_recordReady hq hb (by simp [Dev.recordReady, hu])), if_neg (by simp [hu]), hy]
    dsimp only [Dev.dropRecords]
    rw [Nat.mod_eq_of_lt hsp]
  have hall : s.dev.Moves s.dev.recordTransmit [C.PORT_RECORD_DROP f.sp] [.port] :=
    hn ▸ (hm.mono (List.nil_subset _) (fun _ h => h)).bump (by simp)
  have hx : exec .recordFrameTransmit s = s.clocked (·.regionStopped 18) Dev.recordTransmit := rfl
  refine .ofClocked hr.1 hr.2 hx (hall.parts .life (by simp)) ⟨?_, ?_, hall⟩
  · rw [hn, Dev.bump_port, hy]
  · rw [hn]
    exact Dev.counts_of_bump hm List.not_mem_nil (Dev.Moves.refl _ [] []) List.not_mem_nil

end

/-- What a pause of the greatest quanta spells (R68). -/
theorem Dev.pauseFrame_says (d : Dev) : beAt (d.pauseFrame 0xFFFF) 0 6 = 0x0180C2000001 ∧ beAt (d.pauseFrame 0xFFFF) 12 2 = 0x8808
    ∧ (d.on R.PORT_CFG_TX_FC_PFC = false → beAt (d.pauseFrame 0xFFFF) 14 4 = 0x0001FFFF)
    ∧ (d.on R.PORT_CFG_TX_FC_PFC = true → beAt (d.pauseFrame 0xFFFF) 14 4 = 0x010100FF
        ∧ ∀ c < 8, beAt (d.pauseFrame 0xFFFF) (18 + 2 * c) 2 = 0xFFFF) := by
  have hquanta : ∀ c < 8, beAt (pauseBody true 0xFFFF) (4 + 2 * c) 2 = 0xFFFF := by decide
  have hlen : (pauseBody true 0xFFFF).length = 20 := by decide
  refine ⟨d.beAt_pauseFrame_da _, d.beAt_pauseFrame_type _, fun hp => ?_, fun hp => ⟨?_, fun c hc => ?_⟩⟩
  · exact (d.beAt_pauseFrame_body 0xFFFF (i := 0) (by rw [hp]; decide)).trans (by rw [hp]; decide)
  · exact (d.beAt_pauseFrame_body 0xFFFF (i := 0) (by rw [hp]; decide)).trans (by rw [hp]; decide)
  · have hi : 18 + 2 * c = 14 + (4 + 2 * c) := by omega
    rw [hi, d.beAt_pauseFrame_body 0xFFFF (by rw [hp, hlen]; omega), hp]
    exact hquanta c hc

theorem peak_not_mem_pauseWords : ∀ sp : Fin 8, R.PORT_INLINE_BUF_PEAK_KIB.addr ∉ pauseWords sp.val := by decide

/-- Settles O15: the four commands one by one, each by the lemma of its case. -/
theorem portSends : Obligations.PortSends := by
  intro s hr
  refine ⟨fun he hp => ?_, fun h => ?_, fun he hu hi => ?_, fun h => ?_, fun sp => ⟨fun before e rest hu hq he hb => ?_, fun h => ?_⟩,
    fun before f rest hq hsp hb => ⟨fun hu hp => ?_, fun hu => ?_⟩, fun h => ?_⟩
  · refine (pauseRepeat_completes hr he hp).imp fun t ⟨ht, hpend, hc, hport, hclock, hm⟩ => ?_
    have hm' := hm.mono (Dev.flatMap_pauseWords_subset s.dev.inlineUp_lt) (fun _ h => h)
    have hpeak : R.PORT_INLINE_BUF_PEAK_KIB.addr ∉ s.dev.inlineUp.flatMap pauseWords := by
      intro hm
      obtain ⟨sp, hsp, hmem⟩ := List.mem_flatMap.1 hm
      exact peak_not_mem_pauseWords ⟨sp, s.dev.inlineUp_lt sp hsp⟩ hmem
    refine ⟨ht, hpend, fun sp hsp => ⟨hc sp hsp, _, ?_, s.dev.pauseFrame_says⟩, ?_, hclock, ?_, hm'.words, hm.get hpeak, hm.parts, hm.memory⟩
    · rw [hport, List.drop_left]
      exact List.mem_map_of_mem hsp
    · simp [hport]
    · rw [hport]
  · refine exec_of_unchanged (halted := (·.regionStopped 18)) (f := Dev.pauseRepeat) rfl (if_neg ?_)
    rcases h with h | h
    · simp [h]
    · simp [h]
  · refine (delayReqSend_completes hr he hu hi).imp fun t ⟨ht, hpend, hs, hd, hpa, hc, hm⟩ => ?_
    exact ⟨ht, hpend, hs, hd, hpa, hc, hm.words, hm.parts, hm.memory⟩
  · refine exec_of_unchanged (halted := (·.regionStopped 18)) (f := Dev.delayReqSend) rfl (if_neg ?_)
    rcases h with h | h | h
    · simp [h]
    · simp [h]
    · simp [h]
  · refine (packetTransmit_completes hr hu hq he hb).imp fun t ⟨ht, hpend, hqs, hsent, hc, hlen, hw, hm⟩ => ?_
    refine ⟨ht, hpend, (hqs sp.val).trans (if_pos rfl), hsent, hc, hlen, fun hd => (hw hd).words, hm.words,
      fun x hx => (hqs x).trans (if_neg hx), hm.parts, hm.memory⟩
  · exact exec_of_unchanged (halted := (·.regionStopped 18)) (f := fun d => d.packetTransmit sp.val) rfl (Dev.packetTransmit_idle h)
  · refine (recordTransmit_sends hq hb hr hsp hu hp).imp fun t ⟨ht, hpend, hport, hc, hc', hm⟩ => ?_
    refine ⟨ht, hpend, by rw [hport], ⟨_, hport, rfl, ?_⟩, hc, hc', hm.words, hm.parts, hm.memory⟩
    rw [padTo_of_length_le (by omega)]
    exact s.dev.beAt_recordFrame_da f _
  · refine (recordTransmit_drops hq hb hr hsp hu).imp fun t ⟨ht, hpend, hport, hc, hm⟩ => ?_
    exact ⟨ht, hpend, hport, hc, hm.words, hm.parts, hm.memory⟩
  · exact exec_of_unchanged (halted := (·.regionStopped 18)) (f := Dev.recordTransmit) rfl (Dev.recordTransmit_idle h)

end Sys2Proof.Machine
end

section
/-! Writes of registers that take effect later, or at once on the partners (O19): which are taken, what they store, what follows. -/

namespace Sys2Proof.Machine

/-! ### The word that a write leaves (Table 0.4) -/

/-- A field whose bits are all `RW`, in a word without bits to set or clear, takes what is written. -/
theorem RegDesc.bitsOf_merge {r : RegDesc} {i lo w : Nat} (hrw : bitsOf (r.mask i fun f => f.acc = .rw) lo w = 2 ^ w - 1)
    (hc : (r.mask i fun f => f.acc = .w1c) = 0) (hs : (r.mask i fun f => f.acc = .w1s) = 0) (cur v : Nat) :
    bitsOf (r.merge i cur v) lo w = bitsOf v lo w := by
  apply Nat.eq_of_testBit_eq
  intro b
  rw [bitsOf_testBit, bitsOf_testBit]
  by_cases hb : b < w
  · have hbit : (r.mask i fun f => f.acc = .rw).testBit (lo + b) = true := by
      have h := congrArg (·.testBit b) hrw
      simp only [bitsOf_testBit, Nat.testBit_two_pow_sub_one] at h
      simpa [hb] using h
    have hm := r.merge_testBit i cur v (lo + b)
    dsimp only at hm
    rw [hm, hbit, hc, hs]
    simp [mergeBit]
  · simp [hb]

theorem bitsOf_mod_word {n lo w : Nat} (h : lo + w ≤ 64) : bitsOf (n % 2 ^ 64) lo w = bitsOf n lo w := by
  apply Nat.eq_of_testBit_eq
  intro b
  rw [bitsOf_testBit, bitsOf_testBit, Nat.testBit_mod_two_pow]
  by_cases hb : b < w
  · have hlt : lo + b < 64 := by omega
    simp [hb, hlt]
  · simp [hb]

/-! ### Registers whose writes only their ranges refuse -/

/-- A register at `a` whose writes nothing but the range of a field refuses, and which no answer moves. -/
structure Ranged (r : RegDesc) (a : Nat) : Prop where
  address : (a % 8 != 0 || decide (0x10 < a / 2 ^ 32)) = false
  counter : RegMap.isCounter a = false
  lookup : RegMap.lookup RegMap.regs a = some (r, 0)
  endorse : r.base ≠ RegMap.dDEV_ENDORSE.base
  free : (decide (a / 2 ^ 32 = 0xF) || decide (a / 2 ^ 32 = 0) || protectedRegs.contains r.base) = false
  rule : ∀ (d : Dev) (v : Nat), d.ruleStatus r.base a v = St.ok
  answer : a ∉ answerMoves

theorem ranged_tickCfg : Ranged RegMap.dTKP_TICK_CFG RegMap.dTKP_TICK_CFG.base where
  address := by decide
  counter := by decide +kernel
  lookup := by decide +kernel
  endorse := by decide
  free := by decide
  rule _ _ := rfl
  answer := by decide

theorem ranged_aprCfg : Ranged RegMap.dAPR_CFG RegMap.dAPR_CFG.base where
  address := by decide
  counter := by decide +kernel
  lookup := by decide +kernel
  endorse := by decide
  free := by decide
  rule _ _ := rfl
  answer := by decide

theorem ranged_portCfg : Ranged RegMap.dPORT_CFG RegMap.dPORT_CFG.base where
  address := by decide
  counter := by decide +kernel
  lookup := by decide +kernel
  endorse := by decide
  free := by decide
  rule _ _ := rfl
  answer := by decide

theorem ranged_subportCfg (n : Fin 8) : Ranged RegMap.dPORT_SUBPORT_CFG (RegMap.dPORT_SUBPORT_CFG.base + 8 * n.val) where
  address := by revert n; decide
  counter := by revert n; decide +kernel
  lookup := by revert n; decide +kernel
  endorse := by decide
  free := by revert n; decide
  rule _ _ := rfl
  answer := by revert n; decide

theorem Ranged.writeStatus {r : RegDesc} {a : Nat} (h : Ranged r a) (d : Dev) (v : Nat) :
    d.writeStatus a v = if d.inRange r.base a 0 (r.merge 0 (d.word a) v) then St.ok else St.malformed := by
  unfold Dev.writeStatus
  simp only [h.address, h.counter, h.lookup, h.endorse, h.free, h.rule, Bool.false_eq_true, if_false]
  cases d.inRange r.base a 0 (r.merge 0 (d.word a) v) with
  | true => rfl
  | false => rfl

theorem tickCfg_inRange (d : Dev) (v : Nat) : d.inRange RegMap.dTKP_TICK_CFG.base RegMap.dTKP_TICK_CFG.base 0
    (RegMap.dTKP_TICK_CFG.merge 0 (d.word RegMap.dTKP_TICK_CFG.base) v) = within 500 16000 (bitsOf v 0 14) :=
  congrArg (within 500 16000) (RegDesc.bitsOf_merge (r := RegMap.dTKP_TICK_CFG) (by decide) (by decide) (by decide) _ _)

theorem aprCfg_inRange (d : Dev) (v : Nat) : d.inRange RegMap.dAPR_CFG.base RegMap.dAPR_CFG.base 0
    (RegMap.dAPR_CFG.merge 0 (d.word RegMap.dAPR_CFG.base) v)
      = (within 150 560 (bitsOf v 0 10) && within 60 100 (bitsOf v 16 7) && within 60 90 (bitsOf v 24 7)) := by
  have hb {lo w : Nat} (h : bitsOf (RegMap.dAPR_CFG.mask 0 fun f => f.acc = .rw) lo w = 2 ^ w - 1) :=
    RegDesc.bitsOf_merge h (by decide) (by decide) (d.word RegMap.dAPR_CFG.base) v
  rw [← hb (lo := 0) (w := 10) (by decide), ← hb (lo := 16) (w := 7) (by decide), ← hb (lo := 24) (w := 7) (by decide)]
  rfl

theorem subportCfg_inRange (d : Dev) (a v : Nat) : d.inRange RegMap.dPORT_SUBPORT_CFG.base a 0
    (RegMap.dPORT_SUBPORT_CFG.merge 0 (d.word a) v) = (bitsOf v 0 2 != 3 && within 10 100 (bitsOf v 6 7)) := by
  have hb {lo w : Nat} (h : bitsOf (RegMap.dPORT_SUBPORT_CFG.mask 0 fun f => f.acc = .rw) lo w = 2 ^ w - 1) :=
    RegDesc.bitsOf_merge h (by decide) (by decide) (d.word a) v
  rw [← hb (lo := 0) (w := 2) (by decide), ← hb (lo := 6) (w := 7) (by decide)]
  rfl

/-- A command that executes the write of a register. -/
def ExecutesWrite (c : Instr) (s : State) (a : Nat) (v : Word) : Prop :=
  exec c s = s.clocked (·.regionStopped 21) fun d => d.writeRequest a v.toNat

theorem executesWrite_tickPeriod {s : State} {v : Word} : ExecutesWrite (.tickPeriodWrite v) s RegMap.dTKP_TICK_CFG.base v := rfl

theorem executesWrite_budget {s : State} {v : Word} : ExecutesWrite (.budgetWrite v) s RegMap.dAPR_CFG.base v := rfl

theorem executesWrite_txFc {s : State} {v : Word} : ExecutesWrite (.txFcDisable v) s RegMap.dPORT_CFG.base v := rfl

theorem executesWrite_subportMode {s : State} {n : Fin 8} {v : Word} :
    ExecutesWrite (.subportModeWrite n v) s (RegMap.dPORT_SUBPORT_CFG.base + 8 * n.val) v := rfl

theorem Dev.not_mem_answerParts (d : Dev) {p : Part} (h : p ∉ [.ctl, .port, .lpe, .jrn, .nvm]) : p ∉ d.answerParts := by
  unfold Dev.answerParts
  split
  · simp only [List.mem_cons, not_or] at h
    simp [h.1]
  · exact h

/-- Out of its range a write is refused and changes nothing. -/
theorem Ranged.write_malformed {r : RegDesc} {a : Nat} (h : Ranged r a) {c : Instr} {s : State} {v : Word} (hc : ExecutesWrite c s a v)
    (hr : s.RunsIn 21) (hs : s.dev.get R.LCS_STAT_STATE < 4) (ht : s.dev.Turn 0x02 a (beBytes 8 v.toNat))
    (hrange : s.dev.inRange r.base a 0 (r.merge 0 (s.dev.word a) v.toNat) = false) :
    Completes c s fun d => s.dev.OnlyAnswer d St.malformed [] := by
  have hst : s.dev.writeStatus a v.toNat = St.malformed := by rw [h.writeStatus, hrange]; rfl
  obtain ⟨_, _, hno, _⟩ := writeTakesOrRefuses s a v hr ht (.write a v) (by simp)
  rw [hst] at hno
  obtain ⟨t, hx, hpost⟩ := hno hs (by decide)
  exact ⟨t, (hc.trans rfl).trans hx, hpost⟩

/-- The device with a register's word written, before what follows the write. -/
def Dev.putWord (d : Dev) (r : RegDesc) (a v : Nat) : Dev :=
  if r.merge 0 (d.word a) v = d.word a then d else d.setWord a (r.merge 0 (d.word a) v)

theorem Dev.word_store (d : Dev) (r : RegDesc) (a v : Nat) : (d.putWord r a v).word a = r.merge 0 (d.word a) v % 2 ^ 64 := by
  unfold Dev.putWord
  split
  · rename_i h
    rw [h, Nat.mod_eq_of_lt (d.word_lt a)]
  · exact d.word_setWord_same a _

/-- What the execution of a write moves before its answer: from `d` to `z` the word of the register alone. -/
structure Dev.Stores (d z : Dev) (r : RegDesc) (a v : Nat) : Prop where
  word : z.word a = r.merge 0 (d.word a) v % 2 ^ 64
  moves : d.Moves z [a] [.ctl]
  ctl : z.ctl = d.begin.ctl

theorem Dev.Turn.stores {d : Dev} {opcode addr : Nat} {payload : List Byte} (h : d.Turn opcode addr payload) (r : RegDesc) (a v : Nat) :
    d.Stores (d.begin.putWord r a v) r a v where
  word := by rw [Dev.word_store, h.twin.word]
  moves := by
    have hb : d.Moves d.begin [a] [.ctl] :=
      ⟨h.twin.keepsWords _, (Dev.Accesses.begin d).keepsParts, Dev.keepsMemory_of (Dev.Accesses.begin d).fab⟩
    exact .ite hb (hb.setWord (by simp))
  ctl := by
    unfold Dev.putWord
    split <;> rfl

/-- A write in its range: the word stored, what follows it, and the answer. -/
theorem Ranged.write_eq {r : RegDesc} {a : Nat} (h : Ranged r a) {d : Dev} {v : Word} (hs : d.get R.LCS_STAT_STATE < 4)
    (ht : d.Turn 0x02 a (beBytes 8 v.toNat)) (hrange : d.inRange r.base a 0 (r.merge 0 (d.word a) v.toNat) = true) :
    ∃ z x, d.Stores z r a v.toNat
      ∧ d.writeRequest a v.toNat = d.conclude (z.written r.base a v.toNat) 0x02 { status := St.ok, detail := x } := by
  have hst : d.writeStatus a v.toNat = St.ok := by rw [h.writeStatus, hrange]; rfl
  obtain ⟨x, hx⟩ := ht.writeRequest_eq hs
  have hdo : d.begin.writeDo a v.toNat = (d.begin.putWord r a v.toNat).written r.base a v.toNat := by
    unfold Dev.writeDo
    rw [h.lookup]
    rfl
  rw [if_pos hst, hst, hdo] at hx
  exact ⟨_, x, ht.stores r a v.toNat, hx⟩

/-- What a write in its range leaves, when what follows it moves neither the register's word nor the control frames' state. -/
structure Dev.Wrote (d z e : Dev) (r : RegDesc) (a v : Nat) (ws : List Nat) (ps : List Part) : Prop where
  stores : d.Stores z r a v
  word : e.word a = r.merge 0 (d.word a) v % 2 ^ 64
  answered : d.Answered e St.ok []
  words : d.KeepsWords e (a :: ws ++ d.answerWords)
  parts : d.KeepsParts e (ps ++ d.answerParts)
  memory : d.KeepsMemory e
  /-- What the answer does not move stands as what follows the write has left it. -/
  settled : (z.written r.base a v).KeepsWords e d.answerWords
  rest : (z.written r.base a v).KeepsParts e d.answerParts

theorem Ranged.wrote {r : RegDesc} {a : Nat} (h : Ranged r a) {d : Dev} {v : Word} (hs : d.get R.LCS_STAT_STATE < 4)
    (ht : d.Turn 0x02 a (beBytes 8 v.toNat)) (hrange : d.inRange r.base a 0 (r.merge 0 (d.word a) v.toNat) = true)
    {ws : List Nat} {ps : List Part} (hw : ∀ z : Dev, z.Moves (z.written r.base a v.toNat) ws ps) (ha : a ∉ ws) (hc : .ctl ∉ ps) :
    ∃ z x, d.Wrote z (d.writeRequest a v.toNat) r a v.toNat ws ps
      ∧ d.writeRequest a v.toNat = d.conclude (z.written r.base a v.toNat) 0x02 { status := St.ok, detail := x } := by
  obtain ⟨z, x, hz, hx⟩ := h.write_eq hs ht hrange
  have hy := hw z
  have hyc : (z.written r.base a v.toNat).ctl = z.ctl := hy.parts .ctl hc
  have hst := ht.settles (by decide) (hyc.trans hz.ctl) { status := St.ok, detail := x }
  rw [← hx] at hst
  have hall : d.Moves (z.written r.base a v.toNat) (a :: ws) (ps ++ d.answerParts) :=
    (hz.moves.mono (by simp) (by simp [d.ctl_mem_answerParts])).trans (hy.mono (by simp) (by simp))
  have hna : a ∉ d.answerWords := fun hm => h.answer (d.answerWords_subset _ hm)
  refine ⟨z, x, ⟨hz, ?_, hst.answered, fun w hn => ?_, ?_, ?_, hst.words, hst.parts⟩, hx⟩
  · rw [hst.words a hna, hy.words a ha, hz.word]
  · rw [List.mem_append, not_or] at hn
    exact (hst.words w hn.2).trans (hall.words w hn.1)
  · exact hall.parts.trans (hst.parts.mono (by simp +contextual))
  · exact hall.memory.trans (Dev.keepsMemory_of hst.fab)

/-- A field of the register's word, as a write leaves it. -/
theorem Dev.Wrote.get {d z e : Dev} {r : RegDesc} {a v : Nat} {ws : List Nat} {ps : List Part} (h : d.Wrote z e r a v ws ps) {f : Fld}
    (hf : f.addr = a) (hl : f.lo + f.width ≤ 64) (hrw : bitsOf (r.mask 0 fun f => f.acc = .rw) f.lo f.width = 2 ^ f.width - 1)
    (hc : (r.mask 0 fun f => f.acc = .w1c) = 0) (hs : (r.mask 0 fun f => f.acc = .w1s) = 0) : e.get f = bitsOf v f.lo f.width := by
  unfold Dev.get
  rw [hf, h.word, bitsOf_mod_word hl, RegDesc.bitsOf_merge hrw hc hs]

/-- A field that no answer moves stands as what follows the write has left it. -/
theorem Dev.Wrote.get_settled {d z e : Dev} {r : RegDesc} {a v : Nat} {ws : List Nat} {ps : List Part} (h : d.Wrote z e r a v ws ps)
    {f : Fld} (hf : f.addr ∉ answerMoves) : e.get f = (z.written r.base a v).get f := by
  unfold Dev.get
  rw [h.settled _ fun hm => hf (d.answerWords_subset _ hm)]

theorem subportCfg_addr : ∀ n : Fin 8, (R.PORT_SUBPORT_CFG_MODE n.val).addr = RegMap.dPORT_SUBPORT_CFG.base + 8 * n.val := by decide

/-- The words of a sub-port's configuration and of its state are two, and no answer moves them. -/
theorem subportStat_apart : ∀ n : Fin 8,
    RegMap.dPORT_SUBPORT_CFG.base + 8 * n.val ≠ (R.PORT_SUBPORT_STAT_MODE_PENDING n.val).addr
      ∧ (R.PORT_SUBPORT_STAT_MODE_PENDING n.val).addr ∉ answerMoves ∧ (R.PORT_SUBPORT_CFG_MODE n.val).addr ∉ answerMoves := by decide

section

variable {s : State} {v : Word} (hr : s.RunsIn 21) (hs : s.dev.get R.LCS_STAT_STATE < 4)
include hr hs

theorem Ranged.completes {r : RegDesc} {a : Nat} (h : Ranged r a) {c : Instr} (hx : ExecutesWrite c s a v)
    (ht : s.dev.Turn 0x02 a (beBytes 8 v.toNat)) (hrange : s.dev.inRange r.base a 0 (r.merge 0 (s.dev.word a) v.toNat) = true)
    {ws : List Nat} {ps : List Part} (hw : ∀ z : Dev, z.Moves (z.written r.base a v.toNat) ws ps) (ha : a ∉ ws) (hc : .ctl ∉ ps)
    (hl : .life ∉ ps) {post : Dev → Prop} (hp : ∀ (z e : Dev) (x : Option (List Byte)), s.dev.Wrote z e r a v.toNat ws ps →
      e = s.dev.conclude (z.written r.base a v.toNat) 0x02 { status := St.ok, detail := x } → post e) : Completes c s post := by
  obtain ⟨z, x, hwr, he⟩ := h.wrote hs ht hrange hw ha hc
  refine .ofExecutes hr hx (hwr.parts .life ?_) (hp z _ x hwr he)
  simpa [hl] using s.dev.life_not_mem_answerParts

/-! ### The tick period, the power budget, a sub-port's mode (R28, R78, R419) -/

theorem tickPeriodWrite_completes (ht : s.dev.Turn 0x02 RegMap.dTKP_TICK_CFG.base (beBytes 8 v.toNat))
    (hv : 500 ≤ bitsOf v.toNat 0 14 ∧ bitsOf v.toNat 0 14 ≤ 16000) : Completes (.tickPeriodWrite v) s fun d =>
      (∃ z, s.dev.Wrote z d RegMap.dTKP_TICK_CFG RegMap.dTKP_TICK_CFG.base v.toNat [R.TKP_TICK_STAT_PERIOD_PENDING.addr] [])
        ∧ d.get R.TKP_TICK_CFG_PERIOD_NS = bitsOf v.toNat 0 14 ∧ d.get R.TKP_TICK_STAT_PERIOD_PENDING = 1 := by
  have hwr (z : Dev) : z.written RegMap.dTKP_TICK_CFG.base RegMap.dTKP_TICK_CFG.base v.toNat = z.put R.TKP_TICK_STAT_PERIOD_PENDING 1 := rfl
  refine ranged_tickCfg.completes hr hs executesWrite_tickPeriod ht ((tickCfg_inRange _ _).trans (decide_eq_true hv))
    (ws := [R.TKP_TICK_STAT_PERIOD_PENDING.addr]) (ps := []) (fun z => (Dev.Moves.refl z _ _).put (by simp)) (by decide) (by simp)
    (by simp) fun z e x hw _ => ⟨⟨z, hw⟩, ?_, ?_⟩
  · exact hw.get (f := R.TKP_TICK_CFG_PERIOD_NS) rfl (by decide) (by decide) (by decide) (by decide)
  · rw [hw.get_settled (by decide), hwr, Dev.get_put_same _ _ _ (by decide)]
    rfl

theorem budgetWrite_completes (ht : s.dev.Turn 0x02 RegMap.dAPR_CFG.base (beBytes 8 v.toNat))
    (hv : (within 150 560 (bitsOf v.toNat 0 10) && within 60 100 (bitsOf v.toNat 16 7) && within 60 90 (bitsOf v.toNat 24 7)) = true) :
    Completes (.budgetWrite v) s fun d =>
      (∃ z, s.dev.Wrote z d RegMap.dAPR_CFG RegMap.dAPR_CFG.base v.toNat [] [.plan])
        ∧ d.get R.APR_CFG_BUDGET_W = bitsOf v.toNat 0 10 ∧ d.plan = { s.dev.plan with budgetPending := true } := by
  refine ranged_aprCfg.completes hr hs executesWrite_budget ht ((aprCfg_inRange _ _).trans hv) (ws := []) (ps := [.plan])
    (fun z => (Dev.Moves.refl z _ _).withPlan (by simp) _) (by simp) (by simp) (by simp) fun z e x hw _ => ⟨⟨z, hw⟩, ?_, ?_⟩
  · exact hw.get (f := R.APR_CFG_BUDGET_W) rfl (by decide) (by decide) (by decide) (by decide)
  · have hz : z.plan = s.dev.plan := hw.stores.moves.parts .plan (by simp)
    have he : e.plan = { z.plan with budgetPending := true } := hw.rest .plan (s.dev.not_mem_answerParts (by simp))
    rw [he, hz]

theorem subportModeWrite_completes {n : Fin 8} (ht : s.dev.Turn 0x02 (RegMap.dPORT_SUBPORT_CFG.base + 8 * n.val) (beBytes 8 v.toNat))
    (hv : (bitsOf v.toNat 0 2 != 3 && within 10 100 (bitsOf v.toNat 6 7)) = true) : Completes (.subportModeWrite n v) s fun d =>
      (∃ z, s.dev.Wrote z d RegMap.dPORT_SUBPORT_CFG (RegMap.dPORT_SUBPORT_CFG.base + 8 * n.val) v.toNat
          [(R.PORT_SUBPORT_STAT_MODE_PENDING n.val).addr] [])
        ∧ d.get (R.PORT_SUBPORT_CFG_MODE n.val) = bitsOf v.toNat 0 2 ∧ d.mode n.val = s.dev.mode n.val
        ∧ (d.get (R.PORT_SUBPORT_STAT_MODE_PENDING n.val) = 1 ↔ bitsOf v.toNat 0 2 ≠ s.dev.mode n.val) := by
  have hwr (z : Dev) : z.written RegMap.dPORT_SUBPORT_CFG.base (RegMap.dPORT_SUBPORT_CFG.base + 8 * n.val) v.toNat
      = z.subportCfgWritten n.val := by
    have hn : (RegMap.dPORT_SUBPORT_CFG.base + 8 * n.val - RegMap.dPORT_SUBPORT_CFG.base) / 8 = n.val := by omega
    exact congrArg z.subportCfgWritten hn
  have hne := subportStat_apart n
  refine (ranged_subportCfg n).completes hr hs executesWrite_subportMode ht ((subportCfg_inRange _ _ _).trans hv)
    (ws := [(R.PORT_SUBPORT_STAT_MODE_PENDING n.val).addr]) (ps := [])
    (fun z => (hwr z).symm ▸ (Dev.Moves.refl z _ _).put (by simp)) (by simpa using hne.1) (by simp) (by simp)
    fun z e x hw _ => ?_
  have hact : (R.PORT_SUBPORT_STAT_MODE_ACTIVE n.val).addr ∉ answerMoves := hne.2.1
  have hmode : z.mode n.val = s.dev.mode n.val := hw.stores.moves.get fun hm => hne.1 (List.mem_singleton.1 hm).symm
  have hrw : bitsOf (RegMap.dPORT_SUBPORT_CFG.mask 0 fun f => f.acc = .rw) 0 2 = 2 ^ 2 - 1 := by decide
  have hcfg : e.get (R.PORT_SUBPORT_CFG_MODE n.val) = bitsOf v.toNat 0 2 :=
    hw.get (subportCfg_addr n) (show 0 + 2 ≤ 64 by decide) hrw (by decide) (by decide)
  have hset : z.get (R.PORT_SUBPORT_CFG_MODE n.val) = bitsOf v.toNat 0 2 := by
    rw [← hcfg, hw.get_settled hne.2.2, hwr]
    exact (Dev.get_put_other _ _ _ _ (by simpa [subportCfg_addr n] using hne.1)).symm
  have hpend : e.get (R.PORT_SUBPORT_STAT_MODE_PENDING n.val) = b2n (bitsOf v.toNat 0 2 != s.dev.mode n.val) := by
    rw [hw.get_settled hne.2.1, hwr, Dev.subportCfgWritten, Dev.get_put_same _ _ _ (show 19 + 1 ≤ 64 by decide), hset, hmode]
    cases bitsOf v.toNat 0 2 != s.dev.mode n.val with
    | true => rfl
    | false => rfl
  refine ⟨⟨z, hw⟩, hcfg, ?_, ?_⟩
  · rw [Dev.mode, hw.get_settled hact, hwr, Dev.subportCfgWritten,
      Dev.get_put_apart _ _ _ _ (show 19 + 1 ≤ 64 by decide) (.inr (show 19 + 1 ≤ 20 by decide))]
    exact hmode
  · rw [hpend]
    by_cases hm : bitsOf v.toNat 0 2 = s.dev.mode n.val
    · simp [hm, b2n]
    · simp [hm, b2n]

end

end Sys2Proof.Machine
end

section
/-! The port behind an answer (it only sends, and own frames come and go), and the write of `PORT_CFG` (R64, R68); O19. -/

namespace Sys2Proof.Machine

/-! ### The port behind an answer -/

/-- From `d` to `e` the port has at most sent frames, and of its sub-ports only the own frames that wait have changed. -/
structure Dev.OnlySends (d e : Dev) : Prop where
  sent : ∃ fs, e.port.sent = d.port.sent ++ fs
  subs : (e.port.subs.map fun s => { s with own := [] }) = d.port.subs.map fun s => { s with own := [] }

namespace Dev.OnlySends

variable {d e e' : Dev}

theorem refl (d : Dev) : d.OnlySends d := ⟨⟨[], by simp⟩, rfl⟩

theorem same (h : d.OnlySends e) (hp : e'.port = e.port := by rfl) : d.OnlySends e' := by
  obtain ⟨hs, hsubs⟩ := h
  rw [← hp] at hs hsubs
  exact ⟨hs, hsubs⟩

theorem ite {c : Prop} [Decidable c] (h : d.OnlySends e) (h' : d.OnlySends e') : d.OnlySends (if c then e else e') := by
  split <;> assumption

theorem put (h : d.OnlySends e) {f : Fld} {v : Nat} : d.OnlySends (e.put f v) := h.same (Dev.put_port ..)

theorem bump (h : d.OnlySends e) {a n : Nat} : d.OnlySends (e.bump a n) := h.same (Dev.bump_port ..)

theorem each (h : d.OnlySends e) {α : Type} {xs : List α} {f : Dev → α → Dev}
    (hf : ∀ {e x}, d.OnlySends e → d.OnlySends (f e x)) : d.OnlySends (e.each xs f) :=
  Dev.each_inv d.OnlySends xs f e h fun _ _ => hf

theorem send (h : d.OnlySends e) {sp : Nat} {f : List Byte} : d.OnlySends (e.send sp f) := by
  by_cases hu : e.up sp = true
  · obtain ⟨⟨fs, hs⟩, hsubs⟩ := h
    refine ⟨⟨fs ++ [Sent.frame sp (padTo (max 60 f.length) f)], ?_⟩, ?_⟩
    · rw [Dev.port_send hu, hs, List.append_assoc]
    · rw [Dev.port_send hu]
      exact hsubs
  · rw [Dev.send, if_neg hu]
    exact h

theorem modOwn (h : d.OnlySends e) (sp : Nat) (g : SubPort → List OwnFrame) : d.OnlySends (e.modSub sp fun s => { s with own := g s }) := by
  have hmap (xs : List SubPort) (i : Nat) : ((modifyNth i (fun s => { s with own := g s }) xs).map fun s => { s with own := [] })
      = xs.map fun s => { s with own := [] } := by
    induction xs generalizing i with
    | nil => simp only [modifyNth]
    | cons x xs ih =>
      cases i with
      | zero => rfl
      | succ i => exact congrArg (_ :: ·) (ih i)
  exact ⟨h.sent, (hmap _ sp).trans h.subs⟩

theorem ownLeaves (h : d.OnlySends e) {sp : Nat} {f : OwnFrame} : d.OnlySends (Dev.ownLeaves sp e f) := by
  refine send ?_
  cases f.kind with
  | plain => exact h
  | journalExport => exact h.bump
  | loupeExport => exact h.bump
  | delayReq q => exact h.same

theorem drainOwn (h : d.OnlySends e) {sp : Nat} : d.OnlySends (e.drainOwn sp) :=
  .ite h ((h.modOwn sp fun _ => []).each fun h => h.ownLeaves)

theorem sendOwn (h : d.OnlySends e) {sp : Nat} {f : OwnFrame} : d.OnlySends (e.sendOwn sp f) :=
  .ite ((h.modOwn sp fun s => s.own ++ [f]).drainOwn) h

theorem journalSend (h : d.OnlySends e) {sp k : Nat} : d.OnlySends (Dev.journalSend sp k e) := by
  induction k generalizing e with
  | zero => exact h
  | succ k ih =>
    have h1 {n : Nat} {f : OwnFrame} : d.OnlySends ((e.frameUse sp n).sendOwn sp f) := sendOwn h.same
    exact .ite h (ih h1.same)

theorem journalExport (h : d.OnlySends e) : d.OnlySends e.journalExport := by
  have h1 {n : Nat} : d.OnlySends (e.bump C.JRN_EXPORT_SKIPPED n) := h.bump
  exact .ite h1.same (.ite (journalSend h1.same) h1.same)

theorem sign (h : d.OnlySends e) {k : Nat} {digest : List Byte} {r : List Byte × Dev} (hr : e.sign k digest = some r) :
    d.OnlySends r.2 := by
  unfold Dev.sign at hr
  extract_lets next top top1 e2 sig e3 at hr
  split at hr
  · cases hr
  · rw [← Option.some.inj hr]
    have hm {x : Dev} {f : KeyState → KeyState} (hx : d.OnlySends x) : d.OnlySends (x.modKey k f) := hx.same
    have h2 : d.OnlySends e2 := .ite h (hm h.put)
    have h3 : d.OnlySends e3 := hm h2
    have h4 {v : Nat} : d.OnlySends ((e3.put (R.SEC_KEY_NEXT k) v).bump C.SEC_SIGNATURES) := h3.put.bump
    exact h4

theorem closeBatch (h : d.OnlySends e) {cause : Nat} : d.OnlySends (e.closeBatch cause) := by
  unfold Dev.closeBatch
  split
  · exact h
  · extract_lets entries seq root hdr
    split
    rename_i sig e1 he1
    have h1 : d.OnlySends e1 := by
      split at he1
      · rename_i r hr
        have hr1 : r.2 = e1 := congrArg Prod.snd he1
        exact hr1 ▸ h.sign hr
      · cases he1
        exact h.put
    extract_lets body bytes head kept ring oldest jrn nvm e2 e3 e4
    have h2 : d.OnlySends e2 := h1.same
    have h3 : d.OnlySends e3 := h2.put.put.put
    have h4 : d.OnlySends e4 := h3.each fun h => h.put
    exact h4.bump.journalExport

theorem journal (h : d.OnlySends e) {x : JEntry} : d.OnlySends (e.journal x) := by
  unfold Dev.journal
  extract_lets n bytes first jrn nvm e1 e2
  have h1 : d.OnlySends e1 := h.same
  have h2 : d.OnlySends e2 := h1.put.bump
  exact .ite h2.closeBatch h2

theorem reply (h : d.OnlySends e) {r : Req} {a : Answer} : d.OnlySends (e.reply r a) := by
  unfold Dev.reply
  extract_lets e1 e2 e3 x
  have h1 : d.OnlySends e1 := h.sendOwn
  have h2 : d.OnlySends e2 := .ite h1.bump h1.bump
  have h3 : d.OnlySends e3 := .ite (same h2.bump) h2
  exact .ite h3.journal h3

theorem finishHead (h : d.OnlySends e) {a : Answer} : d.OnlySends (e.finishHead a) := by
  unfold Dev.finishHead Dev.respond
  split
  · exact h
  · have h1 {r : Req} : d.OnlySends ((e.reply r a).seqStatus r a.status) := h.reply.same
    exact h1.same

theorem conclude (h : d.OnlySends e) (z : Dev) {opcode : Nat} (hop : opcode ≠ 0x10) {a : Answer} : d.OnlySends (z.conclude e opcode a) := by
  unfold Dev.conclude
  rw [Dev.noteAnswer_eq _ hop]
  exact .ite h.same (finishHead h.same)

theorem partnerPaused (h : d.OnlySends e) (sp : Nat) :
    (e.port.subs.getD sp SubPort.empty).partnerPaused = (d.port.subs.getD sp SubPort.empty).partnerPaused := by
  have hg := congrArg (fun xs : List SubPort => (xs.getD sp SubPort.empty).partnerPaused) h.subs
  simp only [List.getD_eq_getElem?_getD, List.getElem?_map] at hg
  cases hq : e.port.subs[sp]? <;> cases hp : d.port.subs[sp]? <;> simp_all

theorem pausedPartners (h : d.OnlySends e) : e.pausedPartners = d.pausedPartners :=
  List.filter_congr fun sp _ => h.partnerPaused sp

theorem inlineBytes (h : d.OnlySends e) (hf : e.front = d.front) : e.inlineBytes = d.inlineBytes := by
  have hg := congrArg (fun xs : List SubPort => (xs.map fun s => (s.egress.map fun e => e.held).sum).sum) h.subs
  simp only [List.map_map] at hg
  unfold Dev.inlineBytes
  rw [hf]
  exact congrArg (_ + ·) hg

end Dev.OnlySends

/-! ### The write of `PORT_CFG` (R64, R68) -/

theorem Completes.mono {c : Instr} {s : State} {post post' : Dev → Prop} (h : Completes c s post) (hp : ∀ d, post d → post' d) :
    Completes c s post' := by
  obtain ⟨t, hx, hq, ht⟩ := h
  exact ⟨t, hx, hq, hp _ ht⟩

/-- The words that own frames leaving every sub-port move. -/
def ownFlushWords : List Nat := (List.range 8).flatMap ownWords

theorem linkUp_not_mem_ownFlushWords : ∀ sp < 8, (R.PORT_SUBPORT_STAT_LINK_UP sp).addr ∉ ownFlushWords := by decide +kernel

theorem linkUp_ne_portCfg : ∀ sp < 8, (R.PORT_SUBPORT_STAT_LINK_UP sp).addr ≠ RegMap.dPORT_CFG.base := by decide

theorem txPause_not_mem_ownFlushWords : ∀ sp < 8, C.PORT_TX_PAUSE sp ∉ ownFlushWords ∧ C.PORT_TX_PAUSE sp ∉ answerMoves
    ∧ C.PORT_TX_PAUSE sp ≠ RegMap.dPORT_CFG.base := by decide +kernel

namespace Dev

/-- The own frames that wait leave every sub-port whose class is not held. -/
def drainAll (d : Dev) : Dev := d.each (List.range 8) Dev.drainOwn

theorem portCfgWritten_eq (d : Dev) :
    d.portCfgWritten = if d.drainAll.on R.PORT_CFG_TX_FC_EN then d.drainAll.flowControl else d.drainAll.releasePartners := rfl

theorem moves_drainAll (d : Dev) : d.Moves d.drainAll ownFlushWords [.port, .lpe] :=
  (Moves.refl d _ _).each fun _ hsp _ he =>
    he.drainOwn (by simp) (by simp) fun _ ha => List.mem_flatMap.2 ⟨_, hsp, ha⟩

theorem onlySends_drainAll (d : Dev) : d.OnlySends d.drainAll := (OnlySends.refl d).each fun h => h.drainOwn

theorem moves_portCfgWritten (d : Dev) : d.Moves d.portCfgWritten (flowWords ++ ownFlushWords) [.port, .lpe] := by
  have hx : d.Moves d.drainAll (flowWords ++ ownFlushWords) [.port, .lpe] := d.moves_drainAll.mono (by simp) (by simp)
  rw [portCfgWritten_eq]
  refine .ite (hx.flowControl (by simp) (by simp)) ?_
  rw [releasePartners_eq]
  exact hx.pauseEach (by simp) (by simp) _ _ (pausedPartners_lt _)

/-- Behind its quanta's place a pause of quanta 0 is all zero, its padding with it. -/
theorem zero_of_mem_drop_pauseFrame (d : Dev) : ∀ b ∈ (d.pauseFrame 0).drop (if d.on R.PORT_CFG_TX_FC_PFC then 18 else 16), b = 0 := by
  obtain ⟨n, hn⟩ := d.pauseFrame_eq 0
  have hz : ∀ b ∈ zeros n, b = 0 := fun b hb => List.eq_of_mem_replicate hb
  rw [hn]
  cases d.on R.PORT_CFG_TX_FC_PFC with
  | true =>
    have hb : ∀ b ∈ (pauseBody true 0).drop 4, b = 0 := by decide
    rw [if_pos rfl, show 18 = d.pauseHead.length + 4 by rw [length_pauseHead], List.drop_length_add_append,
      List.drop_append_of_le_length (by decide)]
    exact fun b h => (List.mem_append.1 h).elim (hb b) (hz b)
  | false =>
    have hb : ∀ b ∈ (pauseBody false 0).drop 2, b = 0 := by decide
    rw [if_neg (by decide), show 16 = d.pauseHead.length + 2 by rw [length_pauseHead], List.drop_length_add_append,
      List.drop_append_of_le_length (by decide)]
    exact fun b h => (List.mem_append.1 h).elim (hb b) (hz b)

theorem beAt_pauseFrame_opcode (d : Dev) (q : Nat) :
    beAt (d.pauseFrame q) 14 2 = if d.on R.PORT_CFG_TX_FC_PFC then 0x0101 else 0x0001 := by
  have h := d.beAt_pauseFrame_body q (i := 0) (n := 2)
  cases hp : d.on R.PORT_CFG_TX_FC_PFC with
  | true =>
    rw [hp] at h
    rw [if_pos rfl, h (by simp [pauseBody]), pauseBody, if_pos rfl, List.append_assoc, beAt_append_left (by decide)]
    decide
  | false =>
    rw [hp] at h
    rw [if_neg (by decide), h (by simp [pauseBody]), pauseBody, if_neg (by decide), beAt_append_left (by decide)]
    decide

theorem beAt_pauseFrame_classes {d : Dev} (h : d.on R.PORT_CFG_TX_FC_PFC = true) (q : Nat) : beAt (d.pauseFrame q) 16 2 = 0x00FF := by
  have hb := d.beAt_pauseFrame_body q (i := 2) (n := 2)
  rw [h] at hb
  rw [hb (by simp [pauseBody]), pauseBody, if_pos rfl, beAt_append_left (by decide)]
  decide

theorem pausedPartners_releasePartners (d : Dev) : d.releasePartners.pausedPartners = [] := by
  refine List.filter_eq_nil_iff.2 fun sp hsp => ?_
  rw [releasePartners_eq, port_pauseEach _ _ _ d.pausedPartners_lt]
  dsimp only
  rw [getD_notePaused]
  dsimp only
  split
  · simp
  · rename_i hn
    intro hp
    have hmem : sp ∈ d.pausedPartners := List.mem_filter.2 ⟨hsp, hp⟩
    refine hn ⟨hmem, Nat.lt_of_not_le fun hle => ?_⟩
    rw [List.getD_eq_default _ _ hle] at hp
    exact absurd hp (by decide)

/-- Above `XON_KIB` flow control leaves the partners that are paused so. -/
theorem pausedPartners_flowControl {d : Dev} (hx : d.get R.PORT_INLINE_BUF_XON_KIB * 1024 < d.inlineBytes) (hp : d.pausedPartners ≠ []) :
    d.flowControl.pausedPartners = d.pausedPartners := by
  obtain ⟨e, he⟩ : ∃ e, e = d.peak R.PORT_INLINE_BUF_PEAK_KIB (cdiv d.inlineBytes 1024) := ⟨_, rfl⟩
  have hport : e.port = d.port := he ▸ d.peak_port _ _
  have hpp : e.pausedPartners = d.pausedPartners := by
    unfold pausedPartners
    rw [hport]
  have hxon : e.get R.PORT_INLINE_BUF_XON_KIB = d.get R.PORT_INLINE_BUF_XON_KIB := by
    rw [he]
    unfold peak
    split
    · exact get_put_apart _ _ _ _ (by decide) (by decide)
    · rfl
  unfold flowControl
  dsimp only
  rw [← he]
  have hne : ¬e.pausedPartners.isEmpty = true := by simpa [hpp] using hp
  have hle : ¬d.inlineBytes ≤ e.get R.PORT_INLINE_BUF_XON_KIB * 1024 := hxon.symm ▸ Nat.not_le.2 hx
  rw [if_neg hne, if_neg hle, ite_self, hpp]

end Dev

section

variable {s : State} {v : Word} {z e : Dev}

/-- What the write of `PORT_CFG` leaves when its answer has gone. -/
structure Dev.PortCfgWrote (d z e : Dev) (v : Nat) : Prop where
  wrote : d.Wrote z e RegMap.dPORT_CFG RegMap.dPORT_CFG.base v (flowWords ++ ownFlushWords) [.port, .lpe]
  sends : z.portCfgWritten.OnlySends e

namespace Dev.PortCfgWrote

variable {d : Dev} {v : Nat} (h : d.PortCfgWrote z e v)
include h

theorem port : z.port = d.port := h.wrote.stores.moves.parts .port (by simp)

/-- A field of the register that the write leaves, as the own frames that left see it. -/
theorem get_drainAll {f : Fld} (hf : f.addr = RegMap.dPORT_CFG.base) : z.drainAll.get f = e.get f := by
  have ha : f.addr ∉ answerMoves ∧ f.addr ∉ flowWords ++ ownFlushWords ∧ f.addr ∉ ownFlushWords := by
    rw [hf]
    decide +kernel
  obtain ⟨hans, hall, hown⟩ := ha
  calc z.drainAll.get f = z.get f := z.moves_drainAll.get hown
    _ = z.portCfgWritten.get f := (z.moves_portCfgWritten.get hall).symm
    _ = e.get f := (h.wrote.get_settled hans).symm

theorem on_drainAll {f : Fld} (hf : f.addr = RegMap.dPORT_CFG.base) : z.drainAll.on f = e.on f := by
  unfold Dev.on
  rw [h.get_drainAll hf]

theorem txFcEn : e.get R.PORT_CFG_TX_FC_EN = bitsOf v 20 1 := h.wrote.get rfl (by decide) (by decide) (by decide) (by decide)

theorem pausedPartners_drainAll : z.drainAll.pausedPartners = d.pausedPartners := by
  rw [z.onlySends_drainAll.pausedPartners, Dev.pausedPartners, h.port]
  rfl

theorem up_drainAll {sp : Nat} (hsp : sp < 8) : z.drainAll.up sp = d.up sp :=
  (z.moves_drainAll.on (linkUp_not_mem_ownFlushWords sp hsp)).trans
    (h.wrote.stores.moves.on (by simpa using linkUp_ne_portCfg sp hsp))

/-- With `TX_FC_EN` cleared the partners are released, each by a pause of quanta 0 (R68). -/
theorem releases (hv : bitsOf v 20 1 = 0) : e.on R.PORT_CFG_TX_FC_EN = false ∧ e.pausedPartners = []
    ∧ ∀ sp ∈ d.pausedPartners, d.up sp = true → d.Counts e (C.PORT_TX_PAUSE sp) 1
      ∧ .frame sp (z.drainAll.pauseFrame 0) ∈ e.port.sent.drop d.port.sent.length := by
  have hon : e.on R.PORT_CFG_TX_FC_EN = false := by
    unfold Dev.on
    rw [h.txFcEn, hv]
    rfl
  have hoff : z.drainAll.on R.PORT_CFG_TX_FC_EN = false := (h.on_drainAll rfl).trans hon
  have hw : z.portCfgWritten = z.drainAll.releasePartners := by
    rw [Dev.portCfgWritten_eq, hoff]
    rfl
  refine ⟨hon, ?_, fun sp hsp hu => ?_⟩
  · rw [h.sends.pausedPartners, hw, Dev.pausedPartners_releasePartners]
  have hlt : sp < 8 := d.pausedPartners_lt sp hsp
  have hup : z.drainAll.up sp = true := (h.up_drainAll hlt).trans hu
  obtain ⟨hown, hans, hne⟩ := txPause_not_mem_ownFlushWords sp hlt
  constructor
  · have hc : z.drainAll.Counts z.portCfgWritten (C.PORT_TX_PAUSE sp) 1 := by
      rw [hw, Dev.releasePartners_eq]
      exact Dev.counts_pauseEach 0 false (Dev.pausedPartners_lt _) (Dev.nodup_pausedPartners _)
        (h.pausedPartners_drainAll.symm ▸ hsp) hup
    have hx : z.drainAll.word (C.PORT_TX_PAUSE sp) = d.word (C.PORT_TX_PAUSE sp) :=
      (z.moves_drainAll.words _ hown).trans (h.wrote.stores.moves.words _ (by simpa using hne))
    have he : e.word (C.PORT_TX_PAUSE sp) = z.portCfgWritten.word (C.PORT_TX_PAUSE sp) :=
      h.wrote.settled _ fun hm => hans (d.answerWords_subset _ hm)
    unfold Dev.Counts at hc ⊢
    rw [he, hc, hx]
  · obtain ⟨fs, hfs⟩ := h.sends.sent
    obtain ⟨gs, hgs⟩ := z.onlySends_drainAll.sent
    rw [hfs, hw, Dev.releasePartners_eq, Dev.port_pauseEach _ _ _ (Dev.pausedPartners_lt _), hgs, h.port]
    dsimp only
    rw [List.append_assoc, List.append_assoc, List.drop_left]
    have hf : sp ∈ z.drainAll.pausedPartners.filter z.drainAll.up :=
      List.mem_filter.2 ⟨h.pausedPartners_drainAll.symm ▸ hsp, hup⟩
    exact List.mem_append_right _ (List.mem_append_left _ (List.mem_map_of_mem hf))

/-- With `TX_FC_EN` set the partners that are paused stay so while the buffer is above `XON_KIB`. -/
theorem keeps (hv : bitsOf v 20 1 = 1) : e.on R.PORT_CFG_TX_FC_EN = true
    ∧ (d.get R.PORT_INLINE_BUF_XON_KIB * 1024 < d.inlineBytes → d.pausedPartners ≠ [] → e.pausedPartners = d.pausedPartners) := by
  have hon : e.on R.PORT_CFG_TX_FC_EN = true := by
    unfold Dev.on
    rw [h.txFcEn, hv]
    rfl
  have hw : z.portCfgWritten = z.drainAll.flowControl := by
    rw [Dev.portCfgWritten_eq, h.on_drainAll (f := R.PORT_CFG_TX_FC_EN) rfl, hon]
    rfl
  refine ⟨hon, fun hx hp => ?_⟩
  have hbytes : z.drainAll.inlineBytes = d.inlineBytes := by
    have hz : z.inlineBytes = d.inlineBytes := by
      unfold Dev.inlineBytes
      rw [h.port, show z.front = d.front from h.wrote.stores.moves.parts .front (by simp)]
    exact (z.onlySends_drainAll.inlineBytes (z.moves_drainAll.parts .front (by simp))).trans hz
  have hxon : z.drainAll.get R.PORT_INLINE_BUF_XON_KIB = d.get R.PORT_INLINE_BUF_XON_KIB :=
    (z.moves_drainAll.get (by decide +kernel)).trans (h.wrote.stores.moves.get (by decide))
  rw [h.sends.pausedPartners, hw, Dev.pausedPartners_flowControl (by rw [hxon, hbytes]; exact hx)
    (by rw [h.pausedPartners_drainAll]; exact hp), h.pausedPartners_drainAll]

end Dev.PortCfgWrote

theorem txFcDisable_completes (hr : s.RunsIn 21) (hs : s.dev.get R.LCS_STAT_STATE < 4)
    (ht : s.dev.Turn 0x02 RegMap.dPORT_CFG.base (beBytes 8 v.toNat)) :
    Completes (.txFcDisable v) s fun e => ∃ z, s.dev.PortCfgWrote z e v.toNat := by
  refine ranged_portCfg.completes hr hs executesWrite_txFc ht rfl (fun z => z.moves_portCfgWritten) (by decide +kernel) (by simp)
    (by simp) fun z e x hw he => ⟨z, hw, ?_⟩
  rw [he]
  exact (Dev.OnlySends.refl _).conclude s.dev (by decide)

end

/-- Settles O19: each write is stored by what follows its register (R28, R68, R78, R419), and refused out of its range. -/
theorem writesTakeEffectLater : Obligations.WritesTakeEffectLater := by
  intro s v hr hs turn stored
  have hstored {z d : Dev} {r : RegDesc} {a : Nat} {ws : List Nat} {ps : List Part} (h : s.dev.Wrote z d r a v.toNat ws ps) :
      stored r a d := ⟨h.word, h.answered, h.memory⟩
  refine ⟨fun ht => ⟨fun hv => ?_, fun hv => ?_⟩, fun ht => ⟨fun hv => ?_, fun hv => ?_⟩, fun n ht => ⟨fun hv => ?_, fun hv => ?_⟩,
    fun ht => ?_⟩
  · refine (tickPeriodWrite_completes hr hs ht hv).mono fun d ⟨⟨z, hw⟩, hper, hpend⟩ => ?_
    exact ⟨hstored hw, hper, hpend, hw.words, hw.parts⟩
  · exact ranged_tickCfg.write_malformed executesWrite_tickPeriod hr hs ht ((tickCfg_inRange _ _).trans (decide_eq_false hv))
  · refine (budgetWrite_completes hr hs ht hv).mono fun d ⟨⟨z, hw⟩, hb, hp⟩ => ?_
    exact ⟨hstored hw, hb, hp, hw.words, hw.parts⟩
  · exact ranged_aprCfg.write_malformed executesWrite_budget hr hs ht ((aprCfg_inRange _ _).trans hv)
  · refine (subportModeWrite_completes hr hs ht hv).mono fun d ⟨⟨z, hw⟩, hm, hact, hpend⟩ => ?_
    refine ⟨hstored hw, hm, hact, hpend, ?_, hw.parts⟩
    rw [subportCfg_addr]
    exact hw.words
  · exact (ranged_subportCfg n).write_malformed executesWrite_subportMode hr hs ht ((subportCfg_inRange _ _ _).trans hv)
  · refine (txFcDisable_completes hr hs ht).mono fun d ⟨z, h⟩ => ?_
    refine ⟨hstored h.wrote, h.wrote.words, h.wrote.parts, fun hv => ?_, h.keeps⟩
    obtain ⟨hon, hpp, hsent⟩ := h.releases hv
    refine ⟨hon, hpp, fun sp hsp hu => ?_⟩
    obtain ⟨hc, hf⟩ := hsent sp hsp hu
    have hpfc : d.on R.PORT_CFG_TX_FC_PFC = z.drainAll.on R.PORT_CFG_TX_FC_PFC := (h.on_drainAll rfl).symm
    refine ⟨hc, _, hf, Dev.beAt_pauseFrame_da _ _, Dev.beAt_pauseFrame_type _ _, ?_, ?_, ?_⟩
    · rw [hpfc]
      exact Dev.beAt_pauseFrame_opcode _ _
    · intro hp
      exact Dev.beAt_pauseFrame_classes (hpfc.symm.trans hp) _
    · rw [hpfc]
      exact Dev.zero_of_mem_drop_pauseFrame _

end Sys2Proof.Machine
end

section
/-! What a tick boundary turns of the plan (O38): the tick, its time, the batches that compute and collect. `Dev.Turns κ τ` says where
these stand, and, where `κ` watches them, what a refused widening keeps (O40); there is one lemma for each operation of a boundary,
`Dev.Turns.f` for `Dev.f`, in the model's order, whose proof follows the operation's text as in `Dev.Canon`: `h.put.bump` for
`(d.put …).bump …`, `.ite` for an `if`, `.same` for an update that leaves them. -/

namespace Sys2Proof.Machine

-- One proof after the other: together, that many short proofs ask for more threads than the check's memory limit allows.
set_option Elab.async false

/-! ### What turns at a boundary -/

/-- Where the device's ticks stand: its time base, its tick, and of its batches what no sample's work changes. -/
structure Turning where
  ns : Nat
  tick : Nat
  tickNs : Nat
  nextNs : Nat
  period : Nat
  firstTick : Option Nat
  missed : Nat
  collecting : Option Batch
  /-- The number of the computing batch. -/
  computing : Option Nat

def Turning.of (ns : Nat) (p : Plan) : Turning :=
  { ns := ns, tick := p.tick, tickNs := p.tickNs, nextNs := p.nextNs, period := p.period, firstTick := p.firstTick, missed := p.missed,
    collecting := p.collecting, computing := p.computing.map fun b => b.number }

/-- What the end of an operation on a result is watched for: the counter of refused widenings, the clock of the planner's region, the
life-cycle records and the supply, which it keeps, and the widen requests and grants, of which it makes none (R329). -/
structure WidenWatch where
  count : Nat
  region : Nat
  life : Life
  phase : Phase
  widen : List Pass
  granted : List Pass

/-- The words that are watched. -/
def watchedWords : List Nat := [C.TKP_WIDEN_REFUSED, (R.LPE_REGION_STAT_STOPPED 20).addr]

structure Dev.Leaves (d : Dev) (k : WidenWatch) : Prop where
  count : d.word C.TKP_WIDEN_REFUSED = k.count
  region : d.word (R.LPE_REGION_STAT_STOPPED 20).addr = k.region
  life : d.life = k.life
  phase : d.sup.phase = k.phase
  widen : ∀ p ∈ d.lens.widen, p ∈ k.widen
  granted : ∀ p ∈ d.lens.granted, p ∈ k.granted

/-- The device's ticks stand so; and so do its widenings, where they are watched. -/
structure Dev.Turns (d : Dev) (κ : Option WidenWatch) (τ : Turning) : Prop where
  ticks : Turning.of d.ns d.plan = τ
  leaves : ∀ k, κ = some k → d.Leaves k

variable {d e : Dev} {κ : Option WidenWatch} {τ : Turning}

/-- An update that leaves what turns. -/
theorem Dev.Turns.same (h : d.Turns κ τ) {draws frac port front plan lens seq sync fab lpe ctl jrn nvm life sec sup}
    (h1 : plan.tick = d.plan.tick := by rfl) (h2 : plan.tickNs = d.plan.tickNs := by rfl) (h3 : plan.nextNs = d.plan.nextNs := by rfl)
    (h4 : plan.period = d.plan.period := by rfl) (h5 : plan.firstTick = d.plan.firstTick := by rfl)
    (h6 : plan.missed = d.plan.missed := by rfl) (h7 : plan.collecting = d.plan.collecting := by rfl)
    (h8 : plan.computing.map (·.number) = d.plan.computing.map (·.number) := by rfl)
    (hl : life = d.life := by rfl) (hs : sup.phase = d.sup.phase := by rfl)
    (hw : ∀ p ∈ lens.widen, p ∈ d.lens.widen := by exact fun _ h => h)
    (hg : ∀ p ∈ lens.granted, p ∈ d.lens.granted := by exact fun _ h => h) :
    (Dev.mk d.regs draws d.ns frac port front plan lens seq sync fab lpe ctl jrn nvm life sec sup).Turns κ τ where
  ticks := by
    rw [← h.ticks]
    unfold Turning.of
    dsimp only
    rw [h1, h2, h3, h4, h5, h6, h7, h8]
  leaves k hk :=
    have hk := h.leaves k hk
    ⟨hk.count, hk.region, hl.trans hk.life, hs.trans hk.phase, fun p hp => hk.widen p (hw p hp), fun p hp => hk.granted p (hg p hp)⟩

/-- Words and other parts changed, where no widening is watched. -/
theorem Dev.Turns.withRegs (h : d.Turns none τ) {regs draws frac port front lens seq sync fab lpe ctl jrn nvm life sec sup} :
    (Dev.mk regs draws d.ns frac port front d.plan lens seq sync fab lpe ctl jrn nvm life sec sup).Turns none τ :=
  ⟨h.ticks, nofun⟩

/-- An update of what turns. -/
theorem Dev.Turns.move (h : d.Turns none τ) (f : Turning → Turning) (he : Turning.of e.ns e.plan = f (Turning.of d.ns d.plan)) :
    e.Turns none (f τ) := ⟨he.trans (congrArg f h.ticks), nofun⟩

/-- The programs that are placed do not turn. -/
theorem Dev.Turns.withPlaced (h : d.Turns κ τ) {ps} : ({ d with plan := { d.plan with placed := ps } } : Dev).Turns κ τ := h.same

theorem Dev.Turns.ite {c : Prop} [Decidable c] (hd : d.Turns κ τ) (he : e.Turns κ τ) : (if c then d else e).Turns κ τ := by
  split <;> assumption
theorem Dev.Turns.ite_fst {α : Type} {c : Prop} [Decidable c] {p q : Dev × α} (hp : p.1.Turns κ τ) (hq : q.1.Turns κ τ) :
    (if c then p else q).1.Turns κ τ := by
  split <;> assumption
theorem Dev.Turns.ite_snd {α : Type} {c : Prop} [Decidable c] {p q : α × Dev} (hp : p.2.Turns κ τ) (hq : q.2.Turns κ τ) :
    (if c then p else q).2.Turns κ τ := by
  split <;> assumption
theorem Dev.Turns.fst (h : d.Turns κ τ) {α : Type} {x : α} : (d, x).1.Turns κ τ := h
theorem Dev.Turns.snd (h : d.Turns κ τ) {α : Type} {x : α} : (x, d).2.Turns κ τ := h
theorem Dev.Turns.of_fst {α : Type} {p : Dev × α} {x : α} (h : p.1.Turns κ τ) (hp : p = (e, x)) : e.Turns κ τ := by
  rw [hp] at h; exact h
theorem Dev.Turns.foldl {α : Type} {f : Dev → α → Dev} (h : d.Turns κ τ) (hf : ∀ {e x}, e.Turns κ τ → (f e x).Turns κ τ)
    {xs : List α} :
    (xs.foldl f d).Turns κ τ := by
  induction xs generalizing d with
  | nil => exact h
  | cons x xs ih => exact ih (hf h)
theorem Dev.Turns.foldl_fst {α β : Type} {f : Dev × β → α → Dev × β} {p : Dev × β} (h : p.1.Turns κ τ)
    (hf : ∀ {q x}, q.1.Turns κ τ → (f q x).1.Turns κ τ) {xs : List α} : (xs.foldl f p).1.Turns κ τ := by
  induction xs generalizing p with
  | nil => exact h
  | cons x xs ih => exact ih (hf h)
theorem Dev.Turns.each (h : d.Turns κ τ) {α : Type} {f : Dev → α → Dev} {xs : List α}
    (hf : ∀ {e x}, e.Turns κ τ → (f e x).Turns κ τ) :
    (d.each xs f).Turns κ τ := h.foldl hf
/-- A word of an array of registers or counters is not watched. -/
theorem not_watched_of_array {c : Prop} {inst : Decidable c} {a : Nat} (h : c → a ≠ 0x9000000A8 ∧ a ≠ 0xD000300A0) :
    (if c then a else RegMap.nowhere) ∉ watchedWords := by
  have hw : watchedWords = [0x9000000A8, 0xD000300A0] := rfl
  rw [hw]
  split
  · rename_i hc
    simpa using h hc
  · decide

/-- A word behind those of the regions is not watched. -/
theorem not_watched_of_lt {a : Nat} (h : 0xD00040000 ≤ a) : a ∉ watchedWords := by
  have hw : watchedWords = [0x9000000A8, 0xD000300A0] := rfl
  rw [hw]
  simp only [List.mem_cons, List.not_mem_nil, or_false]
  omega

/-- A word written other than those that are watched. -/
theorem Dev.Turns.setOther (h : d.Turns κ τ) {a v} (ha : a ∉ watchedWords := by decide) : (d.setWord a v).Turns κ τ where
  ticks := h.ticks
  leaves k hk := by
    have hk := h.leaves k hk
    simp only [watchedWords, List.mem_cons, List.not_mem_nil, or_false, not_or] at ha
    obtain ⟨hc, hr⟩ := ha
    exact ⟨(d.word_setWord_other v (Ne.symm hc)).trans hk.count, (d.word_setWord_other v (Ne.symm hr)).trans hk.region, hk.life, hk.phase,
      hk.widen, hk.granted⟩
theorem Dev.Turns.set (h : d.Turns κ τ) {f v} (hf : f.addr ∉ watchedWords := by decide) : (d.put f v).Turns κ τ := h.setOther hf
theorem Dev.Turns.count (h : d.Turns κ τ) {a n} (ha : a ∉ watchedWords := by decide) : (d.bump a n).Turns κ τ := .ite h (h.setOther ha)
theorem Dev.Turns.setWord (h : d.Turns none τ) {a v} : (d.setWord a v).Turns none τ := h.withRegs
theorem Dev.Turns.put (h : d.Turns none τ) {f v} : (d.put f v).Turns none τ := h.setWord
theorem Dev.Turns.memWrite (h : d.Turns κ τ) {a bs} : (d.memWrite a bs).Turns κ τ := h.same
theorem Dev.Turns.coreWrite (h : d.Turns κ τ) {c a bs} : (d.coreWrite c a bs).Turns κ τ := h.same

/-! ### Ops -/

theorem Dev.Turns.bump (h : d.Turns none τ) {a n} : (d.bump a n).Turns none τ := .ite h h.setWord
theorem Dev.Turns.peak (h : d.Turns none τ) {f v} : (d.peak f v).Turns none τ := .ite h.put h
theorem Dev.Turns.draw (h : d.Turns κ τ) : d.draw.2.Turns κ τ := h.same
theorem Dev.Turns.advance (h : d.Turns none τ) (t : Nat) : (d.advance t).Turns none { τ with ns := max τ.ns t } := by
  refine h.move (fun τ => { τ with ns := max τ.ns t }) ?_
  rw [Dev.advance_plan, Dev.advance_ns]
  rfl
theorem Dev.Turns.settleClock (h : d.Turns none τ) {r} : (d.settleClock r).Turns none τ := h.same
theorem Dev.Turns.setMhz (h : d.Turns none τ) {c mhz} : (d.setMhz c mhz).Turns none τ := (h.each fun h1 => h1.settleClock).put
theorem Dev.Turns.dayCount (h : d.Turns κ τ) {key} : (d.dayCount key).Turns κ τ := h.same
theorem Dev.Turns.health (h : d.Turns κ τ) {event inst detail} : (d.health event inst detail).Turns κ τ := h.same
theorem Dev.Turns.lifeEntry (h : d.Turns κ τ) {kind source body decision} : (d.lifeEntry kind source body decision).Turns κ τ := h.same
theorem Dev.Turns.standingWrite (h : d.Turns κ τ) : d.standingWrite.Turns κ τ := .ite h.same h.same

/-! ### Port -/

theorem Dev.Turns.send (h : d.Turns none τ) {sp frame} : (d.send sp frame).Turns none τ := .ite h.same.bump.bump h
theorem Dev.Turns.ownLeaves (h : d.Turns none τ) {sp f} : (d.ownLeaves sp f).Turns none τ := by
  refine .send ?_
  split
  · exact h
  · exact h.bump
  · exact h.bump
  · exact h.same
theorem Dev.Turns.modSub (h : d.Turns κ τ) {sp f} : (d.modSub sp f).Turns κ τ := h.same
theorem Dev.Turns.drainOwn (h : d.Turns none τ) {sp} : (d.drainOwn sp).Turns none τ := .ite h (h.modSub.each fun h1 => h1.ownLeaves)
theorem Dev.Turns.sendOwn (h : d.Turns none τ) {sp f} : (d.sendOwn sp f).Turns none τ := .ite h.modSub.drainOwn h
theorem Dev.Turns.dropRecords (h : d.Turns κ τ) {f} : (d.dropRecords f).Turns κ τ := h.count (not_watched_of_array fun h => by omega)
theorem Dev.Turns.closeRecords (h : d.Turns κ τ) {f} : (d.closeRecords f).Turns κ τ := .ite h.modSub.same h.modSub.dropRecords
theorem Dev.Turns.addRecord (h : d.Turns κ τ) {sp batch rec} : (d.addRecord sp batch rec).Turns κ τ := .ite h.same.closeRecords h.same
theorem Dev.Turns.closeBatchRecords (h : d.Turns none τ) {batch} : (d.closeBatchRecords batch).Turns none τ :=
  h.same.each fun h1 => h1.closeRecords
theorem Dev.Turns.modesTakeEffect (h : d.Turns none τ) : d.modesTakeEffect.Turns none τ := h.each fun h1 => .ite h1.put.put h1

/-! ### Journal -/

theorem Dev.Turns.modKey (h : d.Turns none τ) {k f} : (d.modKey k f).Turns none τ := h.same
theorem Dev.Turns.sign (h : d.Turns none τ) {k digest r} (hr : d.sign k digest = some r) : r.2.Turns none τ := by
  unfold Dev.sign at hr
  dsimp only at hr
  split at hr
  · cases hr
  · rw [← Option.some.inj hr]
    exact .snd (.bump (.put (.modKey (.ite h h.put.modKey))))
theorem Dev.Turns.frameUse (h : d.Turns none τ) {sp n} : (d.frameUse sp n).Turns none τ := h.same
theorem Dev.Turns.journalSend (h : d.Turns none τ) {sp k} : (Dev.journalSend sp k d).Turns none τ := by
  induction k generalizing d with
  | zero => exact h
  | succ k ih => exact .ite h (ih h.frameUse.sendOwn.same)
theorem Dev.Turns.journalExport (h : d.Turns none τ) : d.journalExport.Turns none τ := .ite h.bump.same (.ite h.bump.same.journalSend h.bump.same)
theorem Dev.Turns.closeBatch (h : d.Turns none τ) {cause} : (d.closeBatch cause).Turns none τ := by
  unfold Dev.closeBatch
  split
  · exact h
  · refine (Dev.Turns.each (Dev.Turns.put (.put (.put (.same ?_)))) fun h => h.put).bump.journalExport
    split
    · rename_i he
      exact h.sign he
    · exact h.put
theorem Dev.Turns.journal (h : d.Turns none τ) {e'} : (d.journal e').Turns none τ := .ite h.same.put.bump.closeBatch h.same.put.bump
theorem Dev.Turns.seqStatus (h : d.Turns none τ) {r status} : (d.seqStatus r status).Turns none τ := h.same
theorem Dev.Turns.reply (h : d.Turns none τ) {r a} : (d.reply r a).Turns none τ :=
  have h1 : Dev.Turns _ none τ := .ite h.sendOwn.bump h.sendOwn.bump
  have h2 : Dev.Turns _ none τ := .ite (.health (.bump h1)) h1
  .ite (.journal h2) h2
theorem Dev.Turns.respond (h : d.Turns none τ) {r a} : (d.respond r a).Turns none τ := h.reply.seqStatus
theorem Dev.Turns.setQueue (h : d.Turns none τ) {q} : (d.setQueue q).Turns none τ := h.same.put
theorem Dev.Turns.finishHead (h : d.Turns none τ) {a} : (d.finishHead a).Turns none τ := by
  unfold Dev.finishHead
  split
  · exact h
  · exact h.respond.setQueue
theorem Dev.Turns.countStage (h : d.Turns none τ) {opcode status} : (d.countStage opcode status).Turns none τ := .ite h.bump h
theorem Dev.Turns.noteAnswer (h : d.Turns none τ) {opcode a} : (d.noteAnswer opcode a).Turns none τ := h.same.countStage
theorem Dev.Turns.answerLate (h : d.Turns none τ) {opcode a} : (d.answerLate opcode a).Turns none τ := by
  unfold Dev.answerLate
  dsimp only
  split
  · exact h.noteAnswer
  · exact .ite h.noteAnswer.finishHead h.noteAnswer

/-! ### Prism -/

theorem Dev.Turns.setPacket (h : d.Turns κ τ) {p} : (d.setPacket p).Turns κ τ := h.same

/-! ### Mem -/

theorem Dev.Turns.retire (h : d.Turns κ τ) {c cause} : (d.retire c cause).Turns κ τ := .ite h h.same.health.lifeEntry.standingWrite
theorem Dev.Turns.channelError (h : d.Turns κ τ) {c crc} : (d.channelError c crc).Turns κ τ := .ite h.same.retire h.same
theorem Dev.Turns.fenceOne (h : d.Turns κ τ) {kind index} : (d.fenceOne kind index).Turns κ τ :=
  .ite h h.same.health.lifeEntry.standingWrite
theorem Dev.Turns.fence (h : d.Turns κ τ) {kind index} : (d.fence kind index).Turns κ τ :=
  have h1 : Dev.Turns _ κ τ := .ite h.fenceOne.fenceOne h.fenceOne
  .ite (.fenceOne h1) h1
theorem Dev.Turns.failure (h : d.Turns κ τ) {kind index} : (d.failure kind index).Turns κ τ := .ite h.same.fence h.same
theorem Dev.Turns.memEvent (h : d.Turns κ τ) {e'} : (d.memEvent e').1.Turns κ τ := by
  unfold Dev.memEvent
  dsimp only
  split
  · split
    · exact .fst (h.count (not_watched_of_array fun h => by omega))
    · exact .fst (h.count (not_watched_of_array fun h => by omega)).health.failure
  · split
    · refine .fst ?_
      split
      · exact h.count.dayCount
      · exact h.count
    · refine .fst ?_
      split
      · exact h.count.health.channelError
      · exact h.count.health
    · exact .fst h.count
    · refine .fst ?_
      split
      · exact h.count.count.health.channelError
      · exact h.count.count.health
theorem Dev.Turns.memEvents (h : d.Turns κ τ) {es} : (d.memEvents es).1.Turns κ τ := h.foldl_fst fun h1 => .fst h1.memEvent
theorem Dev.Turns.setGranuleBad (h : d.Turns κ τ) {g bad} : (d.setGranuleBad g bad).Turns κ τ := h.same
theorem Dev.Turns.fetch (h : d.Turns κ τ) {a n bad} : (d.fetch a n bad).1.Turns κ τ :=
  .ite_fst (.fst h.count.count) (.ite_fst (.fst h.memEvents.count) (.fst h.memEvents))
theorem Dev.Turns.writeEvent (h : d.Turns κ τ) {e'} : (d.writeEvent e').Turns κ τ := by
  unfold Dev.writeEvent
  split
  · exact h.count.channelError
  · exact h.memEvent
theorem Dev.Turns.storeGranule (h : d.Turns κ τ) {a bs bad} : (d.storeGranule a bs bad).Turns κ τ :=
  .ite h.count (have h1 : Dev.Turns _ κ τ := .setGranuleBad (.ite (h.each fun h2 => h2.writeEvent).count (h.each fun h2 => h2.writeEvent))
  .ite h1 (.memWrite h1))
theorem Dev.Turns.storeBy (h : d.Turns κ τ) {own a bs bad} : (d.storeBy own a bs bad).Turns κ τ :=
  .ite h (.ite h.count (h.each fun h1 => .ite h1 h1.storeGranule))
theorem Dev.Turns.store (h : d.Turns κ τ) {a bs bad} : (d.store a bs bad).Turns κ τ := h.storeBy
theorem Dev.Turns.copy (h : d.Turns none τ) {src dst n} : (d.copy src dst n).Turns none τ := by
  unfold Dev.copy
  split
  · rename_i he
    exact (h.fetch.of_fst he).store
  · rename_i he
    exact (h.fetch.of_fst he).each fun h1 => h1.setGranuleBad
theorem Dev.Turns.placeStore (h : d.Turns none τ) {p off bs bad} : (d.placeStore p off bs bad).Turns none τ := by
  unfold Dev.placeStore
  split
  · exact h.store
  · exact .ite h.coreWrite h
theorem Dev.Turns.showTemps (h : d.Turns none τ) : d.showTemps.Turns none τ := h.put.put.peak.peak
theorem Dev.Turns.refresh (h : d.Turns none τ) {tier} : (d.refresh tier).Turns none τ := .ite h.put.put (.ite h.put.put h.put)
theorem Dev.Turns.takeTemps (h : d.Turns none τ) {ts} : (d.takeTemps ts).Turns none τ :=
  ((h.each fun h1 => h1.same.put.put).showTemps).each fun h2 => h2.refresh

/-! ### Trace -/

theorem Dev.Turns.ringWrite (h : d.Turns κ τ) {base size head oldest bs} (hh : head.addr ∉ watchedWords)
    (ho : oldest.addr ∉ watchedWords) : (d.ringWrite base size head oldest bs).Turns κ τ :=
  .ite h (have h1 := h.store.store
  .ite ((h1.set hh).set ho) (h1.set hh))
theorem Dev.Turns.dramUse (h : d.Turns κ τ) {n} : (d.dramUse n).Turns κ τ := h.same
theorem Dev.Turns.traceOut (h : d.Turns κ τ) {r} : (d.traceOut r).Turns κ τ :=
  have h1 := h.dramUse.ringWrite (by decide) (by decide)
  .ite (h1.count.set (not_watched_of_array fun h => by omega)) h1.count
theorem Dev.Turns.drainStaged (h : d.Turns κ τ) {k} : (d.drainStaged k).Turns κ τ := by
  induction k generalizing d with
  | zero => exact h
  | succ k ih =>
    unfold Dev.drainStaged
    split
    · exact h
    · exact .ite (ih (h.same.each fun h1 => h1.traceOut)) h
theorem Dev.Turns.drain (h : d.Turns κ τ) : d.drain.Turns κ τ := .drainStaged (.ite h.same.traceOut h)
theorem Dev.Turns.noteDrop (h : d.Turns κ τ) {cls n} : (d.noteDrop cls n).Turns κ τ :=
  (h.count (not_watched_of_lt (Nat.le_add_right_of_le (by decide)))).same.set
theorem Dev.Turns.refuseUnits (h : d.Turns κ τ) {cls n} : (d.refuseUnits cls n).Turns κ τ := .noteDrop (.ite h h.count)
theorem Dev.Turns.makeRoom (h : d.Turns κ τ) {cls n k} : (d.makeRoom cls n k).Turns κ τ := by
  induction k generalizing d with
  | zero => exact h
  | succ k ih =>
    refine .ite h ?_
    split
    · exact ih h.same.refuseUnits
    · exact h
theorem Dev.Turns.fetchFree (h : d.Turns κ τ) {a n} : (d.fetchFree a n).1.Turns κ τ := by
  refine .ite_fst h ?_
  split
  · rename_i he
    exact h.fetch.of_fst he
  · rename_i he
    exact (h.fetch.of_fst he).same
theorem Dev.Turns.trace (h : d.Turns κ τ) {rs} : (d.trace rs).Turns κ τ := .ite h.drain.makeRoom.same.drain h.drain.makeRoom.refuseUnits

/-! ### EngineCmd -/

theorem Dev.Turns.showCounts (h : d.Turns κ τ) {engine counts} : (d.showCounts engine counts).Turns κ τ :=
  h.each fun h1 => h1.setOther (not_watched_of_lt (Nat.le_add_right_of_le (Nat.le_add_right_of_le (by decide))))
theorem Dev.Turns.cmdBegin (h : d.Turns κ τ) {engine unit context model cmdId stepped} : (d.cmdBegin engine unit context model cmdId
    stepped).Turns κ τ :=
  have h1 := h.same.showCounts
  .ite h1.trace h1
theorem Dev.Turns.cmdEnd (h : d.Turns κ τ) {engine unit cmdId cause reissued} : (d.cmdEnd engine unit cmdId cause reissued).Turns κ τ := by
  unfold Dev.cmdEnd
  split
  · exact h
  · exact have h1 := h.same.showCounts
    .ite (h1.count (not_watched_of_array fun h => by omega)).trace (h1.count (not_watched_of_array fun h => by omega))
theorem Dev.Turns.cmdWork (h : d.Turns κ τ) {engine unit cmdId work} : (d.cmdWork engine unit cmdId work).Turns κ τ := by
  unfold Dev.cmdWork
  dsimp only
  split
  · exact .ite h.same.showCounts h.same
  · exact h.same
theorem Dev.Turns.modStep (h : d.Turns κ τ) {c partition f} : (d.modStep c partition f).Turns κ τ := h.same
theorem Dev.Turns.stepEnded (h : d.Turns κ τ) {c partition cmdId} : (d.stepEnded c partition cmdId).Turns κ τ := .ite h.modStep.count h
theorem Dev.Turns.programEnd (h : d.Turns κ τ) {engine partition cmdId cause reissued} : (d.programEnd engine partition cmdId cause
    reissued).Turns κ τ := by
  unfold Dev.programEnd
  split
  · exact h
  · exact .cmdEnd (.ite h.stepEnded h)
theorem Dev.Turns.stepOver (h : d.Turns κ τ) {engine} : (d.stepOver engine).Turns κ τ := by
  unfold Dev.stepOver
  split
  · exact h.cmdEnd
  · exact h
theorem Dev.Turns.engineStep (h : d.Turns κ τ) {engine context model} : (d.engineStep engine context model).Turns κ τ :=
  .cmdWork (.ite h h.stepOver.cmdBegin)

/-! ### Flow -/

theorem Dev.Turns.setCache (h : d.Turns κ τ) {set ls} : (d.setCache set ls).Turns κ τ := h.same
theorem Dev.Turns.readEntry (h : d.Turns κ τ) {index set} : (d.readEntry index set).1.Turns κ τ := by
  refine .ite_fst h ?_
  split
  · exact h
  · exact h.fetch
theorem Dev.Turns.readFlow (h : d.Turns κ τ) {f} : (d.readFlow f).1.Turns κ τ := h.readEntry
theorem Dev.Turns.putFlow (h : d.Turns κ τ) {index set e'} : (d.putFlow index set e').Turns κ τ := by
  unfold Dev.putFlow
  split
  · exact h.setCache
  · exact h.storeBy
theorem Dev.Turns.flowVerdict (h : d.Turns κ τ) {f key shim} : (d.flowVerdict f key shim).Turns κ τ := by
  unfold Dev.flowVerdict
  split
  · rename_i he
    exact (h.readFlow.of_fst he).count
  · rename_i he
    exact .ite (((h.readFlow.of_fst he).putFlow).count) ((h.readFlow.of_fst he).count)
theorem Dev.Turns.retireTakeEffect (h : d.Turns none τ) : d.retireTakeEffect.Turns none τ :=
  h.same.each fun h1 => h1.put.put.put.put.put.bump.put.same

/-! ### Verdict -/

theorem Dev.Turns.setSample (h : d.Turns κ τ) {s} : (d.setSample s).Turns κ τ := by
  refine h.same (h8 := ?_)
  dsimp only
  rw [Option.map_map]
  rfl
theorem Dev.Turns.writeVerdict (h : d.Turns κ τ) {b s tier flags reason} : (d.writeVerdict b s tier flags reason).Turns κ τ := by
  refine have h1 := h.setSample.engineStep
  have h2 : Dev.Turns _ κ τ := .ite h1.count.count h1.count
  have h3 : Dev.Turns _ κ τ := .ite (.count h2) h2
  have h4 : Dev.Turns _ κ τ := .ite (.count h3) h3
  have h5 : Dev.Turns _ κ τ := .flowVerdict (.ite (.count h4) h4)
  .ite ?_ (.ite (.addRecord h5) h5)
  split
  · exact .setPacket h5
  · exact h5
theorem Dev.Turns.verdictNow (h : d.Turns κ τ) {b s tier flags reason} : (d.verdictNow b s tier flags reason).Turns κ τ := by
  unfold Dev.verdictNow
  split
  · rename_i he
    exact (h.fetch.of_fst he).setSample
  · rename_i he
    exact (h.fetch.of_fst he).writeVerdict
theorem Dev.Turns.spend (h : d.Turns none τ) {e'} : (d.spend e').Turns none τ := h.same
theorem Dev.Turns.countCompleted (h : d.Turns none τ) {m e'} : (d.countCompleted m e').Turns none τ := h.same
theorem Dev.Turns.planFault (h : d.Turns κ τ) {c} : (d.planFault c).Turns κ τ := by
  unfold Dev.planFault
  dsimp only
  split
  · exact h.same
  · exact h.same.each fun h1 => h1.verdictNow
theorem Dev.Turns.lateVerdict (h : d.Turns none τ) {b s} : (d.lateVerdict b s).Turns none τ :=
  .ite h.bump (have h1 : Dev.Turns _ none τ := .ite h.bump.bump.bump h.bump.bump
  .writeVerdict (.ite (.bump h1) h1))
theorem Dev.Turns.verdictDeadline (h : d.Turns none τ) : d.verdictDeadline.Turns none τ := by
  unfold Dev.verdictDeadline
  split
  · exact h
  · exact (((h.each fun h1 => h1.lateVerdict).closeBatchRecords).stepOver).stepOver

/-! ### Commands -/

theorem Dev.Turns.bumpFacet (h : d.Turns κ τ) {ctr f n} (hc : ∀ i j k, ctr i j k ∉ watchedWords) :
    (d.bumpFacet ctr f n).Turns κ τ := h.count (hc _ _ _)
theorem Dev.Turns.bumpUnit (h : d.Turns κ τ) {facet grating u n} (hf : ∀ i j k, facet i j k ∉ watchedWords)
    (hg : ∀ i, grating i ∉ watchedWords) : (d.bumpUnit facet grating u n).Turns κ τ := .ite (h.count (hg _)) (h.bumpFacet hf)
theorem Dev.Turns.settleUnit (h : d.Turns κ τ) {u n} : (d.settleUnit u n).Turns κ τ := h.same
theorem Dev.Turns.unitIdle (h : d.Turns κ τ) {u} : (d.unitIdle u).Turns κ τ := .ite h (h.bumpUnit
    (fun _ _ _ => not_watched_of_array fun h => by omega) (fun _ => not_watched_of_array fun h => by omega)).settleUnit
theorem Dev.Turns.countUnit (h : d.Turns κ τ) {y u} : (d.countUnit y u).Turns κ τ :=
  have h1 := h.bumpUnit (facet := C.LNS_STALL_FEED) (grating := C.GRT_STALL_FEED) (u := u) (n := y.feed)
    (fun _ _ _ => not_watched_of_array fun h => by omega) (fun _ => not_watched_of_array fun h => by omega)
  have h2 := h1.bumpUnit (facet := C.LNS_STALL_DRAIN) (grating := C.GRT_STALL_DRAIN) (u := u) (n := y.drain)
    (fun _ _ _ => not_watched_of_array fun h => by omega) (fun _ => not_watched_of_array fun h => by omega)
  have h3 := h2.bumpUnit (facet := C.LNS_BUSY_CYCLES) (grating := C.GRT_BUSY_CYCLES) (u := u) (n := y.busy)
    (fun _ _ _ => not_watched_of_array fun h => by omega) (fun _ => not_watched_of_array fun h => by omega)
  have h4 := h3.bumpUnit (facet := C.LNS_STALL_LOAD) (grating := C.GRT_STALL_LOAD) (u := u) (n := y.load)
    (fun _ _ _ => not_watched_of_array fun h => by omega) (fun _ => not_watched_of_array fun h => by omega)
  h4.settleUnit
theorem Dev.Turns.countCycles (h : d.Turns κ τ) {t unit y} : (d.countCycles t unit y).Turns κ τ :=
  (h.cmdWork.each fun h1 => h1.countUnit).each fun h2 => h2.countUnit
theorem Dev.Turns.facetRest (h : d.Turns κ τ) {f} : (d.facetRest f).Turns κ τ :=
  .ite h (have h1 := (h.unitIdle.set (not_watched_of_array fun h => by omega)).set (not_watched_of_array fun h => by omega)
  .ite h1 (h1.set (not_watched_of_array fun h => by omega)))
theorem Dev.Turns.gratingRest (h : d.Turns κ τ) {g} : (d.gratingRest g).Turns κ τ :=
  .ite h (have h1 := (h.unitIdle.set (not_watched_of_array fun h => by omega)).set (not_watched_of_array fun h => by omega)
  .ite h1 (h1.set (not_watched_of_array fun h => by omega)))
theorem Dev.Turns.tileLeft (h : d.Turns κ τ) {t} : (d.tileLeft t).Turns κ τ := .ite h.gratingRest (h.each fun h1 => h1.facetRest)
theorem Dev.Turns.graphsAnew (h : d.Turns none τ) {mine} : (d.graphsAnew mine).Turns none τ := h.same
theorem Dev.Turns.endPass (h : d.Turns κ τ) {p cause} : (d.endPass p cause).Turns κ τ := h.programEnd
theorem Dev.Turns.dropPass (h : d.Turns κ τ) {p endCause} : (d.dropPass p endCause).Turns κ τ := h.same.endPass
theorem Dev.Turns.cutCycles (h : d.Turns κ τ) {r} : (d.cutCycles r).Turns κ τ := h.draw.draw.draw.countCycles
theorem Dev.Turns.stopTile (h : d.Turns κ τ) {cause r} : (d.stopTile cause r).Turns κ τ :=
  have h1 : Dev.Turns _ κ τ := .ite h.same h.same.cutCycles
  .tileLeft (.ite (.count h1 (not_watched_of_array fun h => by omega)) (.bumpFacet h1 (fun _ _ _ => not_watched_of_array fun h => by omega)))
theorem Dev.Turns.stopPrograms (h : d.Turns κ τ) {cause endCause mine} : (d.stopPrograms cause endCause mine).Turns κ τ :=
  ((h.each fun h1 => h1.stopTile).each fun h2 => h2.dropPass).same (hw := fun _ => List.mem_of_mem_filter)
    (hg := fun _ => List.mem_of_mem_filter)
theorem Dev.Turns.moverBegin (h : d.Turns κ τ) {o} : (d.moverBegin o).Turns κ τ := h.cmdBegin
theorem Dev.Turns.moverNext (h : d.Turns κ τ) {c} : (d.moverNext c).Turns κ τ := by
  unfold Dev.moverNext
  split
  · exact .ite h.moverBegin h
  · exact h
theorem Dev.Turns.stopMovers (h : d.Turns κ τ) {endCause mine} : (d.stopMovers endCause mine).Turns κ τ :=
  (h.same.each fun h1 => h1.programEnd).each fun h2 => h2.moverNext

/-! ### Sync -/

theorem Dev.Turns.setCtr (h : d.Turns κ τ) {p x} : (d.setCtr p x).Turns κ τ := h.same
theorem Dev.Turns.answer (h : d.Turns κ τ) {engine a} : (d.answer engine a).Turns κ τ := h.same
theorem Dev.Turns.setWaits (h : d.Turns κ τ) {ws} : (d.setWaits ws).Turns κ τ := h.same
theorem Dev.Turns.releaseWait (h : d.Turns κ τ) {w rest} : (d.releaseWait w rest).Turns κ τ := by
  unfold Dev.releaseWait
  split
  · split
    · exact h.setCtr.setWaits.answer
    · exact h
  · exact h
theorem Dev.Turns.releaseWaiters (h : d.Turns κ τ) {k} : (d.releaseWaiters k).Turns κ τ := by
  induction k generalizing d with
  | zero => exact h
  | succ k ih =>
    unfold Dev.releaseWaiters
    split
    · exact ih h.releaseWait
    · exact h
theorem Dev.Turns.releaseOn (h : d.Turns κ τ) {p} : (d.releaseOn p).Turns κ τ := by
  unfold Dev.releaseOn
  split
  · exact h.releaseWait.releaseWaiters
  · exact h
theorem Dev.Turns.pinWaiting (h : d.Turns κ τ) {core pin} : (d.pinWaiting core pin).Turns κ τ :=
  h.set (not_watched_of_array fun h => by omega)
theorem Dev.Turns.withdrawWaits (h : d.Turns κ τ) {keep} : (d.withdrawWaits keep).Turns κ τ := by
  refine h.setWaits.releaseWaiters.each fun h1 => ?_
  split
  · exact h1.pinWaiting
  · exact h1
theorem Dev.Turns.snapshot (h : d.Turns κ τ) {c cause obj} : (d.snapshot c cause obj).Turns κ τ :=
  ((h.count.set (not_watched_of_array fun h => by omega)).each fun h1 => h1.each fun h2 =>
    h2.set (not_watched_of_array fun h => by omega)).each fun h3 => h3.trace
theorem Dev.Turns.stopReplicas (h : d.Turns κ τ) {ms} : (d.stopReplicas ms).Turns κ τ := by
  refine h.each fun h1 => ?_
  dsimp only
  split
  · exact h1.same.cmdEnd
  · exact h1.same
theorem Dev.Turns.contextFault (h : d.Turns κ τ) {c cause obj engine partition} : (d.contextFault c cause obj engine partition).Turns κ τ :=
    by
  unfold Dev.contextFault
  extract_lets first d1 d2 d3 d4 mine d5 d6 gone d7 plan d8
  have h3 : d3.Turns κ τ :=
    (((h.count.health.set (not_watched_of_array fun h => by omega)).set (not_watched_of_array fun h => by omega)).set
      (not_watched_of_array fun h => by omega))
  have h4 : d4.Turns κ τ := .ite (h3.set (not_watched_of_array fun h => by omega)).snapshot h3
  have h7 : d7.Turns κ τ := h4.stopPrograms.stopMovers.withdrawWaits.stopReplicas
  have h8 : d8.Turns κ τ := h7.withPlaced
  exact h8.planFault
theorem Dev.Turns.unmapped (h : d.Turns κ τ) {c v engine issuer} : (d.unmapped c v engine issuer).Turns κ τ := h.contextFault
theorem Dev.Turns.meetsWrite (h : d.Turns κ τ) {p} : (d.meetsWrite p).2.Turns κ τ := .ite_snd h.draw h
theorem Dev.Turns.signal (h : d.Turns κ τ) {c v n engine issuer} : (d.signal c v n engine issuer).Turns κ τ := by
  unfold Dev.signal
  split
  · exact h.unmapped
  · exact have h1 := h.count.meetsWrite
    .ite h1 (.ite h1.count.contextFault h1.setCtr.releaseOn)
theorem Dev.Turns.setArrived (h : d.Turns none τ) {b bits} : (d.setArrived b bits).Turns none τ := h.same.put
theorem Dev.Turns.barrierRelease (h : d.Turns none τ) {b} : (d.barrierRelease b).Turns none τ :=
  (h.setWaits.each fun h1 => h1.answer).setArrived.put.bump
theorem Dev.Turns.barrierCheck (h : d.Turns none τ) {b} : (d.barrierCheck b).Turns none τ := .ite h (.ite (.ite h h.same) h.barrierRelease)
theorem Dev.Turns.setBarMask (h : d.Turns none τ) {b bits} : (d.setBarMask b bits).Turns none τ :=
  (h.each fun h1 => h1.put).put.put.setWaits.setArrived
theorem Dev.Turns.setQue (h : d.Turns none τ) {q x open_} : (d.setQue q x open_).Turns none τ := h.same.put.put.put.put
theorem Dev.Turns.spill (h : d.Turns none τ) {q x} : (d.spill q x).1.Turns none τ := by
  unfold Dev.spill
  dsimp only
  exact h.fetchFree.store.store.bump
theorem Dev.Turns.refill (h : d.Turns none τ) {q engine x} : (d.refill q engine x).1.Turns none τ := by
  unfold Dev.refill
  dsimp only
  split
  · split
    · exact .fst h.fetch.fetch
    · exact .fst h.fetch.fetch.contextFault
  · exact h
theorem Dev.Turns.settle (h : d.Turns none τ) {q engine k x} : (Dev.settle q engine k d x).1.Turns none τ := by
  induction k generalizing d x with
  | zero => exact h
  | succ k ih => exact .ite_fst (ih h.refill) (.ite_fst (ih h.spill) h)
theorem Dev.Turns.notice (h : d.Turns none τ) {q ctr} : (d.notice q ctr).Turns none τ := h.signal
theorem Dev.Turns.watermark (h : d.Turns none τ) {q old new} : (d.watermark q old new).Turns none τ :=
  .ite h.put (.ite h.put.put (.ite h.put.put.put.bump.notice h.put.put.put.bump))
theorem Dev.Turns.append (h : d.Turns none τ) {q x old data soi eoi} : (d.append q x old data soi eoi).Turns none τ := by
  unfold Dev.append
  dsimp only
  exact have h1 : Dev.Turns _ none τ := .watermark (.ite h.settle.setQue.put h.settle.setQue)
  .ite (.ite (.notice (.bump h1)) (.bump h1)) h1
theorem Dev.Turns.push (h : d.Turns none τ) {q engine data soi eoi blocking} : (d.push q engine data soi eoi blocking).1.Turns none τ :=
  .ite_fst (.fst h.setQue.bump) (.ite_fst (.fst h.setQue.bump) (.ite_fst (.fst h.setQue.bump.append) (.ite_fst (.fst h.setQue.bump)
      (.ite_fst (.fst h.setQue.setQue.put.bump) (.ite_fst (.ite_fst (.fst h.setQue) (.fst h.setQue.bump)) (.fst
      h.setQue.append))))))
theorem Dev.Turns.brecOn (h : d.Turns none τ) {F : (n : Nat) → Nat.below (motive := fun _ => Dev → Dev) n → Dev → Dev}
    (h0 : ∀ {f e}, e.Turns none τ → (F 0 f e).Turns none τ)
    (hs : ∀ {n e} {f : Nat.below (motive := fun _ => Dev → Dev) (n + 1)},
      (∀ {e}, e.Turns none τ → (f.1 e).Turns none τ) → e.Turns none τ →
      (F (n + 1) f e).Turns none τ) {n} :
    (Nat.brecOn (motive := fun _ => Dev → Dev) n F d).Turns none τ := by
  induction n generalizing d with
  | zero => exact h0 h
  | succ n ih => exact hs ih h
theorem Dev.Turns.wakePushersTurn (h : d.Turns none τ) {q n f} (hf : ∀ {e}, e.Turns none τ → (f.1 e).Turns none τ) :
    (Dev.wakePushers._f q (n + 1) f d).Turns none τ := by
  obtain ⟨push, hpush⟩ : ∃ push, push = d.push q := ⟨_, rfl⟩
  have hp {engine data soi eoi} : (push engine data soi eoi true).1.Turns none τ := hpush ▸ h.push
  delta Dev.wakePushers._f
  dsimp -zeta only
  rw [← hpush]
  split
  · split
    · split
      · rename_i hd
        exact hf (hp.of_fst hd).setWaits.answer
      · exact h
    · exact h
  · exact h
theorem Dev.Turns.wakePushers (h : d.Turns none τ) {q k} : (d.wakePushers q k).Turns none τ := by
  delta Dev.wakePushers
  exact h.brecOn (F := Dev.wakePushers._f q) (fun he => he) fun hf he => he.wakePushersTurn hf
theorem Dev.Turns.flushNow (h : d.Turns none τ) {q} : (d.flushNow q).Turns none τ := by
  refine .wakePushers (.ite ?_ (.setQue (.put (.bump (.bump (.ite h.bump.put h))))))
  split
  · exact .setCtr (.setQue (.put (.bump (.bump (.ite h.bump.put h)))))
  · exact .setQue (.put (.bump (.bump (.ite h.bump.put h))))
theorem Dev.Turns.contextRestart (h : d.Turns none τ) {c} : (d.contextRestart c).Turns none τ := by
  unfold Dev.contextRestart
  extract_lets pages reset ctrs sync d1 d2 d3 d4 d5 d6 plan d7
  have h1 : d1.Turns none τ := h.same
  have h2 : d2.Turns none τ := h1.withdrawWaits
  have h3 : d3.Turns none τ := h2.each fun h => h.each fun h => .ite h.put.put h
  have h4 : d4.Turns none τ := h3.each fun h => h.setArrived
  have h5 : d5.Turns none τ := h4.each fun h => h.flushNow
  clear_value d5
  have h6 : d6.Turns none τ := h5.put.put
  clear_value d6
  have h7 : d7.Turns none τ := h6.withPlaced
  clear_value d7
  exact h7.put.bump

/-! ### Fabric -/

theorem Dev.Turns.putBlock (h : d.Turns none τ) {l bytes} : (d.putBlock l bytes).Turns none τ := h.same
theorem Dev.Turns.dropReleases (h : d.Turns none τ) {c} : (d.dropReleases c).Turns none τ := h.same
theorem Dev.Turns.sendTick (h : d.Turns none τ) {l tick period driver hop age} : (d.sendTick l tick period driver hop age).Turns none τ :=
  .ite h.draw.putBlock h
theorem Dev.Turns.driveTicks (h : d.Turns none τ) : d.driveTicks.Turns none τ := .ite (h.each fun h1 => h1.sendTick) h

/-! ### Array -/

/-! ### Publish -/

theorem Dev.Turns.addFlags (h : d.Turns κ τ) {p flags} : (d.addFlags p flags).Turns κ τ := by
  unfold Dev.addFlags
  dsimp only
  exact h.fetchFree.store
theorem Dev.Turns.bumpPass (h : d.Turns κ τ) {p lens grt n} (hl : ∀ i j, lens i j ∉ watchedWords)
    (hg : ∀ g, grt = some g → ∀ i, g i ∉ watchedWords) : (d.bumpPass p lens grt n).Turns κ τ := by
  unfold Dev.bumpPass
  split
  · exact h.count (hl _ _)
  · exact h.count (hg _ rfl _)
  · exact h
theorem Dev.Turns.normalScale (h : d.Turns κ τ) {x} : (d.normalScale x).2.Turns κ τ := .ite_snd h h.draw
theorem Dev.Turns.scaleUpdate (h : d.Turns κ τ) {p st rerun} : (d.scaleUpdate p st rerun).1.Turns κ τ :=
  .ite_fst h (have hb {lens : Nat → Nat → Nat} (hl : ∀ i j, lens i j ∉ watchedWords) : (d.bumpPass p lens none).Turns κ τ :=
    h.bumpPass hl fun _ hg => nomatch hg
  have h1 : Dev.Turns _ κ τ := .ite (hb (lens := C.LNS_SCALE_RECOMPUTED) (fun _ _ => not_watched_of_array fun h => by omega))
    (.ite (hb (lens := C.LNS_UNDERFLOW_RESCALE) (fun _ _ => not_watched_of_array fun h => by omega))
      (.ite (hb (lens := C.LNS_UNDERFLOW_NOFIX) (fun _ _ => not_watched_of_array fun h => by omega)) h))
  .ite_fst (.fst (.store (.normalScale h1))) (.fst h1))
theorem Dev.Turns.setWatch (h : d.Turns κ τ) {w x} : (d.setWatch w x).Turns κ τ := h.same
theorem Dev.Turns.published (h : d.Turns κ τ) {p mode} : (d.published p mode).Turns κ τ :=
  .ite h (h.each fun h1 => .ite h1.setWatch h1.setWatch)
theorem Dev.Turns.release_ (h : d.Turns κ τ) {p} : (d.release_ p).Turns κ τ := h.signal.published
theorem Dev.Turns.narrowStands (h : d.Turns κ τ) {p} : (d.narrowStands p).Turns κ τ := by
  unfold Dev.narrowStands
  dsimp only
  exact h.fetchFree.scaleUpdate.addFlags.release_
theorem Dev.Turns.widenRefuse (h : d.Turns κ τ) {p} : (d.widenRefuse p).Turns κ τ :=
  (h.bumpPass (fun _ _ => not_watched_of_array fun h => by omega) fun _ hg _ =>
    Option.some.inj hg ▸ not_watched_of_array fun h => by omega).narrowStands
theorem Dev.Turns.widenDeadline (h : d.Turns none τ) : d.widenDeadline.Turns none τ :=
  ((h.same (hw := fun _ => List.mem_of_mem_filter) (hg := fun _ => List.mem_of_mem_filter)).each fun h1 => h1.widenRefuse).each
    fun h2 => h2.narrowStands
theorem Dev.Turns.setLearner (h : d.Turns none τ) {m l} : (d.setLearner m l).Turns none τ := h.same

/-! ### Forest -/

theorem Dev.Turns.engineStates (h : d.Turns none τ) : d.engineStates.Turns none τ := h.each fun h1 => .ite h1 h1.put
theorem Dev.Turns.replicaEnd (h : d.Turns none τ) {m r cause} : (d.replicaEnd m r cause).Turns none τ := by
  unfold Dev.replicaEnd
  split
  · exact h.cmdEnd
  · exact h
theorem Dev.Turns.forestCutStages (h : d.Turns none τ) {j es} : (Machine.forestCut j es d).Turns none τ := by
  induction es generalizing d with
  | nil => exact h.bump
  | cons se es ih => exact .ite h.bump (.ite h.bump.bump (.ite (ih h.bump.bump) h.bump.bump))
theorem Dev.Turns.forestCut (h : d.Turns none τ) {j} : (d.forestCut j).Turns none τ := h.forestCutStages
theorem Dev.Turns.forestDeadline (h : d.Turns none τ) : d.forestDeadline.Turns none τ :=
  ((h.each fun h1 => h1.forestCut).same.each fun h2 => h2.replicaEnd).engineStates
theorem Dev.Turns.bankUse (h : d.Turns none τ) {e'} : (d.bankUse e').Turns none τ := h.put.put
theorem Dev.Turns.forestFlip (h : d.Turns none τ) {m} : (d.forestFlip m).Turns none τ := by
  unfold Dev.forestFlip
  split
  · exact h
  · extract_lets ranges mine new regs copy lens d1 d2 lens2 d3 d4
    have h1 : d1.Turns none τ := h.withRegs
    have h2 : d2.Turns none τ := h1.each fun h => h.put.bankUse
    have h3 : d3.Turns none τ := by
      simp only [d3]
      split
      · exact .same h2.put
      · exact h2
    exact h3.put.put.bump

/-! ### Seq -/

theorem Dev.Turns.stateReady (h : d.Turns none τ) : d.stateReady.Turns none τ := by
  unfold Dev.stateReady
  split
  · exact h
  · refine .ite h (h.same.each fun h1 => ?_)
    split
    · exact h1.signal
    · exact h1
theorem Dev.Turns.openSample (h : d.Turns none τ) {b s} : (d.openSample b s).Turns none τ :=
  .ite h (.ite h.bump.setSample (.ite h.bump.setSample (.ite h (.setSample (.ite h.store h)))))
theorem Dev.Turns.stopLearning (h : d.Turns none τ) {m endCause} : (d.stopLearning m endCause).Turns none τ :=
  ((h.each fun h1 => h1.stopTile).each fun h2 => h2.dropPass).same
theorem Dev.Turns.desc (h : d.Turns none τ) {a} : (d.desc a).1.Turns none τ := h.fetchFree
theorem Dev.Turns.asPublished (h : d.Turns none τ) {desc was} : (d.asPublished desc was).Turns none τ := h.same
theorem Dev.Turns.undoStep (h : d.Turns none τ) {m} : (d.undoStep m).Turns none τ := (h.each fun h1 => h1.placeStore.asPublished).setLearner
theorem Dev.Turns.learnDeferred (h : d.Turns none τ) : d.learnDeferred.Turns none τ := h.each fun h1 => h1.bump
theorem Dev.Turns.withdrawPublish (h : d.Turns none τ) {m} : (d.withdrawPublish m).Turns none τ := .ite h.put.setLearner h
theorem Dev.Turns.takeMaster (h : d.Turns none τ) {t} : (d.takeMaster t).Turns none τ := by
  unfold Dev.takeMaster
  split
  · exact h.copy
  · exact h.desc.fetchFree.store
theorem Dev.Turns.takeOptimiser (h : d.Turns none τ) {t} : (d.takeOptimiser t).Turns none τ := by
  unfold Dev.takeOptimiser
  split
  · exact h.copy
  · exact h.same.store
theorem Dev.Turns.takeMasters (h : d.Turns none τ) {m} : (d.takeMasters m).Turns none τ := h.each fun h1 => h1.takeMaster.takeOptimiser
theorem Dev.Turns.installGen (h : d.Turns none τ) {m g} : (d.installGen m g).Turns none τ :=
  ((h.each fun h1 => h1.store).each fun h2 => h2.setWord).same
theorem Dev.Turns.discardStep (h : d.Turns none τ) {m} : (d.discardStep m).Turns none τ := by
  unfold Dev.discardStep
  split
  · exact h
  · exact h.stopLearning.undoStep.bump.setLearner
theorem Dev.Turns.flipRegs (h : d.Turns none τ) {p old} : (d.flipRegs p old).Turns none τ :=
  have h1 : Dev.Turns _ none τ := .put (.put (.put (.ite h h.put)))
  .ite (.put h1) h1
theorem Dev.Turns.beginRetire (h : d.Turns none τ) {p} : (d.beginRetire p).Turns none τ := .ite h.put h.same
theorem Dev.Turns.flipEntry (h : d.Turns none τ) {p old} : (d.flipEntry p old).Turns none τ := h.journal
theorem Dev.Turns.flip (h : d.Turns none τ) {p} : (d.flip p).Turns none τ := by
  refine have h1 : Dev.Turns _ none τ := .bump (.beginRetire (.flipRegs ?_))
  .flipEntry (.ite (.bump h1) (.withdrawPublish (.takeMasters h1)))
  split
  · exact h.discardStep.forestFlip.installGen.put
  · exact h.discardStep.forestFlip
theorem Dev.Turns.flips (h : d.Turns none τ) : d.flips.Turns none τ := h.same.each fun h1 => h1.flip
theorem Dev.Turns.retired (h : d.Turns none τ) {m} : (d.retired m).Turns none τ := h.put.put
theorem Dev.Turns.retirements (h : d.Turns none τ) : d.retirements.Turns none τ := h.same.each fun h1 => h1.retired
theorem Dev.Turns.quantise (h : d.Turns none τ) {t} : (d.quantise t).2.Turns none τ :=
  have h1 := h.desc.fetchFree
  (.ite_snd h1 h1.normalScale)
theorem Dev.Turns.quantiseAll (h : d.Turns none τ) {ts} : (d.quantiseAll ts).2.Turns none τ := by
  induction ts generalizing d with
  | nil => exact h
  | cons t ts ih => exact ih h.quantise
theorem Dev.Turns.acceptPublish (h : d.Turns none τ) {m} : (d.acceptPublish m).Turns none τ := .ite h h.quantiseAll.same.put.put.put.setLearner
theorem Dev.Turns.acceptPublishes (h : d.Turns none τ) : d.acceptPublishes.Turns none τ := h.each fun h1 => h1.acceptPublish

/-! ### Planner -/

theorem Dev.Turns.setGapState (h : d.Turns none τ) {g x} : (d.setGapState g x).Turns none τ := by
  unfold Dev.setGapState
  split
  · exact h.same
  · exact h.same
theorem Dev.Turns.stepGap (h : d.Turns none τ) {g v} : (d.stepGap g v).Turns none τ := h.put.bump
theorem Dev.Turns.gapStepUp (h : d.Turns none τ) {g} : (d.gapStepUp g).Turns none τ :=
  .ite h.setGapState (.ite h.setGapState h.setGapState.stepGap)
theorem Dev.Turns.energiesTakeEffect (h : d.Turns none τ) : d.energiesTakeEffect.Turns none τ := h.same.each fun h1 => h1.put
theorem Dev.Turns.setUse (h : d.Turns none τ) {m t u} : (d.setUse m t u).Turns none τ := h.same
theorem Dev.Turns.cutCaps (h : d.Turns none τ) : d.cutCaps.Turns none τ := h.each fun h1 => .ite h1 h1.setUse.put
theorem Dev.Turns.refillCaps (h : d.Turns none τ) : d.refillCaps.Turns none τ := h.each fun h1 => h1.setUse
theorem Dev.Turns.softClear (h : d.Turns none τ) : d.softClear.Turns none τ := .ite h.put h
theorem Dev.Turns.endStopped (h : d.Turns none τ) {cause ts} : (d.endStopped cause ts).Turns none τ := h.each fun h1 => h1.endPass
theorem Dev.Turns.haltTiles (h : d.Turns none τ) {cause endCause mine} : (d.haltTiles cause endCause mine).Turns none τ :=
  (h.each fun h1 => h1.stopTile).endStopped

/-! ### Fence -/

theorem Dev.Turns.showPartition (h : d.Turns none τ) {p} : (d.showPartition p).Turns none τ := h.each fun h1 => h1.put.put.put
theorem Dev.Turns.clearPartition (h : d.Turns none τ) {f} : (d.clearPartition f).Turns none τ := h.put.put.put.put.put
theorem Dev.Turns.showPlacement (h : d.Turns none τ) : d.showPlacement.Turns none τ :=
  ((((h.each fun h1 => h1.clearPartition).each fun h2 => h2.showPartition).each fun h3 => h3.put).each fun h4 => h4.put.put).each
      fun h5 => h5.put
theorem Dev.Turns.fenceSummary (h : d.Turns none τ) : d.fenceSummary.Turns none τ := h.put.put.put
theorem Dev.Turns.setFacetFenced (h : d.Turns none τ) {f} : (d.setFacetFenced f).Turns none τ := h.put
theorem Dev.Turns.setCoreFenced (h : d.Turns none τ) {c} : (d.setCoreFenced c).Turns none τ := h.put.each fun h1 => h1.setFacetFenced
theorem Dev.Turns.setGratingFenced (h : d.Turns none τ) {g} : (d.setGratingFenced g).Turns none τ := h.put
theorem Dev.Turns.setClusterFenced (h : d.Turns none τ) {c} : (d.setClusterFenced c).Turns none τ :=
  ((h.put.each fun h1 => h1.setCoreFenced).setGratingFenced).stopMovers
theorem Dev.Turns.setFenced (h : d.Turns none τ) {f} : (d.setFenced f).Turns none τ :=
  .ite h.setFacetFenced (.ite h.setCoreFenced (.ite h.setClusterFenced (.ite h.setGratingFenced h.put)))
theorem Dev.Turns.moveRescale (h : d.Turns none τ) {len src dst} : (d.moveRescale len src dst).Turns none τ :=
  .ite h (h.each fun h1 => h1.setWord)
theorem Dev.Turns.replacePlaced (h : d.Turns none τ) {p qs} : (d.replacePlaced p qs).Turns none τ := h.same
theorem Dev.Turns.replacePartition (h : d.Turns none τ) {p} : (d.replacePartition p).1.Turns none τ := by
  unfold Dev.replacePartition
  split
  · exact h.replacePlaced
  · split
    · exact h.moveRescale.replacePlaced
    · exact h.replacePlaced
theorem Dev.Turns.replaceGang (h : d.Turns none τ) {p} : (d.replaceGang p).1.Turns none τ := .ite_fst h.replacePartition h.replacePlaced
theorem Dev.Turns.moveOperands (h : d.Turns none τ) {src dst bs} : (d.moveOperands src dst bs).Turns none τ := h.each fun h1 => h1.copy
theorem Dev.Turns.replaceGrating (h : d.Turns none τ) {p} : (d.replaceGrating p).1.Turns none τ := by
  unfold Dev.replaceGrating
  split
  · exact h.moveRescale.moveOperands.replacePlaced
  · exact h.replacePlaced
theorem Dev.Turns.loseTier (h : d.Turns none τ) {p} : (d.loseTier p).Turns none τ := .ite h h.same
theorem Dev.Turns.replaceArray (h : d.Turns none τ) {p} : (d.replaceArray p).Turns none τ :=
  have h1 : Dev.Turns _ none τ := .ite_fst h.replacePartition (.ite_fst h.replaceGang h.replaceGrating)
  .ite (.bump h1) (.loseTier h1)
theorem Dev.Turns.freeEngine (h : d.Turns none τ) {i} : (d.freeEngine i).Turns none τ :=
  (Dev.Turns.withRegs h).put.put.put.put.put.put.put
theorem Dev.Turns.loadStage (h : d.Turns none τ) {e' image} : (d.loadStage e' image).Turns none τ := ((h.each fun h1 => h1.setWord).put).same
theorem Dev.Turns.placeReplica (h : d.Turns none τ) {p r images es} : (d.placeReplica p r images es).Turns none τ :=
  (h.each fun h1 => h1.loadStage.put.put.put.bankUse.bump).same
theorem Dev.Turns.moreReplicas (h : d.Turns none τ) {p images k} : (Dev.moreReplicas p images k d).Turns none τ := by
  induction k generalizing d with
  | zero => exact h
  | succ k ih => exact .ite h (ih h.placeReplica)
theorem Dev.Turns.replaceForest (h : d.Turns none τ) {m} : (d.replaceForest m).Turns none τ := by
  unfold Dev.replaceForest
  extract_lets mine
  split
  · exact h
  · extract_lets all sources images d1 pl d2 d3 d4
    have h1 : d1.Turns none τ := h.each fun h2 => h2.freeEngine
    have h2 : d2.Turns none τ := h1.same
    have h3 : d3.Turns none τ := h2.moreReplicas
    have h4 : d4.Turns none τ := .ite h3 h3.loseTier
    exact h4.put
theorem Dev.Turns.scaleCaps (h : d.Turns none τ) {before} : (d.scaleCaps before).Turns none τ := h.each fun h1 => .ite h1 h1.put
theorem Dev.Turns.moveMembers (h : d.Turns none τ) {p qs} : (d.moveMembers p qs).Turns none τ := h.each fun h1 => .ite h1 h1.setBarMask
theorem Dev.Turns.dropMembers (h : d.Turns none τ) : d.dropMembers.Turns none τ := h.each fun h1 => h1.setBarMask.barrierCheck
theorem Dev.Turns.replaceProgram (h : d.Turns none τ) {p} : (d.replaceProgram p).Turns none τ := h.replaceArray.moveMembers
theorem Dev.Turns.fencesTakeEffect (h : d.Turns none τ) : d.fencesTakeEffect.Turns none τ := by
  unfold Dev.fencesTakeEffect
  split
  · exact h
  · exact ((((h.same.each fun h1 => h1.setFenced.bump).haltTiles.fenceSummary.each fun h2 => h2.replaceProgram).dropMembers).each
      fun h3 => h3.replaceForest).scaleCaps.showPlacement

/-! ### Tick -/

theorem Dev.Turns.markOverruns (h : d.Turns none τ) : d.markOverruns.Turns none τ := by
  unfold Dev.markOverruns
  split
  · exact h
  · exact h.each fun h1 => h1.each fun h2 => h2.setUse
theorem Dev.Turns.saturation (h : d.Turns none τ) : d.saturation.Turns none τ := .same (.ite h h.same)
theorem Dev.Turns.arrayDeadline (h : d.Turns none τ) : d.arrayDeadline.Turns none τ := h.widenDeadline.stopPrograms.graphsAnew.haltTiles
theorem Dev.Turns.phasesCompleted (h : d.Turns none τ) : d.phasesCompleted.Turns none τ := h.each fun h1 => h1.countCompleted
theorem Dev.Turns.windowEnds (h : d.Turns none τ) : d.windowEnds.Turns none { τ with computing := none } := by
  unfold Dev.windowEnds
  extract_lets d1 d2
  have h1 : d1.Turns none τ := .ite h.markOverruns.learnDeferred.saturation.phasesCompleted h
  have h2 : d2.Turns none τ := h1.arrayDeadline.forestDeadline.verdictDeadline
  exact h2.move (fun τ => { τ with computing := none }) rfl
theorem Dev.Turns.measure (h : d.Turns none τ) {energy} : (d.measure energy).Turns none τ :=
  .ite (.put (.ite h.put h)) (.put (.same (.ite (.ite h.put h) (.bump (.ite h.put h)))))
theorem Dev.Turns.formCredit (h : d.Turns none τ) : d.formCredit.Turns none τ := by
  unfold Dev.formCredit
  dsimp only
  split
  · exact h.put.put.same.spend
  · exact h.put.put.same
theorem Dev.Turns.budgetTakesEffect (h : d.Turns none τ) : d.budgetTakesEffect.Turns none τ := .ite h h.same.put.softClear
theorem Dev.Turns.throttleBoundary (h : d.Turns none τ) : d.throttleBoundary.Turns none τ :=
  have h1 : Dev.Turns _ none τ := .ite h.put.setMhz h
  .ite (.bump h1) h1
theorem Dev.Turns.latchSettings (h : d.Turns none τ) : ∃ t, d.latchSettings.Turns none { τ with period := t } := by
  unfold Dev.latchSettings
  extract_lets lo p d1 plan2 d2
  have h1 : d1.Turns none τ := h.same
  have h2 : ∃ t, d2.Turns none { τ with period := t } := by
    by_cases hp : d1.on R.TKP_TICK_STAT_PERIOD_PENDING && !d1.on R.TKP_TICK_STAT_FOLLOWER
    · refine ⟨d1.get R.TKP_TICK_CFG_PERIOD_NS, ?_⟩
      simp only [d2, if_pos hp]
      exact h1.move (fun τ => { τ with period := d1.get R.TKP_TICK_CFG_PERIOD_NS }) rfl
    · refine ⟨τ.period, ?_⟩
      simp only [d2, if_neg hp]
      exact h1
  obtain ⟨t, h2⟩ := h2
  exact ⟨t, h2.put.modesTakeEffect⟩
theorem Dev.Turns.copyStepped (h : d.Turns none τ) {b base i s} : (d.copyStepped b base i s).Turns none τ := h.copy.copy
theorem Dev.Turns.takeStepBatch (h : d.Turns none τ) {c} : (d.takeStepBatch c).Turns none τ := by
  unfold Dev.takeStepBatch
  dsimp only
  split
  · exact h.graphsAnew.same
  · exact (h.graphsAnew.each fun h1 => h1.copyStepped).same
theorem Dev.Turns.restart (h : d.Turns none τ) {c} : (d.restart c).Turns none τ :=
  have h1 := h.contextRestart.dropReleases
  .ite h1.takeStepBatch h1
theorem Dev.Turns.stepEnter (h : d.Turns none τ) {c} : (d.stepEnter c).Turns none τ := .ite h.put h.put.takeStepBatch
theorem Dev.Turns.stepLeave (h : d.Turns none τ) {c} : (d.stepLeave c).Turns none τ := by
  refine .dropReleases (.contextRestart (.put ?_))
  split
  · exact h.stopPrograms.stopMovers.same.bump.answerLate
  · exact h.stopPrograms.stopMovers.same
theorem Dev.Turns.stepModes (h : d.Turns none τ) : d.stepModes.Turns none τ := h.same.each fun h1 => .ite h1.stepEnter h1.stepLeave
theorem Dev.Turns.contextsAtBoundary (h : d.Turns none τ) : d.contextsAtBoundary.Turns none τ := (h.foldl fun h1 => h1.restart).stepModes
theorem Dev.Turns.signalWindows (h : d.Turns none τ) : d.signalWindows.Turns none τ := h.each fun h1 => h1.signal
theorem Dev.Turns.countBoundary (h : d.Turns none τ) : d.countBoundary.Turns none τ := h.same
/-- The turn of the batches: the one that collected computes, a new one collects in the other slot set. -/
def Turning.turned (τ : Turning) : Turning :=
  { τ with computing := τ.collecting.map (·.number),
           collecting := some ⟨τ.tick % 2 ^ 32, match τ.collecting with | some b => 1 - b.set | none => 0, []⟩ }

theorem Dev.Turns.turnBatches (h : d.Turns none τ) (hf : τ.firstTick.isSome = true) : d.turnBatches.Turns none τ.turned := by
  unfold Dev.turnBatches
  extract_lets set d1 p
  have h1 : d1.Turns none τ := .ite h.bump h
  have hset : set = match τ.collecting with | some b => 1 - b.set | none => 0 := by
    rw [← h.ticks]
    rfl
  have hfirst : d1.plan.firstTick.isSome = true := by
    rw [← h1.ticks] at hf
    exact hf
  have hcoll : d1.plan.collecting = τ.collecting := congrArg Turning.collecting h1.ticks
  have ht : d1.tick32 = d1.plan.tick % 2 ^ 32 := if_pos hfirst
  refine h1.move Turning.turned ?_
  rw [ht, hset, ← hcoll]
  rfl
theorem Dev.Turns.openSamples (h : d.Turns none τ) : d.openSamples.Turns none τ := by
  unfold Dev.openSamples
  split
  · exact h.each fun h1 => h1.openSample
  · exact h
theorem Dev.Turns.gapSteps (h : d.Turns none τ) {ended} : (d.gapSteps ended).Turns none τ := .ite (h.each fun h1 => h1.gapStepUp) h
theorem Dev.Turns.countWindows (h : d.Turns none τ) {ended} : (d.countWindows ended).Turns none τ := .ite (h.each fun h1 => h1.setUse) h
theorem Dev.Turns.capsAtBoundary (h : d.Turns none τ) : d.capsAtBoundary.Turns none τ := .refillCaps (.ite h h.cutCaps)
theorem Dev.Turns.pulse (h : d.Turns none τ) {line ns} : (d.pulse line ns).Turns none τ := .ite h.same h
theorem Dev.Turns.tickLines (h : d.Turns none τ) : d.tickLines.Turns none τ :=
  have h1 : Dev.Turns _ none τ := .ite h.pulse.driveTicks h
  .ite (.pulse h1) (.ite (.bump h1) h1)
/-- The tick that begins. -/
def Turning.begun (τ : Turning) (time num : Nat) : Turning :=
  { τ with tick := num, tickNs := time, firstTick := some (τ.firstTick.getD num) }

theorem Dev.Turns.beginTick (h : d.Turns none τ) (time num : Nat) : (d.beginTick time num).Turns none (τ.begun time num) := by
  unfold Dev.beginTick
  extract_lets first p d1 d2 d3 d4
  have h1 : d1.Turns none (τ.begun time num) := h.move (fun τ => τ.begun time num) rfl
  clear_value d1
  have h2 : d2.Turns none (τ.begun time num) := h1.put
  clear_value d2
  have h3 : d3.Turns none (τ.begun time num) := h2.put
  clear_value d3
  have h4 : d4.Turns none (τ.begun time num) := h3.put.put
  clear_value d4
  exact .ite (.ite (h4.each fun h => h.barrierCheck) h4) h2
theorem Dev.Turns.changesTakeEffect (h : d.Turns none τ) : d.changesTakeEffect.Turns none τ :=
  h.throttleBoundary.energiesTakeEffect.retirements.flips.acceptPublishes.fencesTakeEffect.retireTakeEffect
theorem Dev.Turns.windowBegins (h : d.Turns none τ) (hf : τ.firstTick.isSome = true) {ended} : (d.windowBegins ended).Turns none τ.turned :=
  (h.turnBatches hf).openSamples.gapSteps.same.contextsAtBoundary.formCredit.capsAtBoundary
theorem Dev.Turns.catchUp (h : d.Turns none τ) : d.catchUp.Turns none τ :=
  have h1 : Dev.Turns _ none τ := .ite h h.drain
  .ite h1 (.journalExport h1)

/-- The time of the next boundary. -/
theorem Dev.Turns.withNext (h : d.Turns none τ) (t : Nat) :
    ({ d with plan := { d.plan with nextNs := t } } : Dev).Turns none { τ with nextNs := t } :=
  h.move (fun τ => { τ with nextNs := t }) rfl

/-- Where the ticks stand after a boundary at a time, with the period that is in force from it. -/
def Turning.bounded (τ : Turning) (time num period : Nat) : Turning :=
  { ({ τ with ns := max τ.ns time } : Turning).begun time num |>.turned with period := period, nextNs := time + period }

/-- A boundary: its tick begins at its time, its batches turn, and the next one is due a period later. -/
theorem Dev.Turns.boundary (h : d.Turns none τ) (env : BoundaryEnv) (time num : Nat) :
    ∃ t, (d.boundary env time num).Turns none (τ.bounded time num t) := by
  unfold Dev.boundary
  extract_lets ended d1 d2 d3 d4
  have h1 : d1.Turns none { τ with ns := max τ.ns time } := (h.advance time).measure.countWindows
  have h2 := (h1.beginTick time num).windowEnds.takeTemps (ts := env.temps)
  obtain ⟨t, h3⟩ := h2.latchSettings
  have h4 : d4.Turns none { ({ τ with ns := max τ.ns time } : Turning).begun time num |>.turned with period := t } :=
    (h3.budgetTakesEffect.changesTakeEffect.windowBegins rfl (ended := ended)).signalWindows.stateReady.countBoundary.tickLines
  clear_value d4
  have ht : d4.plan.period = t := congrArg Turning.period h4.ticks
  subst ht
  exact ⟨d4.plan.period, (h4.withNext _).catchUp⟩

end Sys2Proof.Machine
end

section
/-! What begins a tick: the device's own period, a follower's edges, a lost `TICK_SYNC` (R26, R30, R31, R497); O38. -/

namespace Sys2Proof.Machine

/-- What the devices `d` and `e` before and after a boundary have to do with one another: `Obligations.TicksBeginAtBoundaries` says so
of each boundary. -/
def Dev.BeginsTick (d e : Dev) (time num : Nat) : Prop :=
  e.plan.tick = num ∧ e.plan.tickNs = time ∧ e.plan.firstTick = some (d.plan.firstTick.getD num)
    ∧ e.plan.nextNs = time + e.plan.period ∧ time ≤ e.ns ∧ d.ns ≤ e.ns
    ∧ e.plan.computing.map (·.number) = d.plan.collecting.map (·.number)
    ∧ ∃ b, e.plan.collecting = some b ∧ b.number = num % 2 ^ 32 ∧ b.samples = []
        ∧ b.set = match d.plan.collecting with | some c => 1 - c.set | none => 0

theorem Dev.beginsTick_boundary (d : Dev) (env : BoundaryEnv) (time num : Nat) :
    d.BeginsTick (d.boundary env time num) time num ∧ (d.boundary env time num).plan.missed = d.plan.missed := by
  obtain ⟨t, h⟩ := Dev.Turns.boundary (d := d) (τ := Turning.of d.ns d.plan) ⟨rfl, nofun⟩ env time num
  have field {α : Type} (f : Turning → α) := congrArg f h.ticks
  have hper : (d.boundary env time num).plan.period = t := field (·.period)
  have hns : (d.boundary env time num).ns = max d.ns time := field (·.ns)
  refine ⟨⟨field (·.tick), field (·.tickNs), field (·.firstTick), ?_, ?_, ?_, field (·.computing), _, field (·.collecting), rfl, rfl, rfl⟩,
    field (·.missed)⟩
  · rw [hper]
    exact field (·.nextNs)
  · rw [hns]
    exact le_max_right _ _
  · rw [hns]
    exact le_max_left _ _

/-- A command of a running device that may write the life-cycle records completes with its update. -/
theorem Completes.ofLiveLife {c : Instr} {s : State} {f : Dev → Dev} {g : Dev → Dev → Life} {post : Dev → Prop} (hr : s.Running)
    (hc : exec c s = s.liveLife f g) (hp : post ((f s.dev).withLife (g s.dev (f s.dev)))) : Completes c s post :=
  ⟨_, hc.trans (State.liveLife_running f g hr), rfl, hp⟩

/-- Without a boundary a command of the ticks that leaves the device as it was changes nothing. -/
theorem exec_of_noTick {c : Instr} {s : State} {f : Dev → Dev} (hc : exec c s = s.liveLife f Dev.lifeAtBoundary) (hf : f s.dev = s.dev) :
    exec c s = .next s := by
  have hl : s.dev.lifeAtBoundary s.dev = s.dev.life := by
    unfold Dev.lifeAtBoundary
    cases s.dev.plan.firstTick <;> rfl
  rw [hc]
  unfold State.liveLife
  rw [hf, hl]
  exact congrArg (fun d => Host.Outcome.next { s with dev := d }) (ite_self s.dev)

namespace Dev

/-! ### The device's own period -/

theorem ownBoundary_of_not_own {d : Dev} (env : BoundaryEnv) (h : d.plan.ticking = false ∨ d.ownTicks = false) :
    d.ownBoundary env = d := by
  refine if_pos ?_
  rcases h with h | h <;> simp [h]

theorem ownBoundary_of_leader {d : Dev} (env : BoundaryEnv) (ht : d.plan.ticking = true) (hf : d.on R.TKP_TICK_STAT_FOLLOWER = false) :
    d.ownBoundary env = d.boundary env d.plan.nextNs d.nextTick := by
  unfold ownBoundary ownTicks
  simp [ht, hf]

/-- A follower that ticks on its own counts the boundary as an edge. -/
theorem ownBoundary_of_follower {d : Dev} (env : BoundaryEnv) (ht : d.plan.ticking = true) (hf : d.on R.TKP_TICK_STAT_FOLLOWER = true)
    (hm : 2 ≤ d.plan.missed) : ∃ es, d.ownBoundary env
      = ({ d with plan := { d.plan with edges := es } } : Dev).boundary env d.plan.nextNs (d.unwrapTick d.nextEdge) := by
  have hn : ¬((!d.plan.ticking || !d.ownTicks) = true) := by simp [ht, hm, ownTicks]
  exact ⟨_, (if_neg hn).trans (if_pos hf)⟩

/-! ### A follower's edges -/

/-- The edge noted at a follower, before its boundary. -/
def edgeNoted (d : Dev) (time : Nat) : Dev :=
  ({ d with plan := { d.plan with period := d.edgePeriod time } } : Dev).noteEdge time d.nextEdge

theorem syncEdge_of_not_follower {d : Dev} (env : BoundaryEnv)
    (h : d.plan.ticking = false ∨ d.on R.TKP_TICK_STAT_FOLLOWER = false ∨ d.on R.TKP_MODE_FABRIC_BOARD = false) : d.syncEdge env = d := by
  refine if_pos ?_
  rcases h with h | h | h <;> simp [h]

theorem syncEdge_eq {d : Dev} (env : BoundaryEnv) (ht : d.plan.ticking = true) (hf : d.on R.TKP_TICK_STAT_FOLLOWER = true)
    (hb : d.on R.TKP_MODE_FABRIC_BOARD = true) : d.syncEdge env =
      if d.plan.numbered || d.plan.firstTick.isSome then
        (d.edgeNoted (d.ns - d.get R.CLK_OUT_CFG_TICK_SYNC_DELAY_NS)).boundary env (d.ns - d.get R.CLK_OUT_CFG_TICK_SYNC_DELAY_NS)
          (d.unwrapTick d.nextEdge)
      else d.edgeNoted (d.ns - d.get R.CLK_OUT_CFG_TICK_SYNC_DELAY_NS) :=
  if_neg (by simp [ht, hf, hb])

theorem getLast?_edgeNoted (d : Dev) (time : Nat) : (d.edgeNoted time).plan.edges.getLast? = some (time, d.nextEdge) := by
  have h : (d.edgeNoted time).plan.edges
      = (d.plan.edges ++ [(time, d.nextEdge)]).drop ((d.plan.edges ++ [(time, d.nextEdge)]).length - 16) := rfl
  rw [h, List.getLast?_drop, if_neg (by simp), List.getLast?_concat]

/-! ### A lost `TICK_SYNC` -/

theorem syncLost_of_not_waiting {d : Dev}
    (h : d.plan.ticking = false ∨ d.on R.TKP_TICK_STAT_FOLLOWER = false ∨ 2 ≤ d.plan.missed) : d.syncLost = d := by
  refine if_pos ?_
  rcases h with h | h | h <;> simp [h]

/-- When a follower gives its edge up. -/
def syncLostNs (d : Dev) : Nat := d.lastEdgeNs + 2 * d.plan.period

/-- The follower that goes on by itself from a time. -/
def lostSync (d : Dev) (t : Nat) : Dev :=
  let e := (d.advance t).put R.TKP_TICK_STAT_SYNC_LOST 1
  { e with plan := { e.plan with missed := 2, nextNs := t } }

theorem syncLost_eq {d : Dev} (ht : d.plan.ticking = true) (hf : d.on R.TKP_TICK_STAT_FOLLOWER = true) (hm : d.plan.missed < 2) :
    d.syncLost = d.lostSync d.syncLostNs := if_neg (by simp [ht, hf, hm])

theorem moves_lostSync (d : Dev) (t : Nat) : d.Moves (d.lostSync t) [R.TKP_TICK_STAT_SYNC_LOST.addr] [.time, .plan] :=
  (((Moves.refl d _ _).advance (by simp) t).put (by simp)).withPlan (by simp) _

theorem plan_lostSync (d : Dev) (t : Nat) : (d.lostSync t).plan = { d.plan with missed := 2, nextNs := t } := by
  have hp : ((d.advance t).put R.TKP_TICK_STAT_SYNC_LOST 1).plan = d.plan := by rw [put_plan, advance_plan]
  unfold lostSync
  dsimp only
  rw [hp]

theorem ns_lostSync (d : Dev) (t : Nat) : (d.lostSync t).ns = max d.ns t := d.advance_ns t

end Dev

theorem exec_tickBoundary (env : BoundaryEnv) (s : State) :
    exec (.tickBoundary env) s = s.liveLife (fun d => d.ownBoundary env) Dev.lifeAtBoundary := rfl

theorem exec_tickSyncEdge (env : BoundaryEnv) (s : State) :
    exec (.tickSyncEdge env) s = s.liveLife (fun d => d.syncEdge env) Dev.lifeAtBoundary := rfl

theorem exec_syncLost (s : State) : exec .syncLost s = s.live Dev.syncLost := rfl

/-- Settles O38: a boundary's turn is `Dev.beginsTick_boundary`; what comes before it changes of the plan the edges alone. -/
theorem ticksBeginAtBoundaries : Obligations.TicksBeginAtBoundaries := by
  intro s env hr begins
  have hbegin (e : Dev) (time num : Nat) (h : s.dev.BeginsTick e time num) (l : Life) : begins time num (e.withLife l) := h
  refine ⟨fun ht hf => ?_, fun ht hf hm => ?_, fun h => ?_, fun ht hf hb => ⟨fun h => ?_, fun hn hfirst => ?_⟩, fun h => ?_,
    fun ht hf hm => ?_, fun h => ?_⟩
  · refine .ofLiveLife hr (exec_tickBoundary env s) (hbegin _ _ _ ?_ _)
    rw [Dev.ownBoundary_of_leader env ht hf]
    exact (s.dev.beginsTick_boundary env _ _).1
  · refine .ofLiveLife hr (exec_tickBoundary env s) (hbegin _ _ _ ?_ _)
    obtain ⟨es, he⟩ := Dev.ownBoundary_of_follower env ht hf hm
    obtain ⟨hticks, _⟩ := Dev.beginsTick_boundary { s.dev with plan := { s.dev.plan with edges := es } } env s.dev.plan.nextNs
      (s.dev.unwrapTick s.dev.nextEdge)
    rw [← he] at hticks
    exact hticks
  · refine exec_of_noTick (exec_tickBoundary env s) (Dev.ownBoundary_of_not_own env (h.imp_right fun ⟨hf, hm⟩ => ?_))
    simp [Dev.ownTicks, hf, hm]
  · have hc : (s.dev.plan.numbered || s.dev.plan.firstTick.isSome) = true := by
      simpa [Option.isSome_iff_ne_none] using h
    have he := s.dev.syncEdge_eq env ht hf hb
    rw [if_pos hc] at he
    obtain ⟨hticks, hmissed⟩ := (s.dev.edgeNoted (s.dev.ns - s.dev.get R.CLK_OUT_CFG_TICK_SYNC_DELAY_NS)).beginsTick_boundary env
      (s.dev.ns - s.dev.get R.CLK_OUT_CFG_TICK_SYNC_DELAY_NS) (s.dev.unwrapTick s.dev.nextEdge)
    rw [← he] at hticks hmissed
    have h0 : (s.dev.syncEdge env).plan.missed = 0 := hmissed
    have h1 : s.dev.BeginsTick (s.dev.syncEdge env) _ _ := hticks
    refine .ofLiveLife hr (exec_tickSyncEdge env s) (And.intro (hbegin (s.dev.syncEdge env) _ _ h1 _) h0)
  · have he := s.dev.syncEdge_eq env ht hf hb
    rw [if_neg (by simp [hn, hfirst])] at he
    have hl : s.dev.lifeAtBoundary (s.dev.syncEdge env) = s.dev.life := by
      rw [he]
      exact if_neg (by simp [hfirst, Dev.edgeNoted, Dev.noteEdge])
    refine .ofLiveLife hr (exec_tickSyncEdge env s) ?_
    have hm : s.dev.Moves (s.dev.edgeNoted (s.dev.ns - s.dev.get R.CLK_OUT_CFG_TICK_SYNC_DELAY_NS)) [] [.plan] :=
      (Dev.Moves.refl s.dev _ _).withPlan (by simp) _
    rw [hl, he]
    exact ⟨Dev.getLast?_edgeNoted _ _, rfl, rfl, rfl, hm.words, hm.parts, hm.memory⟩
  · exact exec_of_noTick (exec_tickSyncEdge env s) (Dev.syncEdge_of_not_follower env h)
  · have hx := (exec_syncLost s).trans (State.live_running _ hr)
    have hw := s.dev.moves_lostSync s.dev.syncLostNs
    have hplan := s.dev.plan_lostSync s.dev.syncLostNs
    have hlife : (s.dev.lostSync s.dev.syncLostNs).life = s.dev.life := hw.parts .life (by simp)
    rw [Dev.syncLost_eq ht hf hm, ← hlife] at hx
    refine ⟨_, hx, rfl, ?_, congrArg Plan.missed hplan, congrArg Plan.nextNs hplan, ?_, ?_, hw.words, ?_, hw.memory⟩
    · exact Dev.get_put_same _ _ _ (by decide)
    · exact (congrArg Plan.nextNs hplan).le.trans ((le_max_right _ _).trans (s.dev.ns_lostSync _).ge)
    · exact hplan.trans (congrArg (fun t => { s.dev.plan with missed := 2, nextNs := t }) (congrArg Plan.nextNs hplan).symm)
    · exact hw.parts
  · rw [exec_syncLost]
    unfold State.live
    rw [Dev.syncLost_of_not_waiting h]
    exact congrArg (fun d => Host.Outcome.next { s with dev := d }) (ite_self s.dev)

end Sys2Proof.Machine
end

section
/-! The planner's grants between boundaries: learning phases in `PRIO` order (R40, R412), slack requests in the order of R418 and what
each is answered (R417, R421, R537); O40. -/

namespace Sys2Proof.Machine

/-! ### Requests taken one after the other in an order -/

section

variable {α : Type} {r : α → α → Prop} [DecidableRel r]

/-- An element that precedes none of a list joins its end. -/
theorem orderedInsert_of_forall_not {a : α} {l : List α} (h : ∀ b ∈ l, ¬r a b) : l.orderedInsert r a = l ++ [a] := by
  induction l with
  | nil => rfl
  | cons b l ih =>
    obtain ⟨hb, hl⟩ := List.forall_mem_cons.1 h
    rw [List.orderedInsert_cons, if_neg hb, ih hl, List.cons_append]

/-- A list in order is taken in its own order. -/
theorem foldl_orderedInsert_of_pairwise {l : List α} (acc : List α) (h : (acc ++ l).Pairwise fun x y => ¬r y x) :
    l.foldl (fun l x => l.orderedInsert r x) acc = acc ++ l := by
  induction l generalizing acc with
  | nil => simp
  | cons a l ih =>
    have ha : ∀ b ∈ acc, ¬r a b := fun b hb => (List.pairwise_append.1 h).2.2 b hb a (by simp)
    rw [List.foldl_cons, orderedInsert_of_forall_not ha, ih _ (by simpa using h), List.append_assoc, List.singleton_append]

theorem pairwise_orderedInsert (htrans : ∀ a b c, r a b → r b c → r a c) (hirr : ∀ a, ¬r a a) {a : α} {l : List α}
    (h : l.Pairwise fun x y => ¬r y x) : (l.orderedInsert r a).Pairwise fun x y => ¬r y x := by
  induction l with
  | nil => exact List.pairwise_singleton _ _
  | cons b l ih =>
    obtain ⟨hb, hl⟩ := List.pairwise_cons.1 h
    rw [List.orderedInsert_cons]
    split
    · rename_i hab
      refine List.pairwise_cons.2 ⟨List.forall_mem_cons.2 ⟨fun hba => hirr a (htrans _ _ _ hab hba), fun c hc hca => ?_⟩, h⟩
      exact hb c hc (htrans _ _ _ hca hab)
    · rename_i hab
      refine List.pairwise_cons.2 ⟨fun c hc => ?_, ih hl⟩
      rcases (List.mem_orderedInsert r).1 hc with rfl | hc
      · exact hab
      · exact hb c hc

theorem pairwise_foldl_orderedInsert (htrans : ∀ a b c, r a b → r b c → r a c) (hirr : ∀ a, ¬r a a) (l : List α) {acc : List α}
    (h : acc.Pairwise fun x y => ¬r y x) : (l.foldl (fun l x => l.orderedInsert r x) acc).Pairwise fun x y => ¬r y x := by
  induction l generalizing acc with
  | nil => exact h
  | cons a l ih => exact ih (pairwise_orderedInsert htrans hirr h)

end

/-- What a command of a unit must keep for another of the unit to follow it: the unit's clock, the supply and the life-cycle records. -/
structure Dev.KeepsUnit (d e : Dev) (n : Nat) : Prop where
  life : e.life = d.life
  phase : e.sup.phase = d.sup.phase
  region : e.regionStopped n = d.regionStopped n

theorem Dev.KeepsUnit.refl (d : Dev) (n : Nat) : d.KeepsUnit d n := ⟨rfl, rfl, rfl⟩

theorem Dev.Moves.keepsUnit {d e : Dev} {ws : List Nat} {ps : List Part} {n : Nat} (h : d.Moves e ws ps)
    (hw : (R.LPE_REGION_STAT_STOPPED n).addr ∉ ws) (hl : .life ∉ ps) (hs : .sup ∉ ps) : d.KeepsUnit e n :=
  ⟨h.parts .life hl, congrArg Supply.phase (h.parts .sup hs), h.on hw⟩

/-- Two commands of a unit one after the other, and one that does what both do. -/
theorem exec_seq {s : State} {n : Nat} {c c' c'' : Instr} {f g h : Dev → Dev} (hr : s.RunsIn n)
    (hf : exec c s = s.clocked (·.regionStopped n) f) (hg : ∀ t, exec c' t = t.clocked (·.regionStopped n) g)
    (hh : exec c'' s = s.clocked (·.regionStopped n) h) (hk : s.dev.KeepsUnit (f s.dev) n) (hfg : h s.dev = g (f s.dev)) :
    ∃ t, exec c s = .next t ∧ exec c'' s = exec c' t := by
  obtain ⟨hrun, hstop⟩ := hr
  obtain ⟨hlife, hphase, hreg⟩ := hk
  have hw : (f s.dev).withLife s.dev.life = f s.dev := by rw [← hlife]; rfl
  refine ⟨{ s with dev := f s.dev }, ?_, ?_⟩
  · rw [hf, State.clocked_runs f hrun hstop, hw]
  · rw [hh, hg, State.clocked_runs h hrun hstop, State.clocked_runs g (hphase.trans hrun) (hreg.trans hstop), hfg]
    exact congrArg (fun l => Host.Outcome.next { s with dev := (g (f s.dev)).withLife l }) hlife.symm

/-! ### Learning phases (R40, R412) -/

namespace Dev

/-- Whether a model's phase is taken before another's. -/
def phaseBefore (d : Dev) (m x : Nat) : Prop :=
  d.esc (R.TKP_ESC_PRIO x) < d.esc (R.TKP_ESC_PRIO m) ∨ (d.esc (R.TKP_ESC_PRIO m) = d.esc (R.TKP_ESC_PRIO x) ∧ m < x)

theorem phaseBefore_trans (d : Dev) (a b c : Nat) (hab : d.phaseBefore a b) (hbc : d.phaseBefore b c) : d.phaseBefore a c := by
  unfold phaseBefore at *
  omega

theorem not_phaseBefore_self (d : Dev) (a : Nat) : ¬d.phaseBefore a a := by
  unfold phaseBefore
  omega

theorem insertPrio_cons (d : Dev) (m x : Nat) (l : List Nat) : d.insertPrio m (x :: l) =
    if d.esc (R.TKP_ESC_PRIO x) < d.esc (R.TKP_ESC_PRIO m) || (d.esc (R.TKP_ESC_PRIO m) = d.esc (R.TKP_ESC_PRIO x) && m < x) then m :: x :: l
    else x :: d.insertPrio m l := rfl

theorem insertPrio_eq (d : Dev) [DecidableRel d.phaseBefore] (m : Nat) (l : List Nat) :
    d.insertPrio m l = l.orderedInsert d.phaseBefore m := by
  induction l with
  | nil => rfl
  | cons x l ih =>
    rw [List.orderedInsert_cons, ← ih, insertPrio_cons]
    by_cases h : d.phaseBefore m x
    · rw [if_pos h]
      refine if_pos ?_
      simpa [phaseBefore] using h
    · rw [if_neg h]
      refine if_neg ?_
      simpa [phaseBefore] using h

/-- Phases asked for, in the order in which they are taken. -/
def phaseOrder (d : Dev) (ms : List Nat) : List Nat := ms.foldl (fun l m => d.insertPrio m l) []

theorem phaseOrder_congr {d e : Dev} (h : e.plan.esc = d.plan.esc) (ms : List Nat) : e.phaseOrder ms = d.phaseOrder ms := by
  have hesc (f : Fld) : e.esc f = d.esc f := by unfold esc; rw [h]
  have hi (m : Nat) (l : List Nat) : e.insertPrio m l = d.insertPrio m l := by
    induction l with
    | nil => rfl
    | cons x l ih => rw [insertPrio_cons, insertPrio_cons, hesc, hesc, ih]
  have hf : (fun l m => e.insertPrio m l) = fun l m => d.insertPrio m l := funext fun l => funext fun m => hi m l
  unfold phaseOrder
  rw [hf]

theorem phaseOrder_singleton (d : Dev) (m : Nat) : d.phaseOrder [m] = [m] := rfl

/-- What is left of phases in their order, when the first has been taken, is in its order. -/
theorem phaseOrder_tail {d : Dev} {ms rest : List Nat} {m : Nat} (h : m :: rest = d.phaseOrder ms) : d.phaseOrder rest = rest := by
  classical
  have hi : (fun l m => d.insertPrio m l) = fun l m => List.orderedInsert d.phaseBefore m l :=
    funext fun l => funext fun m => d.insertPrio_eq m l
  unfold phaseOrder at h ⊢
  rw [hi] at h ⊢
  have hp := pairwise_foldl_orderedInsert d.phaseBefore_trans d.not_phaseBefore_self ms List.Pairwise.nil
  rw [← h] at hp
  exact foldl_orderedInsert_of_pairwise [] (List.pairwise_cons.1 hp).2

/-- Whether the context of a model's sequence tier holds its phases back: it is in Step or faulted. -/
def phaseHeld (d : Dev) (m : Nat) : Bool := match d.seqContext m with | some c => d.stepping c || d.faulted c | none => false

/-- A phase admitted: its charge taken from the credit, its step begun. -/
def phaseAdmitted (d : Dev) (m : Nat) (st : LearnStep) : Dev :=
  let e := d.get (R.TKP_ENERGY_E_UJ m 3)
  let d := (d.spend e).setLearner m { d.learner m with step := some { st with startTick := some (st.startTick.getD d.plan.tick) } }
  { d with plan := { d.plan with phases := d.plan.phases ++ [m] } }

theorem admitPhase_eq (d : Dev) (m : Nat) : d.admitPhase m =
    match (d.learner m).step with
    | none => d
    | some st => if d.phaseHeld m || fpLt d.plan.left (d.get (R.TKP_ENERGY_E_UJ m 3)) then d else d.phaseAdmitted m st := rfl

/-- What an admission may change: of the plan the credit and the phases, and the learners. -/
theorem admitPhase_shape (d : Dev) (m : Nat) : ∃ left charged phases learners, d.admitPhase m =
    { d with plan := { d.plan with left := left, charged := charged, phases := phases }, seq := { d.seq with learners := learners } } := by
  rw [admitPhase_eq]
  split
  · exact ⟨_, _, _, _, rfl⟩
  · split
    · exact ⟨_, _, _, _, rfl⟩
    · exact ⟨_, _, _, _, rfl⟩

theorem learnAdmit_eq (d : Dev) (ms : List Nat) : d.learnAdmit ms =
    if !d.verdictsDone || d.on R.APR_STAT_THROTTLE || bitsOf d.plan.mode 0 1 = 0 then d else d.each (d.phaseOrder ms) admitPhase := rfl

theorem learnAdmit_of_not {d : Dev} (h : d.verdictsDone = false ∨ d.on R.APR_STAT_THROTTLE = true ∨ bitsOf d.plan.mode 0 1 = 0)
    (ms : List Nat) : d.learnAdmit ms = d := by
  rw [learnAdmit_eq]
  refine if_pos ?_
  rcases h with h | h | h <;> simp [h]

/-- Phases are admitted one after the other. -/
theorem learnAdmit_seq (d : Dev) {ms rest : List Nat} {m : Nat} (h : m :: rest = d.phaseOrder ms) :
    d.learnAdmit ms = (d.learnAdmit [m]).learnAdmit rest := by
  by_cases hg : (!d.verdictsDone || d.on R.APR_STAT_THROTTLE || bitsOf d.plan.mode 0 1 = 0) = true
  · have hd (l : List Nat) : d.learnAdmit l = d := if_pos hg
    rw [hd, hd, hd]
  · have h1 (l : List Nat) : d.learnAdmit l = d.each (d.phaseOrder l) admitPhase := if_neg hg
    have hm : d.each [m] admitPhase = d.admitPhase m := rfl
    obtain ⟨left, charged, phases, learners, he⟩ := d.admitPhase_shape m
    have hesc : (d.admitPhase m).plan.esc = d.plan.esc := by rw [he]
    have hz : ¬(!(d.admitPhase m).verdictsDone || (d.admitPhase m).on R.APR_STAT_THROTTLE
        || bitsOf (d.admitPhase m).plan.mode 0 1 = 0) = true := by
      rw [he]
      exact hg
    have h2 : (d.admitPhase m).learnAdmit rest = (d.admitPhase m).each (d.phaseOrder rest) admitPhase :=
      (if_neg hz).trans (congrArg (fun l => each l admitPhase (d.admitPhase m)) (phaseOrder_congr hesc rest))
    rw [h1, h1, phaseOrder_singleton, hm, h2, phaseOrder_tail h, ← h]
    rfl

/-! What an admitted phase leaves -/

theorem phaseHeld_iff (d : Dev) (m : Nat) :
    d.phaseHeld m = true ↔ ∃ c, d.seqContext m = some c ∧ (d.stepping c = true ∨ d.faulted c = true) := by
  unfold phaseHeld
  cases d.seqContext m <;> simp

theorem moves_phaseAdmitted (d : Dev) (m : Nat) (st : LearnStep) : d.Moves (d.phaseAdmitted m st) [] [.plan, .seq] := by
  refine ⟨fun _ _ => rfl, fun p hp => ?_, fun _ => rfl, fun _ => rfl⟩
  cases p with
  | plan => simp at hp
  | seq => simp at hp
  | time => exact ⟨rfl, rfl⟩
  | port | front | lens | sync | fab | lpe | ctl | jrn | nvm | life | sec | sup => rfl

theorem learner_phaseAdmitted_same (d : Dev) (m : Nat) (st : LearnStep) : ((d.phaseAdmitted m st).learner m).step
    = some { st with startTick := some (st.startTick.getD d.plan.tick) } := by
  unfold phaseAdmitted learner setLearner spend
  dsimp only
  rw [Sparse.find_put_same]
  rfl

theorem learner_phaseAdmitted_other {d : Dev} {m x : Nat} (h : x ≠ m) (st : LearnStep) : (d.phaseAdmitted m st).learner x = d.learner x := by
  unfold phaseAdmitted learner setLearner spend
  dsimp only
  rw [Sparse.find_put_other _ _ h]

end Dev

/-! ### Slack requests in their order (R418) -/

theorem exec_learningAdmit (ms : List (Fin 15)) (s : State) :
    exec (.learningAdmit ms) s = s.clocked (·.regionStopped 20) fun d => d.learnAdmit (ms.map (·.val)) := rfl

theorem exec_slackRequest (rs : List SlackReq) (s : State) :
    exec (.slackRequest rs) s = s.clocked (·.regionStopped 20) fun d => d.slack rs := rfl

/-- Whether a slack request is decided before another of its kind. -/
def slackBefore (r x : SlackReq) : Prop := r.subject < x.subject

theorem insertSlack_cons (r x : SlackReq) (l : List SlackReq) :
    insertSlack r (x :: l) = if r.subject < x.subject then r :: x :: l else x :: insertSlack r l := rfl

theorem insertSlack_eq [DecidableRel slackBefore] (r : SlackReq) (l : List SlackReq) : insertSlack r l = l.orderedInsert slackBefore r := by
  induction l with
  | nil => rfl
  | cons x l ih =>
    rw [List.orderedInsert_cons, ← ih, insertSlack_cons]
    by_cases h : r.subject < x.subject
    · rw [if_pos h]
      exact (if_pos h).symm
    · rw [if_neg h]
      exact (if_neg h).symm

/-- The requests of one kind, in the order in which they are decided. -/
def slackOfKind (k : SlackKind) (rs : List SlackReq) : List SlackReq := (rs.filter fun r => r.kind = k).foldl (fun l r => insertSlack r l) []

theorem slackOrder_eq (rs : List SlackReq) :
    slackOrder rs = slackOfKind .reissue rs ++ (slackOfKind .reevaluate rs ++ slackOfKind .widen rs) := by
  simp [slackOrder, slackOfKind]

/-- Requests of one kind that stand in their order. -/
structure SlackOrdered (k : SlackKind) (l : List SlackReq) : Prop where
  kind : ∀ r ∈ l, r.kind = k
  order : l.Pairwise fun x y => ¬slackBefore y x

section

variable {k : SlackKind} {l : List SlackReq}

theorem SlackOrdered.tail {r : SlackReq} (h : SlackOrdered k (r :: l)) : SlackOrdered k l :=
  ⟨fun x hx => h.kind x (List.mem_cons_of_mem _ hx), (List.pairwise_cons.1 h.order).2⟩

theorem SlackOrdered.nil : SlackOrdered k [] := ⟨by simp, List.Pairwise.nil⟩

theorem mem_foldl_insertSlack {r : SlackReq} {acc : List SlackReq} (h : r ∈ l.foldl (fun l r => insertSlack r l) acc) : r ∈ l ∨ r ∈ acc := by
  classical
  induction l generalizing acc with
  | nil => exact .inr h
  | cons x l ih =>
    rcases ih h with h | h
    · exact .inl (List.mem_cons_of_mem _ h)
    · have h : r ∈ insertSlack x acc := h
      rw [insertSlack_eq] at h
      rcases (List.mem_orderedInsert _).1 h with rfl | h
      · exact .inl List.mem_cons_self
      · exact .inr h

theorem slackOrdered_slackOfKind (k : SlackKind) (rs : List SlackReq) : SlackOrdered k (slackOfKind k rs) := by
  classical
  refine ⟨fun r hr => ?_, ?_⟩
  · rcases mem_foldl_insertSlack hr with hr | hr
    · simpa using (List.mem_filter.1 hr).2
    · exact absurd hr List.not_mem_nil
  · unfold slackOfKind
    have hi : (fun l r => insertSlack r l) = fun l r => List.orderedInsert slackBefore r l :=
      funext fun l => funext fun r => insertSlack_eq r l
    rw [hi]
    exact pairwise_foldl_orderedInsert (r := slackBefore) (fun _ _ _ => Nat.lt_trans) (fun _ => Nat.lt_irrefl _) _ List.Pairwise.nil

/-- Requests in their order are decided in it. -/
theorem SlackOrdered.foldl_eq (h : SlackOrdered k l) : l.foldl (fun l r => insertSlack r l) [] = l := by
  classical
  have hi : (fun l r => insertSlack r l) = fun l r => List.orderedInsert slackBefore r l :=
    funext fun l => funext fun r => insertSlack_eq r l
  rw [hi]
  exact foldl_orderedInsert_of_pairwise [] h.order

theorem SlackOrdered.filter_same (h : SlackOrdered k l) : (l.filter fun r => r.kind = k) = l :=
  List.filter_eq_self.2 fun r hr => by simpa using h.kind r hr

theorem SlackOrdered.filter_other (h : SlackOrdered k l) {k' : SlackKind} (hk : k ≠ k') : (l.filter fun r => r.kind = k') = [] :=
  List.filter_eq_nil_iff.2 fun r hr => by simpa [h.kind r hr] using hk

/-- Requests that stand in the order of R418 are decided in it. -/
theorem slackOrder_of_ordered {a b c : List SlackReq} (ha : SlackOrdered .reissue a) (hb : SlackOrdered .reevaluate b)
    (hc : SlackOrdered .widen c) : slackOrder (a ++ (b ++ c)) = a ++ (b ++ c) := by
  rw [slackOrder_eq]
  unfold slackOfKind
  simp only [List.filter_append]
  rw [ha.filter_same, ha.filter_other (by decide), ha.filter_other (by decide), hb.filter_same, hb.filter_other (by decide),
    hb.filter_other (by decide), hc.filter_same, hc.filter_other (by decide), hc.filter_other (by decide)]
  simp only [List.append_nil, List.nil_append]
  rw [ha.foldl_eq, hb.foldl_eq, hc.foldl_eq]

/-- What is left of requests in their order, when the first has been decided, is in its order. -/
theorem slackOrder_tail {rs rest : List SlackReq} {r : SlackReq} (h : slackOrder rs = r :: rest) : slackOrder rest = rest := by
  rw [slackOrder_eq] at h
  have ha := slackOrdered_slackOfKind .reissue rs
  have hb := slackOrdered_slackOfKind .reevaluate rs
  have hc := slackOrdered_slackOfKind .widen rs
  generalize slackOfKind .reissue rs = a at h ha
  generalize slackOfKind .reevaluate rs = b at h hb
  generalize slackOfKind .widen rs = c at h hc
  cases a with
  | cons x a =>
    obtain ⟨-, rfl⟩ := List.cons.inj h
    exact slackOrder_of_ordered ha.tail hb hc
  | nil =>
    cases b with
    | cons x b =>
      obtain ⟨-, rfl⟩ := List.cons.inj h
      exact slackOrder_of_ordered .nil hb.tail hc
    | nil =>
      cases c with
      | cons x c =>
        obtain ⟨-, rfl⟩ := List.cons.inj h
        exact slackOrder_of_ordered .nil .nil hc.tail
      | nil => exact absurd h (by simp)

end

/-! ### Slack requests answered (R361, R417) -/

theorem Dev.Moves.withLens {d e : Dev} {ws : List Nat} {ps : List Part} (h : d.Moves e ws ps) (hp : .lens ∈ ps) (x : Lens) :
    d.Moves { e with lens := x } ws ps := by
  refine h.same fun p hn => ?_
  cases p with
  | lens => exact absurd hp hn
  | time => exact ⟨rfl, rfl⟩
  | port | front | plan | seq | sync | fab | lpe | ctl | jrn | nvm | life | sec | sup => rfl

namespace Dev

/-- An answer of the planner: the Lens cores' books changed, the answer counted. -/
def slackAnswer (d : Dev) (l : Lens) (a : Nat) : Dev := ({ d with lens := l } : Dev).bump a

theorem moves_slackAnswer (d : Dev) (l : Lens) (a : Nat) : d.Moves (d.slackAnswer l a) [a] [.lens] :=
  ((Moves.refl d _ _).withLens (by simp) l).bump (by simp)

/-- What an answer leaves. -/
theorem slackAnswer_spec (d : Dev) (l : Lens) (a : Nat) : (d.slackAnswer l a).lens = l ∧ d.Counts (d.slackAnswer l a) a 1
    ∧ d.KeepsWords (d.slackAnswer l a) [a] ∧ d.KeepsParts (d.slackAnswer l a) [.lens] ∧ d.KeepsMemory (d.slackAnswer l a) := by
  have hm := d.moves_slackAnswer l a
  have hc : d.Counts (d.slackAnswer l a) a 1 :=
    counts_of_bump (ws := []) ((Moves.refl d [] [.lens]).withLens (by simp) l) (by simp) (Moves.refl _ [] []) (by simp)
  exact ⟨Dev.bump_lens _ _ _, hc, hm.words, hm.parts, hm.memory⟩

/-! Re-issues -/

/-- Whether a tile of a partition waits for the planner. -/
def stopWaits (p : Nat) (x : StoppedTile) : Bool :=
  decide (x.tile.partition = p) && !x.granted && (decide (x.cause = 3) || decide (x.cause = 5) || decide (x.cause = 6))

/-- A stopped tile answered: it becomes `w'`. -/
def reissueAnswered (d : Dev) (w w' : StoppedTile) (a : Nat) : Dev :=
  d.slackAnswer { d.lens with stopped := d.lens.stopped.map fun x => if x = w then w' else x } a

/-- Whether a stopped tile may run again. -/
def reissueFits (d : Dev) (w : StoppedTile) (work : Nat) : Bool :=
  d.slackFits w.tile.context.val w.tile.tier.val work && !d.plan.reissued.any (sameTile w.tile)

theorem slackReissue_eq (d : Dev) (p work : Nat) : d.slackReissue p work =
    match d.lens.stopped.find? (stopWaits p) with
    | none => d
    | some w => d.reissueAnswered w (if d.reissueFits w work then { w with granted := true } else { w with cause := w.cause + 8 })
        (if d.reissueFits w work then C.TKP_REISSUE_GRANTED else C.TKP_REISSUE_REFUSED) := rfl

theorem slackReissue_none {d : Dev} {p : Nat} (work : Nat) (h : d.lens.stopped.find? (stopWaits p) = none) : d.slackReissue p work = d := by
  rw [slackReissue_eq, h]

theorem slackReissue_granted {d : Dev} {p work : Nat} {w : StoppedTile} (h : d.lens.stopped.find? (stopWaits p) = some w)
    (hf : d.reissueFits w work = true) : d.slackReissue p work = d.reissueAnswered w { w with granted := true } C.TKP_REISSUE_GRANTED := by
  rw [slackReissue_eq, h]
  dsimp only
  rw [hf, if_pos rfl, if_pos rfl]

theorem slackReissue_refused {d : Dev} {p work : Nat} {w : StoppedTile} (h : d.lens.stopped.find? (stopWaits p) = some w)
    (hf : d.reissueFits w work = false) : d.slackReissue p work = d.reissueAnswered w { w with cause := w.cause + 8 } C.TKP_REISSUE_REFUSED := by
  rw [slackReissue_eq, h]
  dsimp only
  rw [hf, if_neg Bool.false_ne_true, if_neg Bool.false_ne_true]

theorem reissueFits_iff {d : Dev} {w : StoppedTile} {work : Nat} : d.reissueFits w work = true ↔
    d.slackFits w.tile.context.val w.tile.tier.val work = true ∧ ∀ t ∈ d.plan.reissued, sameTile w.tile t = false := by
  simp [reissueFits]

theorem reissueFits_eq_false_iff {d : Dev} {w : StoppedTile} {work : Nat} : d.reissueFits w work = false ↔
    d.slackFits w.tile.context.val w.tile.tier.val work = false ∨ ∃ t ∈ d.plan.reissued, sameTile w.tile t = true := by
  simp [reissueFits, imp_iff_not_or]

/-! Re-evaluations -/

/-- The failed sample of a slot, and the others. -/
def failedOf (d : Dev) (slot : Nat) : Option ((Nat × Nat) × List (Nat × Nat)) :=
  takeFirst (fun (q : Nat × Nat) => decide (q.2 = slot)) d.lens.failed

theorem slackReevaluate_none {d : Dev} {slot : Nat} (work : Nat) (h : d.failedOf slot = none ∨ d.sample? slot = none) :
    d.slackReevaluate slot work = d := by
  have h : takeFirst (fun (q : Nat × Nat) => decide (q.2 = slot)) d.lens.failed = none ∨ d.sample? slot = none := h
  unfold slackReevaluate
  rcases h with h | h <;> rw [h]
  split <;> simp_all

theorem slackReevaluate_some {d : Dev} {slot : Nat} (work : Nat) {q : Nat × Nat} {rest : List (Nat × Nat)} {x : Sample}
    (h : d.failedOf slot = some (q, rest)) (hx : d.sample? slot = some x) : d.slackReevaluate slot work =
      if d.slackFits x.context 0 work then
        d.slackAnswer { d.lens with failed := rest, reeval := d.lens.reeval ++ [q] } C.TKP_REISSUE_GRANTED
      else d.slackAnswer { d.lens with failed := rest } C.TKP_REISSUE_REFUSED := by
  have h : takeFirst (fun (q : Nat × Nat) => decide (q.2 = slot)) d.lens.failed = some (q, rest) := h
  unfold slackReevaluate
  rw [h, hx]
  rfl

/-! Widenings -/

theorem slot_of_sample? {d : Dev} {i : Nat} {x : Sample} (h : d.sample? i = some x) : x.slot = i := by
  obtain ⟨b, _, hb⟩ := Option.bind_eq_some_iff.1 h
  simpa using List.find?_some hb

/-- A sample replaced is read in its slot, and no other is. -/
theorem sample?_setSample (d : Dev) (x : Sample) (i : Nat) :
    (d.setSample x).sample? i = if i = x.slot then (d.sample? i).map fun _ => x else d.sample? i := by
  unfold sample? setSample
  dsimp only
  cases d.plan.computing with
  | none => simp
  | some b =>
    have hp : ((fun s : Sample => decide (s.slot = i)) ∘ fun t => if t.slot = x.slot then x else t) = fun s => decide (s.slot = i) := by
      funext t
      dsimp only [Function.comp]
      split <;> simp_all
    simp only [Option.map_some, Option.bind_some, List.find?_map, hp]
    cases hf : b.samples.find? fun s => decide (s.slot = i) with
    | none => simp
    | some t =>
      have ht : t.slot = i := by simpa using List.find?_some hf
      simp only [Option.map_some, ht]
      split <;> rfl

/-- A sample flagged, whose vector a re-run takes. -/
def flagWidened (d : Dev) (s : Nat) : Dev := match d.sample? s with | some x => d.setSample { x with widened := true } | none => d

theorem widenGrant_eq (d : Dev) (p : Pass) :
    d.widenGrant p = ({ d with lens := { d.lens with granted := d.lens.granted ++ [p] } } : Dev).each p.slots flagWidened := rfl

theorem moves_flagWidened {d e : Dev} {ws : List Nat} {ps : List Part} (h : d.Moves e ws ps) (hp : .plan ∈ ps) (s : Nat) :
    d.Moves (e.flagWidened s) ws ps := by
  unfold flagWidened
  split
  · exact h.withPlan hp _
  · exact h

theorem lens_flagWidened (d : Dev) (s : Nat) : (d.flagWidened s).lens = d.lens := by
  unfold flagWidened
  split <;> rfl

theorem sample?_flagWidened (d : Dev) (s i : Nat) :
    (d.flagWidened s).sample? i = if i = s then (d.sample? i).map fun x => { x with widened := true } else d.sample? i := by
  unfold flagWidened
  cases h : d.sample? s with
  | none =>
    dsimp only
    split
    · rename_i hi
      rw [hi, h]
      rfl
    · rfl
  | some x =>
    obtain rfl := slot_of_sample? h
    rw [sample?_setSample]
    dsimp only
    split
    · rename_i hi
      rw [hi, h]
      rfl
    · rfl

/-- What flags for the samples of some slots leave. -/
theorem flagsWidened_spec (d : Dev) (l : List Nat) : (d.each l flagWidened).lens = d.lens ∧ ∀ i, (d.each l flagWidened).sample? i =
    if i ∈ l then (d.sample? i).map fun x => { x with widened := true } else d.sample? i := by
  induction l generalizing d with
  | nil => exact ⟨rfl, fun i => rfl⟩
  | cons s l ih =>
    obtain ⟨hl, hs⟩ := ih (d.flagWidened s)
    refine ⟨hl.trans (d.lens_flagWidened s), fun i => (hs i).trans ?_⟩
    rw [sample?_flagWidened]
    by_cases hi : i = s
    · rw [if_pos hi, if_pos (List.mem_cons.2 (.inl hi))]
      cases d.sample? i <;> simp
    · simp [hi]

/-- The widen request of a partition, and the others. -/
def widenOf (d : Dev) (part : Nat) : Option (Pass × List Pass) := takeFirst (fun (p : Pass) => decide (p.partition = part)) d.lens.widen

/-- What a re-run with wider operands takes. -/
def widenWork (p : Pass) (work : Nat) : Nat := if (widerWgt (descFmt p.wgtDesc)).isSome then 2 * work else work

theorem slackWiden_none {d : Dev} {part : Nat} (work : Nat) (h : d.widenOf part = none) : d.slackWiden part work = d := by
  have h : takeFirst (fun (p : Pass) => decide (p.partition = part)) d.lens.widen = none := h
  unfold slackWiden
  rw [h]

theorem slackWiden_some {d : Dev} {part : Nat} (work : Nat) {p : Pass} {rest : List Pass} (h : d.widenOf part = some (p, rest)) :
    d.slackWiden part work = if d.slackFits p.context p.tier (widenWork p work) then
        (d.slackAnswer { d.lens with widen := rest } C.TKP_WIDEN_GRANTED).widenGrant p
      else (d.slackAnswer { d.lens with widen := rest } C.TKP_WIDEN_REFUSED).widenRefuse p := by
  have h : takeFirst (fun (p : Pass) => decide (p.partition = part)) d.lens.widen = some (p, rest) := h
  unfold slackWiden
  rw [h]
  rfl

theorem moves_widenGranted (d : Dev) (p : Pass) (l : Lens) :
    d.Moves ((d.slackAnswer l C.TKP_WIDEN_GRANTED).widenGrant p) [C.TKP_WIDEN_GRANTED] [.plan, .lens] :=
  (((d.moves_slackAnswer l _).mono (fun _ h => h) (by simp)).withLens (by simp) _).each fun s _ _ h => moves_flagWidened h (by simp) s

/-- A widening granted: counted, and the samples of its pass flagged. -/
theorem widenGranted_spec (d : Dev) (p : Pass) (l : Lens) : let e := (d.slackAnswer l C.TKP_WIDEN_GRANTED).widenGrant p
    e.lens = { l with granted := l.granted ++ [p] } ∧ d.Counts e C.TKP_WIDEN_GRANTED 1
      ∧ (∀ i ∈ p.slots, ∀ x, e.sample? i = some x → x.widened = true) ∧ ∀ i, i ∉ p.slots → e.sample? i = d.sample? i := by
  obtain ⟨hl, hc, -⟩ := d.slackAnswer_spec l C.TKP_WIDEN_GRANTED
  obtain ⟨y, hy⟩ : ∃ y, y = d.slackAnswer l C.TKP_WIDEN_GRANTED := ⟨_, rfl⟩
  have hp : y.plan = d.plan := by rw [hy]; exact Dev.bump_plan _ _ _
  rw [← hy] at hl hc ⊢
  have hg : y.Moves (y.widenGrant p) [] [.plan, .lens] :=
    ((Moves.refl y _ _).withLens (by simp) _).each fun s _ _ h => moves_flagWidened h (by simp) s
  rw [widenGrant_eq] at hg ⊢
  obtain ⟨hlens, hs⟩ := flagsWidened_spec { y with lens := { y.lens with granted := y.lens.granted ++ [p] } } p.slots
  have hsame (i : Nat) : ({ y with lens := { y.lens with granted := y.lens.granted ++ [p] } } : Dev).sample? i = d.sample? i := by
    unfold sample?
    dsimp only
    rw [hp]
  refine ⟨by rw [hlens, hl], Moves.counts hc hg (by simp), fun i hi x hx => ?_, fun i hi => ?_⟩
  · rw [hs, if_pos hi] at hx
    obtain ⟨x', -, rfl⟩ := Option.map_eq_some_iff.1 hx
    rfl
  · rw [hs, if_neg hi, hsame]

/-- A widening refused: counted, the life-cycle records, the supply and the clock kept, and no widening is granted or asked for. -/
theorem leaves_widenRefused (d : Dev) (p : Pass) (rest : List Pass) :
    ((d.slackAnswer { d.lens with widen := rest } C.TKP_WIDEN_REFUSED).widenRefuse p).Leaves
      ⟨(d.word C.TKP_WIDEN_REFUSED + 1) % 2 ^ 64, d.word (R.LPE_REGION_STAT_STOPPED 20).addr, d.life, d.sup.phase, rest, d.lens.granted⟩ := by
  obtain ⟨hl, hc, hw, hp, -⟩ := d.slackAnswer_spec { d.lens with widen := rest } C.TKP_WIDEN_REFUSED
  have ht : (d.slackAnswer { d.lens with widen := rest } C.TKP_WIDEN_REFUSED).Turns
      (some ⟨(d.word C.TKP_WIDEN_REFUSED + 1) % 2 ^ 64, d.word (R.LPE_REGION_STAT_STOPPED 20).addr, d.life, d.sup.phase, rest,
        d.lens.granted⟩) (.of (d.slackAnswer { d.lens with widen := rest } C.TKP_WIDEN_REFUSED).ns
          (d.slackAnswer { d.lens with widen := rest } C.TKP_WIDEN_REFUSED).plan) := by
    refine ⟨rfl, fun k hk => ?_⟩
    obtain rfl := Option.some.inj hk
    refine ⟨hc, hw _ (by decide), hp .life (by simp), congrArg Supply.phase (hp .sup (by simp)), ?_, ?_⟩
    · rw [hl]
      exact fun _ h => h
    · rw [hl]
      exact fun _ h => h
  exact ht.widenRefuse.leaves _ rfl

/-! One request -/

theorem keepsUnit_slackOne (d : Dev) (r : SlackReq) : d.KeepsUnit (d.slackOne r) 20 := by
  obtain ⟨k, subject, work⟩ := r
  cases k with
  | reissue =>
    change d.KeepsUnit (d.slackReissue subject work) 20
    rw [slackReissue_eq]
    split
    · exact .refl d 20
    · refine (d.moves_slackAnswer _ _).keepsUnit ?_ (by simp) (by simp)
      split <;> decide
  | reevaluate =>
    change d.KeepsUnit (d.slackReevaluate subject work) 20
    cases hf : d.failedOf subject with
    | none => rw [slackReevaluate_none work (.inl hf)]; exact .refl d 20
    | some f =>
      cases hx : d.sample? subject with
      | none => rw [slackReevaluate_none work (.inr hx)]; exact .refl d 20
      | some x =>
        rw [slackReevaluate_some work hf hx]
        split <;> exact (d.moves_slackAnswer _ _).keepsUnit (by decide) (by simp) (by simp)
  | widen =>
    change d.KeepsUnit (d.slackWiden subject work) 20
    cases hw : d.widenOf subject with
    | none => rw [slackWiden_none work hw]; exact .refl d 20
    | some f =>
      rw [slackWiden_some work hw]
      split
      · exact (d.moves_widenGranted f.1 _).keepsUnit (by decide) (by simp) (by simp)
      · have h := d.leaves_widenRefused f.1 f.2
        refine ⟨h.life, h.phase, ?_⟩
        unfold regionStopped on get
        rw [h.region]

theorem slack_nil (d : Dev) : d.slack [] = d := rfl

theorem slack_singleton (d : Dev) (r : SlackReq) : d.slack [r] = d.slackOne r := by
  obtain ⟨k, subject, work⟩ := r
  cases k <;> rfl

/-- Requests are decided one after the other. -/
theorem slack_seq (d : Dev) {rs rest : List SlackReq} {r : SlackReq} (h : slackOrder rs = r :: rest) :
    d.slack rs = (d.slack [r]).slack rest := by
  rw [slack_singleton]
  unfold slack
  rw [slackOrder_tail h, h]
  rfl

end Dev

/-- A request alone completes with its answer. -/
theorem completes_slackRequest {s : State} (hr : s.RunsIn 20) {r : SlackReq} {post : Dev → Prop} (hp : post (s.dev.slackOne r)) :
    Completes (.slackRequest [r]) s post := by
  have hx : exec (.slackRequest [r]) s = s.clocked (·.regionStopped 20) fun d => d.slackOne r := by
    rw [exec_slackRequest]
    exact congrArg _ (funext fun d => d.slack_singleton r)
  exact .ofClocked hr.1 hr.2 hx (s.dev.keepsUnit_slackOne r).life hp

theorem exec_slackRequest_unchanged {s : State} {r : SlackReq} (h : s.dev.slackOne r = s.dev) : exec (.slackRequest [r]) s = .next s :=
  exec_of_unchanged (exec_slackRequest [r] s) ((s.dev.slack_singleton r).trans h)

/-! ### Learning phases asked for -/

namespace Dev

theorem keepsUnit_learnAdmit_singleton (d : Dev) (m : Nat) : d.KeepsUnit (d.learnAdmit [m]) 20 := by
  rw [learnAdmit_eq]
  split
  · exact .refl d 20
  · obtain ⟨left, charged, phases, learners, he⟩ := d.admitPhase_shape m
    have h : d.each (d.phaseOrder [m]) admitPhase = d.admitPhase m := rfl
    rw [h, he]
    exact ⟨rfl, rfl, rfl⟩

theorem learnAdmit_singleton {d : Dev} (hv : d.verdictsDone = true) (ht : d.on R.APR_STAT_THROTTLE = false)
    (hm : bitsOf d.plan.mode 0 1 = 1) (m : Nat) : d.learnAdmit [m] = d.admitPhase m := by
  rw [learnAdmit_eq]
  exact if_neg (by simp [hv, ht, hm])

theorem admitPhase_of_none {d : Dev} {m : Nat} (h : (d.learner m).step = none ∨ d.phaseHeld m = true) : d.admitPhase m = d := by
  rw [admitPhase_eq]
  rcases h with h | h
  · rw [h]
  · split
    · rfl
    · rw [h]
      rfl

theorem admitPhase_of_some {d : Dev} {m : Nat} {st : LearnStep} (h : (d.learner m).step = some st) (hh : d.phaseHeld m = false) :
    d.admitPhase m = if fpLt d.plan.left (d.get (R.TKP_ENERGY_E_UJ m 3)) then d else d.phaseAdmitted m st := by
  rw [admitPhase_eq, h, hh]
  rfl

end Dev

theorem learningAdmit_one_settled {s : State} (hr : s.RunsIn 20) {m : Fin 15} {st : LearnStep} (hst : (s.dev.learner m.val).step = some st)
    (hheld : s.dev.phaseHeld m.val = false) (hv : s.dev.verdictsDone = true) (ht : s.dev.on R.APR_STAT_THROTTLE = false)
    (hm : bitsOf s.dev.plan.mode 0 1 = 1) (hc : fpLt s.dev.plan.left (s.dev.get (R.TKP_ENERGY_E_UJ m.val 3)) = false) {post : Dev → Prop}
    (hp : post (s.dev.phaseAdmitted m.val st)) : Completes (.learningAdmit [m]) s post := by
  have hf : s.dev.learnAdmit ([m].map (·.val)) = s.dev.phaseAdmitted m.val st := by
    refine (Dev.learnAdmit_singleton hv ht hm m.val).trans ?_
    rw [Dev.admitPhase_of_some hst hheld, hc]
    rfl
  exact .ofClocked hr.1 hr.2 (exec_learningAdmit [m] s) (hf ▸ (s.dev.moves_phaseAdmitted m.val st).parts .life (by simp)) (hf ▸ hp)

/-- Settles O40: phases and requests are taken one after the other in their order; a refused widening is `Dev.Turns.widenRefuse`. -/
theorem plannerGrants : Obligations.PlannerGrants := by
  intro s hr
  refine ⟨fun m st hst hfree hv ht hm => ?_, fun m h => ?_, ?_, fun ms rest m h => ?_, fun ms h => ?_, ?_, fun rs rest r h => ?_,
    fun p work => ?_, fun slot work => ?_, fun part work => ?_⟩
  · have hheld : s.dev.phaseHeld m.val = false := by
      refine Bool.eq_false_iff.2 fun h => ?_
      obtain ⟨c, hc, h⟩ := (s.dev.phaseHeld_iff m.val).1 h
      obtain ⟨h1, h2⟩ := hfree c hc
      simp [h1, h2] at h
    refine ⟨fun hc => ?_, fun hc => ?_⟩
    · have hmoves := s.dev.moves_phaseAdmitted m.val st
      exact learningAdmit_one_settled hr hst hheld hv ht hm hc ⟨rfl, rfl, rfl, Dev.learner_phaseAdmitted_same _ _ _,
        fun x _ hx => Dev.learner_phaseAdmitted_other hx st, hmoves.words, hmoves.parts, hmoves.memory⟩
    · refine exec_of_unchanged (exec_learningAdmit [m] s) ((Dev.learnAdmit_singleton hv ht hm m.val).trans ?_)
      rw [Dev.admitPhase_of_some hst hheld, hc]
      rfl
  · refine exec_of_unchanged (exec_learningAdmit [m] s) ?_
    rw [Dev.learnAdmit_eq]
    split
    · rfl
    · exact Dev.admitPhase_of_none (h.imp_right (s.dev.phaseHeld_iff m.val).2)
  · refine exec_of_unchanged (exec_learningAdmit [] s) ?_
    rw [Dev.learnAdmit_eq]
    exact ite_self _
  · have hk := s.dev.keepsUnit_learnAdmit_singleton m.val
    exact exec_seq hr (exec_learningAdmit [m] s) (exec_learningAdmit rest) (exec_learningAdmit ms s) hk (s.dev.learnAdmit_seq h)
  · exact exec_of_unchanged (exec_learningAdmit ms s) (Dev.learnAdmit_of_not h _)
  · exact exec_of_unchanged (exec_slackRequest [] s) s.dev.slack_nil
  · have hk := s.dev.keepsUnit_slackOne r
    rw [← s.dev.slack_singleton r] at hk
    exact exec_seq hr (exec_slackRequest [r] s) (exec_slackRequest rest) (exec_slackRequest rs s) hk (s.dev.slack_seq h)
  · refine ⟨fun h => exec_slackRequest_unchanged (Dev.slackReissue_none work h), fun w h => ⟨fun hf hn => ?_, fun hf => ?_⟩⟩
    · refine completes_slackRequest hr ?_
      have he : s.dev.slackOne ⟨.reissue, p, work⟩ = _ := Dev.slackReissue_granted h (Dev.reissueFits_iff.2 ⟨hf, hn⟩)
      rw [he]
      exact s.dev.slackAnswer_spec _ _
    · refine completes_slackRequest hr ?_
      have he : s.dev.slackOne ⟨.reissue, p, work⟩ = _ := Dev.slackReissue_refused h (Dev.reissueFits_eq_false_iff.2 hf)
      rw [he]
      exact s.dev.slackAnswer_spec _ _
  · refine ⟨fun h => exec_slackRequest_unchanged (Dev.slackReevaluate_none work h), fun q rest x h hx => ⟨fun hf => ?_, fun hf => ?_⟩⟩
    · refine completes_slackRequest hr ?_
      have he : s.dev.slackOne ⟨.reevaluate, slot, work⟩ = _ := Dev.slackReevaluate_some work h hx
      rw [he, hf, if_pos rfl]
      exact s.dev.slackAnswer_spec _ _
    · refine completes_slackRequest hr ?_
      have he : s.dev.slackOne ⟨.reevaluate, slot, work⟩ = _ := Dev.slackReevaluate_some work h hx
      rw [he, hf, if_neg Bool.false_ne_true]
      exact s.dev.slackAnswer_spec _ _
  · refine ⟨fun h => exec_slackRequest_unchanged (Dev.slackWiden_none work h), fun p rest h => ⟨fun hf => ?_, fun hf => ?_⟩⟩
    · refine completes_slackRequest hr ?_
      have he : s.dev.slackOne ⟨.widen, part, work⟩ = _ := Dev.slackWiden_some work h
      have hf : s.dev.slackFits p.context p.tier (Dev.widenWork p work) = true := hf
      rw [he, hf, if_pos rfl]
      obtain ⟨hl, hc, hin, hout⟩ := s.dev.widenGranted_spec p { s.dev.lens with widen := rest }
      have hm := s.dev.moves_widenGranted p { s.dev.lens with widen := rest }
      exact ⟨hl, hc, hin, hout, hm.words, hm.parts, hm.memory⟩
    · refine completes_slackRequest hr ?_
      have he : s.dev.slackOne ⟨.widen, part, work⟩ = _ := Dev.slackWiden_some work h
      have hf : s.dev.slackFits p.context p.tier (Dev.widenWork p work) = false := hf
      rw [he, hf, if_neg Bool.false_ne_true]
      have hk := s.dev.leaves_widenRefused p rest
      exact ⟨hk.count, hk.widen, hk.granted⟩

end Sys2Proof.Machine
end

section
/-! Accesses to the shared memory (R473, R474, R478, R480): what a read that names no errors gives and moves, and what a write to memory
that can be read leaves (O37). -/

namespace Sys2Proof.Machine

/-! ### Reads -/

namespace Dev

/-- The counters of memory errors. -/
def errorWords : List Nat := [C.MEM_UNMAPPED, C.MEM_POISON_READS, C.MEM_ECC_CORRECTED, C.MEM_ECC_UNCORR, C.MEM_CRC_RETRIES]
  ++ (List.range 16).flatMap fun c => [C.LNS_MEM_CORRECTED_CLUSTER c, C.LNS_MEM_UNCORR_CLUSTER c]

/-- The parts in which an error is noted. -/
def errorParts : List Part := [.plan, .fab, .lpe]

theorem cluster_lt {d : Dev} {a c : Nat} (h : d.region a = .cluster c) : c < 16 := by
  unfold region at h
  split at h
  · cases h
  · split at h
    · cases h
    · split at h
      · rename_i hc
        cases h
        simp only [Bool.and_eq_true, decide_eq_true_eq] at hc
        omega
      · cases h

theorem mem_errorWords_cluster {c : Nat} (h : c < 16) :
    C.LNS_MEM_CORRECTED_CLUSTER c ∈ errorWords ∧ C.LNS_MEM_UNCORR_CLUSTER c ∈ errorWords := by
  unfold errorWords
  simp only [List.mem_append, List.mem_flatMap, List.mem_range]
  exact ⟨.inr ⟨c, h, by simp⟩, .inr ⟨c, h, by simp⟩⟩

section

variable {d e : Dev}

theorem Moves.withFab {ws : List Nat} {ps : List Part} (h : d.Moves e ws ps) (hp : .fab ∈ ps) {x : Fabric} (hm : x.mem = e.fab.mem := by rfl)
    (hc : x.core = e.fab.core := by rfl) : d.Moves { e with fab := x } ws ps := by
  refine h.trans ⟨fun _ _ => rfl, fun p hn => ?_, fun a => by rw [hm], fun a => by rw [hc]⟩
  cases p with
  | fab => exact absurd hp hn
  | time => exact ⟨rfl, rfl⟩
  | port | front | plan | lens | seq | sync | lpe | ctl | jrn | nvm | life | sec | sup => rfl

/-- What notes an error. -/
def Errs (d e : Dev) : Prop := d.Moves e errorWords errorParts

theorem Errs.refl (d : Dev) : d.Errs d := Moves.refl d _ _
theorem Errs.withPlan (h : d.Errs e) (x : Plan) : d.Errs { e with plan := x } := Moves.withPlan h (by decide) x
theorem Errs.withLpe (h : d.Errs e) (x : Loupe) : d.Errs { e with lpe := x } := Moves.withLpe h (by decide) x
theorem Errs.bump (h : d.Errs e) {a n : Nat} (ha : a ∈ errorWords := by decide) : d.Errs (e.bump a n) := Moves.bump h ha
theorem Errs.ite {e' : Dev} {c : Prop} [Decidable c] (h : d.Errs e) (h' : d.Errs e') : d.Errs (if c then e else e') := Moves.ite h h'
theorem Errs.health (h : d.Errs e) {event inst detail : Nat} : d.Errs (e.health event inst detail) := h.withLpe _
theorem Errs.dayCount (h : d.Errs e) {key : Nat} : d.Errs (e.dayCount key) := h.withLpe _
theorem Errs.lifeEntry (h : d.Errs e) {kind source : Nat} {body : List Byte} {dec : Bool} : d.Errs (e.lifeEntry kind source body dec) :=
  h.withLpe _
theorem Errs.standingWrite (h : d.Errs e) : d.Errs e.standingWrite := .ite (h.withLpe _) (h.withLpe _)
theorem Errs.retire (h : d.Errs e) {c cause : Nat} : d.Errs (e.retire c cause) :=
  .ite h (Errs.health (Moves.withFab h (by decide))).lifeEntry.standingWrite
theorem Errs.channelError (h : d.Errs e) {c : Nat} {crc : Bool} : d.Errs (e.channelError c crc) :=
  .ite (Errs.retire (Moves.withFab h (by decide))) (Moves.withFab h (by decide))
theorem Errs.fenceOne (h : d.Errs e) {kind index : Nat} : d.Errs (e.fenceOne kind index) :=
  .ite h (h.withPlan _).health.lifeEntry.standingWrite
theorem Errs.fence (h : d.Errs e) {kind index : Nat} : d.Errs (e.fence kind index) :=
  have h1 : d.Errs _ := .ite h.fenceOne.fenceOne h.fenceOne
  .ite (.fenceOne h1) h1
theorem Errs.failure (h : d.Errs e) {kind index : Nat} : d.Errs (e.failure kind index) := .ite (h.withPlan _).fence (h.withPlan _)

theorem Errs.memEvent (h : d.Errs e) (x : MemEvent) : d.Errs (e.memEvent x).1 := by
  unfold Dev.memEvent
  dsimp only
  split
  · rename_i c hc
    obtain ⟨hcorr, hunc⟩ := mem_errorWords_cluster (cluster_lt hc)
    split <;> dsimp only
    · exact h.bump hcorr
    · exact (h.bump hunc).health.failure
  · split
    · dsimp only
      split
      · exact h.bump.dayCount
      · exact h.bump
    · dsimp only
      split
      · exact h.bump.health.channelError
      · exact h.bump.health
    · dsimp only
      exact h.bump
    · dsimp only
      split
      · exact h.bump.bump.health.channelError
      · exact h.bump.bump.health

theorem memEvents_cons (d : Dev) (x : MemEvent) (xs : List MemEvent) : d.memEvents (x :: xs) =
    (((d.memEvent x).1.memEvents xs).1, (d.memEvent x).2 || ((d.memEvent x).1.memEvents xs).2) := by
  have fold (p : Dev × Bool) (b : Bool) : xs.foldl (fun p e => ((p.1.memEvent e).1, p.2 || (p.1.memEvent e).2)) (p.1, b || p.2)
      = ((xs.foldl (fun p e => ((p.1.memEvent e).1, p.2 || (p.1.memEvent e).2)) p).1,
        b || (xs.foldl (fun p e => ((p.1.memEvent e).1, p.2 || (p.1.memEvent e).2)) p).2) := by
    induction xs generalizing p with
    | nil => rfl
    | cons y ys ih => simpa only [List.foldl_cons, Bool.or_assoc] using ih ((p.1.memEvent y).1, p.2 || (p.1.memEvent y).2)
  have h := fold ((d.memEvent x).1, false) (d.memEvent x).2
  rw [Bool.or_false] at h
  unfold memEvents
  rw [List.foldl_cons]
  dsimp only
  rw [Bool.false_or]
  exact h

theorem Errs.memEvents (h : d.Errs e) (xs : List MemEvent) : d.Errs (e.memEvents xs).1 := by
  induction xs generalizing e with
  | nil => exact h
  | cons x xs ih =>
    rw [memEvents_cons]
    exact ih (h.memEvent x)

theorem Errs.fetch (h : d.Errs e) (a n : Nat) (bad : List MemEvent) : d.Errs (e.fetch a n bad).1 := by
  unfold Dev.fetch
  split <;> dsimp only
  · exact h.bump.bump
  · split <;> dsimp only
    · exact (h.memEvents _).bump
    · exact h.memEvents _

end

/-- An error that loses its data. -/
def Loses (k : MemEvent) : Prop := k.kind = .uncorrectable ∨ k.kind = .exhausted

theorem memEvent_lost (d : Dev) {x : MemEvent} (h : Loses x) : (d.memEvent x).2 = true := by
  unfold memEvent
  rcases h with h | h
  · rw [h]
    dsimp only
    split <;> rfl
  · rw [h]
    dsimp only
    split <;> rfl

theorem memEvents_lost (d : Dev) {xs : List MemEvent} {x : MemEvent} (hx : x ∈ xs) (h : Loses x) : (d.memEvents xs).2 = true := by
  induction xs generalizing d with
  | nil => exact absurd hx List.not_mem_nil
  | cons y ys ih =>
    rw [memEvents_cons]
    dsimp only
    rcases List.mem_cons.1 hx with rfl | hx
    · rw [memEvent_lost d h, Bool.true_or]
    · rw [ih _ hx, Bool.or_true]

theorem readable_iff {d : Dev} {a n : Nat} : d.readable a n = true ↔ d.mapped a n = true
    ∧ ∀ g ∈ granules a n, d.granuleBad g = false ∧ d.inRetired (64 * g) = false ∧ d.inHeldTier (64 * g) = false := by
  simp [readable, and_assoc]

/-- What a read that names no errors meets. -/
def readEvents (d : Dev) (a n : Nat) : List MemEvent := (granules a n).flatMap (d.granuleEvent [])

theorem fetch_eq (d : Dev) (a n : Nat) : d.fetch a n [] =
    if !d.mapped a n then ((d.bump C.MEM_UNMAPPED).bump C.MEM_POISON_READS, none)
    else if (d.memEvents (d.readEvents a n)).2 || (granules a n).any fun g => d.inRetired (64 * g) then
      ((d.memEvents (d.readEvents a n)).1.bump C.MEM_POISON_READS, none)
    else ((d.memEvents (d.readEvents a n)).1, some (d.memRead a n)) := rfl

/-- Memory that can be read is read, and nothing is noted. -/
theorem fetch_of_readable {d : Dev} {a n : Nat} (h : d.readable a n = true) : d.fetch a n [] = (d, some (d.memRead a n)) := by
  obtain ⟨hm, hg⟩ := readable_iff.1 h
  have he : d.readEvents a n = [] := by
    refine List.flatMap_eq_nil_iff.2 fun g hgm => ?_
    obtain ⟨hb, hr, hh⟩ := hg g hgm
    simp [granuleEvent, hb, hr, hh]
  have hr : ((granules a n).any fun g => d.inRetired (64 * g)) = false :=
    List.any_eq_false.2 fun g hgm => by simp [(hg g hgm).2.1]
  rw [fetch_eq, he, hm, hr]
  rfl

/-- Memory that cannot be read gives poison. -/
theorem fetch_of_not_readable {d : Dev} {a n : Nat} (h : d.readable a n = false) : (d.fetch a n []).2 = none := by
  rw [fetch_eq]
  by_cases hm : d.mapped a n = true
  · have hn : ¬∀ g ∈ granules a n, d.granuleBad g = false ∧ d.inRetired (64 * g) = false ∧ d.inHeldTier (64 * g) = false :=
      fun hg => Bool.eq_false_iff.1 h (readable_iff.2 ⟨hm, hg⟩)
    obtain ⟨g, hg, hbad⟩ := not_forall₂.1 hn
    have hlost : ((d.memEvents (d.readEvents a n)).2 || (granules a n).any fun g => d.inRetired (64 * g)) = true := by
      by_cases hr : d.inRetired (64 * g) = true
      · rw [List.any_eq_true.2 ⟨g, hg, hr⟩, Bool.or_true]
      · have hev : ∃ x ∈ d.granuleEvent [] g, Loses x := by
          by_cases hh : d.inHeldTier (64 * g) = true
          · exact ⟨⟨64 * g, .exhausted⟩, by simp [granuleEvent, hr, hh], .inr rfl⟩
          · have hb : d.granuleBad g = true := by simp_all
            exact ⟨⟨64 * g, .uncorrectable⟩, by simp [granuleEvent, hr, hh, hb], .inl rfl⟩
        obtain ⟨x, hx, hl⟩ := hev
        have hl : (d.memEvents (d.readEvents a n)).2 = true := memEvents_lost d (List.mem_flatMap.2 ⟨g, hg, hx⟩) hl
        rw [hl, Bool.true_or]
    rw [hlost, hm]
    rfl
  · rw [if_pos (by simpa using hm)]

theorem fetch_snd (d : Dev) (a n : Nat) : (d.fetch a n []).2 = if d.readable a n then some (d.memRead a n) else none := by
  split
  · rename_i h
    rw [fetch_of_readable h]
  · rename_i h
    exact fetch_of_not_readable (Bool.eq_false_iff.2 h)

end Dev

/-! ### Writes to memory that can be read -/

namespace Dev

/-- A granule lies in one region and in one channel. -/
theorem channelOf_granule (d : Dev) (a : Nat) : d.channelOf (64 * (a / 64)) = d.channelOf a := by
  have hr : d.region (64 * (a / 64)) = d.region a := by
    unfold region
    have h1 : (64 * (a / 64) < 110 * 2 ^ 20 * d.liveChannels) ↔ a < 110 * 2 ^ 20 * d.liveChannels := by omega
    have h2 : (decide (0xDC0000000 ≤ 64 * (a / 64)) && decide (64 * (a / 64) < 0x1000000000))
        = (decide (0xDC0000000 ≤ a) && decide (a < 0x1000000000)) := by
      rw [Bool.eq_iff_iff]
      simp only [Bool.and_eq_true, decide_eq_true_eq]
      omega
    have h3 : (decide (0xF000000000000 ≤ 64 * (a / 64)) && decide (64 * (a / 64) < 0xF000000000000 + 16 * 0x1000000)
          && decide (64 * (a / 64) % 0x1000000 < 12 * 2 ^ 20))
        = (decide (0xF000000000000 ≤ a) && decide (a < 0xF000000000000 + 16 * 0x1000000) && decide (a % 0x1000000 < 12 * 2 ^ 20)) := by
      rw [Bool.eq_iff_iff]
      simp only [Bool.and_eq_true, decide_eq_true_eq]
      omega
    have h4 : (0xF000000000000 ≤ a) → (64 * (a / 64) - 0xF000000000000) / 0x1000000 = (a - 0xF000000000000) / 0x1000000 := by omega
    rw [h2, h3]
    simp only [h1]
    split
    · rfl
    · split
      · rfl
      · split
        · rename_i h
          simp only [Bool.and_eq_true, decide_eq_true_eq] at h
          rw [h4 h.1.1]
        · rfl
  have hc : 64 * (a / 64) / 1024 = a / 1024 := by omega
  have ht : d.region a = .table → (64 * (a / 64) - 0xDC0000000) / 1024 = (a - 0xDC0000000) / 1024 := by omega
  unfold channelOf
  rw [hr, hc]
  split
  · rfl
  · rename_i h
    rw [ht h]
  · rfl

theorem inRetired_granule (d : Dev) (a : Nat) : d.inRetired (64 * (a / 64)) = d.inRetired a := by
  unfold inRetired
  rw [channelOf_granule]

theorem inHeldTier_granule (d : Dev) (a : Nat) : d.inHeldTier (64 * (a / 64)) = d.inHeldTier a := by
  unfold inHeldTier
  rw [channelOf_granule]

/-- A granule that takes what is written to it. -/
structure Takes (d : Dev) (a : Nat) : Prop where
  bad : d.granuleBad (a / 64) = false
  retired : d.inRetired a = false
  held : d.inHeldTier a = false

theorem takes_of_readable {d : Dev} {a n x : Nat} (h : d.readable a n = true) (hx : x / 64 ∈ granules a n) : d.Takes x := by
  obtain ⟨hb, hr, hh⟩ := (readable_iff.1 h).2 _ hx
  exact ⟨hb, d.inRetired_granule x ▸ hr, d.inHeldTier_granule x ▸ hh⟩

/-- The shared memory after bytes written to granules that take them, and which granules are poison. -/
def partsWritten (d : Dev) (ps : List (Nat × List Byte)) : Dev :=
  { d with fab := { d.fab with mem := ps.foldl (fun m x => Memory.write m x.1 x.2) d.fab.mem
                               poison := ps.foldl (fun p x => Sparse.drop p (x.1 / 64)) d.fab.poison } }

theorem storeGranule_of_takes {d : Dev} {a : Nat} (h : d.Takes a) (bs : List Byte) : d.storeGranule a bs [] = d.partsWritten [(a, bs)] := by
  obtain ⟨hb, hr, hh⟩ := h
  unfold storeGranule
  simp [hb, hr, hh, each, setGranuleBad, memWrite, partsWritten]

theorem granuleBad_partsWritten {d : Dev} {g : Nat} (h : d.granuleBad g = false) (ps : List (Nat × List Byte)) :
    (d.partsWritten ps).granuleBad g = false := by
  unfold granuleBad partsWritten at *
  dsimp only
  generalize d.fab.poison = m at h ⊢
  induction ps generalizing m with
  | nil => exact h
  | cons x ps ih =>
    refine ih _ ?_
    by_cases hg : g = x.1 / 64
    · rw [hg, Sparse.find_drop_same]
      rfl
    · rw [Sparse.find_drop_other _ hg]
      exact h

theorem Takes.partsWritten {d : Dev} {a : Nat} (h : d.Takes a) (ps : List (Nat × List Byte)) : (d.partsWritten ps).Takes a :=
  ⟨granuleBad_partsWritten h.bad ps, h.retired, h.held⟩

theorem each_storeGranule {d : Dev} {ps : List (Nat × List Byte)} (h : ∀ x ∈ ps, d.Takes x.1) :
    d.each ps (fun d x => d.storeGranule x.1 x.2 []) = d.partsWritten ps := by
  unfold each
  induction ps generalizing d with
  | nil => rfl
  | cons x ps ih =>
    obtain ⟨hx, hps⟩ := List.forall_mem_cons.1 h
    rw [List.foldl_cons, storeGranule_of_takes hx, ih fun y hy => (hps y hy).partsWritten _]
    rfl

theorem mem_granules {a n g : Nat} : g ∈ granules a n ↔ n ≠ 0 ∧ a / 64 ≤ g ∧ g ≤ (a + n - 1) / 64 := by
  unfold granules range
  split
  · simp_all
  · rename_i hn
    simp only [List.mem_map, List.mem_range]
    constructor
    · rintro ⟨i, hi, rfl⟩
      omega
    · rintro ⟨-, h1, h2⟩
      exact ⟨g - a / 64, by omega, by omega⟩

theorem mem_granuleParts {a : Nat} {bs : List Byte} {x : Nat × List Byte} (h : x ∈ granuleParts a bs) : ∃ g ∈ granules a bs.length,
    x = (max a (64 * g), sub bs (max a (64 * g) - a) (min (a + bs.length) (64 * g + 64) - max a (64 * g))) := by
  obtain ⟨g, hg, rfl⟩ := List.mem_map.1 h
  exact ⟨g, hg, rfl⟩

/-- A write of the flow engine to memory that can be read. -/
theorem storeBy_of_readable {d : Dev} {a : Nat} {bs : List Byte} (hn : bs ≠ []) (h : d.readable a bs.length = true) :
    d.storeBy true a bs = d.partsWritten (granuleParts a bs) := by
  have hm := (readable_iff.1 h).1
  have hs : d.storeBy true a bs = d.each (granuleParts a bs) (fun d x => d.storeGranule x.1 x.2 []) := by
    unfold storeBy
    simp [hn, hm]
  rw [hs]
  refine each_storeGranule fun x hx => ?_
  obtain ⟨g, hg, rfl⟩ := mem_granuleParts hx
  refine takes_of_readable h ?_
  have hb := mem_granules.1 hg
  have hmax : max a (64 * g) / 64 = g := by omega
  dsimp only
  rw [hmax]
  exact hg

end Dev

/-- Bytes written one after the other, all of which that lie at one address are the same. -/
theorem Memory.byte_foldl_write (m : List Host.Cell) (ps : List (Nat × List Byte)) (i : Nat) (v : Byte)
    (h : ∀ x ∈ ps, x.1 ≤ i → i < x.1 + x.2.length → x.2.getD (i - x.1) 0 = v)
    (hv : (∃ x ∈ ps, x.1 ≤ i ∧ i < x.1 + x.2.length) ∨ Memory.byte m i = v) :
    Memory.byte (ps.foldl (fun m x => Memory.write m x.1 x.2) m) i = v := by
  induction ps generalizing m with
  | nil => simpa using hv
  | cons x ps ih =>
    obtain ⟨hx, hps⟩ := List.forall_mem_cons.1 h
    refine ih _ hps ?_
    by_cases hc : x.1 ≤ i ∧ i < x.1 + x.2.length
    · right
      have hb := Memory.byte_write_inside m x.1 x.2 (i - x.1) (by omega)
      rw [Nat.add_sub_cancel' hc.1] at hb
      rw [hb, ← hx hc.1 hc.2, List.getD_eq_getElem _ _ (by omega)]
    · rw [Memory.byte_write_outside m x.1 x.2 (by omega)]
      rcases hv with ⟨y, hy, hcov⟩ | hv
      · rcases List.mem_cons.1 hy with rfl | hy
        · exact absurd hcov hc
        · exact .inl ⟨y, hy, hcov⟩
      · exact .inr hv

theorem getD_sub {bs : List Byte} {o k j : Nat} (h : j < k) : (sub bs o k).getD j 0 = bs.getD (o + j) 0 := by
  unfold sub
  simp [List.getD_eq_getElem?_getD, h]

namespace Dev

/-- A write granule by granule writes the bytes. -/
theorem byte_granulePartsWritten (d : Dev) (a : Nat) (bs : List Byte) (i : Nat) :
    Memory.byte (d.partsWritten (granuleParts a bs)).fab.mem i = Memory.byte (Memory.write d.fab.mem a bs) i := by
  have hlen (g : Nat) (hg : g ∈ granules a bs.length) :
      (sub bs (max a (64 * g) - a) (min (a + bs.length) (64 * g + 64) - max a (64 * g))).length
        = min (a + bs.length) (64 * g + 64) - max a (64 * g) := by
    have hb := mem_granules.1 hg
    exact sub_length _ _ _ (by omega)
  by_cases hi : a ≤ i ∧ i < a + bs.length
  · have hw := Memory.byte_write_inside d.fab.mem a bs (i - a) (by omega)
    rw [Nat.add_sub_cancel' hi.1] at hw
    rw [hw]
    refine Memory.byte_foldl_write _ _ _ _ (fun x hx h1 h2 => ?_) (.inl ?_)
    · obtain ⟨g, hg, rfl⟩ := mem_granuleParts hx
      dsimp only at h1 h2 ⊢
      rw [hlen g hg] at h2
      rw [getD_sub (by omega), List.getD_eq_getElem _ _ (by omega)]
      congr 1
      omega
    · have hg : i / 64 ∈ granules a bs.length := mem_granules.2 ⟨by omega, by omega, by omega⟩
      refine ⟨_, List.mem_map_of_mem hg, ?_⟩
      dsimp only
      rw [hlen _ hg]
      omega
  · rw [Memory.byte_write_outside _ _ _ (by omega)]
    refine Memory.byte_foldl_write _ _ _ _ (fun x hx h1 h2 => ?_) (.inr rfl)
    obtain ⟨g, hg, rfl⟩ := mem_granuleParts hx
    dsimp only at h1 h2
    rw [hlen g hg] at h2
    omega

end Dev

theorem Memory.read_congr {m m' : List Host.Cell} {a n : Nat} (h : ∀ i, Memory.byte m i = Memory.byte m' i) :
    Memory.read m a n = Memory.read m' a n := by
  induction n generalizing a with
  | zero => rfl
  | succ n ih => rw [Memory.read, Memory.read, h, ih]

namespace Dev

theorem memRead_partsWritten_same (d : Dev) (a : Nat) (bs : List Byte) : (d.partsWritten (granuleParts a bs)).memRead a bs.length = bs :=
  (Memory.read_congr (d.byte_granulePartsWritten a bs)).trans (Memory.read_write_same _ _ _)

theorem memRead_partsWritten_apart (d : Dev) {a : Nat} {bs : List Byte} {x n : Nat} (h : x + n ≤ a ∨ a + bs.length ≤ x) :
    (d.partsWritten (granuleParts a bs)).memRead x n = d.memRead x n :=
  (Memory.read_congr (d.byte_granulePartsWritten a bs)).trans (Memory.read_write_apart _ _ _ _ _ h)

theorem keepsMemoryBut_partsWritten (d : Dev) (a : Nat) (bs : List Byte) : d.KeepsMemoryBut (d.partsWritten (granuleParts a bs)) a bs.length :=
  ⟨fun i hi => (d.byte_granulePartsWritten a bs i).trans (Memory.byte_write_outside _ _ _ hi), fun _ => rfl⟩

end Dev

end Sys2Proof.Machine
end

section
/-! The release of a packet (R20, R41, R57): what leaves the packet path and what joins an egress queue; O37. -/

namespace Sys2Proof.Machine

/-! ### A flow's entry read -/

namespace Dev

theorem Errs.readEntry {d e : Dev} (h : d.Errs e) (index set : Nat) : d.Errs (e.readEntry index set).1 := by
  unfold Dev.readEntry
  split
  · exact h
  · split
    · exact h
    · exact h.fetch _ _ _

/-- A read gives the present entry. -/
theorem readEntry_snd (d : Dev) (index set : Nat) : (d.readEntry index set).2 = d.entryAt index set := by
  unfold readEntry entryAt
  split
  · rfl
  · split
    · rfl
    · exact d.fetch_snd _ _

theorem readFlow_eq (d : Dev) (f : FlowRef) : d.readFlow f = ((d.readEntry f.index (f.hash % 2 ^ 16)).1, d.flowEntry f) := by
  have h : d.readFlow f = ((d.readEntry f.index (f.hash % 2 ^ 16)).1, (d.readEntry f.index (f.hash % 2 ^ 16)).2.filter f.holds) := rfl
  rw [h, readEntry_snd]
  rfl

theorem tick32_readEntry (d : Dev) (index set : Nat) : (d.readEntry index set).1.tick32 = d.tick32 := by
  have ht : (d.readEntry index set).1.Turns none (.of d.ns d.plan) := by
    have h : d.Turns none (.of d.ns d.plan) := ⟨rfl, nofun⟩
    unfold readEntry
    split
    · exact h
    · split
      · exact h
      · exact h.fetch
  have htick : (d.readEntry index set).1.plan.tick = d.plan.tick := congrArg Turning.tick ht.ticks
  have hfirst : (d.readEntry index set).1.plan.firstTick = d.plan.firstTick := congrArg Turning.firstTick ht.ticks
  unfold tick32
  rw [htick, hfirst]

theorem unsampledWith_congr {d y : Dev} (h : y.tick32 = d.tick32) (p : Packet) (e : Option (List Byte)) :
    y.unsampledWith p e = d.unsampledWith p e := by
  unfold unsampledWith
  rw [h]

/-! ### What a release leaves -/

/-- The shim that a held packet is released with. -/
def ShimOf (d : Dev) (p : Packet) (sh : Shim) : Prop :=
  (∃ v, p.verdict = some v ∧ sh = { Shim.ofBytes v with tick := if (Shim.ofBytes v).tier = 0xF then d.tick32 else (Shim.ofBytes v).tick })
    ∨ (p.verdict = none ∧ p.sample = none ∧ sh = d.unsampledShim p)

/-- Whether nothing is noted while a packet's flow is read. -/
def ReadsClean (d : Dev) (p : Packet) : Prop := p.verdict ≠ none ∨ p.flow = none ∨ ∃ f, p.flow = some f ∧ (d.readFlow f).1 = d

/-- A held packet released, when it may be. -/
def heldReleased (d : Dev) (p : Packet) : Dev :=
  if !p.early && p.decided && d.mayRelease p then
    match p.verdict, p.flow with
    | some v, _ => d.release p (if (Shim.ofBytes v).tier = 0xF then { Shim.ofBytes v with tick := d.tick32 } else Shim.ofBytes v)
    | none, some f => (d.readFlow f).1.release p ((d.readFlow f).1.unsampledWith p (d.readFlow f).2)
    | none, none => d.release p (d.unsampledWith p none)
  else d

theorem packetRelease_of_some {d : Dev} {id : Nat} {p : Packet} (h : d.packet? id = some p) : d.packetRelease id = d.heldReleased p := by
  unfold packetRelease
  rw [h]
  rfl

/-- A packet is released by a device that has at most noted errors. -/
theorem packetRelease_eq {d : Dev} {p : Packet} {sh : Shim} (h : d.packet? p.id = some p) (hs : p.stage = .held)
    (hr : d.mayRelease p = true) (hsh : d.ShimOf p sh) :
    ∃ y, d.Errs y ∧ (d.ReadsClean p → y = d) ∧ d.packetRelease p.id = y.release p sh := by
  have hearly : p.early = false := by simp [Packet.early, hs]
  rw [packetRelease_of_some h]
  unfold heldReleased
  rcases hsh with ⟨v, hv, rfl⟩ | ⟨hv, hsample, rfl⟩
  · have hd : p.decided = true := by simp [Packet.decided, hv]
    refine ⟨d, .refl d, fun _ => rfl, ?_⟩
    rw [hearly, hd, hr, hv, if_pos (by decide)]
    dsimp only
    split <;> rfl
  · have hd : p.decided = true := by simp [Packet.decided, hsample]
    rw [hearly, hd, hr, hv, if_pos (by decide)]
    unfold unsampledShim
    cases hf : p.flow with
    | none => exact ⟨d, .refl d, fun _ => rfl, rfl⟩
    | some f =>
      refine ⟨(d.readFlow f).1, ?_, fun hc => ?_, ?_⟩
      · rw [readFlow_eq]
        exact (Errs.refl d).readEntry _ _
      · rcases hc with hc | hc | ⟨g, hg, hc⟩
        · exact absurd hv hc
        · exact absurd hc (by simp [hf])
        · rw [hf] at hg
          rwa [← Option.some.inj hg] at hc
      · have hu : (d.readFlow f).1.unsampledWith p (d.readFlow f).2 = d.unsampledWith p (d.flowEntry f) := by
          rw [readFlow_eq]
          exact unsampledWith_congr (d.tick32_readEntry _ _) p _
        exact congrArg ((d.readFlow f).1.release p) hu

/-- The device without a packet. -/
def without (d : Dev) (id : Nat) : Dev := { d with front := { d.front with packets := d.front.packets.filter fun q => q.id != id } }

theorem moves_without (d : Dev) (id : Nat) : d.Moves (d.without id) [] [.front] := (Moves.refl d _ _).withFront (by simp) _

/-- What a release puts on the egress queue. -/
def egressItem (d : Dev) (p : Packet) (s : Shim) : EgressItem :=
  { packet := p.id, cls := p.cls, bytes := p.frame.take 12 ++ d.shimTag s ++ p.frame.drop 12, held := heldBytes p.frame.length,
    dropped := bitsOf s.action 15 1 = 1, flow := p.flow.map fun f => (f.index, f.incarnation) }

theorem release_eq (d : Dev) (p : Packet) (s : Shim) : d.release p s =
    if p.gone then d.without p.id
    else if !d.up p.sp then ((d.without p.id).bump (C.PORT_TX_LINK_DOWN p.sp)).flowControl
    else ((d.without p.id).modSub p.sp fun sub => { sub with egress := sub.egress ++ [d.egressItem p s] }).flowControl := rfl

/-- What a released packet leaves in any case. -/
structure LeavesPath (d e : Dev) (p : Packet) : Prop where
  gone : ∀ q ∈ e.front.packets, q.id ≠ p.id
  others : ∀ q, q.id ≠ p.id → (q ∈ e.front.packets ↔ q ∈ d.front.packets)
  front : e.front = { d.front with packets := e.front.packets }
  memory : d.KeepsMemory e
  keeps : d.ReadsClean p → d.KeepsWords e (C.PORT_TX_LINK_DOWN p.sp :: flowWords) ∧ d.KeepsParts e [.front, .port]

theorem release_moves (y : Dev) (p : Packet) (s : Shim) :
    (y.without p.id).Moves (y.release p s) (C.PORT_TX_LINK_DOWN p.sp :: flowWords) [.port] := by
  have h := Moves.refl (y.without p.id) (C.PORT_TX_LINK_DOWN p.sp :: flowWords) [.port]
  rw [release_eq]
  exact .ite h (.ite ((h.bump (by simp)).flowControl (by simp) (by simp)) ((h.modSub (by simp) _ _).flowControl (by simp) (by simp)))

theorem leavesPath_release {d y : Dev} (h : d.Errs y) {p : Packet} (hy : d.ReadsClean p → y = d) (s : Shim) :
    d.LeavesPath (y.release p s) p := by
  have hm := y.release_moves p s
  have hfront : y.front = d.front := h.parts .front (by decide)
  have hf : (y.release p s).front = { d.front with packets := d.front.packets.filter fun q => q.id != p.id } := by
    rw [← hfront]
    exact hm.parts .front (by simp)
  refine ⟨fun q hq => ?_, fun q hq => ?_, ?_, ?_, fun hc => ?_⟩
  · rw [hf] at hq
    simpa using (List.mem_filter.1 hq).2
  · rw [hf]
    simp [hq]
  · rw [hf]
  · exact (h.memory.trans (y.moves_without p.id).memory).trans hm.memory
  · have ha : y.Moves (y.release p s) (C.PORT_TX_LINK_DOWN p.sp :: flowWords) [.front, .port] :=
      ((y.moves_without p.id).mono (List.nil_subset _) (by simp)).trans (hm.mono (fun _ h => h) (by simp))
    rw [hy hc] at ha ⊢
    exact ⟨ha.words, ha.parts⟩

theorem egressOf_modSub_append (d : Dev) {sp : Nat} (h : sp < d.port.subs.length) (q : List EgressItem) (x : Nat) :
    (d.modSub sp fun s => { s with egress := s.egress ++ q }).egressOf x = if x = sp then d.egressOf x ++ q else d.egressOf x := by
  unfold egressOf modSub
  dsimp only
  rw [getD_modifyNth]
  by_cases hx : x = sp
  · subst hx
    simp [h]
  · simp [hx]

theorem linkUp_not_mem_errorWords : ∀ sp < 8, (R.PORT_SUBPORT_STAT_LINK_UP sp).addr ∉ errorWords := by decide +kernel

theorem linkDown_not_mem : ∀ sp < 8, C.PORT_TX_LINK_DOWN sp ∉ errorWords ++ flowWords := by decide +kernel

theorem shimTag_of_errs {d y : Dev} (h : d.Errs y) (s : Shim) : y.shimTag s = d.shimTag s := by
  unfold shimTag
  rw [Moves.on h (by decide +kernel)]

end Dev

section

variable {s : State} {p : Packet} {sh : Shim} (hr : s.RunsIn 20) (hp : s.dev.packet? p.id = some p) (hs : p.stage = .held)
  (hm : s.dev.mayRelease p = true) (hsh : s.dev.ShimOf p sh)

theorem exec_packetRelease (s : State) (id : Nat) :
    exec (.packetRelease id) s = s.clocked (·.regionStopped 20) fun d => d.packetRelease id := rfl

include hr hp hs hm hsh in
/-- A release completes with what the packet leaves and with what is said of its release by a device that has at most noted errors. -/
theorem packetRelease_completes {post : Dev → Prop} (h : ∀ y, s.dev.Errs y → post (y.release p sh)) :
    Completes (.packetRelease p.id) s fun d => s.dev.LeavesPath d p ∧ post d := by
  obtain ⟨y, hy, hclean, he⟩ := Dev.packetRelease_eq hp hs hm hsh
  refine .ofClocked hr.1 hr.2 (exec_packetRelease s p.id) ?_ ?_
  · rw [he]
    have h1 : (y.release p sh).life = y.life := (y.release_moves p sh).parts .life (by simp)
    exact h1.trans (hy.parts .life (by decide))
  · rw [he]
    exact ⟨Dev.leavesPath_release hy hclean sh, h y hy⟩

include hr hp hs hm hsh in
theorem packetRelease_joins (hsp : p.sp < 8) (hl : p.sp < s.dev.port.subs.length) (hu : s.dev.up p.sp = true) (hg : p.gone = false) :
    Completes (.packetRelease p.id) s fun d => s.dev.LeavesPath d p
      ∧ (∃ e : EgressItem, d.egressOf p.sp = s.dev.egressOf p.sp ++ [e] ∧ e.packet = p.id ∧ e.cls = p.cls
          ∧ e.dropped = decide (bitsOf sh.action 15 1 = 1) ∧ e.bytes = p.frame.take 12 ++ s.dev.shimTag sh ++ p.frame.drop 12)
      ∧ ∀ x, x ≠ p.sp → d.egressOf x = s.dev.egressOf x := by
  refine packetRelease_completes hr hp hs hm hsh fun y hy => ?_
  have hport : y.port = s.dev.port := hy.parts .port (by decide)
  have hup : y.up p.sp = true := (Dev.Moves.on hy (Dev.linkUp_not_mem_errorWords _ hsp)).trans hu
  have he (x : Nat) : (y.release p sh).egressOf x
      = if x = p.sp then s.dev.egressOf x ++ [y.egressItem p sh] else s.dev.egressOf x := by
    have hx : (y.without p.id).egressOf x = s.dev.egressOf x := by
      unfold Dev.egressOf Dev.without
      dsimp only
      rw [hport]
    rw [Dev.release_eq, hg, hup, ← hx]
    exact (Dev.egressOf_flowControl _ x).trans (Dev.egressOf_modSub_append _ (hport.symm ▸ hl) _ x)
  refine ⟨⟨y.egressItem p sh, (he _).trans (if_pos rfl), rfl, rfl, rfl, ?_⟩, fun x hx => (he x).trans (if_neg hx)⟩
  unfold Dev.egressItem
  dsimp only
  rw [Dev.shimTag_of_errs hy]

include hr hp hs hm hsh in
theorem packetRelease_counts (hsp : p.sp < 8) (hu : s.dev.up p.sp = false) (hg : p.gone = false) :
    Completes (.packetRelease p.id) s fun d => s.dev.LeavesPath d p
      ∧ s.dev.Counts d (C.PORT_TX_LINK_DOWN p.sp) 1 ∧ ∀ x, d.egressOf x = s.dev.egressOf x := by
  refine packetRelease_completes hr hp hs hm hsh fun y hy => ?_
  have hport : y.port = s.dev.port := hy.parts .port (by decide)
  have hup : y.up p.sp = false := (Dev.Moves.on hy (Dev.linkUp_not_mem_errorWords _ hsp)).trans hu
  have he : y.release p sh = ((y.without p.id).bump (C.PORT_TX_LINK_DOWN p.sp)).flowControl := by
    rw [Dev.release_eq, hg, hup]
    rfl
  have hn := Dev.linkDown_not_mem _ hsp
  rw [List.mem_append, not_or] at hn
  have hw : s.dev.Moves (y.without p.id) Dev.errorWords (Dev.errorParts ++ [.front]) :=
    (Dev.Moves.mono hy (fun _ h => h) (by simp)).trans ((y.moves_without p.id).mono (by simp) (by simp))
  rw [he]
  refine ⟨Dev.counts_of_bump hw hn.1 ((Dev.Moves.refl _ flowWords [.port]).flowControl (by simp) (fun _ h => h)) hn.2, fun x => ?_⟩
  rw [Dev.egressOf_flowControl]
  unfold Dev.egressOf
  rw [Dev.bump_port]
  unfold Dev.without
  dsimp only
  rw [hport]

include hr hp hs hm hsh in
theorem packetRelease_gone (hg : p.gone = true) :
    Completes (.packetRelease p.id) s fun d => s.dev.LeavesPath d p ∧ d.port = s.dev.port := by
  refine packetRelease_completes hr hp hs hm hsh fun y hy => ?_
  rw [Dev.release_eq, if_pos hg]
  exact hy.parts .port (by decide)

end

theorem packetRelease_of_none {d : Dev} {id : Nat} (h : d.packet? id = none) : d.packetRelease id = d := by
  unfold Dev.packetRelease
  rw [h]

theorem packetRelease_of_not {d : Dev} {p : Packet} (hp : d.packet? p.id = some p)
    (h : p.stage ≠ .held ∨ (p.sample ≠ none ∧ p.verdict = none) ∨ d.mayRelease p = false) : d.packetRelease p.id = d := by
  refine (Dev.packetRelease_of_some hp).trans (if_neg ?_)
  rcases h with h | ⟨hs, hv⟩ | h
  · have he : p.early = true := by
      unfold Packet.early
      split
      · rename_i h'
        exact absurd h' h
      · rfl
    simp [he]
  · have hd : p.decided = false := by
      rw [Packet.decided, hv, Option.isSome_none, Bool.or_false, Option.isNone_eq_false_iff, Option.isSome_iff_ne_none]
      exact hs
    simp [hd]
  · simp [h]

end Sys2Proof.Machine
end

section
/-! The ageing sweep (R190, R192, R201): a walk with nothing to age, and the visit of one bucket; O37. -/

namespace Sys2Proof.Machine

/-! ### Bytes of an entry -/

theorem leAt_one_lt (bs : List Byte) (o : Nat) : leAt bs o 1 < 256 := by
  have hl : (sub bs o 1).length ≤ 1 := by simp [sub]
  calc leAt bs o 1 < 256 ^ (sub bs o 1).length := leNat_lt _
    _ ≤ 256 ^ 1 := Nat.pow_le_pow_right (by decide) hl
    _ = 256 := by decide

theorem length_overlay {bs new : List Byte} {o : Nat} (h : o + new.length ≤ bs.length) : (overlay bs o new).length = bs.length := by
  unfold overlay
  simp
  omega

theorem leAt_overlay_same {bs : List Byte} {o k v : Nat} (h : o ≤ bs.length) : leAt (overlay bs o (leBytes k v)) o k = v % 256 ^ k := by
  have hs : sub (overlay bs o (leBytes k v)) o k = leBytes k v := by
    unfold sub overlay
    rw [List.append_assoc, List.drop_append_of_le_length (by simpa using h)]
    have ht : (bs.take o).drop o = [] := by simp
    rw [ht, List.nil_append]
    exact List.take_left' (leBytes_length k v)
  rw [leAt, hs, leNat_leBytes]

/-- A byte of an entry with one of its bits cleared. -/
theorem bitsOf_cleared {bs : List Byte} {o : Nat} (h : o ≤ bs.length) :
    bitsOf (leAt (overlay bs o (leBytes 1 (setBits (leAt bs o 1) 0 1 0))) o 1) 0 1 = 0 := by
  have hb : setBits (leAt bs o 1) 0 1 0 < 256 ^ 1 := setBits_lt _ _ _ _ 8 (leAt_one_lt bs o) (by decide)
  rw [leAt_overlay_same h, Nat.mod_eq_of_lt hb, bitsOf_setBits_same, Nat.zero_mod]

/-! ### One entry -/

namespace Dev

/-- Whether a flow entry has been idle beyond its policy's `IDLE_MS`. -/
def flowStale (d : Dev) (e : List Byte) : Bool :=
  feValid e && d.get (R.FLW_POLICY_IDLE_MS (leAt e 43 1 / 16)) != 0
    && decide (leAt e 64 8 + d.get (R.FLW_POLICY_IDLE_MS (leAt e 43 1 / 16)) * 1000000 ≤ d.ns)

/-- A flow entry freed. -/
def flowFreed (e : List Byte) : List Byte := overlay e 43 (leBytes 1 (setBits (leAt e 43 1) 0 1 0))

/-- A flow less, and one more that has aged. -/
def countAged (d : Dev) (live : Nat) : Dev := (d.put R.FLW_OCC_LIVE_FLOWS (live - 1)).bump C.FLW_AGED

theorem ageFlow_eq (d : Dev) (i : Nat) : ageFlow d i =
    let y := (d.readEntry i (i / 4 % 2 ^ 16)).1
    let e := (d.readEntry i (i / 4 % 2 ^ 16)).2.getD (zeros 192)
    if y.flowStale e then (y.putFlow i (i / 4 % 2 ^ 16) (flowFreed e)).countAged (y.get R.FLW_OCC_LIVE_FLOWS) else y := rfl

/-- Whether an entry of an entity table has been idle beyond the table's `IDLE_MS`. -/
def entityStale (d : Dev) (t : Nat) (e : List Byte) : Bool :=
  decide (bitsOf (leAt e 16 1) 0 1 = 1) && decide (bitsOf (leAt e 16 1) 1 1 = 0) && d.get (R.FLW_ENT_TABLE_IDLE_MS t) != 0
    && decide (leAt e 40 8 + d.get (R.FLW_ENT_TABLE_IDLE_MS t) * 1000000 ≤ d.ns)

/-- An entity entry freed. -/
def entityFreed (e : List Byte) : List Byte := overlay e 16 (leBytes 1 (setBits (leAt e 16 1) 0 1 0))

theorem ageEntity_eq (t : Nat) (d : Dev) (a : Nat) : ageEntity t d a =
    let y := (d.fetch a 64 []).1
    let e := (d.fetch a 64 []).2.getD (zeros 64)
    if y.entityStale t e then (y.storeBy true a (entityFreed e)).bump C.FLW_ENT_AGED else y := rfl

/-! ### A walk with nothing to age -/

/-- No flow policy and no entity table ages anything. -/
structure NoIdle (d : Dev) : Prop where
  flows : ∀ f < 16, d.get (R.FLW_POLICY_IDLE_MS f) = 0
  entities : ∀ t < 8, d.get (R.FLW_ENT_TABLE_IDLE_MS t) = 0

/-- What a walk that ages nothing leaves. -/
structure Swept (d e : Dev) : Prop where
  moves : d.Moves e errorWords (.time :: .front :: errorParts)
  cache : e.front.cache = d.front.cache
  ns : d.ns ≤ e.ns

theorem idle_not_mem_errorWords : (∀ f < 16, (R.FLW_POLICY_IDLE_MS f).addr ∉ errorWords)
    ∧ ∀ t < 8, (R.FLW_ENT_TABLE_IDLE_MS t).addr ∉ errorWords := by decide +kernel

section

variable {d e : Dev}

theorem Swept.refl (d : Dev) : d.Swept d := ⟨.refl _ _ _, rfl, le_refl _⟩

theorem Swept.noIdle (h : d.Swept e) (hd : d.NoIdle) : e.NoIdle :=
  ⟨fun f hf => (h.moves.get (idle_not_mem_errorWords.1 f hf)).trans (hd.flows f hf),
    fun t ht => (h.moves.get (idle_not_mem_errorWords.2 t ht)).trans (hd.entities t ht)⟩

theorem Swept.errs {y : Dev} (h : d.Swept e) (hy : e.Errs y) : d.Swept y := by
  have hm : e.Moves y errorWords (.time :: .front :: errorParts) := hy.mono (fun _ h => h) (by simp)
  have hn : y.ns = e.ns := (hy.parts .time (by decide)).1
  have hf : y.front = e.front := hy.parts .front (by decide)
  exact ⟨h.moves.trans hm, (congrArg Front.cache hf).trans h.cache, h.ns.trans hn.ge⟩

theorem Swept.advanceClock (h : d.Swept e) (t : Nat) : d.Swept (e.advanceClock t) := by
  refine ⟨h.moves.advanceClock (by simp) t, ?_, ?_⟩
  · unfold Dev.advanceClock
    rw [advance_front]
    exact h.cache
  · unfold Dev.advanceClock
    rw [advance_ns]
    exact h.ns.trans (le_max_left _ _)

theorem Swept.withFront (h : d.Swept e) {x : Front} (hx : x.cache = e.front.cache) : d.Swept { e with front := x } :=
  ⟨h.moves.withFront (by simp) x, hx.trans h.cache, h.ns⟩

theorem Swept.agePeriodEnds (h : d.Swept e) : d.Swept e.agePeriodEnds := h.withFront rfl

theorem Swept.each (h : d.Swept e) {α : Type} {xs : List α} {f : Dev → α → Dev} (hf : ∀ x ∈ xs, ∀ {e}, d.Swept e → d.Swept (f e x)) :
    d.Swept (e.each xs f) := by
  unfold Dev.each
  induction xs generalizing e with
  | nil => exact h
  | cons x xs ih => exact ih (hf x (by simp) h) fun y hy => hf y (by simp [hy])

theorem flowStale_of_noIdle (hd : d.NoIdle) (e : List Byte) : d.flowStale e = false := by
  have hlt : leAt e 43 1 / 16 < 16 := by
    have := leAt_one_lt e 43
    omega
  simp [flowStale, hd.flows _ hlt]

theorem entityStale_of_noIdle (hd : d.NoIdle) {t : Nat} (ht : t < 8) (e : List Byte) : d.entityStale t e = false := by
  simp [entityStale, hd.entities t ht]

variable (hd : d.NoIdle)
include hd

theorem Swept.ageFlow (h : d.Swept e) (i : Nat) : d.Swept (ageFlow e i) := by
  have hy := h.errs ((Errs.refl e).readEntry i (i / 4 % 2 ^ 16))
  rw [ageFlow_eq]
  dsimp only
  rw [flowStale_of_noIdle (hy.noIdle hd), if_neg Bool.false_ne_true]
  exact hy

theorem Swept.ageEntity (h : d.Swept e) {t : Nat} (ht : t < 8) (a : Nat) : d.Swept (ageEntity t e a) := by
  have hy := h.errs ((Errs.refl e).fetch a 64 [])
  rw [ageEntity_eq]
  dsimp only
  rw [entityStale_of_noIdle (hy.noIdle hd) ht, if_neg Bool.false_ne_true]
  exact hy

theorem Swept.ageBucket (h : d.Swept e) {table : Option Nat} (ht : ∀ t, table = some t → t < 8) (b : Nat) :
    d.Swept (e.ageBucket table b) := by
  have hy := h.advanceClock (e.ageDue (e.ageFirst table + b))
  unfold Dev.ageBucket
  dsimp only
  split
  · split
    · exact hy
    · exact hy.each fun w _ _ h1 => h1.ageFlow hd _
  · rename_i t
    split
    · exact hy
    · exact hy.each fun w _ _ h1 => h1.ageEntity hd (ht t rfl) _

end

/-! The buckets of the walk -/

theorem mem_insertBucket {d : Dev} {x y : Option Nat × Nat} {l : List (Option Nat × Nat)} (h : y ∈ d.insertBucket x l) : y = x ∨ y ∈ l := by
  induction l with
  | nil => simpa [insertBucket] using h
  | cons z l ih =>
    unfold insertBucket at h
    dsimp only at h
    split at h
    · exact .inr h
    · split at h
      · simpa using h
      · rcases List.mem_cons.1 h with rfl | h
        · exact .inr List.mem_cons_self
        · exact (ih h).imp_right (List.mem_cons_of_mem _)

theorem mem_foldl_insertBucket {d : Dev} {y : Option Nat × Nat} {l acc : List (Option Nat × Nat)}
    (h : y ∈ l.foldl (fun l x => d.insertBucket x l) acc) : y ∈ l ∨ y ∈ acc := by
  induction l generalizing acc with
  | nil => exact .inr h
  | cons x l ih =>
    rcases ih h with h | h
    · exact .inl (List.mem_cons_of_mem _ h)
    · rcases mem_insertBucket h with rfl | h
      · exact .inl List.mem_cons_self
      · exact .inr h

/-- The buckets that hold anything are of the flow table or of one of the eight entity tables. -/
theorem table_lt_of_mem_heldBuckets {d : Dev} {x : Option Nat × Nat} (h : x ∈ d.heldBuckets) {t : Nat} (ht : x.1 = some t) : t < 8 := by
  rcases List.mem_append.1 h with h | h
  · obtain ⟨i, -, rfl⟩ := List.mem_map.1 h
    cases ht
  · obtain ⟨u, hu, h⟩ := List.mem_flatMap.1 h
    obtain ⟨j, -, rfl⟩ := List.mem_map.1 h
    rw [← Option.some.inj ht]
    exact List.mem_range.1 hu

/-- The walk past its present place: the period ends before a bucket that it has been past. -/
def ageArrive (d : Dev) (place : Nat) : Dev :=
  if place < d.front.ageVisited then (d.ageOver d.front.ageVisited d.sweepBuckets).agePeriodEnds else d

/-- The walk stands behind a bucket. -/
def ageLeave (d : Dev) (place : Nat) : Dev :=
  if d.sweepBuckets ≤ place + 1 then d.agePeriodEnds else { d with front := { d.front with ageVisited := place + 1 } }

theorem ageVisit_of_le {d : Dev} {table : Option Nat} {b : Nat} (h : d.ageSize table ≤ b) : d.ageVisit table b = d := if_pos h

theorem ageVisit_of_lt {d : Dev} {table : Option Nat} {b : Nat} (h : b < d.ageSize table) : d.ageVisit table b =
    (((d.ageArrive (d.ageFirst table + b)).ageOver (d.ageArrive (d.ageFirst table + b)).front.ageVisited
      (d.ageFirst table + b)).ageBucket table b).ageLeave (d.ageFirst table + b) := if_neg (Nat.not_le.2 h)

theorem ageVisited_ageLeave (d : Dev) (place : Nat) :
    (d.ageLeave place).front.ageVisited = place + 1 ∨ (d.ageLeave place).front.ageVisited = 0 := by
  unfold ageLeave
  split
  · exact .inr rfl
  · exact .inl rfl

theorem ageLeave_eq (d : Dev) (place : Nat) : ∃ x, d.ageLeave place = { d with front := x } := by
  unfold ageLeave
  split
  · exact ⟨_, rfl⟩
  · exact ⟨_, rfl⟩

section

variable {d e : Dev} (hd : d.NoIdle)

theorem Swept.ageLeave (h : d.Swept e) (place : Nat) : d.Swept (e.ageLeave place) := by
  unfold Dev.ageLeave
  split
  · exact h.agePeriodEnds
  · exact h.withFront rfl

include hd

theorem Swept.ageOver (h : d.Swept e) (lo hi : Nat) : d.Swept (e.ageOver lo hi) := by
  unfold Dev.ageOver
  split
  · exact h
  · refine h.each fun x hx _ h1 => h1.ageBucket hd (fun t ht => ?_) x.2
    rcases mem_foldl_insertBucket hx with hx | hx
    · exact table_lt_of_mem_heldBuckets (List.mem_filter.1 hx).1 ht
    · exact absurd hx List.not_mem_nil

theorem Swept.ageArrive (h : d.Swept e) (place : Nat) : d.Swept (e.ageArrive place) := by
  unfold Dev.ageArrive
  split
  · exact (h.ageOver hd _ _).agePeriodEnds
  · exact h

theorem Swept.ageVisit (h : d.Swept e) {table : Option Nat} (ht : ∀ t, table = some t → t < 8) {b : Nat} (hb : b < e.ageSize table) :
    d.Swept (e.ageVisit table b) := by
  rw [ageVisit_of_lt hb]
  exact (((h.ageArrive hd _).ageOver hd _ _).ageBucket hd ht b).ageLeave _

end

theorem ageVisited_ageVisit {d : Dev} {table : Option Nat} {b : Nat} (h : b < d.ageSize table) :
    (d.ageVisit table b).front.ageVisited = d.ageFirst table + b + 1 ∨ (d.ageVisit table b).front.ageVisited = 0 := by
  rw [ageVisit_of_lt h]
  exact ageVisited_ageLeave _ _

/-! ### A bucket visited -/

/-- The next bucket of the walk: its visit, and the walk stands behind it. -/
theorem ageVisit_next {d : Dev} {table : Option Nat} {b : Nat} (h : b < d.ageSize table) (hv : d.front.ageVisited = d.ageFirst table + b) :
    ∃ x, d.ageVisit table b = { d.ageBucket table b with front := x } := by
  have h1 : d.ageArrive (d.ageFirst table + b) = d := if_neg (by omega)
  have h2 : d.ageOver d.front.ageVisited (d.ageFirst table + b) = d := if_pos hv.ge
  rw [ageVisit_of_lt h, h1, h2]
  exact ageLeave_eq _ _

theorem each_same {α : Type} {xs : List α} {f : Dev → α → Dev} {d : Dev} (h : ∀ x ∈ xs, f d x = d) : d.each xs f = d := by
  unfold each
  induction xs with
  | nil => rfl
  | cons x xs ih =>
    obtain ⟨hx, hxs⟩ := List.forall_mem_cons.1 h
    rw [List.foldl_cons, hx, ih hxs]

/-- Of the steps over a list one changes the device. -/
theorem each_one {α : Type} {xs : List α} {f : Dev → α → Dev} {d e : Dev} {w : α} (hn : xs.Nodup) (hw : w ∈ xs) (hstep : f d w = e)
    (hbefore : ∀ x ∈ xs, x ≠ w → f d x = d) (hafter : ∀ x ∈ xs, x ≠ w → f e x = e) : d.each xs f = e := by
  obtain ⟨as, bs, rfl⟩ := List.append_of_mem hw
  have hdis := List.nodup_append.1 hn
  have ha : d.each as f = d := each_same fun x hx => hbefore x (by simp [hx]) (hdis.2.2 x hx w (by simp))
  have hb : e.each bs f = e :=
    each_same fun x hx => hafter x (by simp [hx]) fun hxw => (List.nodup_cons.1 hdis.2.1).1 (hxw ▸ hx)
  have hs : d.each (as ++ w :: bs) f = (f (d.each as f) w).each bs f := by
    unfold each
    rw [List.foldl_append, List.foldl_cons]
  rw [hs, ha, hstep, hb]

end Dev

/-- A visit of the next bucket of the walk completes with the visit. -/
theorem ageingSweepVisit_completes {s : State} (hr : s.RunsIn 17) {t : Option (Fin 8)} {b : Nat} (hb : b < s.dev.ageSize (t.map (·.val)))
    (hv : s.dev.front.ageVisited = s.dev.ageFirst (t.map (·.val)) + b) {y : Dev} (hy : s.dev.ageBucket (t.map (·.val)) b = y)
    (hl : y.life = s.dev.life) {post : Dev → Prop} (hp : ∀ x, post { y with front := x }) : Completes (.ageingSweepVisit t b) s post := by
  obtain ⟨x, hx⟩ := Dev.ageVisit_next hb hv
  rw [hy] at hx
  have hc : exec (.ageingSweepVisit t b) s = s.clocked (·.regionStopped 17) fun d => d.ageVisit (t.map (·.val)) b := rfl
  refine .ofClocked hr.1 hr.2 hc ?_ ?_
  · rw [hx]
    exact hl
  · rw [hx]
    exact hp x

end Sys2Proof.Machine
end

section
/-! The visit of a bucket in which at most one entry is idle (R190, R201), and O37. -/

namespace Sys2Proof.Machine

namespace Dev

/-! ### What decides whether memory can be read -/

/-- Two devices with the same map of the memory: its channels, the tiers held; and no more poison in `e` than in `d`. -/
structure SameMap (d e : Dev) : Prop where
  live : e.liveChannels = d.liveChannels
  state : ∀ c, e.get (R.MEM_CHAN_STAT_STATE c) = d.get (R.MEM_CHAN_STAT_STATE c)
  held : e.sup.heldTiers = d.sup.heldTiers
  poison : ∀ g, d.granuleBad g = false → e.granuleBad g = false

section

variable {d e : Dev} (h : d.SameMap e)
include h

theorem SameMap.chanRetired (c : Nat) : e.chanRetired c = d.chanRetired c := by
  unfold Dev.chanRetired
  rw [h.state]

theorem SameMap.region (a : Nat) : e.region a = d.region a := by
  unfold Dev.region
  rw [h.live]

theorem SameMap.channelOf (a : Nat) : e.channelOf a = d.channelOf a := by
  have hl : e.liveList = d.liveList := by
    unfold Dev.liveList
    simp only [h.state]
  unfold Dev.channelOf
  rw [h.region, h.live, hl]

theorem SameMap.inRetired (a : Nat) : e.inRetired a = d.inRetired a := by
  unfold Dev.inRetired
  rw [h.channelOf]
  simp only [h.chanRetired]

theorem SameMap.inHeldTier (a : Nat) : e.inHeldTier a = d.inHeldTier a := by
  unfold Dev.inHeldTier
  rw [h.channelOf, h.held]

theorem SameMap.readable {a n : Nat} (hr : d.readable a n = true) : e.readable a n = true := by
  obtain ⟨hm, hg⟩ := readable_iff.1 hr
  refine readable_iff.2 ⟨?_, fun g hgm => ?_⟩
  · unfold mapped
    rw [h.region, h.region]
    exact hm
  · obtain ⟨hb, hret, hh⟩ := hg g hgm
    exact ⟨h.poison g hb, (h.inRetired _).trans hret, (h.inHeldTier _).trans hh⟩

end

/-- The words that an entry freed moves. -/
def agedWords : List Nat := [C.FLW_AGED, C.FLW_ENT_AGED, R.FLW_OCC_LIVE_FLOWS.addr]

theorem map_not_mem_agedWords (c : Nat) : (R.MEM_CHAN_STAT_STATE c).addr ∉ agedWords := by
  have hw : agedWords = [0x400040030, 0x400040090, 0x400000018] := rfl
  rw [hw]
  unfold R.MEM_CHAN_STAT_STATE
  dsimp only
  split
  · simp only [List.mem_cons, List.not_mem_nil, or_false]
    omega
  · decide

/-- Bytes written where they can be, an entry freed and counted. -/
theorem sameMap_of_moves {d e : Dev} (h : d.Moves e agedWords [.time, .front]) : d.SameMap e where
  live := h.get (by decide)
  state c := h.get (map_not_mem_agedWords c)
  held := congrArg Supply.heldTiers (h.parts .sup (by decide))
  poison g hg := by
    have hp : ({ e.fab with mem := [], core := [] } : Fabric).poison = ({ d.fab with mem := [], core := [] } : Fabric).poison :=
      congrArg Fabric.poison (h.parts .fab (by decide))
    have hp : e.fab.poison = d.fab.poison := hp
    unfold granuleBad at *
    rwa [hp]

theorem sameMap_partsWritten (d : Dev) (ps : List (Nat × List Byte)) : d.SameMap (d.partsWritten ps) :=
  ⟨rfl, fun _ => rfl, rfl, fun _ hg => granuleBad_partsWritten hg ps⟩

theorem SameMap.trans {d y e : Dev} (h : d.SameMap y) (h' : y.SameMap e) : d.SameMap e :=
  ⟨h'.live.trans h.live, fun c => (h'.state c).trans (h.state c), h'.held.trans h.held, fun g hg => h'.poison g (h.poison g hg)⟩

theorem keepsParts_partsWritten (d : Dev) (ps : List (Nat × List Byte)) : d.KeepsParts (d.partsWritten ps) [.fab] := by
  intro p hp
  cases p with
  | fab => exact absurd hp (by simp)
  | time => exact ⟨rfl, rfl⟩
  | port | front | plan | lens | seq | sync | lpe | ctl | jrn | nvm | life | sec | sup => rfl

/-- An entry freed: its bytes written, and nothing else moved but the words that count it. -/
structure Freed (d e : Dev) (a : Nat) (bs : List Byte) : Prop where
  moves : (d.partsWritten (granuleParts a bs)).Moves e agedWords []

section

variable {d e : Dev} {a : Nat} {bs : List Byte} (h : d.Freed e a bs)
include h

theorem Freed.sameMap : d.SameMap e :=
  (d.sameMap_partsWritten _).trans (sameMap_of_moves (h.moves.mono (fun _ h => h) (by simp)))

theorem Freed.memRead (x n : Nat) : e.memRead x n = (d.partsWritten (granuleParts a bs)).memRead x n :=
  Memory.read_congr h.moves.memory.1

theorem Freed.get {f : Fld} (hf : f.addr ∉ agedWords) : e.get f = d.get f := h.moves.get hf

theorem Freed.ns : e.ns = d.ns := (h.moves.parts .time (by simp)).1

theorem Freed.front : e.front = d.front := h.moves.parts .front (by simp)

end

/-! ### The flow table -/

/-- A bucket of the flow table whose ways are read from memory that can be read: nothing is cached, its channel is not retired. -/
structure OpenBucket (d : Dev) (b : Nat) : Prop where
  channel : d.chanRetired (b % 512) = false
  cache : d.front.cache = []
  readable : ∀ x < 4, d.readable (d.flowAddr (4 * b + x)) 192 = true

theorem readEntry_open {d : Dev} {b x : Nat} (h : d.OpenBucket b) (hx : x < 4) (set : Nat) :
    d.readEntry (4 * b + x) set = (d, some (d.memRead (d.flowAddr (4 * b + x)) 192)) ∧ d.holdingSet (4 * b + x) set = none := by
  have hc (k : Nat) : d.cached? (4 * b + x) k = none := by
    unfold cached? cacheSet
    rw [h.cache]
    rfl
  have hh : d.holdingSet (4 * b + x) set = none := by simp [holdingSet, hc]
  have hi : (4 * b + x) / 4 = b := by omega
  refine ⟨?_, hh⟩
  unfold readEntry
  rw [hi, h.channel, hh, if_neg Bool.false_ne_true]
  exact fetch_of_readable (h.readable x hx)

theorem ageFlow_fresh {d : Dev} {b x : Nat} (h : d.OpenBucket b) (hx : x < 4)
    (hs : d.flowStale (d.memRead (d.flowAddr (4 * b + x)) 192) = false) : ageFlow d (4 * b + x) = d := by
  rw [ageFlow_eq, (readEntry_open h hx _).1]
  exact if_neg (Bool.eq_false_iff.1 hs)

theorem length_memRead (d : Dev) (a n : Nat) : (d.memRead a n).length = n := Memory.length_read _ _ _

theorem length_flowFreed {e : List Byte} (h : e.length = 192) : (flowFreed e).length = 192 := by
  unfold flowFreed
  rw [length_overlay (by simp [leBytes_length, h]), h]

theorem ageFlow_stale {d : Dev} {b x : Nat} (h : d.OpenBucket b) (hx : x < 4)
    (hs : d.flowStale (d.memRead (d.flowAddr (4 * b + x)) 192) = true) : ageFlow d (4 * b + x) =
      (d.partsWritten (granuleParts (d.flowAddr (4 * b + x)) (flowFreed (d.memRead (d.flowAddr (4 * b + x)) 192)))).countAged
        (d.get R.FLW_OCC_LIVE_FLOWS) := by
  obtain ⟨hread, hhold⟩ := readEntry_open h hx ((4 * b + x) / 4 % 2 ^ 16)
  have hlen := length_flowFreed (d.length_memRead (d.flowAddr (4 * b + x)) 192)
  have hput : d.putFlow (4 * b + x) ((4 * b + x) / 4 % 2 ^ 16) (flowFreed (d.memRead (d.flowAddr (4 * b + x)) 192))
      = d.partsWritten (granuleParts (d.flowAddr (4 * b + x)) (flowFreed (d.memRead (d.flowAddr (4 * b + x)) 192))) := by
    unfold putFlow
    rw [hhold]
    exact storeBy_of_readable (List.ne_nil_of_length_pos (by omega)) (by rw [hlen]; exact h.readable x hx)
  rw [ageFlow_eq, hread]
  exact (if_pos hs).trans (congrArg (fun e => countAged e (d.get R.FLW_OCC_LIVE_FLOWS)) hput)

theorem moves_countAged (d : Dev) (live : Nat) : d.Moves (d.countAged live) [C.FLW_AGED, R.FLW_OCC_LIVE_FLOWS.addr] [] :=
  ((Moves.refl d _ _).put (by simp)).bump (by simp)

/-- The ways of a bucket in which one entry is idle. -/
theorem each_ageFlow_one {d : Dev} {b w : Nat} (h : d.OpenBucket b) (hw : w < 4)
    (hs : d.flowStale (d.memRead (d.flowAddr (4 * b + w)) 192) = true)
    (ho : ∀ x < 4, x ≠ w → d.flowStale (d.memRead (d.flowAddr (4 * b + x)) 192) = false) :
    d.each [0, 1, 2, 3] (fun d w => ageFlow d (4 * b + w)) =
      (d.partsWritten (granuleParts (d.flowAddr (4 * b + w)) (flowFreed (d.memRead (d.flowAddr (4 * b + w)) 192)))).countAged
        (d.get R.FLW_OCC_LIVE_FLOWS) := by
  have lt {x : Nat} (hx : x ∈ [0, 1, 2, 3]) : x < 4 := by
    simp only [List.mem_cons, List.not_mem_nil, or_false] at hx
    omega
  have mem : w ∈ [0, 1, 2, 3] := by
    simp only [List.mem_cons, List.not_mem_nil, or_false]
    omega
  refine each_one (by decide) mem (ageFlow_stale h hw hs) (fun x hx hne => ageFlow_fresh h (lt hx) (ho x (lt hx) hne)) fun x hx hne => ?_
  have hlen := length_flowFreed (d.length_memRead (d.flowAddr (4 * b + w)) 192)
  obtain ⟨bs, hbs⟩ : ∃ bs, bs = flowFreed (d.memRead (d.flowAddr (4 * b + w)) 192) := ⟨_, rfl⟩
  rw [← hbs] at hlen ⊢
  have hfreed : d.Freed ((d.partsWritten (granuleParts (d.flowAddr (4 * b + w)) bs)).countAged (d.get R.FLW_OCC_LIVE_FLOWS))
      (d.flowAddr (4 * b + w)) bs := ⟨(moves_countAged _ _).mono (by decide) (fun _ h => h)⟩
  generalize (d.partsWritten (granuleParts (d.flowAddr (4 * b + w)) bs)).countAged (d.get R.FLW_OCC_LIVE_FLOWS) = e at hfreed ⊢
  have haddr (i : Nat) : e.flowAddr i = d.flowAddr i := by
    unfold flowAddr
    rw [hfreed.get (by decide)]
  have hopen : e.OpenBucket b := by
    refine ⟨(hfreed.sameMap.chanRetired _).trans h.channel, ?_, fun y hy => ?_⟩
    · rw [hfreed.front]
      exact h.cache
    · rw [haddr]
      exact hfreed.sameMap.readable (h.readable y hy)
  refine ageFlow_fresh hopen (lt hx) ?_
  have hmem : e.memRead (d.flowAddr (4 * b + x)) 192 = d.memRead (d.flowAddr (4 * b + x)) 192 := by
    refine (hfreed.memRead _ _).trans (d.memRead_partsWritten_apart ?_)
    rw [hlen]
    unfold flowAddr
    omega
  rw [haddr, hmem, ← ho x (lt hx) hne]
  have hidle : (R.FLW_POLICY_IDLE_MS (leAt (d.memRead (d.flowAddr (4 * b + x)) 192) 43 1 / 16)).addr ∉ agedWords := by
    have hlt := leAt_one_lt (d.memRead (d.flowAddr (4 * b + x)) 192) 43
    have hall : ∀ f < 16, (R.FLW_POLICY_IDLE_MS f).addr ∉ agedWords := by decide +kernel
    exact hall _ (by omega)
  unfold flowStale
  rw [hfreed.get hidle, hfreed.ns]

/-! ### An entity table -/

theorem ageEntity_fresh {d : Dev} {t a : Nat} (h : d.readable a 64 = true) (hs : d.entityStale t (d.memRead a 64) = false) :
    ageEntity t d a = d := by
  rw [ageEntity_eq, fetch_of_readable h]
  exact if_neg (Bool.eq_false_iff.1 hs)

theorem length_entityFreed {e : List Byte} (h : e.length = 64) : (entityFreed e).length = 64 := by
  unfold entityFreed
  rw [length_overlay (by simp [leBytes_length, h]), h]

theorem ageEntity_stale {d : Dev} {t a : Nat} (h : d.readable a 64 = true) (hs : d.entityStale t (d.memRead a 64) = true) :
    ageEntity t d a = (d.partsWritten (granuleParts a (entityFreed (d.memRead a 64)))).bump C.FLW_ENT_AGED := by
  have hlen := length_entityFreed (d.length_memRead a 64)
  have hput : d.storeBy true a (entityFreed (d.memRead a 64)) = d.partsWritten (granuleParts a (entityFreed (d.memRead a 64))) :=
    storeBy_of_readable (List.ne_nil_of_length_pos (by omega)) (by rw [hlen]; exact h)
  rw [ageEntity_eq, fetch_of_readable h]
  exact (if_pos hs).trans (congrArg (fun e => Dev.bump e C.FLW_ENT_AGED) hput)

/-- The ways of a bucket of an entity table in which one entry is idle. -/
theorem each_ageEntity_one {d : Dev} {t : Nat} (ht : t < 8) {a w : Nat} (h : ∀ x < 4, d.readable (a + 64 * x) 64 = true) (hw : w < 4)
    (hs : d.entityStale t (d.memRead (a + 64 * w) 64) = true)
    (ho : ∀ x < 4, x ≠ w → d.entityStale t (d.memRead (a + 64 * x) 64) = false) :
    d.each [0, 1, 2, 3] (fun d w => ageEntity t d (a + 64 * w)) =
      (d.partsWritten (granuleParts (a + 64 * w) (entityFreed (d.memRead (a + 64 * w) 64)))).bump C.FLW_ENT_AGED := by
  have lt {x : Nat} (hx : x ∈ [0, 1, 2, 3]) : x < 4 := by
    simp only [List.mem_cons, List.not_mem_nil, or_false] at hx
    omega
  have mem : w ∈ [0, 1, 2, 3] := by
    simp only [List.mem_cons, List.not_mem_nil, or_false]
    omega
  refine each_one (by decide) mem (ageEntity_stale (h w hw) hs) (fun x hx hne => ageEntity_fresh (h x (lt hx)) (ho x (lt hx) hne))
    fun x hx hne => ?_
  have hlen := length_entityFreed (d.length_memRead (a + 64 * w) 64)
  obtain ⟨bs, hbs⟩ : ∃ bs, bs = entityFreed (d.memRead (a + 64 * w) 64) := ⟨_, rfl⟩
  rw [← hbs] at hlen ⊢
  have hfreed : d.Freed ((d.partsWritten (granuleParts (a + 64 * w) bs)).bump C.FLW_ENT_AGED) (a + 64 * w) bs :=
    ⟨(Moves.refl _ _ _).bump (by decide)⟩
  generalize (d.partsWritten (granuleParts (a + 64 * w) bs)).bump C.FLW_ENT_AGED = e at hfreed ⊢
  refine ageEntity_fresh (hfreed.sameMap.readable (h x (lt hx))) ?_
  have hmem : e.memRead (a + 64 * x) 64 = d.memRead (a + 64 * x) 64 := by
    refine (hfreed.memRead _ _).trans (d.memRead_partsWritten_apart ?_)
    rw [hlen]
    omega
  have hidle : ∀ t < 8, (R.FLW_ENT_TABLE_IDLE_MS t).addr ∉ agedWords := by decide +kernel
  rw [hmem, ← ho x (lt hx) hne]
  unfold entityStale
  rw [hfreed.get (hidle t ht), hfreed.ns]

/-! ### A visit at its instant -/

section

variable (d : Dev) (t : Nat)

theorem moves_advanceClock : d.Moves (d.advanceClock t) [] [.time] := (Moves.refl d _ _).advanceClock (by simp) t

theorem get_advanceClock (f : Fld) : (d.advanceClock t).get f = d.get f := (d.moves_advanceClock t).get List.not_mem_nil

theorem fab_advanceClock : (d.advanceClock t).fab = d.fab := d.advance_fab _

theorem front_advanceClock : (d.advanceClock t).front = d.front := d.advance_front _

theorem memRead_advanceClock (a n : Nat) : (d.advanceClock t).memRead a n = d.memRead a n := by
  unfold memRead
  rw [fab_advanceClock]

theorem flowAddr_advanceClock (i : Nat) : (d.advanceClock t).flowAddr i = d.flowAddr i := by
  unfold flowAddr
  rw [get_advanceClock]

theorem sameMap_advanceClock : d.SameMap (d.advanceClock t) := sameMap_of_moves ((d.moves_advanceClock t).mono (by simp) (by simp))

theorem flowStale_advanceClock (e : List Byte) : (d.advanceClock t).flowStale e = true ↔ feValid e = true
    ∧ d.get (R.FLW_POLICY_IDLE_MS (leAt e 43 1 / 16)) ≠ 0
    ∧ leAt e 64 8 + d.get (R.FLW_POLICY_IDLE_MS (leAt e 43 1 / 16)) * 1000000 ≤ (d.advanceClock t).ns := by
  unfold flowStale
  rw [get_advanceClock]
  simp [and_assoc]

theorem entityStale_advanceClock (u : Nat) (e : List Byte) : (d.advanceClock t).entityStale u e = true ↔ bitsOf (leAt e 16 1) 0 1 = 1
    ∧ bitsOf (leAt e 16 1) 1 1 = 0 ∧ d.get (R.FLW_ENT_TABLE_IDLE_MS u) ≠ 0
    ∧ leAt e 40 8 + d.get (R.FLW_ENT_TABLE_IDLE_MS u) * 1000000 ≤ (d.advanceClock t).ns := by
  unfold entityStale
  rw [get_advanceClock]
  simp [and_assoc]

end

/-- What the visit of a bucket in which an entry has been freed leaves. -/
theorem Freed.visit {d y : Dev} {t a : Nat} {bs : List Byte} (h : (d.advanceClock t).Freed y a bs) (x : Front) :
    d.KeepsMemoryBut { y with front := x } a bs.length ∧ d.KeepsParts { y with front := x } [.time, .front, .fab]
      ∧ ({ y with front := x } : Dev).memRead a bs.length = bs ∧ y.ns = (d.advanceClock t).ns := by
  have hz := d.moves_advanceClock t
  refine ⟨⟨fun i hi => ?_, fun i => ?_⟩, ?_, ?_, h.ns⟩
  · exact (h.moves.memory.1 i).trans ((((d.advanceClock t).keepsMemoryBut_partsWritten a bs).1 i hi).trans (hz.memory.1 i))
  · exact (h.moves.memory.2 i).trans (hz.memory.2 i)
  · have hf : y.KeepsParts { y with front := x } [.time, .front, .fab] :=
      ((Moves.refl y [] [.time, .front, .fab]).withFront (by simp) x).parts
    exact (((hz.parts.mono (by simp)).trans ((keepsParts_partsWritten _ _).mono (by simp))).trans (h.moves.parts.mono (by simp))).trans hf
  · exact (h.memRead _ _).trans (memRead_partsWritten_same _ _ _)

/-- What a freed flow entry moves of the words. -/
theorem countAged_words {d w : Dev} (hw : d.KeepsWords w []) :
    d.Counts (w.countAged (d.get R.FLW_OCC_LIVE_FLOWS)) C.FLW_AGED 1
      ∧ (w.countAged (d.get R.FLW_OCC_LIVE_FLOWS)).get R.FLW_OCC_LIVE_FLOWS = d.get R.FLW_OCC_LIVE_FLOWS - 1
      ∧ d.KeepsWords (w.countAged (d.get R.FLW_OCC_LIVE_FLOWS)) [C.FLW_AGED, R.FLW_OCC_LIVE_FLOWS.addr] := by
  have hlt := d.get_lt R.FLW_OCC_LIVE_FLOWS
  generalize d.get R.FLW_OCC_LIVE_FLOWS = live at hlt ⊢
  have hm := w.moves_countAged live
  have hput := (Moves.refl w [R.FLW_OCC_LIVE_FLOWS.addr] []).put (f := R.FLW_OCC_LIVE_FLOWS) (v := live - 1) (by simp)
  have hc : w.Counts (w.countAged live) C.FLW_AGED 1 := counts_of_bump hput (by decide) (Moves.refl _ [] []) List.not_mem_nil
  have hb : (w.countAged live).get R.FLW_OCC_LIVE_FLOWS = (w.put R.FLW_OCC_LIVE_FLOWS (live - 1)).get R.FLW_OCC_LIVE_FLOWS :=
    ((Moves.refl _ [C.FLW_AGED] []).bump (by simp)).get (by decide)
  refine ⟨?_, ?_, fun a ha => (hm.words a ha).trans (hw a List.not_mem_nil)⟩
  · unfold Counts at hc ⊢
    rw [← hw _ List.not_mem_nil]
    exact hc
  · exact hb.trans ((get_put_same _ _ _ (by decide)).trans (Nat.mod_eq_of_lt ((Nat.sub_le _ _).trans_lt hlt)))

theorem feValid_flowFreed {e : List Byte} (h : e.length = 192) : feValid (flowFreed e) = false := by
  unfold feValid flowFreed
  rw [bitsOf_cleared (by omega)]
  rfl

end Dev

/-! ### The visits -/

theorem exec_ageingSweepVisit (t : Option (Fin 8)) (b : Nat) (s : State) :
    exec (.ageingSweepVisit t b) s = s.clocked (·.regionStopped 17) fun d => d.ageVisit (t.map (·.val)) b := rfl

/-- A visit by a walk that ages nothing. -/
theorem ageingSweepVisit_idle {s : State} (hr : s.RunsIn 17) {t : Option (Fin 8)} {b : Nat} (hb : b < s.dev.ageSize (t.map (·.val)))
    (hd : s.dev.NoIdle) : Completes (.ageingSweepVisit t b) s fun d => s.dev.Swept d
      ∧ (d.front.ageVisited = s.dev.ageFirst (t.map (·.val)) + b + 1 ∨ d.front.ageVisited = 0) := by
  have hs : s.dev.Swept (s.dev.ageVisit (t.map (·.val)) b) := by
    refine (Dev.Swept.refl s.dev).ageVisit hd (fun u hu => ?_) hb
    obtain ⟨v, -, rfl⟩ := Option.map_eq_some_iff.1 hu
    exact v.isLt
  exact .ofClocked hr.1 hr.2 (exec_ageingSweepVisit t b s) (hs.moves.parts .life (by decide)) ⟨hs, Dev.ageVisited_ageVisit hb⟩

theorem Dev.Swept.clockNs {d e : Dev} (h : d.Swept e) : d.clockNs ≤ e.clockNs := by
  have hs : e.sup = d.sup := h.moves.parts .sup (by decide)
  have hn := h.ns
  unfold Dev.clockNs
  rw [hs]
  omega

/-- A visit of the next bucket that only takes its time. -/
theorem ageingSweepVisit_keeps {s : State} (hr : s.RunsIn 17) {t : Option (Fin 8)} {b : Nat} (hb : b < s.dev.ageSize (t.map (·.val)))
    (hv : s.dev.front.ageVisited = s.dev.ageFirst (t.map (·.val)) + b) {due : Nat}
    (hy : s.dev.ageBucket (t.map (·.val)) b = s.dev.advanceClock due) : Completes (.ageingSweepVisit t b) s fun d =>
      d.ns = (s.dev.advanceClock due).ns ∧ d.clockNs = max s.dev.clockNs due ∧ s.dev.Moves d [] [.time, .front] := by
  have hz := s.dev.moves_advanceClock due
  refine ageingSweepVisit_completes hr hb hv hy (hz.parts .life (by decide)) fun x => ⟨rfl, ?_, ?_⟩
  · exact s.dev.clockNs_advanceClock due
  · exact (hz.mono (by simp) (by simp)).withFront (by simp) x

theorem ageBucket_flow (d : Dev) (b : Nat) : d.ageBucket none b =
    if (d.advanceClock (d.ageDue b)).chanRetired (b % 512) then d.advanceClock (d.ageDue b)
    else (d.advanceClock (d.ageDue b)).each [0, 1, 2, 3] fun d w => ageFlow d (4 * b + w) := by
  have hf : d.ageFirst none + b = b := Nat.zero_add b
  unfold Dev.ageBucket
  rw [hf]

theorem ageBucket_entity (d : Dev) (t b : Nat) : d.ageBucket (some t) b =
    if (d.advanceClock (d.ageDue (d.ageFirst (some t) + b))).inRetired (d.get (R.FLW_ENT_TABLE_BASE t) + 256 * b) then
      d.advanceClock (d.ageDue (d.ageFirst (some t) + b))
    else (d.advanceClock (d.ageDue (d.ageFirst (some t) + b))).each [0, 1, 2, 3] fun e w =>
      ageEntity t e (d.get (R.FLW_ENT_TABLE_BASE t) + 256 * b + 64 * w) := by
  unfold Dev.ageBucket
  dsimp only
  rw [Dev.get_advanceClock]

/-- A bucket of the flow table open to the sweep, at the instant of its visit. -/
theorem Dev.OpenBucket.advanceClock {d : Dev} {b : Nat} (h : d.OpenBucket b) (t : Nat) : (d.advanceClock t).OpenBucket b where
  channel := ((d.sameMap_advanceClock t).chanRetired _).trans h.channel
  cache := by
    rw [Dev.front_advanceClock]
    exact h.cache
  readable x hx := by
    rw [Dev.flowAddr_advanceClock]
    exact (d.sameMap_advanceClock t).readable (h.readable x hx)

theorem ageBucket_open {d : Dev} {b : Nat} (h : d.OpenBucket b) :
    d.ageBucket none b = (d.advanceClock (d.ageDue b)).each [0, 1, 2, 3] fun d w => ageFlow d (4 * b + w) := by
  rw [ageBucket_flow, (h.advanceClock _).channel]
  exact if_neg Bool.false_ne_true

theorem lt_four_of_mem {x : Nat} (h : x ∈ [0, 1, 2, 3]) : x < 4 := by
  simp only [List.mem_cons, List.not_mem_nil, or_false] at h
  omega

/-- The way of a bucket that a visit reads. -/
def Dev.wayBytes (d : Dev) (b x : Nat) : List Byte := d.memRead (d.flowAddr (4 * b + x)) 192

theorem Dev.wayBytes_advanceClock (d : Dev) (t b x : Nat) :
    (d.advanceClock t).memRead ((d.advanceClock t).flowAddr (4 * b + x)) 192 = d.wayBytes b x := by
  rw [Dev.flowAddr_advanceClock, Dev.memRead_advanceClock]
  rfl

theorem ageBucket_open_fresh {d : Dev} {b : Nat} (h : d.OpenBucket b)
    (hs : ∀ x < 4, (d.advanceClock (d.ageDue b)).flowStale (d.wayBytes b x) = false) : d.ageBucket none b = d.advanceClock (d.ageDue b) := by
  rw [ageBucket_open h]
  refine Dev.each_same fun x hx => Dev.ageFlow_fresh (h.advanceClock _) (lt_four_of_mem hx) ?_
  rw [Dev.wayBytes_advanceClock]
  exact hs x (lt_four_of_mem hx)

/-- What the visit of a bucket of the flow table with one idle entry leaves. -/
structure Dev.FlowAged (d e : Dev) (b w : Nat) : Prop where
  counts : d.Counts e C.FLW_AGED 1
  freed : feValid (e.memRead (d.flowAddr (4 * b + w)) 192) = false
  ns : e.ns = (d.advanceClock (d.ageDue b)).ns
  live : e.get R.FLW_OCC_LIVE_FLOWS = d.get R.FLW_OCC_LIVE_FLOWS - 1
  memory : d.KeepsMemoryBut e (d.flowAddr (4 * b + w)) 192
  words : d.KeepsWords e [C.FLW_AGED, R.FLW_OCC_LIVE_FLOWS.addr]
  parts : d.KeepsParts e [.time, .front, .fab]

theorem flowAged_ageBucket {d : Dev} {b w : Nat} (h : d.OpenBucket b) (hw : w < 4)
    (hs : (d.advanceClock (d.ageDue b)).flowStale (d.wayBytes b w) = true)
    (ho : ∀ x < 4, x ≠ w → (d.advanceClock (d.ageDue b)).flowStale (d.wayBytes b x) = false) (x : Front) :
    d.FlowAged { d.ageBucket none b with front := x } b w := by
  have hlen : (Dev.flowFreed (d.wayBytes b w)).length = 192 := Dev.length_flowFreed (d.length_memRead _ _)
  have hvalid : feValid (Dev.flowFreed (d.wayBytes b w)) = false := Dev.feValid_flowFreed (d.length_memRead _ _)
  rw [ageBucket_open h, Dev.each_ageFlow_one (h.advanceClock _) hw (by rw [Dev.wayBytes_advanceClock]; exact hs)
    (fun y hy hne => by rw [Dev.wayBytes_advanceClock]; exact ho y hy hne), Dev.wayBytes_advanceClock, Dev.flowAddr_advanceClock,
    Dev.get_advanceClock]
  generalize Dev.flowFreed (d.wayBytes b w) = bs at hlen hvalid ⊢
  have hfreed : (d.advanceClock (d.ageDue b)).Freed
      (((d.advanceClock (d.ageDue b)).partsWritten (granuleParts (d.flowAddr (4 * b + w)) bs)).countAged (d.get R.FLW_OCC_LIVE_FLOWS))
      (d.flowAddr (4 * b + w)) bs := ⟨(Dev.moves_countAged _ _).mono (by decide) (fun _ h => h)⟩
  obtain ⟨hcount, hlive, hwords⟩ := Dev.countAged_words (d := d)
    (w := (d.advanceClock (d.ageDue b)).partsWritten (granuleParts (d.flowAddr (4 * b + w)) bs)) (d.moves_advanceClock _).words
  generalize ((d.advanceClock (d.ageDue b)).partsWritten (granuleParts (d.flowAddr (4 * b + w)) bs)).countAged (d.get R.FLW_OCC_LIVE_FLOWS)
    = y at hfreed hcount hlive hwords ⊢
  obtain ⟨hmem, hparts, hread, hns⟩ := hfreed.visit x
  rw [hlen] at hmem hread
  exact ⟨hcount, by rw [hread, hvalid], hns, hlive, hmem, hwords, hparts⟩

theorem ageBucket_read {d : Dev} {t b : Nat} (h : ∀ x < 4, d.readable (d.get (R.FLW_ENT_TABLE_BASE t) + 256 * b + 64 * x) 64 = true) :
    d.ageBucket (some t) b = (d.advanceClock (d.ageDue (d.ageFirst (some t) + b))).each [0, 1, 2, 3] fun e w =>
      ageEntity t e (d.get (R.FLW_ENT_TABLE_BASE t) + 256 * b + 64 * w) := by
  have hg : (d.get (R.FLW_ENT_TABLE_BASE t) + 256 * b) / 64 ∈ granules (d.get (R.FLW_ENT_TABLE_BASE t) + 256 * b) 64 :=
    Dev.mem_granules.2 (by omega)
  have hr := (Dev.takes_of_readable (h 0 (by decide)) hg).retired
  rw [ageBucket_entity, (d.sameMap_advanceClock _).inRetired, hr]
  exact if_neg Bool.false_ne_true

theorem ageBucket_read_fresh {d : Dev} {t b : Nat} (h : ∀ x < 4, d.readable (d.get (R.FLW_ENT_TABLE_BASE t) + 256 * b + 64 * x) 64 = true)
    (hs : ∀ x < 4, (d.advanceClock (d.ageDue (d.ageFirst (some t) + b))).entityStale t
      (d.memRead (d.get (R.FLW_ENT_TABLE_BASE t) + 256 * b + 64 * x) 64) = false) :
    d.ageBucket (some t) b = d.advanceClock (d.ageDue (d.ageFirst (some t) + b)) := by
  rw [ageBucket_read h]
  refine Dev.each_same fun x hx => Dev.ageEntity_fresh ((d.sameMap_advanceClock _).readable (h x (lt_four_of_mem hx))) ?_
  rw [Dev.memRead_advanceClock]
  exact hs x (lt_four_of_mem hx)

/-- What the visit of a bucket of an entity table with one idle entry, at an address, leaves. -/
structure Dev.EntityAged (d e : Dev) (a due : Nat) : Prop where
  counts : d.Counts e C.FLW_ENT_AGED 1
  freed : bitsOf (leAt (e.memRead a 64) 16 1) 0 1 = 0
  ns : e.ns = (d.advanceClock due).ns
  memory : d.KeepsMemoryBut e a 64
  words : d.KeepsWords e [C.FLW_ENT_AGED]
  parts : d.KeepsParts e [.time, .front, .fab]

theorem entityAged_ageBucket {d : Dev} {t b w : Nat} (ht : t < 8)
    (h : ∀ x < 4, d.readable (d.get (R.FLW_ENT_TABLE_BASE t) + 256 * b + 64 * x) 64 = true) (hw : w < 4)
    (hs : (d.advanceClock (d.ageDue (d.ageFirst (some t) + b))).entityStale t
      (d.memRead (d.get (R.FLW_ENT_TABLE_BASE t) + 256 * b + 64 * w) 64) = true)
    (ho : ∀ x < 4, x ≠ w → (d.advanceClock (d.ageDue (d.ageFirst (some t) + b))).entityStale t
      (d.memRead (d.get (R.FLW_ENT_TABLE_BASE t) + 256 * b + 64 * x) 64) = false) (x : Front) :
    d.EntityAged { d.ageBucket (some t) b with front := x } (d.get (R.FLW_ENT_TABLE_BASE t) + 256 * b + 64 * w)
      (d.ageDue (d.ageFirst (some t) + b)) := by
  rw [ageBucket_read h]
  generalize d.ageDue (d.ageFirst (some t) + b) = due at hs ho ⊢
  generalize d.get (R.FLW_ENT_TABLE_BASE t) + 256 * b = a at h hs ho ⊢
  have hfree : bitsOf (leAt (Dev.entityFreed (d.memRead (a + 64 * w) 64)) 16 1) 0 1 = 0 :=
    bitsOf_cleared (by rw [Dev.length_memRead]; decide)
  have hlen : (Dev.entityFreed (d.memRead (a + 64 * w) 64)).length = 64 := Dev.length_entityFreed (d.length_memRead _ _)
  rw [Dev.each_ageEntity_one ht (fun x hx => (d.sameMap_advanceClock _).readable (h x hx)) hw (by rw [Dev.memRead_advanceClock]; exact hs)
    (fun y hy hne => by rw [Dev.memRead_advanceClock]; exact ho y hy hne), Dev.memRead_advanceClock]
  generalize Dev.entityFreed (d.memRead (a + 64 * w) 64) = bs at hlen hfree ⊢
  have hm := (Dev.Moves.refl ((d.advanceClock due).partsWritten (granuleParts (a + 64 * w) bs)) [C.FLW_ENT_AGED] []).bump
    (a := C.FLW_ENT_AGED) (n := 1) (by simp)
  have hcount := Dev.counts_of_bump (Dev.Moves.refl ((d.advanceClock due).partsWritten (granuleParts (a + 64 * w) bs)) [] [])
    (List.not_mem_nil (a := C.FLW_ENT_AGED)) (Dev.Moves.refl _ [] []) (n := 1) List.not_mem_nil
  have hfreed : (d.advanceClock due).Freed (((d.advanceClock due).partsWritten (granuleParts (a + 64 * w) bs)).bump C.FLW_ENT_AGED)
      (a + 64 * w) bs := ⟨hm.mono (by decide) (fun _ h => h)⟩
  have hz := (d.moves_advanceClock due).words
  generalize ((d.advanceClock due).partsWritten (granuleParts (a + 64 * w) bs)).bump C.FLW_ENT_AGED = y at hm hcount hfreed ⊢
  obtain ⟨hmem, hparts, hread, hns⟩ := hfreed.visit x
  rw [hlen] at hmem hread
  refine ⟨?_, by rw [hread, hfree], hns, hmem, fun v hv => (hm.words v hv).trans (hz v List.not_mem_nil), hparts⟩
  exact hcount.trans (by rw [← hz _ List.not_mem_nil]; rfl)

/-- Settles O37: a release by `Dev.release_eq`, a walk that ages nothing by `Dev.Swept`, the visit of a bucket entry by entry. -/
theorem releaseAndAgeing : Obligations.ReleaseAndAgeing := by
  intro s hrun
  refine ⟨fun p sh hreg hp hs hsp hl hm hsh => ?_, fun hreg => ⟨fun id hn => ?_, fun p hp hn => ?_⟩, fun t b hreg hb hf he => ?_,
    fun t b hreg hb => ?_, fun b hreg hb hv hret => ?_, fun b hreg hb hv hret hc hread => ?_, fun t b hreg hb hbase hv => ?_⟩
  · have hr : s.RunsIn 20 := ⟨hrun, hreg⟩
    have path (d : Dev) (h : s.dev.LeavesPath d p) := And.intro h.gone (And.intro h.others (And.intro h.front (And.intro h.memory h.keeps)))
    refine ⟨fun hu hg => ?_, fun hu hg => ?_, fun hg => ?_⟩
    · exact (packetRelease_joins hr hp hs hm hsh hsp hl hu hg).mono fun d h => ⟨path d h.1, h.2⟩
    · exact (packetRelease_counts hr hp hs hm hsh hsp hu hg).mono fun d h => ⟨path d h.1, h.2⟩
    · exact (packetRelease_gone hr hp hs hm hsh hg).mono fun d h => ⟨path d h.1, h.2⟩
  · exact exec_of_unchanged (exec_packetRelease s id) (packetRelease_of_none hn)
  · exact exec_of_unchanged (exec_packetRelease s p.id) (packetRelease_of_not hp hn)
  · refine (ageingSweepVisit_idle ⟨hrun, hreg⟩ hb ⟨hf, he⟩).mono fun d ⟨h, hv⟩ => ?_
    have hn : ∀ a ∈ Dev.agedWords, a ∉ Dev.errorWords := by decide
    exact ⟨fun a ha => h.moves.words a (hn a ha), h.moves.memory, h.cache, h.clockNs, hv, h.moves.parts.mono (by simp [Dev.errorParts])⟩
  · exact exec_of_unchanged (exec_ageingSweepVisit t b s) (Dev.ageVisit_of_le hb)
  · have hy : s.dev.ageBucket none b = s.dev.advanceClock (s.dev.ageDue b) := by
      rw [ageBucket_flow, (s.dev.sameMap_advanceClock _).chanRetired, hret]
      exact if_pos rfl
    have hv : s.dev.front.ageVisited = s.dev.ageFirst none + b := hv.trans (Nat.zero_add b).symm
    exact (ageingSweepVisit_keeps (t := none) ⟨hrun, hreg⟩ hb hv hy).mono fun d ⟨_, hc, hm⟩ => ⟨hm.words, hm.memory, hc, hm.parts⟩
  · have hopen : s.dev.OpenBucket b := ⟨hret, hc, hread⟩
    have hv : s.dev.front.ageVisited = s.dev.ageFirst none + b := hv.trans (Nat.zero_add b).symm
    have stale (x : Nat) := s.dev.flowStale_advanceClock (s.dev.ageDue b) (s.dev.wayBytes b x)
    refine ⟨fun hno => ?_, fun w hw hst ho _ => ?_⟩
    · have hy := ageBucket_open_fresh hopen fun x hx => Bool.eq_false_iff.2 fun h => hno x hx ((stale x).1 h)
      exact (ageingSweepVisit_keeps (t := none) ⟨hrun, hreg⟩ hb hv hy).mono fun d ⟨hn, _, hm⟩ => ⟨hn, hm.words, hm.memory, hm.parts⟩
    · have hone := flowAged_ageBucket hopen hw ((stale w).2 hst) fun x hx hne => Bool.eq_false_iff.2 fun h => ho x hx hne ((stale x).1 h)
      have hlife : (s.dev.ageBucket none b).life = s.dev.life := (hone s.dev.front).parts .life (by decide)
      refine ageingSweepVisit_completes (t := none) ⟨hrun, hreg⟩ hb hv rfl hlife fun x => ?_
      have h := hone x
      exact ⟨h.counts, h.freed, h.ns, fun _ => h.live, h.memory, h.words, h.parts⟩
  · intro a now st hread
    have stale (x : Nat) := s.dev.entityStale_advanceClock (s.dev.ageDue (s.dev.ageFirst (some t.val) + b)) t.val (s.dev.memRead (a x) 64)
    refine ⟨fun hno => ?_, fun w hw hst ho => ?_⟩
    · have hy := ageBucket_read_fresh hread fun x hx => Bool.eq_false_iff.2 fun h => hno x hx ((stale x).1 h)
      exact (ageingSweepVisit_keeps (t := some t) ⟨hrun, hreg⟩ hb hv hy).mono fun d ⟨hn, _, hm⟩ => ⟨hn, hm.words, hm.memory, hm.parts⟩
    · have hone := entityAged_ageBucket t.isLt hread hw ((stale w).2 hst) fun x hx hne =>
        Bool.eq_false_iff.2 fun h => ho x hx hne ((stale x).1 h)
      have hlife : (s.dev.ageBucket (some t.val) b).life = s.dev.life := (hone s.dev.front).parts .life (by decide)
      refine ageingSweepVisit_completes (t := some t) ⟨hrun, hreg⟩ hb hv rfl hlife fun x => ?_
      have h := hone x
      exact ⟨h.counts, h.freed, h.ns, h.memory, h.words, h.parts⟩

end Sys2Proof.Machine
end

section
/-! Receptions that fail their check (O11), and the holds of a sub-port's classes (R64 to R67): what the writing of a class's pause and
the leaving of the frames that it held may move (`Dev.Pauses`), how a hold ends (O13). -/

namespace Sys2Proof.Machine

/-! ### A reception that fails its check (R59) -/

theorem nodup_fcsCounts : ∀ sp : Fin 8, [C.PORT_FEC_CORR sp.val, C.PORT_FEC_UNCORR sp.val, C.PORT_RX_FCS_ERR sp.val].Nodup := by decide

theorem Dev.receive_bad {d : Dev} {sp unc cor : Nat} {bytes : List Byte} (hu : d.up sp = true) (hl : 64 ≤ bytes.length)
    (hh : bytes.length ≤ 9216) (hb : unc ≠ 0 ∨ bytes.drop (bytes.length - 4) ≠ fcsBytes (frameOf bytes)) :
    d.receive sp bytes unc cor = (d.bumps (rxCounts sp unc cor [(C.PORT_RX_FCS_ERR sp, 1)])).health 2 sp := by
  have hbad : (unc != 0 || bytes.drop (bytes.length - 4) != fcsBytes (frameOf bytes)) = true := by simpa using hb
  unfold Dev.receive
  rw [if_neg (by simp [hu])]
  exact (if_neg (by omega)).trans ((if_neg (by omega)).trans (if_pos hbad))

/-- Settles O11: the reception counts its codewords and itself, and goes no further. -/
theorem badFrameDiscarded : Obligations.BadFrameDiscarded := by
  intro s sp bytes unc cor hr hu hl hh hb
  have hx : exec (.receiveFrame sp bytes unc cor) s = s.clocked (·.regionStopped 18) fun d => d.receive sp.val bytes unc cor := rfl
  have hf := Dev.receive_bad (cor := cor) hu hl hh hb
  obtain ⟨⟨hunc, hcor⟩, hbad, -⟩ := Dev.moves_badReception (d := s.dev) (unc := unc) (cor := cor) (nodup_fcsCounts sp) 2
  have hm : s.dev.Moves ((s.dev.bumps (rxCounts sp.val unc cor [(C.PORT_RX_FCS_ERR sp.val, 1)])).health 2 sp.val)
      [C.PORT_RX_FCS_ERR sp.val, C.PORT_FEC_UNCORR sp.val, C.PORT_FEC_CORR sp.val] [.lpe] :=
    ((s.dev.moves_bumps _ _).mono (by simp [rxCounts]) (fun _ h => h)).health (by simp) _ _ _
  refine .ofClocked hr.1 hr.2 hx (by rw [hf]; exact hm.parts .life (by simp)) ?_
  rw [hf]
  exact ⟨hbad, hunc, hcor, hm.words, hm.parts .port (by simp), hm.parts .front (by simp), hm.parts, hm.memory⟩

/-! ### Sub-ports changed one by one -/

theorem getElem?_modifyNth_other {α : Type} {xs : List α} {i j : Nat} (h : j ≠ i) (f : α → α) : (modifyNth i f xs)[j]? = xs[j]? := by
  induction xs generalizing i j with
  | nil => simp [modifyNth]
  | cons y ys ih =>
    cases i with
    | zero =>
      obtain ⟨k, rfl⟩ := Nat.exists_eq_succ_of_ne_zero h
      rfl
    | succ i =>
      cases j with
      | zero => rfl
      | succ j => exact ih (by omega)

/-- A sub-port's own state. -/
def Dev.sub (d : Dev) (sp : Nat) : SubPort := d.port.subs.getD sp SubPort.empty

theorem Dev.sub_modSub (d : Dev) (sp x : Nat) (f : SubPort → SubPort) :
    (d.modSub sp f).sub x = if x = sp ∧ x < d.port.subs.length then f (d.sub x) else d.sub x :=
  getD_modifyNth _ _ _ _ _

/-- What a change of a sub-port's state keeps of it, whichever sub-port it is. -/
theorem Dev.sub_modSub_keeps {β : Type} (d : Dev) (sp x : Nat) {f : SubPort → SubPort} (p : SubPort → β) (h : ∀ s, p (f s) = p s) :
    p ((d.modSub sp f).sub x) = p (d.sub x) := by
  rw [sub_modSub]
  split
  · exact h _
  · rfl

/-! ### What a hold's change may move -/

/-- The words of a hold of a class of a sub-port: its `PAUSED` bit, and those of the frames that leave at its end. -/
def holdWords (sp : Nat) : List Nat := (R.PORT_SUBPORT_STAT_PAUSED sp).addr :: ownWords sp

/-- From `d` to `e` the holds of a sub-port's classes have changed, and frames of the device's own that they held have left. -/
structure Dev.Pauses (d e : Dev) (sp : Nat) : Prop where
  moves : d.Moves e (holdWords sp) [.port, .lpe]
  port : e.port = { d.port with subs := e.port.subs, sent := e.port.sent }
  others : ∀ x, x ≠ sp → e.port.subs[x]? = d.port.subs[x]?
  /-- No sub-port and no class comes or goes. -/
  subs : e.port.subs.length = d.port.subs.length
  classes : (e.sub sp).pause.length = (d.sub sp).pause.length
  idle : d.ownQueue sp = [] → d.Moves e [(R.PORT_SUBPORT_STAT_PAUSED sp).addr] [.port] ∧ e.port.sent = d.port.sent ∧ e.ownQueue sp = []

/-- The state of a sub-port shows in a word of its own. -/
theorem paused_not_mem_ownWords : ∀ sp < 8, (R.PORT_SUBPORT_STAT_PAUSED sp).addr ∉ ownWords sp := by decide

theorem config_not_mem_holdWords : ∀ sp < 8, R.PORT_CFG_BREAKOUT.addr ∉ holdWords sp := by decide

theorem linkUp_addr (sp : Nat) : (R.PORT_SUBPORT_STAT_LINK_UP sp).addr = (R.PORT_SUBPORT_STAT_PAUSED sp).addr := rfl

theorem Dev.classPaused_congr {d e : Dev} {sp : Nat} (h : e.get (R.PORT_SUBPORT_STAT_PAUSED sp) = d.get (R.PORT_SUBPORT_STAT_PAUSED sp))
    (c : Nat) : e.classPaused sp c = d.classPaused sp c := by
  unfold Dev.classPaused
  rw [h]

theorem Dev.pause_congr {d e : Dev} {sp : Nat} (h : (e.sub sp).pause = (d.sub sp).pause) (c : Nat) : e.pause sp c = d.pause sp c :=
  congrArg (fun l => List.getD l c ClassPause.none_) h

namespace Dev.Pauses

variable {d e e' : Dev} {sp : Nat}

theorem refl (d : Dev) (sp : Nat) : d.Pauses d sp :=
  ⟨.refl d _ _, rfl, fun _ _ => rfl, rfl, rfl, fun h => ⟨.refl d _ _, rfl, h⟩⟩

theorem trans (h : d.Pauses e sp) (h' : e.Pauses e' sp) : d.Pauses e' sp where
  moves := h.moves.trans h'.moves
  port := by rw [h'.port, h.port]
  others x hx := (h'.others x hx).trans (h.others x hx)
  subs := h'.subs.trans h.subs
  classes := h'.classes.trans h.classes
  idle hq := by
    obtain ⟨hm, hs, ho⟩ := h.idle hq
    obtain ⟨hm', hs', ho'⟩ := h'.idle ho
    exact ⟨hm.trans hm', hs'.trans hs, ho'⟩

theorem clockNs (h : d.Pauses e sp) : e.clockNs = d.clockNs :=
  Dev.clockNs_congr (h.moves.parts .time (by decide)).1 (h.moves.parts .sup (by decide))

theorem subPorts (h : d.Pauses e sp) (hsp : sp < 8) : e.subPorts = d.subPorts := by
  unfold Dev.subPorts
  rw [h.moves.get (config_not_mem_holdWords sp hsp)]

end Dev.Pauses

namespace Dev

theorem pauses_setPause (d : Dev) (sp c : Nat) (p : ClassPause) (b : Bool) : d.Pauses (d.setPause sp c p b) sp where
  moves := ((Moves.refl d _ _).modSub (by simp) sp _).put (by simp [holdWords])
  port := rfl
  others _ hx := getElem?_modifyNth_other hx _
  subs := length_modifyNth _ _ _
  classes := d.sub_modSub_keeps sp sp (fun s => s.pause.length) fun s => List.length_set
  idle hq := ⟨((Moves.refl d _ _).modSub (by simp) sp _).put (by simp), rfl,
    (d.sub_modSub_keeps (f := fun s => { s with pause := s.pause.set c p }) sp sp (·.own) fun _ => rfl).trans hq⟩

theorem pause_setPause (d : Dev) (sp c : Nat) (p : ClassPause) (b : Bool) (x : Nat) : (d.setPause sp c p b).pause sp x =
    if x = c ∧ sp < d.port.subs.length ∧ c < (d.sub sp).pause.length then p else d.pause sp x := by
  have hs : (d.setPause sp c p b).sub sp = if sp < d.port.subs.length then { d.sub sp with pause := (d.sub sp).pause.set c p } else d.sub sp := by
    have h := d.sub_modSub sp sp fun s => { s with pause := s.pause.set c p }
    simp only [true_and] at h
    exact h
  have hp : (d.setPause sp c p b).pause sp x = ((d.setPause sp c p b).sub sp).pause.getD x ClassPause.none_ := rfl
  have hd : d.pause sp x = (d.sub sp).pause.getD x ClassPause.none_ := rfl
  rw [hp, hs, hd]
  by_cases hl : sp < d.port.subs.length
  · simp only [hl, if_true, true_and, List.getD_eq_getElem?_getD, List.getElem?_set]
    by_cases hx : c = x
    · subst hx
      by_cases hc : c < (d.sub sp).pause.length
      · simp [hc]
      · simp [hc]
    · simp [hx, Ne.symm hx]
  · simp [hl]

/-! Frames of the device's own -/

theorem port_ownLeaves_sent (d : Dev) (sp : Nat) (f : OwnFrame) :
    (Dev.ownLeaves sp d f).port = { d.port with sent := (Dev.ownLeaves sp d f).port.sent } := by
  have hs (e : Dev) (he : e.port = d.port) : (e.send sp f.bytes).port = { d.port with sent := (e.send sp f.bytes).port.sent } := by
    unfold send
    split
    · rw [bump_port, bump_port, he]
    · rw [he]
  unfold ownLeaves
  cases f.kind with
  | plain => exact hs _ rfl
  | journalExport => exact hs _ (d.bump_port _ _)
  | loupeExport => exact hs _ (d.bump_port _ _)
  | delayReq q => exact hs _ rfl

theorem port_each_ownLeaves_sent (d : Dev) (sp : Nat) (fs : List OwnFrame) :
    (d.each fs (Dev.ownLeaves sp)).port = { d.port with sent := (d.each fs (Dev.ownLeaves sp)).port.sent } := by
  refine each_inv (fun e => e.port = { d.port with sent := e.port.sent }) fs _ d rfl fun e f h => ?_
  rw [port_ownLeaves_sent, h]

/-- The frames that wait leave, or wait on. -/
theorem subs_drainOwn (d : Dev) (sp : Nat) : (d.drainOwn sp).port =
    { d.port with subs := (if d.classPaused sp (d.get R.PORT_CFG_OWN_CLASS) then d else d.modSub sp fun s => { s with own := [] }).port.subs,
                  sent := (d.drainOwn sp).port.sent } := by
  unfold drainOwn
  split
  · rfl
  · exact port_each_ownLeaves_sent _ sp _

theorem sub_drainOwn_keeps {β : Type} (d : Dev) (sp x : Nat) (p : SubPort → β) (h : ∀ s : SubPort, p { s with own := [] } = p s) :
    p ((d.drainOwn sp).sub x) = p (d.sub x) := by
  unfold sub
  rw [subs_drainOwn]
  split
  · rfl
  · exact d.sub_modSub_keeps sp x p h

theorem pauses_drainOwn (d : Dev) (sp : Nat) : d.Pauses (d.drainOwn sp) sp where
  moves := (Moves.refl d _ _).drainOwn (by simp) (by simp) (by simp [holdWords])
  port := by rw [subs_drainOwn]
  others x hx := by
    rw [subs_drainOwn]
    split
    · rfl
    · exact getElem?_modifyNth_other hx _
  subs := by
    rw [subs_drainOwn]
    split
    · rfl
    · exact length_modifyNth _ _ _
  classes := d.sub_drainOwn_keeps sp sp (fun s => s.pause.length) fun _ => rfl
  idle hq := by
    unfold drainOwn
    rw [hq]
    split
    · exact ⟨.refl d _ _, rfl, hq⟩
    · refine ⟨(Moves.refl d _ _).modSub (by simp) sp _, rfl, ?_⟩
      have h := d.sub_modSub sp sp fun s => { s with own := [] }
      refine (congrArg SubPort.own h).trans ?_
      split
      · rfl
      · exact hq

theorem pause_drainOwn (d : Dev) (sp c : Nat) : (d.drainOwn sp).pause sp c = d.pause sp c :=
  pause_congr (d.sub_drainOwn_keeps sp sp (·.pause) fun _ => rfl) c

theorem paused_drainOwn (d : Dev) {sp : Nat} (hsp : sp < 8) :
    (d.drainOwn sp).get (R.PORT_SUBPORT_STAT_PAUSED sp) = d.get (R.PORT_SUBPORT_STAT_PAUSED sp) :=
  ((Moves.refl d (ownWords sp) [.port, .lpe]).drainOwn (by simp) (by simp) (fun _ h => h)).get (paused_not_mem_ownWords sp hsp)

/-- While `OWN_CLASS` is not held the frames that wait leave a sub-port that is up, in their order. -/
theorem ownLeft_drainOwn {d : Dev} {sp : Nat} (hsp : sp < 8) (hu : d.up sp = true) (hl : sp < d.port.subs.length)
    (hp : d.classPaused sp (d.get R.PORT_CFG_OWN_CLASS) = false) : d.OwnLeft (d.drainOwn sp) sp := by
  have hport : (d.drainOwn sp).port = { (d.modSub sp fun s => { s with own := [] }).port with
      sent := d.port.sent ++ (d.ownQueue sp).map fun f => Sent.frame sp (padTo (max 60 f.bytes.length) f.bytes) } := by
    unfold drainOwn
    rw [if_neg (by simp [hp])]
    exact port_each_ownLeaves (d := d.modSub sp fun s => { s with own := [] }) hsp hu _
  refine ⟨?_, by rw [hport]⟩
  rw [ownQueue, hport]
  exact d.ownQueue_modSub hl _

/-! ### A hold ended (R65, R66) -/

theorem pauses_endPause (d : Dev) (sp c : Nat) (p : ClassPause) : d.Pauses (d.endPause sp c p) sp :=
  (d.pauses_setPause sp c p false).trans (pauses_drainOwn _ sp)

theorem paused_endPause (d : Dev) {sp c : Nat} (hsp : sp < 8) (hc : c < 8) (p : ClassPause) :
    (d.endPause sp c p).get (R.PORT_SUBPORT_STAT_PAUSED sp) = setBits (d.get (R.PORT_SUBPORT_STAT_PAUSED sp)) c 1 0 :=
  (paused_drainOwn _ hsp).trans (d.paused_setPause sp c p false hc)

theorem classPaused_endPause (d : Dev) {sp c : Nat} (hsp : sp < 8) (hc : c < 8) (p : ClassPause) (x : Nat) :
    (d.endPause sp c p).classPaused sp x = if x = c then false else d.classPaused sp x :=
  (classPaused_congr (paused_drainOwn _ hsp) x).trans (d.classPaused_setPause sp c p false hc x)

theorem pause_endPause (d : Dev) (sp c : Nat) (p : ClassPause) (x : Nat) : (d.endPause sp c p).pause sp x =
    if x = c ∧ sp < d.port.subs.length ∧ c < (d.sub sp).pause.length then p else d.pause sp x :=
  (pause_drainOwn _ sp x).trans (d.pause_setPause sp c p false x)

/-- The end of the hold of `OWN_CLASS`. -/
theorem ownLeft_endPause {d : Dev} {sp c : Nat} (hsp : sp < 8) (hc : c = d.get R.PORT_CFG_OWN_CLASS) (hu : d.up sp = true)
    (hl : sp < d.port.subs.length) (p : ClassPause) : d.OwnLeft (d.endPause sp c p) sp := by
  obtain ⟨z, hz⟩ : ∃ z, z = d.setPause sp c p false := ⟨_, rfl⟩
  have hc8 : c < 8 := hc ▸ d.get_lt R.PORT_CFG_OWN_CLASS
  have hown : z.get R.PORT_CFG_OWN_CLASS = c := by
    rw [hc, hz, setPause, get_put_other]
    · rfl
    · simp only [R.PORT_CFG_OWN_CLASS, R.PORT_SUBPORT_STAT_PAUSED, if_pos hsp]
      omega
  have hup : z.up sp = true := by
    rw [← hu, hz, up, on, setPause, get_put_apart _ _ _ _ (by simp [R.PORT_SUBPORT_STAT_PAUSED])
      (by simp [R.PORT_SUBPORT_STAT_LINK_UP, R.PORT_SUBPORT_STAT_PAUSED])]
    rfl
  have hp : z.classPaused sp (z.get R.PORT_CFG_OWN_CLASS) = false := by
    rw [hown, hz, classPaused_setPause _ _ _ _ _ hc8, if_pos rfl]
  have hq : z.ownQueue sp = d.ownQueue sp := hz ▸ d.sub_modSub_keeps sp sp (·.own) fun _ => rfl
  obtain ⟨hempty, hsent⟩ := ownLeft_drainOwn hsp hup (by rw [hz, (d.pauses_setPause sp c p false).subs]; exact hl) hp
  have he : d.endPause sp c p = z.drainOwn sp := hz ▸ rfl
  rw [he]
  refine ⟨hempty, ?_⟩
  rw [hsent, hq, hz]
  rfl

end Dev

end Sys2Proof.Machine
end

section
/-! The end of a hold by its quanta, by its ceiling, and the end of a window (R65 to R67); O13. -/

namespace Sys2Proof.Machine

/-- What the end of a class's hold leaves of its sub-port. -/
structure Dev.HoldEnded (d e : Dev) (sp c : Nat) : Prop where
  bits : e.get (R.PORT_SUBPORT_STAT_PAUSED sp) = setBits (d.get (R.PORT_SUBPORT_STAT_PAUSED sp)) c 1 0
  port : e.port = { d.port with subs := e.port.subs, sent := e.port.sent }
  others : ∀ x, x ≠ sp → e.port.subs[x]? = d.port.subs[x]?
  classes : ∀ x, x ≠ c → e.pause sp x = d.pause sp x
  left : c = d.get R.PORT_CFG_OWN_CLASS → d.up sp = true → sp < d.port.subs.length → d.OwnLeft e sp
  idle : d.ownQueue sp = [] → e.port.sent = d.port.sent

theorem Dev.HoldEnded.free {d e : Dev} {sp c : Nat} (h : d.HoldEnded e sp c) : e.classPaused sp c = false := by
  unfold Dev.classPaused
  rw [h.bits, bitsOf_setBits_same]
  rfl

/-- What the words of the port count does not touch it. -/
theorem Dev.HoldEnded.congr {d e x : Dev} {sp c : Nat} (h : d.HoldEnded e sp c) (hp : x.port = e.port)
    (hb : x.get (R.PORT_SUBPORT_STAT_PAUSED sp) = e.get (R.PORT_SUBPORT_STAT_PAUSED sp)) : d.HoldEnded x sp c where
  bits := hb.trans h.bits
  port := by rw [hp]; exact h.port
  others y hy := by rw [hp]; exact h.others y hy
  classes y hy := by unfold Dev.pause; rw [hp]; exact h.classes y hy
  left h1 h2 h3 := by unfold Dev.OwnLeft Dev.ownQueue; rw [hp]; exact h.left h1 h2 h3
  idle hq := by rw [hp]; exact h.idle hq

namespace Dev

theorem storm_endPause (d : Dev) {sp c : Nat} (hsp : sp < 8) (p : ClassPause) :
    (d.endPause sp c p).get (R.PORT_SUBPORT_STAT_STORM sp) = d.get (R.PORT_SUBPORT_STAT_STORM sp) := by
  have h : (d.endPause sp c p).get (R.PORT_SUBPORT_STAT_STORM sp) = (d.setPause sp c p false).get (R.PORT_SUBPORT_STAT_STORM sp) :=
    ((Moves.refl _ (ownWords sp) [.port, .lpe]).drainOwn (by simp) (by simp) (fun _ h => h)).get (paused_not_mem_ownWords sp hsp)
  rw [h, setPause, get_put_apart _ _ _ _ (by simp [R.PORT_SUBPORT_STAT_PAUSED])
    (by simp [R.PORT_SUBPORT_STAT_STORM, R.PORT_SUBPORT_STAT_PAUSED])]
  rfl

/-- A hold that ends at an instant of the oscillator. -/
def holdEndsAt (d : Dev) (t sp c : Nat) (p : ClassPause) : Dev := (d.advanceClock t).endPause sp c p

variable (d : Dev) (t : Nat) {sp c : Nat} (hsp : sp < 8) (hc : c < 8) (p : ClassPause)

theorem port_advanceClock : (d.advanceClock t).port = d.port := d.advance_port _

theorem clockNs_holdEndsAt : (d.holdEndsAt t sp c p).clockNs = max d.clockNs t :=
  (pauses_endPause _ sp c p).clockNs.trans (d.clockNs_advanceClock t)

theorem moves_holdEndsAt : d.Moves (d.holdEndsAt t sp c p) (holdWords sp) [.time, .port, .lpe] :=
  ((Moves.refl d _ _).advanceClock (by simp) t).trans ((pauses_endPause _ sp c p).moves.mono (fun _ h => h) (by simp))

theorem moves_holdEndsAt_idle (h : d.ownQueue sp = []) :
    d.Moves (d.holdEndsAt t sp c p) [(R.PORT_SUBPORT_STAT_PAUSED sp).addr] [.time, .port, .lpe] := by
  have hq : (d.advanceClock t).ownQueue sp = [] := by rw [ownQueue, port_advanceClock]; exact h
  obtain ⟨hm, -, -⟩ := (pauses_endPause _ sp c p).idle hq
  exact ((Moves.refl d _ _).advanceClock (by simp) t).trans (hm.mono (fun _ h => h) (by simp))

theorem pause_holdEndsAt (hl : sp < d.port.subs.length) (hcl : c < (d.port.subs.getD sp SubPort.empty).pause.length) :
    (d.holdEndsAt t sp c p).pause sp c = p := by
  unfold holdEndsAt
  rw [pause_endPause, if_pos]
  refine ⟨rfl, ?_, ?_⟩
  · rw [port_advanceClock]; exact hl
  · rw [sub, port_advanceClock]; exact hcl

include hsp hc in
theorem holdEnded_holdEndsAt : d.HoldEnded (d.holdEndsAt t sp c p) sp c := by
  have hz := d.port_advanceClock t
  have hp := pauses_endPause (d.advanceClock t) sp c p
  exact {
    bits := (paused_endPause _ hsp hc p).trans (by rw [get_advanceClock])
    port := by rw [← hz]; exact hp.port
    others := fun x hx => by rw [← hz]; exact hp.others x hx
    classes := fun x hx => by
      unfold holdEndsAt
      rw [pause_endPause, if_neg (fun h => hx h.1), pause, hz]
      rfl
    left := fun ho hu hl => by
      have h := ownLeft_endPause (d := d.advanceClock t) hsp (ho.trans (d.get_advanceClock t _).symm)
        (by rw [up, on, get_advanceClock]; exact hu) (hz.symm ▸ hl) p
      unfold OwnLeft ownQueue at h
      rw [hz] at h
      exact h
    idle := fun hq => by
      rw [← hz]
      exact (hp.idle (by rw [ownQueue, hz]; exact hq)).2.1 }

/-! ### The ceiling (R66, R67) -/

theorem quantaExpiry_held {d : Dev} {sp c : Nat} (h : d.classPaused sp c = true) : d.quantaExpiry sp c =
    d.holdEndsAt (d.pause sp c).until_ sp c
      { d.pause sp c with held := (d.pause sp c).held + ((d.pause sp c).until_ - (d.pause sp c).since) } := if_pos h

/-- The device after the hold that made the ceiling: the class ignores pause. -/
def ceilingHold (d : Dev) (sp c : Nat) : Dev :=
  d.holdEndsAt ((d.pause sp c).since + (d.ceilNs sp - (d.pause sp c).held)) sp c
    { d.pause sp c with held := d.ceilNs sp, ignoring := true }

/-- A class of a sub-port noted as a storm. -/
def noteStorm (d : Dev) (sp c : Nat) : Dev :=
  ((d.put (R.PORT_SUBPORT_STAT_STORM sp) (setBits (d.get (R.PORT_SUBPORT_STAT_STORM sp)) c 1 1)).bump (C.PORT_PAUSE_STORM sp)).health 3 sp

theorem pauseCeiling_held {d : Dev} {sp c : Nat} (h : d.classPaused sp c = true)
    (hp : d.get (R.PORT_SUBPORT_CFG_PAUSE_CEIL_PCT sp) < 100) : d.pauseCeiling sp c = (d.ceilingHold sp c).noteStorm sp c := by
  have hceil : (d.advanceClock ((d.pause sp c).since + (d.ceilNs sp - (d.pause sp c).held))).ceilNs sp = d.ceilNs sp := by
    unfold ceilNs
    rw [get_advanceClock]
  unfold pauseCeiling
  dsimp only
  rw [if_pos (by simp [h, hp]), hceil]
  rfl

end Dev

theorem storm_apart : ∀ sp < 8, C.PORT_PAUSE_STORM sp ∉ holdWords sp := by decide

theorem storm_addr_ne : ∀ sp < 8, (R.PORT_SUBPORT_STAT_STORM sp).addr ≠ C.PORT_PAUSE_STORM sp := by decide

namespace Dev

theorem moves_noteStorm (d : Dev) (sp c : Nat) :
    d.Moves (d.noteStorm sp c) [(R.PORT_SUBPORT_STAT_PAUSED sp).addr, C.PORT_PAUSE_STORM sp] [.lpe] :=
  (((Moves.refl d _ _).put (by simp [R.PORT_SUBPORT_STAT_STORM, R.PORT_SUBPORT_STAT_PAUSED])).bump (by simp)).health (by simp) _ _ _

theorem port_noteStorm (d : Dev) (sp c : Nat) : (d.noteStorm sp c).port = d.port := (d.moves_noteStorm sp c).parts .port (by simp)

/-- A field of the sub-port's state beside the storms. -/
theorem get_noteStorm_paused (d : Dev) {sp : Nat} (hsp : sp < 8) (c : Nat) :
    (d.noteStorm sp c).get (R.PORT_SUBPORT_STAT_PAUSED sp) = d.get (R.PORT_SUBPORT_STAT_PAUSED sp) := by
  unfold noteStorm
  rw [get_health, get_bump_other _ _ _ (R.PORT_SUBPORT_STAT_PAUSED sp) (storm_addr_ne sp hsp),
    get_put_apart _ _ _ _ (by simp [R.PORT_SUBPORT_STAT_STORM])
    (by simp [R.PORT_SUBPORT_STAT_STORM, R.PORT_SUBPORT_STAT_PAUSED])]

theorem get_noteStorm_storm (d : Dev) {sp c : Nat} (hsp : sp < 8) (hc : c < 8) : (d.noteStorm sp c).get (R.PORT_SUBPORT_STAT_STORM sp)
    = setBits (d.get (R.PORT_SUBPORT_STAT_STORM sp)) c 1 1 := by
  unfold noteStorm
  rw [get_health, get_bump_other _ _ _ _ (storm_addr_ne sp hsp), get_put_same _ _ _ (by simp [R.PORT_SUBPORT_STAT_STORM])]
  exact Nat.mod_eq_of_lt (setBits_lt _ _ _ _ _ (get_lt _ _) (by simp [R.PORT_SUBPORT_STAT_STORM]; omega))

theorem word_noteStorm (d : Dev) {sp : Nat} (hsp : sp < 8) (c : Nat) :
    (d.noteStorm sp c).word (C.PORT_PAUSE_STORM sp) = (d.word (C.PORT_PAUSE_STORM sp) + 1) % 2 ^ 64 := by
  unfold noteStorm
  rw [word_health, word_bump_same, word_put_other _ _ _ (storm_addr_ne sp hsp).symm]

end Dev

section

variable {s : State} {sp cls : Fin 8} (hr : s.RunsIn 18) (h : s.dev.classPaused sp.val cls.val = true)
include hr h

theorem quantaExpiry_completes {post : Dev → Prop} (hp : post (s.dev.quantaExpiry sp.val cls.val)) :
    Completes (.pauseQuantaExpiry sp cls) s post := by
  have hx : exec (.pauseQuantaExpiry sp cls) s = s.clocked (·.regionStopped 18) fun d => d.quantaExpiry sp.val cls.val := rfl
  refine .ofClocked hr.1 hr.2 hx ?_ hp
  rw [Dev.quantaExpiry_held h]
  exact (s.dev.moves_holdEndsAt _ _).parts .life (by decide)

theorem pauseCeiling_completes (hp : s.dev.get (R.PORT_SUBPORT_CFG_PAUSE_CEIL_PCT sp.val) < 100) {post : Dev → Prop}
    (hq : post ((s.dev.ceilingHold sp.val cls.val).noteStorm sp.val cls.val)) : Completes (.pauseCeilingReached sp cls) s post := by
  have hx : exec (.pauseCeilingReached sp cls) s = s.clocked (·.regionStopped 18) fun d => d.pauseCeiling sp.val cls.val := rfl
  have he := Dev.pauseCeiling_held h hp
  refine .ofClocked hr.1 hr.2 hx ?_ (by rw [he]; exact hq)
  rw [he, (Dev.moves_noteStorm _ _ _).parts .life (by decide)]
  exact (s.dev.moves_holdEndsAt _ _).parts .life (by decide)

end

/-! ### The end of a window (R66) -/

namespace Dev

/-- The instant at which the window that begins next begins. -/
def nextWindow (d : Dev) : Nat :=
  max d.port.pauseWindow (d.ns / 1000000) + (if d.port.pauseWindow < d.ns / 1000000 then 0 else 1)

/-- A class as it begins a window at `t` of the oscillator: it honours pause, its hold under way counts from there. -/
def freshPause (t : Nat) (p : ClassPause) : ClassPause := { p with since := max p.since t, held := 0, ignoring := false }

theorem pauseWindowEnd_eq (d : Dev) : ∃ t, d.pauseWindowEnd = { d.advance (d.nextWindow * 1000000) with
    port := { d.port with pauseWindow := d.nextWindow,
                          subs := d.port.subs.map fun s => { s with pause := s.pause.map (freshPause t) } } } := by
  have hw : d.nextWindow * 1000000 / 1000000 = d.nextWindow := Nat.mul_div_cancel _ (by decide)
  refine ⟨((d.nextWindow * 1000000 : Nat) - (d.advance (d.nextWindow * 1000000)).sup.skewNs : Int).toNat, ?_⟩
  have hn : max d.port.pauseWindow (d.ns / 1000000) + (if d.port.pauseWindow < d.ns / 1000000 then 0 else 1) = d.nextWindow := rfl
  have hf (t : Nat) : (fun p : ClassPause => { p with since := max p.since t, held := 0, ignoring := false }) = freshPause t := rfl
  simp only [pauseWindowEnd, hf, hn, hw, advance_port]

theorem port_pauseWindowEnd (d : Dev) : ∃ t, d.pauseWindowEnd.port = { d.port with
    pauseWindow := d.nextWindow, subs := d.port.subs.map fun s => { s with pause := s.pause.map (freshPause t) } } := by
  obtain ⟨t, h⟩ := d.pauseWindowEnd_eq
  exact ⟨t, by rw [h]⟩

theorem ns_pauseWindowEnd (d : Dev) : d.pauseWindowEnd.ns = max d.ns (d.nextWindow * 1000000) := by
  obtain ⟨t, h⟩ := d.pauseWindowEnd_eq
  have hns (e : Dev) (p : Port) : ({ e with port := p } : Dev).ns = e.ns := rfl
  rw [h, hns, advance_ns]

theorem nextWindow_spec (d : Dev) : d.port.pauseWindow < d.nextWindow
    ∧ d.nextWindow = max d.ns (d.nextWindow * 1000000) / 1000000 := by
  unfold nextWindow
  split <;> omega

theorem moves_pauseWindowEnd (d : Dev) : d.Moves d.pauseWindowEnd [] [.time, .port] := by
  obtain ⟨t, h⟩ := d.pauseWindowEnd_eq
  rw [h]
  exact ((Moves.refl d _ _).advance (by simp) _).withPort (by simp) _

end Dev

/-- Settles O13: a hold's end is `Dev.HoldEnded`, with the storm noted when the ceiling ends it; a window's end freshens every class. -/
theorem pauseEnds : Obligations.PauseEnds := by
  intro s hr
  refine ⟨fun sp cls => ?_, ?_⟩
  · intro p ended
    have hceil (h : s.dev.classPaused sp.val cls.val = false ∨ 100 ≤ s.dev.get (R.PORT_SUBPORT_CFG_PAUSE_CEIL_PCT sp.val)) :
        exec (.pauseCeilingReached sp cls) s = .next s := by
      refine exec_of_unchanged (halted := (·.regionStopped 18)) (f := fun d => d.pauseCeiling sp.val cls.val) rfl (if_neg ?_)
      rcases h with h | h
      · simp [h]
      · simp [Nat.not_lt.2 h]
    refine ⟨fun h => ?_, fun h hp => ?_, fun h => ⟨?_, hceil (.inl h)⟩, fun h => hceil (.inr h)⟩
    · refine quantaExpiry_completes hr h ?_
      rw [Dev.quantaExpiry_held h]
      have he := s.dev.holdEnded_holdEndsAt p.until_ sp.isLt cls.isLt { p with held := p.held + (p.until_ - p.since) }
      have hm := s.dev.moves_holdEndsAt p.until_ (sp := sp.val) (c := cls.val) { p with held := p.held + (p.until_ - p.since) }
      exact ⟨⟨he.free, he.bits, he.port, he.others, he.classes, he.left, he.idle, hm.parts, hm.memory⟩, s.dev.clockNs_holdEndsAt _ _,
        (Dev.storm_endPause _ sp.isLt _).trans (s.dev.get_advanceClock _ _), s.dev.pause_holdEndsAt _ _, hm.words,
        fun hq => (s.dev.moves_holdEndsAt_idle _ _ hq).words⟩
    · refine pauseCeiling_completes hr h hp ?_
      have hz := s.dev.holdEnded_holdEndsAt (p.since + (s.dev.ceilNs sp.val - p.held)) sp.isLt cls.isLt
        { p with held := s.dev.ceilNs sp.val, ignoring := true }
      obtain ⟨z, hdef⟩ : ∃ z, z = s.dev.ceilingHold sp.val cls.val := ⟨_, rfl⟩
      have hmz : s.dev.Moves z (holdWords sp.val) [.time, .port, .lpe] := hdef ▸ s.dev.moves_holdEndsAt _ _
      have hn := z.moves_noteStorm sp.val cls.val
      have he : s.dev.HoldEnded (z.noteStorm sp.val cls.val) sp.val cls.val :=
        Dev.HoldEnded.congr (hdef ▸ hz) (z.port_noteStorm _ _) (z.get_noteStorm_paused sp.isLt _)
      have hm : s.dev.Moves (z.noteStorm sp.val cls.val)
          ((R.PORT_SUBPORT_STAT_PAUSED sp.val).addr :: C.PORT_PAUSE_STORM sp.val :: ownWords sp.val) [.time, .port, .lpe] :=
        (hmz.mono (List.cons_subset_cons _ (List.subset_cons_self _ _)) (fun _ h => h)).trans (hn.mono (by simp) (by simp))
      have hclock : z.clockNs = max s.dev.clockNs (p.since + (s.dev.ceilNs sp.val - p.held)) := hdef ▸ s.dev.clockNs_holdEndsAt _ _
      have hstorm : z.get (R.PORT_SUBPORT_STAT_STORM sp.val) = s.dev.get (R.PORT_SUBPORT_STAT_STORM sp.val) := by
        rw [hdef]
        exact (Dev.storm_endPause _ sp.isLt _).trans (s.dev.get_advanceClock _ _)
      rw [← hdef]
      refine ⟨⟨he.free, he.bits, he.port, he.others, he.classes, he.left, he.idle, hm.parts, hm.memory⟩, ?_, ?_, ?_, fun hl hc => ?_,
        hm.words, fun hq => ?_⟩
      · rw [← hclock]
        exact Dev.clockNs_congr (hn.parts .time (by simp)).1 (hn.parts .sup (by simp))
      · rw [z.get_noteStorm_storm sp.isLt cls.isLt, hstorm]
      · rw [Dev.Counts, z.word_noteStorm sp.isLt, hmz.words _ (storm_apart _ sp.isLt)]
      · rw [Dev.pause, z.port_noteStorm, hdef]
        exact s.dev.pause_holdEndsAt _ _ hl hc
      · have hi : s.dev.Moves z [(R.PORT_SUBPORT_STAT_PAUSED sp.val).addr] [.time, .port, .lpe] :=
          hdef ▸ s.dev.moves_holdEndsAt_idle _ _ hq
        exact ((hi.mono (by simp) (fun _ h => h)).trans (hn.mono (fun _ h => h) (by simp))).words
    · exact exec_of_unchanged (halted := (·.regionStopped 18)) (f := fun d => d.quantaExpiry sp.val cls.val) rfl (if_neg (by simp [h]))
  · have hm := s.dev.moves_pauseWindowEnd
    obtain ⟨t, hport⟩ := s.dev.port_pauseWindowEnd
    obtain ⟨hlater, hwin⟩ := s.dev.nextWindow_spec
    have hx : exec .pauseWindowEnd s = s.clocked (·.regionStopped 18) Dev.pauseWindowEnd := rfl
    refine .ofClocked hr.1 hr.2 hx (hm.parts .life (by simp)) ?_
    rw [hport, s.dev.ns_pauseWindowEnd]
    refine ⟨hlater, hwin, rfl, ?_, ?_, ?_, rfl, hm.words, hm.parts, hm.memory⟩
    · intro sub hsub q hq
      obtain ⟨x, -, rfl⟩ := List.mem_map.1 hsub
      obtain ⟨y, -, rfl⟩ := List.mem_map.1 hq
      exact ⟨rfl, rfl⟩
    · rw [List.map_map]
      exact List.map_congr_left fun x _ => List.map_map
    · rw [List.map_map]
      rfl

end Sys2Proof.Machine
end

section
/-! MAC Control frames (R65): the pause times that a frame sets class by class (`Dev.HonouredAll`), and what becomes of the frame; O14. -/

namespace Sys2Proof.Machine

/-! ### A class's pause time set (R65, R66) -/

/-- What `q` quanta set for a class that does not ignore pause. -/
structure Dev.Honoured (d e : Dev) (sp c q : Nat) : Prop where
  frame : d.Pauses e sp
  held : e.classPaused sp c = decide (q ≠ 0)
  ends : q ≠ 0 → sp < d.port.subs.length → c < (d.sub sp).pause.length → (e.pause sp c).until_ = d.clockNs + d.quantaNs q
  others : ∀ x, x ≠ c → e.classPaused sp x = d.classPaused sp x ∧ e.pause sp x = d.pause sp x

namespace Dev

theorem honour_of_ignoring {d : Dev} {sp c : Nat} (h : (d.pause sp c).ignoring = true) (q : Nat) : d.honour sp c q = none := if_pos h

/-- A class that does not ignore pause is held until its quanta have passed, or let go where there are none. -/
theorem honour_of_heeding {d : Dev} {sp c : Nat} (h : (d.pause sp c).ignoring = false) (hsp : sp < 8) (hc : c < 8) (q : Nat) :
    ∃ e, d.honour sp c q = some e ∧ d.Honoured e sp c q := by
  have hn : ¬(d.pause sp c).ignoring = true := by simp [h]
  by_cases hq : q = 0
  · refine ⟨_, (if_neg hn).trans (if_pos hq), pauses_endPause d sp c _, ?_, fun h => absurd hq h, fun x hx => ⟨?_, ?_⟩⟩
    · rw [classPaused_endPause d hsp hc, if_pos rfl]
      simp [hq]
    · rw [classPaused_endPause d hsp hc, if_neg hx]
    · rw [pause_endPause, if_neg fun h => hx h.1]
  · refine ⟨_, (if_neg hn).trans (if_neg hq), pauses_setPause d sp c _ _, ?_, fun _ hl hcl => ?_, fun x hx => ⟨?_, ?_⟩⟩
    · rw [classPaused_setPause _ _ _ _ _ hc, if_pos rfl]
      simp [hq]
    · rw [pause_setPause, if_pos ⟨rfl, hl, hcl⟩]
    · rw [classPaused_setPause _ _ _ _ _ hc, if_neg hx]
    · rw [pause_setPause, if_neg fun h => hx h.1]

theorem Pauses.quantaNs {d e : Dev} {sp : Nat} (h : d.Pauses e sp) (hsp : sp < 8) (q : Nat) : e.quantaNs q = d.quantaNs q := by
  unfold Dev.quantaNs
  rw [h.subPorts hsp]

end Dev

/-! ### The pause times of several classes -/

/-- What the pause times that a frame names set, class by class; `any` says whether some class did not ignore pause. -/
structure Dev.HonouredAll (d e : Dev) (sp : Nat) (cqs : List (Nat × Nat)) (any : Bool) : Prop where
  frame : d.Pauses e sp
  some_ : any = cqs.any fun x => !(d.pause sp x.1).ignoring
  unchanged : any = false → e = d
  held : ∀ x ∈ cqs, (d.pause sp x.1).ignoring = false → e.classPaused sp x.1 = decide (x.2 ≠ 0)
  ends : ∀ x ∈ cqs, (d.pause sp x.1).ignoring = false → x.2 ≠ 0 → sp < d.port.subs.length → x.1 < (d.sub sp).pause.length →
    (e.pause sp x.1).until_ = d.clockNs + d.quantaNs x.2
  others : ∀ c, (∀ x ∈ cqs, x.1 = c → (d.pause sp c).ignoring = true) →
    e.classPaused sp c = d.classPaused sp c ∧ e.pause sp c = d.pause sp c

namespace Dev

/-- One class's turn in `Dev.honourAll`. -/
def honourTurn (sp : Nat) (p : Dev × Bool) (x : Nat × Nat) : Dev × Bool :=
  match p.1.honour sp x.1 x.2 with
  | some d => (d, true)
  | none => p

theorem honourAll_eq (d : Dev) (sp : Nat) (cqs : List (Nat × Nat)) : d.honourAll sp cqs = cqs.foldl (honourTurn sp) (d, false) := rfl

/-- Once a class has been set it stays noted that one was; the device goes on the same. -/
theorem foldl_honourTurn_true (d : Dev) (sp : Nat) (cqs : List (Nat × Nat)) :
    cqs.foldl (honourTurn sp) (d, true) = ((d.honourAll sp cqs).1, true) := by
  induction cqs generalizing d with
  | nil => rfl
  | cons x xs ih =>
    rw [honourAll_eq, List.foldl_cons, List.foldl_cons]
    unfold honourTurn
    dsimp only
    cases d.honour sp x.1 x.2 with
    | none => exact ih d
    | some e => exact (ih e).trans (congrArg (fun p => (p.1, true)) (ih e).symm)

theorem honourAll_cons_none {d : Dev} {sp : Nat} {x : Nat × Nat} (h : d.honour sp x.1 x.2 = none) (xs : List (Nat × Nat)) :
    d.honourAll sp (x :: xs) = d.honourAll sp xs := by
  rw [honourAll_eq, List.foldl_cons]
  unfold honourTurn
  rw [h]
  rfl

theorem honourAll_cons_some {d e : Dev} {sp : Nat} {x : Nat × Nat} (h : d.honour sp x.1 x.2 = some e) (xs : List (Nat × Nat)) :
    d.honourAll sp (x :: xs) = ((e.honourAll sp xs).1, true) := by
  rw [← foldl_honourTurn_true, honourAll_eq, List.foldl_cons]
  unfold honourTurn
  rw [h]

theorem honouredAll_honourAll (d : Dev) {sp : Nat} (hsp : sp < 8) {cqs : List (Nat × Nat)} (hc : ∀ x ∈ cqs, x.1 < 8)
    (hn : (cqs.map (·.1)).Nodup) : d.HonouredAll (d.honourAll sp cqs).1 sp cqs (d.honourAll sp cqs).2 := by
  induction cqs generalizing d with
  | nil => exact ⟨.refl d sp, rfl, fun _ => rfl, by simp, by simp, fun _ _ => ⟨rfl, rfl⟩⟩
  | cons x xs ih =>
    obtain ⟨hx, hxs⟩ := List.forall_mem_cons.1 hc
    obtain ⟨hfresh, hnd⟩ := List.nodup_cons.1 hn
    have hne : ∀ y ∈ xs, y.1 ≠ x.1 := fun y hy h => hfresh (List.mem_map.2 ⟨y, hy, h⟩)
    by_cases hi : (d.pause sp x.1).ignoring = true
    · have h := ih d hxs hnd
      rw [honourAll_cons_none (honour_of_ignoring hi _)]
      refine ⟨h.frame, ?_, h.unchanged, fun y hy hh => ?_, fun y hy hh => ?_,
        fun c hcs => h.others c fun y hy => hcs y (List.mem_cons_of_mem _ hy)⟩
      · rw [h.some_, List.any_cons, hi]
        rfl
      · rcases List.mem_cons.1 hy with rfl | hy
        · exact absurd hi (by simp [hh])
        · exact h.held y hy hh
      · rcases List.mem_cons.1 hy with rfl | hy
        · exact absurd hi (by simp [hh])
        · exact h.ends y hy hh
    · obtain ⟨e, he, hh⟩ := honour_of_heeding (Bool.eq_false_iff.2 hi) hsp hx x.2
      have h := ih e hxs hnd
      rw [honourAll_cons_some he]
      obtain ⟨hheld, hpause⟩ := h.others x.1 fun y hy hyx => absurd hyx (hne y hy)
      have hsame (y : Nat × Nat) (hy : y ∈ xs) : e.pause sp y.1 = d.pause sp y.1 := (hh.others y.1 (hne y hy)).2
      refine ⟨hh.frame.trans h.frame, ?_, nofun, fun y hy hyi => ?_, fun y hy hyi hq hl hcl => ?_, fun c hcs => ?_⟩
      · rw [List.any_cons, Bool.eq_false_iff.2 hi]
        rfl
      · rcases List.mem_cons.1 hy with rfl | hy
        · exact hheld.trans hh.held
        · exact h.held y hy (by rw [hsame y hy]; exact hyi)
      · rcases List.mem_cons.1 hy with rfl | hy
        · rw [hpause]
          exact hh.ends hq hl hcl
        · rw [h.ends y hy (by rw [hsame y hy]; exact hyi) hq (hh.frame.subs.symm ▸ hl) (hh.frame.classes.symm ▸ hcl), hh.frame.clockNs,
            hh.frame.quantaNs hsp]
      · have hcx : c ≠ x.1 := fun hcx => hi (hcx ▸ hcs x List.mem_cons_self hcx.symm)
        obtain ⟨h1, h2⟩ := hh.others c hcx
        obtain ⟨h3, h4⟩ := h.others c fun y hy hyc => by
          rw [h2]
          exact hcs y (List.mem_cons_of_mem _ hy) hyc
        exact ⟨h3.trans h1, h4.trans h2⟩

/-! ### The frame taken (R65) -/

/-- The classes that a MAC Control frame names: a PAUSE frame all, a PFC frame those of its vector. -/
def names (f : List Byte) (c : Nat) : Bool := beAt f 14 2 = 0x0001 || bitsOf (beAt f 16 2) c 1 = 1

/-- The quanta that it names for a class. -/
def quantaOf (f : List Byte) (c : Nat) : Nat := if beAt f 14 2 = 0x0001 then beAt f 16 2 else beAt f (18 + 2 * c) 2

/-- The pause times that it names. -/
def pauseTimes (f : List Byte) : List (Nat × Nat) := ((List.range 8).filter (names f)).map fun c => (c, quantaOf f c)

theorem pauseTimes_lt (f : List Byte) : ∀ x ∈ pauseTimes f, x.1 < 8 := by
  intro x hx
  obtain ⟨c, hc, rfl⟩ := List.mem_map.1 hx
  exact List.mem_range.1 (List.mem_of_mem_filter hc)

theorem nodup_pauseTimes (f : List Byte) : ((pauseTimes f).map (·.1)).Nodup := by
  have h : (pauseTimes f).map (·.1) = (List.range 8).filter (names f) := by
    unfold pauseTimes
    rw [List.map_map]
    exact List.map_id _
  rw [h]
  exact List.nodup_range.filter _

theorem mem_pauseTimes {f : List Byte} {c : Nat} (hc : c < 8) (h : names f c = true) : (c, quantaOf f c) ∈ pauseTimes f :=
  List.mem_map.2 ⟨c, List.mem_filter.2 ⟨List.mem_range.2 hc, h⟩, rfl⟩

/-- Whether the device takes a MAC Control frame for its own. -/
def addressed (d : Dev) (f : List Byte) : Bool := beAt f 0 6 = 0x0180C2000001 || beAt f 0 6 = d.get R.PORT_MAC_ADDR_MAC

/-- Whether it is a pause of the kind that its sub-port honours. -/
def pausesKind (d : Dev) (f : RxFrame) : Bool :=
  let pfc := d.on (R.PORT_SUBPORT_CFG_PFC_EN f.sp)
  (beAt f.bytes 14 2 = 0x0001 && !pfc) || (beAt f.bytes 14 2 = 0x0101 && pfc && beAt f.bytes 16 2 < 256)

/-- The device after pause times set, the frame counted when some class heeds it. -/
def countPause (sp : Nat) (p : Dev × Bool) : Dev := if p.2 then p.1.bump (C.PORT_RX_PAUSE sp) else p.1

theorem macControl_bad {d : Dev} {f : RxFrame} (h : d.addressed f.bytes = false ∨ d.pausesKind f = false) :
    d.macControl f = d.macCtlBad f.sp := by
  unfold macControl
  dsimp only
  by_cases ha : d.addressed f.bytes = true
  · have hk : d.pausesKind f = false := h.resolve_left (by simp [ha])
    simp only [pausesKind, Bool.or_eq_false_iff] at hk
    unfold addressed at ha
    rw [if_neg (by simp only [ha]; decide), hk.1, hk.2]
    rfl
  · unfold addressed at ha
    exact if_pos (by simp only [Bool.eq_false_iff.2 ha]; rfl)

theorem macControl_good {d : Dev} {f : RxFrame} (ha : d.addressed f.bytes = true) (hk : d.pausesKind f = true) :
    d.macControl f = countPause f.sp (d.honourAll f.sp (pauseTimes f.bytes)) := by
  unfold addressed at ha
  unfold macControl
  dsimp only
  rw [if_neg (by simp only [ha]; decide)]
  by_cases hop : beAt f.bytes 14 2 = 0x0001
  · have hp : d.on (R.PORT_SUBPORT_CFG_PFC_EN f.sp) = false := by simpa [pausesKind, hop] using hk
    have ht : pauseTimes f.bytes = (List.range 8).map fun c => (c, beAt f.bytes 16 2) := by
      unfold pauseTimes quantaOf
      rw [List.filter_eq_self.2 fun c _ => by simp [names, hop]]
      simp only [hop, if_true]
    rw [if_pos (by simp [hop, hp]), ht]
    rfl
  · have hp : (decide (beAt f.bytes 14 2 = 0x0101) && d.on (R.PORT_SUBPORT_CFG_PFC_EN f.sp) && decide (beAt f.bytes 16 2 < 256)) = true := by
      simpa [pausesKind, hop] using hk
    have ht : pauseTimes f.bytes = ((List.range 8).filter fun c => bitsOf (beAt f.bytes 16 2) c 1 = 1).map fun c =>
        (c, beAt f.bytes (18 + 2 * c) 2) := by
      unfold pauseTimes quantaOf names
      simp only [hop, decide_false, Bool.false_or, if_false]
    rw [if_neg (by simp [hop]), if_pos hp, ht]
    rfl

theorem moves_macCtlBad (d : Dev) (sp : Nat) : d.Moves (d.macCtlBad sp) [C.PORT_RX_MACCTL_BAD sp] [.lpe] :=
  ((Moves.refl d _ _).bump (by simp)).health (by simp) _ _ _

theorem moves_countPause (sp : Nat) (p : Dev × Bool) : p.1.Moves (countPause sp p) [C.PORT_RX_PAUSE sp] [] :=
  .ite ((Moves.refl _ _ _).bump (by simp)) (.refl _ _ _)

end Dev

theorem rxPause_apart : ∀ sp < 8, C.PORT_RX_PAUSE sp ∉ holdWords sp ∧ (R.PORT_SUBPORT_STAT_PAUSED sp).addr ≠ C.PORT_RX_PAUSE sp := by decide

section

variable {s : State} {f : RxFrame} {rest : List RxFrame}

theorem exec_pauseFrameReceive (s : State) : exec .pauseFrameReceive s = s.clocked (·.regionStopped 18) Dev.pauseFrameReceive := rfl

variable (hr : s.RunsIn 18) (hq : s.dev.port.macCtl = f :: rest)

/-- The device with its oldest MAC Control frame taken. -/
def Dev.macTaken (d : Dev) (rest : List RxFrame) : Dev := { d with port := { d.port with macCtl := rest } }

theorem Dev.moves_macTaken (d : Dev) (rest : List RxFrame) : d.Moves (d.macTaken rest) [] [.port] := (Moves.refl d _ _).withPort (by simp) _

include hq in
theorem Dev.pauseFrameReceive_cons : s.dev.pauseFrameReceive = (s.dev.macTaken rest).macControl f := by
  unfold Dev.pauseFrameReceive
  rw [hq]
  rfl

include hr hq in
theorem pauseFrameReceive_bad (h : s.dev.addressed f.bytes = false ∨ s.dev.pausesKind f = false) :
    Completes .pauseFrameReceive s fun d =>
      d.port = { s.dev.port with macCtl := rest } ∧ s.dev.Counts d (C.PORT_RX_MACCTL_BAD f.sp) 1
        ∧ s.dev.Moves d [C.PORT_RX_MACCTL_BAD f.sp] [.port, .lpe] := by
  have he : s.dev.pauseFrameReceive = (s.dev.macTaken rest).macCtlBad f.sp :=
    (Dev.pauseFrameReceive_cons hq).trans (Dev.macControl_bad (d := s.dev.macTaken rest) h)
  have hb := (s.dev.macTaken rest).moves_macCtlBad f.sp
  have hm : s.dev.Moves ((s.dev.macTaken rest).macCtlBad f.sp) [C.PORT_RX_MACCTL_BAD f.sp] [.port, .lpe] :=
    ((s.dev.moves_macTaken rest).mono (by simp) (by simp)).trans (hb.mono (fun _ h => h) (by simp))
  refine .ofClocked hr.1 hr.2 (exec_pauseFrameReceive s) (by rw [he]; exact hm.parts .life (by simp)) ?_
  rw [he]
  refine ⟨hb.parts .port (by simp), ?_, hm⟩
  exact Dev.counts_of_bump (s.dev.moves_macTaken rest) (by simp) ((Dev.Moves.refl _ [] [.lpe]).health (by simp) 4 f.sp 0) (by simp)

include hr hq in
/-- An honoured frame has set the pause times that it names, and is counted when some class heeds it. -/
theorem pauseFrameReceive_good (hsp : f.sp < 8) (ha : s.dev.addressed f.bytes = true) (hk : s.dev.pausesKind f = true) {post : Dev → Prop}
    (h : ∀ y any, (s.dev.macTaken rest).HonouredAll y f.sp (Dev.pauseTimes f.bytes) any → post (Dev.countPause f.sp (y, any))) :
    Completes .pauseFrameReceive s post := by
  have he : s.dev.pauseFrameReceive = Dev.countPause f.sp ((s.dev.macTaken rest).honourAll f.sp (Dev.pauseTimes f.bytes)) :=
    (Dev.pauseFrameReceive_cons hq).trans (Dev.macControl_good (d := s.dev.macTaken rest) ha hk)
  have hall := (s.dev.macTaken rest).honouredAll_honourAll hsp (Dev.pauseTimes_lt f.bytes) (Dev.nodup_pauseTimes f.bytes)
  refine .ofClocked hr.1 hr.2 (exec_pauseFrameReceive s) ?_ (by rw [he]; exact h _ _ hall)
  rw [he]
  exact Eq.trans ((Dev.moves_countPause f.sp _).parts .life (by simp)) (hall.frame.moves.parts .life (by decide))

end

/-- Settles O14: a frame that is not honoured is counted as bad; an honoured one sets the pause times that it names. -/
theorem macControlTaken : Obligations.MacControlTaken := by
  refine ⟨fun s hr hq => ?_, fun s f rest hr hq hsp => ?_⟩
  · refine exec_of_unchanged (exec_pauseFrameReceive s) ?_
    unfold Dev.pauseFrameReceive
    rw [hq]
  intro da op vec pfc named heeds quanta
  refine ⟨fun h => ?_, fun ha hk => ?_⟩
  · refine (pauseFrameReceive_bad hr hq ?_).imp fun t ⟨ht, hp, hport, hc, hm⟩ => ⟨ht, hp, hport, hc, hm.words, hm.parts, hm.memory⟩
    simp only [da, op, pfc, vec] at h
    rcases h with ⟨h1, h2⟩ | ⟨h1, h2⟩ | ⟨h1, h2⟩ | ⟨h1, h2⟩ | ⟨h1, h2⟩
    · exact .inl (by simp [Dev.addressed, h1, h2])
    · exact .inr (by simp [Dev.pausesKind, h1, h2])
    · exact .inr (by simp [Dev.pausesKind, h1, h2])
    · exact .inr (by simp [Dev.pausesKind, h1, Nat.not_lt.2 h2])
    · exact .inr (by simp [Dev.pausesKind, h1, h2])
  have haddr : s.dev.addressed f.bytes = true := by
    simp only [da] at ha
    rcases ha with h | h
    · simp [Dev.addressed, h]
    · simp [Dev.addressed, h]
  have hkind : s.dev.pausesKind f = true := by
    simp only [op, pfc, vec] at hk
    rcases hk with ⟨h1, h2⟩ | ⟨h1, h2, h3⟩
    · simp [Dev.pausesKind, h1, h2]
    · simp [Dev.pausesKind, h1, h2, h3]
  refine pauseFrameReceive_good hr hq hsp haddr hkind fun y any h => ?_
  have hz := s.dev.moves_macTaken rest
  have hc := Dev.moves_countPause f.sp (y, any)
  obtain ⟨e, he⟩ : ∃ e, e = Dev.countPause f.sp (y, any) := ⟨_, rfl⟩
  rw [← he] at hc ⊢
  have hport : e.port = y.port := hc.parts .port (by simp)
  have hbits : e.get (R.PORT_SUBPORT_STAT_PAUSED f.sp) = y.get (R.PORT_SUBPORT_STAT_PAUSED f.sp) :=
    hc.get (by simpa using (rxPause_apart f.sp hsp).2)
  have hpause (c : Nat) : e.pause f.sp c = y.pause f.sp c := by
    unfold Dev.pause
    rw [hport]
  have hm : s.dev.Moves y (holdWords f.sp) [.port, .lpe] := (hz.mono (by simp) (by simp)).trans h.frame.moves
  have hall : s.dev.Moves e (C.PORT_RX_PAUSE f.sp :: holdWords f.sp) [.port, .lpe] :=
    (hm.mono (List.subset_cons_self _ _) (fun _ h => h)).trans (hc.mono (by simp) (by simp))
  have hheeds (c : Nat) (hcc : c < 8) (hh : heeds c = true) :
      (c, quanta c) ∈ Dev.pauseTimes f.bytes ∧ (s.dev.pause f.sp c).ignoring = false := by
    obtain ⟨h1, h2⟩ := Bool.and_eq_true_iff.1 hh
    exact ⟨Dev.mem_pauseTimes hcc h1, by simpa using h2⟩
  have hany : any = (List.range 8).any heeds := by
    rw [h.some_]
    unfold Dev.pauseTimes
    rw [List.any_map, List.any_filter]
    rfl
  have hnone (ha : any = false) : e = s.dev.macTaken rest := by
    rw [he, h.unchanged ha, ha]
    rfl
  refine ⟨?_, ?_, fun c hcc hh => ?_, fun c hcc hh hqn hl hcl => ?_, fun c hcc hh => ?_, fun x hx => ?_, hall.words, fun hown => ⟨?_, ?_⟩,
    fun ha => ?_, hall.parts, hall.memory⟩
  · rw [hport, h.frame.port]
    rfl
  · rw [← hany]
    cases hav : any with
    | false =>
      rw [hnone hav, Dev.Counts, hz.words _ (by simp)]
      exact (Nat.mod_eq_of_lt (s.dev.word_lt _)).symm
    | true =>
      rw [hav] at he
      rw [he]
      exact Dev.counts_of_bump hm (rxPause_apart f.sp hsp).1 (.refl _ [] []) (by simp)
  · obtain ⟨hmem, hi⟩ := hheeds c hcc hh
    exact (Dev.classPaused_congr hbits c).trans (h.held _ hmem hi)
  · obtain ⟨hmem, hi⟩ := hheeds c hcc hh
    rw [hpause]
    exact h.ends _ hmem hi hqn hl hcl
  · obtain ⟨h1, h2⟩ := h.others c fun x hx hxc => by
      obtain ⟨c', hc', rfl⟩ := List.mem_map.1 hx
      have hn : named c = true := hxc ▸ (List.mem_filter.1 hc').2
      have hi : (s.dev.pause f.sp c).ignoring = true := by simpa [heeds, hn] using hh
      exact hi
    exact ⟨(Dev.classPaused_congr hbits c).trans h1, (hpause c).trans h2⟩
  · rw [hport]
    exact h.frame.others x hx
  · exact ((hz.mono (by simp) (fun _ h => h)).trans ((h.frame.idle hown).1.mono (by simp) (fun _ h => h)) |>.trans
      (hc.mono (by simp) (by simp))).words
  · rw [hport]
    exact (h.frame.idle hown).2.1
  · rw [hnone (hany.trans ha)]
    exact ⟨hz.words, rfl⟩

end Sys2Proof.Machine
end

section
/-! Links and lanes (R55 to R57, R92): which fields the loss of a link, the inheritance of a breakout's configuration and the training of
its sub-ports set and which they leave; what each command does. -/

namespace Sys2Proof.Machine

/-! ### Fields that others leave -/

/-- Neither field holds a bit of the other. -/
abbrev Fld.apart (f g : Fld) : Prop := g.addr ≠ f.addr ∨ g.lo + g.width ≤ f.lo ∨ f.lo + f.width ≤ g.lo

theorem Dev.get_put_of_apart (d : Dev) {f g : Fld} (v : Nat) (hf : f.lo + f.width ≤ 64) (h : f.apart g) : (d.put f v).get g = d.get g :=
  h.elim (d.get_put_other f g v) (d.get_put_apart f g v hf)

/-- A field that reads `v` still does once `v` is put into it, or into the like field of another word. -/
theorem Dev.get_put_like (d : Dev) {f g : Fld} {v : Nat} (hf : f.lo + f.width ≤ 64) (hlo : g.lo = f.lo) (hw : g.width = f.width)
    (hv : v < 2 ^ f.width) (h : d.get g = v) : (d.put f v).get g = v := by
  obtain ⟨a, lo, w⟩ := f
  obtain ⟨b, lo', w'⟩ := g
  obtain rfl : lo' = lo := hlo
  obtain rfl : w' = w := hw
  by_cases ha : b = a
  · subst ha
    rw [d.get_put_same _ _ hf, Nat.mod_eq_of_lt hv]
  · rw [d.get_put_other _ _ _ ha, h]

theorem Dev.on_iff {d : Dev} {f : Fld} (hw : f.width = 1) : d.on f = true ↔ d.get f = 1 := by
  have h := d.get_lt f
  rw [hw] at h
  rw [d.on_eq, decide_eq_true_iff]
  omega

theorem Dev.on_false_iff {d : Dev} {f : Fld} : d.on f = false ↔ d.get f = 0 := by simp [d.on_eq]

theorem Dev.on_congr {d e : Dev} {f : Fld} (h : e.get f = d.get f) : e.on f = d.on f := by
  unfold Dev.on
  rw [h]

/-- What every step of a loop keeps, and what each step sets and the later ones leave. -/
theorem Dev.each_all {α : Type} {xs : List α} {f : Dev → α → Dev} {d : Dev} (I : Dev → Prop) (P : α → Dev → Prop) (h0 : I d)
    (hI : ∀ e x, x ∈ xs → I e → I (f e x)) (hP : ∀ e x, x ∈ xs → I e → P x (f e x))
    (hK : ∀ e x y, x ∈ xs → y ∈ xs → y ≠ x → I e → P y e → P y (f e x)) : I (d.each xs f) ∧ ∀ x ∈ xs, P x (d.each xs f) := by
  have go (zs : List α) (hz : zs ⊆ xs) (done : List α) (hd : done ⊆ xs) (e : Dev) (hi : I e) (hp : ∀ x ∈ done, P x e) :
      I (e.each zs f) ∧ ∀ x ∈ done ++ zs, P x (e.each zs f) := by
    induction zs generalizing done e with
    | nil =>
      rw [List.append_nil]
      exact ⟨hi, hp⟩
    | cons z zs ih =>
      obtain ⟨hzx, hzs⟩ := List.cons_subset.1 hz
      have h := ih hzs (done ++ [z]) (List.append_subset.2 ⟨hd, by simpa using hzx⟩) (f e z) (hI e z hzx hi) fun x hx => by
        by_cases hxz : x = z
        · exact hxz ▸ hP e z hzx hi
        · have hxd : x ∈ done := by simpa [hxz] using hx
          exact hK e z x hzx (hd hxd) hxz hi (hp x hxd)
      rw [List.append_assoc] at h
      exact h
  exact go xs (fun _ h => h) [] (List.nil_subset _) d h0 (by simp)

theorem Completes.ofLive {c : Instr} {s : State} {f : Dev → Dev} {post : Dev → Prop} (hr : s.Running) (hc : exec c s = s.live f)
    (hl : (f s.dev).life = s.dev.life) (hp : post (f s.dev)) : Completes c s post := by
  have hf : (f s.dev).withLife s.dev.life = f s.dev := by rw [← hl]; rfl
  exact ⟨_, hc.trans (State.live_running f hr), rfl, by rw [hf]; exact hp⟩

theorem exec_of_live_unchanged {c : Instr} {s : State} {f : Dev → Dev} (hc : exec c s = s.live f) (hf : f s.dev = s.dev) :
    exec c s = .next s := by
  rw [hc]
  unfold State.live
  rw [hf]
  split <;> rfl

/-! ### The lanes of a sub-port -/

namespace Dev

theorem subPorts_congr {d e : Dev} (h : e.get R.PORT_CFG_BREAKOUT = d.get R.PORT_CFG_BREAKOUT) : e.subPorts = d.subPorts := by
  unfold subPorts
  rw [h]

theorem lanesOf_congr {d e : Dev} (h : e.get R.PORT_CFG_BREAKOUT = d.get R.PORT_CFG_BREAKOUT) (sp : Nat) : e.lanesOf sp = d.lanesOf sp := by
  unfold lanesOf
  rw [subPorts_congr h]

theorem hasFailedLane_congr {d e : Dev} (hb : e.get R.PORT_CFG_BREAKOUT = d.get R.PORT_CFG_BREAKOUT)
    (h : ∀ l, e.get (R.PORT_LANE_STAT_FAILED l) = d.get (R.PORT_LANE_STAT_FAILED l)) (sp : Nat) : e.hasFailedLane sp = d.hasFailedLane sp := by
  unfold hasFailedLane
  rw [lanesOf_congr hb]
  simp only [on, h]

theorem failedOften_congr {d e : Dev} (hb : e.get R.PORT_CFG_BREAKOUT = d.get R.PORT_CFG_BREAKOUT)
    (h : ∀ l, e.get (R.PORT_LANE_STAT_TRAIN_FAILS l) = d.get (R.PORT_LANE_STAT_TRAIN_FAILS l)) (sp : Nat) :
    e.failedOften sp = d.failedOften sp := by
  unfold failedOften
  rw [lanesOf_congr hb]
  simp only [h]

theorem subPorts_le (d : Dev) : d.subPorts ≤ 8 := by
  have h := d.get_lt R.PORT_CFG_BREAKOUT
  exact (Nat.pow_le_pow_right (by decide) (Nat.lt_succ_iff.1 h)).trans (by decide)

/-! ### The held packets discarded (R57) -/

/-- The packets that the inline buffer holds for a sub-port on their way through the front. -/
def heldFor (sp : Nat) (p : Packet) : Bool := p.sp = sp && p.mode = 0 && !p.gone

theorem sub_flowControl_keeps {β : Type} (d : Dev) (x : Nat) (p : SubPort → β) (h : ∀ s b, p { s with partnerPaused := b } = p s) :
    p (d.flowControl.sub x) = p (d.sub x) := by
  obtain ⟨b, sps, fs, t, hp⟩ := d.port_flowControl
  unfold sub
  rw [hp]
  dsimp only
  rw [getD_notePaused, h]

theorem discardHeld_eq (d : Dev) (sp : Nat) : ∃ x, d.discardHeld sp =
    ((({ d with front := x } : Dev).modSub sp fun s => { s with egress := [] }).bump (C.PORT_TX_LINK_DOWN sp)
      ((d.port.subs.getD sp SubPort.empty).egress.length + (d.front.packets.filter (heldFor sp)).length)).flowControl := ⟨_, rfl⟩

theorem moves_discardHeld (d : Dev) (sp : Nat) : d.Moves (d.discardHeld sp) (C.PORT_TX_LINK_DOWN sp :: flowWords) [.port, .front] := by
  obtain ⟨x, hx⟩ := d.discardHeld_eq sp
  rw [hx]
  exact ((((Moves.refl d _ _).withFront (by simp) x).modSub (by simp) _ _).bump (by simp)).flowControl (by simp) (List.subset_cons_self _ _)

theorem counts_discardHeld (d : Dev) {sp : Nat} (hsp : C.PORT_TX_LINK_DOWN sp ∉ flowWords) : d.Counts (d.discardHeld sp) (C.PORT_TX_LINK_DOWN sp)
    ((d.port.subs.getD sp SubPort.empty).egress.length + (d.front.packets.filter (heldFor sp)).length) := by
  obtain ⟨x, hx⟩ := d.discardHeld_eq sp
  rw [hx]
  exact counts_of_bump (((Moves.refl d [] [.port, .front]).withFront (by simp) x).modSub (by simp) _ _) (by simp)
    ((Moves.refl _ flowWords [.port]).flowControl (by simp) fun _ h => h) hsp

/-- What a change sets of a sub-port, where the absent one reads so too. -/
theorem sub_modSub_self {β : Type} (d : Dev) (sp : Nat) {f : SubPort → SubPort} (p : SubPort → β) {v : β} (h : ∀ s, p (f s) = v)
    (he : p SubPort.empty = v) : p ((d.modSub sp f).sub sp) = v := by
  rw [sub_modSub]
  split
  · exact h _
  · next hn =>
    rw [sub, List.getD_eq_default _ _ (Nat.le_of_not_lt fun hl => hn ⟨rfl, hl⟩), he]

theorem egress_discardHeld (d : Dev) (sp : Nat) : ((d.discardHeld sp).sub sp).egress = [] := by
  obtain ⟨x, hx⟩ := d.discardHeld_eq sp
  rw [hx, sub_flowControl_keeps _ _ (·.egress) fun _ _ => rfl]
  unfold sub
  rw [bump_port]
  exact sub_modSub_self { d with front := x } sp (f := fun s => { s with egress := [] }) (·.egress) (fun _ => rfl) rfl

/-- All else of every sub-port but its partner's mark stays. -/
theorem sub_discardHeld_keeps {β : Type} (d : Dev) (sp x : Nat) (p : SubPort → β) (h : ∀ s b, p { s with partnerPaused := b } = p s)
    (h' : ∀ s : SubPort, p { s with egress := [] } = p s) : p ((d.discardHeld sp).sub x) = p (d.sub x) := by
  obtain ⟨y, hy⟩ := d.discardHeld_eq sp
  rw [hy, sub_flowControl_keeps _ _ p h]
  unfold sub
  rw [bump_port]
  exact sub_modSub_keeps { d with front := y } sp x p h'

end Dev

/-! ### A link lost (R57) -/

namespace Dev

/-- The sub-port's link and training bits cleared. -/
def linkOff (d : Dev) (sp : Nat) : Dev := (d.put (R.PORT_SUBPORT_STAT_LINK_UP sp) 0).put (R.PORT_SUBPORT_STAT_TRAINING sp) 0

/-- Lanes left untrained. -/
def lanesOff (d : Dev) (ls : List Nat) : Dev := d.each ls fun d l => d.put (R.PORT_LANE_STAT_TRAINED l) 0

/-- The sub-port's holds forgotten, with its partner's, and its own waiting frames dropped. -/
def holdsOff (d : Dev) (sp : Nat) : Dev :=
  (d.put (R.PORT_SUBPORT_STAT_PAUSED sp) 0).modSub sp fun s =>
    { s with pause := s.pause.map fun p => { p with until_ := 0 }, partnerPaused := false, own := [] }

/-- The sub-port's link taken down. -/
def linkCleared (d : Dev) (sp : Nat) : Dev := ((d.linkOff sp).lanesOff ((d.linkOff sp).lanesOf sp)).holdsOff sp

theorem breakout_ne_laneStat (l : Nat) : R.PORT_CFG_BREAKOUT.addr ≠ (R.PORT_LANE_STAT_TRAINED l).addr := by
  simp only [R.PORT_CFG_BREAKOUT, R.PORT_LANE_STAT_TRAINED, RegMap.nowhere]
  split <;> omega

theorem breakout_ne_subportStat (sp : Nat) : R.PORT_CFG_BREAKOUT.addr ≠ (R.PORT_SUBPORT_STAT_LINK_UP sp).addr := by
  simp only [R.PORT_CFG_BREAKOUT, R.PORT_SUBPORT_STAT_LINK_UP, RegMap.nowhere]
  split <;> omega

theorem laneStat_ne_subportStat {sp : Nat} (hsp : sp < 8) (l : Nat) :
    (R.PORT_LANE_STAT_TRAINED l).addr ≠ (R.PORT_SUBPORT_STAT_LINK_UP sp).addr := by
  simp only [R.PORT_SUBPORT_STAT_LINK_UP, R.PORT_LANE_STAT_TRAINED, RegMap.nowhere, hsp, if_true]
  split <;> omega

/-- A field of a sub-port's state or of another word, as the link and training bits are cleared. -/
theorem get_linkOff (d : Dev) (sp : Nat) {g : Fld} (hu : (R.PORT_SUBPORT_STAT_LINK_UP sp).apart g)
    (ht : (R.PORT_SUBPORT_STAT_TRAINING sp).apart g) : (d.linkOff sp).get g = d.get g := by
  unfold linkOff
  rw [get_put_of_apart _ _ (by simp [R.PORT_SUBPORT_STAT_TRAINING]) ht, get_put_of_apart _ _ (by simp [R.PORT_SUBPORT_STAT_LINK_UP]) hu]

theorem get_lanesOff (d : Dev) (ls : List Nat) {g : Fld} (h : ∀ l, (R.PORT_LANE_STAT_TRAINED l).apart g) : (d.lanesOff ls).get g = d.get g :=
  each_keeps (·.get g) ls _ d fun e l => e.get_put_of_apart _ (by simp [R.PORT_LANE_STAT_TRAINED]) (h l)

theorem get_holdsOff (d : Dev) (sp : Nat) {g : Fld} (h : (R.PORT_SUBPORT_STAT_PAUSED sp).apart g) : (d.holdsOff sp).get g = d.get g :=
  d.get_put_of_apart 0 (by simp [R.PORT_SUBPORT_STAT_PAUSED]) h

theorem lanesOf_linkOff (d : Dev) (sp x : Nat) : (d.linkOff sp).lanesOf x = d.lanesOf x :=
  lanesOf_congr (d.get_linkOff sp (.inl (breakout_ne_subportStat sp)) (.inl (breakout_ne_subportStat sp))) x

theorem moves_linkCleared (d : Dev) (sp : Nat) : d.Moves (d.linkCleared sp) (d.linkWords sp) [.port] := by
  have hup : (R.PORT_SUBPORT_STAT_LINK_UP sp).addr ∈ d.linkWords sp := by simp [linkWords]
  have hlane (l : Nat) (hl : l ∈ d.lanesOf sp) : (R.PORT_LANE_STAT_TRAINED l).addr ∈ d.linkWords sp := by
    unfold linkWords
    exact List.mem_cons_of_mem _ (List.mem_map.2 ⟨l, hl, rfl⟩)
  have hoff : d.Moves (d.linkOff sp) (d.linkWords sp) [.port] :=
    ((Moves.refl d _ _).put hup).put (f := R.PORT_SUBPORT_STAT_TRAINING sp) hup
  have hlanes : d.Moves ((d.linkOff sp).lanesOff (d.lanesOf sp)) (d.linkWords sp) [.port] :=
    hoff.each fun l hl _ h => h.put (hlane l hl)
  unfold linkCleared
  rw [lanesOf_linkOff]
  exact (hlanes.put (f := R.PORT_SUBPORT_STAT_PAUSED sp) hup).modSub (by simp) _ _

theorem get_linkCleared (d : Dev) (sp : Nat) {g : Fld} (hu : (R.PORT_SUBPORT_STAT_LINK_UP sp).apart g)
    (ht : (R.PORT_SUBPORT_STAT_TRAINING sp).apart g) (hp : (R.PORT_SUBPORT_STAT_PAUSED sp).apart g)
    (hl : ∀ l, (R.PORT_LANE_STAT_TRAINED l).apart g) : (d.linkCleared sp).get g = d.get g := by
  unfold linkCleared
  rw [get_holdsOff _ _ hp, get_lanesOff _ _ hl, get_linkOff _ _ hu ht]

/-- The bits of a sub-port's state as its link is taken down. -/
theorem stat_linkCleared (d : Dev) {sp : Nat} (hsp : sp < 8) : (d.linkCleared sp).get (R.PORT_SUBPORT_STAT_LINK_UP sp) = 0
    ∧ (d.linkCleared sp).get (R.PORT_SUBPORT_STAT_TRAINING sp) = 0 ∧ (d.linkCleared sp).get (R.PORT_SUBPORT_STAT_PAUSED sp) = 0 := by
  have hne (l : Nat) := (laneStat_ne_subportStat hsp l).symm
  unfold linkCleared
  refine ⟨?_, ?_, get_put_same _ _ _ (by simp [R.PORT_SUBPORT_STAT_PAUSED])⟩
  · rw [get_holdsOff _ _ (.inr (by simp [R.PORT_SUBPORT_STAT_LINK_UP, R.PORT_SUBPORT_STAT_PAUSED])), get_lanesOff _ _ fun l => .inl (hne l),
      linkOff,
      get_put_apart _ _ _ _ (by simp [R.PORT_SUBPORT_STAT_TRAINING]) (by simp [R.PORT_SUBPORT_STAT_LINK_UP, R.PORT_SUBPORT_STAT_TRAINING]),
      get_put_same _ _ _ (by simp [R.PORT_SUBPORT_STAT_LINK_UP])]
    rfl
  · rw [get_holdsOff _ _ (.inr (by simp [R.PORT_SUBPORT_STAT_TRAINING, R.PORT_SUBPORT_STAT_PAUSED])),
      get_lanesOff _ _ (g := R.PORT_SUBPORT_STAT_TRAINING sp) fun l => .inl (hne l), linkOff, get_put_same _ _ _ (by simp [R.PORT_SUBPORT_STAT_TRAINING])]
    rfl

/-- A lane of the sub-port, and any other that was not trained, is left untrained. -/
theorem trained_linkCleared (d : Dev) {sp : Nat} (hsp : sp < 8) {l : Nat} (h : l ∈ d.lanesOf sp ∨ d.get (R.PORT_LANE_STAT_TRAINED l) = 0) :
    (d.linkCleared sp).get (R.PORT_LANE_STAT_TRAINED l) = 0 := by
  have hne := laneStat_ne_subportStat hsp l
  have hput (e : Dev) (x : Nat) (he : e.get (R.PORT_LANE_STAT_TRAINED l) = 0) :
      (e.put (R.PORT_LANE_STAT_TRAINED x) 0).get (R.PORT_LANE_STAT_TRAINED l) = 0 :=
    e.get_put_like (by simp [R.PORT_LANE_STAT_TRAINED]) rfl rfl (by simp) he
  unfold linkCleared
  rw [get_holdsOff _ _ (.inl hne), lanesOf_linkOff]
  rcases h with h | h
  · have hall := Dev.each_all (d := d.linkOff sp) (f := fun d l => d.put (R.PORT_LANE_STAT_TRAINED l) 0) (xs := d.lanesOf sp) (fun _ => True)
      (fun l e => e.get (R.PORT_LANE_STAT_TRAINED l) = 0) trivial (fun _ _ _ _ => trivial)
      (fun e x _ _ => (e.get_put_same _ _ (by simp [R.PORT_LANE_STAT_TRAINED])).trans rfl)
      (fun e x y _ _ _ _ hy => e.get_put_like (by simp [R.PORT_LANE_STAT_TRAINED]) rfl rfl (by simp) hy)
    exact hall.2 l h
  · exact each_inv (fun e => e.get (R.PORT_LANE_STAT_TRAINED l) = 0) _ _ _
      ((d.get_linkOff sp (.inl hne) (.inl hne)).trans h) hput

theorem port_linkCleared (d : Dev) (sp : Nat) : (d.linkCleared sp).port = (d.modSub sp fun s =>
    { s with pause := s.pause.map fun p => { p with until_ := 0 }, partnerPaused := false, own := [] }).port := by
  have h : ((d.linkOff sp).lanesOff ((d.linkOff sp).lanesOf sp)).port = d.port := each_keeps (·.port) _ _ _ fun _ _ => rfl
  unfold linkCleared holdsOff modSub
  rw [put_port, h]

/-! Training begun -/

theorem moves_startTraining (d : Dev) (sp : Nat) : d.Moves (d.startTraining sp) [(R.PORT_SUBPORT_STAT_LINK_UP sp).addr] [.port] :=
  ((Moves.refl d _ _).withPort (by simp) _).put (List.mem_singleton.2 rfl)

theorem get_startTraining (d : Dev) (sp : Nat) {g : Fld} (h : (R.PORT_SUBPORT_STAT_TRAINING sp).apart g) :
    (d.startTraining sp).get g = d.get g := get_put_of_apart _ _ (by simp [R.PORT_SUBPORT_STAT_TRAINING]) h

theorem training_startTraining (d : Dev) (sp : Nat) : (d.startTraining sp).get (R.PORT_SUBPORT_STAT_TRAINING sp) = 1 :=
  get_put_same _ _ _ (by simp [R.PORT_SUBPORT_STAT_TRAINING])

/-- The sub-port as its link is lost, before the packets that it holds are discarded. -/
def linkLowered (d : Dev) (sp : Nat) (train : Bool) : Dev := if train then (d.linkCleared sp).startTraining sp else d.linkCleared sp

theorem linkDown_eq (d : Dev) (sp : Nat) (train : Bool) : d.linkDown sp train = (d.linkLowered sp train).discardHeld sp := rfl

theorem moves_linkLowered (d : Dev) (sp : Nat) (train : Bool) : d.Moves (d.linkLowered sp train) (d.linkWords sp) [.port] :=
  .ite ((d.moves_linkCleared sp).trans ((moves_startTraining _ sp).mono (by simp [linkWords]) (fun _ h => h))) (d.moves_linkCleared sp)

theorem get_linkLowered (d : Dev) (sp : Nat) (train : Bool) {g : Fld} (h : (R.PORT_SUBPORT_STAT_TRAINING sp).apart g) :
    (d.linkLowered sp train).get g = (d.linkCleared sp).get g := by
  unfold linkLowered
  split
  · exact get_startTraining _ sp h
  · rfl

theorem training_linkLowered (d : Dev) {sp : Nat} (hsp : sp < 8) (train : Bool) :
    (d.linkLowered sp train).get (R.PORT_SUBPORT_STAT_TRAINING sp) = b2n train := by
  unfold linkLowered
  cases train with
  | true => exact training_startTraining _ sp
  | false => exact (d.stat_linkCleared hsp).2.1

theorem sub_startTraining (d : Dev) (sp x : Nat) : (d.startTraining sp).sub x = d.sub x := rfl

theorem sub_linkLowered (d : Dev) (sp : Nat) (train : Bool) (x : Nat) : (d.linkLowered sp train).sub x = (d.linkCleared sp).sub x := by
  unfold linkLowered
  split
  · exact sub_startTraining _ sp x
  · rfl

end Dev

/-! The words of a link -/

/-- The words that the loss of a link moves. -/
def Dev.lostWords (d : Dev) (sp : Nat) : List Nat := C.PORT_TX_LINK_DOWN sp :: d.linkWords sp ++ flowWords

theorem linkUp_not_mem_counts : ∀ sp < 8, ∀ x < 8, (R.PORT_SUBPORT_STAT_LINK_UP x).addr ∉ C.PORT_TX_LINK_DOWN sp :: flowWords := by decide

theorem txLinkDown_not_mem_flowWords : ∀ sp < 8, C.PORT_TX_LINK_DOWN sp ∉ flowWords := by decide

theorem linkUp_not_mem_linkWords (d : Dev) {sp x : Nat} (hx : x < 8) (hne : x ≠ sp) : (R.PORT_SUBPORT_STAT_LINK_UP x).addr ∉ d.linkWords sp := by
  intro h
  rcases List.mem_cons.1 h with h | h
  · simp only [R.PORT_SUBPORT_STAT_LINK_UP, RegMap.nowhere, hx, if_true] at h
    split at h <;> omega
  · obtain ⟨l, -, hl⟩ := List.mem_map.1 h
    exact Dev.laneStat_ne_subportStat hx l hl

theorem txLinkDown_not_mem_linkWords (d : Dev) {sp : Nat} (hsp : sp < 8) : C.PORT_TX_LINK_DOWN sp ∉ d.linkWords sp := by
  intro h
  rcases List.mem_cons.1 h with h | h
  · simp only [R.PORT_SUBPORT_STAT_LINK_UP, C.PORT_TX_LINK_DOWN, hsp, if_true] at h
    omega
  · obtain ⟨l, -, hl⟩ := List.mem_map.1 h
    simp only [R.PORT_LANE_STAT_TRAINED, C.PORT_TX_LINK_DOWN, RegMap.nowhere, hsp, if_true] at hl
    split at hl <;> omega

namespace Dev

variable (d : Dev) {sp : Nat} (train : Bool)

theorem moves_linkDown : d.Moves (d.linkDown sp train) (d.lostWords sp) [.port, .front] := by
  rw [linkDown_eq]
  exact ((d.moves_linkLowered sp train).mono (by simp [lostWords]) (by simp)).trans
    ((moves_discardHeld _ sp).mono (by simp [lostWords]) (fun _ h => h))

theorem up_linkDown_other (hsp : sp < 8) {x : Nat} (hx : x < 8) (hne : x ≠ sp) : (d.linkDown sp train).up x = d.up x := by
  rw [linkDown_eq, up, (moves_discardHeld _ sp).on (linkUp_not_mem_counts sp hsp x hx),
    (d.moves_linkLowered sp train).on (linkUp_not_mem_linkWords d hx hne)]
  rfl

theorem up_linkDown (hsp : sp < 8) : (d.linkDown sp train).up sp = false := by
  rw [up, on_false_iff, linkDown_eq, (moves_discardHeld _ sp).get (linkUp_not_mem_counts sp hsp sp hsp),
    get_linkLowered _ _ _ (.inr (by simp [R.PORT_SUBPORT_STAT_LINK_UP, R.PORT_SUBPORT_STAT_TRAINING]))]
  exact (d.stat_linkCleared hsp).1

theorem training_linkDown (hsp : sp < 8) : (d.linkDown sp train).get (R.PORT_SUBPORT_STAT_TRAINING sp) = b2n train := by
  rw [linkDown_eq, (moves_discardHeld _ sp).get (f := R.PORT_SUBPORT_STAT_TRAINING sp) (linkUp_not_mem_counts sp hsp sp hsp),
    d.training_linkLowered hsp]

theorem paused_linkDown (hsp : sp < 8) : (d.linkDown sp train).get (R.PORT_SUBPORT_STAT_PAUSED sp) = 0 := by
  rw [linkDown_eq, (moves_discardHeld _ sp).get (f := R.PORT_SUBPORT_STAT_PAUSED sp) (linkUp_not_mem_counts sp hsp sp hsp),
    get_linkLowered _ _ _ (.inr (by simp [R.PORT_SUBPORT_STAT_PAUSED, R.PORT_SUBPORT_STAT_TRAINING]))]
  exact (d.stat_linkCleared hsp).2.2

theorem laneStat_not_mem_counts : ∀ sp < 8, ∀ l < 8, (R.PORT_LANE_STAT_TRAINED l).addr ∉ C.PORT_TX_LINK_DOWN sp :: flowWords := by decide

theorem nowhere_not_mem_counts : ∀ sp < 8, RegMap.nowhere ∉ C.PORT_TX_LINK_DOWN sp :: flowWords := by decide

theorem laneStat_off_counts (hsp : sp < 8) (l : Nat) : (R.PORT_LANE_STAT_TRAINED l).addr ∉ C.PORT_TX_LINK_DOWN sp :: flowWords := by
  by_cases hl : l < 8
  · exact laneStat_not_mem_counts sp hsp l hl
  · rw [R.PORT_LANE_STAT_TRAINED, if_neg hl]
    exact nowhere_not_mem_counts sp hsp

theorem trained_linkDown (hsp : sp < 8) {l : Nat} (h : l ∈ d.lanesOf sp ∨ d.get (R.PORT_LANE_STAT_TRAINED l) = 0) :
    (d.linkDown sp train).get (R.PORT_LANE_STAT_TRAINED l) = 0 := by
  rw [linkDown_eq, (moves_discardHeld _ sp).get (laneStat_off_counts hsp l), get_linkLowered _ _ _ (.inl (laneStat_ne_subportStat hsp l))]
  exact d.trained_linkCleared hsp h

theorem egress_linkDown : ((d.linkDown sp train).sub sp).egress = [] := egress_discardHeld _ sp

theorem own_linkDown : ((d.linkDown sp train).sub sp).own = [] := by
  rw [linkDown_eq, sub_discardHeld_keeps _ _ _ (·.own) (fun _ _ => rfl) (fun _ => rfl), sub_linkLowered, sub, port_linkCleared]
  exact d.sub_modSub_self sp (f := fun s => { s with pause := s.pause.map fun p => { p with until_ := 0 }, partnerPaused := false, own := [] })
    (·.own) (fun _ => rfl) rfl

theorem counts_linkDown (hsp : sp < 8) : d.Counts (d.linkDown sp train) (C.PORT_TX_LINK_DOWN sp)
    ((d.port.subs.getD sp SubPort.empty).egress.length + (d.front.packets.filter (heldFor sp)).length) := by
  have hm := d.moves_linkLowered sp train
  have hc := (d.linkLowered sp train).counts_discardHeld (txLinkDown_not_mem_flowWords sp hsp)
  have he : ((d.linkLowered sp train).sub sp).egress = (d.sub sp).egress := by
    rw [sub_linkLowered, sub, port_linkCleared]
    exact d.sub_modSub_keeps (f := fun s => { s with pause := s.pause.map fun p => { p with until_ := 0 }, partnerPaused := false, own := [] })
      sp sp (·.egress) fun _ => rfl
  have hf : (d.linkLowered sp train).front = d.front := hm.parts .front (by simp)
  unfold Counts at hc ⊢
  rw [linkDown_eq, hc, hm.words _ (txLinkDown_not_mem_linkWords d hsp), hf]
  exact congrArg (fun q : List EgressItem =>
    (d.word (C.PORT_TX_LINK_DOWN sp) + (q.length + (d.front.packets.filter (heldFor sp)).length)) % 2 ^ 64) he

end Dev

end Sys2Proof.Machine
end

section
/-! What brings a link up, takes it down, or spoils its training (R57, R92). -/

namespace Sys2Proof.Machine

/-! ### A link up (R57, R92) -/

namespace Dev

/-- The sub-port's bits as its link comes up, no earlier than the next attempt may begin. -/
def linkRaised (d : Dev) (sp : Nat) : Dev :=
  (((d.advanceClock (d.port.subs.getD sp SubPort.empty).retrainNs).modSub sp fun s => { s with retrainNs := 0 }).put
    (R.PORT_SUBPORT_STAT_LINK_UP sp) 1).put (R.PORT_SUBPORT_STAT_TRAINING sp) 0

/-- Lanes trained. -/
def lanesTrained (d : Dev) (ls : List Nat) : Dev :=
  d.each ls fun d l => (d.put (R.PORT_LANE_STAT_TRAINED l) 1).put (R.PORT_LANE_STAT_TRAIN_FAILS l) 0

/-- Whether the training of a sub-port may complete. -/
def trainable (d : Dev) (sp : Nat) : Bool :=
  decide (sp < d.subPorts) && d.on (R.PORT_SUBPORT_STAT_TRAINING sp) && !d.on (R.PORT_SUBPORT_STAT_DOWN_BY_LANE sp)

theorem subportUp_of_trainable {d : Dev} {sp : Nat} (h : d.trainable sp = true) :
    d.subportUp sp = (d.linkRaised sp).lanesTrained ((d.linkRaised sp).lanesOf sp) := if_pos h

theorem subportUp_of_not_trainable {d : Dev} {sp : Nat} (h : d.trainable sp = false) : d.subportUp sp = d := if_neg (by
  unfold trainable at h
  rw [h]
  exact Bool.false_ne_true)

theorem get_linkRaised (d : Dev) (sp : Nat) {g : Fld} (hu : (R.PORT_SUBPORT_STAT_LINK_UP sp).apart g)
    (ht : (R.PORT_SUBPORT_STAT_TRAINING sp).apart g) : (d.linkRaised sp).get g = d.get g := by
  unfold linkRaised
  rw [get_put_of_apart _ _ (by simp [R.PORT_SUBPORT_STAT_TRAINING]) ht, get_put_of_apart _ _ (by simp [R.PORT_SUBPORT_STAT_LINK_UP]) hu]
  exact get_advanceClock d _ g

theorem lanesOf_linkRaised (d : Dev) (sp x : Nat) : (d.linkRaised sp).lanesOf x = d.lanesOf x :=
  lanesOf_congr (d.get_linkRaised sp (.inl (breakout_ne_subportStat sp)) (.inl (breakout_ne_subportStat sp))) x

theorem moves_linkRaised (d : Dev) (sp : Nat) : d.Moves (d.linkRaised sp) (d.linkWords sp) [.time, .port] := by
  have hup : (R.PORT_SUBPORT_STAT_LINK_UP sp).addr ∈ d.linkWords sp := by simp [linkWords]
  exact ((((Moves.refl d _ _).advanceClock (by simp) _).modSub (by simp) _ _).put hup).put (f := R.PORT_SUBPORT_STAT_TRAINING sp) hup

theorem moves_lanesTrained (d e : Dev) (sp : Nat) : e.Moves (e.lanesTrained (d.lanesOf sp)) (d.linkWords sp) [.time, .port] := by
  have hlane (l : Nat) (hl : l ∈ d.lanesOf sp) : (R.PORT_LANE_STAT_TRAINED l).addr ∈ d.linkWords sp := by
    unfold linkWords
    exact List.mem_cons_of_mem _ (List.mem_map.2 ⟨l, hl, rfl⟩)
  exact (Moves.refl e _ _).each fun l hl _ h => (h.put (hlane l hl)).put (f := R.PORT_LANE_STAT_TRAIN_FAILS l) (hlane l hl)

theorem port_lanesTrained (d : Dev) (ls : List Nat) : (d.lanesTrained ls).port = d.port := each_keeps (·.port) _ _ _ fun _ _ => rfl

theorem get_lanesTrained_subport (d : Dev) {sp : Nat} (hsp : sp < 8) (ls : List Nat) {g : Fld}
    (hg : g.addr = (R.PORT_SUBPORT_STAT_LINK_UP sp).addr) : (d.lanesTrained ls).get g = d.get g := by
  have hne (l : Nat) : g.addr ≠ (R.PORT_LANE_STAT_TRAINED l).addr := hg ▸ (laneStat_ne_subportStat hsp l).symm
  exact each_keeps (·.get g) _ _ _ fun e l =>
    (get_put_other _ (R.PORT_LANE_STAT_TRAIN_FAILS l) _ _ (hne l)).trans (e.get_put_other _ _ _ (hne l))

theorem lanes_lanesTrained (d : Dev) (ls : List Nat) : ∀ l ∈ ls,
    (d.lanesTrained ls).get (R.PORT_LANE_STAT_TRAINED l) = 1 ∧ (d.lanesTrained ls).get (R.PORT_LANE_STAT_TRAIN_FAILS l) = 0 := by
  have hfails (e : Dev) (x y v : Nat) :
      (e.put (R.PORT_LANE_STAT_TRAIN_FAILS x) v).get (R.PORT_LANE_STAT_TRAINED y) = e.get (R.PORT_LANE_STAT_TRAINED y) :=
    e.get_put_apart _ _ v (by simp [R.PORT_LANE_STAT_TRAIN_FAILS]) (by simp [R.PORT_LANE_STAT_TRAIN_FAILS, R.PORT_LANE_STAT_TRAINED])
  have htrained (e : Dev) (x y v : Nat) :
      (e.put (R.PORT_LANE_STAT_TRAINED x) v).get (R.PORT_LANE_STAT_TRAIN_FAILS y) = e.get (R.PORT_LANE_STAT_TRAIN_FAILS y) :=
    e.get_put_apart _ _ v (by simp [R.PORT_LANE_STAT_TRAINED]) (by simp [R.PORT_LANE_STAT_TRAIN_FAILS, R.PORT_LANE_STAT_TRAINED])
  refine (each_all (fun _ => True) (fun l e => e.get (R.PORT_LANE_STAT_TRAINED l) = 1 ∧ e.get (R.PORT_LANE_STAT_TRAIN_FAILS l) = 0)
    trivial (fun _ _ _ _ => trivial) (fun e x _ _ => ⟨?_, ?_⟩) (fun e x y _ _ _ _ hy => ⟨?_, ?_⟩)).2
  · rw [hfails]
    exact e.get_put_same _ _ (by simp [R.PORT_LANE_STAT_TRAINED])
  · exact get_put_same _ _ _ (by simp [R.PORT_LANE_STAT_TRAIN_FAILS])
  · rw [hfails]
    exact e.get_put_like (by simp [R.PORT_LANE_STAT_TRAINED]) rfl rfl (by simp [R.PORT_LANE_STAT_TRAINED]) hy.1
  · refine get_put_like _ (by simp [R.PORT_LANE_STAT_TRAIN_FAILS]) rfl rfl (by simp) ?_
    rw [htrained]
    exact hy.2

theorem stat_linkRaised (d : Dev) (sp : Nat) : (d.linkRaised sp).get (R.PORT_SUBPORT_STAT_LINK_UP sp) = 1
    ∧ (d.linkRaised sp).get (R.PORT_SUBPORT_STAT_TRAINING sp) = 0 := by
  unfold linkRaised
  refine ⟨?_, get_put_same _ _ _ (by simp [R.PORT_SUBPORT_STAT_TRAINING])⟩
  rw [get_put_apart _ _ _ _ (by simp [R.PORT_SUBPORT_STAT_TRAINING]) (by simp [R.PORT_SUBPORT_STAT_LINK_UP, R.PORT_SUBPORT_STAT_TRAINING])]
  exact get_put_same _ _ _ (by simp [R.PORT_SUBPORT_STAT_LINK_UP])

theorem clockNs_linkRaised (d : Dev) (sp : Nat) :
    (d.linkRaised sp).clockNs = max d.clockNs (d.port.subs.getD sp SubPort.empty).retrainNs := d.clockNs_advanceClock _

theorem port_linkRaised (d : Dev) (sp : Nat) : (d.linkRaised sp).port = { d.port with subs := (d.linkRaised sp).port.subs } := by
  have h : (d.linkRaised sp).port = ((d.advanceClock (d.port.subs.getD sp SubPort.empty).retrainNs).modSub sp fun s =>
      { s with retrainNs := 0 }).port := rfl
  rw [h]
  unfold modSub
  rw [port_advanceClock]

end Dev

section

variable {s : State} {sp : Fin 8}

theorem exec_subportLinkUp (s : State) (sp : Fin 8) :
    exec (.subportLinkUp sp) s = s.clocked (·.regionStopped 18) fun d => d.subportUp sp.val := rfl

theorem subportLinkUp_trainable (hr : s.RunsIn 18) (h : s.dev.trainable sp.val = true) : Completes (.subportLinkUp sp) s fun d =>
    d.up sp.val = true ∧ d.get (R.PORT_SUBPORT_STAT_TRAINING sp.val) = 0
      ∧ (∀ l ∈ s.dev.lanesOf sp.val, d.get (R.PORT_LANE_STAT_TRAINED l) = 1 ∧ d.get (R.PORT_LANE_STAT_TRAIN_FAILS l) = 0)
      ∧ d.clockNs = max s.dev.clockNs (s.dev.port.subs.getD sp.val SubPort.empty).retrainNs
      ∧ d.port = { s.dev.port with subs := d.port.subs } ∧ s.dev.Moves d (s.dev.linkWords sp.val) [.time, .port] := by
  have he : s.dev.subportUp sp.val = (s.dev.linkRaised sp.val).lanesTrained (s.dev.lanesOf sp.val) := by
    rw [Dev.subportUp_of_trainable h, Dev.lanesOf_linkRaised]
  have hl := s.dev.moves_lanesTrained (s.dev.linkRaised sp.val) sp.val
  have hm := (s.dev.moves_linkRaised sp.val).trans hl
  obtain ⟨hup, htraining⟩ := s.dev.stat_linkRaised sp.val
  refine .ofClocked hr.1 hr.2 (exec_subportLinkUp s sp) (by rw [he]; exact hm.parts .life (by simp)) ?_
  rw [he]
  refine ⟨?_, ?_, Dev.lanes_lanesTrained _ _, ?_, ?_, hm⟩
  · rw [Dev.up, Dev.on_iff rfl, Dev.get_lanesTrained_subport _ sp.isLt _ rfl]
    exact hup
  · rw [Dev.get_lanesTrained_subport (g := R.PORT_SUBPORT_STAT_TRAINING sp.val) _ sp.isLt _ rfl]
    exact htraining
  · rw [← Dev.clockNs_linkRaised]
    exact Dev.clockNs_congr (Dev.each_keeps (·.ns) _ _ _ fun _ _ => rfl) (hl.parts .sup (by simp))
  · rw [Dev.port_lanesTrained]
    exact s.dev.port_linkRaised sp.val

/-! ### A link down (R57) -/

theorem exec_subportGoesDown (s : State) (sp : Fin 8) :
    exec (.subportGoesDown sp) s = s.clocked (·.regionStopped 18) fun d => d.subportDown sp.val := rfl

theorem subportGoesDown_up (hr : s.RunsIn 18) (h : s.dev.up sp.val = true) {post : Dev → Prop} (hp : post (s.dev.linkDown sp.val true)) :
    Completes (.subportGoesDown sp) s post := by
  have he : s.dev.subportDown sp.val = s.dev.linkDown sp.val true := if_pos h
  exact .ofClocked hr.1 hr.2 (exec_subportGoesDown s sp) (by rw [he]; exact (s.dev.moves_linkDown true).parts .life (by simp)) (by rw [he]; exact hp)

end

/-! ### Training spoiled (R92) -/

namespace Dev

/-- The lane's failures counted, no earlier than the attempt began. -/
def laneFailed (d : Dev) (lane : Nat) : Dev :=
  (d.advanceClock (d.port.subs.getD (d.laneSub lane) SubPort.empty).retrainNs).put (R.PORT_LANE_STAT_TRAIN_FAILS lane)
    (min 255 (d.get (R.PORT_LANE_STAT_TRAIN_FAILS lane) + 1))

/-- The wait before the next attempt, where a lane of the sub-port has failed often. -/
def attemptsSpaced (d : Dev) (sp : Nat) : Dev :=
  if d.failedOften sp then d.modSub sp fun s => { s with retrainNs := d.clockNs + 100000000 } else d

theorem trainingViolation_eq {d : Dev} {lane : Nat} (h : d.on (R.PORT_SUBPORT_STAT_TRAINING (d.laneSub lane)) = true) :
    d.trainingViolation lane = ((((d.laneFailed lane).attemptsSpaced (d.laneSub lane)).startTraining (d.laneSub lane)).bump
      (C.PORT_TRAIN_VIOL (d.laneSub lane))).health 9 (d.laneSub lane) := by
  have hg : (d.advanceClock (d.port.subs.getD (d.laneSub lane) SubPort.empty).retrainNs).get (R.PORT_LANE_STAT_TRAIN_FAILS lane)
      = d.get (R.PORT_LANE_STAT_TRAIN_FAILS lane) := get_advanceClock d _ _
  unfold trainingViolation
  rw [if_pos h]
  dsimp only
  rw [hg]
  rfl

theorem moves_attemptsSpaced (d : Dev) (sp : Nat) : d.Moves (d.attemptsSpaced sp) [] [.port] :=
  .ite ((Moves.refl d _ _).modSub (by simp) _ _) (.refl d _ _)

theorem moves_laneFailed (d : Dev) (lane : Nat) : d.Moves (d.laneFailed lane) [(R.PORT_LANE_STAT_TRAIN_FAILS lane).addr] [.time] :=
  ((Moves.refl d _ _).advanceClock (by simp) _).put (by simp)

/-- Training that begins where it had begun moves no word. -/
theorem word_startTraining {d : Dev} {sp : Nat} (h : d.get (R.PORT_SUBPORT_STAT_TRAINING sp) = 1) (a : Nat) :
    (d.startTraining sp).word a = d.word a :=
  (congrArg (fun v => (d.put (R.PORT_SUBPORT_STAT_TRAINING sp) v).word a) h.symm).trans (d.word_put_get _ a)

theorem laneSub_lt (d : Dev) {lane : Nat} (h : lane < 8) : d.laneSub lane < 8 := (Nat.div_le_self _ _).trans_lt h

theorem trainViol_ne (sp l : Nat) (hsp : sp < 8) : (R.PORT_LANE_STAT_TRAIN_FAILS l).addr ≠ C.PORT_TRAIN_VIOL sp
    ∧ R.PORT_CFG_BREAKOUT.addr ≠ C.PORT_TRAIN_VIOL sp ∧ (R.PORT_LANE_STAT_TRAIN_FAILS l).addr ≠ (R.PORT_SUBPORT_STAT_TRAINING sp).addr := by
  refine ⟨?_, ?_, laneStat_ne_subportStat hsp l⟩
  · simp only [R.PORT_LANE_STAT_TRAIN_FAILS, C.PORT_TRAIN_VIOL, RegMap.nowhere, hsp, if_true]
    split <;> omega
  · simp only [R.PORT_CFG_BREAKOUT, C.PORT_TRAIN_VIOL, hsp, if_true]
    omega

end Dev

theorem exec_trainingViolation (s : State) (lane : Fin 8) : exec (.trainingViolation lane) s = s.live fun d => d.trainingViolation lane.val := rfl

theorem trainingViolation_training {s : State} {lane : Fin 8} (hr : s.Running)
    (h : s.dev.on (R.PORT_SUBPORT_STAT_TRAINING (s.dev.laneSub lane.val)) = true) : Completes (.trainingViolation lane) s fun d =>
      d.get (R.PORT_LANE_STAT_TRAIN_FAILS lane.val) = min 255 (s.dev.get (R.PORT_LANE_STAT_TRAIN_FAILS lane.val) + 1)
        ∧ s.dev.Counts d (C.PORT_TRAIN_VIOL (s.dev.laneSub lane.val)) 1
        ∧ d.clockNs = max s.dev.clockNs (s.dev.sub (s.dev.laneSub lane.val)).retrainNs
        ∧ (s.dev.laneSub lane.val < s.dev.port.subs.length → d.failedOften (s.dev.laneSub lane.val) = true →
            (d.sub (s.dev.laneSub lane.val)).retrainNs = d.clockNs + 100000000)
        ∧ (d.failedOften (s.dev.laneSub lane.val) = false →
            (d.sub (s.dev.laneSub lane.val)).retrainNs = (s.dev.sub (s.dev.laneSub lane.val)).retrainNs)
        ∧ s.dev.Moves d [(R.PORT_LANE_STAT_TRAIN_FAILS lane.val).addr, C.PORT_TRAIN_VIOL (s.dev.laneSub lane.val)] [.time, .port, .lpe] := by
  obtain ⟨sp, hsp⟩ : ∃ sp, sp = s.dev.laneSub lane.val := ⟨_, rfl⟩
  have hsp8 : sp < 8 := hsp ▸ s.dev.laneSub_lt lane.isLt
  have he := Dev.trainingViolation_eq h
  rw [← hsp] at h he ⊢
  obtain ⟨x, hx⟩ : ∃ x, x = s.dev.laneFailed lane.val := ⟨_, rfl⟩
  obtain ⟨y, hy⟩ : ∃ y, y = x.attemptsSpaced sp := ⟨_, rfl⟩
  rw [← hx, ← hy] at he
  have hmx : s.dev.Moves x [(R.PORT_LANE_STAT_TRAIN_FAILS lane.val).addr] [.time] := hx ▸ s.dev.moves_laneFailed lane.val
  have hmy : x.Moves y [] [.port] := hy ▸ x.moves_attemptsSpaced sp
  obtain ⟨hfv, hbv, -⟩ := Dev.trainViol_ne sp lane.val hsp8
  have htraining : y.get (R.PORT_SUBPORT_STAT_TRAINING sp) = 1 := by
    rw [hmy.get (by simp), hmx.get (by simpa using (Dev.trainViol_ne sp lane.val hsp8).2.2.symm)]
    exact (Dev.on_iff rfl).1 h
  have hms : y.Moves (y.startTraining sp) [] [.port] :=
    ⟨fun a _ => Dev.word_startTraining htraining a, (y.moves_startTraining sp).parts, (y.moves_startTraining sp).memory⟩
  have hm3 : s.dev.Moves (y.startTraining sp) [(R.PORT_LANE_STAT_TRAIN_FAILS lane.val).addr] [.time, .port, .lpe] :=
    (hmx.mono (by simp) (by simp)).trans ((hmy.trans hms).mono (by simp) (by simp))
  obtain ⟨z, hz⟩ : ∃ z, z = ((y.startTraining sp).bump (C.PORT_TRAIN_VIOL sp)).health 9 sp := ⟨_, rfl⟩
  rw [← hz] at he
  have hmz : (y.startTraining sp).Moves z [C.PORT_TRAIN_VIOL sp] [.lpe] :=
    hz ▸ ((Dev.Moves.refl _ _ _).bump (by simp)).health (by simp) _ _ _
  have hm : s.dev.Moves z [(R.PORT_LANE_STAT_TRAIN_FAILS lane.val).addr, C.PORT_TRAIN_VIOL sp] [.time, .port, .lpe] :=
    (hm3.mono (by simp) (fun _ h => h)).trans (hmz.mono (by simp) (by simp))
  have hxz : x.Moves z [C.PORT_TRAIN_VIOL sp] [.port, .lpe] :=
    ((hmy.trans hms).mono (by simp) (by simp)).trans (hmz.mono (fun _ h => h) (by simp))
  have hoften : z.failedOften sp = x.failedOften sp :=
    Dev.failedOften_congr (hxz.get (by simpa using hbv)) (fun l => hxz.get (by simpa using (Dev.trainViol_ne sp l hsp8).1)) sp
  have hclock : z.clockNs = x.clockNs := Dev.clockNs_congr (hxz.parts .time (by simp)).1 (hxz.parts .sup (by simp))
  have hzport : z.port = (y.startTraining sp).port := hmz.parts .port (by simp)
  have hsub : z.sub sp = y.sub sp := (congrArg (fun p : Port => p.subs.getD sp SubPort.empty) hzport).trans (y.sub_startTraining sp sp)
  have hxport : x.port = s.dev.port := hmx.parts .port (by simp)
  refine .ofLive hr (exec_trainingViolation s lane) (by rw [he]; exact hm.parts .life (by simp)) ?_
  rw [he]
  refine ⟨?_, ?_, ?_, fun hl ho => ?_, fun ho => ?_, hm⟩
  · rw [hxz.get (by simpa using hfv), hx, Dev.laneFailed, Dev.get_put_same _ _ _ (by simp [R.PORT_LANE_STAT_TRAIN_FAILS])]
    exact Nat.mod_eq_of_lt (by simp [R.PORT_LANE_STAT_TRAIN_FAILS])
  · rw [hz]
    exact Dev.counts_of_bump hm3 (by simpa using hfv.symm) ((Dev.Moves.refl _ [] [.lpe]).health (by simp) _ _ _) (by simp)
  · rw [hclock, hx, hsp]
    exact s.dev.clockNs_advanceClock _
  · rw [hsub, hy, Dev.attemptsSpaced, if_pos (hoften ▸ ho), Dev.sub_modSub, if_pos ⟨rfl, hxport ▸ hl⟩, hclock]
  · rw [hsub, hy, Dev.attemptsSpaced, if_neg (by rw [← hoften, ho]; exact Bool.false_ne_true), Dev.sub, hxport]
    rfl

end Sys2Proof.Machine
end

section
/-! A lane's failure (R55, R56, R552): the lane marked and recorded, every link of the breakout lost, the next breakout's configuration
inherited, its sub-ports trained or held down; O16. -/

namespace Sys2Proof.Machine

/-! ### The words of lanes and sub-ports -/

/-- The words that a lane's failure may move: those of every sub-port and lane, and what the release of pauses counts. -/
def laneFailWords : List Nat := RegMap.nowhere :: R.PORT_CFG_BREAKOUT.addr :: flowWords ++ (List.range 8).flatMap fun n =>
  [(R.PORT_SUBPORT_CFG_MODE n).addr, (R.PORT_SIDECAR_DA_DA n).addr, (R.PORT_SUBPORT_STAT_LINK_UP n).addr, (R.PORT_LANE_STAT_TRAINED n).addr,
    C.PORT_TX_LINK_DOWN n]

theorem mem_laneFailWords {n a : Nat} (hn : n < 8) (h : a ∈ [(R.PORT_SUBPORT_CFG_MODE n).addr, (R.PORT_SIDECAR_DA_DA n).addr,
    (R.PORT_SUBPORT_STAT_LINK_UP n).addr, (R.PORT_LANE_STAT_TRAINED n).addr, C.PORT_TX_LINK_DOWN n]) : a ∈ laneFailWords :=
  List.mem_append_right _ (List.mem_flatMap.2 ⟨n, List.mem_range.2 hn, h⟩)

theorem laneStat_mem_laneFailWords (l : Nat) : (R.PORT_LANE_STAT_TRAINED l).addr ∈ laneFailWords := by
  by_cases hl : l < 8
  · exact mem_laneFailWords hl (by simp)
  · rw [R.PORT_LANE_STAT_TRAINED, if_neg hl]
    simp [laneFailWords]

theorem flowWords_subset_laneFailWords : flowWords ⊆ laneFailWords := fun _ h => List.mem_append_left _ (by simp [h])

theorem lostWords_subset (d : Dev) {sp : Nat} (hsp : sp < 8) : d.lostWords sp ⊆ laneFailWords := by
  intro a ha
  rcases List.mem_append.1 ha with ha | ha
  · rcases List.mem_cons.1 ha with rfl | ha
    · exact mem_laneFailWords hsp (by simp)
    · rcases List.mem_cons.1 ha with rfl | ha
      · exact mem_laneFailWords hsp (by simp)
      · obtain ⟨l, -, rfl⟩ := List.mem_map.1 ha
        exact laneStat_mem_laneFailWords l
  · exact flowWords_subset_laneFailWords ha

/-- The configuration of a sub-port is no word of a link, of a lane or of the counts. -/
theorem config_not_mem_counts : ∀ sp < 8, ∀ n < 8, (R.PORT_SUBPORT_CFG_MODE n).addr ∉ C.PORT_TX_LINK_DOWN sp :: flowWords
    ∧ (R.PORT_SIDECAR_DA_DA n).addr ∉ C.PORT_TX_LINK_DOWN sp :: flowWords := by decide

theorem config_ne_stat {n : Nat} (hn : n < 8) (x : Nat) : (R.PORT_SUBPORT_CFG_MODE n).addr ≠ (R.PORT_SUBPORT_STAT_LINK_UP x).addr
    ∧ (R.PORT_SIDECAR_DA_DA n).addr ≠ (R.PORT_SUBPORT_STAT_LINK_UP x).addr
    ∧ (R.PORT_SUBPORT_CFG_MODE n).addr ≠ (R.PORT_LANE_STAT_TRAINED x).addr
    ∧ (R.PORT_SIDECAR_DA_DA n).addr ≠ (R.PORT_LANE_STAT_TRAINED x).addr ∧ (R.PORT_SUBPORT_CFG_MODE n).addr ≠ R.PORT_CFG_BREAKOUT.addr
    ∧ (R.PORT_SIDECAR_DA_DA n).addr ≠ R.PORT_CFG_BREAKOUT.addr := by
  simp only [R.PORT_SUBPORT_CFG_MODE, R.PORT_SIDECAR_DA_DA, R.PORT_SUBPORT_STAT_LINK_UP, R.PORT_LANE_STAT_TRAINED, R.PORT_CFG_BREAKOUT,
    RegMap.nowhere, hn, if_true]
  split <;> omega

theorem config_not_mem_lostWords (d : Dev) {sp n : Nat} (hsp : sp < 8) (hn : n < 8) :
    (R.PORT_SUBPORT_CFG_MODE n).addr ∉ d.lostWords sp ∧ (R.PORT_SIDECAR_DA_DA n).addr ∉ d.lostWords sp := by
  have hout (a : Nat) (hc : a ∉ C.PORT_TX_LINK_DOWN sp :: flowWords) (hs : a ≠ (R.PORT_SUBPORT_STAT_LINK_UP sp).addr)
      (hl : ∀ l, a ≠ (R.PORT_LANE_STAT_TRAINED l).addr) : a ∉ d.lostWords sp := by
    simp only [Dev.lostWords, Dev.linkWords, List.mem_append, List.mem_cons, List.mem_map, not_or] at hc ⊢
    exact ⟨⟨hc.1, hs, fun ⟨l, _, h⟩ => hl l h.symm⟩, hc.2⟩
  obtain ⟨hcfg, hda⟩ := config_not_mem_counts sp hsp n hn
  exact ⟨hout _ hcfg (config_ne_stat hn sp).1 fun l => (config_ne_stat hn l).2.2.1,
    hout _ hda (config_ne_stat hn sp).2.1 fun l => (config_ne_stat hn l).2.2.2.1⟩

namespace Dev

/-! ### Fields that the loss of a link leaves -/

/-- A field that the loss of a sub-port's link leaves. -/
structure OffLink (sp : Nat) (g : Fld) : Prop where
  up : (R.PORT_SUBPORT_STAT_LINK_UP sp).apart g
  training : (R.PORT_SUBPORT_STAT_TRAINING sp).apart g
  paused : (R.PORT_SUBPORT_STAT_PAUSED sp).apart g
  trained : ∀ l, (R.PORT_LANE_STAT_TRAINED l).apart g
  counts : g.addr ∉ C.PORT_TX_LINK_DOWN sp :: flowWords

theorem get_linkDown (d : Dev) {sp : Nat} (train : Bool) {g : Fld} (h : OffLink sp g) : (d.linkDown sp train).get g = d.get g := by
  rw [linkDown_eq, (moves_discardHeld _ sp).get h.counts, get_linkLowered _ _ _ h.training]
  exact d.get_linkCleared sp h.up h.training h.paused h.trained

theorem offLink_failed {sp : Nat} (hsp : sp < 8) (l : Nat) : OffLink sp (R.PORT_LANE_STAT_FAILED l) where
  up := .inl (laneStat_ne_subportStat hsp l)
  training := .inl (laneStat_ne_subportStat hsp l)
  paused := .inl (laneStat_ne_subportStat hsp l)
  trained _ := .inr (by simp [R.PORT_LANE_STAT_TRAINED, R.PORT_LANE_STAT_FAILED])
  counts := laneStat_off_counts hsp l

theorem breakout_not_mem_counts : ∀ sp < 8, R.PORT_CFG_BREAKOUT.addr ∉ C.PORT_TX_LINK_DOWN sp :: flowWords := by decide

theorem offLink_breakout {sp : Nat} (hsp : sp < 8) : OffLink sp R.PORT_CFG_BREAKOUT where
  up := .inl (breakout_ne_subportStat sp)
  training := .inl (breakout_ne_subportStat sp)
  paused := .inl (breakout_ne_subportStat sp)
  trained l := .inl (breakout_ne_laneStat l)
  counts := breakout_not_mem_counts sp hsp

theorem offLink_mode {sp n : Nat} (hsp : sp < 8) (hn : n < 8) : OffLink sp (R.PORT_SUBPORT_STAT_MODE_ACTIVE n) where
  up := .inr (by simp [R.PORT_SUBPORT_STAT_LINK_UP, R.PORT_SUBPORT_STAT_MODE_ACTIVE])
  training := .inr (by simp [R.PORT_SUBPORT_STAT_TRAINING, R.PORT_SUBPORT_STAT_MODE_ACTIVE])
  paused := .inr (by simp [R.PORT_SUBPORT_STAT_PAUSED, R.PORT_SUBPORT_STAT_MODE_ACTIVE])
  trained l := .inl (laneStat_ne_subportStat hn l).symm
  counts := linkUp_not_mem_counts sp hsp n hn

/-! ### The lane marked (R55, R552) -/

/-- The lane marked failed, in the life record and in the standing copy. -/
def laneMarked (d : Dev) (lane : Nat) : Dev :=
  ((((d.put (R.PORT_LANE_STAT_FAILED lane) 1).put (R.PORT_LANE_STAT_TRAINED lane) 0).health 0x14 lane).lifeEntry 0x2C lane [] true).standingWrite

theorem moves_standingWrite (d : Dev) : d.Moves d.standingWrite [] [.lpe] :=
  .ite ((Moves.refl d _ _).withLpe (by simp) _) ((Moves.refl d _ _).withLpe (by simp) _)

theorem moves_laneMarked (d : Dev) (lane : Nat) : d.Moves (d.laneMarked lane) [(R.PORT_LANE_STAT_TRAINED lane).addr] [.lpe] :=
  have hput := ((Moves.refl d [(R.PORT_LANE_STAT_TRAINED lane).addr] [.lpe]).put (f := R.PORT_LANE_STAT_FAILED lane)
    (v := 1) (List.mem_singleton.2 rfl)).put (f := R.PORT_LANE_STAT_TRAINED lane) (v := 0) (List.mem_singleton.2 rfl)
  ((hput.health (by simp) _ _ _).withLpe (by simp) _).trans ((moves_standingWrite _).mono (by simp) (by simp))

theorem get_laneMarked (d : Dev) (lane : Nat) (g : Fld) :
    (d.laneMarked lane).get g = ((d.put (R.PORT_LANE_STAT_FAILED lane) 1).put (R.PORT_LANE_STAT_TRAINED lane) 0).get g :=
  get_congr (standingWrite_regs _) g

theorem failed_laneMarked (d : Dev) {lane : Nat} (h : lane < 8) (l : Nat) : (d.laneMarked lane).get (R.PORT_LANE_STAT_FAILED l)
    = if l = lane then 1 else d.get (R.PORT_LANE_STAT_FAILED l) := by
  rw [get_laneMarked, get_put_apart _ _ _ _ (by simp [R.PORT_LANE_STAT_TRAINED]) (by simp [R.PORT_LANE_STAT_TRAINED, R.PORT_LANE_STAT_FAILED])]
  split
  · next hl =>
    rw [hl]
    exact get_put_same _ _ _ (by simp [R.PORT_LANE_STAT_FAILED])
  · next hl =>
    refine get_put_other _ _ _ _ ?_
    simp only [R.PORT_LANE_STAT_FAILED, RegMap.nowhere, h, if_true]
    split <;> omega

theorem trained_laneMarked (d : Dev) (lane : Nat) : (d.laneMarked lane).get (R.PORT_LANE_STAT_TRAINED lane) = 0 := by
  rw [get_laneMarked]
  exact get_put_same _ _ _ (by simp [R.PORT_LANE_STAT_TRAINED])

/-- The life record has one entry more, and a write of the standing copy runs; one that ran already is to be repeated. -/
theorem lpe_laneMarked (d : Dev) (lane : Nat) : (d.laneMarked lane).lpe.lifePend.length = d.lpe.lifePend.length + 1
    ∧ (d.laneMarked lane).lpe.copyBusy = true ∧ (d.lpe.copyBusy = true → (d.laneMarked lane).lpe.copyQueued = true) := by
  have hs (e : Dev) : e.standingWrite.lpe.lifePend = e.lpe.lifePend ∧ e.standingWrite.lpe.copyBusy = true
      ∧ (e.lpe.copyBusy = true → e.standingWrite.lpe.copyQueued = true) := by
    unfold standingWrite
    split
    · next h => exact ⟨rfl, h, fun _ => rfl⟩
    · next h => exact ⟨rfl, rfl, fun hb => absurd hb h⟩
  obtain ⟨hpend, hbusy, hqueued⟩ := hs
    ((((d.put (R.PORT_LANE_STAT_FAILED lane) 1).put (R.PORT_LANE_STAT_TRAINED lane) 0).health 0x14 lane).lifeEntry 0x2C lane [] true)
  exact ⟨(congrArg List.length hpend).trans List.length_append, hbusy, hqueued⟩

/-! ### Every link of the breakout lost (R56) -/

def allDown (d : Dev) : Dev := d.each (List.range d.subPorts) fun d sp => d.linkDown sp true

theorem lt_of_mem_subPorts {d : Dev} {sp : Nat} (h : sp ∈ List.range d.subPorts) : sp < 8 := (List.mem_range.1 h).trans_le d.subPorts_le

theorem moves_allDown (d : Dev) : d.Moves d.allDown laneFailWords [.port, .front] :=
  (Moves.refl d _ _).each fun _ hx e h =>
    h.trans ((e.moves_linkDown true).mono (lostWords_subset e (lt_of_mem_subPorts hx)) (fun _ h => h))

/-- What the loss of each link keeps, the loss of all does. -/
theorem allDown_keeps {β : Type} (d : Dev) (p : Dev → β) (h : ∀ e sp, sp < 8 → p (e.linkDown sp true) = p e) : p d.allDown = p d :=
  (each_all (fun e => p e = p d) (fun _ _ => True) rfl (fun e x hx he => (h e x (lt_of_mem_subPorts hx)).trans he) (fun _ _ _ _ => trivial)
    fun _ _ _ _ _ _ _ _ => trivial).1

theorem up_allDown (d : Dev) : ∀ sp ∈ List.range d.subPorts, d.allDown.up sp = false :=
  (each_all (fun _ => True) (fun sp e => e.up sp = false) trivial (fun _ _ _ _ => trivial)
    (fun e _ hx _ => e.up_linkDown true (lt_of_mem_subPorts hx))
    fun e _ _ hx hy hne _ hu => (e.up_linkDown_other true (lt_of_mem_subPorts hx) (lt_of_mem_subPorts hy) hne).trans hu).2

theorem trained_allDown {d : Dev} {l : Nat} (h : d.get (R.PORT_LANE_STAT_TRAINED l) = 0) : d.allDown.get (R.PORT_LANE_STAT_TRAINED l) = 0 :=
  (each_all (fun e => e.get (R.PORT_LANE_STAT_TRAINED l) = 0) (fun _ _ => True) h
    (fun e _ hx he => e.trained_linkDown true (lt_of_mem_subPorts hx) (.inr he)) (fun _ _ _ _ => trivial) fun _ _ _ _ _ _ _ _ => trivial).1

/-! ### The configuration inherited (R56) -/

/-- A new sub-port takes the configuration of the one whose lanes it holds. -/
def inherit (old d : Dev) (n : Nat) : Dev :=
  (((d.setWord (R.PORT_SUBPORT_CFG_MODE n).addr (old.word (R.PORT_SUBPORT_CFG_MODE (n / 2)).addr)).setWord (R.PORT_SIDECAR_DA_DA n).addr
    (old.word (R.PORT_SIDECAR_DA_DA (n / 2)).addr)).put (R.PORT_SUBPORT_STAT_MODE_ACTIVE n) (old.mode (n / 2))).put
    (R.PORT_SUBPORT_STAT_MODE_PENDING n) (old.get (R.PORT_SUBPORT_STAT_MODE_PENDING (n / 2)))

theorem inheritConfig_eq (d : Dev) : d.inheritConfig = d.each (List.range (2 * d.subPorts)) (inherit d) := rfl

/-- A field that the inheritance leaves, whichever sub-port inherits. -/
structure OffConfig (g : Fld) : Prop where
  cfg : ∀ n < 8, g.addr ≠ (R.PORT_SUBPORT_CFG_MODE n).addr
  da : ∀ n < 8, g.addr ≠ (R.PORT_SIDECAR_DA_DA n).addr
  active : ∀ n < 8, (R.PORT_SUBPORT_STAT_MODE_ACTIVE n).apart g
  pending : ∀ n < 8, (R.PORT_SUBPORT_STAT_MODE_PENDING n).apart g

theorem get_inherit (old d : Dev) {n : Nat} (hn : n < 8) {g : Fld} (h : OffConfig g) : (old.inherit d n).get g = d.get g := by
  have hset (e : Dev) (a v : Nat) (ha : g.addr ≠ a) : (e.setWord a v).get g = e.get g := by
    unfold get
    rw [e.word_setWord_other v ha]
  unfold inherit
  rw [get_put_of_apart _ _ (by simp [R.PORT_SUBPORT_STAT_MODE_PENDING]) (h.pending n hn),
    get_put_of_apart _ _ (by simp [R.PORT_SUBPORT_STAT_MODE_ACTIVE]) (h.active n hn), hset _ _ _ (h.da n hn), hset _ _ _ (h.cfg n hn)]

theorem offConfig_lane (f : Nat → Fld) (hf : ∀ l, (f l).addr = (R.PORT_LANE_STAT_TRAINED l).addr) (l : Nat) : OffConfig (f l) where
  cfg _ hn := hf l ▸ (config_ne_stat hn l).2.2.1.symm
  da _ hn := hf l ▸ (config_ne_stat hn l).2.2.2.1.symm
  active _ hn := .inl (hf l ▸ laneStat_ne_subportStat hn l)
  pending _ hn := .inl (hf l ▸ laneStat_ne_subportStat hn l)

theorem offConfig_breakout : OffConfig R.PORT_CFG_BREAKOUT where
  cfg _ hn := (config_ne_stat hn 0).2.2.2.2.1.symm
  da _ hn := (config_ne_stat hn 0).2.2.2.2.2.symm
  active n _ := .inl (breakout_ne_subportStat n)
  pending n _ := .inl (breakout_ne_subportStat n)

theorem offConfig_linkUp (sp : Nat) : OffConfig (R.PORT_SUBPORT_STAT_LINK_UP sp) where
  cfg _ hn := (config_ne_stat hn sp).1.symm
  da _ hn := (config_ne_stat hn sp).2.1.symm
  active _ _ := .inr (by simp [R.PORT_SUBPORT_STAT_LINK_UP, R.PORT_SUBPORT_STAT_MODE_ACTIVE])
  pending _ _ := .inr (by simp [R.PORT_SUBPORT_STAT_LINK_UP, R.PORT_SUBPORT_STAT_MODE_PENDING])

theorem moves_inherit (old d : Dev) {n : Nat} (hn : n < 8) : d.Moves (old.inherit d n) laneFailWords [.port, .front] := by
  have hmem (a : Nat) (h : a ∈ [(R.PORT_SUBPORT_CFG_MODE n).addr, (R.PORT_SIDECAR_DA_DA n).addr, (R.PORT_SUBPORT_STAT_LINK_UP n).addr]) :
      a ∈ laneFailWords := mem_laneFailWords hn (List.mem_append_left _ h)
  have h1 : (R.PORT_SUBPORT_STAT_LINK_UP n).addr ∈ laneFailWords := hmem _ (by simp)
  exact ((((Moves.refl d _ _).setWord (hmem _ (by simp))).setWord (hmem _ (by simp))).put (f := R.PORT_SUBPORT_STAT_MODE_ACTIVE n) h1).put
    (f := R.PORT_SUBPORT_STAT_MODE_PENDING n) h1

/-- The configuration of a sub-port is that of another of a device before. -/
def ConfigOf (d old : Dev) (n m : Nat) : Prop :=
  d.word (R.PORT_SUBPORT_CFG_MODE n).addr = old.word (R.PORT_SUBPORT_CFG_MODE m).addr
    ∧ d.word (R.PORT_SIDECAR_DA_DA n).addr = old.word (R.PORT_SIDECAR_DA_DA m).addr ∧ d.mode n = old.mode m

theorem config_addr_ne {n m : Nat} (hn : n < 8) : (R.PORT_SUBPORT_CFG_MODE n).addr ≠ (R.PORT_SIDECAR_DA_DA m).addr
    ∧ (n ≠ m → (R.PORT_SUBPORT_CFG_MODE n).addr ≠ (R.PORT_SUBPORT_CFG_MODE m).addr
      ∧ (R.PORT_SIDECAR_DA_DA n).addr ≠ (R.PORT_SIDECAR_DA_DA m).addr
      ∧ (R.PORT_SUBPORT_STAT_LINK_UP n).addr ≠ (R.PORT_SUBPORT_STAT_LINK_UP m).addr)
    ∧ (R.PORT_SIDECAR_DA_DA n).addr ≠ (R.PORT_SUBPORT_CFG_MODE m).addr := by
  simp only [R.PORT_SUBPORT_CFG_MODE, R.PORT_SIDECAR_DA_DA, R.PORT_SUBPORT_STAT_LINK_UP, RegMap.nowhere, hn, if_true]
  split <;> omega

theorem word_inherit (old d : Dev) (n : Nat) {a : Nat} (ha : a ≠ (R.PORT_SUBPORT_STAT_LINK_UP n).addr) : (old.inherit d n).word a =
    ((d.setWord (R.PORT_SUBPORT_CFG_MODE n).addr (old.word (R.PORT_SUBPORT_CFG_MODE (n / 2)).addr)).setWord (R.PORT_SIDECAR_DA_DA n).addr
      (old.word (R.PORT_SIDECAR_DA_DA (n / 2)).addr)).word a :=
  (word_put_other _ (R.PORT_SUBPORT_STAT_MODE_PENDING n) _ ha).trans (word_put_other _ (R.PORT_SUBPORT_STAT_MODE_ACTIVE n) _ ha)

theorem configOf_inherit (old d : Dev) {n : Nat} (hn : n < 8) : (old.inherit d n).ConfigOf old n (n / 2) := by
  obtain ⟨hcfg, hda, -⟩ := config_ne_stat hn n
  refine ⟨?_, ?_, ?_⟩
  · rw [word_inherit _ _ _ hcfg, word_setWord_other _ _ (config_addr_ne hn).1, word_setWord_same, Nat.mod_eq_of_lt (word_lt _ _)]
  · rw [word_inherit _ _ _ hda, word_setWord_same, Nat.mod_eq_of_lt (word_lt _ _)]
  · unfold mode inherit
    rw [get_put_apart _ _ _ _ (by simp [R.PORT_SUBPORT_STAT_MODE_PENDING])
      (by simp [R.PORT_SUBPORT_STAT_MODE_PENDING, R.PORT_SUBPORT_STAT_MODE_ACTIVE]), get_put_same _ _ _ (by simp [R.PORT_SUBPORT_STAT_MODE_ACTIVE])]
    exact Nat.mod_eq_of_lt (old.get_lt (R.PORT_SUBPORT_STAT_MODE_ACTIVE (n / 2)))

theorem configOf_inherit_other (old d : Dev) {n m k : Nat} (hn : n < 8) (hm : m < 8) (hne : m ≠ n) (h : d.ConfigOf old m k) :
    (old.inherit d n).ConfigOf old m k := by
  obtain ⟨hw, hd, ha⟩ := h
  obtain ⟨hcfg, hda, -⟩ := config_ne_stat hm n
  obtain ⟨hcd, hno, hdc⟩ := config_addr_ne (m := n) hm
  obtain ⟨hcc, hdd, hss⟩ := hno hne
  refine ⟨?_, ?_, ?_⟩
  · rw [word_inherit _ _ _ hcfg, word_setWord_other _ _ hcd, word_setWord_other _ _ hcc, hw]
  · rw [word_inherit _ _ _ hda, word_setWord_other _ _ hdd, word_setWord_other _ _ hdc, hd]
  · rw [← ha]
    unfold mode get
    refine congrArg (bitsOf · _ _) ?_
    have hword : (R.PORT_SUBPORT_STAT_MODE_ACTIVE m).addr = (R.PORT_SUBPORT_STAT_LINK_UP m).addr := rfl
    rw [hword, word_inherit _ _ _ hss, word_setWord_other _ _ (config_ne_stat hn m).2.1.symm, word_setWord_other _ _ (config_ne_stat hn m).1.symm]

theorem ConfigOf.of_moves {d e old : Dev} {ws : List Nat} {ps : List Part} {n m : Nat} (h : d.ConfigOf old n m) (hm : d.Moves e ws ps)
    (hc : (R.PORT_SUBPORT_CFG_MODE n).addr ∉ ws) (hd : (R.PORT_SIDECAR_DA_DA n).addr ∉ ws) (ha : e.mode n = d.mode n) : e.ConfigOf old n m := by
  obtain ⟨hcfg, hda, hmode⟩ := h
  exact ⟨(hm.words _ hc).trans hcfg, (hm.words _ hd).trans hda, ha.trans hmode⟩

section

variable {d : Dev} (hb : d.get R.PORT_CFG_BREAKOUT < 3)
include hb

theorem two_mul_subPorts_le : 2 * d.subPorts ≤ 8 := by
  have h : d.subPorts ≤ 2 ^ 2 := Nat.pow_le_pow_right (by decide) (Nat.lt_succ_iff.1 hb)
  omega

theorem lt_of_mem_new {n : Nat} (h : n ∈ List.range (2 * d.subPorts)) : n < 8 := (List.mem_range.1 h).trans_le (two_mul_subPorts_le hb)

theorem moves_inheritConfig : d.Moves d.inheritConfig laneFailWords [.port, .front] :=
  (Moves.refl d _ _).each fun _ hx e h => h.trans (d.moves_inherit e (lt_of_mem_new hb hx))

theorem get_inheritConfig {g : Fld} (h : OffConfig g) : d.inheritConfig.get g = d.get g :=
  (each_all (fun e => e.get g = d.get g) (fun _ _ => True) rfl (fun e _ hx he => (d.get_inherit e (lt_of_mem_new hb hx) h).trans he)
    (fun _ _ _ _ => trivial) fun _ _ _ _ _ _ _ _ => trivial).1

theorem configOf_inheritConfig : ∀ n ∈ List.range (2 * d.subPorts), d.inheritConfig.ConfigOf d n (n / 2) :=
  (each_all (fun _ => True) (fun n e => e.ConfigOf d n (n / 2)) trivial (fun _ _ _ _ => trivial)
    (fun e _ hx _ => d.configOf_inherit e (lt_of_mem_new hb hx))
    fun e _ _ hx hy hne _ h => d.configOf_inherit_other e (lt_of_mem_new hb hx) (lt_of_mem_new hb hy) hne h).2

end

theorem regs_inheritRetrain (d : Dev) (old : List SubPort) : (d.inheritRetrain old).regs = d.regs := each_keeps (·.regs) _ _ d fun _ _ => rfl

theorem moves_inheritRetrain (d : Dev) (old : List SubPort) : d.Moves (d.inheritRetrain old) [] [.port] :=
  (Moves.refl d _ _).each fun _ _ _ h => h.modSub (by simp) _ _

/-! ### The new sub-ports trained, or held down (R56) -/

/-- A sub-port of the new breakout trains, or is held down by its failed lane. -/
def trainOrHold (d : Dev) (sp : Nat) : Dev :=
  let bad := d.hasFailedLane sp
  let d := (d.put (R.PORT_SUBPORT_STAT_DOWN_BY_LANE sp) (b2n bad)).put (R.PORT_SUBPORT_STAT_TRAINING sp) 0
  if bad then d else d.startTraining sp

theorem get_trainOrHold (d : Dev) (sp : Nat) {g : Fld} (hd : (R.PORT_SUBPORT_STAT_DOWN_BY_LANE sp).apart g)
    (ht : (R.PORT_SUBPORT_STAT_TRAINING sp).apart g) : (d.trainOrHold sp).get g = d.get g := by
  have h (v : Nat) : ((d.put (R.PORT_SUBPORT_STAT_DOWN_BY_LANE sp) v).put (R.PORT_SUBPORT_STAT_TRAINING sp) 0).get g = d.get g := by
    rw [get_put_of_apart _ _ (by simp [R.PORT_SUBPORT_STAT_TRAINING]) ht, get_put_of_apart _ _ (by simp [R.PORT_SUBPORT_STAT_DOWN_BY_LANE]) hd]
  unfold trainOrHold
  dsimp only
  split
  · exact h _
  · exact (get_startTraining _ sp ht).trans (h _)

theorem moves_trainOrHold (d : Dev) (sp : Nat) : d.Moves (d.trainOrHold sp) [(R.PORT_SUBPORT_STAT_LINK_UP sp).addr] [.port] := by
  have h (v : Nat) : d.Moves ((d.put (R.PORT_SUBPORT_STAT_DOWN_BY_LANE sp) v).put (R.PORT_SUBPORT_STAT_TRAINING sp) 0)
      [(R.PORT_SUBPORT_STAT_LINK_UP sp).addr] [.port] :=
    ((Moves.refl d _ _).put (f := R.PORT_SUBPORT_STAT_DOWN_BY_LANE sp) (List.mem_singleton.2 rfl)).put
      (f := R.PORT_SUBPORT_STAT_TRAINING sp) (List.mem_singleton.2 rfl)
  exact .ite (h _) ((h _).trans (moves_startTraining _ sp))

/-- Whether the sub-port is held down shows in its state. -/
def HeldBy (d : Dev) (bad : Bool) (sp : Nat) : Prop :=
  d.get (R.PORT_SUBPORT_STAT_DOWN_BY_LANE sp) = b2n bad ∧ d.get (R.PORT_SUBPORT_STAT_TRAINING sp) = b2n (!bad)

theorem heldBy_trainOrHold (d : Dev) (sp : Nat) : (d.trainOrHold sp).HeldBy (d.hasFailedLane sp) sp := by
  have hdown (v : Nat) : ((d.put (R.PORT_SUBPORT_STAT_DOWN_BY_LANE sp) v).put (R.PORT_SUBPORT_STAT_TRAINING sp) 0).get
      (R.PORT_SUBPORT_STAT_DOWN_BY_LANE sp) = v % 2 := by
    rw [get_put_apart _ _ _ _ (by simp [R.PORT_SUBPORT_STAT_TRAINING])
      (by simp [R.PORT_SUBPORT_STAT_TRAINING, R.PORT_SUBPORT_STAT_DOWN_BY_LANE])]
    exact get_put_same _ _ _ (by simp [R.PORT_SUBPORT_STAT_DOWN_BY_LANE])
  have hstart (e : Dev) : (e.startTraining sp).get (R.PORT_SUBPORT_STAT_DOWN_BY_LANE sp) = e.get (R.PORT_SUBPORT_STAT_DOWN_BY_LANE sp) :=
    e.get_startTraining sp (.inr (by simp [R.PORT_SUBPORT_STAT_TRAINING, R.PORT_SUBPORT_STAT_DOWN_BY_LANE]))
  unfold trainOrHold HeldBy
  cases d.hasFailedLane sp with
  | true => exact ⟨hdown _, get_put_same _ _ _ (by simp [R.PORT_SUBPORT_STAT_TRAINING])⟩
  | false => exact ⟨(hstart _).trans (hdown _), training_startTraining _ sp⟩

theorem heldBy_trainOrHold_other {d : Dev} {sp x : Nat} {bad : Bool} (hsp : sp < 8) (hne : x ≠ sp) (h : d.HeldBy bad x) :
    (d.trainOrHold sp).HeldBy bad x := by
  obtain ⟨hdown, htraining⟩ := h
  have ha : (R.PORT_SUBPORT_STAT_DOWN_BY_LANE x).addr ≠ (R.PORT_SUBPORT_STAT_DOWN_BY_LANE sp).addr := by
    simp only [R.PORT_SUBPORT_STAT_DOWN_BY_LANE, RegMap.nowhere, hsp, if_true]
    split <;> omega
  exact ⟨(d.get_trainOrHold sp (.inl ha) (.inl ha)).trans hdown,
    (d.get_trainOrHold (g := R.PORT_SUBPORT_STAT_TRAINING x) sp (.inl ha) (.inl ha)).trans htraining⟩

/-- The sub-ports of a breakout just entered. -/
def enterBreakout (d : Dev) : Dev := d.each (List.range d.subPorts) fun d sp => d.trainOrHold sp

theorem moves_enterBreakout (d : Dev) : d.Moves d.enterBreakout laneFailWords [.port, .front] :=
  (Moves.refl d _ _).each fun x hx e h => h.trans ((e.moves_trainOrHold x).mono
    (by simpa using mem_laneFailWords (lt_of_mem_subPorts hx) (by simp)) (by simp))

theorem enterBreakout_keeps {β : Type} (d : Dev) (p : Dev → β) (h : ∀ e sp, sp < 8 → p (e.trainOrHold sp) = p e) : p d.enterBreakout = p d :=
  (each_all (fun e => p e = p d) (fun _ _ => True) rfl (fun e x hx he => (h e x (lt_of_mem_subPorts hx)).trans he) (fun _ _ _ _ => trivial)
    fun _ _ _ _ _ _ _ _ => trivial).1

theorem get_enterBreakout_lane (d : Dev) (f : Nat → Fld) (hf : ∀ l, (f l).addr = (R.PORT_LANE_STAT_TRAINED l).addr) (l : Nat) :
    d.enterBreakout.get (f l) = d.get (f l) :=
  d.enterBreakout_keeps (·.get (f l)) fun e _ hsp =>
    e.get_trainOrHold _ (.inl (hf l ▸ laneStat_ne_subportStat hsp l)) (.inl (hf l ▸ laneStat_ne_subportStat hsp l))

theorem breakout_enterBreakout (d : Dev) : d.enterBreakout.get R.PORT_CFG_BREAKOUT = d.get R.PORT_CFG_BREAKOUT :=
  d.enterBreakout_keeps (·.get R.PORT_CFG_BREAKOUT) fun e sp _ =>
    e.get_trainOrHold _ (.inl (breakout_ne_subportStat sp)) (.inl (breakout_ne_subportStat sp))

theorem heldBy_enterBreakout (d : Dev) : ∀ sp ∈ List.range d.subPorts, d.enterBreakout.HeldBy (d.enterBreakout.hasFailedLane sp) sp := by
  have hbad (e : Dev) (sp x : Nat) (hsp : sp < 8) : (e.trainOrHold sp).hasFailedLane x = e.hasFailedLane x :=
    hasFailedLane_congr (e.get_trainOrHold sp (.inl (breakout_ne_subportStat sp)) (.inl (breakout_ne_subportStat sp)))
      (fun l => e.get_trainOrHold sp (.inl (laneStat_ne_subportStat hsp l)) (.inl (laneStat_ne_subportStat hsp l))) x
  have h := each_all (d := d) (f := fun d sp => d.trainOrHold sp) (xs := List.range d.subPorts)
    (fun e => ∀ x, e.hasFailedLane x = d.hasFailedLane x) (fun sp e => e.HeldBy (d.hasFailedLane sp) sp) (fun _ => rfl)
    (fun e y hy he x => (hbad e y x (lt_of_mem_subPorts hy)).trans (he x)) (fun e y _ he => he y ▸ e.heldBy_trainOrHold y)
    fun e _ _ hx _ hne _ hp => heldBy_trainOrHold_other (lt_of_mem_subPorts hx) hne hp
  obtain ⟨hsame, hheld⟩ := h
  intro sp hsp
  have he : d.enterBreakout.hasFailedLane sp = d.hasFailedLane sp := hsame sp
  rw [he]
  exact hheld sp hsp

/-! ### A lane fails (R55, R56) -/

/-- The device in the next breakout. -/
def nextBreakout (d : Dev) (b : Nat) : Dev :=
  ((d.allDown.inheritConfig.put R.PORT_CFG_BREAKOUT (b + 1)).inheritRetrain d.allDown.inheritConfig.port.subs).enterBreakout

theorem laneFail_eq {d : Dev} {lane : Nat} (h : d.on (R.PORT_LANE_STAT_FAILED lane) = false) : d.laneFail lane =
    if (d.laneMarked lane).get R.PORT_CFG_BREAKOUT = 3 then ((d.laneMarked lane).linkDown lane false).put (R.PORT_SUBPORT_STAT_DOWN_BY_LANE lane) 1
    else (d.laneMarked lane).nextBreakout ((d.laneMarked lane).get R.PORT_CFG_BREAKOUT) := if_neg (by simp [h])

end Dev

end Sys2Proof.Machine
end

section
/-! The next breakout entered after a lane's failure, and what the commands of links and lanes do (R55 to R57, R92); O16. -/

namespace Sys2Proof.Machine

namespace Dev

theorem ConfigOf.trans {d e old : Dev} {n m k : Nat} (h : e.ConfigOf d n m) (h' : d.ConfigOf old m k) : e.ConfigOf old n k := by
  obtain ⟨hcfg, hda, hmode⟩ := h
  obtain ⟨hcfg', hda', hmode'⟩ := h'
  exact ⟨hcfg.trans hcfg', hda.trans hda', hmode.trans hmode'⟩

theorem configOf_allDown (d : Dev) {n : Nat} (hn : n < 8) : d.allDown.ConfigOf d n n :=
  ⟨d.allDown_keeps (·.word (R.PORT_SUBPORT_CFG_MODE n).addr) fun e _ hsp =>
      (e.moves_linkDown true).words _ (config_not_mem_lostWords e hsp hn).1,
    d.allDown_keeps (·.word (R.PORT_SIDECAR_DA_DA n).addr) fun e _ hsp => (e.moves_linkDown true).words _ (config_not_mem_lostWords e hsp hn).2,
    d.allDown_keeps (·.mode n) fun e _ hsp => e.get_linkDown true (offLink_mode hsp hn)⟩

theorem configOf_enterBreakout (d : Dev) {n : Nat} (hn : n < 8) : d.enterBreakout.ConfigOf d n n :=
  ⟨d.enterBreakout_keeps (·.word (R.PORT_SUBPORT_CFG_MODE n).addr) fun e sp _ =>
      (e.moves_trainOrHold sp).words _ (by simpa using (config_ne_stat hn sp).1),
    d.enterBreakout_keeps (·.word (R.PORT_SIDECAR_DA_DA n).addr) fun e sp _ =>
      (e.moves_trainOrHold sp).words _ (by simpa using (config_ne_stat hn sp).2.1),
    d.enterBreakout_keeps (·.mode n) fun e sp _ =>
      e.get_trainOrHold sp (.inr (by simp [R.PORT_SUBPORT_STAT_MODE_ACTIVE, R.PORT_SUBPORT_STAT_DOWN_BY_LANE]))
        (.inr (by simp [R.PORT_SUBPORT_STAT_MODE_ACTIVE, R.PORT_SUBPORT_STAT_TRAINING]))⟩

/-- What the entry into the next breakout leaves, of a device in breakout `b`. -/
structure NextBreakout (d e : Dev) (b : Nat) : Prop where
  moves : d.Moves e laneFailWords [.port, .front]
  failed : ∀ l, e.get (R.PORT_LANE_STAT_FAILED l) = d.get (R.PORT_LANE_STAT_FAILED l)
  untrained : ∀ l, d.get (R.PORT_LANE_STAT_TRAINED l) = 0 → e.get (R.PORT_LANE_STAT_TRAINED l) = 0
  breakout : e.get R.PORT_CFG_BREAKOUT = b + 1
  down : ∀ sp < 2 ^ b, e.up sp = false
  config : ∀ n < 2 ^ (b + 1), e.ConfigOf d n (n / 2)
  held : ∀ n < 2 ^ (b + 1), e.HeldBy (e.hasFailedLane n) n

theorem nextBreakout_spec (d : Dev) {b : Nat} (hb : d.get R.PORT_CFG_BREAKOUT = b) (h3 : b < 3) : d.NextBreakout (d.nextBreakout b) b := by
  obtain ⟨y, hy⟩ : ∃ y, y = d.allDown := ⟨_, rfl⟩
  obtain ⟨z, hz⟩ : ∃ z, z = y.inheritConfig := ⟨_, rfl⟩
  obtain ⟨w, hw⟩ : ∃ w, w = (z.put R.PORT_CFG_BREAKOUT (b + 1)).inheritRetrain z.port.subs := ⟨_, rfl⟩
  have he : d.nextBreakout b = w.enterBreakout := by rw [hw, hz, hy]; rfl
  have hyb : y.get R.PORT_CFG_BREAKOUT = b := hb ▸ hy ▸ d.allDown_keeps (·.get R.PORT_CFG_BREAKOUT) fun e _ hsp =>
    e.get_linkDown true (offLink_breakout hsp)
  have hys : y.subPorts = 2 ^ b := by rw [subPorts, hyb]
  have hds : d.subPorts = 2 ^ b := by rw [subPorts, hb]
  have hy3 : y.get R.PORT_CFG_BREAKOUT < 3 := hyb.symm ▸ h3
  have hmw : z.Moves w [R.PORT_CFG_BREAKOUT.addr] [.port, .front] :=
    hw ▸ ((Moves.refl z _ _).put (by simp)).trans ((moves_inheritRetrain _ _).mono (by simp) (by simp))
  have hzw {g : Fld} (hg : g.addr ≠ R.PORT_CFG_BREAKOUT.addr) : w.get g = z.get g := hmw.get (by simpa using hg)
  have hwb : w.get R.PORT_CFG_BREAKOUT = b + 1 := by
    rw [hw, get_congr (regs_inheritRetrain _ _), get_put_same _ _ _ (by simp [R.PORT_CFG_BREAKOUT])]
    exact Nat.mod_eq_of_lt (show b + 1 < 2 ^ 2 by omega)
  have hws : w.subPorts = 2 ^ (b + 1) := by rw [subPorts, hwb]
  have hdouble : 2 ^ (b + 1) = 2 * 2 ^ b := Nat.pow_succ'
  have hlane (f : Nat → Fld) (hf : ∀ l, (f l).addr = (R.PORT_LANE_STAT_TRAINED l).addr) (l : Nat) : w.enterBreakout.get (f l) = y.get (f l) := by
    rw [get_enterBreakout_lane w f hf, hzw (hf l ▸ (breakout_ne_laneStat l).symm), hz, get_inheritConfig hy3 (offConfig_lane f hf l)]
  rw [he]
  refine ⟨?_, fun l => ?_, fun l hl => ?_, ?_, fun sp hsp => ?_, fun n hn => ?_, fun n hn => ?_⟩
  · have h1 : d.Moves y laneFailWords [.port, .front] := hy ▸ d.moves_allDown
    have h2 : y.Moves z laneFailWords [.port, .front] := hz ▸ moves_inheritConfig hy3
    exact ((h1.trans h2).trans (hmw.mono (by simp [laneFailWords]) (fun _ h => h))).trans w.moves_enterBreakout
  · rw [hlane R.PORT_LANE_STAT_FAILED (fun _ => rfl), hy]
    exact d.allDown_keeps (·.get (R.PORT_LANE_STAT_FAILED l)) fun e _ hsp => e.get_linkDown true (offLink_failed hsp l)
  · rw [hlane R.PORT_LANE_STAT_TRAINED (fun _ => rfl), hy]
    exact trained_allDown hl
  · rw [breakout_enterBreakout, hwb]
  · have hdown : y.up sp = false := hy ▸ d.up_allDown sp (List.mem_range.2 (hds.symm ▸ hsp))
    have hg : w.enterBreakout.get (R.PORT_SUBPORT_STAT_LINK_UP sp) = y.get (R.PORT_SUBPORT_STAT_LINK_UP sp) := by
      rw [w.enterBreakout_keeps (·.get (R.PORT_SUBPORT_STAT_LINK_UP sp)) fun e x _ =>
          e.get_trainOrHold x (.inr (by simp [R.PORT_SUBPORT_STAT_LINK_UP, R.PORT_SUBPORT_STAT_DOWN_BY_LANE]))
            (.inr (by simp [R.PORT_SUBPORT_STAT_LINK_UP, R.PORT_SUBPORT_STAT_TRAINING])),
        hzw (breakout_ne_subportStat sp).symm, hz, get_inheritConfig hy3 (offConfig_linkUp sp)]
    exact (on_congr hg).trans hdown
  · have hn' : n ∈ List.range (2 * y.subPorts) := List.mem_range.2 (by rw [hys]; omega)
    have hn8 : n < 8 := lt_of_mem_new hy3 hn'
    have hzy : z.ConfigOf y n (n / 2) := hz ▸ configOf_inheritConfig hy3 n hn'
    have hwz : w.ConfigOf y n (n / 2) := hzy.of_moves hmw (by simpa using (config_ne_stat hn8 0).2.2.2.2.1)
      (by simpa using (config_ne_stat hn8 0).2.2.2.2.2) (hzw (breakout_ne_subportStat n).symm)
    exact ((w.configOf_enterBreakout hn8).trans hwz).trans (hy ▸ d.configOf_allDown (by omega))
  · exact w.heldBy_enterBreakout n (List.mem_range.2 (hws.symm ▸ hn))

end Dev

/-! ### What a lane's failure leaves -/

theorem exec_portLaneFail (s : State) (lane : Fin 8) : exec (.portLaneFail lane) s = s.live fun d => d.laneFail lane.val := rfl

/-- What a lane's failure leaves in any breakout. -/
structure Dev.LaneFailed (d e : Dev) (lane : Nat) : Prop where
  moves : d.Moves e laneFailWords [.port, .front, .lpe]
  lpe : e.lpe = (d.laneMarked lane).lpe
  failed : ∀ l, e.get (R.PORT_LANE_STAT_FAILED l) = (d.laneMarked lane).get (R.PORT_LANE_STAT_FAILED l)
  untrained : e.get (R.PORT_LANE_STAT_TRAINED lane) = 0

theorem Dev.LaneFailed.of_marked {d e : Dev} {lane : Nat} (hm : (d.laneMarked lane).Moves e laneFailWords [.port, .front])
    (hf : ∀ l, e.get (R.PORT_LANE_STAT_FAILED l) = (d.laneMarked lane).get (R.PORT_LANE_STAT_FAILED l))
    (hu : e.get (R.PORT_LANE_STAT_TRAINED lane) = 0) : d.LaneFailed e lane where
  moves := ((d.moves_laneMarked lane).mono (by simpa using laneStat_mem_laneFailWords lane) (by simp)).trans (hm.mono (fun _ h => h) (by simp))
  lpe := hm.parts .lpe (by simp)
  failed := hf
  untrained := hu

section

variable {d : Dev} {lane : Nat} (hl : lane < 8)

theorem Dev.breakout_laneMarked (d : Dev) (lane : Nat) : (d.laneMarked lane).get R.PORT_CFG_BREAKOUT = d.get R.PORT_CFG_BREAKOUT :=
  (d.moves_laneMarked lane).get (by simpa using breakout_ne_laneStat lane)

theorem Dev.up_laneMarked (d : Dev) (lane : Nat) {sp : Nat} (hsp : sp < 8) : (d.laneMarked lane).up sp = d.up sp :=
  (d.moves_laneMarked lane).on (by simpa using (laneStat_ne_subportStat hsp lane).symm)

include hl in
/-- In breakout 3 the lane's sub-port alone goes down, held down by the lane. -/
theorem Dev.laneFailed_alone (d : Dev) :
    d.LaneFailed (((d.laneMarked lane).linkDown lane false).put (R.PORT_SUBPORT_STAT_DOWN_BY_LANE lane) 1) lane := by
  obtain ⟨x, hx⟩ : ∃ x, x = d.laneMarked lane := ⟨_, rfl⟩
  have hput {g : Fld} (hg : g.addr ≠ (R.PORT_SUBPORT_STAT_LINK_UP lane).addr) :
      ((x.linkDown lane false).put (R.PORT_SUBPORT_STAT_DOWN_BY_LANE lane) 1).get g = (x.linkDown lane false).get g :=
    get_put_other _ (R.PORT_SUBPORT_STAT_DOWN_BY_LANE lane) _ _ hg
  rw [← hx]
  refine .of_marked (hx ▸ ?_) (fun l => hx ▸ ?_) ?_
  · exact ((x.moves_linkDown false).mono (lostWords_subset x hl) (fun _ h => h)).put (f := R.PORT_SUBPORT_STAT_DOWN_BY_LANE lane)
      (mem_laneFailWords hl (by simp [R.PORT_SUBPORT_STAT_DOWN_BY_LANE, R.PORT_SUBPORT_STAT_LINK_UP]))
  · exact (hput (g := R.PORT_LANE_STAT_FAILED l) (laneStat_ne_subportStat hl l)).trans (x.get_linkDown false (offLink_failed hl l))
  · exact (hput (laneStat_ne_subportStat hl lane)).trans (x.trained_linkDown false hl (.inr (hx ▸ d.trained_laneMarked lane)))

end

/-- What a lane's failure does to the breakout. -/
theorem portLaneFail_completes {s : State} {lane : Fin 8} (hr : s.Running) (h : s.dev.on (R.PORT_LANE_STAT_FAILED lane.val) = false) :
    Completes (.portLaneFail lane) s fun d => s.dev.LaneFailed d lane.val
      ∧ (s.dev.get R.PORT_CFG_BREAKOUT = 3 →
          d = ((s.dev.laneMarked lane.val).linkDown lane.val false).put (R.PORT_SUBPORT_STAT_DOWN_BY_LANE lane.val) 1)
      ∧ (s.dev.get R.PORT_CFG_BREAKOUT < 3 → (s.dev.laneMarked lane.val).NextBreakout d (s.dev.get R.PORT_CFG_BREAKOUT)) := by
  have hb := s.dev.breakout_laneMarked lane.val
  have he := Dev.laneFail_eq h
  rw [hb] at he
  have hx := exec_portLaneFail s lane
  by_cases h3 : s.dev.get R.PORT_CFG_BREAKOUT = 3
  · rw [if_pos h3] at he
    have hf := s.dev.laneFailed_alone lane.isLt
    exact .ofLive hr hx (by rw [he]; exact hf.moves.parts .life (by simp)) (by rw [he]; exact ⟨hf, fun _ => rfl, fun hlt => absurd h3 hlt.ne⟩)
  · rw [if_neg h3] at he
    have hlt : s.dev.get R.PORT_CFG_BREAKOUT < 3 := by
      have h4 : s.dev.get R.PORT_CFG_BREAKOUT < 2 ^ 2 := s.dev.get_lt R.PORT_CFG_BREAKOUT
      omega
    have hn := (s.dev.laneMarked lane.val).nextBreakout_spec hb hlt
    have hf : s.dev.LaneFailed _ lane.val := .of_marked hn.moves hn.failed (hn.untrained _ (s.dev.trained_laneMarked _))
    exact .ofLive hr hx (by rw [he]; exact hf.moves.parts .life (by simp)) (by rw [he]; exact ⟨hf, fun h => absurd h h3, fun _ => hn⟩)

/-- Settles O16: a failed lane is `Dev.LaneFailed` in the breakout that follows, a link lost is `Dev.linkDown`, one raised
`Dev.linkRaised`. -/
theorem linksAndLanes : Obligations.LinksAndLanes := by
  intro s hr
  refine ⟨fun lane h => ?_, fun lane h => exec_of_live_unchanged (exec_portLaneFail s lane) (if_pos h), fun lane h => ?_,
    fun lane h => exec_of_live_unchanged (exec_trainingViolation s lane) (if_neg (by simp [h])), fun sp h18 => ⟨fun h => ?_, fun h => ?_⟩,
    fun sp h18 => ⟨fun h => ?_, fun h => ?_⟩⟩
  · refine (portLaneFail_completes hr h).mono fun d ⟨hf, halone, hnext⟩ => ?_
    obtain ⟨hpend, hbusy, hqueued⟩ := s.dev.lpe_laneMarked lane.val
    have hfailed (l : Nat) := (hf.failed l).trans (s.dev.failed_laneMarked lane.isLt l)
    have hmark (n : Nat) (hn : n < 8) : (s.dev.laneMarked lane.val).ConfigOf s.dev n n := by
      have hm := s.dev.moves_laneMarked lane.val
      exact ⟨hm.words _ (by simpa using (config_ne_stat hn lane.val).2.2.1), hm.words _ (by simpa using (config_ne_stat hn lane.val).2.2.2.1),
        hm.get (List.not_mem_cons_of_ne_of_not_mem (Dev.laneStat_ne_subportStat hn lane.val).symm List.not_mem_nil)⟩
    refine ⟨(hfailed _).trans (if_pos rfl), hf.untrained, ?_, fun h3 => ?_, fun hlt => ?_, fun l hl hne => (hfailed l).trans (if_neg hne),
      hf.lpe ▸ hpend, hf.lpe ▸ hbusy, hf.lpe ▸ hqueued, hf.moves.parts, hf.moves.memory⟩
    · rcases Nat.lt_or_ge (s.dev.get R.PORT_CFG_BREAKOUT) 3 with hlt | hge
      · rw [(hnext hlt).breakout]
        omega
      · have h3 : s.dev.get R.PORT_CFG_BREAKOUT = 3 := by
          have h4 : s.dev.get R.PORT_CFG_BREAKOUT < 2 ^ 2 := s.dev.get_lt R.PORT_CFG_BREAKOUT
          omega
        rw [halone h3, Dev.get_put_other _ (R.PORT_SUBPORT_STAT_DOWN_BY_LANE lane.val) _ _ (Dev.breakout_ne_subportStat lane.val),
          Dev.get_linkDown _ _ (Dev.offLink_breakout lane.isLt), s.dev.breakout_laneMarked, h3]
        rfl
    · obtain rfl := halone h3
      refine ⟨?_, Dev.get_put_same _ _ _ (by simp [R.PORT_SUBPORT_STAT_DOWN_BY_LANE]), fun sp hsp hne => ?_⟩
      · exact (Dev.on_congr (Dev.get_put_apart _ _ _ _ (by simp [R.PORT_SUBPORT_STAT_DOWN_BY_LANE])
          (by simp [R.PORT_SUBPORT_STAT_LINK_UP, R.PORT_SUBPORT_STAT_DOWN_BY_LANE]))).trans (Dev.up_linkDown _ false lane.isLt)
      · exact (Dev.on_congr (Dev.get_put_apart _ _ _ _ (by simp [R.PORT_SUBPORT_STAT_DOWN_BY_LANE])
          (by simp [R.PORT_SUBPORT_STAT_LINK_UP, R.PORT_SUBPORT_STAT_DOWN_BY_LANE]))).trans
          ((Dev.up_linkDown_other _ false lane.isLt hsp hne).trans (s.dev.up_laneMarked lane.val hsp))
    · have hn := hnext hlt
      refine ⟨hn.down, fun n hbn => ?_⟩
      have hn8 : 2 ^ (s.dev.get R.PORT_CFG_BREAKOUT + 1) ≤ 2 ^ 3 := Nat.pow_le_pow_right (by decide) (by omega)
      obtain ⟨hcfg, hda, hmode⟩ := (hn.config n hbn).trans (hmark (n / 2) (by omega))
      obtain ⟨hdown, htraining⟩ := hn.held n hbn
      exact ⟨hcfg, congrArg (bitsOf · 0 48) hda, hmode, hdown, htraining⟩
  · exact (trainingViolation_training hr h).mono fun d ⟨hfails, hcount, hclock, hspaced, hkept, hm⟩ =>
      ⟨hfails, hcount, hclock, hspaced, hkept, hm.words, hm.parts, hm.memory⟩
  · refine (subportLinkUp_trainable ⟨hr, h18⟩ h).mono fun d ⟨hup, htr, hlanes, hclock, hport, hm⟩ =>
      ⟨hup, htr, fun l hl => (hlanes l hl).1, fun l hl => (hlanes l hl).2, fun x hx hne => ?_, hclock, hport, hm.words, hm.parts, hm.memory⟩
    exact hm.on (linkUp_not_mem_linkWords s.dev hx hne)
  · exact exec_of_unchanged (exec_subportLinkUp s sp) (Dev.subportUp_of_not_trainable h)
  · have hm := s.dev.moves_linkDown (sp := sp.val) true
    refine subportGoesDown_up ⟨hr, h18⟩ h ⟨s.dev.up_linkDown true sp.isLt, s.dev.training_linkDown true sp.isLt, s.dev.egress_linkDown true,
      s.dev.own_linkDown true, s.dev.paused_linkDown true sp.isLt, fun l hl => s.dev.trained_linkDown true sp.isLt (.inl hl),
      s.dev.counts_linkDown true sp.isLt, fun x hx hne => s.dev.up_linkDown_other true sp.isLt hx hne, hm.words, hm.parts, hm.memory⟩
  · exact exec_of_unchanged (exec_subportGoesDown s sp) (if_neg (by simp [h]))

end Sys2Proof.Machine
end

section
/-! Passes that enter a pipe (R97, R103, R131), and what the walk of a pass reads and counts (R118, R119): the packets of the path changed one by
one, the counters of an outcome, the walk that the registers alone decide. -/

namespace Sys2Proof.Machine

namespace Dev

/-! ### Packets -/

theorem id_of_packet? {d : Dev} {id : Nat} {p : Packet} (h : d.packet? id = some p) : p.id = id := by
  simpa using List.find?_some h

theorem mem_of_packet? {d : Dev} {id : Nat} {p : Packet} (h : d.packet? id = some p) : p ∈ d.front.packets := List.mem_of_find?_eq_some h

theorem mem_setPacket {d : Dev} {p q : Packet} (hq : q ∈ d.front.packets) (h : q.id = p.id) : p ∈ (d.setPacket p).front.packets :=
  List.mem_map.2 ⟨q, hq, if_pos h⟩

theorem mem_setPacket_other (d : Dev) {p q : Packet} (h : q.id ≠ p.id) : q ∈ (d.setPacket p).front.packets ↔ q ∈ d.front.packets := by
  refine ⟨fun hm => ?_, fun hm => List.mem_map.2 ⟨q, hm, if_neg h⟩⟩
  obtain ⟨x, hx, he⟩ := List.mem_map.1 hm
  split at he
  · exact absurd (congrArg Packet.id he.symm) h
  · exact he ▸ hx

theorem front_setPacket (d : Dev) (p : Packet) : (d.setPacket p).front = { d.front with packets := (d.setPacket p).front.packets } := rfl

theorem moves_setPacket (d : Dev) (p : Packet) : d.Moves (d.setPacket p) [] [.front] := (Moves.refl d _ _).withFront (by simp) _

/-! ### A pass that enters (R97, R103, R131) -/

/-- A packet as its next pass begins. -/
def passing (d : Dev) (p : Packet) (start node profile : Nat) : Packet :=
  { p with stage := .parsing (d.word R.PRS_CFG_STEP_LIMIT.addr) start node profile, passes := p.passes + 1,
           firstEntry := if p.passes = 0 then d.clockNs else p.firstEntry }

/-- The counter of a pass's kind: of packets for a first one, else of recirculations. -/
def passCounter (p : Packet) : Nat := if p.passes = 0 then C.PRS_PACKETS else C.PRS_RECIRC_PASSES

theorem passCounter_ne (p : Packet) : passCounter p ≠ C.PRS_PASSES := by
  unfold passCounter
  split <;> decide

/-- What a pass's entry leaves. -/
structure Enters (d e : Dev) (p q : Packet) : Prop where
  mem : q ∈ e.front.packets
  front : e.front = { d.front with packets := e.front.packets, parsing := d.front.parsing ++ [p.id] }
  others : ∀ x, x.id ≠ p.id → (x ∈ e.front.packets ↔ x ∈ d.front.packets)
  passes : d.Counts e C.PRS_PASSES 1
  kind : d.Counts e (passCounter p) 1
  moves : d.Moves e [C.PRS_PASSES, passCounter p] [.front]

theorem enterPass_eq (d : Dev) (p : Packet) (start node profile : Nat) : d.enterPass p start node profile =
    { ((d.setPacket (d.passing p start node profile)).bump C.PRS_PASSES).bump (passCounter p) with
      front := { (d.setPacket (d.passing p start node profile)).front with parsing := d.front.parsing ++ [p.id] } } := by
  have hb (e : Dev) : (if p.passes = 0 then e.bump C.PRS_PACKETS else e.bump C.PRS_RECIRC_PASSES) = e.bump (passCounter p) := by
    unfold passCounter
    split <;> rfl
  unfold enterPass
  dsimp only
  rw [hb, bump_front, bump_front]
  rfl

theorem enters_enterPass {d : Dev} {p : Packet} (hp : p ∈ d.front.packets) (start node profile : Nat) :
    d.Enters (d.enterPass p start node profile) p (d.passing p start node profile) := by
  have hset := d.moves_setPacket (d.passing p start node profile)
  have h1 : d.Moves ((d.setPacket (d.passing p start node profile)).bump C.PRS_PASSES) [C.PRS_PASSES] [.front] :=
    (hset.mono (by simp) (fun _ h => h)).bump (by simp)
  rw [enterPass_eq]
  refine ⟨mem_setPacket hp rfl, rfl, fun x hx => mem_setPacket_other d hx, ?_, ?_, ?_⟩
  · exact counts_of_bump hset (by simp) (((Moves.refl _ [passCounter p] [.front]).bump (by simp)).withFront (by simp) _)
      (by simpa using (passCounter_ne p).symm)
  · exact counts_of_bump h1 (by simpa using passCounter_ne p) ((Moves.refl _ [] [.front]).withFront (by simp) _) (by simp)
  · exact ((h1.mono (by simp) (fun _ h => h)).bump (by simp)).withFront (by simp) _

/-- The recirculation queue with its oldest request taken. -/
def recircTaken (d : Dev) (rest : List Nat) : Dev := ({ d with front := { d.front with recircs := rest } } : Dev).recircOcc

theorem moves_recircTaken (d : Dev) (rest : List Nat) : d.Moves (d.recircTaken rest) [R.PRS_RECIRC_STAT_OCC.addr] [.front] :=
  (((Moves.refl d _ _).withFront (by simp) _).put (by simp)).peak (f := R.PRS_RECIRC_STAT_PEAK) (List.mem_singleton.2 rfl)

theorem front_recircTaken (d : Dev) (rest : List Nat) : (d.recircTaken rest).front = { d.front with recircs := rest } := by
  unfold recircTaken recircOcc
  rw [peak_front, put_front]

theorem passing_recircTaken (d : Dev) (rest : List Nat) (p : Packet) (start node profile : Nat) :
    (d.recircTaken rest).passing p start node profile = d.passing p start node profile := by
  have hm := d.moves_recircTaken rest
  unfold passing
  rw [hm.words _ (by decide), clockNs_congr (hm.parts .time (by simp)).1 (hm.parts .sup (by simp))]

/-! ### What the walk reads (R102 to R117) -/

section

variable {d e : Dev} (hr : e.regs = d.regs)
include hr

theorem get_of_regs (f : Fld) : e.get f = d.get f := get_congr hr f

theorem on_of_regs (f : Fld) : e.on f = d.on f := on_congr (get_congr hr f)

theorem headerLen_congr : e.headerLen = d.headerLen := by
  funext f k s
  simp only [headerLen, get_of_regs hr]

theorem nextNode_congr : e.nextNode = d.nextNode := by
  funext f k s
  simp only [nextNode, get_of_regs hr]

theorem fragTest_congr : e.fragTest = d.fragTest := by
  funext f k s
  simp only [fragTest, get_of_regs hr]

theorem gather_congr : e.gather = d.gather := by
  funext f w
  simp only [gather, extracts, get_of_regs hr, on_of_regs hr]

theorem parseStep_congr : e.parseStep = d.parseStep := by
  funext f we limit w
  unfold parseStep
  rw [headerLen_congr hr, nextNode_congr hr, fragTest_congr hr, gather_congr hr]
  simp only [get_of_regs hr, on_of_regs hr]

theorem parseWalk_congr (f : List Byte) (we limit fuel : Nat) (w : Walk) : e.parseWalk f we limit fuel w = d.parseWalk f we limit fuel w := by
  induction fuel generalizing w with
  | zero => rfl
  | succ fuel ih =>
    unfold parseWalk
    rw [parseStep_congr hr]
    split
    · rfl
    · exact ih _

theorem parsePass_congr (f : List Byte) (cfg start node : Nat) : e.parsePass f cfg start node = d.parsePass f cfg start node :=
  parseWalk_congr hr ..

end

/-- The field vector depends on one register beside the walk. -/
theorem fieldVector_congr {d e : Dev} (h : e.get R.PRS_INNER_MASK_INNER = d.get R.PRS_INNER_MASK_INNER) (r : Stopped) (n sp len : Nat) :
    e.fieldVector r n sp len = d.fieldVector r n sp len := by
  unfold fieldVector validMask
  rw [h]

/-! ### The counters of an outcome (R119) -/

/-- The counter of an outcome. -/
def outcomeCounter (o : Nat) : Nat :=
  if o = 0 then C.PRS_NORMAL else if o = 1 then C.PRS_DEPTH_EXCEEDED else if o = 2 then C.PRS_MALFORMED_LENGTH else C.PRS_FRAGMENTS

/-- What a pass's end counts. -/
def outcomeCounts (r : Stopped) : List (Nat × Nat) :=
  [(C.PRS_STEPS, r.walk.steps), (outcomeCounter r.outcome, 1), (C.PRS_WINDOW_END, if r.outcome = 1 ∧ r.windowEnd = true then 1 else 0)]

theorem outcomeCounter_mem (o : Nat) :
    outcomeCounter o ∈ [C.PRS_NORMAL, C.PRS_DEPTH_EXCEEDED, C.PRS_MALFORMED_LENGTH, C.PRS_FRAGMENTS] := by
  unfold outcomeCounter
  split
  · decide
  · split
    · decide
    · split <;> decide

theorem nodup_outcomeCounts (r : Stopped) : ((outcomeCounts r).map (·.1)).Nodup := by
  have h (a : Nat) (ha : a ∈ [C.PRS_NORMAL, C.PRS_DEPTH_EXCEEDED, C.PRS_MALFORMED_LENGTH, C.PRS_FRAGMENTS]) :
      [C.PRS_STEPS, a, C.PRS_WINDOW_END].Nodup := by
    revert a
    decide
  exact h _ (outcomeCounter_mem _)

theorem countOutcome_eq (d : Dev) (r : Stopped) : d.countOutcome r = d.bumps (outcomeCounts r) := by
  have hb (d : Dev) (x y z : Nat × Nat) : d.bumps [x, y, z] = ((d.bump x.1 x.2).bump y.1 y.2).bump z.1 z.2 := rfl
  have h0 (d : Dev) (a : Nat) : d.bump a 0 = d := rfl
  obtain ⟨w, o, we, k, s⟩ := r
  rw [outcomeCounts, hb]
  unfold countOutcome outcomeCounter
  match o with
  | 0 => simp [h0]
  | 1 => cases we <;> simp [h0]
  | 2 => simp [h0]
  | n + 3 => simp [h0]

end Dev

end Sys2Proof.Machine
end

section
/-! How a pass ends (R118 to R123, R153, R155): stamped and delivered to the search, or its packet without a reference, released on the
malformed path or dropped; O32. -/

namespace Sys2Proof.Machine

namespace Dev

/-! ### References to a version (R153, R155) -/

/-- The words that the end of a packet's reference may move. -/
def refWords (slot : Nat) : List Nat := [(R.CLS_VER_REFCOUNT slot).addr, R.CLS_STATE_SWEEP_BUSY.addr]

theorem moves_startSweep (d : Dev) (slot : Nat) : d.Moves (d.startSweep slot) (refWords slot) [.front] :=
  ((((Moves.refl d _ _).put (f := R.CLS_VER_STATE slot) (v := 4) (List.mem_cons_self)).withFront (by simp) _).put (by simp))

/-- What the end of a packet's reference leaves. -/
structure Unrefs (d e : Dev) (slot : Nat) : Prop where
  moves : d.Moves e (refWords slot) [.front]
  front : e.front = { d.front with sweeps := e.front.sweeps }
  version : e.get R.CLS_STATE_CUR_VER = d.get R.CLS_STATE_CUR_VER

theorem version_startSweep (d : Dev) {slot : Nat} (h : slot < 4) : (d.startSweep slot).get R.CLS_STATE_CUR_VER = d.get R.CLS_STATE_CUR_VER := by
  have hne : R.CLS_STATE_CUR_VER.addr ≠ (R.CLS_VER_STATE slot).addr := by
    simp only [R.CLS_STATE_CUR_VER, R.CLS_VER_STATE, h, if_true]
    omega
  unfold startSweep
  rw [get_put_apart _ _ _ _ (by decide) (by decide)]
  exact d.get_put_other _ _ 4 hne

/-- A packet without its reference is the packet but for that. -/
theorem unrefs_unref (d : Dev) (p : Packet) (h : p.slot < 4) :
    d.Unrefs (d.unref p).1 p.slot ∧ ∃ held, (d.unref p).2 = { p with refHeld := held } := by
  obtain ⟨z, hz⟩ : ∃ z, z = d.put (R.CLS_VER_REFCOUNT p.slot) (d.get (R.CLS_VER_REFCOUNT p.slot) - 1) := ⟨_, rfl⟩
  have hm : d.Moves z (refWords p.slot) [.front] := hz ▸ (Moves.refl d _ _).put (by simp [refWords])
  have hf : z.front = d.front := by rw [hz, put_front]
  have hv : z.get R.CLS_STATE_CUR_VER = d.get R.CLS_STATE_CUR_VER := by
    have hne : R.CLS_STATE_CUR_VER.addr ≠ (R.CLS_VER_REFCOUNT p.slot).addr := by
      simp only [R.CLS_STATE_CUR_VER, R.CLS_VER_REFCOUNT, h, if_true]
      omega
    rw [hz, get_put_other _ _ _ _ hne]
  unfold unref
  split
  · refine ⟨?_, false, rfl⟩
    dsimp only
    rw [← hz]
    split
    · refine ⟨hm.trans (z.moves_startSweep _), ?_, (z.version_startSweep h).trans hv⟩
      rw [← hf]
      rfl
    · exact ⟨hm, by rw [hf], hv⟩
  · exact ⟨⟨.refl d _ _, rfl, rfl⟩, p.refHeld, rfl⟩

/-- A packet stamped with the Current version. -/
def stamped (d : Dev) (p : Packet) : Packet :=
  { p with slot := d.get R.CLS_STATE_CUR_SLOT, ver := d.get (R.CLS_VER_VER (d.get R.CLS_STATE_CUR_SLOT)), refHeld := true }

/-- The stamp of a first search: the Current version's reference count rises. -/
theorem stamp_spec (d : Dev) (p : Packet) : ∃ y, d.stamp p = (y, d.stamped p)
    ∧ d.Moves y [(R.CLS_VER_REFCOUNT (d.get R.CLS_STATE_CUR_SLOT)).addr] [.front] ∧ y.front = d.front
    ∧ y.get (R.CLS_VER_REFCOUNT (d.get R.CLS_STATE_CUR_SLOT)) = (d.get (R.CLS_VER_REFCOUNT (d.get R.CLS_STATE_CUR_SLOT)) + 1) % 2 ^ 20 :=
  ⟨d.put (R.CLS_VER_REFCOUNT (d.get R.CLS_STATE_CUR_SLOT)) (d.get (R.CLS_VER_REFCOUNT (d.get R.CLS_STATE_CUR_SLOT)) + 1), rfl,
    (Moves.refl d _ _).put (List.mem_singleton.2 rfl), put_front .., d.get_put_same (R.CLS_VER_REFCOUNT _) _ (by simp [R.CLS_VER_REFCOUNT])⟩

/-! ### A packet that leaves the path (R57, R120 to R123) -/

/-- What the end of a packet's way leaves of the device without it. -/
theorem moves_dropPacket (d : Dev) (id : Nat) : (d.without id).Moves (d.dropPacket id) flowWords [.port] :=
  (Moves.refl (d.without id) _ _).flowControl (by simp) fun _ h => h

theorem egressOf_dropPacket (d : Dev) (id x : Nat) : (d.dropPacket id).egressOf x = d.egressOf x := egressOf_flowControl (d.without id) x

/-- A release that does not join an egress queue leaves each as it was. -/
theorem egressOf_release_of_not {d : Dev} {p : Packet} (h : p.gone = true ∨ d.up p.sp = false) (s : Shim) (x : Nat) :
    (d.release p s).egressOf x = d.egressOf x := by
  rw [release_eq]
  by_cases hg : p.gone = true
  · rw [if_pos hg]
    rfl
  · rw [if_neg hg, if_pos (by simp [h.resolve_left hg]), egressOf_flowControl, egressOf, bump_port]
    rfl

theorem egressOf_release_of_joins {d : Dev} {p : Packet} (hg : p.gone = false) (hu : d.up p.sp = true) (hl : p.sp < d.port.subs.length) (s : Shim) :
    (d.release p s).egressOf p.sp = d.egressOf p.sp ++ [d.egressItem p s] := by
  rw [release_eq, if_neg (by simp [hg]), if_neg (by simp [hu]), egressOf_flowControl, egressOf_modSub_append (d.without p.id) hl, if_pos rfl]
  rfl

/-- The verdict of the malformed path (R120). -/
def malformedShim (d : Dev) (flags reason : Nat) : Shim :=
  { flags := flags, ruleVer := d.get R.CLS_STATE_CUR_VER, tier := 0xF, reason := reason, gen := 0, cls := d.get R.PRS_MAL_VERDICT_MAL_CLASS,
    score := 0x7E00, action := d.get R.PRS_MAL_VERDICT_MAL_ACTION, tick := d.tick32 }

theorem malformedPath_eq (d : Dev) (p : Packet) (flags reason : Nat) : d.malformedPath p flags reason =
    if p.mode = 0 then d.release { p with flow := none } (d.malformedShim flags reason) else d.dropPacket p.id := rfl

theorem moves_malformedPath (d : Dev) (p : Packet) (flags reason : Nat) :
    (d.without p.id).Moves (d.malformedPath p flags reason) (C.PORT_TX_LINK_DOWN p.sp :: flowWords) [.port] := by
  rw [malformedPath_eq]
  exact .ite (d.release_moves { p with flow := none } _) ((d.moves_dropPacket p.id).mono (List.subset_cons_self _ _) (fun _ h => h))

theorem egressOf_malformedPath_of_not {d : Dev} {p : Packet} (h : p.mode ≠ 0 ∨ p.gone = true ∨ d.up p.sp = false) (flags reason x : Nat) :
    (d.malformedPath p flags reason).egressOf x = d.egressOf x := by
  rw [malformedPath_eq]
  split
  · next hm => exact egressOf_release_of_not (p := { p with flow := none }) (h.resolve_left (not_not.2 hm)) _ x
  · exact d.egressOf_dropPacket p.id x

theorem egressOf_malformedPath_of_joins {d : Dev} {p : Packet} (hm : p.mode = 0) (hg : p.gone = false) (hu : d.up p.sp = true)
    (hl : p.sp < d.port.subs.length) (flags reason : Nat) : (d.malformedPath p flags reason).egressOf p.sp
      = d.egressOf p.sp ++ [d.egressItem { p with flow := none } (d.malformedShim flags reason)] := by
  rw [malformedPath_eq, if_pos hm]
  exact egressOf_release_of_joins (p := { p with flow := none }) hg hu hl _

/-! ### The end of a pass (R118, R119) -/

/-- The device with its oldest pass taken out of the pipes and its outcome counted. -/
def passCounted (d : Dev) (rest : List Nat) (r : Stopped) : Dev :=
  ({ d with front := { d.front with parsing := rest } } : Dev).bumps (outcomeCounts r)

/-- The words that a pass's end counts. -/
def passWords (r : Stopped) : List Nat := [C.PRS_STEPS, outcomeCounter r.outcome, C.PRS_WINDOW_END]

theorem moves_passCounted (d : Dev) (rest : List Nat) (r : Stopped) : d.Moves (d.passCounted rest r) (passWords r) [.front] :=
  ((Moves.refl d _ _).withFront (by simp) _).trans (moves_bumps _ (outcomeCounts r) _)

theorem front_passCounted (d : Dev) (rest : List Nat) (r : Stopped) : (d.passCounted rest r).front = { d.front with parsing := rest } :=
  (moves_bumps { d with front := { d.front with parsing := rest } } (outcomeCounts r) []).parts .front (by simp)

/-- The counts of a pass's end stay while only other words move. -/
theorem counts_passCounted {d e : Dev} {rest : List Nat} {r : Stopped} {ws : List Nat} {ps : List Part} (h : (d.passCounted rest r).Moves e ws ps)
    (hw : ∀ a ∈ passWords r, a ∉ ws) : d.Counts e C.PRS_STEPS r.walk.steps ∧ d.Counts e (outcomeCounter r.outcome) 1
      ∧ d.Counts e C.PRS_WINDOW_END (if r.outcome = 1 ∧ r.windowEnd = true then 1 else 0) := by
  have hc {a n : Nat} (hx : (a, n) ∈ outcomeCounts r) : d.Counts e a n :=
    counts_bumps (d := { d with front := { d.front with parsing := rest } }) (nodup_outcomeCounts r) h hx
      (hw a (List.mem_map_of_mem (f := Prod.fst) hx))
  exact ⟨hc (by simp [outcomeCounts]), hc (by simp [outcomeCounts]), hc (by simp [outcomeCounts])⟩

/-- A packet as the search gets it. -/
def delivered (d : Dev) (p : Packet) (cfg profile : Nat) (r : Stopped) : Packet :=
  { p with pass := ⟨r.outcome, if r.outcome = 1 && bitsOf cfg 5 2 = 0 then 0x004 else if r.outcome = 3 then 0x010 else 0,
             d.fieldVector r (p.passes - 1) p.sp p.frame.length⟩, stage := .searching cfg profile }

/-- The packet delivered to the search. -/
def toSearch (d : Dev) (p : Packet) (cfg profile : Nat) (r : Stopped) : Dev :=
  { d.setPacket (d.delivered p cfg profile r) with
    front := { (d.setPacket (d.delivered p cfg profile r)).front with searching := d.front.searching ++ [p.id] } }

section

variable {d : Dev} {p : Packet} {id : Nat} {rest : List Nat} {cfg start node profile : Nat} (hf : d.front.parsing = id :: rest)
  (hp : d.packet? id = some p) (hs : p.stage = .parsing cfg start node profile)
include hf hp hs

/-- What the end of a pass does, by its outcome. -/
theorem passEnd_eq {r : Stopped} (hr : r = d.parsePass p.frame cfg start node) : d.passEnd =
    (let x := d.passCounted rest r
     if r.outcome = 2 then (x.unref p).1.malformedPath (x.unref p).2 0x008 4
     else if r.outcome = 1 && bitsOf cfg 5 2 = 1 then ((x.unref p).1.bump C.PRS_DEPTH_DROP).dropPacket (x.unref p).2.id
     else if r.outcome = 1 && bitsOf cfg 5 2 = 2 then (x.unref p).1.malformedPath (x.unref p).2 0x004 3
     else (if p.passes = 1 then x.stamp p else (x, p)).1.toSearch (if p.passes = 1 then x.stamp p else (x, p)).2 cfg profile r) := by
  obtain ⟨y, hy⟩ : ∃ y : Dev, y = { d with front := { d.front with parsing := rest } } := ⟨_, rfl⟩
  have hparse : y.parsePass p.frame cfg start node = r := by
    rw [hr, parsePass_congr (d := d) (by rw [hy])]
  have hp' : y.packet? id = some p := by
    rw [hy]
    exact hp
  have hx : y.bumps (outcomeCounts r) = d.passCounted rest r := by rw [hy, passCounted]
  unfold passEnd
  rw [hf]
  dsimp only
  rw [← hy, hp']
  dsimp only
  rw [hs]
  dsimp only
  rw [hparse, countOutcome_eq, hx]
  obtain ⟨x, hx⟩ : ∃ x, x = d.passCounted rest r := ⟨_, rfl⟩
  rw [← hx]
  cases x.unref p with
  | mk y q =>
    cases (if p.passes = 1 then x.stamp p else (x, p)) with
    | mk z q' => rfl

end

/-! ### A packet delivered (R118, R153) -/

theorem toSearch_spec {y : Dev} {q z : Packet} (hz : z ∈ y.front.packets) (hid : z.id = q.id) (cfg profile : Nat) (r : Stopped) :
    y.delivered q cfg profile r ∈ (y.toSearch q cfg profile r).front.packets
      ∧ (∀ x, x.id ≠ q.id → (x ∈ (y.toSearch q cfg profile r).front.packets ↔ x ∈ y.front.packets))
      ∧ (y.toSearch q cfg profile r).front =
          { y.front with packets := (y.toSearch q cfg profile r).front.packets, searching := y.front.searching ++ [q.id] }
      ∧ y.Moves (y.toSearch q cfg profile r) [] [.front] :=
  ⟨mem_setPacket hz hid, fun _ hx => mem_setPacket_other y (p := y.delivered q cfg profile r) hx, rfl,
    (y.moves_setPacket _).withFront (by simp) _⟩

/-- The counters of Prism that a pass's end may raise. -/
def prismCounters : List Nat :=
  [C.PRS_STEPS, C.PRS_NORMAL, C.PRS_DEPTH_EXCEEDED, C.PRS_MALFORMED_LENGTH, C.PRS_FRAGMENTS, C.PRS_WINDOW_END]

theorem passWords_subset (r : Stopped) : passWords r ⊆ prismCounters := by
  intro a ha
  have ho : outcomeCounter r.outcome ∈ prismCounters := by
    have h := outcomeCounter_mem r.outcome
    simp only [prismCounters, List.mem_cons, List.not_mem_nil, or_false] at h ⊢
    tauto
  simp only [passWords, List.mem_cons, List.not_mem_nil, or_false] at ha
  rcases ha with rfl | rfl | rfl
  · simp [prismCounters]
  · exact ho
  · simp [prismCounters]

theorem refcount_not_mem_counters : ∀ slot < 4, ∀ a ∈ prismCounters, a ∉ [(R.CLS_VER_REFCOUNT slot).addr] := by decide

theorem state_not_mem_counters : R.CLS_STATE_CUR_SLOT.addr ∉ prismCounters ∧ R.PRS_INNER_MASK_INNER.addr ∉ prismCounters
    ∧ ∀ slot < 4, (R.CLS_VER_REFCOUNT slot).addr ∉ prismCounters
      ∧ R.PRS_INNER_MASK_INNER.addr ≠ (R.CLS_VER_REFCOUNT slot).addr := by decide

/-- What the end of a pass leaves when its packet goes on to the search. -/
structure Delivers (d e : Dev) (p q : Packet) (rest : List Nat) (r : Stopped) (cfg profile : Nat) (ws : List Nat) : Prop where
  counted : d.Counts e C.PRS_STEPS r.walk.steps ∧ d.Counts e (outcomeCounter r.outcome) 1
    ∧ d.Counts e C.PRS_WINDOW_END (if r.outcome = 1 ∧ r.windowEnd = true then 1 else 0)
  mem : d.delivered q cfg profile r ∈ e.front.packets
  others : ∀ x, x.id ≠ p.id → (x ∈ e.front.packets ↔ x ∈ d.front.packets)
  front : e.front = { d.front with packets := e.front.packets, parsing := rest, searching := d.front.searching ++ [p.id] }
  moves : d.Moves e (passWords r ++ ws) [.front]

theorem delivers_toSearch {d y : Dev} {p q z : Packet} {rest : List Nat} {r : Stopped} {cfg profile : Nat} {ws : List Nat}
    (hy : (d.passCounted rest r).Moves y ws [.front]) (hyf : y.front = (d.passCounted rest r).front) (hws : ∀ a ∈ prismCounters, a ∉ ws)
    (hin : R.PRS_INNER_MASK_INNER.addr ∉ ws) (hz : z ∈ d.front.packets) (hid : z.id = p.id) (hq : q.id = p.id) :
    d.Delivers (y.toSearch q cfg profile r) p q rest r cfg profile ws := by
  have hfront : y.front = { d.front with parsing := rest } := hyf.trans (d.front_passCounted rest r)
  obtain ⟨hmem, hothers, hf, hm⟩ := toSearch_spec (y := y) (q := q) (z := z) (by rw [hfront]; exact hz) (hid.trans hq.symm) cfg profile r
  have hfv : y.fieldVector r (q.passes - 1) q.sp q.frame.length = d.fieldVector r (q.passes - 1) q.sp q.frame.length :=
    fieldVector_congr ((hy.get hin).trans ((d.moves_passCounted rest r).get fun h => state_not_mem_counters.2.1 (passWords_subset r h))) ..
  have hall := hy.trans (hm.mono (List.nil_subset _) (fun _ h => h))
  refine ⟨counts_passCounted hall fun a ha => hws a (passWords_subset r ha), ?_, fun x hx => ?_, ?_, ?_⟩
  · unfold delivered at hmem ⊢
    rw [hfv] at hmem
    exact hmem
  · rw [hothers x (hq ▸ hx), hfront]
  · rw [hf, hfront, hq]
  · exact ((d.moves_passCounted rest r).mono (List.subset_append_left _ _) (fun _ h => h)).trans
      (hall.mono (List.subset_append_right _ _) (fun _ h => h))

/-! ### A packet that goes (R120 to R123) -/

/-- The words that the end of a packet's way moves beside those that its pass counts. -/
def goneWords (p : Packet) : List Nat := [C.PRS_DEPTH_DROP, (R.CLS_VER_REFCOUNT p.slot).addr, R.CLS_STATE_SWEEP_BUSY.addr,
  C.PORT_TX_LINK_DOWN p.sp] ++ flowWords

theorem goneWords_apart : ∀ slot < 4, ∀ sp < 8, ∀ a ∈ C.PRS_DEPTH_DROP :: prismCounters,
    a ∉ [(R.CLS_VER_REFCOUNT slot).addr, R.CLS_STATE_SWEEP_BUSY.addr, C.PORT_TX_LINK_DOWN sp] ++ flowWords := by decide +kernel

theorem depthDrop_not_mem_counters : C.PRS_DEPTH_DROP ∉ prismCounters := by decide

/-- What the end of a pass leaves when its packet goes no further. -/
structure PassGone (d e : Dev) (p : Packet) (rest : List Nat) (r : Stopped) : Prop where
  counted : d.Counts e C.PRS_STEPS r.walk.steps ∧ d.Counts e (outcomeCounter r.outcome) 1
    ∧ d.Counts e C.PRS_WINDOW_END (if r.outcome = 1 ∧ r.windowEnd = true then 1 else 0)
  gone : ∀ q ∈ e.front.packets, q.id ≠ p.id
  others : ∀ q, q.id ≠ p.id → (q ∈ e.front.packets ↔ q ∈ d.front.packets)
  front : e.front = { d.front with packets := e.front.packets, parsing := rest, sweeps := e.front.sweeps }
  moves : d.Moves e (passWords r ++ goneWords p) [.front, .port]

theorem passGone_of {d y e : Dev} {p : Packet} {rest : List Nat} {r : Stopped} (hslot : p.slot < 4) (hsp : p.sp < 8)
    (hu : (d.passCounted rest r).Unrefs y p.slot)
    (he : (y.without p.id).Moves e (C.PRS_DEPTH_DROP :: C.PORT_TX_LINK_DOWN p.sp :: flowWords) [.port]) : d.PassGone e p rest r := by
  have hyf : y.front = { d.front with parsing := rest, sweeps := y.front.sweeps } := by
    rw [hu.front, d.front_passCounted]
  have hef : e.front = (y.without p.id).front := he.parts .front (by simp)
  have hpackets : e.front.packets = d.front.packets.filter fun q => q.id != p.id := by
    rw [hef, without, hyf]
  have hall : (d.passCounted rest r).Moves e (goneWords p) [.front, .port] :=
    ((hu.moves.mono (by simp [refWords, goneWords]) (by simp)).trans ((y.moves_without p.id).mono (List.nil_subset _) (by simp))).trans
      (he.mono (fun a ha => by simp only [goneWords, List.mem_cons, List.mem_append] at ha ⊢; tauto) (by simp))
  have hapart (a : Nat) (ha : a ∈ passWords r) : a ∉ goneWords p := fun h => by
    have hc := passWords_subset r ha
    rcases List.mem_cons.1 h with rfl | h
    · exact depthDrop_not_mem_counters hc
    · exact goneWords_apart p.slot hslot p.sp hsp a (List.mem_cons_of_mem _ hc) h
  refine ⟨counts_passCounted hall hapart, fun q hq => ?_, fun q hq => ?_, ?_, ?_⟩
  · rw [hpackets] at hq
    simpa using (List.mem_filter.1 hq).2
  · rw [hpackets]
    simp [hq]
  · rw [hef, without, hyf]
  · exact ((d.moves_passCounted rest r).mono (List.subset_append_left _ _) (by simp)).trans
      (hall.mono (List.subset_append_right _ _) (fun _ h => h))

end Dev

end Sys2Proof.Machine
end

section
/-! What PARSE_PASS_ENTER and PARSE_PASS_END do (R97, R118 to R123, R153); O32. -/

namespace Sys2Proof.Machine

theorem exec_parsePassEnter (s : State) : exec .parsePassEnter s = s.clocked (·.regionStopped 17) Dev.passEnter := rfl

theorem exec_parsePassEnd (s : State) : exec .parsePassEnd s = s.clocked (·.regionStopped 17) Dev.passEnd := rfl

/-! ### Entries (R97, R103, R131) -/

section

variable {s : State} {p : Packet} (hr : s.RunsIn 17)
include hr

theorem parsePassEnter_first (h : s.dev.front.packets.find? (fun p => decide (p.stage = .arrived)) = some p) :
    Completes .parsePassEnter s fun d =>
      s.dev.Enters d p (s.dev.passing p 0 (s.dev.get (R.PRS_ENTRY_NODE p.sp)) (s.dev.get (R.CLS_ENTRY_PROFILE_PROFILE p.sp))) := by
  have he : s.dev.passEnter = s.dev.enterPass p 0 (s.dev.get (R.PRS_ENTRY_NODE p.sp)) (s.dev.get (R.CLS_ENTRY_PROFILE_PROFILE p.sp)) := by
    unfold Dev.passEnter
    rw [h]
  have hm := Dev.enters_enterPass (List.mem_of_find?_eq_some h) 0 (s.dev.get (R.PRS_ENTRY_NODE p.sp)) (s.dev.get (R.CLS_ENTRY_PROFILE_PROFILE p.sp))
  exact .ofClocked hr.1 hr.2 (exec_parsePassEnter s) (by rw [he]; exact hm.moves.parts .life (by simp)) (by rw [he]; exact hm)

end

section

variable {d : Dev} {p : Packet} {id : Nat} {rest : List Nat} {node slot profile : Nat} (hn : ∀ q ∈ d.front.packets, q.stage ≠ .arrived)
include hn

theorem Dev.find?_arrived_of_none : d.front.packets.find? (fun p => decide (p.stage = .arrived)) = none :=
  List.find?_eq_none.2 fun q hq => by simpa using hn q hq

theorem Dev.passEnter_of_empty (h : d.front.recircs = []) : d.passEnter = d := by
  unfold Dev.passEnter
  rw [Dev.find?_arrived_of_none hn, h]

variable (hq : d.front.recircs = id :: rest) (hp : d.packet? id = some p) (hs : p.stage = .recirc node slot profile)
include hq hp hs

/-- The oldest recirculation request enters while it is young. -/
theorem Dev.passEnter_of_recirc : d.passEnter = if d.clockNs < p.firstEntry + 400 then
    (d.recircTaken rest).enterPass p (leAt p.pass.fv (12 + 2 * slot) 2) node profile else d := by
  unfold Dev.passEnter
  rw [Dev.find?_arrived_of_none hn, hq]
  dsimp only
  rw [hp]
  dsimp only
  rw [hs]
  rfl

end

/-! ### Ends (R118 to R123) -/

section

variable {s : State} {p : Packet} {id : Nat} {rest : List Nat} {cfg start node profile : Nat} {r : Stopped} (hr : s.RunsIn 17)
  (hf : s.dev.front.parsing = id :: rest) (hp : s.dev.packet? id = some p) (hs : p.stage = .parsing cfg start node profile)
  (hrs : r = s.dev.parsePass p.frame cfg start node)
include hr hf hp hs hrs

theorem parsePassEnd_delivers (ho : r.outcome ≠ 2) (h1 : ¬(r.outcome = 1 ∧ bitsOf cfg 5 2 = 1))
    (h2 : ¬(r.outcome = 1 ∧ bitsOf cfg 5 2 = 2)) :
    Completes .parsePassEnd s fun d =>
      (p.passes = 1 → s.dev.Delivers d p (s.dev.stamped p) rest r cfg profile [(R.CLS_VER_REFCOUNT (s.dev.get R.CLS_STATE_CUR_SLOT)).addr]
        ∧ d.get (R.CLS_VER_REFCOUNT (s.dev.get R.CLS_STATE_CUR_SLOT))
          = (s.dev.get (R.CLS_VER_REFCOUNT (s.dev.get R.CLS_STATE_CUR_SLOT)) + 1) % 2 ^ 20)
      ∧ (p.passes ≠ 1 → s.dev.Delivers d p p rest r cfg profile []) := by
  obtain ⟨x, hx⟩ : ∃ x, x = s.dev.passCounted rest r := ⟨_, rfl⟩
  have hmx : s.dev.Moves x (Dev.passWords r) [.front] := hx ▸ s.dev.moves_passCounted rest r
  have hkeep {f : Fld} (h : f.addr ∉ Dev.prismCounters) : x.get f = s.dev.get f := hmx.get fun hm => h (Dev.passWords_subset r hm)
  have hc4 : s.dev.get R.CLS_STATE_CUR_SLOT < 4 := s.dev.get_lt R.CLS_STATE_CUR_SLOT
  have hmem := Dev.mem_of_packet? hp
  have he : s.dev.passEnd =
      (if p.passes = 1 then x.stamp p else (x, p)).1.toSearch (if p.passes = 1 then x.stamp p else (x, p)).2 cfg profile r := by
    rw [Dev.passEnd_eq hf hp hs hrs, ← hx]
    dsimp only
    rw [if_neg ho, if_neg (by simpa using h1), if_neg (by simpa using h2)]
  by_cases hpass : p.passes = 1
  · obtain ⟨hslot, -, hver⟩ := Dev.state_not_mem_counters
    obtain ⟨hrefs, hfv⟩ := hver _ hc4
    obtain ⟨y, hy, hmy, hfy, hcount⟩ := x.stamp_spec p
    have hst : x.stamped p = s.dev.stamped p := by
      unfold Dev.stamped
      rw [hkeep hslot, hkeep (f := R.CLS_VER_VER _) hrefs]
    rw [hkeep hslot, hkeep hrefs] at hcount
    rw [hkeep hslot] at hmy
    rw [if_pos hpass, hy, hst] at he
    have hd : s.dev.Delivers (y.toSearch (s.dev.stamped p) cfg profile r) p (s.dev.stamped p) rest r cfg profile _ :=
      Dev.delivers_toSearch (hx ▸ hmy) (hx ▸ hfy) (Dev.refcount_not_mem_counters _ hc4) (by simpa using hfv) hmem rfl rfl
    refine .ofClocked hr.1 hr.2 (exec_parsePassEnd s) (by rw [he]; exact hd.moves.parts .life (by simp)) ?_
    rw [he]
    exact ⟨fun _ => ⟨hd, hcount⟩, fun h => absurd hpass h⟩
  · rw [if_neg hpass] at he
    have hd : s.dev.Delivers (x.toSearch p cfg profile r) p p rest r cfg profile [] :=
      Dev.delivers_toSearch (hx ▸ .refl x _ _) (hx ▸ rfl) (by simp) (by simp) hmem rfl rfl
    refine .ofClocked hr.1 hr.2 (exec_parsePassEnd s) (by rw [he]; exact hd.moves.parts .life (by simp)) ?_
    rw [he]
    exact ⟨fun h => absurd h hpass, fun _ => hd⟩

/-- A pass that ends its packet on the malformed path. -/
theorem parsePassEnd_malformed (hslot : p.slot < 4) (hsp : p.sp < 8) {flags reason : Nat}
    (ho : (r.outcome = 2 ∧ flags = 0x008 ∧ reason = 4) ∨ (r.outcome = 1 ∧ bitsOf cfg 5 2 = 2 ∧ flags = 0x004 ∧ reason = 3)) :
    Completes .parsePassEnd s fun d => s.dev.PassGone d p rest r ∧ ∃ (y : Dev) (held : Bool), (s.dev.passCounted rest r).Unrefs y p.slot
      ∧ d = y.malformedPath { p with refHeld := held } flags reason := by
  obtain ⟨x, hx⟩ : ∃ x, x = s.dev.passCounted rest r := ⟨_, rfl⟩
  obtain ⟨hu, held, hq⟩ := x.unrefs_unref p hslot
  have he : s.dev.passEnd = (x.unref p).1.malformedPath { p with refHeld := held } flags reason := by
    rw [Dev.passEnd_eq hf hp hs hrs, ← hx]
    dsimp only
    rcases ho with ⟨ho, rfl, rfl⟩ | ⟨ho, hb, rfl, rfl⟩
    · rw [if_pos ho, hq]
    · rw [if_neg (by omega), if_neg (by simp [hb]), if_pos (by simp [ho, hb]), hq]
  have hg : s.dev.PassGone _ p rest r := Dev.passGone_of hslot hsp (hx ▸ hu)
    (((x.unref p).1.moves_malformedPath { p with refHeld := held } flags reason).mono (List.subset_cons_self _ _) (fun _ h => h))
  refine .ofClocked hr.1 hr.2 (exec_parsePassEnd s) (by rw [he]; exact hg.moves.parts .life (by simp)) ?_
  rw [he]
  exact ⟨hg, _, held, hx ▸ hu, rfl⟩

/-- A pass whose packet its depth action drops. -/
theorem parsePassEnd_drops (hslot : p.slot < 4) (hsp : p.sp < 8) (ho : r.outcome = 1) (hb : bitsOf cfg 5 2 = 1) :
    Completes .parsePassEnd s fun d => s.dev.PassGone d p rest r ∧ s.dev.Counts d C.PRS_DEPTH_DROP 1
      ∧ ∀ x, d.egressOf x = s.dev.egressOf x := by
  obtain ⟨x, hx⟩ : ∃ x, x = s.dev.passCounted rest r := ⟨_, rfl⟩
  obtain ⟨hu, held, hq⟩ := x.unrefs_unref p hslot
  obtain ⟨y, hy⟩ : ∃ y, y = (x.unref p).1 := ⟨_, rfl⟩
  rw [← hy] at hu
  have hmx : s.dev.Moves x (Dev.passWords r) [.front] := hx ▸ s.dev.moves_passCounted rest r
  have he : s.dev.passEnd = (y.bump C.PRS_DEPTH_DROP).dropPacket p.id := by
    rw [Dev.passEnd_eq hf hp hs hrs, ← hx]
    dsimp only
    rw [if_neg (by omega), if_pos (by simp [ho, hb]), hq, ← hy]
  obtain ⟨z, hz⟩ : ∃ z, z = y.bump C.PRS_DEPTH_DROP := ⟨_, rfl⟩
  have hmz : y.Moves z [C.PRS_DEPTH_DROP] [] := hz ▸ (Dev.Moves.refl y _ _).bump (by simp)
  have hzf : z.front = y.front := hmz.parts .front (by simp)
  have hwithout : (y.without p.id).Moves (z.without p.id) [C.PRS_DEPTH_DROP] [.port] :=
    ⟨hmz.words, fun q hn => by
      have hsame := hmz.parts q (by simp)
      cases q with
      | front => exact congrArg (fun f : Front => { f with packets := f.packets.filter fun q => q.id != p.id }) hzf
      | time | port | plan | lens | seq | sync | fab | lpe | ctl | jrn | nvm | life | sec | sup => exact hsame, hmz.memory⟩
  have hg : s.dev.PassGone ((y.bump C.PRS_DEPTH_DROP).dropPacket p.id) p rest r := Dev.passGone_of hslot hsp (hx ▸ hu)
    ((hwithout.mono (by simp) (fun _ h => h)).trans ((z.moves_dropPacket p.id).mono (by simp) (fun _ h => h)) |> fun h => hz ▸ h)
  refine .ofClocked hr.1 hr.2 (exec_parsePassEnd s) (by rw [he]; exact hg.moves.parts .life (by simp)) ?_
  rw [he]
  have hsy : s.dev.Moves y (Dev.passWords r ++ Dev.refWords p.slot) [.front] :=
    (hmx.mono (List.subset_append_left _ _) (fun _ h => h)).trans (hu.moves.mono (List.subset_append_right _ _) (fun _ h => h))
  refine ⟨hg, ?_, fun n => ?_⟩
  · have hapart := Dev.goneWords_apart p.slot hslot p.sp hsp C.PRS_DEPTH_DROP List.mem_cons_self
    refine Dev.counts_of_bump hsy (fun h => ?_) (hz ▸ ((z.moves_without p.id).mono (List.nil_subset _) (by simp)).trans
      ((z.moves_dropPacket p.id).mono (fun _ h => h) (by simp))) (ws' := flowWords) (ps' := [.front, .port]) fun h => ?_
    · rcases List.mem_append.1 h with h | h
      · exact Dev.depthDrop_not_mem_counters (Dev.passWords_subset r h)
      · exact hapart (List.mem_append_left _ (List.mem_append_left [C.PORT_TX_LINK_DOWN p.sp] h))
    · exact hapart (List.mem_append_right _ h)
  · rw [Dev.egressOf_dropPacket, Dev.egressOf, Dev.bump_port, hsy.parts .port (by simp)]
    rfl

end

/-! ### The verdict of the malformed path (R120) -/

theorem not_mem_counters : ∀ sp < 8, R.CLS_STATE_CUR_VER.addr ∉ Dev.prismCounters ∧ R.PRS_MAL_VERDICT_MAL_CLASS.addr ∉ Dev.prismCounters
    ∧ R.TKP_MODE_FLUSH_COMPAT.addr ∉ Dev.prismCounters ∧ (R.PORT_SUBPORT_STAT_LINK_UP sp).addr ∉ Dev.prismCounters := by decide

theorem not_mem_refWords : ∀ slot < 4,
    R.PRS_MAL_VERDICT_MAL_CLASS.addr ∉ Dev.refWords slot ∧ R.TKP_MODE_FLUSH_COMPAT.addr ∉ Dev.refWords slot := by decide

theorem linkUp_not_mem_refWords : ∀ slot < 4, ∀ sp < 8, (R.PORT_SUBPORT_STAT_LINK_UP sp).addr ∉ Dev.refWords slot := by decide

/-- What the end of a pass has left of the device before its packet takes the malformed path. -/
structure Dev.Readies (d y : Dev) (sp : Nat) : Prop where
  port : y.port = d.port
  up : y.up sp = d.up sp
  shim : ∀ flags reason, y.malformedShim flags reason = d.malformedShim flags reason
  tag : ∀ s, y.shimTag s = d.shimTag s

theorem Dev.readies_of_unrefs {d y : Dev} {rest : List Nat} {r : Stopped} {slot sp : Nat} (hslot : slot < 4) (hsp : sp < 8)
    (hu : (d.passCounted rest r).Unrefs y slot) : d.Readies y sp := by
  obtain ⟨x, hx⟩ : ∃ x, x = d.passCounted rest r := ⟨_, rfl⟩
  rw [← hx] at hu
  have hmx : d.Moves x (Dev.passWords r) [.front] := hx ▸ d.moves_passCounted rest r
  have hkeep {f : Fld} (h : f.addr ∉ Dev.prismCounters) : x.get f = d.get f := hmx.get fun hm => h (Dev.passWords_subset r hm)
  obtain ⟨hver, hmal, hcompat, hup⟩ := not_mem_counters sp hsp
  obtain ⟨hmal', hcompat'⟩ := not_mem_refWords slot hslot
  have hup' := linkUp_not_mem_refWords slot hslot sp hsp
  have hplan : y.plan = d.plan := Eq.trans (hu.moves.parts .plan (by simp)) (hmx.parts .plan (by simp))
  have htick : y.tick32 = d.tick32 := by
    unfold Dev.tick32
    rw [hplan]
  refine ⟨Eq.trans (hu.moves.parts .port (by simp)) (hmx.parts .port (by simp)), ?_, fun flags reason => ?_, fun s => ?_⟩
  · exact Dev.on_congr ((hu.moves.get hup').trans (hkeep hup))
  · unfold Dev.malformedShim
    rw [hu.version, hkeep hver, hu.moves.get (f := R.PRS_MAL_VERDICT_MAL_CLASS) hmal', hkeep hmal,
      hu.moves.get (f := R.PRS_MAL_VERDICT_MAL_ACTION) hmal', hkeep (f := R.PRS_MAL_VERDICT_MAL_ACTION) hmal, htick]
  · unfold Dev.shimTag
    rw [Dev.on_congr ((hu.moves.get hcompat').trans (hkeep hcompat))]

/-- Settles O32: an entry is `Dev.Enters`; an end is `Dev.Delivers` or `Dev.PassGone`, by the outcome of the walk. -/
theorem passesWalkTheGraph : Obligations.PassesWalkTheGraph := by
  intro s hr
  refine ⟨fun p hfind h0 => ?_, fun p id rest node slot profile hn hq hp hs hpass => ⟨fun hyoung => ?_, fun hold => ?_⟩,
    fun hn he => ?_, fun he => ?_, fun p id rest cfg start node profile hf hp hs hsp hslot => ?_⟩
  · refine (parsePassEnter_first hr hfind).mono fun d h => ?_
    have hkind : Dev.passCounter p = C.PRS_PACKETS := if_pos h0
    have hmoves := h.moves
    have hcount := h.kind
    rw [hkind] at hmoves hcount
    refine ⟨?_, h.front, h.others, h.passes, hcount, hmoves.words, hmoves.parts, hmoves.memory⟩
    have hmem := h.mem
    unfold Dev.passing at hmem
    rwa [h0, if_pos rfl] at hmem
  · have he := (Dev.passEnter_of_recirc hn hq hp hs).trans (if_pos hyoung)
    have hm := s.dev.moves_recircTaken rest
    have hfront := s.dev.front_recircTaken rest
    have hid := Dev.id_of_packet? hp
    have hkind : Dev.passCounter p = C.PRS_RECIRC_PASSES := if_neg hpass
    have h := Dev.enters_enterPass (d := s.dev.recircTaken rest) (p := p) (by rw [hfront]; exact Dev.mem_of_packet? hp)
      (leAt p.pass.fv (12 + 2 * slot) 2) node profile
    have hmoves := h.moves
    have hcount := h.kind
    have hmem := h.mem
    rw [hkind] at hmoves hcount
    rw [s.dev.passing_recircTaken, Dev.passing, if_neg hpass] at hmem
    have hall := (hm.mono (ws' := [C.PRS_PASSES, C.PRS_RECIRC_PASSES, R.PRS_RECIRC_STAT_OCC.addr]) (by simp) (fun _ h => h)).trans
      (hmoves.mono (by simp) (fun _ h => h))
    refine .ofClocked hr.1 hr.2 (exec_parsePassEnter s) (by rw [he]; exact hall.parts .life (by simp)) ?_
    rw [he]
    refine ⟨hmem, ?_, fun x hx => ?_, ?_, ?_, hall.words, hall.parts, hall.memory⟩
    · rw [h.front, hfront, hid]
    · rw [h.others x (hid ▸ hx), hfront]
    · rw [Dev.Counts, h.passes, hm.words _ (by decide)]
    · rw [Dev.Counts, hcount, hm.words _ (by decide)]
  · exact exec_of_unchanged (exec_parsePassEnter s) ((Dev.passEnter_of_recirc hn hq hp hs).trans (if_neg (Nat.not_lt.2 hold)))
  · exact exec_of_unchanged (exec_parsePassEnter s) (Dev.passEnter_of_empty hn he)
  · refine exec_of_unchanged (exec_parsePassEnd s) ?_
    unfold Dev.passEnd
    rw [he]
  · intro r cur outcome counted gone
    have hrs : r = s.dev.parsePass p.frame cfg start node := rfl
    clear_value r
    have hid := Dev.id_of_packet? hp
    have hgone (d : Dev) (h : s.dev.PassGone d p rest r) : gone d := by
      obtain ⟨hsteps, hout, hwin⟩ := h.counted
      refine ⟨⟨hsteps, hout, hwin, by rw [h.front], h.moves.memory⟩, hid ▸ h.gone, hid ▸ h.others, h.front, h.moves.words, h.moves.parts⟩
    refine ⟨fun ho => ?_, fun reason ho => ?_, fun ho hb => ?_⟩
    · have hdelivers (d : Dev) (q : Packet) (ws : List Nat) (hq : q.id = p.id) (hfrom : q.sp = p.sp ∧ q.frame = p.frame ∧ q.passes = p.passes)
          (h : s.dev.Delivers d p q rest r cfg profile ws) : counted d ∧ s.dev.delivered q cfg profile r ∈ d.front.packets
            ∧ (s.dev.delivered q cfg profile r).id = id
            ∧ (s.dev.delivered q cfg profile r).pass.flags = (if r.outcome = 1 then 0x004 else if r.outcome = 3 then 0x010 else 0)
            ∧ (s.dev.delivered q cfg profile r).pass.fv = s.dev.fieldVector r (p.passes - 1) p.sp p.frame.length
            ∧ (∀ q, q.id ≠ id → (q ∈ d.front.packets ↔ q ∈ s.dev.front.packets))
            ∧ d.front = { s.dev.front with packets := d.front.packets, parsing := rest, searching := s.dev.front.searching ++ [id] } := by
        obtain ⟨hsteps, hout, hwin⟩ := h.counted
        obtain ⟨hsp', hframe, hpasses⟩ := hfrom
        refine ⟨⟨hsteps, hout, hwin, by rw [h.front], h.moves.memory⟩, h.mem, hq.trans hid, ?_, ?_, hid ▸ h.others, hid ▸ h.front⟩
        · rcases ho with ho | ho | ⟨ho, hb⟩
          · simp [Dev.delivered, ho]
          · simp [Dev.delivered, ho]
          · simp [Dev.delivered, ho, hb]
        · rw [Dev.delivered, hsp', hframe, hpasses]
      refine (parsePassEnd_delivers hr hf hp hs hrs (by omega) (by omega) (by omega)).mono fun d ⟨h1, hn1⟩ => ?_
      by_cases hpass : p.passes = 1
      · obtain ⟨hd, hcount⟩ := h1 hpass
        obtain ⟨hc, hmem, hqid, hflags, hfv, hothers, hfront⟩ := hdelivers d (s.dev.stamped p) _ rfl ⟨rfl, rfl, rfl⟩ hd
        refine ⟨hc, ⟨_, hmem, hqid, rfl, rfl, hflags, hfv, fun _ => ⟨rfl, rfl, rfl⟩, fun h => absurd hpass h⟩, hothers, hfront,
          fun _ => hcount, ?_, hd.moves.parts⟩
        rw [if_pos hpass]
        exact hd.moves.words
      · have hd := hn1 hpass
        obtain ⟨hc, hmem, hqid, hflags, hfv, hothers, hfront⟩ := hdelivers d _ _ rfl ⟨rfl, rfl, rfl⟩ hd
        refine ⟨hc, ⟨_, hmem, hqid, rfl, rfl, hflags, hfv, fun h => absurd h hpass, fun _ => ⟨rfl, rfl, rfl⟩⟩, hothers, hfront,
          fun h => absurd h hpass, ?_, hd.moves.parts⟩
        rw [if_neg hpass]
        exact hd.moves.words
    · obtain ⟨flags, hflags⟩ : ∃ flags, flags = if reason = 4 then 0x008 else 0x004 := ⟨_, rfl⟩
      have ho' : (r.outcome = 2 ∧ flags = 0x008 ∧ reason = 4) ∨ (r.outcome = 1 ∧ bitsOf cfg 5 2 = 2 ∧ flags = 0x004 ∧ reason = 3) := by
        rcases ho with ⟨ho, rfl⟩ | ⟨ho, hb, rfl⟩
        · exact .inl ⟨ho, hflags, rfl⟩
        · exact .inr ⟨ho, hb, hflags, rfl⟩
      refine (parsePassEnd_malformed hr hf hp hs hrs hslot hsp ho').mono fun d ⟨hg, y, held, hu, hd⟩ => ?_
      have hy := Dev.readies_of_unrefs hslot hsp hu
      have hegress (x : Nat) : y.egressOf x = s.dev.egressOf x := by rw [Dev.egressOf, hy.port, Dev.egressOf]
      refine ⟨hgone d hg, fun hm hgo hup hl => ?_, fun hout x => ?_⟩
      · have hj := Dev.egressOf_malformedPath_of_joins (d := y) (p := { p with refHeld := held }) hm hgo
          (hy.up.trans hup) (hy.port.symm ▸ hl) flags reason
        rw [← hd, hegress] at hj
        refine ⟨_, hj, hid, ?_⟩
        unfold Dev.egressItem
        rw [hy.shim, hy.tag, hflags]
        rfl
      · have hj := Dev.egressOf_malformedPath_of_not (d := y) (p := { p with refHeld := held })
          (hout.imp_right fun h => h.imp_right fun h => hy.up.trans h) flags reason x
        rw [← hd, hegress] at hj
        exact hj
    · exact (parsePassEnd_drops hr hf hp hs hrs hslot hsp ho hb).mono fun d ⟨hg, hc, he⟩ => ⟨hgone d hg, hc, he⟩

end Sys2Proof.Machine
end

section
/-! What the work for a verdict spares (O41): the tracing of the verdict engine and the planner (R521), and the write-back of a verdict to
its flow (R207), move words of Loupe, of the memories and of the flow table, fences and failures, and nothing that the cascade reads: its
counters, the plan of the window, the packets. `Dev.Spares d e` says so, with one lemma for each operation of that work,
`Dev.Spares.f` for `Dev.f`, in the model's order, whose proof follows the operation's text as in `Dev.Turns`. -/

namespace Sys2Proof.Machine

-- One proof after the other: together, that many short proofs ask for more threads than the check's memory limit allows.
set_option Elab.async false

/-- From `d` to `e` no counter of the cascade has moved, nothing of the plan but its fences and failures, no packet, no life record. -/
structure Dev.Spares (d e : Dev) : Prop where
  words : ∀ a, C.TKP_CANDIDATES ≤ a → a ≤ C.TKP_VERDICTS → e.word a = d.word a
  plan : e.plan = { d.plan with fences := e.plan.fences, failures := e.plan.failures }
  packets : e.front.packets = d.front.packets
  life : e.life = d.life

/-- A word that is no counter of the cascade. -/
abbrev OffCascade (a : Nat) : Prop := a < C.TKP_CANDIDATES ∨ C.TKP_VERDICTS < a

theorem offCascade_of_array {c : Prop} {inst : Decidable c} {a : Nat} (h : c → OffCascade a) : OffCascade (if c then a else RegMap.nowhere) := by
  split
  · next hc => exact h hc
  · exact .inr (by decide)

theorem offCascade_of_lt {a : Nat} (h : 0xD00000000 ≤ a) : OffCascade a := .inr (by simp only [C.TKP_VERDICTS]; omega)

namespace Dev.Spares

variable {d e x : Dev}

theorem refl (d : Dev) : d.Spares d := ⟨fun _ _ _ => rfl, rfl, rfl, rfl⟩

theorem trans (h : d.Spares e) (h' : e.Spares x) : d.Spares x where
  words a h1 h2 := (h'.words a h1 h2).trans (h.words a h1 h2)
  plan := by rw [h'.plan, h.plan]
  packets := h'.packets.trans h.packets
  life := h'.life.trans h.life

/-- An update that leaves what is spared. -/
theorem same (h : d.Spares e) {draws ns frac port front plan lens seq sync fab lpe ctl jrn nvm life sec sup}
    (hp : plan = { e.plan with fences := plan.fences, failures := plan.failures } := by rfl)
    (hf : front.packets = e.front.packets := by rfl) (hl : life = e.life := by rfl) :
    d.Spares (Dev.mk e.regs draws ns frac port front plan lens seq sync fab lpe ctl jrn nvm life sec sup) :=
  h.trans ⟨fun _ _ _ => rfl, hp, hf, hl⟩

theorem ite {c : Prop} [Decidable c] (he : d.Spares e) (hx : d.Spares x) : d.Spares (if c then e else x) := by
  split <;> assumption

theorem ite_fst {α : Type} {c : Prop} [Decidable c] {p q : Dev × α} (hp : d.Spares p.1) (hq : d.Spares q.1) :
    d.Spares (if c then p else q).1 := by
  split <;> assumption

theorem fst (h : d.Spares e) {α : Type} {y : α} : d.Spares (e, y).1 := h

theorem of_fst {α : Type} {p : Dev × α} {y : α} (h : d.Spares p.1) (hp : p = (e, y)) : d.Spares e := by
  rw [hp] at h; exact h

theorem foldl {α : Type} {f : Dev → α → Dev} (h : d.Spares e) (hf : ∀ {e x}, d.Spares e → d.Spares (f e x)) {xs : List α} :
    d.Spares (xs.foldl f e) := by
  induction xs generalizing e with
  | nil => exact h
  | cons x xs ih => exact ih (hf h)

theorem foldl_fst {α β : Type} {f : Dev × β → α → Dev × β} {p : Dev × β} (h : d.Spares p.1)
    (hf : ∀ {q x}, d.Spares q.1 → d.Spares (f q x).1) {xs : List α} : d.Spares (xs.foldl f p).1 := by
  induction xs generalizing p with
  | nil => exact h
  | cons x xs ih => exact ih (hf h)

theorem each (h : d.Spares e) {α : Type} {f : Dev → α → Dev} {xs : List α} (hf : ∀ {e x}, d.Spares e → d.Spares (f e x)) :
    d.Spares (e.each xs f) := h.foldl hf

/-- A word written that is no counter of the cascade. -/
theorem setWord (h : d.Spares e) {a v} (ha : OffCascade a := by decide) : d.Spares (e.setWord a v) :=
  h.trans ⟨fun b h1 h2 => e.word_setWord_other v fun hb => by subst hb; omega, rfl, rfl, rfl⟩

theorem put (h : d.Spares e) {f v} (hf : OffCascade f.addr := by decide) : d.Spares (e.put f v) := h.setWord hf

theorem bump (h : d.Spares e) {a n} (ha : OffCascade a := by decide) : d.Spares (e.bump a n) := .ite h (h.setWord ha)

theorem memWrite (h : d.Spares e) {a bs} : d.Spares (e.memWrite a bs) := h.same

/-! ### Ops and the port -/

theorem dayCount (h : d.Spares e) {key} : d.Spares (e.dayCount key) := h.same
theorem health (h : d.Spares e) {event inst detail} : d.Spares (e.health event inst detail) := h.same
theorem lifeEntry (h : d.Spares e) {kind source body decision} : d.Spares (e.lifeEntry kind source body decision) := h.same
theorem standingWrite (h : d.Spares e) : d.Spares e.standingWrite := .ite h.same h.same
theorem modSub (h : d.Spares e) {sp f} : d.Spares (e.modSub sp f) := h.same
theorem dropRecords (h : d.Spares e) {f} : d.Spares (e.dropRecords f) :=
  h.bump (offCascade_of_array fun _ => .inl (by simp only [C.TKP_CANDIDATES]; omega))
theorem closeRecords (h : d.Spares e) {f} : d.Spares (e.closeRecords f) := .ite h.modSub.same h.modSub.dropRecords
theorem addRecord (h : d.Spares e) {sp batch r} : d.Spares (e.addRecord sp batch r) := .ite (closeRecords h.same) h.same

/-! ### Mem -/

theorem retire (h : d.Spares e) {c cause} : d.Spares (e.retire c cause) := .ite h (h.same.health.lifeEntry.standingWrite)
theorem channelError (h : d.Spares e) {c crc} : d.Spares (e.channelError c crc) := .ite (retire h.same) h.same
theorem fenceOne (h : d.Spares e) {kind index} : d.Spares (e.fenceOne kind index) := .ite h (h.same.health.lifeEntry.standingWrite)

theorem fence (h : d.Spares e) {kind index} : d.Spares (e.fence kind index) :=
  have h1 : d.Spares _ := .ite h.fenceOne.fenceOne h.fenceOne
  .ite h1.fenceOne h1

theorem failure (h : d.Spares e) {kind index} : d.Spares (e.failure kind index) := .ite (fence h.same) h.same

theorem memEvent (h : d.Spares e) {k} : d.Spares (e.memEvent k).1 := by
  unfold Dev.memEvent
  dsimp only
  split
  · split
    · exact fst (h.bump (offCascade_of_array fun _ => .inl (by simp only [C.TKP_CANDIDATES]; omega)))
    · exact (h.bump (offCascade_of_array fun _ => .inl (by simp only [C.TKP_CANDIDATES]; omega))).health.failure
  · split
    · refine fst ?_
      split
      · exact h.bump.dayCount
      · exact h.bump
    · refine fst ?_
      split
      · exact h.bump.health.channelError
      · exact h.bump.health
    · exact h.bump
    · refine fst ?_
      split
      · exact h.bump.bump.health.channelError
      · exact h.bump.bump.health

theorem memEvents (h : d.Spares e) {es} : d.Spares (e.memEvents es).1 := h.foldl_fst fun h1 => fst h1.memEvent
theorem setGranuleBad (h : d.Spares e) {g bad} : d.Spares (e.setGranuleBad g bad) := h.same

theorem fetch (h : d.Spares e) {a n bad} : d.Spares (e.fetch a n bad).1 :=
  .ite_fst (fst h.bump.bump) (.ite_fst (fst h.memEvents.bump) (fst h.memEvents))

theorem writeEvent (h : d.Spares e) {k} : d.Spares (e.writeEvent k) := by
  unfold Dev.writeEvent
  split
  · exact h.bump.channelError
  · exact h.memEvent

theorem storeGranule (h : d.Spares e) {a bs bad} : d.Spares (e.storeGranule a bs bad) :=
  .ite h.bump (have h1 : d.Spares _ := .setGranuleBad (.ite (h.each fun h2 => h2.writeEvent).bump (h.each fun h2 => h2.writeEvent))
  .ite h1 h1.memWrite)

theorem storeBy (h : d.Spares e) {own a bs bad} : d.Spares (e.storeBy own a bs bad) :=
  .ite h (.ite h.bump (h.each fun h1 => .ite h1 h1.storeGranule))

theorem store (h : d.Spares e) {a bs bad} : d.Spares (e.store a bs bad) := h.storeBy

/-! ### Trace -/

theorem ringWrite (h : d.Spares e) {base size head oldest bs} (hh : OffCascade head.addr) (ho : OffCascade oldest.addr) :
    d.Spares (e.ringWrite base size head oldest bs) :=
  .ite h (have h1 := h.store.store
  .ite ((h1.put hh).put ho) (h1.put hh))

theorem dramUse (h : d.Spares e) {n} : d.Spares (e.dramUse n) := h.same

theorem traceOut (h : d.Spares e) {r} : d.Spares (e.traceOut r) :=
  have h1 := h.dramUse.ringWrite (by decide) (by decide)
  .ite (h1.bump.put (offCascade_of_array fun _ => .inr (by simp only [C.TKP_VERDICTS]; omega))) h1.bump

theorem drainStaged (h : d.Spares e) {k} : d.Spares (e.drainStaged k) := by
  induction k generalizing e with
  | zero => exact h
  | succ k ih =>
    unfold Dev.drainStaged
    split
    · exact h
    · exact .ite (ih (each h.same fun h1 => h1.traceOut)) h

theorem drain (h : d.Spares e) : d.Spares e.drain := .drainStaged (.ite (traceOut h.same) h)

theorem noteDrop (h : d.Spares e) {cls n} : d.Spares (e.noteDrop cls n) :=
  put (same (h.bump (offCascade_of_lt (Nat.le_add_right_of_le (by decide)))))

theorem refuseUnits (h : d.Spares e) {cls n} : d.Spares (e.refuseUnits cls n) := .noteDrop (.ite h h.bump)

theorem makeRoom (h : d.Spares e) {cls n k} : d.Spares (e.makeRoom cls n k) := by
  induction k generalizing e with
  | zero => exact h
  | succ k ih =>
    refine .ite h ?_
    split
    · exact ih (refuseUnits h.same)
    · exact h

theorem trace (h : d.Spares e) {rs} : d.Spares (e.trace rs) := .ite (drain (same h.drain.makeRoom)) h.drain.makeRoom.refuseUnits

/-! ### EngineCmd -/

theorem showCounts (h : d.Spares e) {engine counts} : d.Spares (e.showCounts engine counts) :=
  h.each fun h1 => h1.setWord (offCascade_of_lt (Nat.le_add_right_of_le (Nat.le_add_right_of_le (by decide))))

theorem cmdBegin (h : d.Spares e) {engine unit context model cmdId stepped} :
    d.Spares (e.cmdBegin engine unit context model cmdId stepped) :=
  have h1 := showCounts h.same
  .ite h1.trace h1

theorem cmdEnd (h : d.Spares e) {engine unit cmdId cause reissued} : d.Spares (e.cmdEnd engine unit cmdId cause reissued) := by
  unfold Dev.cmdEnd
  split
  · exact h
  · exact have h1 := showCounts h.same
    .ite (h1.bump (offCascade_of_array fun _ => offCascade_of_lt (by omega))).trace
      (h1.bump (offCascade_of_array fun _ => offCascade_of_lt (by omega)))

theorem cmdWork (h : d.Spares e) {engine unit cmdId work} : d.Spares (e.cmdWork engine unit cmdId work) := by
  unfold Dev.cmdWork
  dsimp only
  split
  · exact .ite (showCounts h.same) h.same
  · exact h.same

theorem stepOver (h : d.Spares e) {engine} : d.Spares (e.stepOver engine) := by
  unfold Dev.stepOver
  split
  · exact h.cmdEnd
  · exact h

theorem engineStep (h : d.Spares e) {engine context model} : d.Spares (e.engineStep engine context model) :=
  .cmdWork (.ite h h.stepOver.cmdBegin)

/-! ### Flow -/

theorem setCache (h : d.Spares e) {set ls} : d.Spares (e.setCache set ls) := h.same

theorem readEntry (h : d.Spares e) {index set} : d.Spares (e.readEntry index set).1 := by
  refine .ite_fst h ?_
  split
  · exact h
  · exact h.fetch

theorem readFlow (h : d.Spares e) {f} : d.Spares (e.readFlow f).1 := h.readEntry

theorem putFlow (h : d.Spares e) {index set bs} : d.Spares (e.putFlow index set bs) := by
  unfold Dev.putFlow
  split
  · exact h.setCache
  · exact h.storeBy

theorem flowVerdict (h : d.Spares e) {f key shim} : d.Spares (e.flowVerdict f key shim) := by
  unfold Dev.flowVerdict
  split
  · next he => exact (h.readFlow.of_fst he).bump
  · next he => exact .ite (h.readFlow.of_fst he).putFlow.bump (h.readFlow.of_fst he).bump

end Dev.Spares

end Sys2Proof.Machine
end

section
/-! The verdict of a sample (R85 to R87, R207, R416): what the planner's choice before it leaves as it was (`Dev.Plans`), what the writing of
a verdict does (`Dev.Judges`), and the verdict as it stands in O41 (`Dev.Verdict`). -/

namespace Sys2Proof.Machine

/-! ### The samples -/

theorem Dev.sample?_congr {d e : Dev} (h : e.plan.computing = d.plan.computing) (i : Nat) : e.sample? i = d.sample? i := by
  unfold Dev.sample?
  rw [h]

theorem Dev.sample?_setSample_same {d : Dev} {x y : Sample} (h : d.sample? x.slot = some y) : (d.setSample x).sample? x.slot = some x := by
  rw [d.sample?_setSample, if_pos rfl, h]
  rfl

/-- A sample replaced changes the plan alone, and of it the samples of the computing batch. -/
theorem Dev.plan_setSample (d : Dev) (x : Sample) : (d.setSample x).plan = { d.plan with computing := (d.setSample x).plan.computing } := rfl

/-! ### The choice before a verdict -/

/-- The counters of the refusals. -/
def refusalWords : List Nat := [C.TKP_REFUSED_CREDIT, C.TKP_REFUSED_CAP, C.APR_CREDIT_EXHAUSTED]

theorem not_mem_refusalWords {a : Nat} (h : a < C.TKP_REFUSED_CREDIT ∨ C.APR_CREDIT_EXHAUSTED < a) : a ∉ refusalWords := by
  simp only [refusalWords, C.TKP_REFUSED_CREDIT, C.TKP_REFUSED_CAP, C.APR_CREDIT_EXHAUSTED, List.mem_cons, List.not_mem_nil, or_false] at *
  omega

/-- The word of an array whose words are no counters of the refusals. -/
theorem array_not_mem_refusalWords {c : Prop} {inst : Decidable c} {a : Nat} (h : c → a < C.TKP_REFUSED_CREDIT ∨ C.APR_CREDIT_EXHAUSTED < a) :
    (if c then a else RegMap.nowhere) ∉ refusalWords := by
  split
  · next hc => exact not_mem_refusalWords (h hc)
  · decide

/-- From `d` to `e` the planner has noted results and refusals: nothing of the plan but the samples, the closed groups, what has completed, the
use of the tiers and whether the credit is exhausted; no word but the counters of the refusals. -/
structure Dev.Plans (d e : Dev) : Prop where
  moves : d.Moves e refusalWords [.plan]
  plan : e.plan = { d.plan with computing := e.plan.computing, closedGroups := e.plan.closedGroups, completed := e.plan.completed,
                                use := e.plan.use, exhausted := e.plan.exhausted }

/-- Two devices with the same map of the memory, its poison included. -/
theorem Dev.readable_congr {d e : Dev} (hl : e.liveChannels = d.liveChannels)
    (hs : ∀ c, e.get (R.MEM_CHAN_STAT_STATE c) = d.get (R.MEM_CHAN_STAT_STATE c)) (hh : e.sup.heldTiers = d.sup.heldTiers)
    (hp : e.fab.poison = d.fab.poison) (a n : Nat) : e.readable a n = d.readable a n := by
  have hg (g : Nat) : e.granuleBad g = d.granuleBad g := by
    unfold Dev.granuleBad
    rw [hp]
  exact Bool.eq_iff_iff.2 ⟨Dev.SameMap.readable ⟨hl.symm, fun c => (hs c).symm, hh.symm, fun g hb => (hg g).symm.trans hb⟩,
    Dev.SameMap.readable ⟨hl, hs, hh, fun g hb => (hg g).trans hb⟩⟩

namespace Dev.Plans

variable {d e : Dev}

theorem refl (d : Dev) : d.Plans d := ⟨.refl d _ _, rfl⟩

theorem trans {y : Dev} (h : d.Plans y) (h' : y.Plans e) : d.Plans e :=
  ⟨h.moves.trans h'.moves, by rw [h'.plan, h.plan]⟩

theorem bump (h : d.Plans e) {a : Nat} (ha : a ∈ refusalWords) : d.Plans (e.bump a) := by
  have hp : (e.bump a).plan = e.plan := rfl
  exact ⟨h.moves.bump ha, by rw [hp]; exact h.plan⟩

theorem withPlan (h : d.Plans e) {p : Plan}
    (hp : p = { e.plan with computing := p.computing, closedGroups := p.closedGroups, completed := p.completed, use := p.use,
                            exhausted := p.exhausted }) : d.Plans { e with plan := p } :=
  h.trans ⟨(Moves.refl _ _ _).withPlan (List.mem_singleton.2 rfl) _, hp⟩

variable (h : d.Plans e)
include h

theorem get {f : Fld} (hf : f.addr ∉ refusalWords) : e.get f = d.get f := h.moves.get hf

theorem part {p : Part} (hp : p ≠ .plan := by decide) : p.Same d e := h.moves.parts p (by simpa using hp)

theorem esc (f : Fld) : e.esc f = d.esc f := by
  unfold Dev.esc
  rw [congrArg Plan.esc h.plan]

theorem mode : e.plan.mode = d.plan.mode := by rw [congrArg Plan.mode h.plan]

theorem tick32 : e.tick32 = d.tick32 := by
  unfold Dev.tick32
  rw [congrArg Plan.firstTick h.plan, congrArg Plan.tick h.plan]

theorem packet? (i : Nat) : e.packet? i = d.packet? i := by
  have hf : e.front = d.front := h.part (p := .front)
  unfold Dev.packet?
  rw [hf]

theorem outBlock (m t : Nat) : e.outBlock m t = d.outBlock m t := by
  have hseq : e.seq = d.seq := h.part (p := .seq)
  have hout : e.get (R.FOR_MODEL_OUT_BLOCK m) = d.get (R.FOR_MODEL_OUT_BLOCK m) :=
    h.get (array_not_mem_refusalWords fun hm => by simp only [C.TKP_REFUSED_CREDIT]; omega)
  unfold Dev.outBlock Dev.outAddr
  rw [hseq, hout]
  exact Memory.read_congr h.moves.memory.1

theorem verdictShim (s : Sample) (tier : Option Nat) (flags reason : Nat) :
    e.verdictShim s tier flags reason = d.verdictShim s tier flags reason := by
  have hgen : e.get (R.SEQ_MODEL_GEN_CURRENT s.model) = d.get (R.SEQ_MODEL_GEN_CURRENT s.model) :=
    h.get (array_not_mem_refusalWords fun hm => by simp only [C.TKP_REFUSED_CREDIT]; omega)
  unfold Dev.verdictShim
  simp only [h.outBlock, hgen, h.tick32]

theorem faulted (c : Nat) : e.faulted c = d.faulted c := by
  unfold Dev.faulted
  rw [h.get (array_not_mem_refusalWords fun hc => by simp only [C.APR_CREDIT_EXHAUSTED]; omega)]

theorem stepping (c : Nat) : e.stepping c = d.stepping c :=
  on_congr (h.get (array_not_mem_refusalWords fun hc => by simp only [C.APR_CREDIT_EXHAUSTED]; omega))

theorem carrier (s : Sample) : e.carrier s = d.carrier s := by
  unfold Dev.carrier
  rw [on_congr (h.get (array_not_mem_refusalWords fun hm => by simp only [C.TKP_REFUSED_CREDIT]; omega))]

theorem wants (s : Sample) (tier : Nat) (ys : Raw) : e.wants s tier ys = d.wants s tier ys := by
  unfold Dev.wants
  simp only [h.esc, h.mode, h.outBlock, h.carrier]

theorem slotAddr (set slot : Nat) : e.slotAddr set slot = d.slotAddr set slot := by
  have hseq : e.seq = d.seq := h.part (p := .seq)
  unfold Dev.slotAddr
  rw [hseq]

theorem readable (a n : Nat) : e.readable a n = d.readable a n := by
  have hp : ({ e.fab with mem := [], core := [] } : Fabric).poison = ({ d.fab with mem := [], core := [] } : Fabric).poison :=
    congrArg Fabric.poison (h.part (p := .fab))
  exact readable_congr (h.get (not_mem_refusalWords (.inr (by decide))))
    (fun c => h.get (array_not_mem_refusalWords fun hc => by simp only [C.APR_CREDIT_EXHAUSTED]; omega))
    (congrArg Supply.heldTiers (h.part (p := .sup))) hp a n

end Dev.Plans

/-! ### The writing of a verdict -/

/-- A verdict of which the sample is merged gives the reason of the merge, where none lower stands (R87). -/
def Sample.reasonOf (s : Sample) (reason : Nat) : Nat := if s.merged then (if reason = 0 then 7 else min reason 7) else reason

/-- From `d` to `e` a sample's verdict has been written. -/
structure Dev.Judges (d e : Dev) (s : Sample) (shim : List Byte) : Prop where
  counts : d.Counts e C.TKP_VERDICTS 1
  words : ∀ a, C.TKP_CANDIDATES ≤ a → a < C.TKP_VERDICTS → e.word a = d.word a
  plan : e.plan = { (d.setSample { s with done := true }).plan with fences := e.plan.fences, failures := e.plan.failures }
  packet : s.mode = 0 → ∀ p, d.packet? s.packet = some p → { p with verdict := some shim } ∈ e.front.packets
  life : e.life = d.life

namespace Dev

/-- The mode in which its packet arrived decides what becomes of a verdict that has been counted (R45). -/
def deliver (d : Dev) (b : Batch) (s : Sample) (v : List Byte) : Dev :=
  if s.mode = 0 then
    match d.packet? s.packet with
    | some p => d.setPacket { p with verdict := some v }
    | none => d
  else if s.mode = 1 then
    d.addRecord s.sp b.number (v ++ beBytes 8 s.rxTime ++ beBytes 4 s.flow.hash ++ beBytes 4 (s.sp * 2 ^ 28 + s.flow.index))
  else d

/-- A counter beside the cascade's, counted in one case. -/
theorem Spares.bumpIf {d e : Dev} (h : d.Spares e) {c : Prop} [Decidable c] {a : Nat} (ha : OffCascade a := by decide) :
    d.Spares (if c then e.bump a else e) := .ite (h.bump ha) h

/-- A verdict is written in steps: the sample is done, the verdict is counted, then delivered. -/
theorem writeVerdict_steps (d : Dev) (b : Batch) (s : Sample) (tier : Option Nat) (flags reason : Nat) : ∃ x y,
    (d.setSample { s with done := true }).Spares x ∧ (x.bump C.TKP_VERDICTS).Spares y
      ∧ d.writeVerdict b s tier flags reason = y.deliver b s (d.verdictShim s tier flags (s.reasonOf reason)).v2 := by
  have hx : (d.setSample { s with done := true }).Spares ((d.setSample { s with done := true }).engineStep 0x5000 s.context s.model) :=
    (Spares.refl _).engineStep
  refine ⟨_, _, hx, ?_, rfl⟩
  exact .flowVerdict (.bumpIf (.bumpIf (.bumpIf (.bumpIf (.refl _)))))

end Dev

end Sys2Proof.Machine
end

section
/-! What a verdict written leaves (`Dev.Judges`), and the verdict of O41 (`Dev.Verdict`), when the record can be read and when not. -/

namespace Sys2Proof.Machine

namespace Dev

variable {d y e : Dev}

theorem Spares.deliver (h : d.Spares e) {b : Batch} {s : Sample} {v : List Byte} (hm : s.mode ≠ 0) : d.Spares (e.deliver b s v) := by
  unfold Dev.deliver
  rw [if_neg hm]
  exact .ite h.addRecord h

theorem deliver_inline {p : Packet} {b : Batch} {s : Sample} {v : List Byte} (hm : s.mode = 0) (hp : d.packet? s.packet = some p) :
    d.deliver b s v = d.setPacket { p with verdict := some v } := by
  unfold deliver
  rw [if_pos hm, hp]

theorem deliver_lost {b : Batch} {s : Sample} {v : List Byte} (hm : s.mode = 0) (hp : d.packet? s.packet = none) : d.deliver b s v = d := by
  unfold deliver
  rw [if_pos hm, hp]

/-- The delivery of a verdict changes no counter of the cascade, and of the plan fences and failures alone. -/
theorem deliver_keeps (d : Dev) (b : Batch) (s : Sample) (v : List Byte) :
    (∀ a, C.TKP_CANDIDATES ≤ a → a ≤ C.TKP_VERDICTS → (d.deliver b s v).word a = d.word a)
      ∧ (d.deliver b s v).plan = { d.plan with fences := (d.deliver b s v).plan.fences, failures := (d.deliver b s v).plan.failures }
      ∧ (d.deliver b s v).life = d.life := by
  by_cases hm : s.mode = 0
  · cases hp : d.packet? s.packet with
    | some p =>
      rw [deliver_inline hm hp]
      exact ⟨fun _ _ _ => rfl, rfl, rfl⟩
    | none =>
      rw [deliver_lost hm hp]
      exact ⟨fun _ _ _ => rfl, rfl, rfl⟩
  · have h := (Spares.refl d).deliver (b := b) (v := v) hm
    exact ⟨h.words, h.plan, h.life⟩

theorem judges_writeVerdict (d : Dev) (b : Batch) (s : Sample) (tier : Option Nat) (flags reason : Nat) :
    d.Judges (d.writeVerdict b s tier flags reason) s (d.verdictShim s tier flags (s.reasonOf reason)).v2 := by
  obtain ⟨x, y, hx, hy, he⟩ := d.writeVerdict_steps b s tier flags reason
  rw [he]
  obtain ⟨hw, hp, hl⟩ := y.deliver_keeps b s (d.verdictShim s tier flags (s.reasonOf reason)).v2
  generalize hv : (d.verdictShim s tier flags (s.reasonOf reason)).v2 = v at hw hp hl ⊢
  have hlt : C.TKP_CANDIDATES ≤ C.TKP_VERDICTS := by decide
  refine ⟨?_, fun a h1 h2 => ?_, ?_, fun hm p hq => ?_, ?_⟩
  · have hs : (d.setSample { s with done := true }).word C.TKP_VERDICTS = d.word C.TKP_VERDICTS := rfl
    rw [Counts, hw _ hlt le_rfl, hy.words _ hlt le_rfl, word_bump_same, hx.words _ hlt le_rfl, hs]
  · have hs : (d.setSample { s with done := true }).word a = d.word a := rfl
    rw [hw _ h1 h2.le, hy.words _ h1 h2.le, word_bump_other _ _ h2.ne, hx.words _ h1 h2.le, hs]
  · have hb : (x.bump C.TKP_VERDICTS).plan = x.plan := rfl
    rw [hp, hy.plan, hb, hx.plan]
  · have hb : (x.bump C.TKP_VERDICTS).front = x.front := rfl
    have hs : (d.setSample { s with done := true }).front = d.front := rfl
    have hf : y.front.packets = d.front.packets := by rw [hy.packets, hb, hx.packets, hs]
    have hq' : y.packet? s.packet = some p := by
      rw [← hq]
      unfold packet?
      rw [hf]
    rw [deliver_inline hm hq']
    exact mem_setPacket (mem_of_packet? hq') rfl
  · have hb : (x.bump C.TKP_VERDICTS).life = x.life := rfl
    rw [hl, hy.life, hb, hx.life]
    rfl

theorem Judges.sample? {s t : Sample} {v : List Byte} (h : d.Judges e s v) (ht : d.sample? s.slot = some t) :
    e.sample? s.slot = some { s with done := true } :=
  (sample?_congr (by rw [congrArg Plan.computing h.plan]) _).trans (d.sample?_setSample_same (x := { s with done := true }) ht)

/-- The groups and the credit stand as they did. -/
theorem Judges.openGroup {s : Sample} {v : List Byte} (h : d.Judges e s v) : e.plan.openGroup = d.plan.openGroup := by
  rw [congrArg Plan.openGroup h.plan]
  rfl

theorem Judges.closedGroups {s : Sample} {v : List Byte} (h : d.Judges e s v) : e.plan.closedGroups = d.plan.closedGroups := by
  rw [congrArg Plan.closedGroups h.plan]
  rfl

theorem Judges.left {s : Sample} {v : List Byte} (h : d.Judges e s v) : e.plan.left = d.plan.left := by
  rw [congrArg Plan.left h.plan]
  rfl

/-! ### A verdict before the deadline -/

theorem verdictNow_of_readable {b : Batch} {s : Sample} (h : d.readable (d.slotAddr b.set s.slot) 512 = true) (tier flags reason : Nat) :
    d.verdictNow b s tier flags reason = d.writeVerdict b s (some tier) flags reason := by
  unfold verdictNow
  rw [fetch_of_readable h]

/-- Of a record that cannot be read the sample is left without a verdict. -/
theorem verdictNow_of_not_readable {b : Batch} {s : Sample} (h : d.readable (d.slotAddr b.set s.slot) 512 = false)
    (tier flags reason : Nat) : ∃ x, d.Spares x ∧ d.verdictNow b s tier flags reason = x.setSample { s with dead := true } := by
  have hs : d.Spares (d.fetch (d.slotAddr b.set s.slot) 512 []).1 := (Spares.refl d).fetch
  have hn := fetch_of_not_readable h
  unfold verdictNow
  generalize d.fetch (d.slotAddr b.set s.slot) 512 [] = p at hs hn
  obtain ⟨x, o⟩ := p
  obtain rfl : o = none := hn
  exact ⟨x, hs, rfl⟩

/-- A sample has its verdict, as O41 says it. -/
def Verdict (d : Dev) (y : Sample) (tier flags reason : Nat) (e : Dev) : Prop :=
  (∃ z, e.sample? y.slot = some z ∧ z.done = true ∧ z.raw = y.raw ∧ z.ys = y.ys)
    ∧ d.Counts e C.TKP_VERDICTS 1 ∧ e.plan.openGroup = d.plan.openGroup
    ∧ (y.mode = 0 → ∀ p, d.packet? y.packet = some p → ∃ q ∈ e.front.packets, q.id = p.id ∧ q.verdict
        = some (d.verdictShim y (some tier) flags (y.reasonOf reason)).v2)

theorem Plans.verdict (h : d.Plans y) {s t : Sample} {tier flags reason : Nat} (ht : y.sample? s.slot = some t)
    (hj : y.Judges e s (y.verdictShim s (some tier) flags (s.reasonOf reason)).v2) : d.Verdict s tier flags reason e := by
  have hw : y.word C.TKP_VERDICTS = d.word C.TKP_VERDICTS := h.moves.words _ (by decide)
  refine ⟨⟨_, hj.sample? ht, rfl, rfl, rfl⟩, ?_, ?_, fun hm p hp => ?_⟩
  · have hc := hj.counts
    rwa [Counts, hw] at hc
  · exact hj.openGroup.trans (by rw [congrArg Plan.openGroup h.plan])
  · rw [← h.packet?] at hp
    rw [h.verdictShim] at hj
    exact ⟨_, hj.packet hm p hp, rfl, rfl⟩

/-- A verdict written of a record that can be read. -/
theorem Plans.judges_verdictNow (h : d.Plans y) {b : Batch} {s : Sample} (hr : d.readable (d.slotAddr b.set s.slot) 512 = true)
    (tier flags reason : Nat) : y.Judges (y.verdictNow b s tier flags reason) s (y.verdictShim s (some tier) flags (s.reasonOf reason)).v2 := by
  rw [verdictNow_of_readable (by rw [h.slotAddr, h.readable, hr])]
  exact y.judges_writeVerdict _ _ _ _ _

end Dev

end Sys2Proof.Machine
end

section
/-! A tier result is taken (R357, R403): its y is formed and it is noted (`Dev.TakesResult`), then its sample is judged
(`Dev.judgeResult`). -/

namespace Sys2Proof.Machine

/-! ### Link functions draw, and change nothing else -/

/-- From `d` to `e` free values have been drawn, and nothing else. -/
def Dev.Draws (d e : Dev) : Prop := e = { d with draws := e.draws }

namespace Dev.Draws

variable {d e : Dev}

theorem refl (d : Dev) : d.Draws d := rfl

theorem draw (h : d.Draws e) {n : Nat} : d.Draws { e with draws := n } := by
  unfold Dev.Draws at *
  rw [h]

theorem sumPicked (h : d.Draws e) {k : Nat} {xs : List Nat} {acc : Nat} : d.Draws (sumPicked k xs acc e).1 := by
  induction k generalizing xs acc e with
  | zero => exact h
  | succ k ih =>
    cases xs with
    | nil => exact h
    | cons x xs => exact ih h.draw

theorem foldl_fst {α β : Type} {f : Dev × β → α → Dev × β} {p : Dev × β} (h : d.Draws p.1)
    (hf : ∀ {q x}, d.Draws q.1 → d.Draws (f q x).1) {xs : List α} : d.Draws (xs.foldl f p).1 := by
  induction xs generalizing p with
  | nil => exact h
  | cons x xs ih => exact ih (hf h)

theorem expAll (h : d.Draws e) {xs : List Nat} : d.Draws (expAll xs e).1 := by
  unfold Machine.expAll
  refine foldl_fst (p := (e, [])) h fun hq => ?_
  exact hq.draw

theorem linkY (h : d.Draws e) {ob : List Byte} {r : Raw} : d.Draws (linkY ob r e).1 := by
  unfold Machine.linkY
  dsimp only
  split
  · exact h.expAll
  · exact h.expAll.draw.sumPicked
  · exact h
  · exact h

end Dev.Draws

/-! ### A result taken -/

/-- A sample with the result of a tier: its raw scores and the y formed from them. -/
def Sample.withResult (x : Sample) (tier : Nat) (r ys : Raw) : Sample :=
  { x with raw := x.raw.set tier (some r), ys := x.ys.set tier (some ys) }

/-- From `d` to `e` a result has been noted, and with it the sample `y` stands in its slot. -/
structure Dev.TakesResult (d e : Dev) (y : Sample) : Prop where
  moves : d.Moves e [] [.plan]
  plan : e.plan = { d.plan with computing := e.plan.computing, completed := e.plan.completed, use := e.plan.use }
  samples : ∀ i, e.sample? i = if i = y.slot then some y else d.sample? i

namespace Dev

variable {d e : Dev} {b : Batch} {x y : Sample} {slot tier : Nat} {r ys : Raw}

/-- The sample stands in its slot, from which it was read. -/
theorem Draws.takesResult (h : d.Draws e) (hx : d.sample? y.slot = some x) : d.TakesResult (e.setSample y) y := by
  unfold Draws at h
  have hp : e.plan = d.plan := by rw [h]
  have hm : d.Moves e [] [.plan] := by
    rw [h]
    exact (Moves.refl d _ _).regs fun _ _ => rfl
  refine ⟨hm.withPlan (List.mem_singleton.2 rfl) _, ?_, fun i => ?_⟩
  · rw [plan_setSample, hp]
  · rw [sample?_setSample, sample?_congr (congrArg Plan.computing hp)]
    split
    · next hi =>
      rw [hi, hx]
      rfl
    · rfl

theorem TakesResult.withPlan (h : d.TakesResult e y) {c : Sparse Nat} {u : Sparse TierUse} :
    d.TakesResult { e with plan := { e.plan with completed := c, use := u } } y where
  moves := h.moves.withPlan (List.mem_singleton.2 rfl) _
  plan := by rw [h.plan]
  samples := h.samples

theorem TakesResult.ite {c : Prop} [Decidable c] {e' : Dev} (h : d.TakesResult e y) (h' : d.TakesResult e' y) :
    d.TakesResult (if c then e else e') y := by
  split <;> assumption

theorem TakesResult.plans (h : d.TakesResult e y) : d.Plans e :=
  ⟨h.moves.mono (by simp) (fun _ h => h), by rw [h.plan]⟩

/-- The judgement of a sample whose result has been noted (R403, R416). -/
def judgeResult (d : Dev) (b : Batch) (s : Sample) (tier : Nat) (ys : Raw) : Dev :=
  if s.done || s.dead then d else
  let step := if d.stepping s.context then 0x040 else 0
  if d.faulted s.context then (if tier = 0 then d.verdictNow b s 0 (0x400 + step) 1 else d)
  else if step != 0 then (if tier = 0 then d.verdictNow b s 0 step 2 else d)
  else if s.admitted.any fun t => tier < t then d
  else if tier = 2 || (tier = 1 && bitsOf d.plan.mode 1 1 = 1) then d.verdictNow b s tier 0 0
  else d.afterResult b s tier ys

theorem tierResult_no_sample (h : d.plan.computing = none ∨ d.sample? slot = none) : d.tierResult slot tier r = d := by
  unfold tierResult
  rcases h with h | h
  · rw [h]
  · rw [h]
    split <;> simp_all

theorem tierResult_spurned (hb : d.plan.computing = some b) (hx : d.sample? slot = some x)
    (h : (x.model, tier) ∈ d.plan.lost ∨ (x.raw.getD tier none).isSome = true ∨ (tier ≠ 0 ∧ tier ∉ x.admitted)) :
    d.tierResult slot tier r = d := by
  unfold tierResult
  rw [hb, hx]
  exact if_pos (by simpa [or_assoc] using h)

theorem tierResult_taken (hb : d.plan.computing = some b) (hx : d.sample? slot = some x) (hl : (x.model, tier) ∉ d.plan.lost)
    (hn : x.raw.getD tier none = none) (ha : tier = 0 ∨ tier ∈ x.admitted) (hys : ys = (linkY (d.outBlock x.model tier) r d).2) :
    ∃ e, d.TakesResult e (x.withResult tier r ys) ∧ d.tierResult slot tier r = e.judgeResult b (x.withResult tier r ys) tier ys := by
  have hgo : ¬((d.plan.lost.contains (x.model, tier) || (x.raw.getD tier none).isSome || (tier != 0 && !x.admitted.contains tier)) = true) := by
    rw [hn]
    simp [hl]
    tauto
  have hd : d.Draws (linkY (d.outBlock x.model tier) r d).1 := (Draws.refl d).linkY
  have hs : d.sample? (x.withResult tier r ys).slot = some x := by
    rw [← slot_of_sample? hx] at hx
    exact hx
  unfold tierResult
  rw [hb, hx]
  dsimp only
  rw [if_neg hgo]
  generalize linkY (d.outBlock x.model tier) r d = p at hys hd
  obtain ⟨d1, ys1⟩ := p
  obtain rfl : ys = ys1 := hys
  have h1 : d.TakesResult ((d1.setSample (x.withResult tier r ys)).countCompleted x.model tier) (x.withResult tier r ys) :=
    (hd.takesResult hs).withPlan
  exact ⟨_, .ite h1.withPlan h1, rfl⟩

end Dev

end Sys2Proof.Machine
end

section
/-! A sample whose result is taken is judged (R403, R407, R416), case by case; the admission groups (R405): joined, closed. -/

namespace Sys2Proof.Machine

/-- A sample whose candidacy has ended in a refusal. -/
def Sample.turnedDown (s : Sample) : Sample := { s with candidate := false, refused := true }

namespace Dev

variable {d e : Dev} {b : Batch} {s : Sample} {tier : Nat} {ys : Raw}

/-! ### Admission groups -/

/-- What closing the open group makes of the plan. -/
theorem closeGroup_eq (d : Dev) : d.closeGroup = { d with plan := { d.plan with
    openGroup := [], closedGroups := d.plan.closedGroups ++ if d.plan.openGroup = [] then [] else [d.plan.openGroup] } } := by
  unfold closeGroup
  by_cases h : d.plan.openGroup = []
  · rw [if_pos (by rw [h]; rfl), if_pos h, List.append_nil, ← h]
  · rw [if_neg (by rwa [List.isEmpty_iff]), if_neg h]

theorem moves_closeGroup (d : Dev) : d.Moves d.closeGroup [] [.plan] := by
  rw [closeGroup_eq]
  exact (Moves.refl _ _ _).withPlan (List.mem_singleton.2 rfl) _

/-- The open group with one more candidate, before it closes. -/
def groupJoined (d : Dev) (c : Cand) : Dev :=
  { d with plan := { d.plan with openGroup := d.plan.openGroup ++ [c], openSince := if d.plan.openGroup.isEmpty then d.ns else d.plan.openSince } }

theorem joinGroup_eq (d : Dev) (c : Cand) : d.joinGroup c =
    if bitsOf d.plan.planCfg 0 10 ≤ d.plan.openGroup.length + 1 then ((d.bump C.TKP_CANDIDATES).groupJoined c).closeGroup
    else (d.bump C.TKP_CANDIDATES).groupJoined c := by
  have hl : (d.plan.openGroup ++ [c]).length = d.plan.openGroup.length + 1 := by simp
  rw [← hl]
  rfl

theorem moves_joinGroup (d : Dev) (c : Cand) : d.Moves (d.joinGroup c) [C.TKP_CANDIDATES] [.plan] := by
  have h : d.Moves ((d.bump C.TKP_CANDIDATES).groupJoined c) [C.TKP_CANDIDATES] [.plan] :=
    ((Moves.refl _ _ _).bump (List.mem_singleton.2 rfl)).withPlan (List.mem_singleton.2 rfl) _
  rw [joinGroup_eq]
  exact .ite (h.trans ((moves_closeGroup _).mono (by simp) (fun _ h => h))) h

theorem counts_joinGroup (d : Dev) (c : Cand) : d.Counts (d.joinGroup c) C.TKP_CANDIDATES 1 := by
  have h : d.Counts ((d.bump C.TKP_CANDIDATES).groupJoined c) C.TKP_CANDIDATES 1 := d.word_bump_same C.TKP_CANDIDATES 1
  rw [joinGroup_eq]
  split
  · exact Moves.counts h (moves_closeGroup _) (by simp)
  · exact h

theorem computing_joinGroup (d : Dev) (c : Cand) : (d.joinGroup c).plan.computing = d.plan.computing := by
  rw [joinGroup_eq]
  split
  · rw [closeGroup_eq]
    rfl
  · rfl

theorem joinGroup_open {c : Cand} (h : d.plan.openGroup.length + 1 < bitsOf d.plan.planCfg 0 10) :
    (d.joinGroup c).plan.openGroup = d.plan.openGroup ++ [c] ∧ (d.joinGroup c).plan.closedGroups = d.plan.closedGroups := by
  rw [joinGroup_eq, if_neg (by omega)]
  exact ⟨rfl, rfl⟩

theorem joinGroup_full {c : Cand} (h : bitsOf d.plan.planCfg 0 10 ≤ d.plan.openGroup.length + 1) :
    (d.joinGroup c).plan.openGroup = []
      ∧ (d.joinGroup c).plan.closedGroups = d.plan.closedGroups ++ [d.plan.openGroup ++ [c]] := by
  have hg : ((d.bump C.TKP_CANDIDATES).groupJoined c).plan.openGroup = d.plan.openGroup ++ [c] := rfl
  rw [joinGroup_eq, if_pos h, closeGroup_eq, hg, if_neg (by simp)]
  exact ⟨rfl, rfl⟩

/-! ### The judgement -/

theorem judgeResult_over (h : s.done = true ∨ s.dead = true) : d.judgeResult b s tier ys = d := by
  unfold judgeResult
  exact if_pos (by simpa using h)

section

variable (hdone : s.done = false) (hdead : s.dead = false)
include hdone hdead

/-- Of a context that is faulted or in Step the results of the higher tiers are only kept. -/
theorem judgeResult_apart (ht : tier ≠ 0) (h : d.faulted s.context = true ∨ d.stepping s.context = true) :
    d.judgeResult b s tier ys = d := by
  unfold judgeResult
  by_cases hf : d.faulted s.context = true
  · simp [hdone, hdead, hf, ht]
  · simp [hdone, hdead, hf, ht, h.resolve_left hf]

theorem judgeResult_faulted (h : d.faulted s.context = true) :
    d.judgeResult b s 0 ys = d.verdictNow b s 0 (if d.stepping s.context then 0x440 else 0x400) 1 := by
  unfold judgeResult
  by_cases hs : d.stepping s.context = true <;> simp [hdone, hdead, h, hs]

theorem judgeResult_stepping (hf : d.faulted s.context = false) (h : d.stepping s.context = true) :
    d.judgeResult b s 0 ys = d.verdictNow b s 0 0x040 2 := by
  unfold judgeResult
  simp [hdone, hdead, hf, h]

variable (hf : d.faulted s.context = false) (hs : d.stepping s.context = false)
include hf hs

theorem judgeResult_waits (h : ∃ t ∈ s.admitted, tier < t) : d.judgeResult b s tier ys = d := by
  unfold judgeResult
  simp [hdone, hdead, hf, hs, h]

theorem judgeResult_last (hw : ¬∃ t ∈ s.admitted, tier < t) (h : tier = 2 ∨ (tier = 1 ∧ bitsOf d.plan.mode 1 1 = 1)) :
    d.judgeResult b s tier ys = d.verdictNow b s tier 0 0 := by
  unfold judgeResult
  simp [hdone, hdead, hf, hs, hw, h]

theorem judgeResult_tested (hw : ¬∃ t ∈ s.admitted, tier < t) (h : ¬(tier = 2 ∨ (tier = 1 ∧ bitsOf d.plan.mode 1 1 = 1))) :
    d.judgeResult b s tier ys = d.afterResult b s tier ys := by
  unfold judgeResult
  simp [hdone, hdead, hf, hs, hw, h]

end

theorem afterResult_none (h : d.wants s tier ys = none) : d.afterResult b s tier ys = d.verdictNow b s tier 0 0 := by
  unfold afterResult
  rw [h]

theorem afterResult_early {ts : List Nat} {dist : Nat × Nat} (h : d.wants s tier ys = some (ts, dist)) (hp : d.plan.plannedEnd = false) :
    d.afterResult b s tier ys = (d.setSample { s with candidate := true }).joinGroup ⟨s.slot, ts, dist⟩ := by
  unfold afterResult
  rw [h]
  exact if_neg (by simp [hp])

theorem afterResult_late {ts : List Nat} {dist : Nat × Nat} (h : d.wants s tier ys = some (ts, dist)) (hp : d.plan.plannedEnd = true) :
    d.afterResult b s tier ys = (d.bump C.TKP_REFUSED_CAP).refuse b s := by
  unfold afterResult
  rw [h]
  exact if_pos hp

theorem refuse_best {best : Nat} (h : s.best = some best) : d.refuse b s = d.verdictNow b s.turnedDown best 0x002 6 := by
  unfold refuse
  rw [h]
  rfl

end Dev

end Sys2Proof.Machine
end

section
/-! TIER_RESULT_WRITTEN as a command (R357, R403, R407, R416): each end that the judgement of a sample can come to, as O41 says it. -/

namespace Sys2Proof.Machine

/-- A result has been noted in the plan, and nothing else has come of it, as O41 says it. -/
def Dev.ResultKept (d : Dev) (slot : Nat) (y : Sample) (e : Dev) : Prop :=
  e.sample? slot = some y ∧ (∀ i, i ≠ slot → e.sample? i = d.sample? i) ∧ e.plan.openGroup = d.plan.openGroup
    ∧ e.plan.closedGroups = d.plan.closedGroups ∧ e.plan.left = d.plan.left ∧ d.KeepsWords e []
    ∧ d.KeepsParts e [.plan] ∧ d.KeepsMemory e

/-- A sample has joined the open group, as O41 says it. -/
def Dev.JoinedBy (d : Dev) (y : Sample) (c : Cand) (e : Dev) : Prop :=
  (∃ z, e.sample? y.slot = some z ∧ z.candidate = true ∧ z.done = false ∧ z.raw = y.raw ∧ z.ys = y.ys)
    ∧ (d.plan.openGroup.length + 1 < bitsOf d.plan.planCfg 0 10 →
        e.plan.openGroup = d.plan.openGroup ++ [c] ∧ e.plan.closedGroups = d.plan.closedGroups)
    ∧ (bitsOf d.plan.planCfg 0 10 ≤ d.plan.openGroup.length + 1 → e.plan.openGroup = []
        ∧ e.plan.closedGroups = d.plan.closedGroups ++ [d.plan.openGroup ++ [c]])
    ∧ d.Counts e C.TKP_CANDIDATES 1 ∧ d.KeepsWords e [C.TKP_CANDIDATES] ∧ d.KeepsParts e [.plan]
    ∧ d.KeepsMemory e

/-- A command that takes a result and comes to the judgement of its sample. -/
structure ResultRun (s : State) (c : Instr) (b : Batch) (y : Sample) (tier : Nat) (ys : Raw) (e : Dev) : Prop where
  takes : s.dev.TakesResult e y
  completes : ∀ {post : Dev → Prop} {x : Dev}, e.judgeResult b y tier ys = x → x.life = e.life → post x → Completes c s post

theorem exec_tierResultWritten (s : State) (slot : Nat) (tier : Fin 3) (raw : List Word32) : exec (.tierResultWritten slot tier raw) s =
    s.clocked (·.regionStopped 20) fun d => d.tierResult slot tier.val (raw.map fun x => x.toNat) := rfl

theorem resultRun {s : State} {b : Batch} {x : Sample} {slot : Nat} {tier : Fin 3} {raw : List Word32} {ys : Raw} (hr : s.RunsIn 20)
    (hb : s.dev.plan.computing = some b) (hx : s.dev.sample? slot = some x) (hl : (x.model, tier.val) ∉ s.dev.plan.lost)
    (hn : x.raw.getD tier.val none = none) (ha : tier.val = 0 ∨ tier.val ∈ x.admitted)
    (hys : ys = (linkY (s.dev.outBlock x.model tier.val) (raw.map fun w => w.toNat) s.dev).2) :
    ∃ e, ResultRun s (.tierResultWritten slot tier raw) b (x.withResult tier.val (raw.map fun w => w.toNat) ys) tier.val ys e := by
  obtain ⟨e, ht, he⟩ := Dev.tierResult_taken hb hx hl hn ha hys
  have hlife : e.life = s.dev.life := ht.moves.parts .life (by simp)
  refine ⟨e, ht, fun hj hxl hp => ?_⟩
  refine .ofClocked hr.1 hr.2 (exec_tierResultWritten s slot tier raw) ?_ ?_
  · rw [he, hj, hxl, hlife]
  · rw [he, hj]
    exact hp

namespace ResultRun

variable {s : State} {c : Instr} {b : Batch} {y : Sample} {tier : Nat} {ys : Raw} {e : Dev} (h : ResultRun s c b y tier ys e)
include h

theorem sample : e.sample? y.slot = some y := by rw [h.takes.samples, if_pos rfl]

theorem kept (he : e.judgeResult b y tier ys = e) : Completes c s (s.dev.ResultKept y.slot y) := by
  refine h.completes he rfl ⟨h.sample, fun i hi => ?_, ?_, ?_, ?_, h.takes.moves.words, h.takes.moves.parts, h.takes.moves.memory⟩
  · rw [h.takes.samples, if_neg hi]
  · rw [congrArg Plan.openGroup h.takes.plan]
  · rw [congrArg Plan.closedGroups h.takes.plan]
  · rw [congrArg Plan.left h.takes.plan]

variable {t flags reason : Nat}

theorem verdict (he : e.judgeResult b y tier ys = e.verdictNow b y t flags reason)
    (hr : s.dev.readable (s.dev.slotAddr b.set y.slot) 512 = true) : Completes c s (s.dev.Verdict y t flags reason) :=
  have hj := h.takes.plans.judges_verdictNow hr t flags reason
  h.completes he hj.life (h.takes.plans.verdict h.sample hj)

theorem lost (he : e.judgeResult b y tier ys = e.verdictNow b y t flags reason)
    (hr : s.dev.readable (s.dev.slotAddr b.set y.slot) 512 = false) (hd : y.done = false) : Completes c s fun d =>
      (∃ z, d.sample? y.slot = some z ∧ z.dead = true ∧ z.done = false) ∧ d.word C.TKP_VERDICTS = s.dev.word C.TKP_VERDICTS := by
  have hp := h.takes.plans
  obtain ⟨x, hx, hv⟩ := Dev.verdictNow_of_not_readable (d := e) (b := b) (s := y) (by rw [hp.slotAddr, hp.readable, hr]) t flags reason
  have hs : x.sample? y.slot = some y := (Dev.sample?_congr (by rw [congrArg Plan.computing hx.plan]) _).trans h.sample
  refine h.completes (he.trans hv) hx.life ⟨⟨_, Dev.sample?_setSample_same (x := { y with dead := true }) hs, rfl, hd⟩, ?_⟩
  exact (hx.words _ (by decide) le_rfl).trans (hp.moves.words _ (by decide))

theorem joins {ts : List Nat} {dist : Nat × Nat} (he : e.judgeResult b y tier ys = e.afterResult b y tier ys)
    (hw : s.dev.wants y tier ys = some (ts, dist)) (hn : s.dev.plan.plannedEnd = false) (hd : y.done = false) :
    Completes c s (s.dev.JoinedBy y ⟨y.slot, ts, dist⟩) := by
  have hp := h.takes.plans
  have hj := Dev.afterResult_early (b := b) ((hp.wants y tier ys).trans hw) (by rw [congrArg Plan.plannedEnd hp.plan]; exact hn)
  have hx : (e.setSample { y with candidate := true }).plan = { s.dev.plan with
      computing := (e.setSample { y with candidate := true }).plan.computing, completed := e.plan.completed, use := e.plan.use } := by
    rw [Dev.plan_setSample, h.takes.plan]
  have hs := Dev.sample?_setSample_same (x := { y with candidate := true }) h.sample
  have hm : s.dev.Moves (e.setSample { y with candidate := true }) [] [.plan] := h.takes.moves.withPlan (List.mem_singleton.2 rfl) _
  have hl : (e.setSample { y with candidate := true }).life = e.life := rfl
  generalize e.setSample { y with candidate := true } = x at hj hx hs hm hl
  have ho : x.plan.openGroup = s.dev.plan.openGroup := by rw [hx]
  have hc : x.plan.closedGroups = s.dev.plan.closedGroups := by rw [hx]
  have hg : x.plan.planCfg = s.dev.plan.planCfg := by rw [hx]
  have hmx := x.moves_joinGroup ⟨y.slot, ts, dist⟩
  have hm' : s.dev.Moves (x.joinGroup ⟨y.slot, ts, dist⟩) [C.TKP_CANDIDATES] [.plan] := (hm.mono (by simp) (fun _ h => h)).trans hmx
  have hlx : (x.joinGroup ⟨y.slot, ts, dist⟩).life = x.life := hmx.parts .life (by simp)
  refine h.completes (he.trans hj) (hlx.trans hl)
    ⟨⟨_, (Dev.sample?_congr (x.computing_joinGroup _) _).trans hs, rfl, hd, rfl, rfl⟩, fun hlt => ?_, fun hle => ?_, ?_, hm'.words, hm'.parts,
      hm'.memory⟩
  · rw [← ho, ← hc]
    exact Dev.joinGroup_open (by rwa [ho, hg])
  · rw [← ho, ← hc]
    exact Dev.joinGroup_full (by rwa [ho, hg])
  · have hcounts := x.counts_joinGroup ⟨y.slot, ts, dist⟩
    rwa [Dev.Counts, hm.words _ (by simp)] at hcounts

theorem refused {ts : List Nat} {dist : Nat × Nat} {best : Nat} (he : e.judgeResult b y tier ys = e.afterResult b y tier ys)
    (hw : s.dev.wants y tier ys = some (ts, dist)) (hn : s.dev.plan.plannedEnd = true) (hbest : y.best = some best)
    (hr : s.dev.readable (s.dev.slotAddr b.set y.slot) 512 = true) :
    Completes c s fun d => s.dev.Verdict y best 0x002 6 d ∧ (∃ z, d.sample? y.slot = some z ∧ z.refused = true ∧ z.candidate = false)
      ∧ s.dev.Counts d C.TKP_REFUSED_CAP 1 := by
  have hp := h.takes.plans
  have hq : s.dev.Plans (e.bump C.TKP_REFUSED_CAP) := hp.bump (by decide)
  have hl := Dev.afterResult_late (b := b) ((hp.wants y tier ys).trans hw) (by rw [congrArg Plan.plannedEnd hp.plan]; exact hn)
  have hj := hq.judges_verdictNow (b := b) (s := y.turnedDown) hr best 0x002 6
  have hs : (e.bump C.TKP_REFUSED_CAP).sample? y.slot = some y := h.sample
  refine h.completes (he.trans (hl.trans (Dev.refuse_best hbest))) hj.life
    ⟨hq.verdict (s := y.turnedDown) hs hj, ⟨_, hj.sample? hs, rfl, rfl⟩, ?_⟩
  rw [Dev.Counts, hj.words _ (by decide) (by decide), e.word_bump_same, h.takes.moves.words _ (by simp)]

end ResultRun

end Sys2Proof.Machine
end

section
/-! The commands on admission groups (R405 to R408, R411, R421): the time-out, the planned end, and the decision on a group of one
candidate. -/

namespace Sys2Proof.Machine

/-! ### Groups that close by the time -/

theorem exec_admissionGroupTimeout (s : State) : exec .admissionGroupTimeout s = s.clocked (·.regionStopped 20) fun d =>
    if d.plan.openGroup.isEmpty then d else (d.advance (d.plan.openSince + bitsOf d.plan.planCfg 16 8)).closeGroup := rfl

theorem exec_plannedEnd (s : State) : exec .plannedEnd s = s.clocked (·.regionStopped 20) fun d =>
    if d.plan.computing.isNone || d.plan.plannedEnd then d
    else
      { (d.advance (d.plan.tickNs + d.plan.period * 88 / 100)).closeGroup with
        plan := { (d.advance (d.plan.tickNs + d.plan.period * 88 / 100)).closeGroup.plan with plannedEnd := true } } := rfl

theorem Dev.moves_advance_closeGroup (d : Dev) (t : Nat) : d.Moves (d.advance t).closeGroup [] [.time, .plan] :=
  ((Dev.Moves.refl d _ _).advance (by simp) t).trans ((Dev.moves_closeGroup _).mono (by simp) (by simp))

theorem Dev.ns_advance_closeGroup (d : Dev) (t : Nat) : (d.advance t).closeGroup.ns = max d.ns t := by
  rw [closeGroup_eq]
  exact d.advance_ns t

theorem Dev.plan_advance_closeGroup (d : Dev) (t : Nat) : (d.advance t).closeGroup.plan = { d.plan with
    openGroup := [], closedGroups := d.plan.closedGroups ++ if d.plan.openGroup = [] then [] else [d.plan.openGroup] } := by
  rw [closeGroup_eq, advance_plan]

/-! ### The decision -/

/-- The sample of an admitted candidate. -/
def Sample.admittedTo (x : Sample) (ts : List Nat) : Sample :=
  { x with candidate := false, admitted := x.admitted ++ ts }

namespace Dev

variable {d e : Dev} {b : Batch} {c : Cand} {rest : List (List Cand)} {x : Sample}

/-- The oldest closed group taken. -/
def groupTaken (d : Dev) (rest : List (List Cand)) : Dev := { d with plan := { d.plan with closedGroups := rest } }

theorem decideGroup_idle (h : d.plan.computing = none ∨ d.plan.closedGroups = []) : d.decideGroup = d := by
  unfold decideGroup
  rcases h with h | h
  · rw [h]
    split <;> simp_all
  · rw [h]

theorem decideGroup_one (hb : d.plan.computing = some b) (hg : d.plan.closedGroups = [c] :: rest) :
    d.decideGroup = decideOne b (d.groupTaken rest) c := by
  unfold decideGroup
  rw [hb, hg]
  rfl

theorem plans_groupTaken (d : Dev) (rest : List (List Cand)) : d.Plans (d.groupTaken rest) := (Plans.refl d).withPlan rfl

/-- A candidate's charge is covered. -/
def Pays (d : Dev) (e : Nat) : Prop := d.on R.APR_STAT_THROTTLE = false ∧ fpLt d.plan.left 0 = false ∧ fpLe e d.plan.left = true

/-- Each tier asked for has capacity left. -/
def Room (d : Dev) (m : Nat) (ts : List Nat) : Prop := ∀ t ∈ ts, (d.tierUse m t).left ≠ 0

theorem decideOne_done (hx : d.sample? c.slot = some x) (h : x.done = true) : decideOne b d c = d := by
  unfold decideOne
  rw [hx]
  exact if_pos h

section

variable (hx : d.sample? c.slot = some x) (hd : x.done = false)
include hx hd

theorem decideOne_broke (h : ¬d.Pays (d.charge x.model c.tiers)) : decideOne b d c = d.refusedCredit.refuse b x := by
  unfold decideOne
  rw [hx]
  dsimp only
  rw [if_neg (by simp [hd]), if_pos]
  by_contra hn
  refine h ?_
  unfold Pays
  simp_all

theorem decideOne_full (hp : d.Pays (d.charge x.model c.tiers)) (h : ¬d.Room x.model c.tiers) :
    decideOne b d c = (d.bump C.TKP_REFUSED_CAP).refuse b x := by
  obtain ⟨hthr, hneg, hle⟩ := hp
  unfold Room at h
  unfold decideOne
  rw [hx]
  dsimp only
  rw [if_neg (by simp [hd]), if_neg (by simp [hthr, hneg, hle]), if_pos (by simpa using h)]

theorem decideOne_admits (hp : d.Pays (d.charge x.model c.tiers)) (h : d.Room x.model c.tiers) (hm : x.model < 15) :
    ∃ y, ((d.spend (d.charge x.model c.tiers)).setSample (x.admittedTo c.tiers)).Spares y
      ∧ decideOne b d c = y.each c.tiers (admitTier x.model) := by
  obtain ⟨hthr, hneg, hle⟩ := hp
  unfold Room at h
  have hoff : OffCascade (C.SEQ_INITIAL x.model) := offCascade_of_array fun _ => .inl (by simp only [C.TKP_CANDIDATES]; omega)
  unfold decideOne
  rw [hx]
  dsimp only
  rw [if_neg (by simp [hd]), if_neg (by simp [hthr, hneg, hle]), if_neg (by simpa using h)]
  exact ⟨_, ((Spares.refl _).bumpIf hoff).engineStep, rfl⟩

end

/-! ### Tiers admitted to -/

section

variable (d : Dev) (m t : Nat) (ts : List Nat)

theorem use_admitTier : (admitTier m d t).plan.use = Sparse.put d.plan.use (4 * m + t)
    { d.tierUse m t with admitted := (d.tierUse m t).admitted + 1, left := (d.tierUse m t).left - 1 } := rfl

theorem left_admitTier_same : ((admitTier m d t).tierUse m t).left = (d.tierUse m t).left - 1 := by
  rw [tierUse, use_admitTier, Sparse.find_put_same]
  rfl

theorem tierUse_admitTier_other {t' : Nat} (h : t' ≠ t) : (admitTier m d t).tierUse m t' = d.tierUse m t' := by
  rw [tierUse, use_admitTier, Sparse.find_put_other _ _ (by omega)]
  rfl

theorem word_admitTier {a : Nat} (p : Nat → Bool) (h : ∀ t, a = (if t = 1 then C.TKP_ADMITTED_T1 else C.TKP_ADMITTED_T2) ↔ p t = true) :
    (admitTier m d t).word a = (d.word a + if p t then 1 else 0) % 2 ^ 64 := by
  split
  · next hp =>
    rw [(h t).2 hp]
    exact word_bump_same _ _ _
  · next hp => exact (word_bump_other _ _ fun ha => hp ((h t).1 ha)).trans (Nat.mod_eq_of_lt (word_lt d a)).symm

/-- Of the tiers admitted to, each counts in the counter that is its own. -/
theorem counts_admitTiers {a : Nat} (p : Nat → Bool)
    (h : ∀ t, a = (if t = 1 then C.TKP_ADMITTED_T1 else C.TKP_ADMITTED_T2) ↔ p t = true) :
    d.Counts (d.each ts (admitTier m)) a (ts.filter p).length := by
  induction ts generalizing d with
  | nil => exact (Nat.mod_eq_of_lt (word_lt d a)).symm
  | cons t ts ih =>
    have hi : ((admitTier m d t).each ts (admitTier m)).word a = _ := ih (admitTier m d t)
    have hc : d.each (t :: ts) (admitTier m) = (admitTier m d t).each ts (admitTier m) := rfl
    rw [Counts, hc, hi, word_admitTier d m t p h, List.filter_cons]
    split
    · rw [List.length_cons]
      omega
    · omega

/-- The tiers admitted to change the plan's use of the tiers, and no other part of the plan. -/
theorem plan_admitTiers : (d.each ts (admitTier m)).plan = { d.plan with use := (d.each ts (admitTier m)).plan.use }
    ∧ (d.each ts (admitTier m)).life = d.life := by
  induction ts generalizing d with
  | nil => exact ⟨rfl, rfl⟩
  | cons t ts ih =>
    obtain ⟨hp, hl⟩ := ih (admitTier m d t)
    have hc : d.each (t :: ts) (admitTier m) = (admitTier m d t).each ts (admitTier m) := rfl
    rw [hc]
    exact ⟨by rw [hp]; rfl, hl⟩

theorem tierUse_admitTiers_other {t' : Nat} (h : t' ∉ ts) : (d.each ts (admitTier m)).tierUse m t' = d.tierUse m t' := by
  induction ts generalizing d with
  | nil => rfl
  | cons t ts ih =>
    obtain ⟨hne, hn⟩ : t' ≠ t ∧ t' ∉ ts := by simpa using h
    exact (ih (admitTier m d t) hn).trans (d.tierUse_admitTier_other m t hne)

theorem left_admitTiers (hn : ts.Nodup) : ∀ t ∈ ts, ((d.each ts (admitTier m)).tierUse m t).left = (d.tierUse m t).left - 1 := by
  induction ts generalizing d with
  | nil => simp
  | cons t ts ih =>
    obtain ⟨hnot, hn⟩ := List.nodup_cons.1 hn
    intro t' ht
    rcases List.mem_cons.1 ht with rfl | ht
    · exact (congrArg TierUse.left (tierUse_admitTiers_other (admitTier m d t') m ts hnot)).trans (d.left_admitTier_same m t')
    · have hne : t' ≠ t := fun he => hnot (he ▸ ht)
      exact (ih (admitTier m d t) hn t' ht).trans (by rw [d.tierUse_admitTier_other m t hne])

end

end Dev

end Sys2Proof.Machine
end

section
/-! ADMISSION_GROUP_DECIDE as a command, and O41. -/

namespace Sys2Proof.Machine

theorem exec_admissionGroupDecide (s : State) : exec .admissionGroupDecide s = s.clocked (·.regionStopped 20) Dev.decideGroup := rfl

theorem decideGroup_completes {s : State} {post : Dev → Prop} (hr : s.RunsIn 20) {e : Dev} (he : s.dev.decideGroup = e)
    (hl : e.life = s.dev.life) (hp : post e) : Completes .admissionGroupDecide s post :=
  .ofClocked hr.1 hr.2 (exec_admissionGroupDecide s) (by rw [he, hl]) (by rw [he]; exact hp)

/-- A candidate has been turned down, as O41 says it. -/
def Dev.TurnsDown (d : Dev) (rest : List (List Cand)) (x : Sample) (e : Dev) : Prop := e.plan.closedGroups = rest ∧ e.plan.left = d.plan.left
  ∧ ∃ z, e.sample? x.slot = some z ∧ z.refused = true ∧ z.done = true ∧ z.admitted = x.admitted

/-- A candidate has been admitted, as O41 says it. -/
def Dev.Admits (d : Dev) (rest : List (List Cand)) (x : Sample) (ts : List Nat) (e : Dev) : Prop :=
  e.plan.closedGroups = rest ∧ e.plan.left = fpSub d.plan.left (d.charge x.model ts)
    ∧ e.plan.charged = fpAdd d.plan.charged (d.charge x.model ts)
    ∧ (∃ z, e.sample? x.slot = some z ∧ z.admitted = x.admitted ++ ts ∧ z.candidate = false ∧ z.done = false)
    ∧ d.Counts e C.TKP_ADMITTED_T1 (ts.filter (· = 1)).length
    ∧ d.Counts e C.TKP_ADMITTED_T2 (ts.filter (· ≠ 1)).length
    ∧ (∀ t ∈ ts, ts.Nodup → (e.tierUse x.model t).left = (d.tierUse x.model t).left - 1)

namespace Dev

variable {d y : Dev} {b : Batch} {c : Cand} {rest : List (List Cand)} {x : Sample} {best a : Nat}

/-- A refusal counted, of a record that can be read. -/
theorem Plans.refuses (h : d.Plans y) (hx : y.sample? x.slot = some x) (hbest : x.best = some best)
    (hr : d.readable (d.slotAddr b.set x.slot) 512 = true) (hc : d.Counts y a 1) (h1 : C.TKP_CANDIDATES ≤ a) (h2 : a < C.TKP_VERDICTS) :
    d.TurnsDown y.plan.closedGroups x (y.refuse b x) ∧ d.Verdict x.turnedDown best 0x002 6 (y.refuse b x) ∧ d.Counts (y.refuse b x) a 1
      ∧ (y.refuse b x).life = d.life := by
  have hlife : y.life = d.life := h.part (p := .life)
  have hj := h.judges_verdictNow (b := b) (s := x.turnedDown) hr best 0x002 6
  rw [refuse_best hbest]
  exact ⟨⟨hj.closedGroups, hj.left.trans (by rw [congrArg Plan.left h.plan]), _, hj.sample? hx, rfl, rfl, rfl⟩,
    h.verdict (s := x.turnedDown) hx hj, (hj.words a h1 h2).trans hc, hj.life.trans hlife⟩

/-- A refusal for credit counted. -/
theorem refusedCredit_spec (d : Dev) : d.Plans d.refusedCredit ∧ d.Counts d.refusedCredit C.TKP_REFUSED_CREDIT 1
    ∧ d.refusedCredit.plan = { d.plan with exhausted := d.refusedCredit.plan.exhausted } := by
  have h1 : d.Plans (d.bump C.TKP_REFUSED_CREDIT) := (Plans.refl d).bump (by decide)
  have hc : d.Counts (d.bump C.TKP_REFUSED_CREDIT) C.TKP_REFUSED_CREDIT 1 := d.word_bump_same _ _
  unfold refusedCredit
  dsimp only
  split
  · exact ⟨h1, hc, rfl⟩
  · exact ⟨(h1.withPlan rfl).bump (by decide), (word_bump_other _ _ (by decide)).trans hc, rfl⟩

theorem admits_admitTiers (hx : d.sample? x.slot = some x) (hd : x.done = false) {ts : List Nat}
    (hy : ((d.spend (d.charge x.model ts)).setSample (x.admittedTo ts)).Spares y) :
    d.Admits d.plan.closedGroups x ts (y.each ts (admitTier x.model)) := by
  obtain ⟨hp, -⟩ := y.plan_admitTiers x.model ts
  have hplan := hy.plan
  have hs : y.sample? x.slot = some (x.admittedTo ts) :=
    (sample?_congr (by rw [congrArg Plan.computing hplan]) _).trans
      (sample?_setSample_same (d := d.spend (d.charge x.model ts)) (x := x.admittedTo ts) hx)
  have huse (t : Nat) : y.tierUse x.model t = d.tierUse x.model t := by
    unfold tierUse
    rw [congrArg Plan.use hplan]
    rfl
  have hw {a : Nat} (h1 : C.TKP_CANDIDATES ≤ a) (h2 : a ≤ C.TKP_VERDICTS) : y.word a = d.word a := hy.words a h1 h2
  refine ⟨?_, ?_, ?_, ⟨_, (sample?_congr (by rw [congrArg Plan.computing hp]) _).trans hs, rfl, rfl, hd⟩, ?_, ?_, fun t ht hn => ?_⟩
  · rw [congrArg Plan.closedGroups hp, congrArg Plan.closedGroups hplan]
    rfl
  · rw [congrArg Plan.left hp, congrArg Plan.left hplan]
    rfl
  · rw [congrArg Plan.charged hp, congrArg Plan.charged hplan]
    rfl
  · have h := y.counts_admitTiers x.model ts (a := C.TKP_ADMITTED_T1) (fun t => decide (t = 1)) fun t => by
      by_cases ht : t = 1 <;> simp [ht, C.TKP_ADMITTED_T1, C.TKP_ADMITTED_T2]
    rwa [Counts, hw (by decide) (by decide)] at h
  · have h := y.counts_admitTiers x.model ts (a := C.TKP_ADMITTED_T2) (fun t => decide (t ≠ 1)) fun t => by
      by_cases ht : t = 1 <;> simp [ht, C.TKP_ADMITTED_T1, C.TKP_ADMITTED_T2]
    rwa [Counts, hw (by decide) (by decide)] at h
  · rw [y.left_admitTiers x.model ts hn t ht, huse]

end Dev

end Sys2Proof.Machine
end

section
/-! The decision on a group of one candidate as a command, and O41. -/

namespace Sys2Proof.Machine

section

variable {s : State} {b : Batch} {c : Cand} {rest : List (List Cand)} {x : Sample} (hr : s.RunsIn 20)
  (hb : s.dev.plan.computing = some b) (hg : s.dev.plan.closedGroups = [c] :: rest) (hx : s.dev.sample? c.slot = some x)
include hr hb hg hx

theorem decides_done (hd : x.done = true) : Completes .admissionGroupDecide s fun d => d = s.dev.groupTaken rest :=
  decideGroup_completes hr ((Dev.decideGroup_one hb hg).trans (Dev.decideOne_done (d := s.dev.groupTaken rest) hx hd)) rfl rfl

variable (hd : x.done = false)
include hd

theorem decides_admits (hm : x.model < 15) (hp : s.dev.Pays (s.dev.charge x.model c.tiers)) (hroom : s.dev.Room x.model c.tiers) :
    Completes .admissionGroupDecide s (s.dev.Admits rest x c.tiers) := by
  obtain ⟨y, hy, he⟩ := Dev.decideOne_admits (b := b) (d := s.dev.groupTaken rest) hx hd hp hroom hm
  have hxs : (s.dev.groupTaken rest).sample? x.slot = some x := by
    rw [← Dev.slot_of_sample? hx] at hx
    exact hx
  obtain ⟨-, hl⟩ := y.plan_admitTiers x.model c.tiers
  exact decideGroup_completes hr ((Dev.decideGroup_one hb hg).trans he) (hl.trans hy.life) (Dev.admits_admitTiers hxs hd hy)

variable {best : Nat} (hbest : x.best = some best) (hread : s.dev.readable (s.dev.slotAddr b.set x.slot) 512 = true)
include hbest hread

theorem decides_broke (hp : ¬s.dev.Pays (s.dev.charge x.model c.tiers)) : Completes .admissionGroupDecide s fun d =>
    s.dev.TurnsDown rest x d ∧ s.dev.Verdict x.turnedDown best 0x002 6 d ∧ s.dev.Counts d C.TKP_REFUSED_CREDIT 1 := by
  have he := Dev.decideOne_broke (b := b) (d := s.dev.groupTaken rest) hx hd hp
  obtain ⟨hq, hc, hplan⟩ := (s.dev.groupTaken rest).refusedCredit_spec
  have hxs : (s.dev.groupTaken rest).refusedCredit.sample? x.slot = some x := by
    rw [Dev.slot_of_sample? hx, Dev.sample?_congr (d := s.dev.groupTaken rest) (by rw [congrArg Plan.computing hplan])]
    exact hx
  obtain ⟨ht, hv, hc, hl⟩ := ((s.dev.plans_groupTaken rest).trans hq).refuses hxs hbest hread hc (by decide) (by decide)
  rw [congrArg Plan.closedGroups hplan] at ht
  exact decideGroup_completes hr ((Dev.decideGroup_one hb hg).trans he) hl ⟨ht, hv, hc⟩

theorem decides_full (hp : s.dev.Pays (s.dev.charge x.model c.tiers)) (hroom : ¬s.dev.Room x.model c.tiers) :
    Completes .admissionGroupDecide s fun d =>
      s.dev.TurnsDown rest x d ∧ s.dev.Verdict x.turnedDown best 0x002 6 d ∧ s.dev.Counts d C.TKP_REFUSED_CAP 1 := by
  have he := Dev.decideOne_full (b := b) (d := s.dev.groupTaken rest) hx hd hp hroom
  have hxs : ((s.dev.groupTaken rest).bump C.TKP_REFUSED_CAP).sample? x.slot = some x := by
    rw [Dev.slot_of_sample? hx]
    exact hx
  obtain ⟨ht, hv, hc, hl⟩ := ((s.dev.plans_groupTaken rest).bump (by decide)).refuses hxs hbest hread
    ((s.dev.groupTaken rest).word_bump_same C.TKP_REFUSED_CAP 1) (by decide) (by decide)
  exact decideGroup_completes hr ((Dev.decideGroup_one hb hg).trans he) hl ⟨ht, hv, hc⟩

end

theorem admissionGroupTimeout_completes {s : State} (hr : s.RunsIn 20) (h : s.dev.plan.openGroup ≠ []) :
    Completes .admissionGroupTimeout s fun d =>
      d.plan = { s.dev.plan with openGroup := [], closedGroups := s.dev.plan.closedGroups ++ [s.dev.plan.openGroup] }
        ∧ d.ns = max s.dev.ns (s.dev.plan.openSince + bitsOf s.dev.plan.planCfg 16 8) ∧ s.dev.KeepsWords d []
        ∧ s.dev.KeepsParts d [.time, .plan] ∧ s.dev.KeepsMemory d := by
  have hx : (if s.dev.plan.openGroup.isEmpty then s.dev else
      (s.dev.advance (s.dev.plan.openSince + bitsOf s.dev.plan.planCfg 16 8)).closeGroup)
        = (s.dev.advance (s.dev.plan.openSince + bitsOf s.dev.plan.planCfg 16 8)).closeGroup := if_neg (by rwa [List.isEmpty_iff])
  have hm := s.dev.moves_advance_closeGroup (s.dev.plan.openSince + bitsOf s.dev.plan.planCfg 16 8)
  refine .ofClocked hr.1 hr.2 (exec_admissionGroupTimeout s) ?_ ?_ <;> rw [hx]
  · exact hm.parts .life (by simp)
  · exact ⟨by rw [Dev.plan_advance_closeGroup, if_neg h], s.dev.ns_advance_closeGroup _, hm.words, hm.parts, hm.memory⟩

theorem plannedEnd_completes {s : State} (hr : s.RunsIn 20) (hc : s.dev.plan.computing ≠ none) (hp : s.dev.plan.plannedEnd = false) :
    Completes .plannedEnd s fun d =>
      d.plan = { s.dev.plan with plannedEnd := true, openGroup := [], closedGroups := d.plan.closedGroups }
        ∧ d.plan.closedGroups = s.dev.plan.closedGroups ++ (if s.dev.plan.openGroup = [] then [] else [s.dev.plan.openGroup])
        ∧ d.ns = max s.dev.ns (s.dev.plan.tickNs + s.dev.plan.period * 88 / 100) ∧ s.dev.KeepsWords d []
        ∧ s.dev.KeepsParts d [.time, .plan] ∧ s.dev.KeepsMemory d := by
  have hgo : ¬((s.dev.plan.computing.isNone || s.dev.plan.plannedEnd) = true) := by simpa [hp, Option.isNone_iff_eq_none] using hc
  have hm := s.dev.moves_advance_closeGroup (s.dev.plan.tickNs + s.dev.plan.period * 88 / 100)
  have hn := s.dev.ns_advance_closeGroup (s.dev.plan.tickNs + s.dev.plan.period * 88 / 100)
  have hplan := s.dev.plan_advance_closeGroup (s.dev.plan.tickNs + s.dev.plan.period * 88 / 100)
  refine .ofClocked hr.1 hr.2 (exec_plannedEnd s) ?_ ?_ <;> rw [if_neg hgo] <;>
    generalize (s.dev.advance (s.dev.plan.tickNs + s.dev.plan.period * 88 / 100)).closeGroup = x at hm hn hplan ⊢
  · exact hm.parts .life (by simp)
  · have hm' := hm.withPlan (by simp) { x.plan with plannedEnd := true }
    exact ⟨by rw [hplan], by rw [hplan], hn, hm'.words, hm'.parts, hm'.memory⟩

/-- Settles O41: a result is noted and its sample judged; groups close; the decision on a lone candidate admits it or turns it down. -/
theorem verdictsAndAdmission : Obligations.VerdictsAndAdmission := by
  intro s hr readable verdict
  refine ⟨fun slot tier raw h => ?_, fun b slot tier raw x hb hx => ⟨fun h => ?_, fun hl hn ha _ _ => ?_⟩, fun hne => ?_, fun he => ?_,
    fun hc hp => ?_, fun h => ?_, fun h => ?_, fun b c rest x hb hg hx hm => ?_⟩
  · exact exec_of_unchanged (exec_tierResultWritten s slot tier raw) (Dev.tierResult_no_sample h)
  · exact exec_of_unchanged (exec_tierResultWritten s slot tier raw) (Dev.tierResult_spurned hb hx h)
  · obtain rfl := Dev.slot_of_sample? hx
    intro r ys y kept waits last
    obtain ⟨e, h⟩ := resultRun (ys := ys) hr hb hx hl hn ha rfl
    have hpl := h.takes.plans
    have hfault : e.faulted y.context = s.dev.faulted x.context := hpl.faulted x.context
    have hstep : e.stepping y.context = s.dev.stepping x.context := hpl.stepping x.context
    have hlast : bitsOf e.plan.mode 1 1 = bitsOf s.dev.plan.mode 1 1 := by rw [hpl.mode]
    refine ⟨fun hd => h.kept (Dev.judgeResult_over hd), fun hd hdd ht hc => ?_, fun hd hdd ht hread => ⟨fun hf => ?_, fun hf hs => ?_⟩,
      fun hd hdd hf hs => ?_⟩
    · exact h.kept (Dev.judgeResult_apart hd hdd ht (by rw [← hfault, ← hstep] at hc; exact hc))
    · obtain rfl : tier = 0 := Fin.ext ht
      rw [← hstep]
      exact h.verdict (Dev.judgeResult_faulted hd hdd (hfault.trans hf)) hread
    · obtain rfl : tier = 0 := Fin.ext ht
      exact h.verdict (Dev.judgeResult_stepping hd hdd (hfault.trans hf) (hstep.trans hs)) hread
    · have hf' := hfault.trans hf
      have hs' := hstep.trans hs
      have hj (hw : ¬waits) (hla : ¬last) : e.judgeResult b y tier ys = e.afterResult b y tier ys :=
        Dev.judgeResult_tested hd hdd hf' hs' hw (by rw [hlast]; exact hla)
      refine ⟨fun hw => h.kept (Dev.judgeResult_waits hd hdd hf' hs' hw), fun hw hla hread => ?_, fun hw hla hwant hread => ?_,
        fun hw hor hread => ?_, fun ts dist hw hla hwant => ⟨fun hpe => ?_, fun hpe hread best hbest => ?_⟩⟩
      · exact h.verdict (Dev.judgeResult_last hd hdd hf' hs' hw (by rw [hlast]; exact hla)) hread
      · exact h.verdict ((hj hw hla).trans (Dev.afterResult_none ((hpl.wants _ _ _).trans hwant))) hread
      · by_cases hla : last
        · exact h.lost (Dev.judgeResult_last hd hdd hf' hs' hw (by rw [hlast]; exact hla)) hread hd
        · exact h.lost ((hj hw hla).trans (Dev.afterResult_none ((hpl.wants _ _ _).trans (hor.resolve_left hla)))) hread hd
      · exact h.joins (hj hw hla) hwant hpe hd
      · exact h.refused (hj hw hla) hwant hpe hbest hread
  · exact admissionGroupTimeout_completes hr hne
  · exact exec_of_unchanged (exec_admissionGroupTimeout s) (if_pos (by rw [he]; rfl))
  · exact plannedEnd_completes hr hc hp
  · exact exec_of_unchanged (exec_plannedEnd s) (if_pos (by simpa using h))
  · exact exec_of_unchanged (exec_admissionGroupDecide s) (Dev.decideGroup_idle h)
  · rw [← Dev.slot_of_sample? hx]
    exact ⟨decides_done hr hb hg hx, fun hd hp hroom => decides_admits hr hb hg hx hd hm hp hroom,
      fun best hd hp hbest hread => decides_broke hr hb hg hx hd hbest hread hp,
      fun best hd hp hroom hbest hread => decides_full hr hb hg hx hd hbest hread hp hroom⟩

end Sys2Proof.Machine
end
